-- ==== Sys2Proof/Word.lean ====
section
/-! DEFINITION. The word types of the model and the shape of its sparse tables. -/
namespace Sys2Proof

/-- A 64-bit register value (R85). -/
abbrev Word := BitVec 64

/-- A 32-bit value: an instruction word (R94), a binary32 value (R101), a 32-bit counter. -/
abbrev Word32 := BitVec 32

/-- One byte. -/
abbrev Byte := BitVec 8

/-- A completion status (R20). -/
abbrev Status := BitVec 8

/-- A register number x0 to x31 (R94). -/
abbrev Reg := BitVec 5

/-- A table keyed by unit number, held as the entries that differ from the table's rest value, numbers rising. -/
abbrev Map (α : Type) := List (Nat × α)

end Sys2Proof
end

