-- ==== Sys2Proof/Syntax.lean ====
section
/-! DEFINITION. The commands of the model: one constructor per row of the opcode table, with its operands. An instruction
row carries the issue (core, context, beat) and the instruction's fields; a write row the value written; an event row
what the environment contributes (measurements, counts, answers of other devices). -/
namespace Sys2Proof

/-- The issue of an instruction: the core's beat on which the stage issues it for a context (R87). -/
structure Issue where
  core : Nat
  ctx : Nat
  beat : Nat
  deriving DecidableEq, Repr

/-- The operation of an atomic (R110). -/
inductive AmoOp where
  | add | and | or | xor | swap | cas | min | max | minu | maxu
  deriving DecidableEq, Repr

/-- The operation of a VEC instruction (R124). -/
inductive VOp where
  | vadd | vsub | vmul | vfma | vmax | vmin | vabs | vneg | vscale | vaxpy | vexp | vrecip | vrsqrt | vtanh
  | vsum | vmaxr | vdot | vsoftmax | vcmplt | vsel | vcvt | vwupd | vcopy | vfill
  deriving DecidableEq, Repr

/-- A read that is served at a slice or core store: its request, and bits of its line that have been upset since it was written (R449). -/
structure StoreRead where
  id : Nat
  flips : List (Nat × Byte)
  deriving DecidableEq, Repr

/-- A line whose refetch returns: its address ÷ 64, and what another member's source answered (R451). -/
structure Refetch where
  line : Nat
  remote : Option (Status × List Byte)
  deriving DecidableEq, Repr

/-- A cell of an array that gives a wrong sum in a pass: a product cell's Q for a lane, streamed row and column, the checksum
column's sum for a lane and row, or the checksum row's for a lane and column (R166, R168). -/
inductive CellFault where
  | product (lane row col : Nat) (delta : Int)
  | checkColumn (lane row : Nat) (delta : Int)
  | checkRow (lane col : Nat) (delta : Int)
  deriving DecidableEq, Repr

/-- The session that a request of the object dictionary comes from (R635, R645): the mailbox, the head on behalf of its mailbox, or a
JOP source: an IPv6 or IPv4-mapped address and a UDP port. -/
inductive Requester where
  | mailbox
  | head (level : Nat)
  | jop (address port : Nat)
  deriving DecidableEq, Repr

/-- What a regulator phase measured over a 10 µs window, as means in mA and mV, at its local output and at its input; whether its sensing
fails its self-check, and what its sense points read in mV (R535, R536, R548, R550). -/
structure PhaseSample where
  tower : Nat
  phase : Nat
  outMA : Nat
  outMV : Nat
  inMA : Nat
  inMV : Nat
  badSense : Bool
  points : List Nat
  deriving DecidableEq, Repr

/-- The module's inputs over the same window: auxiliary input power in mW, both input voltages in mV, and the filtered levels of
COOLANT_OK and of the group tick's presence (R548, R702). -/
structure InputSample where
  auxMW : Nat
  in1V8 : Nat
  in3V3 : Nat
  coolantOk : Bool
  gtick : Bool
  deriving DecidableEq, Repr

/-- The activity counts of one queue on one core over a millisecond, kinds 0 to 7 (R551). -/
structure Account where
  core : Nat
  queue : Nat
  counts : List Nat
  deriving DecidableEq, Repr

/-- What a self-test found in an array (R608): the logical product rows and columns at fault; whether it passes once repaired; another
fault than in product rows and columns. -/
structure ArrayTest where
  core : Nat
  array : Nat
  rows : List Nat
  cols : List Nat
  other : Bool
  retestOk : Bool
  deriving DecidableEq, Repr

/-- The results of a field's self-test (R607): the replica ring passes; failing sensors and phases by index in the tower; cores
that fail one of tests 4 to 8; slices that fail; arrays with faults. -/
structure SelfTest where
  ringOk : Bool
  sensors : List Nat
  phases : List Nat
  cores : List Nat
  slices : List Nat
  arrays : List ArrayTest
  deriving DecidableEq, Repr

/-- What step 3 of the cold boot found (R596, R609, R610): failing channels, channels with a failing hen, failing towers and bridges. -/
structure ChannelTest where
  channels : List Nat
  hens : List Nat
  towers : List Nat
  bridges : List Nat
  deriving DecidableEq, Repr

/-- What a NOTIFY packet of a member carries (R473, R658): a completion with its record and address in host memory and its vector,
where it has them; or notice of an event. -/
inductive Notice where
  | completion (record : Option (Nat × List Byte)) (vector : Option (BitVec 11))
  | event
  deriving DecidableEq, Repr

/-- A configuration request: a read or write of a register of configuration space, or a write of one that R466 and R468 name by what it does:
the Resizable BAR control, which sets BAR4 to 4 GiB × 2^size, Memory Space and Bus Master Enable, the MSI-X control, the power state and the
AER status, whose ones are cleared. -/
inductive ConfigRequest where
  | read (register : Nat)
  | write (register : Nat) (value : BitVec 32)
  | resizeBar4 (size : Nat)
  | command (memory busMaster : Bool)
  | msixControl (enable mask : Bool)
  | power (d3hot : Bool)
  | aerClear (bits : Nat)
  deriving DecidableEq, Repr

/-- A flit of a device link: its virtual channel, control word and 64 data bytes (R483, R484). -/
structure Flit where
  vc : Nat
  control : BitVec 128
  data : List Byte
  deriving DecidableEq, Repr

/-- The commands. -/
inductive Instr where
  -- chapter 1: control hierarchy
  | heartbeat
  | stewardTakeover
  | stewardLost
  | mgmtRingSegmentFail (segment : Nat)
  | stretchRequest (core level : Nat) (value : Nat)
  -- chapter 2: pace
  | paceWindow (field : Nat) (count : Nat)
  | linkPaceWindow (tower : Nat) (slowest : Nat)
  | paceHostTargetWrite (value : BitVec 16)
  -- chapter 3: integer immediates
  | addi (at_ : Issue) (xd xa : Reg) (imm : BitVec 16)
  | andi (at_ : Issue) (xd xa : Reg) (imm : BitVec 16)
  | ori (at_ : Issue) (xd xa : Reg) (imm : BitVec 16)
  | xori (at_ : Issue) (xd xa : Reg) (imm : BitVec 16)
  | slti (at_ : Issue) (xd xa : Reg) (imm : BitVec 16)
  | sltiu (at_ : Issue) (xd xa : Reg) (imm : BitVec 16)
  | slli (at_ : Issue) (xd xa : Reg) (imm : BitVec 16)
  | srli (at_ : Issue) (xd xa : Reg) (imm : BitVec 16)
  | srai (at_ : Issue) (xd xa : Reg) (imm : BitVec 16)
  | lui (at_ : Issue) (xd : Reg) (imm : BitVec 21)
  | shlor (at_ : Issue) (xd xa : Reg) (imm : BitVec 16)
  -- integer registers
  | add (at_ : Issue) (xd xa xb : Reg)
  | sub (at_ : Issue) (xd xa xb : Reg)
  | and (at_ : Issue) (xd xa xb : Reg)
  | or (at_ : Issue) (xd xa xb : Reg)
  | xor (at_ : Issue) (xd xa xb : Reg)
  | sll (at_ : Issue) (xd xa xb : Reg)
  | srl (at_ : Issue) (xd xa xb : Reg)
  | sra (at_ : Issue) (xd xa xb : Reg)
  | slt (at_ : Issue) (xd xa xb : Reg)
  | sltu (at_ : Issue) (xd xa xb : Reg)
  | min (at_ : Issue) (xd xa xb : Reg)
  | max (at_ : Issue) (xd xa xb : Reg)
  | minu (at_ : Issue) (xd xa xb : Reg)
  | maxu (at_ : Issue) (xd xa xb : Reg)
  | mul (at_ : Issue) (xd xa xb : Reg)
  | mulh (at_ : Issue) (xd xa xb : Reg)
  | mulhu (at_ : Issue) (xd xa xb : Reg)
  | div (at_ : Issue) (xd xa xb : Reg)
  | divu (at_ : Issue) (xd xa xb : Reg)
  | rem (at_ : Issue) (xd xa xb : Reg)
  | remu (at_ : Issue) (xd xa xb : Reg)
  | clz (at_ : Issue) (xd xa xb : Reg)
  | ctz (at_ : Issue) (xd xa xb : Reg)
  | popc (at_ : Issue) (xd xa xb : Reg)
  -- scalar float
  | fadd (at_ : Issue) (xd xa xb : Reg)
  | fsub (at_ : Issue) (xd xa xb : Reg)
  | fmul (at_ : Issue) (xd xa xb : Reg)
  | fmin (at_ : Issue) (xd xa xb : Reg)
  | fmax (at_ : Issue) (xd xa xb : Reg)
  | flt (at_ : Issue) (xd xa xb : Reg)
  | fle (at_ : Issue) (xd xa xb : Reg)
  | feq (at_ : Issue) (xd xa xb : Reg)
  | fabs (at_ : Issue) (xd xa xb : Reg)
  | fneg (at_ : Issue) (xd xa xb : Reg)
  | cvt (at_ : Issue) (xd xa : Reg) (fn : BitVec 11)
  -- branches and jumps
  | beq (at_ : Issue) (xa xb : Reg) (off : BitVec 16)
  | bne (at_ : Issue) (xa xb : Reg) (off : BitVec 16)
  | blt (at_ : Issue) (xa xb : Reg) (off : BitVec 16)
  | bge (at_ : Issue) (xa xb : Reg) (off : BitVec 16)
  | bltu (at_ : Issue) (xa xb : Reg) (off : BitVec 16)
  | bgeu (at_ : Issue) (xa xb : Reg) (off : BitVec 16)
  | jal (at_ : Issue) (xd : Reg) (imm : BitVec 21)
  | jalr (at_ : Issue) (xd xa : Reg) (imm : BitVec 16)
  -- loads and stores
  | lbL (at_ : Issue) (xd xa : Reg) (imm : BitVec 16)
  | lbuL (at_ : Issue) (xd xa : Reg) (imm : BitVec 16)
  | lhL (at_ : Issue) (xd xa : Reg) (imm : BitVec 16)
  | lhuL (at_ : Issue) (xd xa : Reg) (imm : BitVec 16)
  | lwL (at_ : Issue) (xd xa : Reg) (imm : BitVec 16)
  | lwuL (at_ : Issue) (xd xa : Reg) (imm : BitVec 16)
  | ldL (at_ : Issue) (xd xa : Reg) (imm : BitVec 16)
  | lbG (at_ : Issue) (xd xa : Reg) (imm : BitVec 16)
  | lbuG (at_ : Issue) (xd xa : Reg) (imm : BitVec 16)
  | lhG (at_ : Issue) (xd xa : Reg) (imm : BitVec 16)
  | lhuG (at_ : Issue) (xd xa : Reg) (imm : BitVec 16)
  | lwG (at_ : Issue) (xd xa : Reg) (imm : BitVec 16)
  | lwuG (at_ : Issue) (xd xa : Reg) (imm : BitVec 16)
  | ldG (at_ : Issue) (xd xa : Reg) (imm : BitVec 16)
  | sbL (at_ : Issue) (xd xa : Reg) (imm : BitVec 16)
  | shL (at_ : Issue) (xd xa : Reg) (imm : BitVec 16)
  | swL (at_ : Issue) (xd xa : Reg) (imm : BitVec 16)
  | sdL (at_ : Issue) (xd xa : Reg) (imm : BitVec 16)
  | sbG (at_ : Issue) (xd xa : Reg) (imm : BitVec 16)
  | shG (at_ : Issue) (xd xa : Reg) (imm : BitVec 16)
  | swG (at_ : Issue) (xd xa : Reg) (imm : BitVec 16)
  | sdG (at_ : Issue) (xd xa : Reg) (imm : BitVec 16)
  -- atomics
  | amoLAdd (at_ : Issue) (xd xa xb : Reg)
  | amoLAnd (at_ : Issue) (xd xa xb : Reg)
  | amoLOr (at_ : Issue) (xd xa xb : Reg)
  | amoLXor (at_ : Issue) (xd xa xb : Reg)
  | amoLSwap (at_ : Issue) (xd xa xb : Reg)
  | amoLCas (at_ : Issue) (xd xa xb : Reg)
  | amoLMin (at_ : Issue) (xd xa xb : Reg)
  | amoLMax (at_ : Issue) (xd xa xb : Reg)
  | amoLMinu (at_ : Issue) (xd xa xb : Reg)
  | amoLMaxu (at_ : Issue) (xd xa xb : Reg)
  | amoGAdd (at_ : Issue) (xd xa xb : Reg)
  | amoGAnd (at_ : Issue) (xd xa xb : Reg)
  | amoGOr (at_ : Issue) (xd xa xb : Reg)
  | amoGXor (at_ : Issue) (xd xa xb : Reg)
  | amoGSwap (at_ : Issue) (xd xa xb : Reg)
  | amoGCas (at_ : Issue) (xd xa xb : Reg)
  | amoGMin (at_ : Issue) (xd xa xb : Reg)
  | amoGMax (at_ : Issue) (xd xa xb : Reg)
  | amoGMinu (at_ : Issue) (xd xa xb : Reg)
  | amoGMaxu (at_ : Issue) (xd xa xb : Reg)
  -- commands to the units
  | dma (at_ : Issue) (xd xa : Reg) (wc : BitVec 2) (w : Bool)
  | tile (at_ : Issue) (xd xa xb : Reg) (wc : BitVec 2) (w : Bool) (sub : BitVec 8)
  | vadd (at_ : Issue) (xd xa xb : Reg)
  | vsub (at_ : Issue) (xd xa xb : Reg)
  | vmul (at_ : Issue) (xd xa xb : Reg)
  | vfma (at_ : Issue) (xd xa xb xc : Reg)
  | vmax (at_ : Issue) (xd xa xb : Reg)
  | vmin (at_ : Issue) (xd xa xb : Reg)
  | vabs (at_ : Issue) (xd xa : Reg)
  | vneg (at_ : Issue) (xd xa : Reg)
  | vscale (at_ : Issue) (xd xa xb : Reg)
  | vaxpy (at_ : Issue) (xd xa xb xc : Reg)
  | vexp (at_ : Issue) (xd xa : Reg)
  | vrecip (at_ : Issue) (xd xa : Reg)
  | vrsqrt (at_ : Issue) (xd xa : Reg)
  | vtanh (at_ : Issue) (xd xa : Reg)
  | vsum (at_ : Issue) (xd xa : Reg)
  | vmaxr (at_ : Issue) (xd xa : Reg)
  | vdot (at_ : Issue) (xd xa xb : Reg)
  | vsoftmax (at_ : Issue) (xd xa : Reg)
  | vcmplt (at_ : Issue) (xd xa xb : Reg)
  | vsel (at_ : Issue) (xd xa xb xc : Reg)
  | vcvt (at_ : Issue) (xd xa : Reg)
  | vwupd (at_ : Issue) (xd xa xb xc : Reg)
  | vcopy (at_ : Issue) (xd xa : Reg)
  | vfill (at_ : Issue) (xd xb : Reg)
  | syncAdd (at_ : Issue) (xd xa xb : Reg) (wc : BitVec 2) (w : Bool)
  | syncWait (at_ : Issue) (xd xa : Reg)
  | syncRead (at_ : Issue) (xd xa : Reg)
  | syncArm (at_ : Issue) (xd xa xb : Reg) (wc : BitVec 2) (w : Bool)
  | quePush (at_ : Issue) (xd xa xb : Reg)
  | queExit (at_ : Issue) (xb : Reg)
  | waitc (at_ : Issue) (xd : Reg) (imm : BitVec 16)
  | fence (at_ : Issue) (imm : BitVec 16)
  | csrr (at_ : Issue) (xd : Reg) (imm : BitVec 16)
  | csrw (at_ : Issue) (xa : Reg) (imm : BitVec 16)
  | brk (at_ : Issue) (imm : BitVec 21)
  -- thread events
  | waitUnitRelease (core ctx : Nat)
  | readRsp (id : Nat) (remote : Option (Status × List Byte))
  | writeAck (id : Nat) (remote : Option Status)
  | atomicRsp (id : Nat) (remote : Option (Status × List Byte))
  | taskComplete (core ctx : Nat)
  | contextRelease (value : BitVec 32)
  | contextKill (value : BitVec 32)
  | vectorOpStart (core : Nat)
  | vectorOpComplete (core : Nat)
  -- chapters 4 and 5: tiles, goose, numeric counters
  | tileHoldEnd (core array : Nat)
  | tileStart (core array : Nat)
  | tilePassEnd (core array : Nat) (faults : List CellFault)
  | tileOperandFail (core array : Nat)
  | rampStep (field : Nat)
  | gooseRecompute (core array : Nat)
  | gooseWaitExpiry (core array : Nat)
  | gooseSeedWrite (value : BitVec 32)
  | numericClear (value : BitVec 32)
  -- chapter 1
  | standbyStewardFailed
  -- chapter 10
  | doorbell (queue bytes offset : Nat) (value : BitVec 64)
  | qcbWrite (queue word : Nat) (value : BitVec 64) (low high : Bool)
  | resetIndices (queue : Nat)
  | flush (queue : Nat)
  | dispatcherTake (core : Nat)
  | queueAged (queue : Nat)
  | fieldForecast (field : Nat)
  -- chapters 6 and 9: channels, packets, hash
  | windowInsert (id : Nat)
  | commandChoose (channel : Nat)
  | dramReadData (channel : Nat) (flips : List (Nat × Byte))
  | hashImbalWindow (tower : Nat)
  | hashImbalRepeat (tower : Nat)
  | hashKeyWrite (sub : Nat) (value : BitVec 64)
  | readPacket (read : StoreRead)
  | writePacket (id : Nat)
  | atomicPacket (id : Nat)
  -- chapter 7: hens
  | refreshOwed (field layer : Nat)
  | henSeq (core : Nat)
  | vload (channel : Nat)
  | dot (channel : Nat)
  | kvscore (channel : Nat)
  | kvmix (channel : Nat)
  | chainsum (channel : Nat)
  | rowscale (channel : Nat)
  | rowaxpy (channel : Nat)
  | rowgather (channel : Nat)
  | henSegmentEnd (channel : Nat)
  | chainHop (channel : Nat)
  | delivery (channel : Nat)
  | throttledTimeout (channel : Nat)
  | layerDutyWindow (field : Nat)
  | henHaltWrite (value : BitVec 8)
  -- chapter 8: key/value regions
  | kvAppend (core : Nat) (remote : Option (Status × List Byte))
  | kvAppendComplete (channel : Nat)
  | kvAnswer (primary cont : BitVec 64)
  | kvAnswerTimeout (channel : Nat)
  -- chapter 9: routers, multicast, reductions, leases, sync objects
  | flitForward (router output carried : Nat)
  | multicast (core : Nat) (remote : Option (Status × List Byte))
  | multicastComplete (core : Nat)
  | leaseAcquire (id : Nat)
  | leaseRelease (id : Nat)
  | leaseForceRelease (value : BitVec 16)
  | reduce (core : Nat) (remote : Option (Status × List Byte))
  | redPartial (lease router : Nat)
  | fallbackMerge (lease : Nat)
  | redDone (lease : Nat) (remote : Option Status)
  | roundTimeout (lease : Nat)
  | objectAdd (id : Nat)
  | objectWait (id : Nat)
  | objectRead (id : Nat)
  | objectArm (id : Nat)
  | syncRsp (id : Nat) (remote : Option (Status × Word32))
  | release (cluster object : Nat) (remote : Option Status)
  | syncReset (value : BitVec 32)
  -- chapters 10 and 11: DMA modes, scrubs, recovery
  | copy (core : Nat) (remote : Option (Status × List Byte)) (ack : Option Status)
  | skew (core : Nat) (remote : Option (Status × List Byte)) (ack : Option Status)
  | fill (core : Nat) (ack : Option Status)
  | gather (core : Nat) (remote : List (Status × List Byte)) (ack : Option Status)
  | dmaComplete (core : Nat)
  | scrub (core : Nat)
  | scrubComplete (channel : Nat)
  | refetchComplete (refetch : Refetch)
  | sramRerunStart (cluster entry : Nat)
  | rerunTimeout (entry : Nat)
  | wbSuppressWrite (tower : Nat) (bytes : List Byte)
  | wbLogClear (tower : Nat) (value : Byte)
  | laneSuspectWindow (channel : Nat)
  -- chapter 12: groups and device links
  | groupReform
  | groupEnable (value : BitVec 8)
  | membership (device : Nat)
  | membershipWindowEnd
  | membershipRetry
  | memberBitmap (members : Nat)
  | memberTimeout (device : Nat)
  | lglReqTimeout (id : Nat)
  | portTrained (port : Nat)
  | identityFrame (port device shape peer : Nat)
  | lglDataFrame (port : Nat) (frame : List Byte)
  | lglIdleFrame (port : Nat) (frame : List Byte)
  | ackReport (port : Nat) (own : List Flit)
  | lglReplayTimer (port : Nat)
  | lglRetrain (port : Nat) (trained : Bool)
  | groupLease (number : Nat) (bytes : List Byte) (fromHead : Bool) (others : Nat)
  | groupMerge (number : Nat) (children : List (Nat × Status × Nat × List Byte))
  | paceRequestSend
  | paceRequest (device value : Nat)
  | bellwetherWindow
  | paceTarget (target tick applyTick : Nat)
  | applyTick
  | gtickEdge
  | gtickLoss
  | orphanTimeout
  | freezePacket (source : Nat)
  -- chapter 13: the timed-stream port
  | streamBind
  | streamUnbind
  | laneLock (link : Nat)
  | linkDeskewed (link : Nat)
  | declare (link : Nat) (frame : List Byte)
  | hreqSwitch (link : Nat)
  | laneLockLoss (link : Nat) (frame : Option (Byte × Word32))
  | linkEnableWrite (link : Nat) (value : Byte)
  | dataFrame (link : Nat) (frame : List Byte) (spoiled : Bool)
  | slotWriteComplete (link : Nat)
  | pushRetry (link : Nat)
  | verdict (link : Nat)
  | deadlineExpiry (link : Nat)
  | holdStateTimer
  -- chapter 14: power delivery and caps
  | powerSample (samples : List PhaseSample) (inputs : InputSample)
  | attribution (tower : Nat) (accounts : List Account) (leak : List (Nat × Nat)) (background : Nat)
  | moduleCapWWrite (value : BitVec 16)
  | towerCapWWrite (tower : Nat) (value : BitVec 16)
  | fieldCapMwWrite (field : Nat) (value : BitVec 32)
  | fieldTurnOn (field : Nat)
  | neighbourWaitEnd (field : Nat)
  | headerGroupClose (field : Nat)
  | turnOnSettled (field : Nat)
  | turnOnFail (field : Nat)
  | fieldTurnOff (field : Nat)
  | headerOpen (field : Nat)
  | phaseFailure (tower phase code : Nat)
  | currentLimitEntry (tower phase : Nat)
  | powerFlagsWrite (value : BitVec 16)
  -- chapter 15: thermal control
  | thermalStep (tower : Nat) (readings : List (Option Int)) (counts : List (Nat × List Nat)) (coolantLow : Bool)
  | rthEstimate (tower : Nat)
  | thermalCapUpdate
  | trayInletCWrite (value : Word32)
  | trayFlowLpmWrite (value : Word32)
  | trayStale
  | thermalResume (value : Byte)
  | shutdownRecover (value : Byte)
  | thermalFlagsWrite (value : BitVec 16)
  -- chapters 16 and 19: bring-up, reset, repair and lands
  | coldBoot (tableOk : Bool)
  | imageLoad (savedOk : Bool)
  | channelInitComplete (results : ChannelTest)
  | fieldWave (wave : Nat)
  | selfTestComplete (field : Nat) (results : SelfTest)
  | defectMapPublish
  | fieldReset (value : BitVec 16)
  | towerReset (value : BitVec 16)
  | computeSideReset (value : BitVec 16)
  | resetOffHold (field : Nat)
  | drain (value : BitVec 16)
  | drainEnd (field : Nat)
  | drainTimeout (field : Nat)
  | testQuick (value : BitVec 16)
  | testFull (value : BitVec 16)
  | returnService (value : BitVec 16)
  | coreBypass (value : BitVec 32)
  | coreRestore (value : BitVec 32)
  | dramRowRepair (bytes : List Byte)
  | laneRepair (value : BitVec 32)
  | repairStart
  | repairTimeout
  | functionLevelReset
  | hotReset
  | pcieLinkDown
  | pwrGoodRise
  | pwrGoodFall
  | vin1v8Low
  | vauxLoss
  | vauxRise
  | resetNLow (ns : Nat)
  -- chapter 18: freeze and capture
  | freeze (value : Byte)
  | thaw (value : Byte)
  | freezeNLow (ns : Nat)
  | freezeNHigh
  | freezeComplete
  | captureData (offset length : Nat)
  | captureIdleExpiry (channel : Nat)
  | extest (bits : Nat)
  | samplePreload (bits : Nat)
  | idcode
  | capaddr (address : BitVec 64)
  | capdata
  | bypass
  -- chapter 17: the object dictionary and the sideband port
  | mbDoorbell
  | mbStatusWrite (value : BitVec 32)
  | jopDatagram (address port dst : Nat) (bytes : List Byte)
  | forwardedRequest (level : Nat) (bytes : List Byte)
  | snapshotRead (who : Requester) (idx sub snapId offset length : Nat)
  | snapshotDiscard
  | registerWrite (who : Requester) (idx sub : Nat) (bytes : List Byte)
  | rwsSaveDone
  | flashData (who : Requester) (bytes : List Byte)
  | flashErase (who : Requester) (value : Byte)
  | flashContent (who : Requester) (offset length : Nat)
  | flashDone (ok : Bool)
  | privUnlock (who : Requester) (value : BitVec 32)
  | privLock (who : Requester) (value : Byte)
  | privTimeout
  | unlockLockoutEnd
  | replayExpiry
  | eventMsixSend
  | eventNoticeSend (target : Nat)
  | eventPendingWrite (value : BitVec 64)
  | groupEventPendingWrite (value : BitVec 64)
  | arpRequest (senderMac : BitVec 48) (senderIp targetIp : BitVec 32)
  | icmpEcho (address : Nat) (bytes : List Byte)
  | ndpSolicitation (source target : BitVec 128)
  | dhcpv4Message (type : Byte) (address : BitVec 32)
  | sbLinkChange (value : Nat)
  -- chapter 12: the host interface
  | groupDoorbell (device queue bytes offset : Nat) (value : BitVec 64)
  | hostRead (bar offset bytes tag : Nat)
  | hostWrite (bar offset : Nat) (data : List Byte)
  | hostAtomic (bar offset bytes : Nat) (op : AmoOp) (operand compare : Word) (tag : Nat)
  | hostCompletion (id : Nat) (remote : Option (Status × List Byte))
  | configRequest (tag : Nat) (request : ConfigRequest)
  | winWrite (window : Nat) (value : BitVec 64)
  | notify (device : Nat) (notice : Notice)
  | pcieLinkTrained (width rate : Nat)
  deriving DecidableEq, Repr

end Sys2Proof
end

