-- ==== Sys2Proof/Decode.lean ====
section
/-! DEFINITION. Words as commands. The opcode table gives none of its rows any bits, so no word spells a command. -/
namespace Sys2Proof

/-- The command that a word spells by the table's bits: none, for the table gives no row any bits (assumption 51). -/
def decodeTableWord (_nbits _w : Nat) : Option Instr := none

end Sys2Proof
end

