-- ==== Sys2Proof/Machine/Formats.lean ====
section
/-! DEFINITION. Number formats, exact values, rounding, block scales and the correctly rounded functions
(spec file 05_formats_and_arithmetic.md, R192 to R220). Every result is formed exactly and rounded once. -/
namespace Sys2Proof.Machine

/-- The sixteen format codes of R122, R195 and R199, in code order. -/
inductive Fmt where
  | fp32 | bf16 | fp16 | e4m3 | e5m2 | e3m2 | e2m3 | e2m1 | mxint8 | t2 | w40 | int32 | int8 | int64 | uint64 | mxint4
  deriving DecidableEq, Repr

/-- The format of a 4-bit code. -/
def Fmt.ofCode (c : BitVec 4) : Fmt :=
  match c.toNat with
  | 0 => .fp32 | 1 => .bf16 | 2 => .fp16 | 3 => .e4m3 | 4 => .e5m2 | 5 => .e3m2 | 6 => .e2m3 | 7 => .e2m1
  | 8 => .mxint8 | 9 => .t2 | 10 => .w40 | 11 => .int32 | 12 => .int8 | 13 => .int64 | 14 => .uint64 | _ => .mxint4

/-- The code of a format (R209 numbers the counters by it). -/
def Fmt.code : Fmt → Nat
  | .fp32 => 0 | .bf16 => 1 | .fp16 => 2 | .e4m3 => 3 | .e5m2 => 4 | .e3m2 => 5 | .e2m3 => 6 | .e2m1 => 7
  | .mxint8 => 8 | .t2 => 9 | .w40 => 10 | .int32 => 11 | .int8 => 12 | .int64 => 13 | .uint64 => 14 | .mxint4 => 15

/-- Element bits (R192, R194, R195, R197 to R199). -/
def Fmt.bits : Fmt → Nat
  | .fp32 => 32 | .bf16 => 16 | .fp16 => 16 | .e4m3 => 8 | .e5m2 => 8 | .e3m2 => 6 | .e2m3 => 6 | .e2m1 => 4
  | .mxint8 => 8 | .t2 => 2 | .w40 => 40 | .int32 => 32 | .int8 => 8 | .int64 => 64 | .uint64 => 64 | .mxint4 => 4

/-- Block formats: 32 elements share one scale byte (R195, R197). -/
def Fmt.isBlock : Fmt → Bool
  | .e4m3 | .e5m2 | .e3m2 | .e2m3 | .e2m1 | .mxint8 | .t2 | .mxint4 => true
  | _ => false

/-- EMAX of R195 and R197. -/
def Fmt.emax : Fmt → Int
  | .e2m1 => 2 | .e3m2 => 4 | .e2m3 => 2 | .e4m3 => 8 | .e5m2 => 15 | _ => 0

/-- How a floating format encodes its special values (R194, R195, R198). -/
inductive Specials where
  | ieee     -- exponent of all ones: infinity or NaN
  | e4m3     -- only S.1111.111 is a NaN
  | none     -- neither infinity nor NaN
  deriving DecidableEq, Repr

/-- Exponent bits, fraction bits, bias and special values of a floating format. -/
structure FloatSpec where
  ebits : Nat
  mbits : Nat
  bias : Nat
  specials : Specials
  deriving DecidableEq, Repr

/-- Bits, sign and the exponent of the unit of an integer format. -/
structure IntSpec where
  bits : Nat
  signed : Bool
  unit : Int
  deriving DecidableEq, Repr

/-- The three kinds of element encoding. -/
inductive Layout where
  | float (f : FloatSpec)
  | int (i : IntSpec)
  | ternary
  deriving DecidableEq, Repr

/-- The layouts of R194, R195, R197, R198 and R199. -/
def Fmt.layout : Fmt → Layout
  | .fp32 => .float ⟨8, 23, 127, .ieee⟩
  | .bf16 => .float ⟨8, 7, 127, .ieee⟩
  | .fp16 => .float ⟨5, 10, 15, .ieee⟩
  | .e4m3 => .float ⟨4, 3, 7, .e4m3⟩
  | .e5m2 => .float ⟨5, 2, 15, .ieee⟩
  | .e3m2 => .float ⟨3, 2, 3, .none⟩
  | .e2m3 => .float ⟨2, 3, 1, .none⟩
  | .e2m1 => .float ⟨2, 1, 1, .none⟩
  | .w40 => .float ⟨8, 31, 127, .none⟩
  | .mxint8 => .int ⟨8, true, -6⟩
  | .mxint4 => .int ⟨4, true, -2⟩
  | .int32 => .int ⟨32, true, 0⟩
  | .int8 => .int ⟨8, true, 0⟩
  | .int64 => .int ⟨64, true, 0⟩
  | .uint64 => .int ⟨64, false, 0⟩
  | .t2 => .ternary

/-- An exact value: sign, magnitude and power of two. A zero keeps its sign (R202). -/
structure Dy where
  neg : Bool
  mag : Nat
  exp : Int
  deriving DecidableEq, Repr

/-- A value as a unit computes with it: a NaN or an exact value (R200 removes infinities on reading). -/
inductive Val where
  | nan
  | num (d : Dy)
  deriving DecidableEq, Repr

/-- One counted event of R209: a saturation or a NaN of a format. -/
inductive NumEvent where
  | sat (f : Fmt)
  | nan (f : Fmt)
  deriving DecidableEq, Repr

/-- Round to nearest even, or toward zero (R204, R205). -/
inductive Rounding where
  | nearest
  | zero
  deriving DecidableEq, Repr

def Dy.zero : Dy := ⟨false, 0, 0⟩
def Dy.one : Dy := ⟨false, 1, 0⟩
def Dy.negate (a : Dy) : Dy := { a with neg := !a.neg }
def Dy.abs (a : Dy) : Dy := { a with neg := false }
def Dy.isZero (a : Dy) : Bool := a.mag == 0
/-- Multiplication by a power of two. -/
def Dy.scale (a : Dy) (k : Int) : Dy := { a with exp := a.exp + k }
/-- An integer as an exact value. -/
def Dy.ofInt (i : Int) : Dy := ⟨i < 0, i.natAbs, 0⟩

/-- The signed integer `mag * 2^(exp - e)` for an `e` not above the value's exponent. -/
def Dy.intAt (a : Dy) (e : Int) : Int :=
  let m : Int := (a.mag <<< (a.exp - e).toNat : Nat)
  if a.neg then -m else m

/-- Exact product. -/
def Dy.mul (a b : Dy) : Dy := ⟨xor a.neg b.neg, a.mag * b.mag, a.exp + b.exp⟩

/-- Exact sum; an exact zero is +0 unless both operands are −0 (R202). For (−0) + (−0) under round to nearest even R202 names no sign; −0 is
the model's (assumption 88, DESIGN CHOICE). -/
def Dy.add (a b : Dy) : Dy :=
  let e := min a.exp b.exp
  let s := a.intAt e + b.intAt e
  if s = 0 then ⟨a.mag == 0 && b.mag == 0 && a.neg && b.neg, 0, 0⟩ else ⟨s < 0, s.natAbs, e⟩

def Dy.sub (a b : Dy) : Dy := a.add b.negate

/-- Comparison of exact values; −0 equals +0. -/
def Dy.lt (a b : Dy) : Bool :=
  let e := min a.exp b.exp
  a.intAt e < b.intAt e

def Dy.le (a b : Dy) : Bool := !(b.lt a)
def Dy.eqv (a b : Dy) : Bool := !(a.lt b) && !(b.lt a)

/-- The order of R214 for maxima and minima: −0 lies below +0. -/
def Dy.below (a b : Dy) : Bool := a.lt b || (a.isZero && b.isZero && a.neg && !b.neg)

/-- The exponent of the binade of a nonzero value. -/
def Dy.floorLog2 (a : Dy) : Int := a.mag.log2 + a.exp

/-- The magnitude in units of `2^q`, rounded to an integer. -/
def roundUnits (r : Rounding) (mag : Nat) (exp q : Int) : Nat :=
  if q ≤ exp then mag <<< (exp - q).toNat
  else
    let sh := (q - exp).toNat
    let fl := mag >>> sh
    match r with
    | .zero => fl
    | .nearest =>
      let rem := 2 * (mag % 2 ^ sh)
      if rem > 2 ^ sh || (rem == 2 ^ sh && fl % 2 == 1) then fl + 1 else fl

/-- The unit in the last place of a floating format at a value: subnormals share the smallest one (R194). -/
def FloatSpec.quantum (f : FloatSpec) (d : Dy) : Int :=
  let emin : Int := 1 - f.bias
  if d.mag == 0 then emin - f.mbits else max d.floorLog2 emin - f.mbits

/-- Exponent field and fraction of the largest finite value (R194, R195, R198). -/
def FloatSpec.maxFields (f : FloatSpec) : Nat × Nat :=
  match f.specials with
  | .ieee => (2 ^ f.ebits - 2, 2 ^ f.mbits - 1)
  | .e4m3 => (2 ^ f.ebits - 1, 2 ^ f.mbits - 2)
  | .none => (2 ^ f.ebits - 1, 2 ^ f.mbits - 1)

/-- The exact value of exponent field `e` and fraction `m`. -/
def FloatSpec.value (f : FloatSpec) (neg : Bool) (e m : Nat) : Dy :=
  if e = 0 then ⟨neg, m, 1 - f.bias - f.mbits⟩ else ⟨neg, 2 ^ f.mbits + m, (e : Int) - f.bias - f.mbits⟩

/-- The bits of sign, exponent field and fraction. -/
def FloatSpec.pack (f : FloatSpec) (neg : Bool) (e m : Nat) : Nat :=
  (if neg then 2 ^ (f.ebits + f.mbits) else 0) + e * 2 ^ f.mbits + m

def FloatSpec.maxValue (f : FloatSpec) (neg : Bool) : Dy := f.value neg f.maxFields.1 f.maxFields.2

/-- The largest finite value of a sign (R195, R198, R204: for two's complement the most negative value). -/
def Fmt.largest (f : Fmt) (neg : Bool) : Dy :=
  match f.layout with
  | .float s => s.maxValue neg
  | .int i =>
    if i.signed then (if neg then ⟨true, 2 ^ (i.bits - 1), i.unit⟩ else ⟨false, 2 ^ (i.bits - 1) - 1, i.unit⟩)
    else (if neg then .zero else ⟨false, 2 ^ i.bits - 1, i.unit⟩)
  | .ternary => ⟨neg, 1, 0⟩

/-- The canonical NaN where the format has one (R201). -/
def Fmt.canonicalNaN : Fmt → Option Nat
  | .fp32 => some 0x7FC00000 | .bf16 => some 0x7FC0 | .fp16 => some 0x7E00
  | .e4m3 => some 0x7F | .e5m2 => some 0x7F | _ => none

/-- An integer of `n` bits in two's complement. -/
def signedOf (n v : Nat) : Int := if v % 2 ^ n < 2 ^ (n - 1) then (v % 2 ^ n : Nat) else ((v % 2 ^ n : Nat) : Int) - 2 ^ n

/-- The element bits read: infinity as the largest finite value with its event (R200), a NaN as a NaN, the
invalid T2 code as 0 with a T2 NaN event (R197). Bits above the element are ignored. -/
def Fmt.read (f : Fmt) (raw : Nat) : Val × List NumEvent :=
  match f.layout with
  | .float s =>
    let v := raw % 2 ^ f.bits
    let neg := v / 2 ^ (s.ebits + s.mbits) == 1
    let e := v / 2 ^ s.mbits % 2 ^ s.ebits
    let m := v % 2 ^ s.mbits
    let top := e == 2 ^ s.ebits - 1
    match s.specials with
    | .ieee => if top then (if m == 0 then (.num (s.maxValue neg), [.sat f]) else (.nan, []))
               else (.num (s.value neg e m), [])
    | .e4m3 => if top && m == 2 ^ s.mbits - 1 then (.nan, []) else (.num (s.value neg e m), [])
    | .none => (.num (s.value neg e m), [])
  | .int i =>
    let n : Int := if i.signed then signedOf i.bits raw else (raw % 2 ^ i.bits : Nat)
    (.num ⟨n < 0, n.natAbs, i.unit⟩, [])
  | .ternary =>
    match raw % 4 with
    | 1 => (.num .one, [])
    | 3 => (.num ⟨true, 1, 0⟩, [])
    | 2 => (.num .zero, [.nan .t2])
    | _ => (.num .zero, [])

/-- As `Fmt.read`, for an array, a hen or the KV append unit: a NaN element reads as the largest finite value,
positive, and is counted (R201). -/
def Fmt.readArray (f : Fmt) (raw : Nat) : Dy × List NumEvent :=
  match f.read raw with
  | (.nan, _) => (f.largest false, [.nan f])
  | (.num d, ev) => (d, ev)

/-- The magnitude of the largest finite value of the value's sign exceeded, under R204: by the rounded value, or
under round toward zero by the exact one. -/
def overMax (r : Rounding) (exact rounded largest : Dy) : Bool :=
  match r with
  | .nearest => largest.abs.lt rounded.abs
  | .zero => largest.abs.lt exact.abs

/-- A value written into a format: rounded once, saturated and counted by R204, a NaN by R201, zero signs by R202. An exact value above the
largest finite one that rounds back to it is not counted, as R204 says; the words of R153 (an addition) and of R213 (VEXP) can be read to
count it (assumption 88, DESIGN CHOICE). -/
def Fmt.write (f : Fmt) (r : Rounding) (v : Val) : Nat × List NumEvent :=
  match v with
  | .nan =>
    match f.canonicalNaN with
    | some c => (c, [])
    | none =>
      match f.layout with
      | .float s => (s.pack false s.maxFields.1 s.maxFields.2, [.nan f])
      | .int i => (if i.signed then 2 ^ (i.bits - 1) - 1 else 2 ^ i.bits - 1, [.nan f])
      | .ternary => (1, [.nan f])
  | .num d =>
    match f.layout with
    | .float s =>
      let q := s.quantum d
      let n := roundUnits r d.mag d.exp q
      if overMax r d ⟨d.neg, n, q⟩ (s.maxValue d.neg) then (s.pack d.neg s.maxFields.1 s.maxFields.2, [.sat f])
      else if n < 2 ^ s.mbits then (s.pack d.neg 0 n, [])
      else
        let e := (q + s.mbits + s.bias).toNat
        (s.pack d.neg e (n - 2 ^ s.mbits), [])     -- a carry out of the fraction steps the exponent field
    | .int i =>
      let n := roundUnits r d.mag d.exp i.unit
      if i.signed then
        if overMax r d ⟨d.neg, n, i.unit⟩ (f.largest d.neg) then
          (if d.neg then 2 ^ (i.bits - 1) else 2 ^ (i.bits - 1) - 1, [.sat f])
        else (if d.neg then (2 ^ i.bits - n) % 2 ^ i.bits else n, [])
      else if d.neg then (0, if n == 0 then [] else [.sat f])
      else if overMax r d ⟨false, n, i.unit⟩ (f.largest false) then (2 ^ i.bits - 1, [.sat f])
      else (n, [])
    | .ternary =>
      let n := roundUnits r d.mag d.exp 0
      if overMax r d ⟨d.neg, n, 0⟩ .one then (if d.neg then 3 else 1, [.sat f])
      else (if n == 0 then 0 else if d.neg then 3 else 1, [])

/-! ### binary32 arithmetic on bits -/

/-- binary32 bits as a value. -/
def readF32 (b : Word32) : Val × List NumEvent := Fmt.fp32.read b.toNat

/-- A value rounded once into binary32. -/
def writeF32 (v : Val) : Word32 × List NumEvent :=
  let (n, ev) := Fmt.fp32.write .nearest v
  (BitVec.ofNat 32 n, ev)

/-- A function of two values lifted over NaN. -/
def Val.lift2 (g : Dy → Dy → Dy) : Val → Val → Val
  | .num a, .num b => .num (g a b)
  | _, _ => .nan

def Val.add := Val.lift2 Dy.add
def Val.sub := Val.lift2 Dy.sub
def Val.mul := Val.lift2 Dy.mul

/-- a × b + c, exact. -/
def Val.fma (a b c : Val) : Val := (a.mul b).add c

def Val.negate : Val → Val
  | .nan => .nan
  | .num d => .num d.negate

def Val.abs : Val → Val
  | .nan => .nan
  | .num d => .num d.abs

/-- The larger value under R214. -/
def Val.max : Val → Val → Val
  | .nan, b => b
  | a, .nan => a
  | .num a, .num b => if a.below b then .num b else .num a

/-- The smaller value under R214. -/
def Val.min : Val → Val → Val
  | .nan, b => b
  | a, .nan => a
  | .num a, .num b => if b.below a then .num b else .num a

def Val.lt : Val → Val → Bool
  | .num a, .num b => a.lt b
  | _, _ => false

def Val.le : Val → Val → Bool
  | .num a, .num b => a.le b
  | _, _ => false

def Val.eqv : Val → Val → Bool
  | .num a, .num b => a.eqv b
  | _, _ => false

/-- C ≠ 0 in the comparison of R214: a NaN is not equal to zero. -/
def Val.nonzero : Val → Bool
  | .nan => true
  | .num d => !d.isZero

/-- A two-operand binary32 operation: operands read by R200 and R201, one rounding. -/
def f32Op2 (g : Val → Val → Val) (a b : Word32) : Word32 × List NumEvent :=
  let (x, e1) := readF32 a
  let (y, e2) := readF32 b
  let (r, e3) := writeF32 (g x y)
  (r, e1 ++ e2 ++ e3)

/-- fp32_add of R151, R215, R218, R219, R225; when a tile's addition counts a saturation is that of `Fmt.write` (assumption 88). -/
def f32Add := f32Op2 Val.add
/-- fp32_mul of R225. -/
def f32Mul := f32Op2 Val.mul
/-- fp32_sub of R225. -/
def f32Sub := f32Op2 Val.sub

/-- A comparison of binary32 values as 1 or 0 (R101). -/
def f32Cmp (g : Val → Val → Bool) (a b : Word32) : Word32 × List NumEvent :=
  let (x, e1) := readF32 a
  let (y, e2) := readF32 b
  (if g x y then 1 else 0, e1 ++ e2)

/-- FABS and FNEG (R101): a NaN gives the canonical NaN; otherwise only bit 31 is changed. -/
def f32Sign (g : Word32 → Word32) (a : Word32) : Word32 :=
  match (readF32 a).1 with
  | .nan => 0x7FC00000
  | .num _ => g a

def f32Abs : Word32 → Word32 := f32Sign (fun a => a &&& 0x7FFFFFFF)
def f32Neg : Word32 → Word32 := f32Sign (fun a => a ^^^ 0x80000000)

/-! ### Correctly rounded functions (R213)

A result that is not an exact dyadic value is handed to the one rounding as `2 * m + 1` at half the unit of `m`,
where `m` is the value truncated: the odd last bit stands for the rest of the exact value. -/

/-- The integer square root, bit by bit from bit `n - 1` down. -/
def isqrtFrom : Nat → Nat → Nat → Nat
  | 0, _, r => r
  | n + 1, v, r => let t := r + 2 ^ n; isqrtFrom n v (if t * t ≤ v then t else r)

def isqrt (v : Nat) : Nat := isqrtFrom (v.log2 / 2 + 1) v 0

/-- The truncated value with its odd rest bit. -/
def sticky (neg : Bool) (m : Nat) (exact : Bool) (exp : Int) : Dy :=
  ⟨neg, 2 * m + (if exact then 0 else 1), exp - 1⟩

/-- The quotient of two exact values, the divisor not zero, to at least `p` bits. -/
def Dy.div (p : Nat) (a b : Dy) : Dy :=
  let sh := p + b.mag.log2 + 1
  let n := a.mag <<< sh
  sticky (xor a.neg b.neg) (n / b.mag) (n % b.mag == 0) (a.exp - b.exp - sh)

/-- 1 ÷ √a for a positive value. -/
def Dy.rsqrt (a : Dy) : Dy :=
  -- make the exponent even, then √(2^(2k) / mag) with k large
  let m := if a.exp % 2 = 0 then a.mag else 2 * a.mag
  let e := if a.exp % 2 = 0 then a.exp else a.exp - 1
  let k := m.log2 + 64
  let q := 2 ^ (2 * k) / m
  let r := isqrt q
  sticky false r (r * r * m == 2 ^ (2 * k)) (-(e / 2) - k)

/-- Fraction bits of the fixed-point evaluation of the exponential. -/
def fixBits : Nat := 240

/-- ln 2 with `p` fraction bits, truncated: the sum of 1 ÷ (k × 2^k). -/
def ln2From : Nat → Nat → Nat → Nat
  | 0, _, acc => acc
  | n + 1, p, acc => ln2From n p (acc + 2 ^ p / ((n + 1) * 2 ^ (n + 1)))

def ln2Fix : Nat := ln2From 300 (fixBits + 30) 0 / 2 ^ 20

/-- Taylor sum of e^r for 0 ≤ r < 1 in fixed point with `p` fraction bits. -/
def expSeries : Nat → Nat → Nat → Nat → Nat → Nat → Nat
  | 0, _, _, _, _, acc => acc
  | n + 1, p, r, k, term, acc =>
    let t := term * r / 2 ^ p / k
    expSeries n p r (k + 1) t (acc + t)

/-- e to the power of an exact value; PRESUMED that 216 fraction bits decide every rounding (log 4). -/
def Dy.exp' (x : Dy) : Dy :=
  if x.isZero then .one
  else if Dy.lt ⟨false, 2000, 0⟩ x then ⟨false, 1, 2800⟩
  else if Dy.lt x ⟨true, 2000, 0⟩ then ⟨false, 1, -2800⟩
  else
    let p := fixBits + 10
    let i : Int := if 0 ≤ x.exp + p then x.intAt (-(p : Int)) else (if x.neg then -1 else 0)
    let k := i / (ln2Fix : Int)
    let r := (i - k * ln2Fix).toNat
    let s := expSeries 80 p r 1 (2 ^ p) (2 ^ p)
    sticky false (s >>> 34) false (k - (p - 34 : Nat))

/-- tanh of an exact value: close to 0 it lies just below the operand in magnitude, far from 0 just below 1. -/
def Dy.tanh (x : Dy) : Dy :=
  if x.isZero then x
  else if x.abs.lt ⟨false, 1, -20⟩ then ⟨x.neg, x.mag * 2 ^ 64 - 1, x.exp - 64⟩
  else if Dy.lt ⟨false, 50, 0⟩ x.abs then ⟨x.neg, 2 ^ 100 - 1, -100⟩
  else
    let e := Dy.exp' (x.abs.scale 1)
    let q := Dy.div 200 (e.sub .one) (e.add .one)
    { q with neg := x.neg }

/-- VEXP, VRECIP, VRSQRT and VTANH before the one rounding; a value beyond every format stands where R213 asks for
the largest finite value, so that the rounding saturates and counts it. -/
def hugeOf (neg : Bool) : Val := .num ⟨neg, 1, 4000⟩

def Val.exp : Val → Val
  | .nan => .nan
  | .num d => .num d.exp'

def Val.recip : Val → Val
  | .nan => .nan
  | .num d => if d.isZero then hugeOf d.neg else .num (Dy.div 80 .one d)

def Val.rsqrt : Val → Val
  | .nan => .nan
  | .num d => if d.isZero then hugeOf d.neg else if d.neg then .nan else .num d.rsqrt

def Val.tanh : Val → Val
  | .nan => .nan
  | .num d => .num d.tanh

def Val.div : Val → Val → Val
  | .num a, .num b => if b.isZero then hugeOf (xor a.neg b.neg) else .num (Dy.div 80 a b)
  | _, _ => .nan

/-! ### Blocks -/

/-- The value of a scale byte: `none` is the NaN scale 0xFF (R196). -/
def scaleExp (x : Nat) : Option Int := if x % 256 = 255 then none else some ((x % 256 : Nat) - 127)

/-- The largest magnitude among the values that are not NaN. -/
def maxAbs : List Val → Dy
  | [] => .zero
  | .nan :: vs => maxAbs vs
  | .num d :: vs => let m := maxAbs vs; if m.lt d.abs then d.abs else m

/-- A magnitude rounded to nearest even with an element format's precision and no upper limit (R208). -/
def Fmt.roundUnbounded (f : Fmt) (d : Dy) : Dy :=
  match f.layout with
  | .float s => ⟨false, roundUnits .nearest d.mag d.exp (s.quantum d), s.quantum d⟩
  | .int i => ⟨false, roundUnits .nearest d.mag d.exp i.unit, i.unit⟩
  | .ternary => ⟨false, roundUnits .nearest d.mag d.exp 0, 0⟩

/-- The exponent X chosen for a block by R208. -/
def Fmt.blockExp (f : Fmt) (vs : List Val) : Int :=
  let a := maxAbs vs
  if a.isZero then 0
  else
    let x := a.floorLog2 - f.emax
    let x := if (f.largest false).lt (f.roundUnbounded (a.scale (-x))) then x + 1 else x
    max (-127) (min 127 x)

/-- A value divided by a power of two. -/
def Val.scale (k : Int) : Val → Val
  | .nan => .nan
  | .num d => .num (d.scale k)

/-- All values written into a format, events in order. -/
def Fmt.writeAll (f : Fmt) (r : Rounding) : List Val → List Nat × List NumEvent
  | [] => ([], [])
  | v :: vs =>
    let (n, e) := f.write r v
    let (ns, es) := f.writeAll r vs
    (n :: ns, e ++ es)

/-- A block of values converted by R208: the element codes, the scale byte and the events. -/
def Fmt.toBlock (f : Fmt) (r : Rounding) (vs : List Val) : List Nat × Nat × List NumEvent :=
  let x := f.blockExp vs
  let (ns, ev) := f.writeAll r (vs.map (Val.scale (-x)))
  (ns, (x + 127).toNat, ev)

/-- The exponent F of the integer unit of a format: every element is an integer times 2^−F (R167, R206). -/
def Fmt.unitExp (f : Fmt) : Nat :=
  match f.layout with
  | .float s => s.bias - 1 + s.mbits
  | .int i => (-i.unit).toNat
  | .ternary => 0

/-- An element of an array or hen operand in integer units (R206). -/
def Fmt.readUnits (f : Fmt) (raw : Nat) : Int × List NumEvent :=
  let (d, ev) := f.readArray raw
  (d.intAt (-(f.unitExp : Int)), ev)

/-- The sum of products of two lists of integers. -/
def dotInt : List Int → List Int → Int
  | a :: as, b :: bs => a * b + dotInt as bs
  | _, _ => 0

/-- The block value of R207: Q in integer units and the two scale exponents, rounded once into FP32. -/
def blockValue (fa fb : Fmt) (q : Int) (xa xb : Int) : Word32 × List NumEvent :=
  writeF32 (.num { Dy.ofInt q with exp := xa + xb - (fa.unitExp + fb.unitExp : Nat) })

/-! ### Packing of elements (R192, R193) -/

/-- The little-endian number in a list of bytes. -/
def bytesToNat : List Byte → Nat
  | [] => 0
  | b :: bs => b.toNat + 256 * bytesToNat bs

/-- `n` bytes of a number, lowest first. -/
def natToBytes : Nat → Nat → List Byte
  | 0, _ => []
  | n + 1, v => BitVec.ofNat 8 v :: natToBytes n (v / 256)

/-- The first `n` elements of `w` bits packed from the lowest bit upward. -/
def unpackBits (w : Nat) : Nat → Nat → List Nat
  | 0, _ => []
  | n + 1, v => v % 2 ^ w :: unpackBits w n (v / 2 ^ w)

/-- Elements of `w` bits packed from the lowest bit upward. -/
def packBits (w : Nat) : List Nat → Nat
  | [] => 0
  | x :: xs => x % 2 ^ w + 2 ^ w * packBits w xs

/-- Bytes that `n` elements of a format take, without scales. -/
def Fmt.elemBytes (f : Fmt) (n : Nat) : Nat := (n * f.bits + 7) / 8

/-- Bytes of an operand of the vector unit: packed elements and, for a block format, the scale bytes (R193). -/
def Fmt.operandBytes (f : Fmt) (n : Nat) : Nat := f.elemBytes n + (if f.isBlock then n / 32 else 0)

/-- `n` element codes from bytes. -/
def Fmt.unpack (f : Fmt) (n : Nat) (bs : List Byte) : List Nat := unpackBits f.bits n (bytesToNat bs)

/-- The bytes of element codes. -/
def Fmt.pack (f : Fmt) (ns : List Nat) : List Byte := natToBytes (f.elemBytes ns.length) (packBits f.bits ns)

/-- A list cut into pieces of 32. -/
def blocksOf {α : Type} : Nat → List α → List (List α)
  | 0, _ => []
  | n + 1, l => l.take 32 :: blocksOf n (l.drop 32)

end Sys2Proof.Machine
end

