-- ==== Sys2Proof/Machine/Crc.lean ====
section
/-! DEFINITION. The CRC-32 of R704, the CRC-16 of R449 and little-endian fields of byte strings. -/
namespace Sys2Proof.Machine

/-- One step of the reflected register. -/
def crc32Bit (c : Word32) : Word32 := if c.getLsbD 0 then (c >>> 1) ^^^ 0xEDB88320 else c >>> 1

/-- One byte, least significant bit first. -/
def crc32Byte (c : Word32) (b : Byte) : Word32 :=
  (List.range 8).foldl (fun c _ => crc32Bit c) (c ^^^ b.zeroExtend 32)

/-- The CRC-32 of bytes in address order (R704). -/
def crc32 (bs : List Byte) : Word32 := bs.foldl crc32Byte 0xFFFFFFFF ^^^ 0xFFFFFFFF

/-- One bit of the CRC-16 of R449. -/
def crc16Bit (crc : BitVec 16) (b : Bool) : BitVec 16 :=
  let sh := crc <<< 1
  if xor (crc.getLsbD 15) b then sh ^^^ 0x1021 else sh

/-- The register after bytes in address order, most significant bit first. -/
def crc16From (start : BitVec 16) (bs : List Byte) : BitVec 16 :=
  bs.foldl (fun c b => (List.range 8).foldl (fun c i => crc16Bit c (b.getLsbD (7 - i))) c) start

/-- The CRC-16 of bytes, from 0xFFFF. -/
def crc16 (bs : List Byte) : BitVec 16 := crc16From 0xFFFF bs

/-- The number in bytes `off` to `off + n - 1` of a byte string. -/
def fieldAt (bs : List Byte) (off n : Nat) : Nat := bytesToNat ((bs.drop off).take n)

end Sys2Proof.Machine
end

