-- ==== Sys2Proof/Config.lean ====
section
/-! DEFINITION. What an implementation fixes and what the spec leaves open: opaque constants without a body, so that
nothing can be proved of their values. The free values are applied to a counter that the step reads and advances. -/
namespace Sys2Proof.Config

/-- A free 64-bit value of an open result (assumption 2). -/
opaque freeWord : Nat → BitVec 64
/-- A free choice between two behaviours that the spec both allows (assumption 2). -/
opaque freeBool : Nat → Bool

/-- A byte of a unit whose present content the model does not hold, by time and capture address (assumption 55). -/
opaque freeByte : Nat → Nat → BitVec 8

/-- REF_TIME of a tower less the module's reference count: the towers' counts are not comparable (R129). -/
opaque refOffset : Nat → BitVec 64

/-- SERIAL, UNIQUE_ID, image and ROM versions, sideband MAC and steward code, as fused or programmed
(R3, R635, R646, R661). -/
opaque serialNumber : List Byte
opaque uniqueId : BitVec 64
/-- The part was ordered with the socket kit (ordering code LM8T-B0-MS) or without it (LM8T-B0-M). -/
opaque orderedWithKit : Bool
opaque romVersion : BitVec 32
opaque sidebandMac : BitVec 48
opaque stewardCode : BitVec 32

/-- ENERGY_COEFFS of kinds 0 to 7 in fJ and RTH_BASE of each tower, as measured at the factory (R551, R576). -/
opaque energyCoeff : Nat → BitVec 32
opaque rthBase : Nat → BitVec 32

/-- The fuse map (R172, R610): cores, slices, channels, hens of a channel and towers that it marks, and the spare word of array
4 × core + a. -/
opaque fuseCore : Nat → Bool
opaque fuseSlice : Nat → Bool
opaque fuseChannel : Nat → Bool
opaque fuseHens : Nat → Bool
opaque fuseTower : Nat → Bool
opaque fuseSpare : Nat → BitVec 16

/-- The NOR device as delivered: its bytes and whether its SFDP table advertises a quad read mode (R600, R601). -/
opaque norByte : Nat → Byte
opaque norQuad : Bool

end Sys2Proof.Config
end

