-- ==== Sys2Proof/Machine/Maps.lean ====
section
/-! DEFINITION. Sparse tables: reading and writing one entry. A table lists only entries that differ from the rest
value `d` it is read with, keys rising; writing the rest value removes the entry, so equal tables are equal data. -/
namespace Sys2Proof.Machine

/-- The entry of key `i`, or the rest value. -/
def Map.get {α : Type} (d : α) : Map α → Nat → α
  | [], _ => d
  | (k, v) :: m, i => if k = i then v else Map.get d m i

/-- The table without key `i`. -/
def Map.erase {α : Type} : Map α → Nat → Map α
  | [], _ => []
  | (k, v) :: m, i => if k = i then Map.erase m i else (k, v) :: Map.erase m i

/-- The table with an entry put before the first greater key. -/
def Map.insert {α : Type} : Map α → Nat → α → Map α
  | [], i, v => [(i, v)]
  | (k, w) :: m, i, v => if i < k then (i, v) :: (k, w) :: m else (k, w) :: Map.insert m i v

/-- The table with key `i` at `v`. -/
def Map.set {α : Type} [DecidableEq α] (d : α) (m : Map α) (i : Nat) (v : α) : Map α :=
  if v = d then Map.erase m i else Map.insert (Map.erase m i) i v

/-- Keys strictly rising from `lo` on, and no entry equal to the rest value. -/
def Map.wfFrom {α : Type} [DecidableEq α] (d : α) : Nat → Map α → Bool
  | _, [] => true
  | lo, (k, v) :: m => decide (lo ≤ k) && decide (v ≠ d) && Map.wfFrom d (k + 1) m

/-- The canonical form of a table. -/
def Map.wf {α : Type} [DecidableEq α] (d : α) (m : Map α) : Bool := Map.wfFrom d 0 m

/-- An entry changed by a function. -/
def Map.upd {α : Type} [DecidableEq α] (d : α) (m : Map α) (i : Nat) (g : α → α) : Map α :=
  Map.set d m i (g (Map.get d m i))

/-- Every listed entry changed by a function; entries that become the rest value leave the table. -/
def Map.mapVals {α : Type} [DecidableEq α] (d : α) (m : Map α) (g : Nat → α → α) : Map α :=
  (m.map fun e => (e.1, g e.1 e.2)).filter fun e => decide (e.2 ≠ d)

end Sys2Proof.Machine
end

