-- ==== Sys2Proof/Machine/State.lean ====
section
/-! DEFINITION. The state of the module: plain data, one structure per chapter of the spec. Tables keyed by a unit
number list only the units that differ from the rest value named beside the accessor in Ops.lean. Scalar entries of the
object dictionary (registers and counters) live in `regs`, keyed by index × 256 + subindex. -/
namespace Sys2Proof.Machine

/-! ### Refusals and faults of the model -/

/-- Why a command has no next state. -/
inductive Fault where
  /-- The command's effect is on a state from which the spec gives no effect at all; raised only where NOTES.md lists it under
  Stops. Safe: the model stops where the device goes on in a way the spec leaves out. -/
  | noEffectGiven (what : String)
  deriving DecidableEq, Repr

/-- A command the model does not perform. -/
inductive Refusal where
  /-- Raised by an arm of `exec` whose meaning is not written yet. Safe: nothing is claimed of the command. -/
  | notModelled (mnemonic : String)
  deriving DecidableEq, Repr

/-! ### Contexts and cores (chapter 3) -/

/-- The states of a context (R86), in code order. -/
inductive CtxState where
  | free | ready | waitMem | waitCmd | waitSync | waitUnit | exiting | faulted
  deriving DecidableEq, Repr

/-- Who reads or writes a line: the reader of R453 and the writer that R452 remembers. -/
inductive Agent where
  | thread (core ctx : Nat)
  | fetch (core ctx : Nat)
  | vector (core : Nat)
  | array (core a : Nat)
  | held (core a : Nat)      -- an array's feeder loading held rows (R162)
  | goose (core a : Nat)
  | dma (core : Nat) (id : Nat)
  | dispatcher (core : Nat)
  | hen (channel : Nat)
  | append (channel desc : Nat)
  | region (channel region : Nat)   -- the append unit at a region's descriptor (R336)
  | refetch (line : Nat)            -- the recovery of an SRAM line from its source (R451)
  | copier (desc position : Nat)    -- a multicast's copy at its target (R372)
  | anchor (lease : Nat)            -- the root of a round, where the result is written (R376)
  | pusher (queue : Nat)            -- a queue that takes a pushed descriptor (R412)
  | frame (stream slot : Nat)       -- a stream's payload slot (chapter 13)
  | request (id : Nat)              -- a request of the host or of another device
  | mesh (tower : Nat)
  | host
  | other
  deriving DecidableEq, Repr

/-- A command held in WAIT_UNIT until its counter or unit has room (R113), its fields as the instruction gave them. -/
inductive UnitCmd where
  | dma (xd xa : Reg) (wc : BitVec 2) (w : Bool)
  | tile (xd xa xb : Reg) (wc : BitVec 2) (w : Bool) (sub : BitVec 8)
  | vec (op : VOp) (xd xa xb xc : Reg)
  | sync (arm : Bool) (xd xa xb : Reg) (wc : BitVec 2) (w : Bool)
  deriving DecidableEq, Repr

/-- What a context that is not READY waits for. A token names one command or request, so that an answer that comes
after a kill finds nothing (R137, R142). -/
inductive Wait where
  | none
  | load (token : Nat) (xd : Reg) (bytes : Nat) (signed : Bool)
  | atomic (token : Nat) (xd : Reg)
  | syncRead (token : Nat) (xd : Reg)
  | syncWait (token : Nat) (xd : Reg) (object : Nat)
  | command (token : Nat) (xd : Reg)
  | counter (c : BitVec 2) (t : Nat) (xd : Reg)
  | fence (mask : BitVec 4)
  | vector (token : Nat)
  | push (token : Nat) (xd : Reg)
  | unit (c : UnitCmd)
  | localRecovery (line : Nat)
  deriving DecidableEq, Repr

/-- How a context that is EXITING or FAULTED ends: the status named by EXIT, or the task status of R131. -/
inductive Ending where
  | none
  | exit (status : Status)
  | fault (status : Status)
  deriving DecidableEq, Repr

/-- One thread context (R85, R86). -/
structure Ctx where
  regs : Map Word := []
  pc : BitVec 18 := 0
  /-- PC at or beyond 0x4_0000 faults at the next fetch (R131): set when the next PC does not fit 18 bits. -/
  pcBeyond : Bool := false
  state : CtxState := .free
  issueClass : Bool := false
  vcfg : Word := 0
  wc : Map (BitVec 6) := []
  async : Map Status := []
  storeStatus : Status := 0
  taskQueue : BitVec 19 := 0
  wait : Wait := .none
  ending : Ending := .none
  /-- Descriptor number of the task's launch in its queue, for its completion (R415); `none` for a rerun (R454). -/
  launch : Option Nat := none
  /-- Entry of the cluster's rerun store that this task runs under (R452). -/
  rerun : Option Nat := none
  /-- Restart of the running task under R453, waiting for its counters (R454). -/
  restart : Bool := false
  /-- The instruction word last issued (R136), for the fault record. -/
  word : Word32 := 0
  /-- Token of the task, so that an answer for an earlier task of the context finds nothing. -/
  serial : Nat := 0
  /-- The beat from which the context may issue again (R87). -/
  nextBeat : Nat := 0
  /-- It has waited, or been FREE, since its last issue: it may have become READY on any beat since then. -/
  waited : Bool := true
  /-- By register: the beat from which the result of a longer operation can be used (R89, R130). -/
  late : Map Nat := []
  /-- Its instruction at PC has been issued and counted, and waits for a bank or a line (R238, R453). -/
  counted : Bool := false
  deriving DecidableEq, Repr

/-- Where a command's completion goes (R111, R112, R421). -/
inductive Target where
  | none
  | counter (core ctx : Nat) (c : BitVec 2)
  | wait (core ctx : Nat) (token : Nat)
  | ring (queue : Nat) (index : Nat)
  | remote (device tag : Nat)          -- an operation of another member (R391)
  | notify (queue index : Nat)         -- step 3 of a completion (R421)
  | round (lease serial : Nat)         -- a round whose result is added to a sync object (R376)
  deriving DecidableEq, Repr

/-- A vector operation in the unit's input (R125): the operands captured at issue. -/
structure VecOp where
  op : VOp
  ctx : Nat
  vcfg : Word
  xd : Word
  xa : Word
  xb : Word
  xc : Word
  token : Nat
  /-- The instruction word, for a capture (R675). -/
  word : Word32 := 0
  running : Bool := false
  /-- What the operation writes at completion: address and bytes, with its status. -/
  writes : List (Nat × List Byte) := []
  status : Status := 0
  deriving DecidableEq, Repr

/-- A descriptor held by a core's DMA engine (R115): its eight words and where its completion goes. -/
structure DmaDesc where
  id : Nat
  words : List Word
  target : Target
  /-- The context whose instruction passed it, if one did, and the serial of its task. -/
  ctx : Option Nat := none
  serial : Nat := 0
  /-- Set when the work has ended; DMA_COMPLETE then delivers it. -/
  status : Option Status := none
  /-- The cluster-set record of a multicast, read when the engine accepts it (R368). -/
  record : Option (Status × List Word) := none
  /-- The rerun entry of the issuing task, for its writes (R452). -/
  rerun : Option Nat := none
  deriving DecidableEq, Repr

/-- One tile request of a tile (R177): where it takes its held rows, where it puts its result and where its completion
goes. -/
structure TileReq where
  n : Nat
  held : Nat
  heldScale : Nat
  out : Nat
  target : Target
  /-- The rerun entry of the issuing task, for its writes (R452). -/
  rerun : Option Nat := none
  /-- Status of a request whose own operand failed (R187), or of the finished tile. -/
  status : Option Status := none
  deriving DecidableEq, Repr

/-- How a keyed tile closed (R178, HOLD_FULL_STARTS and HOLD_EXPIRED_STARTS of R190). -/
inductive CloseCause where
  | other | full | expired
  deriving DecidableEq, Repr

/-- One tile in an array's input (R165, R175, R178): the descriptor that all its requests share. -/
structure Tile where
  words : List Word
  key : Word
  reqs : List TileReq
  opened : Bool
  closedBy : CloseCause := .other
  holdEnd : Nat              -- in `run` time
  running : Bool := false
  /-- The next pass to end, the run's number (0, or 1 for the rerun), the accumulators and Y0 of R151, row by row. -/
  pass : Nat := 0
  attempt : Nat := 0
  acc : List Word32 := []
  y0 : List Word32 := []
  /-- The run has its Y0 and its first held rows (R711). -/
  begun : Bool := false
  /-- The held rows in the cell registers, by column: the bytes of a row and of its scales, none for a column of a failed
  request; loaded before the pass that uses them (R162). -/
  held : Option (List (Option (List (List Byte)))) := none
  /-- The held load of its first pass runs during the last pass of the tile before it (R164). -/
  early : Bool := false
  /-- It counted a saturation or NaN event (R227). -/
  counted : Bool := false
  /-- An early held load of the tile after it has been discarded by its rerun (R164). -/
  dropped : Bool := false
  deriving DecidableEq, Repr

/-- The pending goose sample of an array (R222 to R225): its tile is the oldest finished one. -/
structure Sample where
  m : Nat
  n : Nat
  y0 : Word32
  yOut : Word32
  tol : Nat
  since : Nat
  expired : Bool := false
  deriving DecidableEq, Repr

/-- One of a core's four arrays. -/
structure ArrayUnit where
  tiles : List Tile := []
  /-- Its running tile has not yet resumed its handshakes after a thaw (R184). -/
  halted : Bool := false
  /-- Tiles that have finished and whose completion is not yet reported, oldest first (R223). -/
  done : List Tile := []
  suspect : Bool := false
  /-- Sampling register (R222); 0 stands for a register seeded and not stepped since. -/
  lfsr : Word32 := 0
  /-- GOOSE_ARRAY_DISAGREE. -/
  disagree : Byte := 0
  sample : Option Sample := none
  deriving DecidableEq, Repr

/-- An entry of the energy ledger (R427). -/
structure LedgerEntry where
  queue : Nat
  index : Nat
  eclass : Nat
  estTime : Nat              -- in units of 0.1 µs
  startedAt : Option Nat := none
  deriving DecidableEq, Repr

/-- A copy record of R451: the destination lines it still covers are those of its range not listed in `ended`. -/
structure CopyRecord where
  dst : Nat
  len : Nat
  src : Option Nat           -- DRAM source address, or none for a FILL
  pattern : Word32
  ended : List Nat := []
  deriving DecidableEq, Repr

/-- A requester that has lost a core-store bank: its place in R238, the beats that it has lost in a row, and the last of them. -/
structure BankWaiter where
  order : Nat
  lost : Nat
  at_ : Nat
  deriving DecidableEq, Repr

/-- A bank of a core store: 1 + the time of the access that it served last, that requester's place in R238, and who has lost (R238, R239). -/
structure StoreBank where
  servedAt : Nat := 0
  served : Nat := 0
  waiters : List BankWaiter := []
  deriving DecidableEq, Repr

/-- One core: its contexts, units and counters. -/
structure Core where
  ctxs : Map Ctx := []
  last0 : Nat := 255         -- context that issued last in class 0 (R88)
  last1 : Nat := 255
  beats : Nat := 0           -- CORE_BEATS (R129), read modulo 2^64
  /-- CORE_BEATS when the present window of the pace loop began (R72, R141). -/
  windowBeats : Nat := 0
  /-- Contexts that were READY when an instruction last issued, the issuing one left out (R87). -/
  readyAtIssue : List Nat := []
  /-- The beat on which the one divider is free (R130). -/
  divider : Nat := 0
  vec : List VecOp := []
  dma : List DmaDesc := []
  arrays : Map ArrayUnit := []
  lastTaken : Map Nat := []  -- last queue taken per level (R425)
  ledger : List LedgerEntry := []
  copies : List CopyRecord := []
  sats : Map (BitVec 32) := []   -- saturation counters by format code (R209)
  nans : Map (BitVec 32) := []
  /-- Those counted in one reference cycle, and the cycle: a clear in it leaves them (R211). -/
  cycleAt : Nat := 0
  cycleSats : Map (BitVec 32) := []
  cycleNans : Map (BitVec 32) := []
  stretch : Map Nat := []    -- stretch requests by level, other than the field controller's (R35)
  /-- The 16 banks of the core store (R237 to R239). -/
  banks : Map StoreBank := []
  /-- The events of the millisecond by queue and kind, at 8 × queue + kind, and of all time by kind (R551, R575). -/
  activity : Map Nat := []
  spent : Map Nat := []
  deriving DecidableEq, Repr

/-! ### Requests in flight and the channel controllers (chapters 6 and 9) -/

/-- Who waits for a request's answer. -/
inductive Source where
  | thread (core ctx : Nat) (serial : Nat)
  | host (tag : Nat)
  | device (dev : Nat) (tag : Nat)
  | copy (desc : Nat) (position : Nat) -- a multicast's copy for a position's slice, core store or channel (R372)
  | record (queue index : Nat)         -- step 2 of a completion, for a record in another member's memory (R421)
  | unit (who : Agent)                 -- a line of a unit's transfer (R708)
  | slot (queue index : Nat)           -- step 1 of a completion, for a ring in DRAM (R421)
  | orphan                             -- what a unit that has ended left at a channel controller (R282)
  deriving DecidableEq, Repr

/-- What a request asks of its target. -/
inductive ReqKind where
  | read (n : Nat)
  | write (bytes : List Byte)
  | atomic (op : AmoOp) (operand : Word) (compare : Word)
  | push (queue : Nat) (bytes : List Byte)
  deriving DecidableEq, Repr

/-- How far a request has come. -/
inductive Stage where
  | sent | arrived | window | column | done
  deriving DecidableEq, Repr

/-- A read, write or atomic on its way to its target and back. -/
structure Req where
  id : Nat
  src : Source
  kind : ReqKind
  addr : Nat                 -- the address as issued, 54 bits
  loc : Nat                  -- the address after translation (R264), 48 bits
  spread : Bool := false
  stage : Stage := .sent
  status : Status := 0
  data : List Byte := []
  sentAt : Nat := 0          -- `now` time, for LGL_REQ_TIMEOUT (R482)
  /-- The rerun entry under which a unit writes (R452). -/
  prod : Option Nat := none
  /-- The floor die by which another member's request has come in, or by which its answer leaves (R366). -/
  entry : Option Nat := none
  /-- TAG of a request to another device (R484). -/
  tag : Nat := 0
  deriving DecidableEq, Repr

/-- One entry of a channel's window (R275). -/
structure WinEntry where
  reqs : List Nat            -- requests answered by this entry; merged reads share it (R276)
  line : Nat                 -- channel offset ÷ 64
  isRead : Bool
  /-- A write of the whole line; other writes and atomics are read-modify-writes (R254). -/
  full : Bool := false
  fromCore : Bool
  spread : Bool
  arrival : Nat              -- `run` time
  /-- Held behind a hen segment since then, and held before (R314). -/
  heldAt : Option Nat := none
  wasHeld : Bool := false
  deriving DecidableEq, Repr

/-- A line read under way in the layers: a demand entry's read, or a prefetch with the demand reads that wait for it
(PF_LATE of R273). -/
structure InFlight where
  line : Nat
  reqs : List Nat
  prefetch : Bool
  spread : Bool
  due : Nat
  scrub : Bool := false
  /-- The read of a read-modify-write, performed when its line returns (R254, R255). -/
  rmw : Bool := false
  /-- The line has returned, with its status, and answers the rest of its requests as the FIFO to the core has room (R70). -/
  got : Option (Status × List Byte) := none
  deriving DecidableEq, Repr

/-- A scrub pass that a channel performs (R457 to R459): its descriptor, the lines still to read and its summary. -/
structure ScrubPass where
  core : Nat
  desc : Nat
  next : Nat
  stop : Nat
  summary : Nat
  status : Status := 0
  read : Nat := 0
  corrected : Nat := 0
  uncorrectable : Nat := 0
  poisoned : Nat := 0
  skipped : Nat := 0
  firstFail : Option Nat := none
  firstCe : Option Nat := none
  written : Nat := 0
  logged : Nat := 0
  /-- Lines whose write-back or poison rewrite still waits in the queue. -/
  waiting : List Nat := []
  deriving DecidableEq, Repr

/-- Timing marks of a bank, in `run` cycles (R251). -/
structure BankTiming where
  open_ : Option Nat := none
  activatedAt : Nat := 0
  prechargedAt : Nat := 0
  writeEnd : Nat := 0
  busyUntil : Nat := 0       -- refresh quantum, neighbour refresh or hen segment
  refreshEnd : Nat := 0      -- end of a refresh in `now` time, which a freeze does not stop (R283)
  owed : Nat := 0            -- refresh quanta owed (R311)
  rows : List (Nat × Nat) := []   -- activation table (R256): row and count
  neighbour : Option (Nat × Nat) := none   -- a neighbour refresh due: its row and its deadline
  deriving DecidableEq, Repr

/-- A stream tracker (R271). -/
structure Tracker where
  line : Nat
  dir : Option Bool := none  -- confirmed direction: true ascending
  seenAt : Nat
  spread : Bool
  next : Nat := 0            -- next line to prefetch
  ended : Bool := false      -- the stream has reached its end
  deriving DecidableEq, Repr

/-- A line in the prefetch buffer; the list is kept in order of arrival, which is the order of replacement. -/
structure BufLine where
  line : Nat
  poisoned : Bool
  data : List Byte
  deriving DecidableEq, Repr

/-- A line in the write-back queue (R439, R441). -/
structure WriteBack where
  line : Nat
  poison : Bool
  data : List Byte
  /-- The read that found the line, in `run` time. -/
  at_ : Nat := 0
  deriving DecidableEq, Repr

/-- A range registered for a hen command (R320): hen offsets of one hen, or channel offsets when `hen` is none. -/
structure HenRange where
  desc : Nat
  cmd : Nat
  hen : Option Nat
  lo : Nat
  hi : Nat
  write : Bool
  deriving DecidableEq, Repr

/-- A hen segment that holds its bank pair (R312): the hen, its descriptor and command, its visits and its end. -/
structure Segment where
  hen : Nat
  desc : Nat
  cmd : Nat
  start : Nat                -- `now` time
  first : Nat
  last : Nat                 -- the visit after the last
  until_ : Nat
  /-- Times of its activates, in `run` cycles (R251, R309). -/
  acts : List Nat := []
  deriving DecidableEq, Repr

/-- The buffers of a hen (R294). -/
structure HenBuf where
  /-- The VB and the PB as written so far: a byte or entry beyond the list reads 0. -/
  vb : List Byte := []
  pb : List Word32 := []
  deriving DecidableEq, Repr

/-- A hen command's work on one hen (R303, R312). -/
structure HenWork where
  hen : Nat
  /-- The next visit, and when the work began to wait for admission (R316, R319). -/
  next : Nat := 0
  since : Option Nat := none
  /-- Whole lines read so far, from the first line of the operand; ROWGATHER: of the row under way. -/
  data : List Byte := []
  /-- Rows that ROWGATHER has read. -/
  rows : List (List Byte) := []
  /-- Corrected and uncorrectable lines of rows that the command rewrites, while it is open whether it does (R324). -/
  fixes : List WriteBack := []
  status : Status := 0
  /-- The work at the banks and its arithmetic have ended, and when. -/
  computed : Option Nat := none
  finished : Bool := false
  deriving DecidableEq, Repr

/-- One command of a hen sequence. -/
structure HenCmd where
  words : List Word
  works : List HenWork
  started : Bool := false
  status : Status := 0
  /-- Hens summed along the chain, the sum, and when the last of them was added (R307). -/
  summed : Nat := 0
  sum : List Word32 := []
  summedAt : Nat := 0
  deriving DecidableEq, Repr

/-- A hen sequence that a channel has accepted (R295): the issuing core and its DMA descriptor. -/
structure HenSeq where
  core : Nat
  desc : Nat
  cmds : List HenCmd
  /-- Ended from outside (R319, R325): only its running segments go on. -/
  dead : Bool := false
  deriving DecidableEq, Repr

/-- A KV append that a home channel has accepted (R341): its descriptor and its region. -/
structure AppendOp where
  core : Nat
  desc : Nat
  region : Nat
  words : List Word
  paused : Bool := false
  /-- Once its checks have passed and its source is read: what the source gave, the region descriptor and its channel list, and those of
  the continuation. -/
  source : Option (Status × List Byte) := none
  primary : List Word × List Nat := ([], [])
  cont : Option (List Word × List Nat) := none
  /-- Rows written or lost so far, in source order, and the status they have given. -/
  next : Nat := 0
  status : Status := 0
  /-- Its rows are written, with the status they gave. -/
  written : Option Status := none
  deriving DecidableEq, Repr

/-- A hen transfer on the data lanes (R305): a VLOAD, a chain's delivery (`hen` is none) or one hen's delivery. -/
structure HenTransfer where
  desc : Nat
  cmd : Nat
  hen : Option Nat
  lines : Nat
  entered : Nat := 0         -- ordinary transfers between its lines
  gap : Nat := 0             -- its lines that had passed when the last of them entered
  counted : Nat := 0         -- its lines that a scrub read has followed (R458)
  startRun : Nat := 0        -- its start, in `run` time
  until_ : Nat               -- `now` time
  deriving DecidableEq, Repr

/-- One channel controller, on the memory-interface rail. -/
structure Channel where
  scrubs : List ScrubPass := []
  /-- Consecutive line transfers other than scrub reads (R458). -/
  otherRun : Nat := 0
  seqs : List HenSeq := []
  segments : List Segment := []
  hens : Map HenBuf := []
  transfer : Option HenTransfer := none
  /-- Consecutive ordinary transfers while a hen transfer waited (R305). -/
  ordinary : Nat := 0
  /-- Boundary service in progress by hen: one more than the requests it may still serve (R313). -/
  boundary : Map Nat := []
  appends : List AppendOp := []
  /-- Regions PAUSED here with the deadline of their answer (R350), in `run` time. -/
  pausedRegions : List (Nat × Nat) := []
  /-- The descriptors of those regions as they were when the regions paused (R350). -/
  pausedWords : Map (List Word) := []
  ranges : List HenRange := []
  /-- The synchronising FIFOs to the controller and back to the core above (R67): requests in order of entry. -/
  fifo : List Nat := []
  up : List Nat := []
  window : List WinEntry := []
  flight : List InFlight := []
  banks : Map BankTiming := []       -- key 4 × layer + bank
  lastActivate : Nat := 0
  columnAt : Nat := 0                -- time of the last column command
  commandAt : Option Nat := none     -- cycle of the last command: one command per cycle
  slots : List Nat := []             -- cycles that the write columns of read-modify-writes will take
  /-- 1 + the cycle in which a request of the crossbar entered the FIFO last, and that request (R275). -/
  crossAt : Nat := 0
  crossId : Nat := 0
  readEnd : Nat := 0
  writeEnd : Nat := 0
  trackers : List Tracker := []      -- most recently used first
  buffer : List BufLine := []
  wbq : List WriteBack := []
  linesRead : BitVec 64 := 0
  linesWritten : BitVec 64 := 0
  activates : BitVec 64 := 0
  spreadLines : BitVec 64 := 0
  spreadAtWindow : BitVec 64 := 0
  bankAccesses : Map (BitVec 32) := []
  pfIssued : BitVec 32 := 0
  pfUsed : BitVec 32 := 0
  pfLate : BitVec 32 := 0
  pfUnused : BitVec 32 := 0
  ce : Nat := 0
  ue : Nat := 0
  poisonReads : Nat := 0
  wbDone : Nat := 0
  wbSkipped : Nat := 0
  wbSuperseded : Nat := 0
  symbolCounts : Map Nat := []       -- corrections per symbol in this window (R448)
  lanesRaised : List Nat := []       -- lanes that have had their event in this window
  laneWindowAt : Nat := 0
  deriving DecidableEq, Repr

/-- A tower's watch over spread-alias imbalance (R267, R268). -/
structure HashWatch where
  windowAt : Nat := 0
  consecutive : Nat := 0
  /-- HASH_IMBAL_LAST as the last imbalanced window gives it. -/
  last : Nat := 0
  raisedAt : Nat := 0
  deriving DecidableEq, Repr

/-! ### Queues (chapter 10) -/

/-- A descriptor taken and not yet completed (R404): its number and its word 0. -/
structure Taken where
  index : Nat
  word0 : Word
  /-- Its completion is under way: the status, while a step of R421 waits. -/
  ending : Option Status := none
  deriving DecidableEq, Repr

/-- One queue: its control block (R406), indices and the descriptors taken. -/
structure Queue where
  enable : Bool := false
  producer : Bool := false
  priority : BitVec 2 := 0
  ringSpace : BitVec 2 := 0
  ringLog2 : BitVec 5 := 0
  notifyMsix : Bool := false
  notifyRecord : Bool := false
  notifySync : Bool := false
  switchWidth : Option (BitVec 8) := none   -- none: SWITCH_WIDTH_DEFAULT as at cold boot
  msixVector : BitVec 11 := 0
  ringAddr : BitVec 48 := 0
  recordAddr : Word := 0
  notifyObject : BitVec 19 := 0
  pi : BitVec 32 := 0
  ci : BitVec 32 := 0
  completed : BitVec 32 := 0
  taken : List Taken := []
  waiting : Option Nat := none      -- a sync WAIT holds the queue: its descriptor number
  waitObject : Nat := 0             -- the object of that WAIT
  paused : Nat := 0                 -- paused regions that hold it (R351)
  eligibleSince : Option Nat := none
  aged : Bool := false
  lostReport : Option Nat := none   -- reported lost when its field went down: waiting descriptors
  deriving DecidableEq, Repr

/-! ### Sync messages (chapter 9) -/

inductive SyncOp where
  | add | wait | read | arm
  deriving DecidableEq, Repr

/-- A message to a sync engine and its answer (R388 to R390). -/
structure SyncMsg where
  id : Nat
  op : SyncOp
  object : Nat               -- group sync object id
  value : Word32
  target : Target
  arrived : Bool := false
  /-- The engine's answer: a status, and COUNT for a READ; for a WAIT, 1 where it was registered (R389). -/
  reply : Option (Status × Word32) := none
  repliedAt : Nat := 0       -- the model's counter when the engine answered
  sentAt : Nat := 0
  /-- Its place in the order of arrival at the engine, once it is there (R387). -/
  came : Option Nat := none
  /-- The floor die by which another member's operation has come in (R366). -/
  entry : Option Nat := none
  /-- TAG of an operation on another device's object (R484). -/
  tag : Nat := 0
  deriving DecidableEq, Repr

/-- A sync object (R388, R389): the clusters and devices registered in its waiter maps. -/
structure SyncObj where
  count : Word32 := 0
  target : Word32 := 0
  armed : Bool := false
  clusters : List Nat := []
  devices : List Nat := []
  deriving DecidableEq, Repr

/-- A release on its way to a cluster (R389, R399). -/
structure Release where
  object : Nat
  cluster : Nat
  status : Status
  at_ : Nat := 0             -- the model's counter when the engine sent it
  deriving DecidableEq, Repr

/-- One contribution of a round (R374): what its descriptor names, and its data. -/
structure Contribution where
  core : Nat
  desc : Nat
  rtype : Nat
  kind : Nat
  dest : Nat
  len : Nat
  data : List Byte
  deriving DecidableEq, Repr

/-- A round of a lease: its contributors, the contributions that have come, the partials that routers have formed, and the
status once it is decided. -/
structure Round where
  startedAt : Nat
  contributors : List Nat
  got : List Contribution
  partials : Map (List Byte) := []
  status : Option Status := none
  /-- The device's partial has left for the next device of a group lease's tree (R490). -/
  sent : Bool := false
  serial : Nat := 0
  deriving DecidableEq, Repr

/-- A round that is over, whose completion is on its way to its contributors (R375): the packet's number and the contributions that it
has still to reach. -/
structure RoundEnd where
  id : Nat
  lease : Nat
  got : List Contribution
  status : Status
  deriving DecidableEq, Repr

/-- A lease object (R382): 0 FREE, 1 HELD, 2 HELD_FALLBACK, with its record and the router slots it holds. -/
structure Lease where
  state : Nat := 0
  words : List Word := []
  slots : List Nat := []
  round : Option Round := none
  deriving DecidableEq, Repr

/-- A multicast whose copies are under way (R373): its descriptor, the status of its source read, the clusters that its packet goes to and
the routers of the tree that have sent their combined answer on. -/
structure Multicast where
  core : Nat
  desc : Nat
  status : Status
  nodes : List Nat := []
  sent : List Nat := []
  deriving DecidableEq, Repr

/-- A crossbar target port: the initiator that it granted last, 16 for the mesh router, and 1 + when (R243). -/
structure Port where
  last : Nat := 16
  grantedAt : Nat := 0
  deriving DecidableEq, Repr

/-- A flit in a router's input buffer or in a shaft's FIFO: what its packet carries, its virtual channel, where the packet started, and
the routers and floor dies to which it still goes from here (R362, R363). Its lane is the input by which it enters its first router: 4
LOCAL, 6 to 9 the local reduction input's slots. -/
structure MeshFlit where
  id : Nat
  channel : Nat
  src : Nat
  dsts : List Nat
  /-- It is replicated along the tree of R370 and R371. -/
  tree : Bool := false
  last : Bool := true
  lane : Nat := 4
  deriving DecidableEq, Repr

/-- A packet on its way: a request's or answer's (by the request's id), a sync operation's or its answer's, a release's, a multicast's or
a partial's. Nodes are routers (tower × 128 + cluster) and floor dies (1,024 + tower). -/
structure Packet where
  id : Nat
  channel : Nat
  src : Nat
  dsts : List Nat            -- the nodes that its last flit has not reached
  tree : Bool := false
  flits : Nat
  sent : Nat := 0            -- flits that have left the source's port
  lane : Nat := 4
  /-- The core whose port sends it, and its place in the order of sending (R242, R393). -/
  core : Option Nat := none
  seq : Nat := 0
  deriving DecidableEq, Repr

/-- A router (R362 to R364): its input buffers, by virtual channel × 16 + input; its arbiters: per output the channel served last, per
output and channel (output × 8 + channel) the input served last and 1 + the input whose packet is not yet out. Inputs 0 to 3 are the mesh
ports, 4 LOCAL, 5 SHAFT, 6 to 9 the local reduction input's slots. -/
structure Router where
  inputs : Map (List MeshFlit) := []
  lastChannel : Map Nat := []
  lastInput : Map Nat := []
  packet : Map Nat := []
  deriving DecidableEq, Repr

/-- A network shaft: its two synchronising FIFOs (R67), what has come down and waits in its floor die, by lane (R380), and by virtual
channel 1 + the packet whose flits are going up (R364). -/
structure Shaft where
  down : List MeshFlit := []
  lanes : Map (List MeshFlit) := []
  up : List MeshFlit := []
  lock : Map Nat := []
  deriving DecidableEq, Repr

/-- A lease operation taken from a queue and not yet performed (R382 to R384). -/
structure LeaseOp where
  id : Nat
  acquire : Bool
  lease : Nat
  setAddr : Nat
  core : Nat
  target : Target
  /-- The cluster-set record, read when the lease operation is accepted (R368). -/
  record : Option (Status × List Word) := none
  /-- The lease object has answered (R363). -/
  reply : Option Status := none
  deriving DecidableEq, Repr

/-- A stream bind or unbind in flight (R522). -/
structure BindOp where
  core : Nat
  words : List Word
  target : Target
  deriving DecidableEq, Repr

/-! ### Check codes and recovery (chapter 11) -/

/-- What a recovery of an SRAM line is doing (R453). -/
inductive RecoveryKind where
  | refetch
  | rerun (entry : Nat)
  | failed
  | recovered                -- its line has been recovered; it reads again, and a second failure is final
  deriving DecidableEq, Repr

/-- A read that met a failing SRAM line and waits (R453). -/
structure Recovery where
  line : Nat
  reader : Agent
  kind : RecoveryKind
  deadline : Option Nat := none
  deriving DecidableEq, Repr

/-- An entry of a cluster's rerun store (R452). -/
structure RerunEntry where
  id : Nat
  words : List Word
  queue : Nat                -- device queue id
  core : Nat
  ctx : Nat
  running : Bool
  endedAt : Nat := 0
  deriving DecidableEq, Repr

/-- A write-back log entry (R444); empty when `kind` is 0. -/
structure WbEntry where
  refTime : BitVec 64 := 0
  count : BitVec 16 := 0
  kind : BitVec 2 := 0
  rewritten : Bool := false
  steward : Bool := false
  symbol : BitVec 7 := 0
  channel : BitVec 11 := 0
  offset : BitVec 26 := 0
  /-- The kind of the latest detection (R446). -/
  last : BitVec 2 := 0
  deriving DecidableEq, Repr

/-- Memory, its check state, and recovery. -/
structure Memory where
  /-- Every byte of DRAM (local mapping), slices (direct form) and core stores, by physical address. -/
  cells : List Host.Cell := []
  /-- Per DRAM line (address ÷ 64): stored check bytes XOR the check bytes of the stored data. -/
  check : Map (BitVec 64) := []
  /-- Per SRAM line (address ÷ 64): stored CRC XOR the CRC of the stored data. -/
  crc : Map (BitVec 16) := []
  /-- Per SRAM line: the rerun entry that last wrote it (R452). -/
  producer : Map Nat := []
  slices : Map (List CopyRecord) := []     -- copy records per cluster
  reruns : Map (List RerunEntry) := []     -- rerun store per cluster
  recoveries : List Recovery := []
  sramLog : Map (BitVec 256) := []
  wbLog : Map WbEntry := []                -- key tower × 64 + entry
  wbFull : Map Nat := []                   -- tower: 1 once WB_LOG_FULL was raised for the full log
  /-- 1 + the cycle of the last WB_LOG_CLEAR, and by entry that it emptied 1 + the line of the tower (R446). -/
  wbClearedAt : Nat := 0
  wbCleared : Map Nat := []
  sliceAccesses : Map (BitVec 64) := []
  wbSuppress : Map Bool := []              -- per channel (R442)
  deriving DecidableEq, Repr

/-! ### The timed-stream port (chapter 13) -/

/-- A DATA frame that the port has taken and whose ring space is not yet free again (R515, R516). -/
structure Frame where
  seq : Word32
  stream : Nat
  length : Nat
  sourceTime : Word
  payload : List Byte
  /-- Tower reference count at the last byte, and at which the fallback is due. -/
  arrival : BitVec 64
  deadline : BitVec 64
  /-- What applies to the frame from its last byte on (R522, R531): the binding and the fallback verdict. -/
  queue : Nat
  template : List Word
  fallback : Word32
  /-- By line of it in the stream buffer: stored CRC XOR the CRC of the line (R449, R456). -/
  crc : Map (BitVec 16) := []
  /-- Group address of the slot header, and the ring bytes it takes with the unused tail before it; 0 while buffered. -/
  addr : Nat := 0
  take : Nat := 0
  written : Bool := false
  /-- `run` time of the last refused push (R523). -/
  triedAt : Option Nat := none
  launch : Option (Nat × Nat) := none
  completed : Option Status := none
  /-- The model's counter when its launch completed. -/
  completedAt : Nat := 0
  /-- Its verdict or fallback has been sent; the fallback was sent because of lateness (R526). -/
  answered : Bool := false
  late : Bool := false
  released : Bool := false
  deriving DecidableEq, Repr

/-- A link of the port: its declaration, its HOLD and its ring. -/
structure StreamLink where
  /-- LINK_STATE: 0 DOWN, 1 ALIGNING, 2 DECLARING, 3 READY, 4 STREAMING, 5 REFUSED. -/
  state : Nat := 0
  rate : Nat := 0
  lead : Nat := 0
  minFrame : Nat := 0
  maxFrame : Nat := 0
  /-- HREQ as accepted last; the value in force, and when the new one alone applies (R512), in `now` time. -/
  hreq : Nat := 0
  hreqNow : Nat := 0
  switchAt : Option Nat := none
  space : Bool := false
  thermal : Bool := false
  hold : Bool := true
  /-- LINK_SEQ expected next, from the link's first header on (R521). -/
  expected : Option Word32 := none
  /-- The ring in force, and where its next slot begins. -/
  ringOff : Nat := 0
  ringBytes : Nat := 0
  next : Nat := 0
  /-- Slots in ring order, from the oldest unreleased one. -/
  slots : List Frame := []
  /-- LINK_COUNTERS in order. -/
  counters : Map (BitVec 64) := []
  /-- The 1 ms window of the last STREAM_DROP event. -/
  dropWindow : Option Nat := none
  deriving DecidableEq, Repr

/-- The port. -/
structure StreamPort where
  links : Map StreamLink := []
  /-- By stream: the device queue id plus 1 and the template, when bound. -/
  bindings : Map (Nat × List Word) := []
  deadlines : Map Nat := []      -- µs, 100 when not written
  fallbacks : Map Word32 := []
  /-- STREAM_COUNTERS: key 3 × stream + 0 VERDICTS, 1 FALLBACKS, 2 DROPS. -/
  counters : Map (BitVec 64) := []
  /-- Frames in each group's stream buffer, in order of arrival, with their links. -/
  buffers : Map (List (Nat × Frame)) := []
  timerAt : Nat := 0
  deriving DecidableEq, Repr

/-! ### The module -/

/-- The logic rail of a field (R42, R43, R538 to R546, R616): off, being switched on, powered and held in reset, powered and in
service, or dark. -/
inductive Rail where
  | off | turningOn | held | powered | dark
  deriving DecidableEq, Repr

/-- What a field's headers are doing (R538, R539, R542); times are `now` times. -/
inductive Headers where
  | idle
  /-- The governors hold a stretch of 16 before the headers open. -/
  | stretched (since : Nat)
  /-- The first of the two groups is open. -/
  | opening (since : Nat)
  /-- Turn-on waits for a neighbour at peak. -/
  | waiting (since : Nat)
  /-- Groups closed so far, the stage interval and when the last group closed. -/
  | closing (groups interval since : Nat)
  /-- All eight groups are closed. -/
  | settling (interval since : Nat)
  deriving DecidableEq, Repr

/-- One field's power rail, regulator loop (chapter 2) and thermal control (chapter 15). -/
structure Field where
  rail : Rail := .off
  /-- FIELD_PACE_TARGET and FIELD_PACE_MEAS in Mbeat/s. -/
  target : Nat := 1500
  meas : Nat := 0
  /-- The logic setpoint in units of 1.25 mV (R535). -/
  setpoint : Nat := 600
  limiter : BitVec 8 := 0x02
  /-- Limits 3 and 4 of R54. -/
  capLimit : Nat := 1800
  thermalLimit : Nat := 1800
  /-- V_T while step 2 of R59 moves the setpoint. -/
  falling : Option Nat := none
  /-- PACE_MEAS and setpoint at the change that began the transition in progress (R59). -/
  since : Option (Nat × Nat) := none
  /-- The field transition stretch s. -/
  transition : Nat := 0
  /-- S of R59 is slopeNum ÷ slopeDen Mbeat/s per setpoint unit: 4 when none has been measured. -/
  slopeNum : Nat := 4
  slopeDen : Nat := 1
  /-- Setpoint last held, by target (R78). -/
  held : Map Nat := []
  ringFault : Bool := false
  /-- Thermal stretch by core id and the time of each core's last release step (R578). -/
  thermal : Map Nat := []
  released : Map Nat := []
  /-- The start ramp in progress: its step, 1 to 8, and when the step ends (R182). -/
  ramp : Option (Nat × Nat) := none
  /-- DRAM band by layer, and by layer the last tREFI boundary with the band in force since (R310, R311). -/
  bands : Map Nat := []
  refresh : Map (Nat × Nat) := []
  /-- The hen limit that the forecast sets (R316), layers restricted by duty (R317) and since when no segment may start
  (R318). -/
  henForecast : Nat := 4
  restricted : List Nat := []
  dutyAt : Nat := 0
  duty : Map Nat := []
  /-- Each layer's active time in the last whole duty window, for R575. -/
  lastDuty : Map Nat := []
  haltedAt : Option Nat := none
  /-- 80 or more arrays were running when the freeze began (R184). -/
  rampAtThaw : Bool := false
  headers : Headers := .idle
  /-- The field is to be switched off; when its phases stopped; it is to be switched on again after a reset. -/
  offDue : Bool := false
  offAt : Option Nat := none
  onAfterReset : Bool := false
  /-- TEST of the reset or service action under way (0 none, 1 quick, 2 full), whether the field returns to OUT after it, and
  whether it was tested since it was switched off (R616, R621). -/
  test : Nat := 0
  testOnly : Bool := false
  tested : Bool := false
  /-- It was dark and is being returned (R622); it is switched on again by the waves of R606. -/
  fromDark : Bool := false
  byWave : Bool := false
  /-- When a drain began, in `now` time (R621). -/
  drainAt : Option Nat := none
  /-- The cap stretch that the tower supervisor last sent (R557). -/
  capStretch : Nat := 0
  /-- The end of its last 1.0 µs window, in `now` time (R53), and the setpoint as FIELD_LOGIC_MV shows it since (R83). -/
  windowAt : Nat := 0
  shownSetpoint : Nat := 600
  deriving DecidableEq, Repr

/-- The links rail of a tower (R65). -/
structure Links where
  meas : Nat := 1500
  setpoint : Nat := 600      -- 0 while the rail is off (R589, R694)
  target : Nat := 1000
  /-- The end of its last 1.0 µs window, and CORE_STRETCH_MAP of the tower since, by core id (R83). -/
  windowAt : Nat := 0
  stretches : Map Nat := []
  deriving DecidableEq, Repr

/-- Steward state (chapter 1). -/
structure Steward where
  /-- An image runs (R603): the steward sends heartbeats and answers requests. -/
  running : Bool := false
  lastHeartbeat : Nat := 0
  lost : Bool := false
  deriving DecidableEq, Repr

/-- Units out of service in the published defect map (R612, R618). -/
structure DefectMap where
  published : Bool := false
  cores : List Nat := []     -- core ids not in service
  slices : List Nat := []    -- positions whose slice is not in service
  hens : List Nat := []      -- channels without a complete set of hens
  channels : List Nat := []  -- channels not in service
  towers : List Nat := []    -- towers out (R611)
  bridges : List Nat := []   -- bridges with a failed port (R610, R611)
  deriving DecidableEq, Repr

/-- A group lease bound on this device (R489): the devices of DEV_MASK, the local lease, the root device, the slots it
holds in routers and ports, and whether it is to be unbound after the current round. State 1 BOUND, 3 BROKEN. -/
structure GroupLease where
  mask : Nat := 0
  lease : Nat := 0
  root : Nat := 0
  state : Nat := 0
  slots : List Nat := []
  ports : List Nat := []
  unbind : Bool := false
  /-- A partial of a round has gone up from a device without a round of its own, until the root tells that the round is over. -/
  round : Bool := false
  deriving DecidableEq, Repr

/-- A packet coming in on a port: its first control word, the data so far, the flits still to come and the port that it is
passed on to, if it is for another device. -/
structure Incoming where
  control : BitVec 128 := 0
  data : List Byte := []
  left : Nat := 0
  pass : Option Nat := none
  deriving DecidableEq, Repr

/-- One LGL port (R483 to R487). -/
structure LglPort where
  /-- Training attempts that have failed in a row. -/
  fails : Nat := 0
  rxNext : Nat := 0
  /-- A frame has been discarded since the last good one; a NAK is still to be sent. -/
  discarded : Bool := false
  nakDue : Bool := false
  /-- Credits to be returned, by virtual channel; 31 is the pool. -/
  due : Map Nat := []
  /-- Credits of slots whose flits wait in the input buffers for the end of a freeze (R502). -/
  held : Map Nat := []
  incoming : Map Incoming := []  -- by virtual channel
  txq : List Flit := []
  txNext : Nat := 0
  retry : List (Nat × List Byte) := []
  progressAt : Nat := 0
  /-- How often each frame of the retry buffer has been resent, by SEQ (R487). -/
  resent : Map Nat := []
  /-- Credits in use at the far end, by virtual channel; 31 is the pool. -/
  used : Map Nat := []
  deriving DecidableEq, Repr

/-- Group membership and pace-lock (chapter 12). -/
structure Group where
  shape : Nat := 0           -- shape in force
  member : Nat := 0          -- own device number in force
  /-- Head: when the last MEMBERSHIP was sent, whether its window is open, who answered, whether a bitmap is out. -/
  askedAt : Nat := 0
  asking : Bool := false
  answers : List Nat := []
  published : Bool := false
  /-- Head: pace requests by device, and when each was last heard. -/
  requests : Map Nat := []
  heard : Map Nat := []
  /-- Own request last sent and when; the head's target last sent and when. -/
  sentRequest : Nat := 0
  requestAt : Nat := 0
  sentTarget : Nat := 0
  targetAt : Nat := 0
  /-- Targets received with their APPLY_TICK, in order of sending, and when the last came (R497, R500). -/
  targets : List (Nat × Nat) := []
  heardTarget : Nat := 0
  gtickAt : Nat := 0
  leases : Map GroupLease := []  -- by group lease number
  portSlots : Map Nat := []      -- key 16 × port + slot: group lease + 1
  ports : Map LglPort := []
  /-- How many of the messages in `out` have been made packets of the ports (R484, R485). -/
  formed : Nat := 0
  deriving DecidableEq, Repr

/-- What a host request asks once it is decoded (R469 to R472). -/
inductive HostKind where
  | read (n : Nat)
  | write
  | atomic
  | doorbell (queue bytes offset : Nat) (value : BitVec 64)
  | regWrite (off : Nat) (bytes : List Byte)
  | regRead (off n : Nat)
  | bar0Read (off n : Nat)
  /-- A write of the mailbox or of the MSI-X table (R471). -/
  | bar0Write (off : Nat) (bytes : List Byte)
  /-- Data that wait for their completion. -/
  | ready (bytes : List Byte)
  /-- A request that no target answers, with its outcome (R472, R599). -/
  | failed (outcome : Nat)
  deriving DecidableEq, Repr

/-- A host request that the device has accepted and not yet finished, in order of receipt (R471). -/
structure HostOp where
  id : Nat
  tag : Nat
  device : Nat
  kind : HostKind
  reqs : List Nat            -- its requests, in address order
  /-- It came while the device was frozen (R432). -/
  held : Bool := false
  deriving DecidableEq, Repr

/-- The PCIe function's controls with the reset values of the PCI specifications (R466; assumption 62): Memory Space and Bus Master Enable,
MSI-X Enable and Function Mask, D3hot, and the AER Uncorrectable Error Status. -/
structure PcieFunction where
  memory : Bool := false
  busMaster : Bool := false
  msixOn : Bool := false
  msixMask : Bool := false
  d3 : Bool := false
  aer : Nat := 0
  deriving DecidableEq, Repr

/-- The PCIe function (chapter 12): the MSI-X table with its pending bits, the window registers, the mailbox and the
requests under way. -/
structure HostPort where
  msix : Map (BitVec 128) := []      -- rest value: vector control masked (assumption 6)
  pba : Map Bool := []
  windows : Map Word := []
  /-- Windows that BAR4 holds (R468). -/
  bar4 : Nat := 64
  ops : List HostOp := []
  /-- Mailbox (R642): bytes written over MB_REQUEST and MB_RESPONSE, MB_RESP_ADDR and MB_MSIX. -/
  mbRequest : Map Byte := []
  mbResponse : List Byte := []
  mbRespAddr : Word := 0
  mbMsix : Word32 := 0
  /-- MB_STATUS (R643), and the request that a member is performing (R645). -/
  mbBusy : Bool := false
  mbDone : Bool := false
  mbOverrun : Bool := false
  mbSeq : Nat := 0
  mbSent : List Byte := []
  linkUp : Bool := false
  function : PcieFunction := {}
  /-- The mailbox's doorbell has been written and is still to be acted on. -/
  mbRung : Bool := false
  deriving DecidableEq, Repr

/-- What the module sends out of its pins: the model's own record, newest first (assumption 3). -/
inductive Output where
  | msix (address : Nat) (data : Nat)
  | hostWrite (address : Nat) (bytes : List Byte)
  | completion (tag : Nat) (outcome : Nat) (bytes : List Byte)
  | lglFrame (port : Nat) (bytes : List Byte)
  | groupMessage (device : Nat) (kind : Nat) (fields : List Nat)
  | egress (lane : Nat) (bytes : List Byte)
  | datagram (address : Nat) (port : Nat) (bytes : List Byte)
  | ethernet (kind : Nat) (bytes : List Byte)
  | jtag (bits : Nat)
  | answered (result snap : Nat) (bytes : List Byte)
  deriving DecidableEq, Repr

/-- The event log and what is due from it (R656 to R658). -/
structure Events where
  log : Map (BitVec 128) := []
  counts : Map Nat := []
  msixDue : Bool := false
  notifyDue : Bool := false
  lastMsix : Option Nat := none
  /-- Per event target: records not yet sent. -/
  unsent : Map (List (BitVec 128)) := []
  /-- By target: 1 + the time of its last message. -/
  lastNotice : Map Nat := []
  noticeSeq : Map Nat := []
  deriving DecidableEq, Repr

/-- The levels of the module's control lands (R687, R692): VAUX_3V3 in range, PWR_GOOD, RESET_N, FREEZE_N and COOLANT_OK. -/
structure Pins where
  vaux : Bool := true
  pwrGood : Bool := true
  resetN : Bool := true
  freezeN : Bool := true
  coolantOk : Bool := true
  gtick : Bool := false
  deriving DecidableEq, Repr

/-- An entry of the repair table (R626). -/
inductive Repair where
  | row (channel layer bank row : Nat)
  | lane (channel lane : Nat)
  | spare (core array : Nat) (word : BitVec 16)
  | bypass (core : Nat)
  deriving DecidableEq, Repr

/-- Phases, measurements, energy and cap controllers (chapter 14). Phases are keyed 128 × tower + phase, domains 8 × tower + domain
(0 logic, 1 memory arrays, 2 links, 3 memory interface, 4 standby), cap levels 0 module, 1 + tower, 16 + field. -/
structure Power where
  /-- PHASE_STATE bytes and PHASE_CURRENT_MA. -/
  phases : Map Byte := []
  /-- PHASE_STATE as the last 10 µs window left it (R570). -/
  shownPhases : Map Byte := []
  currents : Map Nat := []
  /-- DOMAIN_MW. -/
  domains : Map Nat := []
  /-- Input energy, in units of 10 pJ, by tower; 8 the auxiliary input. -/
  energy : Map Nat := []
  /-- The cap controllers: X of R555, samples over at the floor, and whether the last sample was over the sustained cap. -/
  excursion : Map Nat := []
  atFloor : Map Nat := []
  exceeded : Map Bool := []
  /-- Output and input power in µW of the last 100 samples, oldest first: level 0 the module, 1 + tower. -/
  samples : Map (List (Nat × Nat)) := []
  /-- Output energy since the last attribution, in units of 10 pJ: fields, domains, and input energy by tower and auxiliary (8). -/
  fieldEnergy : Map Nat := []
  domainEnergy : Map Nat := []
  inputEnergy : Map Nat := []
  /-- Attributed energy in fJ by device queue id, by core id, and what is not attributed. -/
  queues : Map Nat := []
  idle : Map Nat := []
  unattributed : Int := 0
  /-- The last 10 µs window that was measured (R548), and by tower the last millisecond that was attributed (R552), by number. -/
  window : Nat := 0
  attributed : Map Nat := []
  deriving DecidableEq, Repr

/-- A temperature sensor (R571, R572): its last reading in units of 0.125 °C, none when the conversion failed; its entry in
SENSOR_READINGS; its run of invalid samples. -/
structure Sensor where
  last : Option Int := none
  shown : BitVec 16 := 0
  bad : Nat := 0
  faulty : Bool := false
  deriving DecidableEq, Repr

/-- A pair's runs of samples in and out of disagreement, and whether it is in disagreement (R574). -/
structure PairWatch where
  apart : Nat := 0
  agree : Nat := 0
  raised : Bool := false
  deriving DecidableEq, Repr

/-- What a tower sums for RTH_EST over a second (R576): pair values, TOWER_INPUT_MW and samples, and when the second began. -/
structure RthSum where
  temps : Int := 0
  power : Nat := 0
  samples : Nat := 0
  since : Nat := 0
  deriving DecidableEq, Repr

/-- Thermal control (chapter 15). Sensors are keyed 256 × tower + index, pairs 128 × tower + index ÷ 2. -/
structure Thermal where
  sensors : Map Sensor := []
  watches : Map PairWatch := []
  /-- By tower: the compute-tier pair values of up to 51 samples, oldest first. -/
  history : Map (List (List Int)) := []
  /-- Layer temperatures by field, D0 first, in the unit `degree`. -/
  layers : Map (List Int) := []
  /-- The last sample that met the first condition of R586. -/
  riseAt : Option Nat := none
  sums : Map RthSum := []
  /-- RTH_EST where it has been estimated. -/
  rth : Map (Option Word32) := []
  /-- THERMAL_CAP_UPDATE's last second, and whether the ratio of R584 has exceeded 1.10 and not come back (R585). -/
  capAt : Nat := 0
  degraded : Bool := false
  /-- The last write of a tray entry (R587). -/
  trayAt : Option Nat := none
  /-- By tower: the last 10 µs window that was sampled, by number (R571), and what its cores had counted by kind at the ends of the last ten,
  oldest first (R575). -/
  windows : Map Nat := []
  marks : Map (List (List (Nat × List Nat))) := []
  deriving DecidableEq, Repr

/-- Bring-up (chapter 16): its progress, what its tests have found, and the waves under way. -/
structure Boot where
  started : Bool := false
  /-- Release of RESET_N. -/
  since : Nat := 0
  /-- The main rails are up (step 2), and every channel is initialised (step 3). -/
  rails : Bool := false
  channels : Bool := false
  /-- The next wave (8: none), when the waves began and the fields that they switch on. -/
  wave : Nat := 8
  waveAt : Nat := 0
  waveFields : List Nat := []
  /-- Fields whose self-test of this boot has ended. -/
  tested : List Nat := []
  badCores : List Nat := []
  badSlices : List Nat := []
  badHens : List Nat := []
  badChannels : List Nat := []
  badTowers : List Nat := []
  badBridges : List Nat := []
  /-- The input was lost (R694): nothing comes up until a RESET_N cycle. -/
  inputLoss : Bool := false
  /-- When LAST_SHUTDOWN took its value (R696). -/
  stopAt : Option Nat := none
  deriving DecidableEq, Repr

/-- A row or lane repair that waits for its channel to be idle (R624, R625). -/
structure RepairJob where
  repair : Repair
  persist : Bool
  since : Nat
  deriving DecidableEq, Repr

/-- The saved entries (access RWS) as the NOR device holds them (R605): those kept in `regs`, and the tables. -/
structure Saved where
  regs : Map Nat := []
  eclassPowers : Map Nat := []
  deadlines : Map Nat := []
  fallbacks : Map Word32 := []
  deriving DecidableEq, Repr

/-- Capture and the test access port (R677, R680): channels that capture reads keep out of self-refresh, with the last such read;
the instruction register, the boundary-scan register and the capture address of the port. -/
structure Capture where
  awake : Map Nat := []
  ir : BitVec 8 := 0xFF
  scan : Nat := 0
  address : Nat := 0
  /-- When the last freeze source cleared (R666). -/
  thawAt : Nat := 0
  deriving DecidableEq, Repr

/-! ### The object dictionary (chapter 17) -/

/-- A response kept in a session's replay table (R651): the fields by which a resend is known, the answer, and the class B write that it
waits for. -/
structure Kept where
  seq : Nat
  mtype : Nat
  index : Nat
  sub : Nat
  offset : Nat
  crc : Nat
  at_ : Nat
  result : Nat
  snap : Nat
  bytes : List Byte
  job : Option Nat
  deriving DecidableEq, Repr

/-- A session (R635): its level (0 host, 1 steward), its last request and its 16 most recent responses, newest first. -/
structure Session where
  level : Nat := 0
  last : Nat := 0
  kept : List Kept := []
  deriving DecidableEq, Repr

structure JopSession where
  address : Nat
  port : Nat
  session : Session
  deriving DecidableEq, Repr

/-- A snapshot of a log (R641). -/
structure Snapshot where
  id : Nat
  index : Nat
  sub : Nat
  bytes : List Byte
  last : Nat
  deriving DecidableEq, Repr

/-- The work of a class B write (R648). -/
inductive JobKind where
  | save (index sub : Nat) (bytes : List Byte)
  | program (offset : Nat) (bytes : List Byte)
  | erase (block : Nat)
  deriving DecidableEq, Repr

structure Job where
  id : Nat
  kind : JobKind
  deriving DecidableEq, Repr

/-- The dictionary: sessions, snapshots, class B writes in order of receipt, and the counts of R635 and R653. -/
structure Dict where
  mailbox : Session := {}
  /-- Requests that the head forwards to this device. -/
  member : Session := {}
  jop : List JopSession := []
  snaps : List Snapshot := []
  lastSnap : Nat := 0
  jobs : List Job := []
  /-- Failed PRIV_UNLOCK writes of the last second, newest first, and the end of the lockout. -/
  fails : List Nat := []
  lockUntil : Option Nat := none
  /-- The second in which requests are counted, and their number. -/
  rateAt : Nat := 0
  rateCount : Nat := 0
  deriving DecidableEq, Repr

/-- Records logged in the present cycle, by the key that orders those of one beat (R134, R230). -/
structure Batch where
  at_ : Nat := 0
  items : List (Nat × BitVec 256) := []
  deriving DecidableEq, Repr

/-- The whole module. -/
structure State where
  pending : List Instr := []
  /-- Cycles of the 1.2 GHz reference since power-on. -/
  now : Nat := 0
  /-- Cycles of the reference outside a freeze: the time of every timer that stops while frozen. -/
  run : Nat := 0
  /-- The model's own counter: tokens and free values. -/
  fresh : Nat := 0
  /-- Scalar dictionary entries and counters that differ from their defaults. -/
  regs : Map Nat := []
  dm : DefectMap := {}
  fields : Map Field := []
  links : Map Links := []
  steward : Steward := {}
  cores : Map Core := []
  reqs : List Req := []
  channels : Map Channel := []
  hashWatch : Map HashWatch := []
  queues : Map Queue := []
  mem : Memory := {}
  events : Events := {}
  group : Group := {}
  host : HostPort := {}
  stream : StreamPort := {}
  power : Power := {}
  pins : Pins := {}
  thermal : Thermal := {}
  boot : Boot := {}
  repairJob : Option RepairJob := none
  capture : Capture := {}
  saved : Saved := {}
  dict : Dict := {}
  /-- The NOR device where it has been written: 256 + the byte (R601, R660). -/
  nor : Map Nat := []
  /-- Bytes of the NOR device, as its SFDP table gives them (R600); 64 MiB before reset is the model's (assumption 50). -/
  norSize : Nat := 0x4000000
  /-- Fields that wait to be switched on, by tower, in order (R540). -/
  turnOns : Map (List Nat) := []
  /-- The repair table, saved across cold boots (R605, R626). -/
  repairs : List Repair := []
  /-- Row and lane repairs in force since the last cold boot. -/
  inForce : List Repair := []
  /-- DEFECT_LOG (R614). -/
  defectLog : Map (BitVec 128) := []
  /-- Channels that have had a LANE_SUSPECT event (R627). -/
  laneSuspected : List Nat := []
  syncMsgs : List SyncMsg := []
  syncObjs : Map SyncObj := []
  releases : List Release := []
  leases : Map Lease := []
  roundEnds : List RoundEnd := []
  /-- Router slots held: key 4 × (tower × 128 + cluster) + slot, value lease id + 1 (R380). -/
  slots : Map Nat := []
  routers : Map Router := []
  /-- By shaft router. -/
  shafts : Map Shaft := []
  packets : List Packet := []
  /-- The target ports of the crossbars, by position; of the mesh routers 65,536 + router (R242, R243). -/
  ports : Map Port := []
  multicasts : List Multicast := []
  leaseOps : List LeaseOp := []
  bindOps : List BindOp := []
  /-- SWITCH_WIDTH_DEFAULT as copied into every QCB at cold boot (R323). -/
  bootSwitchWidth : BitVec 8 := 24
  /-- ECLASS_POWER by class, where written (R426). -/
  eclassPowers : Map Nat := []
  satTotal : Map (BitVec 64) := []
  nanTotal : Map (BitVec 64) := []
  faultLog : Map (BitVec 256) := []
  faultBatch : Batch := {}
  gooseLog : Map (BitVec 256) := []
  gooseBatch : Batch := {}
  kvLog : Map (BitVec 256) := []
  /-- KV_ANSWER writes that wait for the thaw (R358). -/
  heldAnswers : List (Nat × Nat) := []
  /-- GROUP_LEASE entries as written, by number (R489). -/
  groupLeaseEntries : Map Nat := []
  out : List Output := []
  deriving DecidableEq, Repr

/-- The module right after reset is released, before COLD_BOOT. -/
def State.reset : State := {}

end Sys2Proof.Machine
end

