-- ==== Sys2Proof/Machine/Ops.lean ====
section
/-! DEFINITION. The named operations over the state: dictionary registers and counters, units and their service state,
events, contexts and their registers, numeric counters. -/
namespace Sys2Proof.Machine

/-! ### Times: cycles of the 1.2 GHz reference (R53, R71) -/

/-- A time in ns as reference cycles, rounded up. -/
def nsCycles (n : Nat) : Nat := (n * 6 + 4) / 5
def usCycles (n : Nat) : Nat := n * 1200
def msCycles (n : Nat) : Nat := n * 1200000
def secCycles (n : Nat) : Nat := n * 1200000000

/-! ### Scalar dictionary entries -/

/-- Defaults that are not 0 of the scalar entries held in `regs` (the Default column of each chapter's table). -/
def regDefault (idx sub : Nat) : Nat :=
  match idx with
  | 0x1000 => match sub with | 3 => 0xB0 | 9 => 1 | _ => 0
  | 0x1100 => 0x1F
  | 0x1102 => match sub with
    | 1 => 0xFF | 2 => 10240 | 3 => 256 | 4 => 32 | 5 => 1024 | 6 => 256 | 7 => 4 | 8 => 16 | 9 => 32 | 10 => 0x4000000
    | 11 => 12 | 12 => 8 | 14 => 64 | _ => 0
  | 0x2000 => match sub with | 1 => 1800 | 2 => 2100 | 3 => 10000 | _ => 0
  | 0x2001 => 225
  | 0x2002 => 32000
  | 0x2003 => 32000
  | 0x2004 => 1800
  | 0x2005 => 1800
  | 0x2104 => 1024
  | 0x2200 => match sub with | 1 => 1500 | 2 => 1000 | 3 => 1800 | _ => 0
  | 0x2210 => match sub with | 1 => 1800 | 2 => 1800 | 4 => 40 | _ => 0
  | 0x2300 => 2000
  | 0x3000 => match sub with | 1 => 88 | 2 => 110 | 3 => 3 | 4 => 1 | _ => 0
  | 0x3003 => 1800
  | 0x3010 => match sub with | 1 => 0x42200000 | 2 => 0x40200000 | _ => 0
  | 0x3011 => match sub with | 9 => 1800 | _ => 0
  | 0x4101 => match sub with | 1 => 1 | 2 => 400 | _ => 0
  | 0x4102 => match sub with | 1 => 1 | 2 => 8 | _ => 0
  | 0x4103 => match sub with | 1 => 64 | 2 => 1000 | 3 => 60 | _ => 0
  | 0x4200 => match sub with | 1 => 4000 | 2 => 4 | 3 => 50 | 4 => 16 | 5 => 10 | _ => 0
  | 0x4403 => match sub with | 1 => 10 | 2 => 256 | _ => 0
  | 0x5100 => match sub with | 1 => 100 | _ => 0
  | 0x5200 => match sub with | 6 => 1 | 9 => 2 | _ => 0
  | 0x5201 => 4
  | 0x5300 => match sub with | 2 => 1 | 4 => 24 | 8 => 64 | _ => 0
  | 0x6000 => match sub with | 1 => 100 | 3 => 6 | _ => 0
  | 0x6100 => 2000
  | 0x6201 => 24
  | 0x7001 => 1
  | 0x7008 => match sub with | 1 => 1000 | 2 => 1048576 | _ => 0
  | 0x8100 => match sub with | 1 => 1 | 2 => 10 | 3 => 10 | 4 => 1 | 5 => 4 | 6 => 2000 | _ => 0
  | 0x9000 => match sub with | 5 => 2 | _ => 0
  | 0x9001 => match sub with | 3 => 100 | _ => 0
  | 0x9009 => match sub with | 3 => 0xFF | _ => 0
  | 0x9010 => match sub with | 3 => 1 | _ => 0
  | 0xA200 => match sub with | 4 => 0x7FFFFFFE | _ => 0
  | _ => 0

def State.reg (s : State) (idx sub : Nat) : Nat := Map.get (regDefault idx sub) s.regs (idx * 256 + sub)

def State.setReg (s : State) (idx sub v : Nat) : State :=
  { s with regs := Map.set (regDefault idx sub) s.regs (idx * 256 + sub) v }

/-- A U64 counter that wraps to 0. -/
def State.wrap64 (s : State) (idx sub n : Nat) : State := s.setReg idx sub ((s.reg idx sub + n) % 2 ^ 64)

/-- A U32 counter that stops at 0xFFFF_FFFF. -/
def State.sat32 (s : State) (idx sub n : Nat) : State := s.setReg idx sub (min (s.reg idx sub + n) 0xFFFFFFFF)

/-- The per-tower forms: subindex T + 1 names tower T. -/
def State.towerWrap (s : State) (idx tower n : Nat) : State := s.wrap64 idx (tower + 1) n
def State.towerSat (s : State) (idx tower n : Nat) : State := s.sat32 idx (tower + 1) n

/-- Saturating addition in 32 bits for counters held beside their unit. -/
def addSat (a n : Nat) : Nat := min (a + n) 0xFFFFFFFF

/-- A value brought into a range (the clamped writes). -/
def clamp (lo hi v : Nat) : Nat := max lo (min hi v)

/-! ### Identifiers (R40, R44) -/

def coreTower (core : Nat) : Nat := core / 2048
def coreCluster (core : Nat) : Nat := core / 16 % 128
def coreNumber (core : Nat) : Nat := core % 16
/-- Channel index in the tower: cluster × 16 + core. -/
def channelIndex (core : Nat) : Nat := core % 2048
/-- Tower × 128 + cluster. -/
def clusterId (core : Nat) : Nat := core / 16
/-- Field in the tower of a cluster (R40). -/
def clusterField (cluster : Nat) : Nat := cluster / 10 / 2 * 2 + cluster % 10 / 5
/-- 8 × T + F of a core's field. -/
def coreField (core : Nat) : Nat := coreTower core * 8 + clusterField (coreCluster core)
/-- The core id names a cluster that exists (R45). -/
def coreExists (core : Nat) : Bool := core < 16384 && coreCluster core < 80
def queueCore (q : Nat) : Nat := q / 32
def syncTower (o : Nat) : Nat := o / 1024

/-- The core ids of a field, cluster by cluster. -/
def fieldCores (f : Nat) : List Nat :=
  (List.range 10).flatMap fun i =>
    let cluster := (2 * (f % 8 / 2) + i / 5) * 10 + 5 * (f % 2) + i % 5
    (List.range 16).map fun k => f / 8 * 2048 + cluster * 16 + k

/-! ### Units in service -/

def State.field (s : State) (f : Nat) : Field := Map.get {} s.fields f
def State.setField (s : State) (f : Nat) (v : Field) : State := { s with fields := Map.set {} s.fields f v }
def State.core (s : State) (c : Nat) : Core := Map.get {} s.cores c
def State.setCore (s : State) (c : Nat) (v : Core) : State := { s with cores := Map.set {} s.cores c v }
def State.channel (s : State) (c : Nat) : Channel := Map.get {} s.channels c
def State.setChannel (s : State) (c : Nat) (v : Channel) : State := { s with channels := Map.set {} s.channels c v }
def State.queue (s : State) (q : Nat) : Queue := Map.get {} s.queues q
def State.setQueue (s : State) (q : Nat) (v : Queue) : State := { s with queues := Map.set {} s.queues q v }

/-- The field is powered and out of reset (R43). -/
def State.fieldUp (s : State) (f : Nat) : Bool := (s.field f).rail == .powered

/-- The core is in service in the published defect map (R46). -/
def State.inService (s : State) (core : Nat) : Bool :=
  s.dm.published && coreExists core && !s.dm.cores.contains core

def State.sliceInService (s : State) (core : Nat) : Bool :=
  s.dm.published && coreExists core && !s.dm.slices.contains core

/-- The compute tier runs: FREEZE_STATE reads RUNNING (R667, R139). -/
def State.running (s : State) : Bool := s.reg 0xA001 3 == 0

/-- The core is in service, its field powered and the device not frozen. -/
def State.coreUp (s : State) (core : Nat) : Bool := s.inService core && s.fieldUp (coreField core) && s.running

/-- What stands in the way of a request that addresses a core, its core store or its queues (R43, R46). -/
def State.coreStatus (s : State) (core : Nat) : Status :=
  if !s.inService core then 0x07 else if !s.fieldUp (coreField core) then 0x03 else 0x00

/-- The core that issues a channel's command descriptors: its own, or the adopter of R245. -/
def State.issuer (s : State) (channel : Nat) : Option Nat :=
  ((List.range 16).map fun i => clusterId channel * 16 + (channel + i) % 16).find? s.inService

/-! ### Pace and stretch shared by several chapters -/

/-- The stretch in force on a core: the largest of the field controller's request, which is the larger of the field
transition stretch and the core's thermal stretch (R63), and the other levels' requests (R35), at most 16 (R61). -/
def State.appliedStretch (s : State) (core : Nat) : Nat :=
  let f := s.field (coreField core)
  min 16 ((s.core core).stretch.foldl (fun m e => max m e.2) (max f.transition (Map.get 0 f.thermal core)))

/-- The device is a member of a pace-locked group, so that limit 2 of R54 holds: MEMBER, HEAD or ORPHAN (R497, R500). -/
def State.paceLocked (s : State) : Bool := [2, 3, 4].contains (s.reg 0x5200 5)

/-- The limits 1 to 5 of R54 for a field, with the bit that each has in FIELD_PACE_LIMITER (R56). -/
def State.paceLimits (s : State) (f : Nat) : List (Nat × Nat) :=
  [(s.reg 0x2200 1, 1)] ++ (if s.paceLocked then [(s.reg 0x2210 1, 2)] else []) ++
  [((s.field f).capLimit, 3), ((s.field f).thermalLimit, 4), (1800, 0)]

def State.lowestLimit (s : State) (f : Nat) : Nat := (s.paceLimits f).foldl (fun m l => min m l.1) 1800

/-- The cap limit of a field before the floor of R557: the lowest of its module's, its tower's and its own. -/
def State.capPace (s : State) (f : Nat) : Nat := min (s.reg 0x2004 1) (min (s.reg 0x2004 (f / 8 + 2)) (s.reg 0x2005 (f + 1)))

/-- The smallest stretch for which 1,000 × 16 ÷ (16 + s) ≤ L (R557). -/
def capStretchFor (l : Nat) : Nat := ((List.range 17).find? fun k => 16000 ≤ l * (16 + k)).getD 16

/-- The cap limit of a field: limit 3 of R54 and the cap stretch that the tower supervisor requests (R557). -/
def State.applyCap (s : State) (f : Nat) : State :=
  if !s.fieldUp f then s
  else
    let l := s.capPace f
    let k := if l < 1000 then capStretchFor l else 0
    let old := (s.field f).capStretch
    let s := s.setField f { s.field f with capLimit := max l 1000, capStretch := k }
    if k = old then s
    else (fieldCores f).foldl (fun (s : State) c =>
      s.setCore c { s.core c with stretch := Map.set 0 (s.core c).stretch 1 k }) s

/-- The answer of an entry of the object dictionary that is written: with no steward every request is answered NOT_READY and changes
nothing (R39). -/
def State.written (s : State) (after : State) : State := if s.steward.lost then s else after

/-! ### Tokens and free values -/

/-- A new token and the state that has given it. -/
def State.token (s : State) : Nat × State := (s.fresh, { s with fresh := s.fresh + 1 })

/-- A written value of an RWS entry on its way into the NOR device (R605, R650). -/
def State.save (s : State) (idx sub : Nat) (bytes : List Byte) : State :=
  { s with fresh := s.fresh + 1, dict := { s.dict with jobs := s.dict.jobs ++ [⟨s.fresh, .save idx sub bytes⟩] } }

/-! ### Reference time and events -/

/-- REF_TIME of a tower (R129). -/
def State.refTime (s : State) (tower : Nat) : BitVec 64 := BitVec.ofNat 64 s.now + Config.refOffset tower

/-- Bits `hi:lo` of a number. -/
def bitsOf (v hi lo : Nat) : Nat := v / 2 ^ lo % 2 ^ (hi + 1 - lo)

/-- An event logged, counted and made pending (R656), and due to be announced where enabled (R658). With no steward,
none is logged (R39). -/
def State.raise (s : State) (code tower detail : Nat) : State :=
  if s.steward.lost then s
  else
    let head := s.reg 0xA200 2
    let entry : BitVec 128 :=
      BitVec.ofNat 128 ((s.refTime tower).toNat * 2 ^ 64 + code % 256 * 2 ^ 56 + tower % 8 * 2 ^ 53 + detail % 2 ^ 32)
    let enabled := (s.reg 0xA200 4).testBit code
    let ev := s.events
    let ev := { ev with
      log := Map.set 0 ev.log head entry
      counts := Map.upd 0 ev.counts code (addSat · 1)
      msixDue := ev.msixDue || enabled
      notifyDue := ev.notifyDue || enabled
      unsent := if enabled then
          (List.range 4).foldl (fun m t =>
            if s.reg 0x5300 10 / 2 ^ (160 * t + 128) % 2 ^ 16 = 0 then m else Map.upd [] m t (· ++ [entry])) ev.unsent
        else ev.unsent }
    ({ s with events := ev }.setReg 0xA200 2 ((head + 1) % 256)).setReg 0xA200 3
      (s.reg 0xA200 3 ||| 2 ^ code)

/-! ### Records of one cycle in the order of their keys (R134, R230) -/

def insertByKey (k : Nat) (r : BitVec 256) : List (Nat × BitVec 256) → List (Nat × BitVec 256)
  | [] => [(k, r)]
  | e :: es => if k < e.1 then (k, r) :: e :: es else e :: insertByKey k r es

/-- A record added to those of its cycle. -/
def Batch.add (b : Batch) (now k : Nat) (r : BitVec 256) : Batch :=
  { at_ := now, items := insertByKey k r (if b.at_ = now then b.items else []) }

/-- A ring of `size` entries whose last entries, up to the one before `next`, are a batch's. -/
def Batch.write (b : Batch) (size next : Nat) (m : Map (BitVec 256)) : Map (BitVec 256) :=
  let n := b.items.length
  (List.zip (List.range n) b.items).foldl (fun m e => Map.set 0 m ((next + size * n - n + e.1) % size) e.2.2) m

/-! ### Contexts -/

def State.ctx (s : State) (core ctx : Nat) : Ctx := Map.get {} (s.core core).ctxs ctx

def State.setCtx (s : State) (core ctx : Nat) (v : Ctx) : State :=
  s.setCore core { s.core core with ctxs := Map.set {} (s.core core).ctxs ctx v }

def State.updCtx (s : State) (core ctx : Nat) (g : Ctx → Ctx) : State := s.setCtx core ctx (g (s.ctx core ctx))

/-- A register read: x0 reads as zero (R85). -/
def Ctx.x (c : Ctx) (r : Reg) : Word := if r = 0 then 0 else Map.get 0 c.regs r.toNat

/-- A register write: writes to x0 are discarded (R85). -/
def Ctx.setX (c : Ctx) (r : Reg) (v : Word) : Ctx :=
  if r = 0 then c else { c with regs := Map.set 0 c.regs r.toNat v }

def Ctx.counter (c : Ctx) (i : BitVec 2) : BitVec 6 := Map.get 0 c.wc i.toNat
def Ctx.setCounter (c : Ctx) (i : BitVec 2) (v : BitVec 6) : Ctx := { c with wc := Map.set 0 c.wc i.toNat v }
def Ctx.asyncStatus (c : Ctx) (i : BitVec 2) : Status := Map.get 0 c.async i.toNat
def Ctx.setAsync (c : Ctx) (i : BitVec 2) (v : Status) : Ctx := { c with async := Map.set 0 c.async i.toNat v }

/-- All four counters read zero. -/
def Ctx.idle (c : Ctx) : Bool := [0, 1, 2, 3].all fun i => c.counter (BitVec.ofNat 2 i) == 0

/-- The next PC: 18 bits, with the mark of an address at or beyond 0x4_0000 (R131). -/
def Ctx.goto (c : Ctx) (a : Word) : Ctx := { c with pc := a.truncate 18, pcBeyond := decide (0x40000 ≤ a.toNat) }

/-- PC + 4. -/
def Ctx.advance (c : Ctx) : Ctx := c.goto (BitVec.ofNat 64 (c.pc.toNat + 4))

/-- A waiting context made READY again. -/
def Ctx.wake (c : Ctx) : Ctx := { c with state := .ready, wait := .none }

/-- A context put into a wait. -/
def Ctx.block (c : Ctx) (st : CtxState) (w : Wait) : Ctx := { c with state := st, wait := w, waited := true }

/-! ### Numeric counters (R209 to R211) -/

/-- The core with the events of this reference cycle alone among those of a cycle (R211). -/
def Core.inCycle (c : Core) (now : Nat) : Core :=
  if c.cycleAt = now then c else { c with cycleAt := now, cycleSats := [], cycleNans := [] }

/-- One event counted in a core's counters and in the module's totals. -/
def State.countEvent (s : State) (core : Nat) (e : NumEvent) : State :=
  let up (v : BitVec 32) : BitVec 32 := if v = 0xFFFFFFFF then v else v + 1
  let c := (s.core core).inCycle s.now
  match e with
  | .sat f =>
    { s.setCore core { c with sats := Map.upd 0 c.sats f.code up, cycleSats := Map.upd 0 c.cycleSats f.code up } with
      satTotal := Map.upd 0 s.satTotal f.code (· + 1) }
  | .nan f =>
    { s.setCore core { c with nans := Map.upd 0 c.nans f.code up, cycleNans := Map.upd 0 c.cycleNans f.code up } with
      nanTotal := Map.upd 0 s.nanTotal f.code (· + 1) }

def State.countEvents (s : State) (core : Nat) (es : List NumEvent) : State :=
  es.foldl (fun s e => s.countEvent core e) s

/-- A message put on the module's pins. -/
def State.send (s : State) (o : Output) : State := { s with out := o :: s.out }

end Sys2Proof.Machine
end

