-- ==== Sys2Proof/Machine/Flags.lean ====
section
/-! DEFINITION. Flags: the write-1-to-clear entries of R655 and the bits that hardware sets in them. -/
namespace Sys2Proof.Machine

/-- Bits set by hardware in a flag entry. -/
def State.setFlags (s : State) (idx sub bits : Nat) : State := s.setReg idx sub (s.reg idx sub ||| bits)

/-- The entry's value with the bits written 1 cleared (R655). -/
def clearedBits (old written : Nat) : Nat := old ^^^ (old &&& written)

/-- A write to a write-1-to-clear entry. -/
def State.clearFlags (s : State) (idx sub written : Nat) : State := s.setReg idx sub (clearedBits (s.reg idx sub) written)

end Sys2Proof.Machine
end

