-- ==== Sys2Proof/Machine/StreamOps.lean ====
section
/-! DEFINITION. Links of the timed-stream port: HOLD and its causes, control frames, the ring's space, and what a frame's launch
leaves with its slot (R508 to R526). -/
namespace Sys2Proof.Machine

def State.link (s : State) (n : Nat) : StreamLink := Map.get {} s.stream.links n
def State.setLink (s : State) (n : Nat) (l : StreamLink) : State :=
  { s with stream := { s.stream with links := Map.set {} s.stream.links n l } }

/-- The tower of a link's group: T2 for links 0 to 3, T3 for 4 to 7 (R506). -/
def linkTower (n : Nat) : Nat := 2 + n / 4

/-- LINK_ENABLE reads 1. -/
def State.linkEnabled (s : State) (n : Nat) : Bool := s.reg 0x7000 (n + 1) == 1

def StreamLink.declared (l : StreamLink) : Bool := l.state == 3 || l.state == 4

/-- Free bytes of a ring (R516). -/
def StreamLink.free (l : StreamLink) : Nat := l.ringBytes - (l.slots.map (·.take)).sum

/-- Counter `i` of LINK_COUNTERS: 0 FRAMES, 1 BYTES, 2 DROPS_SPACE, 3 DROPS_CRC, 4 DROPS_HEADER, 5 DROPS_OTHER, 6 HOLD_RISES,
7 GAP_FRAMES. -/
def StreamLink.count (l : StreamLink) (i n : Nat) : StreamLink :=
  { l with counters := Map.upd 0 l.counters i (· + BitVec.ofNat 64 n) }

/-- Counter `i` of a stream: 0 VERDICTS, 1 FALLBACKS, 2 DROPS. -/
def State.countStream (s : State) (stream i : Nat) : State :=
  { s with stream := { s.stream with counters := Map.upd 0 s.stream.counters (3 * stream + i) (· + 1) } }

/-- HOLD_CAUSES of a link (R517). -/
def State.holdCauses (s : State) (n : Nat) : Nat :=
  let l := s.link n
  let ring := (List.range 8).any fun f => !s.fieldUp (linkTower n * 8 + f)
  (if l.space then 1 else 0) + (if s.linkEnabled n then 0 else 2) + (if l.thermal then 4 else 0) +
  (if s.running then 0 else 8) + (if s.dm.published && ring then 16 else 0) + (if l.declared then 0 else 32)

/-- A control frame (R510). -/
structure Control where
  type : Nat
  flags : Nat := 0
  stream : Nat := 0
  cause : Nat := 0
  seq : Nat := 0
  count : Nat := 1
  verdict : Nat := 0
  deriving DecidableEq, Repr

def frameLate : Nat := 1
def frameDropped : Nat := 2
def frameGap : Nat := 4
def frameRefused : Nat := 8

/-- The 32 bytes of a control frame, TYPE first. -/
def Control.bytes (c : Control) (link : Nat) (hold : Bool) (time : BitVec 64) : List Byte :=
  let body := natToBytes 1 c.type ++ natToBytes 1 (link * 32 + (if hold then 16 else 0) + c.flags) ++ natToBytes 1 c.stream ++
    natToBytes 1 c.cause ++ natToBytes 4 c.seq ++ natToBytes 2 c.count ++ natToBytes 4 c.verdict ++ natToBytes 2 0 ++
    natToBytes 8 time.toNat ++ natToBytes 4 0
  body ++ natToBytes 4 (crc32 body).toNat

/-- A control frame sent on the egress lane of the link's group, with the link's present hold state. -/
def State.sendControl (s : State) (n : Nat) (c : Control) : State :=
  s.send (.egress (n / 4) (c.bytes n (s.link n).hold (s.refTime (linkTower n))))

/-- HOLD brought in line with its causes: a change is counted and sent (R510, R517); a READY link with LINK_ENABLE and no cause
enters STREAMING (R511). -/
def State.refreshHold (s : State) (n : Nat) : State :=
  let h := s.holdCauses n != 0
  let l := s.link n
  let s :=
    if h = l.hold then s
    else
      let l := if h then { l with hold := h }.count 6 1 else { l with hold := h }
      (s.setLink n l).sendControl n { type := 0x12 }
  let l := s.link n
  if l.state = 3 && !h && s.linkEnabled n then s.setLink n { l with state := 4 } else s

def State.refreshHolds (s : State) : State := (List.range 8).foldl State.refreshHold s

/-- A slot's frame changed, found by its launch. -/
def State.updFrame (s : State) (n : Nat) (seek : Frame → Bool) (g : Frame → Frame) : State :=
  let l := s.link n
  s.setLink n { l with slots := l.slots.map fun f => if seek f then g f else f }

/-- The reference of the link's tower has reached a count. -/
def State.reached (s : State) (n : Nat) (t : BitVec 64) : Bool := (s.refTime (linkTower n) - t).toNat < 2 ^ 63

/-- The link and the frame whose launch a descriptor is, while the port has not noted its completion. -/
def State.frameOf (s : State) (q i : Nat) : Option (Nat × Frame) :=
  (List.range 8).findSome? fun n =>
    ((s.link n).slots.find? fun f => f.launch == some (q, i) && f.completed.isNone).map fun f => (n, f)

/-- The port notes how a frame's launch has completed (R524). -/
def State.noteFrame (s : State) (n : Nat) (f : Frame) (st : Status) : State :=
  { s with fresh := s.fresh + 1 }.updFrame n (· == f) fun f => { f with completed := some st, completedAt := s.fresh }

/-- The status that a frame's launch completes with: DEADLINE in place of OK where its fallback was sent because of lateness (R526). -/
def lateStatus (late : Bool) (st : Status) : Status := if late && st = 0 then 0x05 else st

/-- Launches of frames whose queue's indices are reset never complete (R408, R516). -/
def State.orphanFrames (s : State) (q : Nat) : State :=
  (List.range 8).foldl (fun (s : State) n =>
    s.updFrame n (fun f => f.completed.isNone && (match f.launch with
      | some (k, _) => k == q
      | none => false)) fun f => { f with launch := some (2 ^ 19, 0) }) s

end Sys2Proof.Machine
end

