-- ==== Sys2Proof/Machine/FreezeOps.lean ====
section
/-! DEFINITION. Freeze sources (R502, R628, R666, R667): shared by the FREEZE entry, BRK, the FREEZE_N pin and the head's
packet. -/
namespace Sys2Proof.Machine

/-- PIN is bit 0 and SOFTWARE bit 1 of FREEZE_SOURCES. -/
def freezePin : Nat := 1
def freezeSoftware : Nat := 2

/-- A freeze that was asked for begins: FREEZE_STATE becomes FREEZING from RUNNING or THAWING (R667). Before READY it is
held (R628). A source that is set in the cycle in which the last one has cleared keeps the device FROZEN (R666). -/
def State.beginFreeze (s : State) : State :=
  if s.reg 0xA001 4 != 0 && s.reg 0xA001 3 == 3 && s.capture.thawAt == s.now then s.setReg 0xA001 3 2
  else if s.dm.published && s.reg 0xA001 4 != 0 && (s.reg 0xA001 3 == 0 || s.reg 0xA001 3 == 3) then
    ((s.setReg 0xA001 3 1).sat32 0xBD00 1 1).refreshHolds
  else s

/-- A freeze told to the other members (R502): a member tells the head, and the head forwards when GROUP_FREEZE_PROPAGATE
reads 1. `source` is the member that froze. -/
def State.forwardFreeze (s : State) (source : Nat) : State :=
  if s.group.shape = 0 then s
  else if s.group.member ≠ 0 then s.send (.groupMessage 0 12 [source])
  else if s.reg 0x5200 8 = 1 then
    (List.range 64).foldl (fun s g =>
      if g ≠ 0 && g ≠ source && (s.reg 0x5200 6).testBit g then s.send (.groupMessage g 12 [source]) else s) s
  else s

/-- A freeze source set by this device itself. -/
def State.setFreezeSource (s : State) (bit : Nat) : State :=
  let was := s.reg 0xA001 3
  let s := (s.setFlags 0xA001 4 bit).beginFreeze
  if (was = 0 || was = 3) && s.reg 0xA001 3 = 1 then s.forwardFreeze s.group.member else s

end Sys2Proof.Machine
end

