-- ==== Sys2Proof/Machine/Operands.lean ====
section
/-! DEFINITION. The six instruction formats of R94 as words, and the operand values every instruction forms from its
fields (R97, R104, R105). -/
namespace Sys2Proof.Machine

/-- Format R: OP, XD, XA, XB, FN. -/
def wordR (op : Nat) (xd xa xb : Reg) (fn : BitVec 11) : Word32 :=
  BitVec.ofNat 6 op ++ xd ++ xa ++ xb ++ fn

/-- Format I: OP, XD, XA, IMM16. -/
def wordI (op : Nat) (xd xa : Reg) (imm : BitVec 16) : Word32 := BitVec.ofNat 6 op ++ xd ++ xa ++ imm

/-- Format B: OP, XA, XB, OFF16. -/
def wordB (op : Nat) (xa xb : Reg) (off : BitVec 16) : Word32 := BitVec.ofNat 6 op ++ xa ++ xb ++ off

/-- Format U: OP, XD, IMM21. -/
def wordU (op : Nat) (xd : Reg) (imm : BitVec 21) : Word32 := BitVec.ofNat 6 op ++ xd ++ imm

/-- Format C: OP, XD, XA, XB, WC, W, SUB. -/
def wordC (op : Nat) (xd xa xb : Reg) (wc : BitVec 2) (w : Bool) (sub : BitVec 8) : Word32 :=
  BitVec.ofNat 6 op ++ xd ++ xa ++ xb ++ wc ++ (if w then 1#1 else 0#1) ++ sub

/-- Format V: OP, XD, XA, XB, XC, VOP. -/
def wordV (op : Nat) (xd xa xb xc : Reg) (vop : BitVec 6) : Word32 := BitVec.ofNat 6 op ++ xd ++ xa ++ xb ++ xc ++ vop

/-! ### The words that are assigned (R95, R96) -/

/-- OP of a word. -/
def wordOp (w : Word32) : Nat := w.toNat / 2 ^ 26

/-- The FN, SUB or VOP value that selects the operation is assigned (R95, R99, R101, R110, R115 to R118, R124); for the rest of the
listed opcodes the OP selects it (R96). The formats of CVT, the arrays of TILE and the numbers of CSRR and CSRW are checked where
they are used. -/
def assignedWord (w : Word32) : Bool :=
  let op := wordOp w
  let fn := w.toNat % 64
  let sub := w.toNat % 256
  match op with
  | 0x00 | 0x0F => false
  | 0x01 => fn ≤ 0x0D || (0x10 ≤ fn && fn ≤ 0x12) || (0x14 ≤ fn && fn ≤ 0x1A)
  | 0x0D | 0x1F | 0x27 => w.toNat % 16 ≤ 9
  | 0x30 => sub == 0
  | 0x32 => fn ≤ 0x0D || (0x10 ≤ fn && fn ≤ 0x15) || (0x18 ≤ fn && fn ≤ 0x1B)
  | 0x33 => sub ≤ 3
  | 0x34 => sub ≤ 1
  | _ => op ≤ 0x39

/-- The operands of the operation that a VOP selects (R124): every one but VFILL has A. -/
def vopA (vop : Nat) : Bool := vop != 0x1B
def vopB (vop : Nat) : Bool := vop ≤ 0x05 || [0x08, 0x09, 0x12, 0x14, 0x15, 0x19, 0x1B].contains vop
def vopC (vop : Nat) : Bool := [0x03, 0x09, 0x15, 0x19].contains vop

/-- The bits of a word that its instruction uses; the others are reserved and ignored (R18, R95). Bits that select among listed values
or reach a check of the instruction count as used. -/
def wordMask (w : Word32) : Word32 :=
  match wordOp w with
  | 0x01 => 0xFFFFF83F                       -- FN bits 10:6
  | 0x0D => if 8 ≤ w.toNat % 16 then 0xFFFF000F else 0xFFFFF80F     -- FN bits 10:4; FABS, FNEG: XB
  | 0x1F | 0x27 => 0xFFFFF80F                -- FN bits 10:4
  | 0x0E | 0x30 => 0xFFFF07FF                -- XB
  | 0x32 =>                                  -- VEC: the operands that the operation does not have (R124)
    0xFFE0003F ||| (if vopA (w.toNat % 64) then 0x001F0000 else 0) ||| (if vopB (w.toNat % 64) then 0xF800 else 0) |||
      (if vopC (w.toNat % 64) then 0x07C0 else 0)
  | 0x33 => if w.toNat % 256 = 1 || w.toNat % 256 = 2 then 0xFFFF00FF else 0xFFFFFFFF   -- WAIT, READ: XB, WC, W
  | 0x34 => if w.toNat % 256 = 0 then 0xFFFFF8FF else 0xFC00F8FF      -- PUSH: WC, W; EXIT: XD and XA too
  | 0x35 | 0x37 => 0xFFE0FFFF                -- XA
  | 0x36 => 0xFC00FFFF                       -- XD, XA
  | 0x38 => 0xFC1FFFFF                       -- XD
  | 0x39 => 0xFC1FFFFF                       -- XD
  | _ => 0xFFFFFFFF

/-- Two words spell the same instruction. -/
def sameWord (a b : Word32) : Bool := (a &&& wordMask a) == (b &&& wordMask b)

/-! ### What an instruction reads and writes, and when its result can be used (R89, R130) -/

/-- The registers whose values an instruction uses (R96 to R129): for a branch the fields of format B, for a store and CAS XD too. -/
def wordReads (w : Word32) : List Nat :=
  let op := wordOp w
  let fd := w.toNat / 2 ^ 21 % 32
  let fa := w.toNat / 2 ^ 16 % 32
  let fb := w.toNat / 2 ^ 11 % 32
  let fc := w.toNat / 2 ^ 6 % 32
  let sub := w.toNat % 256
  match op with
  | 0x01 => [fa, fb]
  | 0x0D => if 8 ≤ w.toNat % 16 then [fa] else [fa, fb]
  | 0x10 | 0x11 | 0x12 | 0x13 | 0x14 | 0x15 => [fd, fa]
  | 0x1F | 0x27 => if w.toNat % 16 = 5 then [fa, fb, fd] else [fa, fb]
  | 0x28 | 0x29 | 0x2A | 0x2B | 0x2C | 0x2D | 0x2E | 0x2F => [fd, fa]
  | 0x30 => [fa]
  | 0x31 => [fa, fb]
  | 0x32 =>
    let vop := w.toNat % 64
    [fd] ++ (if vopA vop then [fa] else []) ++ (if vopB vop then [fb] else []) ++ (if vopC vop then [fc] else [])
  | 0x33 => if sub = 1 || sub = 2 then [fa] else [fa, fb]
  | 0x34 => if sub = 0 then [fa, fb] else [fb]
  | 0x0B | 0x16 | 0x35 | 0x36 | 0x37 | 0x39 => []
  | _ => [fa]

/-- The register that an instruction writes; x0 keeps no result (R85). -/
def wordWrites (w : Word32) : Option Nat :=
  let op := wordOp w
  let fd := w.toNat / 2 ^ 21 % 32
  let none_ := (0x10 ≤ op && op ≤ 0x15) || (0x28 ≤ op && op ≤ 0x2F) || [0x00, 0x32, 0x36, 0x38, 0x39].contains op ||
    (op = 0x34 && w.toNat % 256 ≠ 0)
  if none_ || fd = 0 then none else some fd

/-- DIV, DIVU, REM or REMU. -/
def isDivide (w : Word32) : Bool := wordOp w == 1 && 0x14 ≤ w.toNat % 64 && w.toNat % 64 ≤ 0x17

/-- Beats from the issue of an instruction to the earliest issue of one that uses its result, but for a wait for the divider (R130). -/
def wordBeats (w : Word32) : Nat :=
  match wordOp w with
  | 0x01 => if isDivide w then 68 else if 0x10 ≤ w.toNat % 64 && w.toNat % 64 ≤ 0x12 then 6 else 4
  | 0x0D | 0x0E => 6
  | 0x27 => 8
  | _ => 4

/-- Sign extension of IMM16 (R97). -/
def sext16 (i : BitVec 16) : Word := i.signExtend 64
/-- Zero extension of IMM16 (R97). -/
def zext16 (i : BitVec 16) : Word := i.zeroExtend 64
/-- The displacement OFF16 × 4 of a branch (R102). -/
def branchOffset (o : BitVec 16) : Word := o.signExtend 64 <<< 2
/-- The displacement IMM21 × 4 of JAL (R102). -/
def jumpOffset (o : BitVec 21) : Word := o.signExtend 64 <<< 2

/-- 1 or 0 in a register. -/
def boolWord (b : Bool) : Word := if b then 1 else 0

end Sys2Proof.Machine
end

