-- ==== Sys2Proof/Machine/Routes.lean ====
section
/-! DEFINITION. Group shapes, ports and routes between devices (R47, R105, R475 to R479). -/
namespace Sys2Proof.Machine

/-- The device number of a group address names this device (R105). -/
def State.isOwn (s : State) (dev : Nat) : Bool := dev == s.group.member || (s.group.shape == 0 && dev == 0)

/-- A device number that a group identifier names and that is not a current member (R47). -/
def State.nonMember (s : State) (dev : Nat) : Bool := !s.isOwn dev && !(s.reg 0x5200 6).testBit dev

/-! ### Shapes and routes (R475 to R478). Directions are 0 +x, 1 −x, 2 +y, 3 −y, 4 +z, 5 −z. -/

def shapeMembers (shape : Nat) : Nat := if shape = 1 then 16 else if shape = 2 then 64 else 1

/-- Direction of each port, L0 first. -/
def portDirections (shape : Nat) : List Nat :=
  if shape = 2 then [3, 3, 4, 1, 0, 1, 5, 0, 4, 5, 2, 2]
  else if shape = 1 then [3, 3, 0, 1, 0, 1, 1, 0, 0, 1, 2, 2]
  else []

/-- Tower of each port. -/
def portTower (p : Nat) : Nat := [0, 1, 1, 2, 3, 4, 4, 5, 5, 6, 6, 7].getD p 0

/-- Coordinate of a device on axis 0, 1 or 2. -/
def coordinate (g axis : Nat) : Nat := g / 4 ^ axis % 4

/-- The neighbour of a device in a direction. -/
def neighbour (g d : Nat) : Nat :=
  let axis := d / 2
  let c := coordinate g axis
  let c' := (if d % 2 = 0 then c + 1 else c + 3) % 4
  g - c * 4 ^ axis + c' * 4 ^ axis

/-- The direction of a packet's next hop: x, then y, then z, the shorter way round, a distance of 2 in the + direction. -/
def nextDirection (a b : Nat) : Option Nat :=
  (List.range 3).findSome? fun axis =>
    let dist := (coordinate b axis + 4 - coordinate a axis) % 4
    if dist = 0 then none else some (2 * axis + (if dist = 3 then 1 else 0))

/-- The devices from `a` to `b`, both included (at most six hops). -/
def deviceRoute : Nat → Nat → Nat → List Nat
  | 0, a, _ => [a]
  | n + 1, a, b =>
    match nextDirection a b with
    | some d => a :: deviceRoute n (neighbour a d) b
    | none => [a]

def deviceHops (a b : Nat) : Nat := (deviceRoute 6 a b).length - 1

/-- LGL_PORT_STATE: 0 DOWN, 1 TRAINING, 2 UP, 3 MISWIRED, 4 UNUSED. -/
def State.portState (s : State) (p : Nat) : Nat := s.reg 0x5201 (p + 1)
def State.setPortState (s : State) (p v : Nat) : State := s.setReg 0x5201 (p + 1) v

/-- The ports of a direction, by port number. -/
def State.portsToward (s : State) (d : Nat) : List Nat :=
  (List.range 12).filter fun p => (portDirections s.group.shape)[p]? == some d

def State.upPorts (s : State) (d : Nat) : List Nat := (s.portsToward d).filter fun p => s.portState p == 2

/-- The port that a packet takes toward another device: rank (SRC_CORE + DST_DEV) mod n of the ports up (R478); none where no
port of the route's direction is up (R479). -/
def State.portFor (s : State) (srcCore dst : Nat) : Option Nat :=
  match nextDirection s.group.member dst with
  | some d =>
    let ps := s.upPorts d
    if ps.isEmpty then none else ps[(srcCore + dst) % ps.length]?
  | none => none

/-! ### Who sends (R366, R478, R484) -/

/-- The unit (core id or slice position) of an SRAM line number. -/
def sramUnit (line : Nat) : Nat := line * 64 % 2 ^ 32 / 0x40000

/-- The core, or the position of a channel or slice, whose thread or unit makes a request; what the router of the target's cluster makes
has none. -/
def Source.core : Source → Option Nat
  | .thread core _ _ => some core
  | .unit (.array core _) | .unit (.held core _) | .unit (.goose core _) | .unit (.dma core _) | .unit (.dispatcher core)
  | .unit (.vector core) => some core
  | .unit (.append ch _) | .unit (.region ch _) | .unit (.hen ch) => some ch
  | .unit (.refetch line) => some (sramUnit line)
  | .unit (.pusher q) => some (queueCore q)
  | .record q _ | .slot q _ => some (queueCore q)
  | _ => none

/-- The cluster of the core that a message came from. -/
def Target.cluster : Target → Option Nat
  | .counter core _ _ | .wait core _ _ => some (clusterId core)
  | .ring q _ | .notify q _ => some (clusterId (queueCore q))
  | _ => Option.none

def Target.core : Target → Option Nat
  | .counter core _ _ | .wait core _ _ => some core
  | .ring q _ | .notify q _ => some (queueCore q)
  | _ => Option.none

/-- FN bits 3:0 of an atomic (R110). -/
def amoFn : AmoOp → BitVec 11
  | .add => 0 | .and => 1 | .or => 2 | .xor => 3 | .swap => 4 | .cas => 5 | .min => 6 | .max => 7 | .minu => 8 | .maxu => 9

/-- The request or operation is for another device. -/
def State.abroad (s : State) (r : Req) : Bool := !s.isOwn (r.addr / 2 ^ 48 % 64)
def State.abroadSync (s : State) (m : SyncMsg) : Bool := !s.isOwn (m.object / 2 ^ 13)

/-- SRC_CORE: the initiator's core id; all ones for the host and the floor dies (R478, R484). -/
def Source.linkCore (src : Source) : Nat := src.core.getD 0x3FFF
def Target.linkCore (t : Target) : Nat := t.core.getD 0x3FFF

/-- The lowest number from `t` on that is not in use. -/
def lowestFree (used : List Nat) : Nat → Nat → Nat
  | 0, t => t
  | n + 1, t => if used.contains t then lowestFree used n (t + 1) else t

/-- A TAG that none of the initiator's requests to other devices holds (R484). -/
def State.freeTag (s : State) (core id : Nat) : Nat :=
  let used := (s.reqs.filter fun r => s.abroad r && r.src.linkCore == core && r.id != id).map (·.tag) ++
    (s.syncMsgs.filter fun m => s.abroadSync m && m.target.linkCore == core && m.id != id).map (·.tag)
  lowestFree used used.length 0 % 4096

/-- SRC_CORE and TAG as one number, by which an answer finds its request. -/
def linkTag (core tag : Nat) : Nat := core * 4096 + tag

/-- What a request to another device says on the links; the ports make it a packet (assumption 36). -/
def Req.message (r : Req) : Output :=
  let dev := r.addr / 2 ^ 48 % 64
  let a := r.addr % 2 ^ 48
  let tag := linkTag r.src.linkCore r.tag
  match r.kind with
  | .read n => .groupMessage dev 19 [tag, a, n]
  | .write bytes => .groupMessage dev 1 [a, bytesToNat bytes, bytes.length, tag]
  | .atomic op x y => .groupMessage dev 20 [tag, a, (amoFn op).toNat, x.toNat, y.toNat]
  | .push q bytes => .groupMessage dev 21 [tag, q, bytesToNat bytes]

def SyncOp.code : SyncOp → Nat
  | .add => 0
  | .wait => 1
  | .read => 2
  | .arm => 3

def SyncMsg.message (m : SyncMsg) : Output :=
  .groupMessage (m.object / 2 ^ 13) 22 [linkTag m.target.linkCore m.tag, m.object % 2 ^ 13, m.op.code, m.value.toNat]

end Sys2Proof.Machine
end

