-- ==== Sys2Proof/Machine/Packets.lean ====
section
/-! DEFINITION. The mesh's packets: nodes and routes (R362, R365, R366, R370, R371), the routers' buffers, the shafts' FIFOs and the
floor dies' switches (R67, R70, R363), and the banks of a core store (R237 to R239). -/
namespace Sys2Proof.Machine

/-! ### Nodes and routes -/

/-- The floor die of a tower as a node; routers are tower × 128 + cluster. -/
def floorNode (t : Nat) : Nat := 1024 + t

/-- Router of the sync engine that holds an object (R387). -/
def objectCluster (o : Nat) : Nat := o / 1024 * 128 + 5 * (o % 1024 / 64) + 2

/-- Router in which a lease lives (R382). -/
def leaseCluster (l : Nat) : Nat := l / 256 * 128 + 5 * (l % 256 / 16) + 2

def nodeX (n : Nat) : Nat := n % 128 % 10
def nodeY (n : Nat) : Nat := n % 128 / 10

/-- The column of the shaft that serves a column (R366). -/
def shaftX (x : Nat) : Nat := if x ≤ 4 then 2 else 7

/-- The output of a router toward a place of its mesh, along x and then along y (R365): 0 X_LOW, 1 X_HIGH, 2 Y_LOW, 3 Y_HIGH, 4 LOCAL. -/
def outToward (r x y : Nat) : Nat :=
  if x < nodeX r then 0 else if nodeX r < x then 1 else if y < nodeY r then 2 else if nodeY r < y then 3 else 4

/-- The output of a router for a node: within its tower by R365; for another tower and for a floor die by the shaft of its own row,
port 5 (R366). -/
def hopOut (r d : Nat) : Nat :=
  if d < 1024 && d / 128 == r / 128 then outToward r (nodeX d) (nodeY d)
  else if nodeX r = shaftX (nodeX r) then 5
  else outToward r (shaftX (nodeX r)) (nodeY r)

/-- The router at a mesh output, and the input at which it receives. -/
def meshNext (r out : Nat) : Nat := if out = 0 then r - 1 else if out = 1 then r + 1 else if out = 2 then r - 10 else r + 10
def farInput (out : Nat) : Nat := if out = 0 then 1 else if out = 1 then 0 else if out = 2 then 3 else 2

/-- The shaft by which a flit goes up to a router: in the destination's row, or, for a multicast, in the source's (R366, R371). -/
def MeshFlit.shaftFor (f : MeshFlit) (d : Nat) : Nat :=
  let p := if f.tree then f.src else d
  d / 128 * 128 + nodeY p * 10 + shaftX (nodeX p)

/-! ### Packets under way -/

/-- A packet put on its way, in the order of sending; a node needs none to itself. -/
def State.post (s : State) (p : Packet) : State :=
  let far := p.dsts.filter (· != p.src)
  if far.isEmpty then s else { s with packets := s.packets ++ [{ p with dsts := far, seq := s.fresh }] }

/-- KIND of the answer to a request (R485). -/
def ReqKind.answerKind : ReqKind → Nat
  | .read _ => 2
  | .atomic _ _ _ => 6
  | _ => 4

/-- The answer to another member's request leaves over the links (R485). -/
def State.answerDevice (s : State) (r : Req) : State :=
  match r.src with
  | .device dev tag =>
    { s with reqs := s.reqs.filter (·.id != r.id) }.send
      (.groupMessage dev 15 [tag, r.status.toNat, if r.status = 0 then bytesToNat r.data else 0, r.kind.answerKind])
  | _ => s

/-- A packet has not yet reached a node. -/
def State.inTransit (s : State) (id channel node : Nat) : Bool :=
  s.packets.any fun p => p.id == id && p.channel == channel && p.dsts.contains node

/-- What is left of a packet once its last flit has come to nodes. -/
def Packet.reached (p : Packet) (f : MeshFlit) (at_ : List Nat) : Option Packet :=
  if p.id == f.id && p.channel == f.channel && p.src == f.src then
    let left := p.dsts.filter fun d => !at_.contains d
    if left.isEmpty then none else some { p with dsts := left }
  else some p

/-- What the arrival of a packet sets off: a sync operation takes its place at its engine (R387); at the floor die of a port a request or
operation for another device leaves over the links, and so does the answer to another member's request (R366, R477). -/
def State.packetCame (s : State) (f : MeshFlit) (at_ : List Nat) : State :=
  if at_.any (1024 ≤ ·) && f.channel ≠ 1 then
    match s.reqs.find? fun r => r.id == f.id && s.abroad r, s.syncMsgs.find? fun m => m.id == f.id && s.abroadSync m with
    | some r, _ => s.send r.message
    | none, some m => s.send m.message
    | none, none => s
  else if f.channel = 2 then
    let put (m : SyncMsg) : SyncMsg :=
      if m.id == f.id && m.came.isNone && at_.contains (objectCluster (m.object % 2 ^ 13)) then { m with came := some s.fresh } else m
    { s with fresh := s.fresh + 1, syncMsgs := s.syncMsgs.map put }
  else if f.channel = 1 then
    match s.reqs.find? fun r => r.id == f.id && r.stage == .done && r.entry.any at_.contains with
    | some r => s.answerDevice r
    | none => s
  else s

/-- The last flit of a packet has come to nodes. -/
def State.landed (s : State) (f : MeshFlit) (at_ : List Nat) : State :=
  let t : State := { s with packets := s.packets.filterMap fun p => p.reached f at_ }
  if f.last then t.packetCame f at_ else s

def State.router (s : State) (r : Nat) : Router := Map.get {} s.routers r
def State.setRouter (s : State) (r : Nat) (v : Router) : State := { s with routers := Map.set {} s.routers r v }
def State.shaft (s : State) (r : Nat) : Shaft := Map.get {} s.shafts r
def State.setShaft (s : State) (r : Nat) (v : Shaft) : State := { s with shafts := Map.set {} s.shafts r v }

/-- The flits at an input of a router on one channel. -/
def Router.buffer (r : Router) (channel input : Nat) : List MeshFlit := Map.get [] r.inputs (channel * 16 + input)
def Router.setBuffer (r : Router) (channel input : Nat) (fs : List MeshFlit) : Router :=
  { r with inputs := Map.set [] r.inputs (channel * 16 + input) fs }

/-- An input buffer holds 8 flits of each channel (R363). -/
def Router.room (r : Router) (channel input : Nat) : Bool := (r.buffer channel input).length < 8

/-- The next flit of a packet at its source. -/
def Packet.flit (p : Packet) : MeshFlit :=
  { id := p.id, channel := p.channel, src := p.src, dsts := p.dsts, tree := p.tree, last := p.sent + 1 == p.flits, lane := p.lane }

/-- One flit has left the source. -/
def State.sentFlit (s : State) (p : Packet) : State :=
  { s with packets := s.packets.map fun q => if q = p then { q with sent := q.sent + 1 } else q }

/-- A packet can send its next flit into its router: there is room, its initiator has sent its earlier packets of the channel, and no other
packet is part of the way into that buffer (R364, R393). -/
def State.injectable (s : State) (r : Nat) (p : Packet) : Bool :=
  let waits (q : Packet) : Bool := q.src == r && q.channel == p.channel && q.lane == p.lane && decide (q.sent < q.flits)
  p.src == r && decide (p.sent < p.flits) && (s.router r).room p.channel p.lane &&
    ((s.packets.takeWhile (· != p)).all fun q => !(waits q && q.core == p.core)) &&
    s.packets.all fun q => q == p || !(waits q && decide (0 < q.sent))

def State.injectFlit (s : State) (r : Nat) (p : Packet) : State :=
  let k := s.router r
  (s.setRouter r (k.setBuffer p.channel p.lane (k.buffer p.channel p.lane ++ [p.flit]))).sentFlit p

/-- The crossbar's port to the router grants one of the cluster's cores on a beat, in round robin (R242, R243). -/
def State.grantRouter (s : State) (r : Nat) : State :=
  let port := Map.get {} s.ports (65536 + r)
  if port.grantedAt = s.now + 1 then s
  else
    match (List.range 17).findSome? fun i =>
        let k := (port.last + 1 + i) % 17
        (s.packets.find? fun p => p.core == some (r * 16 + k) && k < 16 && s.injectable r p).map fun p => (k, p) with
    | some (k, p) => { s with ports := Map.set {} s.ports (65536 + r) ⟨k, s.now + 1⟩ }.injectFlit r p
    | none => s

/-- Flits of the router's own packets, of answers and of partials enter while there is room. -/
def State.injectOwn (s : State) (r : Nat) : State :=
  match s.packets.find? fun p => p.core.isNone && s.injectable r p with
  | some p => s.injectFlit r p
  | none => s

/-- The flits of a cluster's packets enter its router. -/
def State.inject (s : State) (r : Nat) : State :=
  (List.range 56).foldl (fun (s : State) _ => s.injectOwn r) (s.grantRouter r)

/-! ### Shafts and floor dies -/

/-- The floor die's lane of a flit: of a partial that of the slot in the sending shaft router, of others that of the channel (R380). -/
def MeshFlit.floorLane (f : MeshFlit) : Nat := if 6 ≤ f.lane then f.lane else f.channel

def Shaft.lane (k : Shaft) (l : Nat) : List MeshFlit := Map.get [] k.lanes l

/-- The copy that leads a lane has been taken for some of its nodes; the flit stays for the others. -/
def Shaft.leave (k : Shaft) (l : Nat) (f : MeshFlit) (left : List Nat) : Shaft :=
  { k with lanes := Map.set [] k.lanes l (if left.isEmpty then (k.lane l).drop 1 else { f with dsts := left } :: (k.lane l).drop 1) }

/-- The floor die takes the head of a shaft's lower FIFO into its lane; what is bound for the floor die itself leaves there. -/
def State.leaveShaft (s : State) (r : Nat) : State :=
  let k := s.shaft r
  match k.down with
  | f :: fs =>
    let here := f.dsts.filter (1024 ≤ ·)
    let left := f.dsts.filter (· < 1024)
    let l := f.floorLane
    let k := { k with
      down := fs
      lanes := if left.isEmpty then k.lanes else Map.set [] k.lanes l (k.lane l ++ [{ f with dsts := left }]) }
    if here.isEmpty then s.setShaft r k else (s.setShaft r k).landed f here
  | [] => s

/-- A packet as the shafts tell it from others. -/
def MeshFlit.packetKey (f : MeshFlit) : Nat := f.id * 2048 + f.src + 1

/-- The flit goes up this shaft next: no other packet of its channel is going up (R364), and its router will have room for it, so that no
channel waits for another at the FIFO's head (R363, R381). -/
def State.shaftTakes (s : State) (r : Nat) (f : MeshFlit) : Bool :=
  let k := s.shaft r
  (f.dsts.any fun d => d < 1024 && f.shaftFor d == r) &&
    (Map.get 0 k.lock f.channel == 0 || Map.get 0 k.lock f.channel == f.packetKey) &&
    (k.up.filter fun g => g.channel == f.channel).length + ((s.router r).buffer f.channel 5).length < 8

def Shaft.rise (k : Shaft) (r : Nat) (f : MeshFlit) : Shaft :=
  { k with
    up := k.up ++ [{ f with dsts := f.dsts.filter fun d => d < 1024 && f.shaftFor d == r }]
    lock := Map.set 0 k.lock f.channel (if f.last then 0 else f.packetKey) }

/-- The floor dies and bridges carry one flit into a shaft's upper FIFO, which holds 32: from the head of a lane of a floor die, of which each
copy of a multicast is taken, or from the floor die's own functions (R366, R371, R380). -/
def State.fillShaft (s : State) (r : Nat) : State :=
  let k := s.shaft r
  if 32 ≤ k.up.length then s
  else
    match s.shafts.findSome? fun e => e.2.lanes.findSome? fun l => l.2.head?.bind fun f =>
        if s.shaftTakes r f then some (e.1, l.1, f) else none with
    | some (d, l, f) =>
      let s := s.setShaft r (k.rise r f)
      s.setShaft d ((s.shaft d).leave l f (f.dsts.filter fun x => !(x < 1024 && f.shaftFor x == r)))
    | none =>
      match s.packets.find? fun p => 1024 ≤ p.src && p.sent < p.flits && s.shaftTakes r p.flit with
      | some p => (s.setShaft r (k.rise r p.flit)).sentFlit p
      | none => s

/-- A flit of the upper FIFO enters the router's SHAFT input, in order. -/
def State.enterRouter (s : State) (r : Nat) : State :=
  let k := s.shaft r
  match k.up with
  | f :: fs =>
    let t := s.router r
    if t.room f.channel 5 then (s.setShaft r { k with up := fs }).setRouter r (t.setBuffer f.channel 5 (t.buffer f.channel 5 ++ [f])) else s
  | [] => s

/-- The shafts that flits leave or are bound for. -/
def State.shaftsUsed (s : State) : List Nat :=
  let goals (f : MeshFlit) : List Nat := (f.dsts.filter (· < 1024)).map f.shaftFor
  (s.shafts.flatMap fun e => e.1 :: e.2.lanes.flatMap fun l => l.2.head?.elim [] goals) ++
    (s.packets.flatMap fun p => if 1024 ≤ p.src then goals p.flit else [])

/-- The shafts and floor dies move their flits, at most so many times; it happens with the forwarding of flits (assumption 85). -/
def State.carry : Nat → State → State
  | 0, s => s
  | n + 1, s =>
    let t := s.shaftsUsed.foldl (fun (s : State) r => ((s.leaveShaft r).fillShaft r).enterRouter r) s
    if t.shafts = s.shafts && t.packets = s.packets then s else t.carry n

/-! ### The banks of a core store (R237 to R239) -/

/-- Bank of a local address. -/
def storeBank (off : Nat) : Nat := bitsOf off 9 6

def State.bank (s : State) (core b : Nat) : StoreBank := Map.get {} (s.core core).banks b
def State.setBank (s : State) (core b : Nat) (v : StoreBank) : State :=
  s.setCore core { s.core core with banks := Map.set {} (s.core core).banks b v }

/-- Requesters that still ask: they lost in this beat or the one before. -/
def StoreBank.asking (k : StoreBank) (now : Nat) : List BankWaiter := k.waiters.filter fun w => decide (now ≤ w.at_ + 1)

/-- Beats that a requester has lost in a row. -/
def StoreBank.lost (k : StoreBank) (order now : Nat) : Nat :=
  ((k.asking now).find? fun w => w.order == order).elim 0 (·.lost)

/-- A requester wins the bank (R238, R239): nobody has had it on this beat, and of the others that ask, those that have lost 16 beats go
first, and the order of R238 decides. A reference cycle stands for a beat; a core's beats can be shorter, so that the scalar issue, which
names its beats itself, may have a bank again in the same cycle (assumption 84). -/
def StoreBank.wins (k : StoreBank) (order now : Nat) : Bool :=
  (k.servedAt != now + 1 || (k.served == 0 && order == 0)) &&
  (k.asking now).all fun w =>
    w.order == order ||
    (if 16 ≤ w.lost then decide (16 ≤ k.lost order now) && decide (order < w.order)
     else decide (16 ≤ k.lost order now) || decide (order < w.order))

/-- The bank serves a requester; the others that ask lose the beat. -/
def StoreBank.serve (k : StoreBank) (order now : Nat) : StoreBank :=
  { servedAt := now + 1, served := order,
    waiters := ((k.asking now).filter fun w => w.order != order).map fun w =>
      if w.at_ = now then w else { w with lost := w.lost + 1, at_ := now } }

/-- A requester loses a beat. -/
def StoreBank.lose (k : StoreBank) (order now : Nat) : StoreBank :=
  let old := (k.asking now).find? fun w => w.order == order
  let n := match old with
    | some w => if w.at_ = now then w.lost else w.lost + 1
    | none => 1
  { k with waiters := ((k.asking now).filter fun w => w.order != order) ++ [⟨order, n, now⟩] }

/-- The place in R238: 0 the scalar issue, 1 to 4 the array drains, 5 to 8 the held and 9 to 12 the streamed feeders, 13 the vector unit
and the goose, 14 the DMA engine, 15 the crossbar, and the core's dispatcher and hens, for which R238 has no row (assumption 84). -/
def Agent.bankOrder (who : Agent) (core : Nat) (write : Bool) : Option Nat :=
  match who with
  | .array c a => if c = core then some (if write then 1 + a % 4 else 9 + a % 4) else none
  | .held c a => if c = core then some (5 + a % 4) else none
  | .vector c | .goose c _ => if c = core then some 13 else none
  | .dma c _ => if c = core then some 14 else none
  | .dispatcher c | .hen c => if c = core then some 15 else none
  | _ => none

/-- A requester's access to a bank: served, or lost with the body not reached. -/
def State.onBank (s : State) (core off order : Nat) (body : State → State) : State :=
  let k := s.bank core (storeBank off)
  if k.wins order s.now then body (s.setBank core (storeBank off) (k.serve order s.now))
  else s.setBank core (storeBank off) (k.lose order s.now)

/-- Several banks taken for one access, or none where one of them is lost (R238). -/
def State.takeBanks (s : State) (core order : Nat) (offs : List Nat) : Bool × State :=
  let bs := (offs.map storeBank).eraseDups
  let wins (b : Nat) : Bool := (s.bank core b).wins order s.now
  let all := bs.all wins
  (all, bs.foldl (fun (t : State) b =>
    if all then t.setBank core b ((s.bank core b).serve order s.now)
    else if wins b then t else t.setBank core b ((s.bank core b).lose order s.now)) s)

end Sys2Proof.Machine
end

