-- ==== Sys2Proof/Machine/Mem.lean ====
section
/-! DEFINITION. The device address map, DRAM and SRAM lines with their check codes, and the accesses that every unit
makes to them (spec files 06_store_slices_and_vertical_channels.md and 11_data_integrity.md). -/
namespace Sys2Proof.Machine

/-- Where a physical address lies (R258): a channel and offset, a slice position and offset, a core and local address,
or the register range. -/
inductive Place where
  | dram (channel off : Nat)
  | slice (position off : Nat)
  | store (core off : Nat)
  | registers (off : Nat)
  | unassigned
  deriving DecidableEq, Repr

def dramTower : Nat := 0x1400000000
def channelBytes : Nat := 0x4000000

/-- The channel (as a core id) and offset of a local-mapping address (R259). -/
def localPlace (a : Nat) : Place :=
  .dram (a / dramTower * 2048 + a % dramTower / channelBytes) (a % channelBytes)

/-- The local-mapping address of a channel offset (R259). -/
def dramAddr (channel off : Nat) : Nat :=
  coreTower channel * dramTower + channelIndex channel * channelBytes + off

/-- mix of R263. -/
def hashMix (q : Nat) (key : BitVec 64) : Word32 :=
  let x : Word32 := BitVec.ofNat 32 q ^^^ key.truncate 32
  let x := x ^^^ (x <<< 11)
  let x := x ^^^ (x >>> 7)
  let x := x + (key >>> 32).truncate 32
  let x := x ^^^ (x <<< 5)
  x ^^^ (x >>> 13)

/-- deal of R263. -/
def hashDeal (rr : Nat) (h : Word32) : Nat :=
  (rr / 256 + h.toNat % 5) % 5 * 256 + ((rr % 256) ^^^ (h.toNat / 256 % 256))

def State.hashKey (s : State) (sub : Nat) : BitVec 64 := BitVec.ofNat 64 (s.reg 0x4100 sub)

/-- Translation of a tower spread alias offset in tower `t` (R263). -/
def State.towerSpread (s : State) (t off : Nat) : Nat :=
  let g := off / 4096
  let h := hashMix (g / 1280) (s.hashKey (t + 1))
  t * dramTower + hashDeal (g % 1280) h * channelBytes + g / 1280 * 4096 + off % 4096

/-- Translation of a module spread alias offset (R263). -/
def State.moduleSpread (s : State) (off : Nat) : Nat :=
  let g := off / 4096
  let h := hashMix (g / 10240) (s.hashKey 9)
  let t := (g % 10240 / 1280) ^^^ (h.toNat / 2 ^ 24 % 8)
  t * dramTower + hashDeal (g % 10240 % 1280) h * channelBytes + g / 10240 * 4096 + off % 4096

def sliceBase : Nat := 0x0C0000000000
def interleavedBase : Nat := 0x0C8000000000
def storeBase : Nat := 0x0D0000000000
def registerBase : Nat := 0x0F0000000000
def towerAliasBase : Nat := 0x010000000000
def moduleAliasBase : Nat := 0x020000000000

/-- An interleaved slice address in its direct form (R261); any other address unchanged. -/
def directSlice (a : Nat) : Nat :=
  if interleavedBase ≤ a && a < interleavedBase + 2 ^ 32 then
    let n := (a - interleavedBase) / 0x400000
    let o := a % 0x400000
    sliceBase + (n * 16 + bitsOf o 9 6) * 0x40000 + bitsOf o 21 10 * 64 + o % 64
  else a

/-- The address after translation (R264): spread aliases to the local mapping, interleaved slices to the direct form. -/
def State.translate (s : State) (a : Nat) : Nat :=
  if towerAliasBase ≤ a && a < towerAliasBase + 8 * dramTower then
    s.towerSpread ((a - towerAliasBase) / dramTower) ((a - towerAliasBase) % dramTower)
  else if moduleAliasBase ≤ a && a < moduleAliasBase + 8 * dramTower then s.moduleSpread (a - moduleAliasBase)
  else directSlice a

/-- The address is in a spread alias. -/
def isSpread (a : Nat) : Bool :=
  (towerAliasBase ≤ a && a < towerAliasBase + 8 * dramTower) ||
  (moduleAliasBase ≤ a && a < moduleAliasBase + 8 * dramTower)

/-- The place of a translated address (R258, R259, R261, R262). -/
def placeOf (a : Nat) : Place :=
  if a < 8 * dramTower then localPlace a
  else if sliceBase ≤ a && a < sliceBase + 2 ^ 32 then .slice ((a - sliceBase) / 0x40000) (a % 0x40000)
  else if storeBase ≤ a && a < storeBase + 2 ^ 32 then .store ((a - storeBase) / 0x40000) (a % 0x40000)
  else if registerBase ≤ a && a < registerBase + 2 ^ 32 then .registers (a - registerBase)
  else .unassigned

/-- The place an address names before translation, as its first address and its length (R284); none where unassigned. -/
def placeSpan (a : Nat) : Option (Nat × Nat) :=
  if a < 8 * dramTower then some (a / channelBytes * channelBytes, channelBytes)
  else if towerAliasBase ≤ a && a < towerAliasBase + 8 * dramTower then
    some (towerAliasBase + (a - towerAliasBase) / dramTower * dramTower, dramTower)
  else if moduleAliasBase ≤ a && a < moduleAliasBase + 8 * dramTower then some (moduleAliasBase, 8 * dramTower)
  else if sliceBase ≤ a && a < sliceBase + 2 ^ 32 then some (a / 0x40000 * 0x40000, 0x40000)
  else if interleavedBase ≤ a && a < interleavedBase + 2 ^ 32 then some (a / 0x400000 * 0x400000, 0x400000)
  else if storeBase ≤ a && a < storeBase + 2 ^ 32 then some (a / 0x40000 * 0x40000, 0x40000)
  else none

/-- The whole range lies in one place (R284). -/
def rangeInPlace (a n : Nat) : Bool :=
  match placeSpan a with
  | some (lo, len) => a + n ≤ lo + len
  | none => false

/-- Channel offsets of the steward region, in channel 1,279 of T0 and T1 (R442). -/
def stewardRegion (channel off : Nat) : Bool :=
  (channel == 1279 || channel == 2048 + 1279) && 0x3800000 ≤ off

/-- What an access to a place meets before it reaches memory: BOUNDS (R45, R258, R442), NOT_PRESENT (R46, R241, R611) or
TARGET_IN_RESET (R43). -/
def State.placeStatus (s : State) : Place → Status
  | .dram ch off =>
    if stewardRegion ch off then 0x02
    else if s.dm.channels.contains ch then 0x07
    else if !s.fieldUp (coreField ch) then 0x03 else 0x00
  | .slice p _ =>
    if !coreExists p then 0x02
    else if !s.sliceInService p then 0x07
    else if !s.fieldUp (coreField p) then 0x03 else 0x00
  | .store c _ => if !coreExists c then 0x02 else s.coreStatus c
  | .registers _ => 0x02
  | .unassigned => 0x02

/-- The tower of a place. -/
def Place.tower : Place → Nat
  | .dram ch _ => coreTower ch
  | .slice p _ => coreTower p
  | .store c _ => coreTower c
  | _ => 0

/-- The bridges that a packet between two towers crosses (R23, R366): along X in the source's row, then along Y. -/
def bridgeRoute (src dst : Nat) : List Nat :=
  let rows := (List.range 3).filter fun r => min (src / 2) (dst / 2) ≤ r && r < max (src / 2) (dst / 2)
  (if src % 2 = dst % 2 then [] else [src / 2]) ++ rows.map fun r => 4 + 2 * r + dst % 2

/-- What a request from a tower to a place meets: a failed bridge port on its way (R611), or the place itself. -/
def State.reachStatus (s : State) (src : Nat) (p : Place) : Status :=
  if (bridgeRoute src p.tower).any fun b => s.dm.bridges.contains b then 0x07 else s.placeStatus p

/-! ### The line code of DRAM (R435 to R437) -/

/-- Multiplication by x in GF(2^8) with x^8 + x^4 + x^3 + x^2 + 1. -/
def gfTimesX (a : Byte) : Byte := if a.getLsbD 7 then (a <<< 1) ^^^ 0x1D else a <<< 1

def gfMulFrom : Nat → Byte → Byte → Byte
  | 0, _, _ => 0
  | n + 1, a, b => (if b.getLsbD 0 then a else 0) ^^^ gfMulFrom n (gfTimesX a) (b >>> 1)

def gfMul (a b : Byte) : Byte := gfMulFrom 8 a b

/-- α^n. -/
def gfPow : Nat → Byte
  | 0 => 1
  | n + 1 => gfTimesX (gfPow n)

/-- Coefficients x^7 down to x^0 of the generator less its leading term, from the product over α^0 to α^7. -/
def generator : List Byte :=
  ((List.range 8).foldl (fun (p : List Byte) i =>
    List.zipWith (· ^^^ ·) (p ++ [0]) (0 :: p.map (gfMul (gfPow i)))) [1]).drop 1

/-- v × x^n modulo the generator, coefficients x^7 down to x^0. -/
def gfRemainder (v : Byte) : Nat → List Byte
  | 0 => [0, 0, 0, 0, 0, 0, 0, v]
  | n + 1 =>
    let r := gfRemainder v n
    let lead := r.headD 0
    List.zipWith (fun a g => a ^^^ gfMul lead g) (r.drop 1 ++ [0]) generator

/-- The syndromes S_0 to S_7 of a stored line, from the difference of its check bytes. -/
def syndromes (diff : BitVec 64) : List Byte :=
  let bytes := (List.range 8).map fun j => (diff >>> (8 * j)).truncate 8
  (List.range 8).map fun i => bytes.foldl (fun acc b => gfMul acc (gfPow i) ^^^ b) 0

/-- The outcome of a line read (R437). -/
inductive LineClass where
  | clean
  | corrected (symbol : Nat) (value : Byte)
  | poisoned
  | uncorrectable
  deriving DecidableEq, Repr

/-- The difference of the check bytes that is the poison signature: 0xFF in each of symbols 64 to 71. -/
def poisonDiff : BitVec 64 := 0xFFFFFFFFFFFFFFFF

/-- An error of value `v` in the symbol that is the coefficient of x^k explains every syndrome. -/
def explains (ss : List Byte) (v : Byte) (k : Nat) : Bool :=
  (List.range 8).all fun i => ss.getD i 0 == gfMul v (gfPow (k * i))

/-- Classification of a stored line (R437). -/
def classify (diff : BitVec 64) : LineClass :=
  if diff = 0 then .clean
  else if diff = poisonDiff then .poisoned
  else
    let ss := syndromes diff
    let v := ss.headD 0
    if v = 0 then .uncorrectable
    else
      match (List.range 72).find? (explains ss v) with
      | some k => .corrected (71 - k) v
      | none => .uncorrectable

/-! ### Bytes -/

/-- The byte stored at a physical address; an address nothing has written holds 0 (assumption 5). -/
def State.byte (s : State) (a : Nat) : Byte := Map.get 0 s.mem.cells a

/-- `n` stored bytes from an address. -/
def State.bytes (s : State) (a : Nat) : Nat → List Byte
  | 0 => []
  | n + 1 => s.byte a :: s.bytes (a + 1) n

/-- The canonical form of memory: bytes, check state of lines and CRC state, each with addresses strictly rising and no entry equal to
what an unlisted address or line reads as. -/
def Memory.wf (m : Memory) : Bool := Map.wf 0 m.cells && Map.wf poisonDiff m.check && Map.wf 0 m.crc

/-- Bytes put into a table of cells. -/
def storeBytes (m : List Host.Cell) (a : Nat) : List Byte → List Host.Cell
  | [] => m
  | b :: bs => storeBytes (Map.set 0 m a b) (a + 1) bs

/-- Memory with bytes stored, check state untouched. -/
def State.poke (s : State) (a : Nat) (bs : List Byte) : State :=
  { s with mem := { s.mem with cells := storeBytes s.mem.cells a bs } }

/-- A range cut at 64-byte lines: first address and length of each piece. -/
def linePieces : Nat → Nat → Nat → List (Nat × Nat)
  | 0, _, _ => []
  | fuel + 1, a, n =>
    if n = 0 then []
    else
      let k := min n (64 - a % 64)
      (a, k) :: linePieces fuel (a + k) (n - k)

/-- The pieces of a range of `n` bytes. -/
def pieces (a n : Nat) : List (Nat × Nat) := linePieces (n / 64 + 2) a n

/-! ### Hen ranges (R320, R321) -/

/-- Hen that serves a channel offset, and the hen offset of that byte (R249, R291). -/
def henOf (off : Nat) : Nat := bitsOf off 15 11
def henOffset (off : Nat) : Nat := off / 65536 * 2048 + off % 2048

/-- A registered range covers the line at a channel offset. -/
def HenRange.covers (r : HenRange) (off : Nat) : Bool :=
  match r.hen with
  | some h => henOf off == h && r.lo / 64 ≤ henOffset off / 64 && henOffset off / 64 ≤ r.hi / 64
  | none => r.lo / 64 ≤ off / 64 && off / 64 ≤ r.hi / 64

def State.inReadRange (s : State) (ch off : Nat) : Bool := (s.channel ch).ranges.any fun r => !r.write && r.covers off
def State.inWriteRange (s : State) (ch off : Nat) : Bool := (s.channel ch).ranges.any fun r => r.write && r.covers off

/-! ### The write-back log (R444 to R446) -/

/-- The channel records instead of writing back (R442). -/
def State.records (s : State) (ch off : Nat) : Bool :=
  Map.get false s.mem.wbSuppress ch || stewardRegion ch off || !s.running

/-- A line of a tower's channels as one number. -/
def towerLine (ch off : Nat) : Nat := channelIndex ch * 2 ^ 20 + off / 64

/-- The entry of a tower's log that a detection of a line takes or updates: the line's own, with one that WB_LOG_CLEAR has emptied in this
reference cycle (R446), or the lowest empty one (R445). -/
def State.wbSlot (s : State) (ch off : Nat) : Option (Nat × Bool) :=
  let t := coreTower ch
  let entry (i : Nat) : WbEntry := Map.get {} s.mem.wbLog (t * 64 + i)
  let same (i : Nat) : Bool :=
    (entry i).kind != 0 && (entry i).channel == BitVec.ofNat 11 (channelIndex ch) && (entry i).offset == BitVec.ofNat 26 (off / 64 * 64)
  let back (i : Nat) : Bool :=
    (entry i).kind == 0 && s.mem.wbClearedAt == s.now + 1 && Map.get 0 s.mem.wbCleared (t * 64 + i) == towerLine ch off + 1
  match (List.range 64).find? same with
  | some i => some (i, true)
  | none => (((List.range 64).find? back).or ((List.range 64).find? fun i => (entry i).kind == 0)).map fun i => (i, false)

/-- A detection entered in the tower's log (R445). -/
def State.wbLog (s : State) (ch off : Nat) (kind : BitVec 2) (symbol : Nat) : State :=
  let t := coreTower ch
  let entry (i : Nat) : WbEntry := Map.get {} s.mem.wbLog (t * 64 + i)
  let put (i : Nat) (e : WbEntry) : State := { s with mem := { s.mem with wbLog := Map.set {} s.mem.wbLog (t * 64 + i) e } }
  match s.wbSlot ch off with
  | some (i, true) =>
    let e := entry i
    put i { e with
      refTime := s.refTime t
      count := if e.count = 0xFFFF then e.count else e.count + 1
      symbol := BitVec.ofNat 7 symbol
      kind := if e.kind = 2 then 2 else kind
      last := kind }
  | some (i, false) =>
    put i { refTime := s.refTime t, count := 1, kind := kind, rewritten := false, steward := stewardRegion ch off,
            symbol := BitVec.ofNat 7 symbol, channel := BitVec.ofNat 11 (channelIndex ch),
            offset := BitVec.ofNat 26 (off / 64 * 64), last := kind }
  | none =>
    let s := s.towerSat 0xB805 t 1
    if Map.get 0 s.mem.wbFull t = 1 then s
    else { s with mem := { s.mem with wbFull := Map.set 0 s.mem.wbFull t 1 } }.raise 0x0C t 0

/-- A full-line write marks the line's log entry REWRITTEN (R445). -/
def State.wbRewritten (s : State) (ch off : Nat) : State :=
  let mark (e : WbEntry) : WbEntry :=
    if e.kind != 0 && e.channel == BitVec.ofNat 11 (channelIndex ch) && e.offset == BitVec.ofNat 26 (off / 64 * 64) then
      { e with rewritten := true } else e
  { s with mem := { s.mem with
      wbLog := s.mem.wbLog.map fun (k, e) => if k / 64 = coreTower ch then (k, mark e) else (k, e) } }

/-! ### Lines of DRAM -/

def State.checkOf (s : State) (line : Nat) : BitVec 64 := Map.get poisonDiff s.mem.check line
def State.setCheck (s : State) (line : Nat) (d : BitVec 64) : State :=
  { s with mem := { s.mem with check := Map.set poisonDiff s.mem.check line d } }

/-- Symbols of a stored line disturbed: data bytes and the difference of the check bytes both move (R435). -/
def State.disturb (s : State) (ch off : Nat) (flips : List (Nat × Byte)) : State :=
  flips.foldl (fun s (sym, v) =>
    let a := dramAddr ch (off / 64 * 64)
    let d := s.checkOf (a / 64)
    if sym < 64 then
      let r := bytesToNat (gfRemainder v (71 - sym))
      (s.poke (a + sym) [s.byte (a + sym) ^^^ v]).setCheck (a / 64) (d ^^^ BitVec.ofNat 64 r)
    else if sym < 72 then s.setCheck (a / 64) (d ^^^ BitVec.ofNat 64 (v.toNat * 2 ^ (8 * (sym - 64))))
    else s) s

def bankOf (off : Nat) : Nat := bitsOf off 15 10
def rowOf (off : Nat) : Nat := bitsOf off 25 16

/-- A line transfer counted in the channel (R288). -/
def State.countLine (s : State) (ch off : Nat) (write spread : Bool) : State :=
  let c := s.channel ch
  s.setChannel ch { c with
    linesRead := if write then c.linesRead else c.linesRead + 1
    linesWritten := if write then c.linesWritten + 1 else c.linesWritten
    spreadLines := if spread then c.spreadLines + 1 else c.spreadLines
    bankAccesses := Map.upd 0 c.bankAccesses (bankOf off) (· + 1) }

/-- How the read that finds a damaged line has it rewritten: as R439 to R441 say, or left to a hen's own write (R324). -/
inductive Rewrite where
  | queue            -- ordinary reads
  | henOwn           -- a hen's own read: the second case of R440 does not apply
  | inPlace          -- the hen rewrites the line itself
  deriving DecidableEq, Repr

/-- A corrected or poisoned line entered in the write-back queue, or dropped (R439 to R441). -/
def State.enqueueWriteBack (s : State) (ch off : Nat) (mode : Rewrite) (poison : Bool) (data : List Byte) : State :=
  let c := s.channel ch
  let line := off / 64
  if mode = .inPlace || (c.wbq.any fun w => w.line == line) then s
  else if (mode = .queue && (s.inReadRange ch off || s.inWriteRange ch off)) || 4 ≤ c.wbq.length then
    s.setChannel ch { c with wbSkipped := addSat c.wbSkipped 1 }
  else s.setChannel ch { c with wbq := c.wbq ++ [⟨line, poison, data, s.run⟩] }

/-- The 1 s window in which a channel counts corrections, begun anew where it has ended (R448). -/
def State.rollLanes (s : State) (ch : Nat) : State :=
  let c := s.channel ch
  if s.now < c.laneWindowAt + secCycles 1 then s
  else s.setChannel ch { c with symbolCounts := [], lanesRaised := [], laneWindowAt := s.now / secCycles 1 * secCycles 1 }

/-- A correction counted at its symbol position; one with which the position has reached LANE_SUSPECT_COUNT raises LANE_SUSPECT for the
lane, at most once in a window (R448). -/
def State.countSymbol (s : State) (ch sym : Nat) : State :=
  let s := s.rollLanes ch
  let c := s.channel ch
  let n := Map.get 0 c.symbolCounts sym + 1
  let s := s.setChannel ch { c with ce := addSat c.ce 1, symbolCounts := Map.set 0 c.symbolCounts sym n }
  if n < s.reg 0x4403 2 || c.lanesRaised.contains sym then s
  else
    let s := s.setChannel ch { s.channel ch with lanesRaised := c.lanesRaised ++ [sym] }
    let s := (s.towerSat 0xB806 (coreTower ch) 1).raise 0x0D (coreTower ch) (sym * 2 ^ 16 + channelIndex ch)
    if s.laneSuspected.contains ch then s else { s with laneSuspected := s.laneSuspected ++ [ch] }

/-- The 64 data bytes of a line read from the layers, classified, counted and repaired or recorded (R437 to R448, R460).
The status is OK or POISON; the data of a failing line is never returned. -/
def State.readDramLine (s : State) (ch off : Nat) (mode : Rewrite) : Status × List Byte × State :=
  let a := dramAddr ch (off / 64 * 64)
  let stored := s.bytes a 64
  let c := s.channel ch
  match classify (s.checkOf (a / 64)) with
  | .clean => (0, stored, s)
  | .poisoned => (1, [], s.setChannel ch { c with poisonReads := addSat c.poisonReads 1 })
  | .corrected sym v =>
    let data := if sym < 64 then stored.set sym (stored.getD sym 0 ^^^ v) else stored
    let s := s.countSymbol ch sym
    let s := if s.records ch off then s.wbLog ch off 1 sym else s.enqueueWriteBack ch off mode false data
    (0, data, s)
  | .uncorrectable =>
    let s := s.setChannel ch { c with ue := addSat c.ue 1 }
    let s := s.raise 0x0B (coreTower ch) (channelIndex ch * 2 ^ 20 + off / 64)
    let s := if s.records ch off then s.wbLog ch off 2 0x7F else s.enqueueWriteBack ch off mode true stored
    (1, [], s)

/-- Side effects of any newer write of a line: queued write-backs are superseded (R440), a prefetched copy leaves the
buffer (R273, R274). -/
def State.newerWrite (s : State) (ch off : Nat) : State :=
  let c := s.channel ch
  let line := off / 64
  let old := (c.wbq.filter fun w => w.line == line).length
  let buf := (c.buffer.filter fun b => b.line == line).length
  s.setChannel ch { c with
    wbq := c.wbq.filter fun w => w.line != line
    wbSuperseded := addSat c.wbSuperseded old
    buffer := c.buffer.filter fun b => b.line != line
    pfUnused := c.pfUnused + BitVec.ofNat 32 buf }

/-- A full-line write: it replaces the line and clears any poison (R254). -/
def State.putDramLine (s : State) (ch off : Nat) (data : List Byte) : State :=
  let a := dramAddr ch (off / 64 * 64)
  (((s.newerWrite ch off).poke a data).setCheck (a / 64) 0).wbRewritten ch off

/-- A full-line write over the channel's lanes, counted (R288). -/
def State.writeDramLine (s : State) (ch off : Nat) (data : List Byte) (spread : Bool) : State :=
  (s.putDramLine ch off data).countLine ch off true spread

/-- A write of bytes within one line: the whole line, or a read-modify-write (R254). Nothing is written where the read
finds the line uncorrectable. -/
def State.writeDram (s : State) (ch off : Nat) (data : List Byte) (spread : Bool) : Status × State :=
  if data.length = 64 && off % 64 = 0 then (0, s.writeDramLine ch off data spread)
  else
    match s.readDramLine ch off .queue with
    | (0, old, s) =>
      let i := off % 64
      let new := old.take i ++ data ++ old.drop (i + data.length)
      (0, (s.countLine ch off false spread).writeDramLine ch off new spread)
    | (st, _, s) => (st, s.countLine ch off false spread)

/-! ### Lines of SRAM and their recovery (R449 to R455) -/

/-- The CRC-16 stored with an SRAM line: that of its bytes, and the difference that `crc` holds (R449). -/
def State.storedCrc (s : State) (line : Nat) : BitVec 16 := crc16 (s.bytes (line * 64) 64) ^^^ Map.get 0 s.mem.crc line

/-- The CRC of an SRAM line holds: no difference from what is stored. -/
def State.crcOk (s : State) (line : Nat) : Bool := Map.get 0 s.mem.crc line == 0

def State.setCrc (s : State) (line : Nat) (d : BitVec 16) : State :=
  { s with mem := { s.mem with crc := Map.set 0 s.mem.crc line d } }

/-- Bits of a stored SRAM line upset, by byte of the line: its bytes change and its CRC stays, so that the difference takes the CRC of
the pattern (R449). -/
def State.upsetSram (s : State) (line : Nat) (flips : List (Nat × Byte)) : State :=
  let pattern := (List.range 64).map fun i => flips.foldl (fun (b : Byte) f => if f.1 = i then b ^^^ f.2 else b) 0
  (s.poke (line * 64) (List.zipWith (· ^^^ ·) (s.bytes (line * 64) 64) pattern)).setCrc line
    (Map.get 0 s.mem.crc line ^^^ crc16From 0 pattern)

def sramIsStore (line : Nat) : Bool := storeBase ≤ line * 64

/-- Copy records that can cover an SRAM line. -/
def State.copyRecords (s : State) (line : Nat) : List CopyRecord :=
  if sramIsStore line then (s.core (sramUnit line)).copies else Map.get [] s.mem.slices (sramUnit line / 16)

def State.setCopyRecords (s : State) (line : Nat) (rs : List CopyRecord) : State :=
  if sramIsStore line then
    s.setCore (sramUnit line) { s.core (sramUnit line) with copies := rs }
  else { s with mem := { s.mem with slices := Map.set [] s.mem.slices (sramUnit line / 16) rs } }

/-- The address of an SRAM line in the form in which the record's range was issued: direct, or interleaved (R261). -/
def CopyRecord.lineAddr (r : CopyRecord) (line : Nat) : Nat :=
  let a := line * 64
  if interleavedBase ≤ r.dst && r.dst < interleavedBase + 2 ^ 32 && a < interleavedBase then
    let p := (a - sliceBase) / 0x40000
    interleavedBase + p / 16 * 0x400000 + a % 0x40000 / 64 * 1024 + p % 16 * 64
  else a

/-- The record covers the whole line and no byte of it has been written since (R451). -/
def CopyRecord.coversLine (r : CopyRecord) (line : Nat) : Bool :=
  r.dst ≤ r.lineAddr line && r.lineAddr line + 64 ≤ r.dst + r.len && !r.ended.contains line

/-- A new copy record; the oldest is replaced when the table is full: 16 for a core store, 32 for a cluster (R451). -/
def State.addCopyRecord (s : State) (r : CopyRecord) : State :=
  let line := s.translate r.dst / 64
  let limit := if sramIsStore line then 16 else 32
  s.setCopyRecords line (((s.copyRecords line) ++ [r]).drop ((s.copyRecords line).length + 1 - limit))

/-- An SRAM line written: its copy records end for it and its producer becomes the writing task (R451, R452). -/
def State.sramWritten (s : State) (line : Nat) (prod : Option Nat) : State :=
  let s := s.setCopyRecords line ((s.copyRecords line).map fun r =>
    if r.dst < r.lineAddr line + 64 && r.lineAddr line < r.dst + r.len && !r.ended.contains line then { r with ended := line :: r.ended } else r)
  { s with mem := { s.mem with
      producer := match prod with
        | some p => Map.set 0 s.mem.producer line (p + 1)
        | none => Map.set 0 s.mem.producer line 0 } }

/-- Bytes written within one SRAM line: a whole line gets a new CRC; a partial write of a failing line leaves it
failing (R450). -/
def State.writeSram (s : State) (a : Nat) (data : List Byte) (prod : Option Nat) : State :=
  let s := (s.poke a data).sramWritten (a / 64) prod
  if data.length = 64 && a % 64 = 0 then s.setCrc (a / 64) 0 else s

/-- The entry of a rerun store by its number, over all clusters. -/
def State.rerunEntry (s : State) (cluster id : Nat) : Option RerunEntry :=
  (Map.get [] s.mem.reruns cluster).find? fun e => e.id == id

/-- The context whose task a tile's first request serves. -/
def Tile.task (t : Tile) : Option (Nat × Nat) := t.reqs.findSome? fun r => match r.target with
  | .counter core ctx _ | .wait core ctx _ => some (core, ctx)
  | _ => none

/-- The core and context of the task that passed a descriptor to its core's DMA engine, while it still runs. -/
def State.descTask (s : State) (core id : Nat) : Option (Nat × Nat) :=
  ((s.core core).dma.find? (·.id == id)).bind fun d =>
    d.ctx.bind fun k => if d.serial = (s.ctx core k).serial then some (core, k) else none

/-- The core and context of the task for which an agent reads; a tile of several tasks reads for that of its first request
(assumption 22). -/
def State.agentTask (s : State) : Agent → Option (Nat × Nat)
  | .thread c k | .fetch c k => some (c, k)
  | .vector c => (s.core c).vec.head?.map fun v => (c, v.ctx)
  | .dma c id => s.descTask c id
  | .array c a | .held c a => (Map.get {} (s.core c).arrays a).tiles.head?.bind (·.task)
  | .goose c a => (Map.get {} (s.core c).arrays a).done.head?.bind (·.task)
  | .hen ch =>
    (s.channel ch).transfer.bind fun t => ((s.channel ch).seqs.find? (·.desc == t.desc)).bind fun q => s.descTask q.core t.desc
  | .append ch desc => ((s.channel ch).appends.find? (·.desc == desc)).bind fun o => s.descTask o.core desc
  | _ => none

/-- The reading task's group queue id, all ones for a reader without a task (R455). -/
def State.agentQueue (s : State) (who : Agent) : Nat :=
  match s.agentTask who with
  | some (c, k) => s.group.member * 2 ^ 19 + (s.ctx c k).taskQueue.toNat
  | none => 0x1FFFFFF

/-- One record of the SRAM error log (R455), with its event when unrecovered. -/
def State.sramRecord (s : State) (line : Nat) (reader : Agent) (prodQueue outcome : Nat) : State :=
  let head := s.reg 0x4404 2
  let u := sramUnit line
  let place := if sramIsStore line then 0 else 1
  let r : BitVec 256 := BitVec.ofNat 256
    ((s.refTime (coreTower u)).toNat * 2 ^ 192 + s.agentQueue reader * 2 ^ 167 + prodQueue * 2 ^ 142 +
     u * 2 ^ 128 + line % 4096 * 2 ^ 116 + place * 2 ^ 114 + outcome * 2 ^ 112)
  let s := { s with mem := { s.mem with sramLog := Map.set 0 s.mem.sramLog head r } }.setReg 0x4404 2 ((head + 1) % 16)
  if outcome = 2 then (s.towerSat 0xB804 (coreTower u) 1).raise 0x0E (coreTower u) u else s

/-- The producer of a line, if its entry still stands (R452). -/
def State.producerOf (s : State) (line : Nat) : Option RerunEntry :=
  match Map.get 0 s.mem.producer line with
  | 0 => none
  | p + 1 => s.rerunEntry (sramUnit line / 16) p

/-- PRODUCER_QUEUE of a line: all ones when no producer is known (R455). -/
def State.producerQueue (s : State) (line : Nat) : Nat :=
  match s.producerOf line with
  | some e => s.group.member * 2 ^ 19 + e.queue
  | none => 0x1FFFFFF

/-- What a read that checks an SRAM line's CRC meets. -/
inductive SramOutcome where
  | ok
  | waiting
  | failed
  deriving DecidableEq, Repr

/-- A recovery of a line that is still to end. -/
def Recovery.pends (r : Recovery) (line : Nat) : Bool := r.line == line && (match r.kind with
  | .refetch | .rerun _ => true
  | _ => false)

def State.dropRecovery (s : State) (r : Recovery) : State :=
  { s with mem := { s.mem with recoveries := s.mem.recoveries.filter (· != r) } }

/-- The reader produced the line that it reads: its task restarts from the saved launch, once its counters read zero; a unit's operation
for it ends, and its status is not recorded (R453, R454). -/
def State.restartReader (s : State) (line : Nat) (reader : Agent) (e : RerunEntry) : SramOutcome × State :=
  let c := s.ctx e.core e.ctx
  let s := s.setCtx e.core e.ctx { c with state := .exiting, wait := .none, restart := true }
  let s := s.towerWrap 0xB803 (coreTower (sramUnit line)) 1
  let s := s.sramRecord line reader (s.group.member * 2 ^ 19 + e.queue) 1
  match reader with
  | .thread _ _ | .fetch _ _ => (.waiting, s)
  | _ => (.failed, s)

/-- The read of one SRAM line under R453: the reader of a failing line waits for a refetch or a rerun; a second failure
of the same access, or a line with neither, returns CRC_UNRECOVERED. -/
def State.checkSram (s : State) (line : Nat) (reader : Agent) : SramOutcome × State :=
  let mine := s.mem.recoveries.find? fun r => r.line == line && r.reader == reader
  if s.crcOk line then
    (.ok, match mine with
      | some r => if r.kind = .recovered then s.dropRecovery r else s
      | none => s)
  else
    let t := coreTower (sramUnit line)
    let add (s : State) (k : RecoveryKind) (d : Option Nat) : State :=
      { s with mem := { s.mem with recoveries := s.mem.recoveries ++ [⟨line, reader, k, d⟩] } }
    match mine with
    | some r =>
      match r.kind with
      | .failed => (.failed, s.dropRecovery r)
      | .recovered => (.failed, ((s.dropRecovery r).towerWrap 0xB801 t 1).sramRecord line reader (s.producerQueue line) 2)
      | _ => (.waiting, s)
    | none =>
      match s.mem.recoveries.find? (·.pends line) with
      | some r => (.waiting, add s r.kind r.deadline)
      | none =>
        let s := s.towerWrap 0xB801 t 1
        if (s.copyRecords line).any (·.coversLine line) then (.waiting, add s .refetch none)
        else
          match s.producerOf line with
          | some e =>
            if e.running && s.agentTask reader == some (e.core, e.ctx) then s.restartReader line reader e
            else (.waiting, add s (.rerun e.id) none)
          | none => (.failed, s.sramRecord line reader 0x1FFFFFF 2)

/-- A thread that waited for a line issues its instruction again (R453: the read is performed again). -/
def State.releaseReader (s : State) (line : Nat) : Agent → State
  | .thread c k | .fetch c k =>
    if (s.ctx c k).wait = .localRecovery line then s.updCtx c k (·.wake) else s
  | _ => s

/-- The recoveries of a line ended: with success the readers go on, and each access has had its one recovery; otherwise each reader's next attempt returns
CRC_UNRECOVERED. `outcome` is that of the record (R455). -/
def State.endRecovery (s : State) (line : Nat) (ok : Bool) (outcome : Nat) : State :=
  let mine := s.mem.recoveries.filter fun r => r.pends line
  match mine with
  | [] => s
  | first :: _ =>
    let s := s.sramRecord line first.reader (s.producerQueue line) (if ok then outcome else 2)
    let t := coreTower (sramUnit line)
    let s := if ok then s.towerWrap (if outcome = 0 then 0xB802 else 0xB803) t 1 else s
    let others := s.mem.recoveries.filter fun r => !(r.pends line)
    let told := mine.map fun r => { r with kind := if ok then RecoveryKind.recovered else .failed, deadline := none }
    let s := { s with mem := { s.mem with recoveries := others ++ told } }
    mine.foldl (fun s r => s.releaseReader line r.reader) s

/-- Every recovery that waits for a rerun of this entry ended; a line recovers when the rerun was OK and its CRC holds. -/
def State.endRerun (s : State) (entry : Nat) (ok : Bool) : State :=
  let lines := (s.mem.recoveries.filter fun r => r.kind == .rerun entry).map (·.line)
  lines.foldl (fun s l => s.endRecovery l (ok && s.crcOk l) 1) s

/-! ### Accesses by any unit -/

/-- The tower that an access comes from, where it comes from one. -/
def Agent.tower : Agent → Option Nat
  | .thread c _ | .fetch c _ | .vector c | .array c _ | .held c _ | .goose c _ | .dma c _ | .dispatcher c => some (coreTower c)
  | .hen ch | .append ch _ | .region ch _ => some (coreTower ch)
  | .refetch line => some (coreTower (sramUnit line))
  | .copier _ p => some (coreTower p)
  | .anchor l => some (l / 256)
  | .pusher q => some (coreTower (queueCore q))
  | .mesh t => some t
  | .host => some 0
  | .frame n _ => some (linkTower n)
  | .request _ | .other => none

/-- The cluster of a place, where the crossbar and the router of that cluster lead to it. -/
def Place.cluster : Place → Option Nat
  | .dram c _ | .slice c _ | .store c _ => if coreExists c then some (clusterId c) else none
  | _ => none

/-- The tower that a request comes from; a copy's answers follow its own tree, another device's requests their port. -/
def Source.tower : Source → Option Nat
  | .thread core _ _ => some (coreTower core)
  | .host _ => some 0
  | .unit who => who.tower
  | .record q _ | .slot q _ => some (coreTower (queueCore q))
  | _ => none

/-- The node from which a source's packets start: its cluster's router, or the floor die of PCIe or of the stream port (R24, R366). -/
def Source.node (src : Source) : Option Nat :=
  match src.core, src with
  | some c, _ => some (clusterId c)
  | none, .host _ => some (floorNode 0)
  | none, .unit (.frame n _) => some (floorNode (linkTower n))
  | none, _ => none

/-- Where the packets of a request start: its source's node, or the floor die of the port by which it came in (R366). -/
def Req.node (r : Req) : Option Nat := r.entry <|> r.src.node

/-- The tower of a router or of a floor die. -/
def nodeTower (n : Nat) : Nat := if n < 1024 then n / 128 else n - 1024

/-- No failed bridge lies between two nodes, and the tower of the second is in service. -/
def State.meshReaches (s : State) (a b : Nat) : Bool :=
  !s.dm.towers.contains (nodeTower b) && !(bridgeRoute (nodeTower a) (nodeTower b)).any fun x => s.dm.bridges.contains x

/-- The packet of a request or of its answer (R363): one flit; none within a cluster, and none where a failed bridge or tower is on the
way, which the target's status answers (R611). -/
def State.postReq (s : State) (r : Req) (answer : Bool) : State :=
  match r.node, (placeOf r.loc).cluster with
  | some a, some b =>
    if !s.meshReaches a b then s
    else if answer then s.post { id := r.id, channel := 1, src := b, dsts := [a], flits := 1 }
    else s.post { id := r.id, channel := 0, src := a, dsts := [b], flits := 1, core := r.src.core }
  | _, _ => s

/-- The core from which a request or a multicast's copy comes. -/
def State.sender (s : State) (r : Req) : Option Nat :=
  match r.src with
  | .copy desc _ => (s.multicasts.find? (·.desc == desc)).map (·.core)
  | src => src.core

/-- An earlier multicast copy or request of the same initiator for the same cluster is still on its way there; unicasts and copies arrive in
the order of sending (R393, rule 2). -/
def State.behindMesh (s : State) (r : Req) (cluster : Nat) : Bool :=
  let copy (q : Req) : Bool := match q.src with
    | .copy _ _ => true
    | _ => false
  match s.sender r with
  | none => false
  | some c =>
    (s.packets.any fun p => p.channel == 0 && p.core == some c && p.dsts.contains cluster && decide (p.seq ≤ r.id)) ||
    s.reqs.any fun q => decide (q.id < r.id) && copy q != copy r && s.sender q == some c && (placeOf q.loc).cluster == some cluster &&
      (q.stage == .sent || (copy q && q.stage != .done))

/-- The request has not come to its target's cluster. -/
def State.reqTravels (s : State) (r : Req) : Bool :=
  match (placeOf r.loc).cluster, r.src with
  | some b, .copy desc _ => s.inTransit desc 0 b || s.behindMesh r b
  | some b, _ => s.inTransit r.id 0 b || s.behindMesh r b
  | none, _ => false

/-- The answer has not come back to its initiator's cluster or floor die. -/
def State.answerTravels (s : State) (r : Req) : Bool :=
  match r.node with
  | some a => s.inTransit r.id 1 a
  | none => false

def State.updReq (s : State) (id : Nat) (g : Req → Req) : State :=
  { s with reqs := s.reqs.map fun r => if r.id = id then g r else r }

/-- The floor die at which traffic of an initiator for another device leaves (R366, R478); none where the device is no member (R47), or where
no port of the route's direction is up or a failed bridge lies on the way to it (R479, R611). -/
def State.exitNode (s : State) (src : Option Nat) (core dev : Nat) : Option Nat :=
  if s.nonMember dev then none
  else
    (s.portFor core dev).bind fun p =>
      if src.any fun a => !s.meshReaches a (floorNode (portTower p)) then none else some (floorNode (portTower p))

/-- A request to another device goes through the mesh to the floor die of its port; that of the host is at a floor die already, and goes on
over the bridges. One that no route leads to its device ends with NOT_PRESENT (R47, R479). -/
def State.sendAbroad (s : State) (r : Req) : State :=
  let core := r.src.linkCore
  let r := { r with tag := s.freeTag core r.id }
  match s.exitNode r.src.node core (r.addr / 2 ^ 48 % 64) with
  | none => s.updReq r.id fun r => { r with stage := .done, status := 0x07 }
  | some d =>
    let s := s.updReq r.id fun _ => r
    match r.src.node with
    | some a => if 1024 ≤ a then s.send r.message else s.post { id := r.id, channel := 0, src := a, dsts := [d], flits := 1, core := r.src.core }
    | none => s.send r.message

/-- A request put on its way, translated at the initiator (R264). -/
def State.sendReq (s : State) (src : Source) (kind : ReqKind) (addr : Nat) (prod : Option Nat := none) (entry : Option Nat := none) :
    Nat × State :=
  let (id, s) := s.token
  let a := addr % 2 ^ 48
  let r : Req := { id := id, src := src, kind := kind, addr := addr, loc := s.translate a, spread := isSpread a, sentAt := s.now,
                   prod := prod, entry := entry }
  let s := { s with reqs := s.reqs ++ [r] }
  (id, if s.isOwn (addr / 2 ^ 48 % 64) then s.postReq r false else s.sendAbroad r)

def Req.isRead (r : Req) : Bool := match r.kind with
  | .read _ => true
  | _ => false

def State.findReq (s : State) (id : Nat) : Option Req := s.reqs.find? (·.id == id)

/-- The request comes from the core above the channel, by its own path and not through the crossbar (R246, R275). -/
def State.fromAbove (s : State) (ch : Nat) (r : Req) : Bool := r.src.core == some ch && s.isOwn (r.addr / 2 ^ 48 % 64)

/-- The channel whose FIFO back to the core above carries a request's answer: that of a thread or a unit of the core. -/
def State.upChannel (s : State) (r : Req) : Option Nat :=
  match placeOf r.loc, r.src with
  | .dram ch _, .thread _ _ _ | .dram ch _, .unit _ => if s.fromAbove ch r then some ch else none
  | _, _ => none

/-- The request is a unit's. -/
def Req.ofUnit (r : Req) : Bool := match r.src with
  | .unit _ => true
  | _ => false

/-- Entries of the FIFO from a channel to the core above, at most 32 (R67). A unit takes its line as soon as it has come to the head; a
thread's answer leaves with its command. -/
def State.upEntries (s : State) (ch : Nat) : List Nat :=
  ((s.channel ch).up.filter fun id => (s.findReq id).isSome).dropWhile fun id => (s.findReq id).any (·.ofUnit)
def State.upFull (s : State) (ch : Nat) : Bool := 32 ≤ (s.upEntries ch).length

/-! ### Lines of units (R705, R708) -/

/-- The unit moves its lines as requests of its own, one for each line. A thread's lines, those of the host and of other devices have been
requests before they come to their target. -/
def Agent.asks : Agent → Bool
  | .thread _ _ | .fetch _ _ | .mesh _ | .host | .request _ | .other => false
  | _ => true

/-- The request that a unit has made for a line, of this device or of another. -/
def State.unitReq (s : State) (who : Agent) (kind : ReqKind) (a : Nat) (dev : Nat := s.group.member) : Option Req :=
  s.reqs.find? fun r => r.src == .unit who && r.kind == kind && r.addr == dev * 2 ^ 48 + a

/-- A unit's request made unless it has been; what lies nowhere on this device is answered at once (R258). -/
def State.ask (s : State) (who : Agent) (kind : ReqKind) (a : Nat) (prod : Option Nat := none) (dev : Nat := s.group.member) : State :=
  match s.unitReq who kind a dev with
  | some _ => s
  | none =>
    let (id, t) := s.sendReq (.unit who) kind (dev * 2 ^ 48 + a) prod
    match s.isOwn dev, placeOf (s.translate a) with
    | true, .registers _ | true, .unassigned => t.updReq id fun r => { r with stage := .done, status := 0x02 }
    | _, _ => t

/-- Requests of a unit that their targets have not answered. -/
def State.outstanding (s : State) (who : Agent) : Nat := (s.reqs.filter fun r => r.src == .unit who && r.stage != .done).length

/-- The reads of a range asked for together, 64 lines at a time (R709). -/
def State.askLines (s : State) (who : Agent) (ps : List (Nat × Nat)) (dev : Nat := s.group.member) : State :=
  if !who.asks then s
  else ps.foldl (fun (s : State) p => if s.outstanding who < 64 then s.ask who (.read p.2) p.1 none dev else s) s

/-- The same of the writes of a range. -/
def State.askWrites (s : State) (who : Agent) (prod : Option Nat) (dev : Nat) : List (Nat × Nat) → List Byte → State
  | [], _ => s
  | (a, n) :: rest, data =>
    (if !who.asks || 64 ≤ s.outstanding who then s
      else s.ask who (.write (data.take n)) a prod dev).askWrites who prod dev rest (data.drop n)

/-- A request whose line the unit still waits for: it is not answered, or its answer is on its way, through the mesh or behind others in the
FIFO of the channel below (R70). -/
def State.underWay (s : State) (r : Req) : Bool :=
  r.stage != .done || s.answerTravels r || (match s.upChannel r with
    | some ch => (s.upEntries ch).contains r.id
    | none => false)

/-- A line of the core store that a unit of the core takes from its bank itself: the core, the offset and the place in R238. -/
def Req.bankPlace (r : Req) : Option (Nat × Nat × Nat) :=
  match r.src, placeOf r.loc with
  | .unit who, .store c off => (who.bankOrder c !r.isRead).map fun o => (c, off, o)
  | _, _ => none

/-- Events counted in a core for a queue (R551). -/
def State.charge (s : State) (core queue kind n : Nat) : State :=
  let c := s.core core
  s.setCore core { c with
    activity := Map.upd 0 c.activity (8 * queue + kind) (· + n)
    spent := Map.upd 0 c.spent kind (· + n) }

/-- The queue to which the work that ends with a completion is charged: the ring's, or the TASK_QUEUE of the issuing thread (R551). -/
def State.targetQueue (s : State) : Target → Option Nat
  | .counter c k _ | .wait c k _ => some (s.ctx c k).taskQueue.toNat
  | .ring q _ | .notify q _ => some q
  | _ => none

/-- The requests of a joined tile, by the queue charged for each, with their N (R551). -/
def State.tileShares (s : State) (t : Tile) : List (Nat × Nat) :=
  t.reqs.filterMap fun r => (s.targetQueue r.target).map fun q => (q, r.n)

/-- The request to which the `k`-th of a joined tile's lines falls, each having N of every run of them (R551). -/
def shareOf : List (Nat × Nat) → Nat → Option Nat
  | [], _ => none
  | (q, n) :: l, k => if k < n then some q else shareOf l (k - n)

/-- The queue to which a unit's `k`-th line is charged (R551). -/
def State.agentAccount (s : State) (k : Nat) : Agent → Option Nat
  | .array c a | .held c a =>
    (Map.get {} (s.core c).arrays a).tiles.head?.bind fun t =>
      let l := s.tileShares t
      shareOf l (k % max 1 (l.map (·.2)).sum)
  | .goose c a =>
    (Map.get {} (s.core c).arrays a).done.head?.bind fun t =>
      let l := s.tileShares t
      shareOf l (k % max 1 (l.map (·.2)).sum)
  | .vector c => (s.core c).vec.head?.map fun v => (s.ctx c v.ctx).taskQueue.toNat
  | .thread c k | .fetch c k => some (s.ctx c k).taskQueue.toNat
  | .dma c id => ((s.core c).dma.find? (·.id == id)).bind fun d => s.targetQueue d.target
  | .append ch desc => ((s.channel ch).appends.find? (·.desc == desc)).bind fun o =>
    ((s.core o.core).dma.find? (·.id == desc)).bind fun d => s.targetQueue d.target
  | _ => none

/-- A line of a request counted, where a core's queue has caused it (R551). -/
def State.chargeReq (s : State) (r : Req) (kind n : Nat) : State :=
  match r.src.core, (match r.src with
    | .thread c k _ => s.agentAccount r.id (.thread c k)
    | .unit who => s.agentAccount r.id who
    | .record q _ | .slot q _ => some q
    | _ => none) with
  | some c, some q => s.charge c q kind n
  | _, _ => s

/-- The bank performs the line that a unit asks for: one line on a beat, in the order of R238 (R237, R450). A line that fails its CRC waits
for its recovery (R453). -/
def State.serveLine (s : State) (who : Agent) (r : Req) (c off order : Nat) : State :=
  let done (s : State) (st : Status) (data : List Byte) : State := s.updReq r.id fun q => { q with stage := .done, status := st, data := data }
  let k := s.bank c (storeBank off)
  if s.coreStatus c ≠ 0 then done s (s.coreStatus c) []
  else if k.servedAt = s.now + 1 && k.served = order then s
  else if !k.wins order s.now then s.setBank c (storeBank off) (k.lose order s.now)
  else
    let served (s : State) : State := (s.setBank c (storeBank off) (k.serve order s.now)).chargeReq r 4 1
    match r.kind with
    | .read n =>
      match s.checkSram (r.loc / 64) who with
      | (.ok, s) => done (served s) 0 (s.bytes r.loc n)
      | (.waiting, s) => s
      | (.failed, s) => done (served s) 0x0A []
    | .write bytes => done (served (s.writeSram r.loc bytes r.prod)) 0 []
    | _ => s

/-- The banks of a core store serve what the units ask for. -/
def State.serveBanks (s : State) (core : Nat) (whos : List Agent) : State :=
  s.reqs.foldl (fun (t : State) r =>
    match r.src, r.bankPlace with
    | .unit who, some (c, off, o) => if c = core && whos.contains who && r.stage != .done then t.serveLine who r c off o else t
    | _, _ => t) s

/-- What units of a core do with lines of memory: while a line that they have asked for is under way, only its request is made, and the
banks of the core's own store serve theirs; when all have come the work is done, and takes its lines with it. Where the body answers none,
nothing happens and the lines stay. `n` is how often, on one beat, lines of the core's store that have come lead to others. -/
def State.unitsFrom (core : Nat) (whos : List Agent) (body : State → Option State) : Nat → State → State
  | n, s =>
    match body s with
    | none => s
    | some t =>
      let mine (r : Req) : Bool := whos.any fun w => r.src == .unit w
      if t.reqs.any fun r => mine r && t.underWay r then
        let s := { s with reqs := t.reqs, fresh := t.fresh, packets := t.packets }
        match n with
        | 0 => s
        | n + 1 =>
          let u := s.serveBanks core whos
          let left (s : State) : Nat := (s.reqs.filter fun r => mine r && r.stage != .done).length
          if left u < left s then State.unitsFrom core whos body n u else u
      else { t with reqs := t.reqs.filter fun r => !mine r }

def State.units (s : State) (core : Nat) (whos : List Agent) (body : State → Option State) : State :=
  State.unitsFrom core whos body 4 s

/-- The same of one unit. -/
def State.unit (s : State) (core : Nat) (who : Agent) (body : State → State) : State :=
  s.units core [who] fun s => some (body s)

/-- The status of a write that has been asked for and not answered: the state that it belongs to is given up (State.units). -/
def askedStatus : Status := 0xFF

/-- What a read of a range gives: waiting for a line, or a status with the bytes up to the failing line. -/
structure ReadResult where
  status : Status := 0
  bytes : List Byte := []
  waiting : Bool := false
  deriving DecidableEq, Repr

/-- A slice's access counted (R288). -/
def State.countSlice (s : State) (pos : Nat) : State :=
  { s with mem := { s.mem with sliceAccesses := Map.upd 0 s.mem.sliceAccesses pos (· + 1) } }

/-- A read within one line performed at its place, with the hen fence of R321. -/
def State.readPlace (s : State) (a n : Nat) (who : Agent) (spread : Bool) : ReadResult × State :=
  let sram (count : State → State) : ReadResult × State :=
    match s.checkSram (a / 64) who with
    | (.ok, s) => ({ bytes := s.bytes a n }, count s)
    | (.waiting, s) => ({ waiting := true }, s)
    | (.failed, s) => ({ status := 0x0A }, s)
  match placeOf a with
  | .dram ch off =>
    if s.inWriteRange ch off then ({ status := 0x0B }, s.towerWrap 0xB406 (coreTower ch) 1)
    else
      let (st, data, s) := s.readDramLine ch off .queue
      ({ status := st, bytes := (data.drop (off % 64)).take n }, s.countLine ch off false spread)
  | .slice pos _ => sram fun s => s.countSlice pos
  | .store _ _ => sram id
  | _ => ({ status := 0x02 }, s)

/-- A read within one line: a unit's is the answer to its request. -/
def State.readPiece (s : State) (a0 n : Nat) (who : Agent) (dev : Nat := s.group.member) : ReadResult × State :=
  if who.asks then
    match s.unitReq who (.read n) a0 dev with
    | some r => (if s.underWay r then { waiting := true } else { status := r.status, bytes := r.data }, s)
    | none => ({ waiting := true }, s.ask who (.read n) a0 none dev)
  else
    let p := placeOf (s.translate a0)
    let st := s.reachStatus (who.tower.getD p.tower) p
    if st ≠ 0 then ({ status := st }, s) else s.readPlace (s.translate a0) n who (isSpread a0)

/-- The pieces of a range read in ascending order until one waits or fails. -/
def State.readPieces (s : State) (who : Agent) (dev : Nat) : List (Nat × Nat) → ReadResult × State
  | [] => ({}, s)
  | (a, n) :: rest =>
    let (r, s) := s.readPiece a n who dev
    if r.waiting || r.status ≠ 0 then (r, s)
    else
      let (q, s) := s.readPieces who dev rest
      ({ q with bytes := r.bytes ++ q.bytes }, s)

/-- A range of this device, or by a unit's requests of another, read through the address map. -/
def State.readRange (s : State) (a n : Nat) (who : Agent) (dev : Nat := s.group.member) : ReadResult × State :=
  (s.askLines who (pieces a n) dev).readPieces who dev (pieces a n)

/-- A 64-byte record read where a DMA engine reads. -/
def State.readRecord (s : State) (a : Nat) (who : Agent) : ReadResult × List Word × State :=
  let (r, s) := s.readRange a 64 who
  (r, (List.range 8).map fun j => BitVec.ofNat 64 (bytesToNat ((r.bytes.drop (8 * j)).take 8)), s)

/-- The cluster-set record that an accepted descriptor or lease operation names; none while its read waits, and for an address that is
not aligned, which its check refuses (R368). -/
def State.acceptRecord (s : State) (a : Nat) (who : Agent) : Option (Status × List Word) × State :=
  if a % 64 ≠ 0 then (none, s)
  else
    let (r, ws, s) := s.readRecord a who
    (if r.waiting then none else some (r.status, ws), s)

/-- Several ranges read in order until one waits or fails, their lines asked for together (R453). -/
def State.readEach (s : State) (who : Agent) : List (Nat × Nat) → ReadResult × List (List Byte) × State
  | [] => ({}, [], s)
  | (a, n) :: rest =>
    let (r, s) := s.readRange a n who
    if r.waiting || r.status ≠ 0 then (r, [], s)
    else
      let (q, ds, s) := s.readEach who rest
      (q, r.bytes :: ds, s)

def State.readSpans (s : State) (who : Agent) (spans : List (Nat × Nat)) : ReadResult × List (List Byte) × State :=
  (s.askLines who (spans.flatMap fun p => pieces p.1 p.2)).readEach who spans

/-- A write within one line performed at its place, with the hen fence of R321. -/
def State.writePlace (s : State) (a : Nat) (data : List Byte) (prod : Option Nat) (spread : Bool) : Status × State :=
  match placeOf a with
  | .dram ch off =>
    if s.inReadRange ch off || s.inWriteRange ch off then (0x0B, s.towerWrap 0xB406 (coreTower ch) 1)
    else s.writeDram ch off data spread
  | .slice pos _ => (0, (s.writeSram a data prod).countSlice pos)
  | .store _ _ => (0, s.writeSram a data prod)
  | _ => (0x02, s)

/-- A write within one line; a unit's is its request. -/
def State.writePiece (s : State) (a0 : Nat) (data : List Byte) (prod : Option Nat) (who : Agent) (dev : Nat := s.group.member) :
    Status × State :=
  if who.asks then
    match s.unitReq who (.write data) a0 dev with
    | some r => (if s.underWay r then askedStatus else r.status, s)
    | none => (askedStatus, s.ask who (.write data) a0 prod dev)
  else
    let p := placeOf (s.translate a0)
    let st := s.reachStatus (who.tower.getD p.tower) p
    if st ≠ 0 then (st, s) else s.writePlace (s.translate a0) data prod (isSpread a0)

/-- The pieces of a range written in ascending order until one fails. -/
def State.writePieces (s : State) (prod : Option Nat) (who : Agent) (dev : Nat) : List (Nat × Nat) → List Byte → Status × State
  | [], _ => (0, s)
  | (a, n) :: rest, data =>
    match s.writePiece a (data.take n) prod who dev with
    | (0, s) => s.writePieces prod who dev rest (data.drop n)
    | (st, s) => (st, s)

/-- A range of this device, or by a unit's requests of another, written through the address map. -/
def State.writeRange (s : State) (a : Nat) (data : List Byte) (prod : Option Nat) (who : Agent := .other) (dev : Nat := s.group.member) :
    Status × State :=
  (s.askWrites who prod dev (pieces a data.length) data).writePieces prod who dev (pieces a data.length) data

/-- The status that checks 2 to 4 of R419 give the places of ranges of this device, reached from a tower: NOT_PRESENT before BOUNDS (R284) before
TARGET_IN_RESET. -/
def State.rangesStatus (s : State) (tower : Nat) (rs : List (Nat × Nat)) : Status :=
  let used := rs.filter fun r => r.2 != 0
  let sts := used.flatMap fun r => (pieces r.1 r.2).map fun (p, _) => s.reachStatus tower (placeOf (s.translate p))
  if sts.contains 0x07 then 0x07
  else if sts.contains 0x02 || (used.any fun r => !rangeInPlace r.1 r.2) then 0x02
  else if sts.contains 0x03 then 0x03 else 0

/-- A local address of a core as a physical address (R262). -/
def storeAddr (core off : Nat) : Nat := storeBase + core * 0x40000 + off

end Sys2Proof.Machine
end

