-- ==== Sys2Proof/Machine/Ports.lean ====
section
/-! DEFINITION. Requests at their targets: the FIFOs between a channel and the core above it, the crossbar's ports and the order in which
requests and answers pass them (R67, R70, R108, R242, R243, R471). -/
namespace Sys2Proof.Machine

/-! ### Requests -/

/-- An answer that an earlier entry of its FIFO precedes (R70). -/
def State.behindUp (s : State) (r : Req) : Bool :=
  match s.upChannel r with
  | some ch => (s.upEntries ch).contains r.id && (s.upEntries ch).head? != some r.id
  | none => false

/-- The router before one on the way from a multicast's source: along the column to the row of the source, along that row, and from the
entry into another tower the source's own shaft router (R370, R371). -/
def mcParent (src n : Nat) : Option Nat :=
  let shaft (t : Nat) : Nat := t * 128 + nodeY src * 10 + shaftX (nodeX src)
  let entry := if n / 128 = src / 128 then src else shaft (n / 128)
  if nodeY n < nodeY entry then some (n + 10)
  else if nodeY entry < nodeY n then some (n - 10)
  else if nodeX n < nodeX entry then some (n + 1)
  else if nodeX entry < nodeX n then some (n - 1)
  else if n = src then none else some (shaft (src / 128))

/-- The routers from a node back to a multicast's source, the source left out. -/
def mcPath (src : Nat) : Nat → Nat → List Nat
  | 0, _ => []
  | n + 1, r =>
    match mcParent src r with
    | some p => r :: mcPath src n p
    | none => []

/-- The routers of a multicast's tree, the source left out. -/
def Multicast.routers (m : Multicast) : List Nat := (m.nodes.flatMap (mcPath (clusterId m.core) 32)).eraseDups

/-- Every answer from the part of the tree behind a router, its own cluster with it, has come there. -/
def State.combined (s : State) (m : Multicast) (n : Nat) : Bool :=
  let open_ := s.reqs.any fun r => match r.src with
    | .copy d p => d == m.desc && clusterId p == n && r.stage != .done
    | _ => false
  !open_ && !s.inTransit m.desc 1 n &&
    m.routers.all fun c => !(mcParent (clusterId m.core) c == some n) || m.sent.contains c

/-- The routers of a multicast's tree send the combined answers on toward the source, each once all have come to it (R373;
assumption 86). -/
def State.combineAnswers (s : State) (m : Multicast) : State :=
  let go := m.routers.filter fun n => !m.sent.contains n && s.combined m n
  let s := { s with multicasts := s.multicasts.map fun k => if k.desc = m.desc then { k with sent := k.sent ++ go } else k }
  go.foldl (fun (s : State) n =>
    s.post { id := m.desc, channel := 1, src := n, dsts := (mcParent (clusterId m.core) n).toList, flits := 1 }) s

def State.combineAll (s : State) : State := s.multicasts.foldl State.combineAnswers s

/-- A request answered at its target; the answer to another member goes to the floor die of its port and over the links (R366, R485), one
for the core above a channel enters the FIFO towards it, and nobody waits for an orphan's. -/
def State.answerReq (s : State) (id : Nat) (st : Status) (data : List Byte) : State :=
  match s.findReq id with
  | some { src := .orphan, .. } => { s with reqs := s.reqs.filter (·.id != id) }
  | some r =>
    let s := match s.upChannel r with
      | some ch => s.setChannel ch { s.channel ch with up := s.upEntries ch ++ [id] }
      | none => s
    let s := s.updReq id fun r => { r with stage := .done, status := st, data := data }
    match r.src with
    | .copy _ _ => s.combineAll
    | .device dev tag =>
      let r := { r with stage := .done, status := st, data := data, entry := (s.exitNode none (tag / 4096) dev) <|> r.entry }
      let t := (s.updReq id fun _ => r).postReq r true
      if t.answerTravels r then t else t.answerDevice r
    | _ => s.postReq r true
  | none => s

/-- Requests of units that have ended: a channel controller that has accepted one completes it for nobody (R282), the others are gone. -/
def State.leaveReqs (s : State) (mine : Agent → Bool) : State :=
  { s with reqs := s.reqs.filterMap fun r => match r.src with
    | .unit who =>
      if !mine who then some r
      else if r.stage = .window || r.stage = .column then some { r with src := .orphan } else none
    | _ => some r }

/-- The host request is answered with data; the others are posted writes (R471). -/
def HostKind.answers : HostKind → Bool
  | .write | .doorbell _ _ _ _ | .regWrite _ _ | .bar0Write _ _ => false
  | _ => true

/-- A host request to this device that an earlier posted write still precedes (R471). -/
def State.behindHost (s : State) (r : Req) : Bool :=
  match r.src with
  | .host _ =>
    (s.host.ops.takeWhile fun o => !o.reqs.contains r.id).any fun o =>
      !o.kind.answers && o.device == s.group.member &&
      (o.kind != .write || o.reqs.any fun id => match s.findReq id with
        | some q => q.stage != .done
        | none => false)
  | _ => false

/-! ### Crossbar ports (R242, R243) -/

/-- The crossbar position whose target port a request takes: its slice, its core store where a unit of the core does not take the bank
itself, or its channel when it does not come from the core above it. -/
def State.portOf (s : State) (r : Req) : Option Nat :=
  match placeOf r.loc with
  | .dram ch _ => if s.fromAbove ch r then none else some ch
  | .slice p _ => some p
  | .store c _ => if r.bankPlace.isSome then none else some c
  | _ => none

/-- The initiator port of a request to a position: a core of its cluster, or the mesh router, 16. -/
def Req.initiator (r : Req) (position : Nat) : Nat :=
  match r.src.core with
  | some c => if clusterId c = clusterId position then c % 16 else 16
  | none => 16

/-- A request that waits at its target port. -/
def State.atPort (s : State) (r : Req) (position : Nat) : Bool :=
  r.stage == .sent && !s.reqTravels r && s.isOwn (r.addr / 2 ^ 48 % 64) && s.portOf r == some position && !s.behindHost r

/-- A request that its target can take: one whose channel's FIFO is full does not ask for a grant, and holds back those of its initiator
behind it (R70, R243). -/
def State.portReady (s : State) (r : Req) : Bool :=
  match placeOf r.loc with
  | .dram ch _ => decide ((s.channel ch).fifo.length < 16)
  | _ => true

/-- The port grants this request: one in a beat, the first of its initiator, whose turn it is in the round robin that starts after the
initiator granted last (R243). -/
def State.portTurn (s : State) (r : Req) : Bool :=
  match s.portOf r with
  | none => true
  | some p =>
    let waiting := s.reqs.filter fun q => s.atPort q p
    let first (r : Req) : Bool := (waiting.find? fun q => q.initiator p == r.initiator p).any (·.id == r.id)
    let port := Map.get {} s.ports p
    let turn (q : Req) : Nat := (q.initiator p + 16 - port.last % 17) % 17
    port.grantedAt != s.now + 1 && first r && s.portReady r && waiting.all fun q => !(first q && s.portReady q) || decide (turn r ≤ turn q)

def State.grantPort (s : State) (r : Req) : State :=
  match s.portOf r with
  | none => s
  | some p => ({ s with ports := Map.set {} s.ports p ⟨r.initiator p, s.now + 1⟩ }).chargeReq r 5 1

/-- A response that an earlier request of the same initiator to the same port precedes: that one is still to be answered, or, for a
thread of the cluster, to be returned (R243). -/
def State.behindPort (s : State) (r : Req) : Bool :=
  match s.portOf r with
  | none => false
  | some p =>
    (s.reqs.takeWhile fun q => q.id != r.id).any fun q =>
      s.portOf q == some p && q.initiator p == r.initiator p && s.isOwn (q.addr / 2 ^ 48 % 64) &&
      (q.stage != .done || (r.initiator p != 16 && match q.src with
        | .thread _ _ _ => true
        | _ => false))

/-- An answer on its way back to its initiator: in the mesh, behind others in the FIFO of its channel, or behind others of its port. -/
def State.answerHeld (s : State) (r : Req) : Bool :=
  s.answerTravels r || (s.isOwn (r.addr / 2 ^ 48 % 64) && (s.behindUp r || s.behindPort r))

/-- A read of part of a line answered from the line's 64 bytes. -/
def State.answerLine (s : State) (id : Nat) (st : Status) (line : List Byte) : State :=
  match s.findReq id with
  | some r =>
    match r.kind with
    | .read n => s.answerReq id st (if st = 0 then (line.drop (r.loc % 64)).take n else [])
    | _ => s
  | none => s

/-- An earlier request of the same thread to the same line that its target has not yet accepted (R108), or an earlier host
write that is not yet performed (R471). -/
def State.behindSameLine (s : State) (r : Req) : Bool :=
  match s.reqs.takeWhile (fun q => q.id != r.id) with
  | before => (before.any fun q => q.src == r.src && q.loc / 64 == r.loc / 64 && (q.stage == .sent || q.stage == .arrived)) || s.behindHost r

end Sys2Proof.Machine
end

