-- ==== Sys2Proof/Machine/Complete.lean ====
section
/-! DEFINITION. Thread faults (R131 to R134), and where completions go: a thread's counter or wait (R111, R112), or the
ring slot of a queue with its record, sync add and message (R421 to R423). -/
namespace Sys2Proof.Machine

/-! ### Thread faults -/

/-- The causes of R131. -/
def causeIllegal : Nat := 0x01
def causeMisaligned : Nat := 0x02
def causeLocalRange : Nat := 0x03
def causeUnmapped : Nat := 0x04
def causeStoreFailed : Nat := 0x0B
def causeBreak : Nat := 0x0C
def causeKilled : Nat := 0x0D

/-- The fault record of R133. -/
def faultRecord (time : BitVec 64) (addr : Nat) (word : Word32) (pc : BitVec 18) (queue : BitVec 19) (ctx : Nat)
    (status : Status) (cause : Nat) : BitVec 256 :=
  BitVec.ofNat 256 (time.toNat * 2 ^ 192 + addr % 2 ^ 54 * 2 ^ 128 + word.toNat * 2 ^ 96 + pc.toNat * 2 ^ 78 +
    queue.toNat * 2 ^ 59 + ctx % 256 * 2 ^ 51 + status.toNat * 2 ^ 8 + cause)

/-- The order of the fault records of one reference cycle: by core id, for one core by the beat, and within a beat by context (R134;
assumption 80). -/
def faultKey (core beat ctx : Nat) : Nat := (core * 2 ^ 64 + beat % 2 ^ 64) * 256 + ctx % 256

/-- A record of a fault on a beat of a core entered in FAULT_LOG, among those of its cycle (R134), and counted. -/
def State.logFault (s : State) (core ctx beat : Nat) (r : BitVec 256) : State :=
  let head := s.reg 0xA110 2
  let b := s.faultBatch.add s.now (faultKey core beat ctx) r
  let s := { s with faultLog := b.write 64 (head + 1) s.faultLog, faultBatch := b }
  (s.setReg 0xA110 2 ((head + 1) % 64)).sat32 0xA110 3 1

/-- A thread faults (R131, R132): the record enters FAULT_LOG, the context becomes FAULTED, or EXITING at once when
FAULT_HOLD reads 0. -/
def State.threadFault (s : State) (core ctx cause : Nat) (status : Status) (addr : Nat) (word : Word32) : State :=
  let c := s.ctx core ctx
  let s := s.logFault core ctx (s.core core).beats (faultRecord (s.refTime (coreTower core)) addr word c.pc c.taskQueue ctx status cause)
  s.setCtx core ctx { c with
    state := if s.reg 0xA111 1 == 1 then .faulted else .exiting
    wait := .none
    ending := .fault status }

/-- The address with which a local access faults is the local one. -/
def State.faultAt (s : State) (core ctx cause : Nat) (status : Status) (addr : Nat) : State :=
  s.threadFault core ctx cause status addr (s.ctx core ctx).word

/-! ### Messages -/

/-- The reset value of an MSI-X entry: masked (PRESUMED from PCIe, assumption 6). -/
def msixReset : BitVec 128 := BitVec.ofNat 128 (2 ^ 96)

/-- The device is a member of a group that is not its head (R473: all messages come from the head's table). -/
def State.isHead (s : State) : Bool := s.group.member == 0

/-- The function may send messages: MSI-X is enabled and not masked, it is bus master and in D0 (PRESUMED from PCIe, assumption 62). -/
def PcieFunction.messages (f : PcieFunction) : Bool := f.msixOn && !f.msixMask && f.busMaster && !f.d3

/-- The function takes requests to its BARs. -/
def PcieFunction.decodes (f : PcieFunction) : Bool := f.memory && !f.d3

/-- MSI-X message of a vector on the head: sent, or pending while its mask bit is set or the function may send none. -/
def State.sendMsix (s : State) (v : Nat) : State :=
  let e := Map.get msixReset s.host.msix v
  if e.getLsbD 96 || !s.host.function.messages then { s with host := { s.host with pba := Map.set false s.host.pba v true } }
  else s.send (.msix (e.toNat % 2 ^ 64) (e.toNat / 2 ^ 64 % 2 ^ 32))

/-- The node from which an operation comes and to which its answer goes back: its cluster, or the floor die of its port (R366). -/
def SyncMsg.home (m : SyncMsg) : Option Nat := m.target.cluster <|> m.entry

/-- An answer or release that the same engine sent to the cluster before a given one is still on its way: they arrive in the order of
sending (R390, R393). -/
def State.ctlBehind (s : State) (cluster object sent : Nat) : Bool :=
  (s.syncMsgs.any fun m => m.reply.isSome && m.repliedAt < sent && m.object / 64 == object / 64 && m.target.cluster == some cluster) ||
  (s.releases.any fun r => r.at_ < sent && r.object / 64 == object / 64 && r.cluster == cluster)

/-- An engine's answer has not come back to its issuer: it travels, or one that was sent before it does (R390, R393). -/
def State.syncBehind (s : State) (m : SyncMsg) : Bool :=
  match m.home with
  | some c => m.reply.isSome && (s.ctlBehind c m.object m.repliedAt || s.inTransit m.id 2 c)
  | none => false

/-- The tower of an operation's object is in service and no failed bridge lies on the way (R611). -/
def State.syncReaches (s : State) (m : SyncMsg) : Bool :=
  let engine := objectCluster (m.object % 2 ^ 13)
  s.meshReaches (m.home.getD engine) engine

/-- An operation takes its place in the order of arrival at its engine (R387). -/
def State.atEngine (s : State) (id : Nat) : State :=
  { s with fresh := s.fresh + 1, syncMsgs := s.syncMsgs.map fun m => if m.id = id then { m with came := some s.fresh } else m }

/-- An operation on another device's object goes to the floor die of its port and over the links; one that no route leads to its device is
answered with NOT_PRESENT (R391, R479). -/
def State.syncAbroad (s : State) (m : SyncMsg) : State :=
  let core := m.target.linkCore
  let m := { m with tag := s.freeTag core m.id }
  let put (s : State) (m : SyncMsg) : State := { s with syncMsgs := s.syncMsgs.map fun x => if x.id = m.id then m else x }
  match s.exitNode m.target.cluster core (m.object / 2 ^ 13) with
  | none => put s { m with arrived := true, reply := some (0x07, 0) }
  | some d =>
    match m.target.cluster with
    | some a => (put s m).post { id := m.id, channel := 2, src := a, dsts := [d], flits := 1, core := m.target.core }
    | none => (put s m).send m.message

/-- The packet of a sync operation of this device to its engine, or of the engine's answer, on CTL (R363, R387, R389). -/
def State.postSync (s : State) (id : Nat) (answer : Bool) : State :=
  match s.syncMsgs.find? (·.id == id) with
  | none => s
  | some m =>
    let engine := objectCluster (m.object % 2 ^ 13)
    if s.abroadSync m then s.syncAbroad m
    else if !s.syncReaches m then s
    else
      match m.home with
      | some c =>
        if answer then s.post { id := id, channel := 2, src := engine, dsts := [c], flits := 1 }
        else if c = engine then s.atEngine id
        else s.post { id := id, channel := 2, src := c, dsts := [engine], flits := 1, core := m.target.core }
      | none => if answer then s else s.atEngine id

/-- A message put on its way to a sync engine (R387, R388). -/
def State.sendSync (s : State) (op : SyncOp) (object : Nat) (value : Word32) (target : Target) (entry : Option Nat := none) : State :=
  let (id, s) := s.token
  let m : SyncMsg := { id := id, op := op, object := object, value := value, target := target, sentAt := s.now, entry := entry }
  { s with syncMsgs := s.syncMsgs ++ [m] }.postSync id false

/-! ### Completion at a queue -/

/-- Address of slot `i mod 2^n` of a queue's ring (R402). -/
def State.slotAddr (s : State) (q i : Nat) : Nat :=
  let k := s.queue q
  let off := k.ringAddr.toNat + 64 * (i % 2 ^ k.ringLog2.toNat)
  if k.ringSpace = 0 then storeAddr (queueCore q) off else off

/-- A 16-byte completion record (R422). -/
def completionRecord (st : Status) (log2 type user q i : Nat) : List Byte :=
  natToBytes 16 (st.toNat * 2 ^ 56 + (i / 2 ^ log2 + 1) % 2 * 2 ^ 55 + type % 256 * 2 ^ 40 + user % 2 ^ 24 +
    (i % 2 ^ 32 * 2 ^ 32 + q) * 2 ^ 64)

/-- A failure of step 2 or 3 counted (R423). -/
def State.notifyFailure (s : State) (q : Nat) : State :=
  (s.towerSat 0xB708 (q / 2 ^ 16) 1).raise 0x09 (q / 2 ^ 16) q

/-- The descriptor's entry among those taken, changed. -/
def State.updTaken (s : State) (q i : Nat) (g : Taken → Taken) : State :=
  s.setQueue q { s.queue q with taken := (s.queue q).taken.map fun t => if t.index = i then g t else t }

/-- Where the completion record of descriptor `i` goes (R421), bit 63 for host memory. -/
def Queue.recordTo (k : Queue) (i : Nat) : Nat :=
  (if k.recordAddr.getLsbD 63 then 2 ^ 63 else 0) + k.recordAddr.toNat % 2 ^ 63 + 16 * (i % 2 ^ k.ringLog2.toNat)

/-- On a member the head writes a record in host memory and sends the message, both from one NOTIFY packet (R473), which leaves at step 4; a
record without a message leaves at step 2 (assumption 92, DEDUCED). -/
def State.viaHead (s : State) (k : Queue) : Bool := !s.isHead && k.notifyMsix

/-- Steps 4 and 5 of R421: the MSI-X message, then COMPLETED; the slot is free. -/
def State.finishRing (s : State) (q i : Nat) : State :=
  let k := s.queue q
  match k.taken.find? (·.index == i) with
  | none => s
  | some t =>
    let w0 := t.word0.toNat
    let record := completionRecord (t.ending.getD 0) k.ringLog2.toNat (w0 / 2 ^ 40) w0 q i
    let host := k.notifyRecord && k.recordAddr.getLsbD 63
    let s :=
      if s.viaHead k then
        s.send (.groupMessage 0 2 [if host then k.recordTo i else 0, bytesToNat record, k.msixVector.toNat + 1])
      else if k.notifyMsix then s.sendMsix k.msixVector.toNat else s
    let k := s.queue q
    let s := s.setQueue q { k with completed := k.completed + 1, taken := k.taken.filter (·.index != i) }
    let c := s.core (queueCore q)
    s.setCore (queueCore q) { c with ledger := c.ledger.filter fun e => !(e.queue == q && e.index == i) }

/-- Step 3 of R421: SYNC ADD 1 on NOTIFY_OBJECT; the steps after it follow once its engine has answered. -/
def State.notifyObject (s : State) (q i : Nat) : State :=
  if (s.queue q).notifySync then s.sendSync .add (s.queue q).notifyObject.toNat 1 (.notify q i) else s.finishRing q i

/-- Step 2 of R421: the record in host memory, in this device's memory, or in another member's, whose answer the steps after it wait
for; a device that is no member is a failure (R423). -/
def State.notifyRecord (s : State) (q i : Nat) : State :=
  let k := s.queue q
  match k.taken.find? (·.index == i) with
  | none => s
  | some t =>
    let w0 := t.word0.toNat
    let dst := k.recordTo i
    let bytes := completionRecord (t.ending.getD 0) k.ringLog2.toNat (w0 / 2 ^ 40) w0 q i
    let dev := dst / 2 ^ 48 % 64
    if !k.notifyRecord then s.notifyObject q i
    else if dst.testBit 63 then
      (if s.isHead then s.send (.hostWrite (dst % 2 ^ 63) bytes)
        else if k.notifyMsix then s else s.send (.groupMessage 0 2 [dst, bytesToNat bytes, 0])).notifyObject q i
    else if s.isOwn dev && (match placeOf (s.translate (dst % 2 ^ 48)) with
        | .dram _ _ => true
        | _ => false) then
      -- one line, or two, through their channel's window (R708)
      (pieces dst 16).foldl (fun (s : State) p =>
        (s.sendReq (.record q i) (.write ((bytes.drop (p.1 - dst)).take p.2)) (p.1 % 2 ^ 54)).2) s
    else if s.isOwn dev then
      match s.writeRange (dst % 2 ^ 48) bytes none with
      | (0, s) => s.notifyObject q i
      | (_, s) => (s.notifyFailure q).notifyObject q i
    else if s.nonMember dev then (s.notifyFailure q).notifyObject q i                  -- no current member (R47)
    else (s.sendReq (.record q i) (.write bytes) (dst % 2 ^ 54)).2

/-- A line of SRAM that fails its CRC holds the address: step 1 cannot write the slot (R450, R710). -/
def State.slotFails (s : State) (a : Nat) : Bool :=
  match placeOf (s.translate a) with
  | .slice _ _ | .store _ _ => !s.crcOk (s.translate a / 64)
  | _ => false

/-- The five steps of R421 for descriptor `i` of queue `q`, each visible before the next; a step that waits for an answer is gone on
from when it comes. A slot in DRAM is written through its channel's window (R708); one in SRAM is written at once, since the spec gives the
controller's writes there no port (assumption 90, DESIGN CHOICE). -/
def State.endRing (s : State) (q i : Nat) (st : Status) : State :=
  match (s.queue q).taken.find? (fun t => t.index == i && t.ending.isNone) with
  | none => s
  | some t =>
    -- 1. STATUS and DONE; bits 54:48 keep their values
    let bytes : List Byte := [BitVec.ofNat 8 (128 + t.word0.toNat / 2 ^ 48 % 128), BitVec.ofNat 8 st.toNat]
    let fails := s.slotFails (s.slotAddr q i)
    let dram := (s.queue q).ringSpace == 2
    let (w, s) := if dram then (0, s) else s.writeRange (s.slotAddr q i + 6) bytes none
    let s := if w = 0 && !fails then s else s.notifyFailure q
    let k := s.queue q
    let s := s.setQueue q { k with waiting := if k.waiting = some i then none else k.waiting }
    let s := s.updTaken q i fun t => { t with ending := some st }
    if dram then (s.sendReq (.slot q i) (.write bytes) (s.group.member * 2 ^ 48 + s.slotAddr q i + 6)).2 else s.notifyRecord q i

/-- A descriptor taken from a ring completes. The launch of a stream's frame that is OK completes once the port has read the frame's verdict,
since a fallback that is late gives it DEADLINE (R526). -/
def State.completeRing (s : State) (q i : Nat) (st : Status) : State :=
  match s.frameOf q i with
  | none => s.endRing q i st
  | some (n, f) =>
    let t := s.noteFrame n f st
    if st = 0 && !f.answered then t else t.endRing q i (lateStatus f.late st)

/-! ### Completion at a thread -/

/-- Every hen sequence that this thread passed has completed (R127, NB). -/
def State.hensDone (s : State) (core ctx : Nat) : Bool :=
  (s.core core).dma.all fun d =>
    !(d.ctx == some ctx && d.serial == (s.ctx core ctx).serial && (d.words.headD 0).toNat / 2 ^ 40 % 256 == 3 && d.status.isNone)

/-- Every global store and AMO.G of the thread has been acknowledged (R127, GLOBAL). -/
def State.storesDone (s : State) (core ctx : Nat) : Bool :=
  s.reqs.all fun r =>
    match r.src, r.kind with
    | .thread c k n, .write _ => !(c == core && k == ctx && n == (s.ctx core ctx).serial)
    | .thread c k n, .atomic _ _ _ => !(c == core && k == ctx && n == (s.ctx core ctx).serial)
    | _, _ => true

/-- The conditions that a FENCE mask selects (R127); local stores are performed at issue (R107). -/
def State.fenceHolds (s : State) (core ctx : Nat) (mask : BitVec 4) : Bool :=
  (!mask.getLsbD 1 || s.storesDone core ctx) && (!mask.getLsbD 2 || (s.ctx core ctx).idle) &&
  (!mask.getLsbD 3 || s.hensDone core ctx)

/-- The end of a FENCE: with GLOBAL and a failed store it faults, and the fault clears STORE_STATUS (R128). A FENCE with further bits
faults when every condition that it selects holds; the spec does not say whether the fault comes earlier (assumption 87, DESIGN
CHOICE). -/
def State.endFence (s : State) (core ctx : Nat) (mask : BitVec 4) : State :=
  let c := s.ctx core ctx
  if mask.getLsbD 1 && c.storeStatus ≠ 0 then
    (s.faultAt core ctx causeStoreFailed c.storeStatus 0).updCtx core ctx fun c => { c with storeStatus := 0 }
  else s.setCtx core ctx c.wake.advance

/-- WAITC satisfied: the status is read and cleared in one step (R119). -/
def Ctx.collect (c : Ctx) (i : BitVec 2) (xd : Reg) : Ctx :=
  ((c.setX xd ((c.asyncStatus i).zeroExtend 64)).setAsync i 0).wake.advance

/-- A waiting context whose WAITC or FENCE condition now holds goes on. -/
def State.recheck (s : State) (core ctx : Nat) : State :=
  let c := s.ctx core ctx
  match c.wait with
  | .counter i t xd => if (c.counter i).toNat ≤ t then s.setCtx core ctx (c.collect i xd) else s
  | .fence m => if s.fenceHolds core ctx m then s.endFence core ctx m else s
  | _ => s

/-- A counter decremented with its status kept when it is the first that is not OK (R111); the commands of a thread
that faulted, or that is restarted, change no status (R135, R454). -/
def Ctx.countDown (c : Ctx) (i : BitVec 2) (st : Status) : Ctx :=
  let c := c.setCounter i (if c.counter i = 0 then 0 else c.counter i - 1)
  match c.ending with
  | .fault _ => c
  | _ => if !c.restart && st ≠ 0 && c.asyncStatus i = 0 then c.setAsync i st else c

/-- The completion of a command, a tile request, a vector operation or a ring descriptor. -/
def State.complete (s : State) (t : Target) (st : Status) : State :=
  match t with
  | .none => s
  | .counter core ctx i => (s.updCtx core ctx (·.countDown i st)).recheck core ctx
  | .wait core ctx token =>
    let c := s.ctx core ctx
    match c.wait with
    | .command n xd => if n = token then s.setCtx core ctx (c.setX xd (st.zeroExtend 64)).wake.advance else s
    | .syncWait n xd _ => if n = token then s.setCtx core ctx (c.setX xd (st.zeroExtend 64)).wake.advance else s
    | .vector n => if n = token then s.setCtx core ctx c.wake.advance else s
    | .push n xd => if n = token then s.setCtx core ctx (c.setX xd (st.zeroExtend 64)).wake.advance else s
    | _ => s
  | .ring q i => s.completeRing q i st
  | .notify q i => (if st = 0 then s else s.notifyFailure q).finishRing q i
  | .round l n => { s with leases := Map.upd {} s.leases l fun x =>
      { x with round := x.round.map fun r => if r.serial = n && r.status.isNone then { r with status := some st } else r } }
  | .remote dev tag => s.send (.groupMessage dev 6 [tag, st.toNat, 0])

end Sys2Proof.Machine
end

