-- ==== Sys2Proof/Machine/Threads.lean ====
section
/-! DEFINITION. Issue of instructions (R87, R88, R95) and the shared effects of the instruction forms: register results,
branches, local and global accesses, commands and their counters (spec file 03_cores_threads_and_instructions.md). -/
namespace Sys2Proof.Machine

/-! ### Issue -/

/-- The word at a context's PC in the core store (R94). -/
def State.nextWord (s : State) (core : Nat) (c : Ctx) : Word32 :=
  BitVec.ofNat 32 (bytesToNat (s.bytes (storeAddr core c.pc.toNat) 4))

/-- The beat from which a context's next instruction may issue: 4 beats after its last one (R87), when the results of longer operations
that it uses are there (R89, R130), and for a divide when the divider has at most one divide ahead of it (R130; assumption 89). -/
def State.dueBeat (s : State) (core : Nat) (c : Ctx) : Nat :=
  let w := s.nextWord core c
  let d := (wordReads w).foldl (fun m r => max m (Map.get 0 c.late r)) c.nextBeat
  if isDivide w then max d ((s.core core).divider - 68) else d

/-- The context may issue on this beat (R87, R89). -/
def State.qualifies (s : State) (core : Nat) (c : Ctx) (beat : Nat) : Bool := c.state == .ready && s.dueBeat core c ≤ beat

/-- When a divide's result is there: one divide at a time, each 68 beats (R130). -/
def Core.resultBeat (c : Core) (beat : Nat) (w : Word32) : Nat :=
  (if isDivide w then max beat c.divider else beat) + wordBeats w

/-- The marks that an issue leaves in its context: the beats of R87 and R89, and the word (R136). -/
def Ctx.issued (c : Ctx) (k : Core) (beat : Nat) (w : Word32) : Ctx :=
  { c with nextBeat := beat + 4, word := w, waited := false, counted := false,
           late := match wordWrites w with
             | some r => Map.set 0 c.late r (if wordBeats w ≤ 4 then 0 else k.resultBeat beat w)
             | none => c.late }

/-- Place in the round robin that starts after the context that issued last (R88). -/
def rrDistance (last ctx : Nat) : Nat := (ctx + 256 - (last % 256 + 1)) % 256

/-- Context `k` goes before the context `j` (R88): class 1 first, then round robin within the class. -/
def Core.before (c : Core) (k : Nat) (ck : Ctx) (j : Nat) (cj : Ctx) : Bool :=
  if ck.issueClass != cj.issueClass then ck.issueClass
  else
    let last := if cj.issueClass then c.last1 else c.last0
    rrDistance last k < rrDistance last j

/-- The context has been READY ever since the core's last issue. -/
def Core.stillReady (c : Core) (k : Nat) (o : Ctx) : Bool := o.state == .ready && (!o.waited || c.readyAtIssue.contains k)

/-- The bank of the core store from which the context fetches its word has a beat for the scalar issue (R238, R239). -/
def State.fetchGranted (s : State) (i : Issue) : Bool :=
  let me := s.ctx i.core i.ctx
  me.pcBeyond || (s.bank i.core (storeBank me.pc.toNat)).wins 0 s.now

/-- The issue stage selects this context on this beat (R87, R88); no beat passes on which a context qualifies and the stage selects
none. -/
def State.selects (s : State) (i : Issue) : Bool :=
  let c := s.core i.core
  let me := s.ctx i.core i.ctx
  s.coreUp i.core && i.ctx < 256 && c.beats < i.beat && s.qualifies i.core me i.beat &&
    c.ctxs.all fun (k, o) =>
      (k == i.ctx || !(s.qualifies i.core o i.beat && c.before k o i.ctx me)) &&
      (!c.stillReady k o || i.beat ≤ max (s.dueBeat i.core o) (c.beats + 1))

/-- The issue counted: the beat, the idle beats before it, the round robin, the bank of the fetch, the divider and the tower's count; an
instruction that has waited for a bank or a line was counted when it issued first (R88, R129, R130, R141, R238, R551). -/
def State.account (s : State) (i : Issue) (word : Word32) : State :=
  let c := s.core i.core
  let me := s.ctx i.core i.ctx
  let t := coreTower i.core
  let c := { c with
    beats := i.beat
    last0 := if me.issueClass then c.last0 else i.ctx
    last1 := if me.issueClass then i.ctx else c.last1
    readyAtIssue := (c.ctxs.filter fun e => e.1 != i.ctx && e.2.state == .ready).map (·.1)
    ctxs := Map.set {} c.ctxs i.ctx (me.issued c i.beat word)
    divider := if isDivide word then c.resultBeat i.beat word else c.divider
    banks := if me.pcBeyond then c.banks else Map.upd {} c.banks (storeBank me.pc.toNat) (·.serve 0 s.now)
    activity := if me.counted then c.activity else Map.upd 0 c.activity (8 * me.taskQueue.toNat + 2) (· + 1)
    spent := if me.counted then c.spent else Map.upd 0 c.spent 2 (· + 1) }
  ((s.setCore i.core c).towerWrap 0xB010 t (if me.counted then 0 else 1)).towerWrap 0xB011 t (i.beat - (s.core i.core).beats - 1)

/-- A beat on which the stage has selected a context and another requester has the bank of its word: nothing issues, the beats before it
were idle, and the fetch comes again on the next (R238, R239). -/
def State.fetchLost (s : State) (i : Issue) : State :=
  let c := s.core i.core
  let c := { c with
    beats := i.beat
    readyAtIssue := (c.ctxs.filter fun e => e.2.state == .ready).map (·.1)
    banks := Map.upd {} c.banks (storeBank (s.ctx i.core i.ctx).pc.toNat) (·.lose 0 s.now) }
  (s.setCore i.core c).towerWrap 0xB011 (coreTower i.core) (i.beat - (s.core i.core).beats - 1)

/-- A context that waits for the recovery of an SRAM line and then performs the instruction that it has issued (R453). -/
def State.awaitLine (s : State) (core ctx line : Nat) : State :=
  s.updCtx core ctx fun c => if c.restart then c else { c.block .waitMem (.localRecovery line) with counted := true }

/-- The word at PC of the issuing context in the core store (R94). -/
def State.wordAt (s : State) (i : Issue) : Word32 := s.nextWord i.core (s.ctx i.core i.ctx)

/-- An instruction issued: its word is fetched from the core store with its CRC checked (R94, R131 causes LOCAL_RANGE and FETCH_CRC);
an unassigned word is illegal (R95); otherwise the instruction is performed. A command that names another instruction than the word at
PC, and one that the stage does not select (R87), is no issue and changes nothing (assumption 51). For a PC at or beyond 0x4_0000 no
word is fetched: the record holds INSTRUCTION 0, as FETCH_CRC's does, and the low 18 bits of PC (assumption 72, DESIGN CHOICE). -/
def State.issue (s : State) (i : Issue) (word : Word32) (body : State → State) : State :=
  let c := s.ctx i.core i.ctx
  let fetched := s.wordAt i
  if !s.selects i then s
  else if !s.fetchGranted i then s.fetchLost i
  else if c.pcBeyond then (s.account i 0).threadFault i.core i.ctx causeLocalRange 0x02 0 0
  else
    let line := storeAddr i.core c.pc.toNat / 64
    match s.checkSram line (.fetch i.core i.ctx) with
    | (.waiting, s) => (s.account i 0).awaitLine i.core i.ctx line
    | (.failed, s) => (s.account i 0).threadFault i.core i.ctx 0x09 0x0A 0 0
    | (.ok, s) =>
      if !assignedWord fetched then (s.account i fetched).faultAt i.core i.ctx causeIllegal 0x08 0
      else if sameWord fetched word then body (s.account i fetched)
      else s

/-! ### Register results and jumps -/

/-- XD receives a value formed from the context; PC advances. -/
def State.result (s : State) (i : Issue) (word : Word32) (xd : Reg) (f : Ctx → Word) : State :=
  s.issue i word fun s => s.updCtx i.core i.ctx fun c => (c.setX xd (f c)).advance

/-- As `result`, with numeric events counted in the core (R210). -/
def State.resultCounted (s : State) (i : Issue) (word : Word32) (xd : Reg) (f : Ctx → Word × List NumEvent) : State :=
  s.issue i word fun s =>
    let r := f (s.ctx i.core i.ctx)
    (s.countEvents i.core r.2).updCtx i.core i.ctx fun c => (c.setX xd r.1).advance

/-- A conditional branch (R102). -/
def State.branch (s : State) (i : Issue) (op : Nat) (xa xb : Reg) (off : BitVec 16) (taken : Word → Word → Bool) : State :=
  s.issue i (wordB op xa xb off) fun s => s.updCtx i.core i.ctx fun c =>
    if taken (c.x xa) (c.x xb) then c.goto (c.pc.zeroExtend 64 + branchOffset off) else c.advance

/-! ### Local accesses (R104, R106, R107) -/

/-- The fault of a local access at an address: MISALIGNED, then LOCAL_RANGE (assumption 8). -/
def localFault (addr : Word) (n : Nat) : Option (Nat × Status) :=
  if addr.toNat % n ≠ 0 then some (causeMisaligned, 0x08)
  else if 0x40000 < addr.toNat + n then some (causeLocalRange, 0x02)
  else none

/-- The scalar access to a bank of the core store: where another requester has the bank, the instruction waits and comes again on the
next beat (R238). -/
def State.onIssueBank (s : State) (i : Issue) (off : Nat) (body : State → State) : State :=
  if (s.bank i.core (storeBank off)).wins 0 s.now then
    (s.charge i.core (s.ctx i.core i.ctx).taskQueue.toNat 4 1).onBank i.core off 0 body
  else (s.onBank i.core off 0 body).updCtx i.core i.ctx fun c => { c with nextBeat := i.beat + 1, counted := true }

/-- A local access of `n` bytes: its checks, its bank's beat (R238), then the CRC of its line, then the body (R131, R450). -/
def State.localAccess (s : State) (i : Issue) (addr : Word) (n : Nat) (body : State → State) : State :=
  match localFault addr n with
  | some (cause, st) => s.faultAt i.core i.ctx cause st addr.toNat
  | none =>
    s.onIssueBank i addr.toNat fun s =>
    let line := storeAddr i.core addr.toNat / 64
    match s.checkSram line (.thread i.core i.ctx) with
    | (.ok, s) => body s
    | (.waiting, s) => s.awaitLine i.core i.ctx line
    | (.failed, s) => s.faultAt i.core i.ctx 0x08 0x0A addr.toNat

/-- A loaded value narrower than 64 bits extended (R106). -/
def extendLoad (bytes : List Byte) (signed : Bool) : Word :=
  let v := bytesToNat bytes
  if signed then BitVec.ofInt 64 (signedOf (8 * bytes.length) v) else BitVec.ofNat 64 v

def State.localLoad (s : State) (i : Issue) (op : Nat) (xd xa : Reg) (imm : BitVec 16) (n : Nat) (signed : Bool) : State :=
  s.issue i (wordI op xd xa imm) fun s =>
    let addr := (s.ctx i.core i.ctx).x xa + sext16 imm
    s.localAccess i addr n fun s => s.updCtx i.core i.ctx fun c =>
      (c.setX xd (extendLoad (s.bytes (storeAddr i.core addr.toNat) n) signed)).advance

/-- The rerun entry a context's writes count under (R452). -/
def State.producing (s : State) (core ctx : Nat) : Option Nat := (s.ctx core ctx).rerun

/-- A local store: performed at once; a partial write of a failing line is performed and the line keeps failing (R450). -/
def State.localStore (s : State) (i : Issue) (op : Nat) (xd xa : Reg) (imm : BitVec 16) (n : Nat) : State :=
  s.issue i (wordI op xd xa imm) fun s =>
    let c := s.ctx i.core i.ctx
    let addr := c.x xa + sext16 imm
    match localFault addr n with
    | some (cause, st) => s.faultAt i.core i.ctx cause st addr.toNat
    | none =>
      s.onIssueBank i addr.toNat fun s =>
        (s.writeSram (storeAddr i.core addr.toNat) (natToBytes n (c.x xd).toNat) (s.producing i.core i.ctx)).updCtx
          i.core i.ctx (·.advance)

/-- The new value of an atomic's word (R110); CAS keeps the old value unless it equals the comparand. -/
def amoApply (op : AmoOp) (old operand compare : Word) : Word :=
  match op with
  | .add => old + operand
  | .and => old &&& operand
  | .or => old ||| operand
  | .xor => old ^^^ operand
  | .swap => operand
  | .cas => if old = compare then operand else old
  | .min => if old.slt operand then old else operand
  | .max => if old.slt operand then operand else old
  | .minu => if old.ult operand then old else operand
  | .maxu => if old.ult operand then operand else old

def State.localAtomic (s : State) (i : Issue) (op : AmoOp) (xd xa xb : Reg) : State :=
  s.issue i (wordR 0x27 xd xa xb (amoFn op)) fun s =>
    let c := s.ctx i.core i.ctx
    let addr := c.x xa
    s.localAccess i addr 8 fun s =>
      let a := storeAddr i.core addr.toNat
      let old := BitVec.ofNat 64 (bytesToNat (s.bytes a 8))
      (s.writeSram a (natToBytes 8 (amoApply op old (c.x xb) (c.x xd)).toNat) (s.producing i.core i.ctx)).updCtx
        i.core i.ctx fun c => (c.setX xd old).advance

/-! ### Global accesses (R105, R107) -/

/-- A global address that a thread may use: bits 63:54 zero, in a range the map assigns other than the register range,
naming a cluster that exists and no steward line (R45, R105, R258, R442, assumption 9). -/
def State.mappedAddr (s : State) (addr : Word) : Bool :=
  let a := addr.toNat % 2 ^ 48
  decide (addr.toNat < 2 ^ 54) &&
    (match placeSpan a with
     | none => false
     | some _ =>
       match placeOf (s.translate a) with
       | .dram ch off => !stewardRegion ch off
       | .slice p _ => coreExists p
       | .store c _ => coreExists c
       | _ => false)

/-- The checks of a global access of `n` bytes: MISALIGNED, then UNMAPPED. -/
def State.globalFault (s : State) (addr : Word) (n : Nat) : Option (Nat × Status) :=
  if addr.toNat % n ≠ 0 then some (causeMisaligned, 0x08)
  else if !s.mappedAddr addr then some (causeUnmapped, 0x02)
  else none

def State.threadSource (s : State) (core ctx : Nat) : Source := .thread core ctx (s.ctx core ctx).serial

/-- A global load: the thread blocks in WAIT_MEM until its data returns (R107). -/
def State.globalLoad (s : State) (i : Issue) (op : Nat) (xd xa : Reg) (imm : BitVec 16) (n : Nat) (signed : Bool) : State :=
  s.issue i (wordI op xd xa imm) fun s =>
    let addr := (s.ctx i.core i.ctx).x xa + sext16 imm
    match s.globalFault addr n with
    | some (cause, st) => s.faultAt i.core i.ctx cause st addr.toNat
    | none =>
      let (id, s) := s.sendReq (s.threadSource i.core i.ctx) (.read n) addr.toNat
      s.updCtx i.core i.ctx (·.block .waitMem (.load id xd n signed))

/-- A posted global store: the thread goes on (R107). -/
def State.globalStore (s : State) (i : Issue) (op : Nat) (xd xa : Reg) (imm : BitVec 16) (n : Nat) : State :=
  s.issue i (wordI op xd xa imm) fun s =>
    let c := s.ctx i.core i.ctx
    let addr := c.x xa + sext16 imm
    match s.globalFault addr n with
    | some (cause, st) => s.faultAt i.core i.ctx cause st addr.toNat
    | none =>
      (s.sendReq (s.threadSource i.core i.ctx) (.write (natToBytes n (c.x xd).toNat)) addr.toNat).2.updCtx
        i.core i.ctx (·.advance)

def State.globalAtomic (s : State) (i : Issue) (op : AmoOp) (xd xa xb : Reg) : State :=
  s.issue i (wordR 0x1F xd xa xb (amoFn op)) fun s =>
    let c := s.ctx i.core i.ctx
    let addr := c.x xa
    match s.globalFault addr 8 with
    | some (cause, st) => s.faultAt i.core i.ctx cause st addr.toNat
    | none =>
      let (id, s) := s.sendReq (s.threadSource i.core i.ctx) (.atomic op (c.x xb) (c.x xd)) addr.toNat
      s.updCtx i.core i.ctx (·.block .waitMem (.atomic id xd))

/-! ### Commands (R111 to R114) -/

/-- Counter room for a command with W = 0: it would not rise above 63 (R113). -/
def Ctx.counterRoom (c : Ctx) (wc : BitVec 2) (w : Bool) : Bool := w || c.counter wc ≠ 63

/-- The thread's side of a command that its unit takes: W = 0 counts and writes 0 into XD; W = 1 waits (R111, R112).
The target is where the completion goes. -/
def State.commandTaken (s : State) (core ctx : Nat) (xd : Reg) (wc : BitVec 2) (w : Bool) : Target × State :=
  let (n, s) := s.token
  let c := s.ctx core ctx
  if w then (.wait core ctx n, s.setCtx core ctx (c.block .waitCmd (.command n xd)))
  else (.counter core ctx wc, s.setCtx core ctx ((c.setCounter wc (c.counter wc + 1)).setX xd 0).wake.advance)

/-- A command that finds no room leaves its thread in WAIT_UNIT (R113). -/
def State.awaitUnit (s : State) (core ctx : Nat) (u : UnitCmd) : State :=
  s.updCtx core ctx (·.block .waitUnit (.unit u))

/-- The 64 bytes at a local address, as eight words (R114). -/
def State.words8 (s : State) (a : Nat) : List Word :=
  (List.range 8).map fun j => BitVec.ofNat 64 (bytesToNat (s.bytes (a + 8 * j) 8))

/-- The lines of a 64-byte local buffer, checked for a reader (R450). -/
def State.checkBuffer (s : State) (core addr : Nat) (who : Agent) : SramOutcome × State :=
  match s.checkSram (storeAddr core addr / 64) who with
  | (.ok, s) =>
    if addr % 64 = 0 then (.ok, s) else s.checkSram (storeAddr core (addr + 63) / 64) who
  | r => r

/-- A command that has lost a bank of its descriptor comes again on the next beat; one held in WAIT_UNIT stays there (R238). -/
def State.bankAgain (s : State) (core ctx : Nat) : State :=
  s.updCtx core ctx fun c => if c.state = .ready then { c with nextBeat := c.nextBeat - 3, counted := true } else c

/-- A command's descriptor read at issue: its range, its banks' beat (R238), then its lines, then the body with its words. -/
def State.withDescriptor (s : State) (core ctx : Nat) (addr : Word) (body : State → List Word → State) : State :=
  if 0x40000 < addr.toNat + 64 then s.faultAt core ctx causeLocalRange 0x02 addr.toNat
  else
    match s.takeBanks core 0 [addr.toNat, addr.toNat + 63] with
    | (false, s) => s.bankAgain core ctx
    | (true, s) =>
      match s.checkBuffer core addr.toNat (.thread core ctx) with
      | (.ok, s) =>
        let lines := if addr.toNat % 64 = 0 then 1 else 2
        body (s.charge core (s.ctx core ctx).taskQueue.toNat 4 lines) (s.words8 (storeAddr core addr.toNat))
      | (.waiting, s) => s.awaitLine core ctx (storeAddr core addr.toNat / 64)
      | (.failed, s) => s.faultAt core ctx 0x08 0x0A addr.toNat

/-- The rerun entry of the task whose descriptor this is (R452). -/
def State.descRerun (s : State) (core desc : Nat) : Option Nat := ((s.core core).dma.find? (·.id == desc)).bind (·.rerun)

/-- A descriptor put into a core's DMA engine; a multicast's cluster set is read now (R368). -/
def State.acceptDma (s : State) (core : Nat) (d : DmaDesc) : State :=
  let w (i : Nat) : Nat := (d.words.getD i 0).toNat
  let multicast := w 0 / 2 ^ 40 % 256 = 2 && w 1 / 2 ^ 60 = 4 && w 3 / 2 ^ 32 ≠ 0 && d.status.isNone
  let (r, s) := if multicast then s.acceptRecord (w 4 % 2 ^ 48) (.dma core d.id) else (none, s)
  let k := s.core core
  s.setCore core { k with dma := k.dma ++ [{ d with record := r }] }

/-- The DMA command (R115): the engine holds up to 32 descriptors; a type it does not accept completes with BOUNDS. -/
def State.dmaCommand (s : State) (core ctx : Nat) (xd xa : Reg) (wc : BitVec 2) (w : Bool) : State :=
  let c := s.ctx core ctx
  if !c.counterRoom wc w || 32 ≤ (s.core core).dma.length then s.awaitUnit core ctx (.dma xd xa wc w)
  else
    s.withDescriptor core ctx (c.x xa) fun s words =>
      let (target, s) := s.commandTaken core ctx xd wc w
      let (id, s) := s.token
      let type := (words.headD 0).toNat / 2 ^ 40 % 256
      let accepted := type == 2 || type == 3 || type == 5 || type == 7
      s.acceptDma core { id := id, words := words, target := target, ctx := some ctx, serial := (s.ctx core ctx).serial,
                         status := if accepted then none else some 0x02, rerun := (s.ctx core ctx).rerun }

/-- The sync command ADD or ARM (R117). -/
def State.syncCommand (s : State) (core ctx : Nat) (arm : Bool) (xd xa xb : Reg) (wc : BitVec 2) (w : Bool) : State :=
  let c := s.ctx core ctx
  if !c.counterRoom wc w then s.awaitUnit core ctx (.sync arm xd xa xb wc w)
  else
    let object := (c.x xa).toNat % 2 ^ 19
    let value : Word32 := (c.x xb).truncate 32
    let (target, s) := s.commandTaken core ctx xd wc w
    s.sendSync (if arm then .arm else .add) object value target

/-- The VEC command (R121, R125): it counts on WC of VCFG and, with SYNC = 1, also waits. -/
def State.vecCommand (s : State) (core ctx : Nat) (op : VOp) (xd xa xb xc : Reg) : State :=
  let c := s.ctx core ctx
  let wc : BitVec 2 := (c.vcfg >>> 25).truncate 2
  let sync := c.vcfg.getLsbD 27
  if !c.counterRoom wc false || 8 ≤ (s.core core).vec.length then s.awaitUnit core ctx (.vec op xd xa xb xc)
  else
    let (n, s) := s.token
    let k := s.core core
    let s := s.setCore core { k with vec := k.vec ++
      [{ op := op, ctx := ctx, vcfg := c.vcfg, xd := c.x xd, xa := c.x xa, xb := c.x xb, xc := c.x xc, token := n, word := c.word }] }
    let c := c.setCounter wc (c.counter wc + 1)
    s.setCtx core ctx (if sync then c.block .waitCmd (.vector n) else c.wake.advance)

/-- A status of the shared table (R429). -/
def isStatus (v : Status) : Bool := v.toNat ≤ 0x0C

/-- The status with which a task ends (R92): a fault's first, then EXIT's, STORE_STATUS and the four counters'. -/
def Ctx.finalStatus (c : Ctx) : Status :=
  match c.ending with
  | .fault st => st
  | e =>
    let ex : Status := match e with
      | .exit st => if isStatus st then st else 0x08
      | _ => 0
    if ex ≠ 0 then ex
    else if c.storeStatus ≠ 0 then c.storeStatus
    else ((List.range 4).map fun i => c.asyncStatus (BitVec.ofNat 2 i)).find? (· ≠ 0) |>.getD 0

end Sys2Proof.Machine
end

