-- ==== Sys2Proof/Machine/QueueOps.lean ====
section
/-! DEFINITION. Queues, their control blocks and indices, pushes and doorbells, descriptors taken and tasks started
(spec file 10_queues_and_scheduler.md). -/
namespace Sys2Proof.Machine

/-! ### Rings -/

/-- The ring fields are valid: RING_LOG2 from 4 to 16, RING_SPACE not 3, the ring 64-byte aligned and wholly in its
place (R402, R407, R411). -/
def Queue.ringValid (k : Queue) (q : Nat) : Bool :=
  let n := k.ringLog2.toNat
  let a := k.ringAddr.toNat
  let bytes := 64 * 2 ^ n
  4 ≤ n && n ≤ 16 && a % 64 == 0 &&
  (if k.ringSpace = 0 then a + bytes ≤ 0x40000
   else if k.ringSpace = 1 then
     (match placeOf a with
      | .slice p _ => p / 16 == queueCore q / 16 && rangeInPlace a bytes
      | _ => false)
   else if k.ringSpace = 2 then
     (match placeOf a with
      | .dram ch _ => ch == queueCore q && rangeInPlace a bytes
      | _ => false)
   else false)

/-- The queue id names a cluster that exists (R406). -/
def queueExists (q : Nat) : Bool := q < 2 ^ 19 && coreExists (queueCore q)

/-- The slot of a descriptor number is occupied (R404): handed over and not taken, or taken and not completed. -/
def Queue.occupied (k : Queue) (i : BitVec 32) : Bool :=
  let m := 2 ^ k.ringLog2.toNat
  (k.pi - k.ci).toNat ≥ m || k.taken.any fun t => t.index % m == i.toNat % m

def Queue.full (k : Queue) : Bool := k.occupied k.pi

/-- Word 0 of the descriptor at a number, as a checked read of its line gives it: none where the line cannot be read (R437, R447, R450). -/
def State.readableWord0 (s : State) (q i : Nat) : Option Word :=
  let a := s.translate (s.slotAddr q i)
  let word (bs : List Byte) : Word := BitVec.ofNat 64 (bytesToNat bs)
  match placeOf a with
  | .dram _ _ =>
    match classify (s.checkOf (a / 64)) with
    | .clean => some (word (s.bytes a 8))
    | .corrected sym v =>
      some (word (if sym < 8 then (s.bytes a 8).set sym ((s.bytes a 8).getD sym 0 ^^^ v) else s.bytes a 8))
    | _ => none
  | _ => if s.crcOk (a / 64) then some (word (s.bytes a 8)) else none

/-- The same; 0 stands for a head that cannot be read, which waits for nothing before it is taken and completes with the failing read's
status (R710). -/
def State.peekWord0 (s : State) (q i : Nat) : Word := (s.readableWord0 q i).getD 0

/-- The channel controller's read of a slot's line for the ledger: what it corrects or cannot read counts (R427, R437, R450). -/
def State.noteWord0 (s : State) (q i : Nat) : State :=
  let a := s.translate (s.slotAddr q i)
  match placeOf a with
  | .dram ch off => (s.readDramLine ch off .queue).2.2.countLine ch off false false
  | p => if s.crcOk (a / 64) then s else s.towerWrap 0xB801 p.tower 1

/-- Descriptors from `i` on entered in the core's energy ledger; where word 0 cannot be read, the spec gives the class and the time no
value (R427; assumption 90, DESIGN CHOICE: a free value). -/
def State.enterLedger (s : State) (q : Nat) : Nat → BitVec 32 → State
  | 0, _ => s
  | n + 1, i =>
    let (free, t) := s.token
    let w := ((s.readableWord0 q i.toNat).getD (Config.freeWord free)).toNat
    let t := t.noteWord0 q i.toNat
    let c := t.core (queueCore q)
    let e : LedgerEntry := { queue := q, index := i.toNat, eclass := w / 2 ^ 50 % 8, estTime := w / 2 ^ 24 % 2 ^ 16 }
    (t.setCore (queueCore q) { c with ledger := c.ledger ++ [e] }).enterLedger q n (i + 1)

/-! ### Producers -/

/-- A doorbell error counted; an error of the ring also raises QUEUE_ERROR (R409 to R411). -/
def State.doorbellError (s : State) (q : Nat) (event : Bool) : State :=
  let s := s.towerSat 0xB704 (q / 2 ^ 16) 1
  if event then s.raise 0x09 (q / 2 ^ 16) q else s

/-- A doorbell applied at the channel controller (R409, R411, R431). -/
def State.applyDoorbell (s : State) (q : Nat) (new : BitVec 32) : State :=
  let k := s.queue q
  if !s.inService (queueCore q) || k.producer then s.doorbellError q false
  else if !k.ringValid q then s.doorbellError q true
  else if (new - k.ci).toNat > 2 ^ k.ringLog2.toNat then s.doorbellError q true
  else if new = k.pi then s
  else if (new - k.ci).toNat < (k.pi - k.ci).toNat then s.doorbellError q true         -- backward
  else (s.setQueue q { k with pi := new }).enterLedger q (new - k.pi).toNat k.pi

/-- A pushed descriptor as the ring takes it: bit 55 of word 0 forced to 0. -/
def pushBytes (bytes : List Byte) : List Byte := bytes.set 6 (bytes.getD 6 0 &&& 0x7F)

/-- A push of 64 bytes at the queue (R409, R412, R431): the reply is 0, 0x100 for a full ring, or a status. -/
def State.pushQueue (s : State) (q : Nat) (bytes : List Byte) : Word × State :=
  let k := s.queue q
  let core := queueCore q
  if !queueExists q then (0x02, s)
  else if s.coreStatus core ≠ 0 then ((s.coreStatus core).zeroExtend 64, s)
  else if !k.producer || !k.ringValid q then (0x02, s)
  else if k.full then (0x100, s)
  else
    -- a ring in DRAM is written through its channel's window (R708)
    match s.writeRange (s.slotAddr q k.pi.toNat) (pushBytes bytes) none (if k.ringSpace = 2 then .pusher q else .other) with
    | (0, s) => (0, (s.setQueue q { s.queue q with pi := k.pi + 1 }).enterLedger q 1 k.pi)
    | (st, s) => (st.zeroExtend 64, s)

/-- A push performed as one step at its queue: another that is under way goes before it (R412). -/
def State.withPush (s : State) (q : Nat) (bytes : List Byte) (body : State → Word → State) : State :=
  if s.reqs.any fun r => r.src == .unit (.pusher q) && r.kind != .write (pushBytes bytes) then s
  else
    s.unit (queueCore q) (.pusher q) fun s =>
      let (r, s) := s.pushQueue q bytes
      body s r

/-! ### Queue control blocks -/

def State.switchWidth (s : State) (q : Nat) : BitVec 8 := (s.queue q).switchWidth.getD s.bootSwitchWidth

/-- Something of the head descriptor's unit is free (R424). -/
def State.unitAccepts (s : State) (core type : Nat) : Bool :=
  let c := s.core core
  let ofCore (t : Target) : Bool := match t with
    | .ring q _ => queueCore q == core
    | _ => false
  match type with
  | 1 => (List.range 256).any fun k => (Map.get {} c.ctxs k).state == .free
  | 2 | 3 | 5 | 7 => c.dma.length < 32
  | 4 =>
    -- sync descriptors in flight: WAITs that hold their queue among them
    let waits := (List.range 32).filter fun n => match (s.queue (core * 32 + n)).waiting with
      | some i => s.syncMsgs.all fun m => m.target != .ring (core * 32 + n) i
      | none => false
    (s.syncMsgs.filter fun m => ofCore m.target).length + waits.length + (s.leaseOps.filter fun o => ofCore o.target).length < 8
  | 6 => s.bindOps.all fun b => b.core != core
  | _ => true

/-- The head of an enabled queue with descriptors can be taken (R424). -/
def State.headReady (s : State) (q : Nat) : Bool :=
  let k := s.queue q
  let w := s.peekWord0 q k.ci.toNat
  s.reg 0x9002 (coreField (queueCore q) + 1) ≠ 1 &&      -- a field that drains takes nothing (R621)
  (!w.getLsbD 54 || k.taken.isEmpty) && s.unitAccepts (queueCore q) (w.toNat / 2 ^ 40 % 256)

/-- STATE of a queue (R408): the highest code that applies. -/
def State.queueState (s : State) (q : Nat) : Nat :=
  let k := s.queue q
  if s.inService (queueCore q) && !s.fieldUp (coreField (queueCore q)) then 7
  else if !s.inService (queueCore q) then 6
  else if k.paused ≠ 0 then 5
  else if !k.enable then 0
  else if k.waiting.isSome then 4
  else if k.pi = k.ci then 1
  else if s.headReady q then 2
  else 3

/-- The words of a control block as they read (R406); a cluster that does not exist reads as zero. -/
def State.qcbWord (s : State) (q w : Nat) : Word :=
  let k := s.queue q
  let b (x : Bool) : Nat := if x then 1 else 0
  if !queueExists q then 0
  else
    match w with
    | 0 => BitVec.ofNat 64 (b k.enable * 2 ^ 63 + b k.producer * 2 ^ 62 + k.priority.toNat * 2 ^ 60 +
        k.ringSpace.toNat * 2 ^ 58 + k.ringLog2.toNat * 2 ^ 53 + b k.notifyMsix * 2 ^ 52 + b k.notifyRecord * 2 ^ 51 +
        b k.notifySync * 2 ^ 50 + (s.switchWidth q).toNat * 2 ^ 42 + k.msixVector.toNat * 2 ^ 30)
    | 1 => k.ringAddr.zeroExtend 64
    | 2 => k.recordAddr
    | 3 => k.notifyObject.zeroExtend 64
    | 4 => k.pi ++ k.ci
    | 5 => BitVec.ofNat 64 (k.completed.toNat * 2 ^ 32 + s.queueState q * 2 ^ 29)
    | _ => 0

def State.queueConfigError (s : State) (q : Nat) : State := s.towerSat 0xB706 (q / 2 ^ 16) 1

/-- Word 0 applied (R407): while ENABLE reads 1 only ENABLE, PRIORITY, SWITCH_WIDTH and the NOTIFY bits change; a write
that sets ENABLE takes effect only when every condition holds. -/
def State.writeQcb0 (s : State) (q : Nat) (v : Word) : State :=
  let k := s.queue q
  let n := v.toNat
  let always : Queue := { k with
    priority := BitVec.ofNat 2 (n / 2 ^ 60)
    switchWidth := some (BitVec.ofNat 8 (n / 2 ^ 42))
    notifyMsix := v.getLsbD 52
    notifyRecord := v.getLsbD 51
    notifySync := v.getLsbD 50 }
  let all : Queue :=
    if k.enable then always
    else { always with
      producer := v.getLsbD 62
      ringSpace := BitVec.ofNat 2 (n / 2 ^ 58)
      ringLog2 := BitVec.ofNat 5 (n / 2 ^ 53)
      msixVector := BitVec.ofNat 11 (n / 2 ^ 30) }
  if v.getLsbD 63 then
    if k.enable || (all.ringValid q && n % 2 ^ 30 == 0 && !v.getLsbD 41 && s.inService (queueCore q)) then
      s.setQueue q { all with enable := true }
    else (s.queueConfigError q).raise 0x09 (q / 2 ^ 16) q
  else s.setQueue q { all with enable := false, eligibleSince := none }

/-- Every descriptor from CI to PI completed with a status without running (R350, R408). -/
def State.flushAll (s : State) (q : Nat) (st : Status) : Nat → State
  | 0 => s
  | n + 1 =>
    let k := s.queue q
    if k.ci = k.pi then s
    else
      let i := k.ci.toNat
      let s := s.setQueue q { k with ci := k.ci + 1, taken := k.taken ++ [⟨i, s.peekWord0 q i, none⟩] }
      (s.completeRing q i st).flushAll q st n

/-- QCTL RESET_INDICES (R408). -/
def State.resetIndices (s : State) (q : Nat) : State :=
  let k := s.queue q
  if k.enable || !k.taken.isEmpty then s.queueConfigError q
  else
    let s := (s.setQueue q { k with pi := 0, ci := 0, completed := 0 }).orphanFrames q
    let c := s.core (queueCore q)
    s.setCore (queueCore q) { c with ledger := c.ledger.filter fun e => e.queue != q }

/-- QCTL FLUSH (R408): accepted while ENABLE reads 0 and every taken descriptor is a sync WAIT that holds the queue,
which is then first completed with ABORTED. -/
def State.flush (s : State) (q : Nat) : State :=
  let k := s.queue q
  if k.enable || !(k.taken.all fun t => k.waiting == some t.index) then s.queueConfigError q
  else
    let s := match k.waiting with
      | some i =>
        ({ s with syncMsgs := s.syncMsgs.filter fun m => m.target != Target.ring q i }).completeRing q i 0x08
      | none => s
    let k := s.queue q
    s.flushAll q 0x08 (k.pi - k.ci).toNat

/-- A whole word of a control block written (R407, R408). -/
def State.writeQcbWord (s : State) (q w : Nat) (v : Word) : State :=
  let k := s.queue q
  if !queueExists q then s
  else
    match w with
    | 0 => s.writeQcb0 q v
    | 1 => if k.enable then s else s.setQueue q { k with ringAddr := v.truncate 48 }
    | 2 => if k.enable then s else s.setQueue q { k with recordAddr := v }
    | 3 => if k.enable then s else s.setQueue q { k with notifyObject := v.truncate 19 }
    | 6 =>
      if v = 0 then s
      else if v = 1 then s.resetIndices q
      else if v = 2 then s.flush q
      else s.queueConfigError q
    | _ => s

/-- A write of the low half, the high half or both of a word: each half not covered keeps its value (R707). -/
def mergeHalves (old v : Word) (low high : Bool) : Word :=
  let lo : BitVec 32 := if low then v.truncate 32 else old.truncate 32
  let hi : BitVec 32 := if high then (v >>> 32).truncate 32 else (old >>> 32).truncate 32
  hi ++ lo

/-! ### The register range as the host and other devices reach it (R406, R707) -/

/-- Bytes of the queue control blocks; the register range beyond them is reserved. -/
def qcbSpan : Nat := 0x2000000

/-- A byte of the register range. -/
def State.registerByte (s : State) (off : Nat) : Byte :=
  if off < qcbSpan then BitVec.ofNat 8 ((s.qcbWord (off / 64) (off / 8 % 8)).toNat / 2 ^ (8 * (off % 8))) else 0

def State.registerBytes (s : State) (off n : Nat) : List Byte := (List.range n).map fun i => s.registerByte (off + i)

/-- The write covers whole, naturally aligned 4-byte halves. -/
def wholeHalves (off n : Nat) : Bool := off % 4 == 0 && n % 4 == 0

/-- One word of a write: merged, and applied as a full-word write. -/
def State.writeRegisterWord (s : State) (off : Nat) (bytes : List Byte) (w : Nat) : State :=
  let covered (p : Nat) : Bool := decide (off ≤ p) && decide (p < off + bytes.length)
  let v := BitVec.ofNat 64 (bytesToNat ((List.range 8).map fun j =>
    if covered (8 * w + j) then bytes.getD (8 * w + j - off) 0 else 0))
  if 8 * w < qcbSpan then
    s.writeQcbWord (w / 8) (w % 8) (mergeHalves (s.qcbWord (w / 8) (w % 8)) v (covered (8 * w)) (covered (8 * w + 4)))
  else s

/-- A write of whole halves, word by word in ascending order. -/
def State.writeRegisters (s : State) (off : Nat) (bytes : List Byte) : State :=
  ((List.range ((off + bytes.length + 7) / 8 - off / 8)).map (off / 8 + ·)).foldl
    (fun (s : State) w => s.writeRegisterWord off bytes w) s

/-! ### Tasks -/

/-- The lowest-numbered FREE context (R91). -/
def Core.freeCtx (c : Core) : Option Nat := (List.range 256).find? fun k => (Map.get {} c.ctxs k).state == .free

/-- An entry of the cluster's rerun store for a restartable task (R452): a new one, or the oldest completed one's; a reader that still
waited for that one's rerun has no producer any more (R453). -/
def State.takeRerunEntry (s : State) (core ctx q : Nat) (words : List Word) : Option Nat × State :=
  let cl := clusterId core
  let es := Map.get [] s.mem.reruns cl
  let (id, s') := s.token
  let e : RerunEntry := { id := id, words := words, queue := q, core := core, ctx := ctx, running := true }
  let put (es : List RerunEntry) : State := { s' with mem := { s'.mem with reruns := Map.set [] s'.mem.reruns cl es } }
  if es.length < 64 then (some id, put (es ++ [e]))
  else
    match (es.filter (!·.running)).foldl (fun b x => match b with
        | none => some x
        | some y => if x.endedAt < y.endedAt then some x else some y) none with
    | some old => (some id, (put (es.filter (·.id != old.id) ++ [e])).endRerun old.id false)
    | none => (none, s)

/-- The thread of a launch started in context `k` (R91). -/
def State.startThread (s : State) (core k : Nat) (words : List Word) (q : Nat) (entry : Nat) (launch rerun : Option Nat) :
    State :=
  let record := 0x3C000 + k * 0x40
  let s := s.writeSram (storeAddr core record) (words.flatMap fun w => natToBytes 8 w.toNat) none
  let (n, s) := s.token
  let old := s.ctx core k
  let c : Ctx := {
    regs := []
    pc := BitVec.ofNat 18 entry
    state := .ready
    issueClass := (words.getD 1 0).getLsbD 63
    taskQueue := BitVec.ofNat 19 q
    launch := launch
    rerun := rerun
    serial := n
    nextBeat := old.nextBeat }
  let c := ((c.setX 1 (BitVec.ofNat 64 record)).setX 2 (BitVec.ofNat 64 (s.group.member * 2 ^ 19 + q))).setX 3
    (BitVec.ofNat 64 k)
  s.setCtx core k c

/-- The HEN_MAP bit of a channel (R8 to R10). -/
def State.hensPresent (s : State) (ch : Nat) : Bool :=
  s.dm.published && coreExists ch && !s.dm.hens.contains ch && !s.dm.channels.contains ch

/-- The entry point of a launch (R323, R415): `none` completes at once with OK. -/
def State.launchEntry (s : State) (q : Nat) (w1 : Word) : Option (Nat × Bool) :=
  let width := w1.toNat / 2 ^ 54 % 256
  let hen := w1.toNat / 2 ^ 36 % 2 ^ 18
  let entry := w1.toNat % 2 ^ 18
  if !w1.getLsbD 62 then some (entry, false)
  else if width = 0 then none
  else if width ≤ (s.switchWidth q).toNat && s.hensPresent (queueCore q) then some (hen, true)
  else some (entry, false)

/-- A launch performed (R91, R415, R419). -/
def State.launchTask (s : State) (q i : Nat) (words : List Word) : State :=
  let core := queueCore q
  let w0 := words.getD 0 0
  let w1 := words.getD 1 0
  let bad := w0.toNat / 2 ^ 48 % 4 ≠ 0 || w1.toNat / 2 ^ 18 % 2 ^ 18 ≠ 0 ||
    w1.toNat % 4 ≠ 0 || (w1.getLsbD 62 && w1.toNat / 2 ^ 36 % 4 ≠ 0)
  if bad then s.completeRing q i 0x02
  else
    match s.launchEntry q w1, (s.core core).freeCtx with
    | none, _ => s.completeRing q i 0
    | some _, none => s
    | some (entry, atHen), some k =>
      let (rerun, s) := if w0.getLsbD 53 then s.takeRerunEntry core k q words else (none, s)
      let s := s.startThread core k words q entry (some i) rerun
      let s := s.towerWrap 0xB701 (coreTower core) 1
      if atHen then s.towerWrap 0xB702 (coreTower core) 1 else s

/-- The status that check 1 of R419 gives word 0: TYPE assigned, reserved bits zero, RESTARTABLE only in a launch. -/
def word0Status (w : Word) : Status :=
  let type := w.toNat / 2 ^ 40 % 256
  if type = 0 || 7 < type || w.toNat / 2 ^ 48 % 4 ≠ 0 || (w.getLsbD 53 && type ≠ 1) then 0x02 else 0

/-- A sync descriptor performed (R417): sync operations go to their engine, lease operations to the lease unit. -/
def State.syncDescriptor (s : State) (q i : Nat) (words : List Word) : State :=
  let w1 := (words.getD 1 0).toNat
  let w2 := (words.getD 2 0).toNat
  let w3 := (words.getD 3 0).toNat
  let op := w1 / 2 ^ 60
  let lease := op = 4 || op = 5
  let others := (words.drop 4).any (· ≠ 0)
  let reserved := w1 / 2 ^ 32 % 2 ^ 28 ≠ 0 || others ||
    (if lease then w2 / 2 ^ 11 ≠ 0 || w1 % 2 ^ 32 ≠ 0 || (if op = 4 then w3 / 2 ^ 48 ≠ 0 else w3 ≠ 0)
     else w2 / 2 ^ 19 ≠ 0 || w3 ≠ 0 || (op = 1 && w1 % 2 ^ 32 ≠ 0))
  let target : Target := .ring q i
  if !(op = 0 || op = 1 || op = 3 || lease) || reserved then s.completeRing q i 0x02
  else if lease then
    let (id, s) := s.token
    let (r, s) := if op = 4 then s.acceptRecord (w3 % 2 ^ 48) (.dma (queueCore q) id) else (none, s)
    let (a, b) := (clusterId (queueCore q), leaseCluster (w2 % 2 ^ 11))
    let s := if s.meshReaches a b then s.post { id := id, channel := 2, src := a, dsts := [b], flits := 1, core := some (queueCore q) } else s
    { s with leaseOps := s.leaseOps ++ [⟨id, op == 4, w2 % 2 ^ 11, w3 % 2 ^ 48, queueCore q, target, r, none⟩] }
  else
    let s := s.sendSync (if op = 0 then .add else if op = 1 then .wait else .arm) (w2 % 2 ^ 19)
      (BitVec.ofNat 32 w1) target
    if op = 1 then s.setQueue q { s.queue q with waiting := some i, waitObject := w2 % 2 ^ 19 } else s

/-- A descriptor given to the unit that performs it (R413, R419). -/
def State.perform (s : State) (q i : Nat) (words : List Word) : State :=
  let w0 := words.getD 0 0
  let core := queueCore q
  if w0.getLsbD 55 then (s.towerSat 0xB705 (coreTower core) 1).completeRing q i 0x02      -- stale (R430)
  else if word0Status w0 ≠ 0 then s.completeRing q i (word0Status w0)
  else
    match w0.toNat / 2 ^ 40 % 256 with
    | 1 => s.launchTask q i words
    | 4 => s.syncDescriptor q i words
    | 6 => { s with bindOps := s.bindOps ++ [⟨core, words, .ring q i⟩] }
    | _ =>
      let (id, s) := s.token
      s.acceptDma core { id := id, words := words, target := .ring q i }

/-! ### The dispatcher -/

/-- Eligible under R424. -/
def State.eligible (s : State) (q : Nat) : Bool :=
  let k := s.queue q
  k.enable && k.waiting.isNone && k.paused == 0 && k.pi ≠ k.ci && s.headReady q

/-- The level of a queue (R425). -/
def Queue.level (k : Queue) : Nat := if k.aged then 4 else k.priority.toNat

/-- The queue chosen at one level: round robin after the last taken (R425). -/
def State.pickLevel (s : State) (core lvl : Nat) : Option Nat :=
  let last := Map.get 31 (s.core core).lastTaken lvl
  ((List.range 32).map fun i => (last + 1 + i) % 32).find? fun n =>
    let q := core * 32 + n
    s.eligible q && (s.queue q).level == lvl

/-- pick of R425. -/
def State.pick (s : State) (core : Nat) : Option (Nat × Nat) :=
  [4, 3, 2, 1, 0].findSome? fun lvl => (s.pickLevel core lvl).map fun n => (lvl, n)

/-- The head of a queue taken: read, counted, and performed or completed with the read's status (R405, R424, R710). -/
def State.takeHead (s : State) (core lvl n : Nat) : State :=
  let q := core * 32 + n
  let k := s.queue q
  let i := k.ci.toNat
  let (r, s) := s.readRange (s.slotAddr q i) 64 (.dispatcher core)
  if r.waiting then s
  else
    let words := (List.range 8).map fun j => BitVec.ofNat 64 (bytesToNat ((r.bytes.drop (8 * j)).take 8))
    let w0 : Word := if r.status = 0 then words.getD 0 0 else 0
    let s := s.setQueue q { s.queue q with
      ci := k.ci + 1
      taken := (s.queue q).taken ++ [⟨i, w0, none⟩]
      aged := false
      eligibleSince := none }
    let c := s.core core
    let s := s.setCore core { c with
      lastTaken := Map.set 31 c.lastTaken lvl n
      ledger := c.ledger.map fun e => if e.queue = q ∧ e.index = i then { e with startedAt := some s.run } else e }
    let t := coreTower core
    let s := s.towerWrap 0xB700 t 1
    let s := if lvl = 4 then s.towerWrap 0xB703 t 1 else s
    if r.status = 0 then s.perform q i words else s.completeRing q i r.status

end Sys2Proof.Machine
end

