-- ==== Sys2Proof/Machine/RecoveryOps.lean ====
section
/-! DEFINITION. The end of a task, its restart and its rerun (R92, R453, R454). -/
namespace Sys2Proof.Machine

/-- A rerun entry changed. -/
def State.updRerun (s : State) (cluster id : Nat) (g : RerunEntry → RerunEntry) : State :=
  let es := Map.get [] s.mem.reruns cluster
  { s with mem := { s.mem with
      reruns := Map.set [] s.mem.reruns cluster (es.map fun e => if e.id = id then g e else e) } }

/-- A task ends (R92): its completion is written, its context becomes FREE; a restart under R453 starts it again
instead; a rerun's end decides the recoveries that wait for it (R454). -/
def State.endTask (s : State) (core k : Nat) (st : Status) : State :=
  let c := s.ctx core k
  let s := s.setCtx core k { c with state := .free, wait := .none, ending := .none, restart := false }
  let cl := clusterId core
  if c.restart then
    match c.rerun.bind (s.rerunEntry cl), (s.core core).freeCtx with
    | some e, some k' =>
      let s := s.startThread core k' e.words c.taskQueue.toNat
        (match s.launchEntry c.taskQueue.toNat (e.words.getD 1 0) with
          | some (a, _) => a
          | none => 0) c.launch (some e.id)
      s.updRerun cl e.id fun e => { e with ctx := k', running := true }
    | _, _ => s
  else
    let s := match c.rerun with
      | some id =>
        let s := s.updRerun cl id fun e => { e with running := false, endedAt := s.run }
        if c.launch.isNone then s.endRerun id (st == 0) else s
      | none => s
    match c.launch with
    | some i => s.completeRing c.taskQueue.toNat i st
    | none => s

end Sys2Proof.Machine
end

