-- ==== Sys2Proof/Machine/Commands.lean ====
section
/-! DEFINITION. Instructions that act on units, queues, counters, fences and special registers (R111 to R129, R140),
and the end of tasks (R92, R142). -/
namespace Sys2Proof.Machine

/-- Passes the descriptor at XA to the core's DMA engine (R115). -/
def execDma (i : Issue) (xd xa : Reg) (wc : BitVec 2) (w : Bool) (s : State) : Host.Outcome State Fault Refusal :=
  .next (s.issue i (wordC 0x30 xd xa 0 wc w 0) fun s => s.dmaCommand i.core i.ctx xd xa wc w)

/-- SYNC ADD adds XB bits 31:0 to the object's count (R117). -/
def execSyncAdd (i : Issue) (xd xa xb : Reg) (wc : BitVec 2) (w : Bool) (s : State) : Host.Outcome State Fault Refusal :=
  .next (s.issue i (wordC 0x33 xd xa xb wc w 0x00) fun s => s.syncCommand i.core i.ctx false xd xa xb wc w)

/-- SYNC ARM sets the target to XB bits 31:0 and the count to 0 (R117). -/
def execSyncArm (i : Issue) (xd xa xb : Reg) (wc : BitVec 2) (w : Bool) (s : State) : Host.Outcome State Fault Refusal :=
  .next (s.issue i (wordC 0x33 xd xa xb wc w 0x03) fun s => s.syncCommand i.core i.ctx true xd xa xb wc w)

/-- SYNC WAIT: the thread is in WAIT_SYNC until the object releases (R117). -/
def execSyncWait (i : Issue) (xd xa : Reg) (s : State) : Host.Outcome State Fault Refusal :=
  .next (s.issue i (wordC 0x33 xd xa 0 0 false 0x01) fun s =>
    let object := ((s.ctx i.core i.ctx).x xa).toNat % 2 ^ 19
    let n := s.fresh
    let s := s.sendSync .wait object 0 (.wait i.core i.ctx n)
    s.updCtx i.core i.ctx (·.block .waitSync (.syncWait n xd object)))

/-- SYNC READ: the thread is in WAIT_MEM until the count returns (R117). -/
def execSyncRead (i : Issue) (xd xa : Reg) (s : State) : Host.Outcome State Fault Refusal :=
  .next (s.issue i (wordC 0x33 xd xa 0 0 false 0x02) fun s =>
    let object := ((s.ctx i.core i.ctx).x xa).toNat % 2 ^ 19
    let n := s.fresh
    let s := s.sendSync .read object 0 (.wait i.core i.ctx n)
    s.updCtx i.core i.ctx (·.block .waitMem (.syncRead n xd)))

/-- QUE PUSH: the 64 bytes at XA into a queue's ring; the reply goes into XD (R118, R412). -/
def execQuePush (i : Issue) (xd xa xb : Reg) (s : State) : Host.Outcome State Fault Refusal :=
  .next (s.issue i (wordC 0x34 xd xa xb 0 false 0x00) fun s =>
    let c := s.ctx i.core i.ctx
    s.withDescriptor i.core i.ctx (c.x xa) fun s words =>
      let gq := (c.x xb).toNat % 2 ^ 25
      let dev := gq / 2 ^ 19
      let bytes := words.flatMap fun w => natToBytes 8 w.toNat
      if s.isOwn dev && (s.queue (gq % 2 ^ 19)).ringSpace != 2 then
        let (r, s) := s.pushQueue (gq % 2 ^ 19) bytes
        s.updCtx i.core i.ctx fun c => (c.setX xd r).advance
      else if s.isOwn dev then
        -- a ring in DRAM: the controller of its channel takes the descriptor and answers
        let (id, s) := s.sendReq (s.threadSource i.core i.ctx) (.push (gq % 2 ^ 19) bytes) (dev * 2 ^ 48 + registerBase)
        s.updCtx i.core i.ctx (·.block .waitCmd (.push id xd))
      else if s.nonMember dev then s.updCtx i.core i.ctx fun c => (c.setX xd 0x07).advance
      else
        let (id, s) := s.sendReq (s.threadSource i.core i.ctx) (.push (gq % 2 ^ 19) bytes) (dev * 2 ^ 48)
        s.updCtx i.core i.ctx (·.block .waitCmd (.push id xd)))

/-- QUE EXIT: the context enters EXITING with the status in XB bits 7:0 (R92, R118). -/
def execQueExit (i : Issue) (xb : Reg) (s : State) : Host.Outcome State Fault Refusal :=
  .next (s.issue i (wordC 0x34 0 0 xb 0 false 0x01) fun s => s.updCtx i.core i.ctx fun c =>
    { c with state := .exiting, ending := .exit ((c.x xb).truncate 8) })

/-- A condition that the thread waits for from its issue on; where it holds at once the thread has not waited (R88, R119, R127). -/
def State.awaitHere (s : State) (i : Issue) (w : Wait) : State :=
  ((s.updCtx i.core i.ctx (·.block .waitCmd w)).recheck i.core i.ctx).updCtx i.core i.ctx fun c =>
    if c.state == .ready then { c with waited := false } else c

/-- WAITC: waits until counter c reads t or less, then reads and clears its status (R119). -/
def execWaitc (i : Issue) (xd : Reg) (imm : BitVec 16) (s : State) : Host.Outcome State Fault Refusal :=
  .next (s.issue i (wordI 0x35 xd 0 imm) fun s =>
    let n : BitVec 2 := imm.truncate 2
    s.awaitHere i (.counter n (imm.toNat / 4 % 64) xd))

/-- FENCE: blocks until every condition of IMM16 bits 3:0 holds (R127, R128). -/
def execFence (i : Issue) (imm : BitVec 16) (s : State) : Host.Outcome State Fault Refusal :=
  .next (s.issue i (wordI 0x36 0 0 imm) fun s =>
    s.awaitHere i (.fence (imm.truncate 4)))

/-- WC_STATE (R129). -/
def Ctx.wcState (c : Ctx) : Word :=
  BitVec.ofNat 64 ((c.counter 0).toNat + (c.counter 1).toNat * 2 ^ 8 + (c.counter 2).toNat * 2 ^ 16 +
    (c.counter 3).toNat * 2 ^ 24)

/-- The special register of a number (R129), none where it is not listed. -/
def State.readSpecial (s : State) (core ctx : Nat) (n : Nat) : Option Word :=
  let c := s.ctx core ctx
  match n with
  | 0x000 => some (BitVec.ofNat 64 ctx)
  | 0x001 => some (BitVec.ofNat 64 (s.group.member * 2 ^ 14 + core))
  | 0x002 => some (c.taskQueue.zeroExtend 64)
  | 0x003 => some (BitVec.ofNat 64 (0x3C000 + ctx * 0x40))
  | 0x004 => some c.vcfg
  | 0x005 => some (boolWord c.issueClass)
  | 0x006 => some c.wcState
  | 0x007 => some (BitVec.ofNat 64 (s.core core).beats)
  | 0x008 => some (s.refTime (coreTower core))
  | 0x009 => some (BitVec.ofNat 64 (s.field (coreField core)).meas)
  | 0x00A => some (BitVec.ofNat 64 (s.appliedStretch core))
  | 0x010 => some ((c.asyncStatus 0).zeroExtend 64)
  | 0x011 => some ((c.asyncStatus 1).zeroExtend 64)
  | 0x012 => some ((c.asyncStatus 2).zeroExtend 64)
  | 0x013 => some ((c.asyncStatus 3).zeroExtend 64)
  | 0x014 => some (c.storeStatus.zeroExtend 64)
  | _ => none

/-- CSRR copies a special register into XD; a number not listed makes the instruction illegal (R129). -/
def execCsrr (i : Issue) (xd : Reg) (imm : BitVec 16) (s : State) : Host.Outcome State Fault Refusal :=
  .next (s.issue i (wordI 0x37 xd 0 imm) fun s =>
    match s.readSpecial i.core i.ctx imm.toNat with
    | some v => s.updCtx i.core i.ctx fun c => (c.setX xd v).advance
    | none => s.faultAt i.core i.ctx causeIllegal 0x08 0)

/-- The bits of VCFG that are not reserved (R121); reserved bits read zero (R18). -/
def vcfgMask : Word := 0x0FFFFFFF

/-- CSRW copies XA into VCFG or ISSUE_CLASS; any other number makes the instruction illegal (R129). -/
def execCsrw (i : Issue) (xa : Reg) (imm : BitVec 16) (s : State) : Host.Outcome State Fault Refusal :=
  .next (s.issue i (wordI 0x38 0 xa imm) fun s =>
    if imm = 0x004 then s.updCtx i.core i.ctx fun c => { c with vcfg := c.x xa &&& vcfgMask }.advance
    else if imm = 0x005 then s.updCtx i.core i.ctx fun c => { c with issueClass := (c.x xa).getLsbD 0 }.advance
    else s.faultAt i.core i.ctx causeIllegal 0x08 0)

/-- BRK: faults, freezes the device with the thread stopped before it, or does nothing, by BRK_ACTION (R140). -/
def execBrk (i : Issue) (imm : BitVec 21) (s : State) : Host.Outcome State Fault Refusal :=
  .next (s.issue i (wordU 0x39 0 imm) fun s =>
    match s.reg 0xA111 4 with
    | 1 => s.setFreezeSource freezeSoftware
    | 2 => s.updCtx i.core i.ctx (·.advance)
    | _ => s.faultAt i.core i.ctx causeBreak 0x08 0)

/-! ### Answers that reach a thread -/

/-- The cause with which a load, atomic or sync read faults on a status (R131); for a status without a cause of its own
see assumption 10. -/
def loadCause (st : Status) : Nat :=
  if st = 0x01 then 0x05 else if st = 0x03 then 0x06 else if st = 0x07 then 0x07 else if st = 0x0A then 0x08
  else if st = 0x0B then 0x0A else if st = 0x02 then causeUnmapped else 0x06

/-- A value or a failing status given to a context whose wait names the token (R107, R131). -/
def State.answerLoad (s : State) (core ctx token : Nat) (addr : Nat) (st : Status) (data : List Byte) : State :=
  let c := s.ctx core ctx
  let give (xd : Reg) (v : Word) : State :=
    if st = 0 then s.setCtx core ctx (c.setX xd v).wake.advance
    else s.faultAt core ctx (loadCause st) st addr
  match c.wait with
  | .load n xd _ signed => if n = token then give xd (extendLoad data signed) else s
  | .atomic n xd => if n = token then give xd (extendLoad data false) else s
  | .syncRead n xd => if n = token then give xd (extendLoad data false) else s
  | .push n xd =>
    if n = token then s.setCtx core ctx (c.setX xd (if data = [1] then 0x100 else st.zeroExtend 64)).wake.advance else s
  | _ => s

/-- The answer of a request: what its target gave, or for another device's target what came back over the links. -/
def State.answerOf (s : State) (r : Req) (remote : Option (Status × List Byte)) : Option (Status × List Byte) :=
  if r.stage = .done then some (r.status, r.data)
  else if s.isOwn (r.addr / 2 ^ 48 % 64) then none
  else if s.nonMember (r.addr / 2 ^ 48 % 64) then some (0x07, [])
  else remote

def State.dropReq (s : State) (id : Nat) : State := { s with reqs := s.reqs.filter (·.id != id) }

/-- Another device's answer to a unit's line is kept with its request until the unit takes it (R705). -/
def State.unitAnswer (s : State) (r : Req) (remote : Option (Status × List Byte)) : State :=
  match remote with
  | some (st, data) =>
    if r.ofUnit && s.abroad r && r.stage != .done then s.updReq r.id fun q => { q with stage := .done, status := st, data := data } else s
  | none => s

/-- The answer of a read or atomic delivered to its thread once it has come back (R70, R243, R365). While the device is frozen no answer
completes (R139). -/
def State.deliverValue (s : State) (id : Nat) (remote : Option (Status × List Byte)) : State :=
  match s.reqs.find? (·.id == id) with
  | none => s
  | some r =>
    match r.src, s.answerOf r remote with
    | .thread core ctx _, some (st, data) =>
      if !s.running || s.answerHeld r then s else ((s.dropReq id).answerLoad core ctx id r.addr st data).recheck core ctx
    | .unit _, _ => s.unitAnswer r remote
    | _, _ => s

/-- The answer of a sync engine delivered to its thread or queue once it has come back (R388 to R390, R393). -/
def State.deliverSync (s : State) (id : Nat) : State :=
  match s.syncMsgs.find? (·.id == id) with
  | none => s
  | some m =>
    match m.reply with
    | none => s
    | some (st, v) =>
      if !s.running || s.syncBehind m then s
      else
        let s := { s with syncMsgs := s.syncMsgs.filter (·.id != id) }
        match m.op, m.target with
        | .read, .wait core ctx n => s.answerLoad core ctx n 0 st (natToBytes 4 v.toNat)
        | _, t => s.complete t st

/-- Load data, or the count of a sync read, returns to a context in WAIT_MEM (R107, R131). -/
def execReadRsp (id : Nat) (remote : Option (Status × List Byte)) (s : State) : Host.Outcome State Fault Refusal :=
  .next (if s.syncMsgs.any (fun m => m.id == id && m.op == .read) then s.deliverSync id else s.deliverValue id remote)

/-- The old value of a global atomic returns to its thread (R110). -/
def execAtomicRsp (id : Nat) (remote : Option (Status × List Byte)) (s : State) : Host.Outcome State Fault Refusal :=
  .next (s.deliverValue id remote)

/-- A posted store's acknowledgement: a status other than OK enters STORE_STATUS unless it holds one (R128). That of a completion's
slot or record lets the steps of R421 go on. -/
def execWriteAck (id : Nat) (remote : Option Status) (s : State) : Host.Outcome State Fault Refusal :=
  .next (
    match s.reqs.find? (·.id == id) with
    | none => s
    | some r =>
      match r.src, s.answerOf r (remote.map fun st => (st, [])) with
      | .thread core ctx serial, some (st, _) =>
        if !s.running || s.answerHeld r then s
        else
          let s := s.dropReq id
          let c := s.ctx core ctx
          let s := if c.serial = serial && c.storeStatus = 0 then s.setCtx core ctx { c with storeStatus := st } else s
          s.recheck core ctx
      | .record q i, some (st, _) =>
        if !s.running || s.answerTravels r then s
        else if st = 0 then
          if (s.dropReq id).reqs.any fun x => x.src == r.src then s.dropReq id else (s.dropReq id).notifyObject q i
        else ({ s with reqs := s.reqs.filter fun x => x.src != r.src }.notifyFailure q).notifyObject q i
      | .slot q i, some (st, _) =>
        if !s.running then s
        else (if st = 0 then s.dropReq id else (s.dropReq id).notifyFailure q).notifyRecord q i
      | .unit _, _ => s.unitAnswer r (remote.map fun st => (st, []))
      | _, _ => s)

/-! ### The end of tasks -/

/-- A task completes when its EXITING context's counters read zero (R92, R135). -/
def execTaskComplete (core ctx : Nat) (s : State) : Host.Outcome State Fault Refusal :=
  .next (
    let c := s.ctx core ctx
    if s.coreUp core && c.state == .exiting && c.idle then s.endTask core ctx c.finalStatus else s)

/-- A FAULTED context goes on to EXITING and completes with the status it holds (R132, R142). -/
def State.releaseFaulted (s : State) (core ctx : Nat) : State :=
  s.updCtx core ctx fun c => { c with state := .exiting }

/-- CONTEXT_RELEASE (R142); written while the device is frozen it takes effect at once (assumption 74, DESIGN CHOICE). -/
def execContextRelease (v : BitVec 32) (s : State) : Host.Outcome State Fault Refusal :=
  .next (s.written (
    let core := v.toNat / 2 ^ 8 % 2 ^ 14
    let ctx := v.toNat % 2 ^ 8
    if s.inService core && (s.ctx core ctx).state == .faulted then s.releaseFaulted core ctx else s))

/-- CONTEXT_KILL faults a context with cause KILLED, ending any wait; a FAULTED one is released with its own status; one
that is EXITING after a fault keeps that fault's status (R137, R142, assumption 11). A context that is READY or EXITING is at no
instruction: its record holds INSTRUCTION 0 (assumption 72, DESIGN CHOICE). Written while the device is frozen it takes effect at once
(assumption 74, DESIGN CHOICE). -/
def execContextKill (v : BitVec 32) (s : State) : Host.Outcome State Fault Refusal :=
  .next (s.written (
    let core := v.toNat / 2 ^ 8 % 2 ^ 14
    let ctx := v.toNat % 2 ^ 8
    let c := s.ctx core ctx
    if !s.inService core then s
    else
      match c.state with
      | .free => s
      | .exiting =>
        match c.ending with
        | .fault _ => s
        | _ => s.threadFault core ctx causeKilled 0x08 0 0
      | .faulted => s.releaseFaulted core ctx
      | .ready => s.threadFault core ctx causeKilled 0x08 0 0
      | _ => s.faultAt core ctx causeKilled 0x08 0))

end Sys2Proof.Machine
end

