-- ==== Sys2Proof/Machine/TileArith.lean ====
section
/-! DEFINITION. Tile descriptors, their geometry and checks, and the arithmetic of a pass (R143 to R161, R167, R174). -/
namespace Sys2Proof.Machine

/-! ### The descriptor (R159) -/

/-- Bits `hi:lo` of word `i`. -/
def tileField (ws : List Word) (i hi lo : Nat) : Nat := bitsOf (ws.getD i 0).toNat hi lo

def tileOfmt (ws : List Word) : Nat := tileField ws 0 63 60
def tileHfmt (ws : List Word) : Nat := tileField ws 0 59 56
def tileSfmt (ws : List Word) : Nat := tileField ws 0 55 52
def tileAcc (ws : List Word) : Bool := tileField ws 0 50 50 == 1
def tileOutOrder (ws : List Word) : Bool := tileField ws 0 49 49 == 1
def tileSSpace (ws : List Word) : Nat := tileField ws 0 47 46
def tileHSpace (ws : List Word) : Nat := tileField ws 0 45 44
def tileOSpace (ws : List Word) : Nat := tileField ws 0 43 42
def tileHoldDefault (ws : List Word) : Bool := tileField ws 0 41 41 == 1
def tileM (ws : List Word) : Nat := tileField ws 0 31 23
def tileN (ws : List Word) : Nat := tileField ws 0 22 18
def tileK (ws : List Word) : Nat := tileField ws 0 17 5
def tileHoldNs (ws : List Word) : Nat := tileField ws 1 63 48
def tileSAddr (ws : List Word) : Nat := tileField ws 1 47 0
def tileSScale (ws : List Word) : Nat := tileField ws 2 47 0
def tileHStride (ws : List Word) : Nat := tileField ws 3 63 48
def tileHAddr (ws : List Word) : Nat := tileField ws 3 47 0
def tileHScaleStride (ws : List Word) : Nat := tileField ws 4 63 48
def tileHScale (ws : List Word) : Nat := tileField ws 4 47 0
def tileOutStride (ws : List Word) : Nat := tileField ws 5 63 48
def tileOutAddr (ws : List Word) : Nat := tileField ws 5 47 0

def tileS (ws : List Word) : Fmt := Fmt.ofCode (BitVec.ofNat 4 (tileSfmt ws))
def tileH (ws : List Word) : Fmt := Fmt.ofCode (BitVec.ofNat 4 (tileHfmt ws))
def tileO (ws : List Word) : Fmt := Fmt.ofCode (BitVec.ofNat 4 (tileOfmt ws))

/-! ### Geometry (R144, R147, R156) -/

/-- Operand formats of R147. -/
def Fmt.tileOperand : Fmt → Bool
  | .bf16 | .fp16 | .e4m3 | .e5m2 | .e3m2 | .e2m3 | .e2m1 | .mxint8 | .t2 | .mxint4 => true
  | _ => false

/-- Output formats of R147. -/
def Fmt.tileOutput : Fmt → Bool
  | .fp32 | .bf16 | .fp16 => true
  | _ => false

def Fmt.fourBit : Fmt → Bool
  | .e2m1 | .mxint4 => true
  | _ => false

/-- LANES, which is also the number of columns: 16 in narrow and ternary-pair modes, 8 in group mode. -/
def tileLanes (ws : List Word) : Nat :=
  let narrow (f : Fmt) : Bool := f.fourBit || f == .t2
  if narrow (tileS ws) && narrow (tileH ws) then 16 else 8

/-- E: 2 in ternary-pair mode. -/
def tileE (ws : List Word) : Nat := if tileS ws == .t2 || tileH ws == .t2 then 2 else 1
def tileKP (ws : List Word) : Nat := 32 * tileLanes ws
def tilePasses (ws : List Word) : Nat := (tileK ws + tileKP ws - 1) / tileKP ws
def tileSteps (ws : List Word) : Nat := 32 / tileE ws * tileM ws + tileLanes ws - 1
/-- Bytes of one step of the streamed string. -/
def tileStepBytes (ws : List Word) : Nat := tileLanes ws * tileE ws * (tileS ws).bits / 8
def tileStreamBytes (ws : List Word) : Nat := tilePasses ws * tileSteps ws * tileStepBytes ws
def tileScaleBytes (ws : List Word) : Nat :=
  if (tileS ws).isBlock then tilePasses ws * tileM ws * tileLanes ws else 0
/-- Bytes of one held row and of its scales (R155). -/
def tileRowBytes (ws : List Word) : Nat := tileK ws * (tileH ws).bits / 8
def tileRowScales (ws : List Word) : Nat := if (tileH ws).isBlock then tileK ws / 32 else 0
def tileOb (ws : List Word) : Nat := (tileO ws).bits / 8

/-- The physical address of an operand address in a space: 0 is the core's own store (R159). -/
def tileAddr (core space a : Nat) : Nat := if space = 0 then storeAddr core a else a

/-- The range lies in the place that its space names (R158). -/
def tileInPlace (core space a n : Nat) : Bool :=
  match space with
  | 0 => a + n ≤ 0x40000
  | 1 =>
    rangeInPlace a n &&
      ((sliceBase ≤ a && a < sliceBase + 2 ^ 32 && (a - sliceBase) / 0x400000 == clusterId core) ||
       (interleavedBase ≤ a && a < interleavedBase + 2 ^ 32 && (a - interleavedBase) / 0x400000 == clusterId core))
  | 2 => a < 8 * dramTower && localPlace a == .dram core (a % channelBytes) && rangeInPlace a n
  | _ => false

/-- Output rows of a request as its space addresses them: address and length (R161). -/
def tileOutRows (ws : List Word) (out n : Nat) : List (Nat × Nat) :=
  if tileOutOrder ws then (List.range n).map fun i => (out + i * tileOutStride ws, tileM ws * tileOb ws)
  else (List.range (tileM ws)).map fun m => (out + m * tileOutStride ws, n * tileOb ws)

/-- The storage of output rows: each cut at lines, an interleaved slice address in its direct form (R261). -/
def rowStorage (ws : List Word) (rows : List (Nat × Nat)) : List (Nat × Nat) :=
  if tileOSpace ws = 1 then rows.flatMap fun r => (pieces r.1 r.2).map fun p => (directSlice p.1, p.2) else rows

def rowsOverlap (a b : Nat × Nat) : Bool := a.1 < b.1 + b.2 && b.1 < a.1 + a.2

/-- Two rows of one list overlap. -/
def anyOverlap : List (Nat × Nat) → Bool
  | [] => false
  | r :: rs => rs.any (rowsOverlap r) || anyOverlap rs

/-- The checks of R147, R148, R149, R155, R158, R160 and R161 on one request (R176). -/
def tileLegal (core : Nat) (ws : List Word) : Bool :=
  let n := tileN ws
  let rows := tileOutRows ws (tileOutAddr ws) n
  let last := rows.foldl (fun m r => max m (r.1 + r.2)) 0
  -- reserved fields are zero
  tileField ws 0 51 51 == 0 && tileField ws 0 48 48 == 0 && tileField ws 0 40 32 == 0 && tileField ws 0 4 0 == 0 &&
  tileField ws 2 63 48 == 0 && ws.getD 6 0 == 0 && ws.getD 7 0 == 0 &&
  -- formats and pairs
  (tileS ws).tileOperand && (tileH ws).tileOperand && (tileO ws).tileOutput &&
  (tileS ws != .t2 || (tileH ws).fourBit) && (tileH ws != .t2 || (tileS ws).fourBit) &&
  -- sizes
  tileK ws % 32 == 0 && n ≤ tileLanes ws && tileM ws * n * 4 ≤ 16384 &&
  -- strides
  (n < 2 || (tileRowBytes ws ≤ tileHStride ws && tileRowScales ws ≤ tileHScaleStride ws)) &&
  -- places
  tileInPlace core (tileSSpace ws) (tileSAddr ws) (tileStreamBytes ws) &&
  (tileScaleBytes ws == 0 || tileInPlace core (tileSSpace ws) (tileSScale ws) (tileScaleBytes ws)) &&
  tileHSpace ws < 2 && tileInPlace core (tileHSpace ws) (tileHAddr ws) ((n - 1) * tileHStride ws + tileRowBytes ws) &&
  (tileRowScales ws == 0 ||
    tileInPlace core (tileHSpace ws) (tileHScale ws) ((n - 1) * tileHScaleStride ws + tileRowScales ws)) &&
  tileOSpace ws < 2 && tileInPlace core (tileOSpace ws) (tileOutAddr ws) (last - tileOutAddr ws) &&
  !anyOverlap rows

/-- The descriptors agree in every field except N, H_ADDR, H_SCALE_ADDR and OUT_ADDR (R175). -/
def tileSameShared (a b : List Word) : Bool :=
  let nMask : Word := BitVec.ofNat 64 (0x1F * 2 ^ 18)
  let hi (w : Word) : Word := w >>> 48
  (a.getD 0 0 ||| nMask) == (b.getD 0 0 ||| nMask) && a.getD 1 0 == b.getD 1 0 && a.getD 2 0 == b.getD 2 0 &&
  hi (a.getD 3 0) == hi (b.getD 3 0) && hi (a.getD 4 0) == hi (b.getD 4 0) && hi (a.getD 5 0) == hi (b.getD 5 0)

/-! ### One pass -/

/-- Elements of one block in integer units with its scale exponent, NaN and infinity read by R152: a NaN scale is
2^127 with every element the largest, counted once. -/
def blockUnits (f : Fmt) (codes : List Nat) (scale : Nat) : List Int × Int × List NumEvent :=
  if f.isBlock && scale == 0xFF then
    (codes.map fun _ => (f.largest false).intAt (-(f.unitExp : Int)), 127, [.nan f])
  else
    let r := codes.map f.readUnits
    (r.map (·.1), if f.isBlock then (scale : Int) - 127 else 0, r.flatMap (·.2))

/-- Element `j` of the block that lane `r` covers in streamed row `m`, from one pass of the string (R156). -/
def streamElement (ws : List Word) (pass : Nat) (m r j : Nat) : Nat :=
  let e := tileE ws
  let lanes := tileLanes ws
  let t := m * (32 / e) + j / e + r
  pass / 2 ^ ((t * lanes * e + r * e + j % e) * (tileS ws).bits) % 2 ^ (tileS ws).bits

/-- Lanes that lie within K in a pass. -/
def passLanes (ws : List Word) (p : Nat) : Nat := min (tileLanes ws) ((tileK ws - p * tileKP ws) / 32)

/-- The streamed blocks of a pass: for each row, lane by lane, its integers and scale exponent. -/
def streamBlocks (ws : List Word) (p : Nat) (bytes scales : List Byte) : List (List (List Int × Int)) × List NumEvent :=
  let n := bytesToNat bytes
  let rows := (List.range (tileM ws)).map fun m =>
    (List.range (passLanes ws p)).map fun r =>
      blockUnits (tileS ws) ((List.range 32).map fun j => streamElement ws n m r j)
        (scales.getD (m * tileLanes ws + r) 0x7F).toNat
  (rows.map fun row => row.map fun b => (b.1, b.2.1), rows.flatMap fun row => row.flatMap fun b => b.2.2)

/-- The held blocks of one row in a pass, from its bytes and scale bytes. -/
def heldBlocks (ws : List Word) (p : Nat) (bytes scales : List Byte) : List (List Int × Int) × List NumEvent :=
  let lanes := passLanes ws p
  let codes := (tileH ws).unpack (32 * lanes) bytes
  let bs := List.zipWith (fun c i => blockUnits (tileH ws) c ((scales.getD i 0x7F).toNat)) (blocksOf lanes codes) (List.range lanes)
  (bs.map fun b => (b.1, b.2.1), bs.flatMap fun b => b.2.2)

/-- A row's or a column's blocks in a pass, lane by lane: integers and scale exponent. -/
abbrev Blocks := List (List Int × Int)

/-- What the faults of a pass add to Q, to the checksum column's sum and to the checksum row's. -/
def faultQ (fs : List CellFault) (r m c : Nat) : Int :=
  fs.foldl (fun d f => match f with
    | .product r' m' c' e => if r' = r && m' = m && c' = c then d + e else d
    | _ => d) 0
def faultColumn (fs : List CellFault) (r m : Nat) : Int :=
  fs.foldl (fun d f => match f with
    | .checkColumn r' m' e => if r' = r && m' = m then d + e else d
    | _ => d) 0
def faultRow (fs : List CellFault) (r c : Nat) : Int :=
  fs.foldl (fun d f => match f with
    | .checkRow r' c' e => if r' = r && c' = c then d + e else d
    | _ => d) 0

/-- Q[r][m][c] of R167 for every lane of one streamed row and one column, with the exponents of the two scales. -/
def laneSums (fs : List CellFault) (m c : Nat) (row col : Blocks) : List (Int × Int × Int) :=
  List.zipWith (fun r (b : (List Int × Int) × (List Int × Int)) => (dotInt b.1.1 b.2.1 + faultQ fs r m c, b.1.2, b.2.2))
    (List.range row.length) (List.zip row col)

/-- One accumulator carried through the lanes of a pass (R150, R151). -/
def addLanes (fs fh : Fmt) : Word32 → List (Int × Int × Int) → Word32 × List NumEvent
  | acc, [] => (acc, [])
  | acc, (q, ex, ey) :: rest =>
    let (b, e1) := blockValue fs fh q ex ey
    let (a, e2) := f32Add acc b
    let (r, e3) := addLanes fs fh a rest
    (r, e1 ++ e2 ++ e3)

/-- A pass over all accumulators: `held` has one entry for each column, none where its request has failed. -/
def passAccumulate (ws : List Word) (faults : List CellFault) (acc : List Word32) (stream : List Blocks)
    (held : List (Option Blocks)) : List Word32 × List NumEvent :=
  let n := held.length
  let cells := (List.range (stream.length * n)).map fun i =>
    match held.getD (i % n) none with
    | some h => addLanes (tileS ws) (tileH ws) (acc.getD i 0) (laneSums faults (i / n) (i % n) (stream.getD (i / n) []) h)
    | none => (acc.getD i 0, [])
  (cells.map (·.1), cells.flatMap (·.2))

/-- The sum over blocks, position by position: HS and SS of R168. -/
def blockSum (bs : List (List Int)) : List Int :=
  (List.range 32).map fun j => bs.foldl (fun n b => n + b.getD j 0) 0

def sameMod32 (a b : Int) : Bool := (a - b) % 2 ^ 32 == 0

/-- checks_pass of R168 for one lane: the checksum column over every streamed row, then the checksum row over every column. -/
def checksLane (faults : List CellFault) (r : Nat) (stream : List (List Int)) (held : List (Nat × List Int)) : Bool :=
  let hs := blockSum (held.map (·.2))
  let ss := blockSum stream
  let q (m : Nat) (x : List Int) (c : Nat × List Int) : Int := dotInt x c.2 + faultQ faults r m c.1
  ((List.range stream.length).all fun m =>
    let x := stream.getD m []
    sameMod32 (held.foldl (fun n c => n + q m x c) 0) (dotInt x hs + faultColumn faults r m)) &&
  held.all fun c =>
    sameMod32 ((List.range stream.length).foldl (fun n m => n + q m (stream.getD m []) c) 0) (dotInt ss c.2 + faultRow faults r c.1)

/-- checks_pass of R168: every lane that lies within K, over the columns whose request has not failed. -/
def checksPass (ws : List Word) (p : Nat) (faults : List CellFault) (stream : List Blocks) (held : List (Option Blocks)) : Bool :=
  let cols := (List.zip (List.range held.length) held).filterMap fun (c, h) => h.map fun b => (c, b)
  (List.range (passLanes ws p)).all fun r =>
    checksLane faults r (stream.map fun row => (row.getD r ([], 0)).1) (cols.map fun (c, b) => (c, (b.getD r ([], 0)).1))

/-- Products of two blocks in slot units, and those that gate (R174, R191). -/
def gateBlock (ws : List Word) (xs ys : List Int) : Nat :=
  let zero := List.zipWith (fun x y => x == 0 || y == 0) xs ys
  if tileE ws = 2 then ((List.range 16).filter fun i => zero.getD (2 * i) false && zero.getD (2 * i + 1) false).length
  else (zero.filter id).length * (if tileLanes ws = 8 then 4 else 1)

/-- Product slots used in a pass by `n` columns (R191). -/
def passProducts (ws : List Word) (p n : Nat) : Nat :=
  let k := 32 * passLanes ws p
  tileM ws * n * (if tileE ws = 2 then k / 2 else if tileLanes ws = 8 then 4 * k else k)

/-- Gated product slots of a pass. -/
def passGated (ws : List Word) (stream : List (List (List Int × Int))) (held : List (Option (List (List Int × Int)))) : Nat :=
  (stream.flatMap fun row => held.map fun h =>
    match h with
    | some hs => (List.zipWith (fun (s h : List Int × Int) => gateBlock ws s.1 h.1) row hs).foldl (· + ·) 0
    | none => 0).foldl (· + ·) 0

end Sys2Proof.Machine
end

