-- ==== Sys2Proof/Machine/VecArith.lean ====
section
/-! DEFINITION. The arithmetic of the vector unit on operands in memory order (R192, R193, R212 to R217). -/
namespace Sys2Proof.Machine

/-- An operand's elements as values; a NaN scale makes every element of its block a NaN (R193, R196, R201). -/
def Fmt.values (f : Fmt) (n : Nat) (bs : List Byte) : List Val × List NumEvent :=
  let codes := f.unpack n bs
  let read := codes.map f.read
  let events := read.flatMap (·.2)
  let vals := read.map (·.1)
  if f.isBlock then
    let scales := (bs.drop (f.elemBytes n)).take (n / 32)
    (List.flatten (List.zipWith (fun vs (x : Byte) => match scaleExp x.toNat with
        | some k => vs.map (Val.scale k)
        | none => vs.map fun _ => Val.nan) (blocksOf (n / 32) vals) scales), events)
  else (vals, events)

/-- Values written as an operand: rounded, block scales chosen by R208 (R193, R204). -/
def Fmt.operand (f : Fmt) (r : Rounding) (vs : List Val) : List Byte × List NumEvent :=
  if f.isBlock then
    let blocks := (blocksOf (vs.length / 32) vs).map (f.toBlock r)
    (f.pack (blocks.flatMap (·.1)) ++ blocks.map (fun b => BitVec.ofNat 8 b.2.1), blocks.flatMap (·.2.2))
  else
    let (ns, ev) := f.writeAll r vs
    (f.pack ns, ev)

/-- A value rounded once into FP32 and held as that value: to_fp32 and every step of R215. -/
def roundF32 (v : Val) : Val × List NumEvent :=
  let (b, ev) := writeF32 v
  ((readF32 b).1, ev)

/-- Every value rounded into FP32. -/
def roundAll : List Val → List Val × List NumEvent
  | [] => ([], [])
  | v :: vs =>
    let (x, e) := roundF32 v
    let (xs, es) := roundAll vs
    (x :: xs, e ++ es)

/-- The elements of one lane: every 64th from the lane's own. -/
def laneOf {α : Type} (j : Nat) (l : List α) : List α :=
  (List.range ((l.length + 63 - j) / 64)).filterMap fun k => l[j + 64 * k]?

/-- One lane of a sum: terms added in order, each step rounded (R215). -/
def laneSum (step : Val → Val → Val) : Val → List Val → Val × List NumEvent
  | acc, [] => (acc, [])
  | acc, v :: vs =>
    let (a, e) := roundF32 (step acc v)
    let (r, es) := laneSum step a vs
    (r, e ++ es)

/-- One level of the pairwise tree over sums. -/
def pairSums : List Val → List Val × List NumEvent
  | a :: b :: rest =>
    let (x, e) := roundF32 (a.add b)
    let (xs, es) := pairSums rest
    (x :: xs, e ++ es)
  | _ => ([], [])

/-- The pairwise tree of 64 lanes, six levels (R215). -/
def treeSum : Nat → List Val → Val × List NumEvent
  | 0, l => (l.headD (.num .zero), [])
  | n + 1, l =>
    let (m, e) := pairSums l
    let (r, es) := treeSum n m
    (r, e ++ es)

/-- Each lane's terms summed from +0.0 and the lanes combined; a term is a product for VDOT (R215). -/
def laneReduce (terms : List Val) : Val × List NumEvent :=
  let lanes := (List.range 64).map fun j => laneSum Val.add (.num .zero) (laneOf j terms)
  let (r, e) := treeSum 6 (lanes.map (·.1))
  (r, lanes.flatMap (·.2) ++ e)

/-- VSUM of values (R215). -/
def vecSum (a : List Val) : Val × List NumEvent :=
  let (x, e) := roundAll a
  let (r, es) := laneReduce x
  (r, e ++ es)

/-- VDOT of values: each fused step rounds once (R215). The product stays exact until it is added. -/
def vecDot (a b : List Val) : Val × List NumEvent :=
  let (x, e) := roundAll a
  let (y, f) := roundAll b
  let (r, es) := laneReduce (List.zipWith Val.mul x y)
  (r, e ++ f ++ es)

/-- The larger of the used inputs (R215): `none` is an unused lane. -/
def pickMax : Option Val → Option Val → Option Val
  | some a, some b => some (a.max b)
  | some a, none => some a
  | none, b => b

def laneMax (l : List Val) : Option Val := l.foldl (fun m v => pickMax m (some v)) none

def pairMax : List (Option Val) → List (Option Val)
  | a :: b :: rest => pickMax a b :: pairMax rest
  | _ => []

def treeMax : Nat → List (Option Val) → Option Val
  | 0, l => l.headD none
  | n + 1, l => treeMax n (pairMax l)

/-- VMAXR of values (R215). -/
def vecMaxr (a : List Val) : Val × List NumEvent :=
  let (x, e) := roundAll a
  ((treeMax 6 ((List.range 64).map fun j => laneMax (laneOf j x))).getD .nan, e)

/-- VSOFTMAX before the rounding into DST_FMT (R216). -/
def vecSoftmax (a : List Val) : List Val × List NumEvent :=
  let (x, e0) := roundAll a
  let (m, e1) := vecMaxr x
  match m with
  | .nan => (x.map fun _ => .nan, e0 ++ e1)
  | _ =>
    let (d, e2) := roundAll (x.map fun v => v.add m.negate)
    let (e, e3) := roundAll (d.map Val.exp)
    let (s, e4) := vecSum e
    (e.map fun v => v.div s, e0 ++ e1 ++ e2 ++ e3 ++ e4)

/-- Elementwise results before the rounding (R212 to R214); `k` is the scalar. -/
def vecElement (op : VOp) (k a b c : Val) : Val :=
  match op with
  | .vadd => a.add b
  | .vsub => a.sub b
  | .vmul => a.mul b
  | .vfma => a.fma b c
  | .vmax => a.max b
  | .vmin => a.min b
  | .vabs => a.abs
  | .vneg => a.negate
  | .vscale => k.mul a
  | .vaxpy => k.fma a b
  | .vexp => a.exp
  | .vrecip => a.recip
  | .vrsqrt => a.rsqrt
  | .vtanh => a.tanh
  | .vcmplt => if a.lt b then .num .one else .num .zero
  | .vsel => if c.nonzero then a else b
  | .vfill => k
  | _ => a

/-- VWUPD: the new W40 values and the bytes of the master copy (R217). -/
def vecMaster (k : Val) (a w : List Val) : List Val × List Byte × List NumEvent :=
  let (codes, ev) := Fmt.w40.writeAll .nearest (List.zipWith (fun x v => v.sub (k.mul x)) a w)
  (codes.map fun n => (Fmt.w40.read n).1, Fmt.w40.pack codes, ev)

/-- Formats that the arithmetic operations take (R122). -/
def Fmt.vecArith : Fmt → Bool
  | .fp32 | .bf16 | .fp16 | .int32 => true
  | _ => false

/-- Formats marked for VCVT and VCOPY (R122). -/
def Fmt.vecMoves : Fmt → Bool
  | .int64 | .uint64 | .mxint4 => false
  | _ => true

end Sys2Proof.Machine
namespace Sys2Proof

/-! ### Which operands an operation has -/

/-- The code that VOP gives an operation (R124). -/
def VOp.code : VOp → BitVec 6
  | .vadd => 0x00 | .vsub => 0x01 | .vmul => 0x02 | .vfma => 0x03 | .vmax => 0x04 | .vmin => 0x05 | .vabs => 0x06
  | .vneg => 0x07 | .vscale => 0x08 | .vaxpy => 0x09 | .vexp => 0x0A | .vrecip => 0x0B | .vrsqrt => 0x0C | .vtanh => 0x0D
  | .vsum => 0x10 | .vmaxr => 0x11 | .vdot => 0x12 | .vsoftmax => 0x13 | .vcmplt => 0x14 | .vsel => 0x15
  | .vcvt => 0x18 | .vwupd => 0x19 | .vcopy => 0x1A | .vfill => 0x1B

/-- One FP32 result at XD (R123). -/
def VOp.reduces : VOp → Bool
  | .vsum | .vmaxr | .vdot => true
  | _ => false

def VOp.readsA : VOp → Bool
  | .vfill => false
  | _ => true

def VOp.readsB : VOp → Bool
  | .vadd | .vsub | .vmul | .vfma | .vmax | .vmin | .vaxpy | .vdot | .vcmplt | .vsel => true
  | _ => false

def VOp.readsC : VOp → Bool
  | .vfma | .vsel => true
  | _ => false

/-- Check 1 of R123; W40 converts only to and from FP32 (R198, assumption 16). -/
def VOp.accepts (op : VOp) (src dst : Machine.Fmt) : Bool :=
  match op with
  | .vcvt => src.vecMoves && dst.vecMoves && (src != .w40 || dst == .fp32) && (dst != .w40 || src == .fp32)
  | .vcopy => src == dst && src.vecMoves
  | .vwupd => src == .fp32 && (dst == .bf16 || dst == .e4m3 || dst == .e5m2)
  | .vfill => dst.vecArith
  | .vsum | .vmaxr | .vdot => src.vecArith
  | _ => src.vecArith && dst.vecArith

/-- A format that the operation uses is a block format (check 3 of R123). -/
def VOp.blocked (op : VOp) (src dst : Machine.Fmt) : Bool :=
  match op with
  | .vsum | .vmaxr | .vdot => src.isBlock
  | .vfill => dst.isBlock
  | _ => src.isBlock || dst.isBlock

end Sys2Proof
end

