-- ==== Sys2Proof/Machine/HenArith.lean ====
section
/-! DEFINITION. Hen commands: their fields, checks, ranges, durations and arithmetic (R291, R297 to R302, R306, R307,
R218, R300). -/
namespace Sys2Proof.Machine

/-! ### Fields (R297) -/

/-- The operations of R299. -/
inductive HenOp where
  | vload | dot | kvscore | kvmix | chainsum | rowscale | rowaxpy | rowgather
  deriving DecidableEq, Repr

def HenOp.ofCode : Nat → Option HenOp
  | 1 => some .vload | 2 => some .dot | 3 => some .kvscore | 4 => some .kvmix
  | 5 => some .chainsum | 6 => some .rowscale | 7 => some .rowaxpy | 8 => some .rowgather
  | _ => none

/-- A command of 32 bytes. -/
structure HenArgs where
  op : Option HenOp
  sfmt : Fmt
  vfmt : Fmt
  ofmt : Nat
  chain : Bool
  acc : Bool
  space : Nat
  vecs : Nat
  mask : Nat
  rows : Nat
  elems : Nat
  hoff : Nat
  vbOff : Nat
  addr : Nat
  scalar : Nat
  stride : Nat
  load : Nat
  reserved : Bool
  deriving DecidableEq, Repr

def henArgs (ws : List Word) : HenArgs :=
  let f := tileField ws
  { op := HenOp.ofCode (f 0 63 60), sfmt := Fmt.ofCode (BitVec.ofNat 4 (f 0 59 56)),
    vfmt := Fmt.ofCode (BitVec.ofNat 4 (f 0 55 52)), ofmt := f 0 51 48, chain := f 0 47 47 == 1, acc := f 0 46 46 == 1,
    space := f 0 45 44, vecs := f 0 43 39, mask := f 0 31 0, rows := f 1 63 52, elems := f 1 51 39, hoff := f 1 20 0,
    vbOff := f 2 63 50, addr := f 2 47 0, scalar := f 3 63 32, stride := f 3 31 16, load := f 3 15 0,
    reserved := f 0 38 32 != 0 || f 1 38 21 != 0 || f 2 49 48 != 0 }

/-- The hens of the mask, lowest first. -/
def HenArgs.hens (a : HenArgs) : List Nat := (List.range 32).filter fun h => a.mask.testBit h

/-- The rank of a hen within the mask. -/
def HenArgs.rank (a : HenArgs) (h : Nat) : Nat := (a.hens.takeWhile (· != h)).length

/-- Bytes of a stored row and of a vector in the VB (R298, R193). -/
def HenArgs.rowBytes (a : HenArgs) : Nat := a.sfmt.operandBytes a.elems
def HenArgs.vecBytes (a : HenArgs) : Nat := a.vfmt.operandBytes a.elems
def HenArgs.ob (a : HenArgs) : Nat := if a.ofmt = 0 then 4 else 2

def HenArgs.usesRows (a : HenArgs) : Bool := a.op != some .vload
def HenArgs.usesElems (a : HenArgs) : Bool := a.op != some .vload && a.op != some .chainsum
def HenArgs.usesVecs (a : HenArgs) : Bool :=
  a.op == some .dot || a.op == some .kvscore || a.op == some .kvmix || a.op == some .chainsum

/-- The command reads its banks. -/
def HenArgs.atBanks (a : HenArgs) : Bool := a.usesElems

/-- The command writes its rows in place. -/
def HenArgs.inPlace (a : HenArgs) : Bool := a.op == some .rowscale || a.op == some .rowaxpy

/-- The command passes partials along the chain. -/
def HenArgs.chained (a : HenArgs) : Bool :=
  a.op == some .kvmix || a.op == some .chainsum || (a.op == some .dot && a.chain)

/-- A command that does nothing (R302). -/
def HenArgs.empty (a : HenArgs) : Bool :=
  a.mask == 0 || (a.usesRows && a.rows == 0) || (a.usesElems && a.elems == 0) || (a.usesVecs && a.vecs == 0) ||
  (a.op == some .vload && a.load == 0)

/-- PB entries of one result row: ROWS, or ELEMS for KVMIX. -/
def HenArgs.width (a : HenArgs) : Nat := if a.op == some .kvmix then a.elems else a.rows

/-! ### Checks (R301, R302) -/

def Fmt.henVector : Fmt → Bool
  | .fp32 | .bf16 | .fp16 | .e4m3 | .e5m2 | .mxint8 => true
  | _ => false

def Fmt.henKv : Fmt → Bool
  | .e2m1 | .e4m3 | .e5m2 | .mxint8 | .bf16 | .fp16 => true
  | _ => false

/-- The formats of R301. A DOT that does not chain delivers nothing, and its OFMT is a field that the operation does not use: R301's table gives
OFMT by operation and does not name CHAIN (assumption 87, DESIGN CHOICE). -/
def HenArgs.formatsOk (a : HenArgs) : Bool :=
  (match a.op with
   | some .dot => a.sfmt.tileOperand && a.vfmt.henVector
   | some .kvscore => a.sfmt.henKv && a.vfmt.henVector
   | some .kvmix => a.sfmt.henKv && (a.vfmt == .fp32 || a.vfmt == .bf16)
   | some .rowscale => a.sfmt.tileOperand && a.sfmt != .t2 && a.vfmt == .fp32
   | some .rowaxpy => a.sfmt.tileOperand && a.sfmt != .t2 && a.vfmt.henVector
   | some .rowgather => a.sfmt.tileOperand
   | _ => true) &&
  (!(a.chained || a.op == some .kvscore) || decide (a.ofmt < 2))

/-- The result rows that the command delivers, or the source of a VLOAD: address and length (R299). -/
def HenArgs.outRows (a : HenArgs) : List (Nat × Nat) :=
  let j := a.hens.length
  let row (n : Nat) : List (Nat × Nat) := (List.range a.vecs).map fun b => (a.addr + b * a.stride, n)
  match a.op with
  | some .vload => [(a.addr, a.load)]
  | some .kvscore => row (j * a.rows * a.ob)
  | some .rowgather => (List.range (j * a.rows)).map fun r => (a.addr + r * a.stride, a.rowBytes)
  | _ => if a.chained then row (a.width * a.ob) else []

/-- VB bytes that the command reads, and those it writes, from VB_OFF. -/
def HenArgs.vbReads (a : HenArgs) : Nat :=
  match a.op with
  | some .dot | some .kvscore => a.vecs * a.vecBytes
  | some .kvmix => a.vecs * a.hens.length * a.rows * (a.vfmt.bits / 8)
  | some .rowscale => 4 * a.rows
  | some .rowaxpy => a.rows * a.vecBytes
  | some .rowgather => 2 * a.rows
  | _ => 0

def HenArgs.vbWrites (a : HenArgs) : Nat := if a.op == some .vload then a.load else 0

/-- The end of a hen's space: 2 MiB, less where the steward region lies (R291, R442). -/
def henEnd (ch : Nat) : Nat := if stewardRegion ch 0x3800000 then 0x1C0000 else 0x200000

/-- The sizes of R302. -/
def HenArgs.sizesOk (a : HenArgs) (ch : Nat) : Bool :=
  (!a.usesElems || a.elems % 32 == 0) && (!a.usesVecs || decide (a.vecs ≤ 24)) &&
  (!(a.op == some .dot || a.op == some .kvscore || a.op == some .chainsum) || decide (a.rows * a.vecs ≤ 2048)) &&
  (a.op != some .kvmix || decide (a.elems * a.vecs ≤ 2048)) &&
  (!a.atBanks || a.hoff % 64 == 0) &&
  (!a.atBanks || a.op == some .rowgather || decide (a.hoff + a.rows * a.rowBytes ≤ henEnd ch)) &&
  decide (a.vbOff + max a.vbReads a.vbWrites ≤ 16384)

/-- The destination of a delivery or the source of a VLOAD (R284, R302). -/
def HenArgs.placeOk (a : HenArgs) (core ch : Nat) : Bool :=
  let rows := a.outRows
  let last := rows.foldl (fun m r => max m (r.1 + r.2)) a.addr
  rows.isEmpty ||
  (a.space != 3 && !(a.space == 2 && (a.op == some .vload || a.op == some .rowgather)) && !anyOverlap rows &&
   (if a.space = 2 then
      a.addr % 64 == 0 && a.stride % 64 == 0 && (rows.all fun r => r.2 % 64 == 0) && decide (last ≤ channelBytes) &&
        !(stewardRegion ch (last - 1))
    else tileInPlace core a.space a.addr (last - a.addr)))

/-! ### Ranges and visits (R291, R307) -/

/-- The channel offset of a hen offset (R291). -/
def henToChannel (h u : Nat) : Nat := u / 2048 * 65536 + h * 2048 + u % 2048

/-- A range of hen offsets cut at DRAM rows of 1 KiB: first offset and end of each piece. -/
def henSpans : Nat → Nat → Nat → List (Nat × Nat)
  | 0, _, _ => []
  | fuel + 1, lo, hi =>
    if hi ≤ lo then []
    else
      let e := min hi ((lo / 1024 + 1) * 1024)
      (lo, e) :: henSpans fuel e hi

/-- A visit: the row of ROWGATHER that it belongs to with the mark of its last visit, and its hen offsets. -/
structure Visit where
  lo : Nat
  hi : Nat
  rowEnd : Bool
  deriving DecidableEq, Repr

def Visit.lines (v : Visit) : Nat := (v.hi - 1) / 64 + 1 - v.lo / 64

/-- The rows that ROWGATHER reaches, from the row numbers in the VB, and whether it meets one beyond the space. -/
def HenArgs.gatherRows (a : HenArgs) (ch : Nat) (vb : List Byte) : List Nat × Bool :=
  let ns := (List.range a.rows).map fun i => bytesToNat ((vb.drop (a.vbOff + 2 * i)).take 2)
  let ok (r : Nat) : Bool := decide (a.hoff + (r + 1) * a.rowBytes ≤ henEnd ch)
  (ns.takeWhile ok, !ns.all ok)

/-- The visits of a command on one hen (R307). -/
def HenArgs.visits (a : HenArgs) (ch : Nat) (vb : List Byte) : List Visit :=
  let spans (lo hi : Nat) : List (Nat × Nat) := henSpans ((hi - lo) / 1024 + 2) lo hi
  if !a.atBanks then []
  else if a.op == some .rowgather then
    (a.gatherRows ch vb).1.flatMap fun r =>
      let lo := a.hoff + r * a.rowBytes
      (spans lo (lo + a.rowBytes)).map fun (x, y) => ⟨x, y, y == lo + a.rowBytes⟩
  else (spans a.hoff (a.hoff + a.rows * a.rowBytes)).map fun (x, y) => ⟨x, y, false⟩

/-! ### Durations (R306, R307) -/

def HenArgs.vps (a : HenArgs) : Nat :=
  let g := if a.sfmt == .t2 || a.sfmt == .e2m1 || a.sfmt == .mxint4 then 12
    else if a.sfmt == .bf16 || a.sfmt == .fp16 then 8 else 4
  if a.vfmt == .fp32 then g / 4 else g

def HenArgs.slot (a : HenArgs) : Nat :=
  if a.inPlace then 12
  else if a.op == some .rowgather then 6
  else 6 * ((a.vecs + a.vps - 1) / a.vps)

def HenArgs.visitTime (a : HenArgs) (v : Visit) (last : Bool) : Nat := max (v.lines * a.slot) (if last then 39 else 28)
def henOpen : Nat := 21
def HenArgs.closeTime (a : HenArgs) : Nat := if a.inPlace then 29 else 17

/-- A segment over a nonempty list of visits. -/
def HenArgs.segmentTime (a : HenArgs) : List Visit → Nat
  | [] => henOpen + a.closeTime
  | [v] => henOpen + a.visitTime v true + a.closeTime
  | v :: vs => a.visitTime v false + a.segmentTime vs

def hopTime (n : Nat) : Nat := 4 + (4 * n + 31) / 32
def linesOf (bytes : Nat) : Nat := (bytes + 63) / 64
/-- A VLOAD or a delivery of `n` lines holds the lanes (R307). -/
def transferTime (n : Nat) : Nat := 12 + 4 * n

/-! ### Arithmetic (R218, R300) -/

/-- One stored row or vector in blocks of integer units with their scale exponents; formats without scales have exponent 0. -/
def henBlocks (f : Fmt) (n : Nat) (bytes : List Byte) : List (List Int × Int) × List NumEvent :=
  let scales := bytes.drop (f.elemBytes n)
  let bs := List.zipWith (fun codes i => blockUnits f codes (scales.getD i 0x7F).toNat)
    (blocksOf ((n + 31) / 32) (f.unpack n bytes)) (List.range ((n + 31) / 32))
  (bs.map fun b => (b.1, b.2.1), bs.flatMap fun b => b.2.2)

/-- The elements of blocks as exact values. -/
def henValues (f : Fmt) (n : Nat) (bytes : List Byte) : List Dy × List NumEvent :=
  let codes := f.unpack n bytes
  let scales := bytes.drop (f.elemBytes n)
  let bs := List.zipWith (fun (cs : List Nat) i =>
    let x := (scales.getD i 0x7F).toNat
    if f.isBlock && x == 0xFF then (cs.map fun _ => (f.largest false).scale 127, [NumEvent.nan f])
    else
      let r := cs.map f.readArray
      (r.map fun e => if f.isBlock then e.1.scale ((x : Int) - 127) else e.1, r.flatMap (·.2)))
    (blocksOf ((n + 31) / 32) codes) (List.range ((n + 31) / 32))
  (bs.flatMap (·.1), bs.flatMap (·.2))

/-- The sum of a row and a vector, block by block from a start value. -/
def henDot (fs fv : Fmt) : Word32 → List (List Int × Int) → List (List Int × Int) → Word32 × List NumEvent
  | acc, (xs, ex) :: rs, (ys, ey) :: vs =>
    let (b, e1) := blockValue fs fv (dotInt xs ys) ex ey
    let (a, e2) := f32Add acc b
    let (r, e3) := henDot fs fv a rs vs
    (r, e1 ++ e2 ++ e3)
  | acc, _, _ => (acc, [])

/-- Exact sum of the products of two lists. -/
def dotDy : List Dy → List Dy → Dy
  | x :: xs, y :: ys => (x.mul y).add (dotDy xs ys)
  | _, _ => .zero

/-- The KVMIX sum of one column over the rows, in blocks of 32 rows (R300). -/
def mixSum : Nat → Word32 → List Dy → List Dy → Word32 × List NumEvent
  | 0, acc, _, _ => (acc, [])
  | n + 1, acc, xs, ws =>
    if xs.isEmpty then (acc, [])
    else
      let q := dotDy (xs.take 32) (ws.take 32)
      let (b, e1) := writeF32 (.num (if q.isZero then .zero else q))
      let (a, e2) := f32Add acc b
      let (r, e3) := mixSum n a (xs.drop 32) (ws.drop 32)
      (r, e1 ++ e2 ++ e3)

def cut (l : List Byte) (at_ n : Nat) : List Byte := (l.drop at_).take n

/-- The rows that are whole within the data read. -/
def HenArgs.wholeRows (a : HenArgs) (data : List Byte) : Nat :=
  if a.rowBytes = 0 then 0 else min a.rows (data.length / a.rowBytes)

/-- The sums that DOT, KVSCORE and KVMIX form on one hen, in the order of their PB entries (R299). -/
def HenArgs.sums (a : HenArgs) (h : Nat) (vb data : List Byte) (pb : Nat → Word32) : List Word32 × List NumEvent :=
  let start (e : Nat) : Word32 := if a.acc then pb e else 0
  if a.op == some .kvmix then
    let rows := (List.range a.rows).map fun i => henValues a.sfmt a.elems (cut data (i * a.rowBytes) a.rowBytes)
    let wb := a.vfmt.bits / 8
    let j := a.rank h
    let weights := (List.range a.vecs).map fun b =>
      henValues a.vfmt a.rows (cut vb (a.vbOff + (b * a.hens.length + j) * a.rows * wb) (a.rows * wb))
    let cells := (List.range (a.vecs * a.elems)).map fun e =>
      mixSum (a.rows / 32 + 1) (start e) (rows.map fun r => r.1.getD (e % a.elems) .zero) (weights.getD (e / a.elems) ([], [])).1
    (cells.map (·.1), rows.flatMap (·.2) ++ weights.flatMap (·.2) ++ cells.flatMap (·.2))
  else
    let rows := (List.range a.rows).map fun i => henBlocks a.sfmt a.elems (cut data (i * a.rowBytes) a.rowBytes)
    let vecs := (List.range a.vecs).map fun b => henBlocks a.vfmt a.elems (cut vb (a.vbOff + b * a.vecBytes) a.vecBytes)
    let cells := (List.range (a.vecs * a.rows)).map fun e =>
      henDot a.sfmt a.vfmt (start e) (rows.getD (e % a.rows) ([], [])).1 (vecs.getD (e / a.rows) ([], [])).1
    (cells.map (·.1), rows.flatMap (·.2) ++ vecs.flatMap (·.2) ++ cells.flatMap (·.2))

/-- Row `i` after ROWSCALE or ROWAXPY: each element exact, rounded once into SFMT (R300). -/
def HenArgs.newRow (a : HenArgs) (vb data : List Byte) (i : Nat) : List Byte × List NumEvent :=
  let (xs, e1) := henValues a.sfmt a.elems (cut data (i * a.rowBytes) a.rowBytes)
  if a.op == some .rowscale then
    let (k, e2) := Fmt.fp32.readArray (bytesToNat (cut vb (a.vbOff + 4 * i) 4))
    let (bs, e3) := a.sfmt.operand .nearest (xs.map fun x => .num (x.mul k))
    (bs, e1 ++ e2 ++ e3)
  else
    let (k, e2) := Fmt.fp32.readArray a.scalar
    let (ys, e3) := henValues a.vfmt a.elems (cut vb (a.vbOff + i * a.vecBytes) a.vecBytes)
    let (bs, e4) := a.sfmt.operand .nearest (List.zipWith (fun x y => .num (x.add (k.mul y))) xs ys)
    (bs, (if i = 0 then e2 else []) ++ e1 ++ e3 ++ e4)

/-- The first `n` rows replaced by their new values. -/
def HenArgs.newRows (a : HenArgs) (vb data : List Byte) : Nat → List Byte × List NumEvent
  | 0 => ([], [])
  | n + 1 =>
    let (done, e1) := a.newRows vb data n
    let (row, e2) := a.newRow vb data n
    (done ++ row, e1 ++ e2)

/-- A delivered value in OFMT (R300). -/
def HenArgs.outValue (a : HenArgs) (v : Word32) : List Byte × List NumEvent :=
  if a.ofmt = 0 then (natToBytes 4 v.toNat, [])
  else
    let (n, e) := Fmt.bf16.write .nearest (readF32 v).1
    (natToBytes 2 n, e)

def HenArgs.outValues (a : HenArgs) (vs : List Word32) : List Byte × List NumEvent :=
  let r := vs.map a.outValue
  (r.flatMap (·.1), r.flatMap (·.2))

/-- fp32_add of two lists (R218). -/
def addLists (xs ys : List Word32) : List Word32 × List NumEvent :=
  let r := List.zipWith f32Add xs ys
  (r.map (·.1), r.flatMap (·.2))

end Sys2Proof.Machine
end

