-- ==== Sys2Proof/Machine/ChannelOps.lean ====
section
/-! DEFINITION. The channel controller's parts: the window, the prefetcher, bank timing and the choice of a command
(spec file 06_store_slices_and_vertical_channels.md). Times are `run` cycles of the 1.2 GHz reference. -/
namespace Sys2Proof.Machine

/-! ### Timings of R251 in reference cycles, rounded up -/

def tRCD : Nat := 17
def tRP : Nat := 17
def tRAS : Nat := 39
def tRC : Nat := 56
def tRRD : Nat := 3
def tCCD : Nat := 4
def tCL : Nat := 12
def tCWL : Nat := 6
def tLINE : Nat := 4
/-- Activate issue: two command slots for the row address and two cycles of layer decode. -/
def tACT_ISS : Nat := 4
def tWR : Nat := 12
def tWTR : Nat := 3
def tRTW : Nat := 2
def tRFQ : Nat := 72

/-! ### Requests -/

/-- Reads of the core above the channel, or of its adopter, train the trackers (R270). -/
def State.trains (s : State) (ch : Nat) (r : Req) : Bool :=
  r.src.core.isSome && r.src.core == s.issuer ch && s.isOwn (r.addr / 2 ^ 48 % 64)

/-! ### Stream trackers and the prefetch buffer (R270 to R274) -/

/-- The line is the tracker's own or the next of its stream; an unconfirmed tracker takes a neighbour within 2 µs. -/
def Tracker.hits (t : Tracker) (line now : Nat) : Bool :=
  line == t.line ||
  (match t.dir with
   | some true => line == t.line + 1
   | some false => line + 1 == t.line
   | none => (line == t.line + 1 || line + 1 == t.line) && decide (now ≤ t.seenAt + usCycles 2))

/-- The last line of the stream: the end of the channel, or the edge of the granule for a spread stream. -/
def Tracker.within (t : Tracker) (line : Nat) : Bool :=
  decide (line < 2 ^ 20) && (!t.spread || line / 64 == t.line / 64)

/-- The line after `line` in a stream's direction, none past the end (R271). -/
def Tracker.following (t : Tracker) (line : Nat) : Option Nat :=
  match t.dir with
  | some true => if t.within (line + 1) then some (line + 1) else none
  | some false => if 0 < line && t.within (line - 1) then some (line - 1) else none
  | none => none

/-- The tracker after a read that hits it: a pair gives the direction, the newest demanded line moves on. -/
def Tracker.advance (t : Tracker) (line now : Nat) (spread : Bool) : Tracker :=
  if line = t.line then { t with seenAt := now }
  else
    let fresh := t.dir.isNone
    let u : Tracker := { t with dir := some (t.line < line), line := line, seenAt := now, spread := spread }
    let ahead := if t.line < line then decide (line < u.next) else decide (u.next < line)
    if !fresh && ahead then u
    else
      match u.following line with
      | some n => { u with next := n, ended := false }
      | none => { u with ended := true }

/-- The trackers trained by a read: most recently used first, eight of them. -/
def Channel.train (c : Channel) (line now : Nat) (spread : Bool) : Channel :=
  match c.trackers.find? (·.hits line now) with
  | some t => { c with trackers := t.advance line now spread :: c.trackers.filter (· != t) }
  | none => { c with trackers := (⟨line, none, now, spread, 0, false⟩ :: c.trackers).take 8 }

/-- A line that a tracker still wants: at most PREFETCH_DEPTH ahead of the newest demanded line. -/
def Tracker.wants (t : Tracker) (depth : Nat) : Option Nat :=
  if t.dir.isNone || t.ended || !t.within t.next then none
  else if max t.next t.line - min t.next t.line ≤ depth then some t.next else none

def Tracker.skip (t : Tracker) : Tracker :=
  match t.following t.next with
  | some n => { t with next := n }
  | none => { t with ended := true }

/-- The line gets no prefetch: in the buffer, in flight, requested by a demand entry (R272), or in a hen's write range (R321). -/
def Channel.have (c : Channel) (line : Nat) : Bool :=
  c.buffer.any (·.line == line) || c.flight.any (·.line == line) || c.window.any (·.line == line) ||
    c.ranges.any fun r => r.write && r.covers (line * 64)

/-- Trackers with the lines skipped that need no prefetch. -/
def Tracker.settle (c : Channel) (depth : Nat) : Nat → Tracker → Tracker
  | 0, t => t
  | n + 1, t =>
    match t.wants depth with
    | some l => if c.have l then Tracker.settle c depth n t.skip else t
    | none => t

/-- The line to prefetch next, with its tracker's place: most recently used tracker first. -/
def Channel.nextPrefetch (c : Channel) (depth : Nat) : Option (Nat × Nat × Bool) :=
  ((List.zip (List.range 8) c.trackers).filterMap fun (i, t) =>
    let t := Tracker.settle c depth 33 t
    (t.wants depth).map fun l => (i, l, t.spread)).head?

/-- A prefetched line put aside unused: the oldest of the buffer. -/
def Channel.dropOldest (c : Channel) : Channel :=
  { c with buffer := c.buffer.drop 1, pfUnused := c.pfUnused + 1 }

def Channel.prefetched (c : Channel) : Nat :=
  c.buffer.length + (c.flight.filter fun f => f.prefetch && f.reqs.isEmpty).length

/-- A write reaches the controller: a prefetched copy of its line, in the buffer or in flight, is dropped (R273, R274). -/
def Channel.writeArrives (c : Channel) (line : Nat) : Channel :=
  let inBuf := (c.buffer.filter (·.line == line)).length
  let inFlight := (c.flight.filter fun f => f.line == line && f.prefetch && f.reqs.isEmpty).length
  { c with
    buffer := c.buffer.filter (·.line != line)
    flight := c.flight.filter fun f => !(f.line == line && f.prefetch && f.reqs.isEmpty)
    pfUnused := c.pfUnused + BitVec.ofNat 32 (inBuf + inFlight) }

/-! ### Banks -/

def Channel.bank (c : Channel) (b : Nat) : BankTiming := Map.get {} c.banks b
def Channel.setBank (c : Channel) (b : Nat) (v : BankTiming) : Channel := { c with banks := Map.set {} c.banks b v }

/-- The bank pair is held by a hen segment (R312, R314): hen b ÷ 2 serves bank index b. -/
def Channel.held (c : Channel) (b : Nat) : Bool := c.segments.any fun g => g.hen == b / 2

/-- The bank takes no command now: a refresh runs in it or a segment holds it. -/
def Channel.busy (c : Channel) (b now : Nat) : Bool := decide (now < (c.bank b).busyUntil) || c.held b

def lineBank (line : Nat) : Nat := bankOf (line * 64)
def lineRow (line : Nat) : Nat := rowOf (line * 64)

/-- An activate may issue: it opens its row tACT_ISS later, tRC after the bank's last and tRRD from any other's, a running hen
segment's included, in two command slots (R251, R309). -/
def Channel.activateLegal (c : Channel) (b now : Nat) : Bool :=
  let k := c.bank b
  let at_ := now + tACT_ISS
  !c.busy b now && k.open_.isNone && decide (k.prechargedAt + tRP ≤ now) && decide (k.activatedAt + tRC ≤ at_) &&
    decide (c.lastActivate + tRRD ≤ at_) && !c.slots.contains (now + 1) &&
    c.segments.all fun g => g.acts.all fun t => decide (t + tRRD ≤ at_) || decide (at_ + tRRD ≤ t)

def Channel.prechargeLegal (c : Channel) (b now : Nat) : Bool :=
  let k := c.bank b
  !c.busy b now && k.open_.isSome && decide (k.activatedAt + tRAS ≤ now) && decide (k.writeEnd + tWR ≤ now)

/-- Lines of a hen transfer that have passed once its 12 cycles are over, the ordinary ones between them left out. -/
def HenTransfer.passed (t : HenTransfer) (now : Nat) : Nat := (now - (t.startRun + 12)) / tLINE - t.entered

/-- The data lanes take an ordinary transfer: after 16 in a row a waiting hen transfer goes first, and during a hen
transfer at most one enters between any two of its lines (R305). -/
def Channel.lanesTake (c : Channel) (now : Nat) : Bool :=
  match c.transfer with
  | some t => decide (t.gap < t.passed now) && decide (t.passed now < t.lines)
  | none => decide (c.ordinary < 16)

/-- The line's row is open for column commands. -/
def Channel.rowReady (c : Channel) (line now : Nat) : Bool :=
  let k := c.bank (lineBank line)
  !c.busy (lineBank line) now && k.open_ == some (lineRow line) && decide (k.activatedAt + tRCD ≤ now)

/-- When the write column of a read-modify-write issues whose read column issues now: its data follow those of the read after tRTW. -/
def writeColumn (now : Nat) : Nat := now + tCL + tLINE + tRTW - tCWL

/-- A column command keeps R251 and R305: a read, or the read that a read-modify-write begins with, after tWTR; a full-line write
with its data after tRTW; a read-modify-write takes the command slot of its write column too. A read in flight for a line holds back a
write of it, a read-modify-write any access to it (R255). -/
def Channel.columnLegal (c : Channel) (line : Nat) (read full : Bool) (now : Nat) : Bool :=
  c.rowReady line now && c.lanesTake now && decide (c.columnAt + tCCD ≤ now) &&
    (if read || !full then decide (c.writeEnd + tWTR ≤ now) else decide (c.readEnd + tRTW ≤ now + tCWL)) &&
    (read || full || !c.slots.contains (writeColumn now)) &&
    !c.flight.any fun f => f.line == line && (!read || f.rmw)

/-- A row's count on an activate (R256). -/
def countActivate (rows : List (Nat × Nat)) (row : Nat) : List (Nat × Nat) :=
  if rows.any (·.1 == row) then rows.map fun (r, n) => if r = row then (r, n + 1) else (r, n)
  else if rows.length < 8 then rows ++ [(row, 1)]
  else (rows.map fun (r, n) => (r, n - 1)).filter fun e => e.2 != 0

/-- The bank's activation table after an activate, and a neighbour refresh that becomes due (R256). -/
def BankTiming.noteActivate (k : BankTiming) (row now : Nat) : BankTiming :=
  let rows := countActivate k.rows row
  let hit := rows.any fun (r, n) => r == row && n == 4096
  { k with rows := rows, neighbour := if hit then some (row, now + usCycles 2) else k.neighbour }

def Channel.activate (c : Channel) (b row now : Nat) : Channel :=
  let k := (c.bank b).noteActivate row now
  { c.setBank b { k with open_ := some row, activatedAt := now + tACT_ISS } with
    lastActivate := now + tACT_ISS, activates := c.activates + 1 }

def Channel.precharge (c : Channel) (b now : Nat) : Channel :=
  c.setBank b { c.bank b with open_ := none, prechargedAt := now }

/-- One refresh quantum in a precharged bank (R251, R311); `wall` is the time that a freeze does not stop. -/
def Channel.quantum (c : Channel) (b now wall : Nat) : Channel :=
  let k := c.bank b
  c.setBank b { k with owed := k.owed - 1, busyUntil := now + tRFQ, refreshEnd := wall + tRFQ }

/-- The neighbour refresh of R256: the row's count starts again from 0, which frees its entry. -/
def Channel.neighbourRefresh (c : Channel) (b now wall : Nat) : Channel :=
  let k := c.bank b
  let rows := match k.neighbour with
    | some (row, _) => k.rows.map fun (r, n) => if r = row then (r, 0) else (r, n)
    | none => k.rows
  c.setBank b { k with rows := rows, neighbour := none, busyUntil := now + tRFQ, refreshEnd := wall + tRFQ }

/-! ### The choice of a command (R277) -/

/-- What the controller issues in a cycle. -/
inductive Command where
  | none
  | quantum (b : Nat)
  | neighbour (b : Nat)
  | precharge (b : Nat)
  | activate (b row : Nat)
  | column (e : WinEntry)
  | writeBack (w : WriteBack)
  | prefetch (tracker line : Nat) (spread : Bool)
  | segment (seg : Segment)
  | transfer (t : HenTransfer)
  | scrub
  deriving DecidableEq, Repr

/-- A command is valid. -/
def Command.valid (c : Command) : Bool := c != .none

/-- The first valid command. -/
def firstValid : List Command → Command
  | [] => .none
  | c :: cs => if c.valid then c else firstValid cs

/-- A duty in a bank: its own command once the bank is precharged, else the precharge that it needs. -/
def Channel.dutyIn (c : Channel) (b now : Nat) (cmd : Command) : Command :=
  let k := c.bank b
  if c.busy b now then .none
  else if k.open_.isSome then (if c.prechargeLegal b now then .precharge b else .none)
  else if k.prechargedAt + tRP ≤ now then cmd else .none

/-- An entry of the window needs the row that is open in the bank. -/
def Channel.openRowNeeded (c : Channel) (b : Nat) : Bool :=
  match (c.bank b).open_ with
  | some row => c.window.any fun e => lineBank e.line == b && lineRow e.line == row
  | none => false

/-- The bank's next command must be a duty: four quanta owed, or a neighbour refresh due. -/
def Channel.reserved (c : Channel) (b : Nat) : Bool := 4 ≤ (c.bank b).owed || (c.bank b).neighbour.isSome

/-- The bank is in boundary service, which serves its requests in arrival order (R313). -/
def Channel.atBoundary (c : Channel) (b : Nat) : Bool := Map.get 0 c.boundary (b / 2) != 0

/-- A queued write-back of the line whose read came before the entry goes first (R439). -/
def Channel.writeBackFirst (c : Channel) (e : WinEntry) : Bool := c.wbq.any fun w => w.line == e.line && decide (w.at_ ≤ e.arrival)

/-- The entry waits: for an earlier one of its line or a queued write-back (R278, R439), or, when its column command would answer the
core above, as a write's does and that of a read in a hen's write range (R321), for room in the FIFO towards it (R70). -/
def Channel.mustWait (c : Channel) (e : WinEntry) : Bool :=
  (c.window.takeWhile (fun x => x != e)).any (fun x => x.line == e.line) || c.writeBackFirst e ||
    ((!e.isRead || c.ranges.any fun r => r.write && r.covers (e.line * 64)) && e.fromCore && 32 ≤ c.up.length)

/-- The next legal command for a line: its column, or the activate or, where `close` allows it, the precharge that brings it nearer. -/
def Channel.toward (c : Channel) (line : Nat) (read full close : Bool) (now : Nat) (col : Command) : Command :=
  let b := lineBank line
  if c.reserved b then .none
  else if (c.bank b).open_ == some (lineRow line) then (if c.columnLegal line read full now then col else .none)
  else if (c.bank b).open_.isNone then (if c.activateLegal b now then .activate b (lineRow line) else .none)
  else if close && c.prechargeLegal b now then .precharge b else .none

/-- The same for an entry of the window. -/
def Channel.towardEntry (c : Channel) (e : WinEntry) (now : Nat) : Command := c.toward e.line e.isRead e.full true now (.column e)

/-- Step 3 of boundary service is over for a pair that has found no request waiting, with nothing forced or due: requests that come
later wait for the procedure's end (R313). -/
def Channel.settleBoundary (c : Channel) : Channel :=
  { c with boundary := c.boundary.map fun (e : Nat × Nat) =>
      if ([2 * e.1, 2 * e.1 + 1].all fun b => !c.reserved b) && !(c.window.any fun x => lineBank x.line / 2 == e.1) then (e.1, 1) else e }

/-- boundary_service() of R313 for a hen's pair, after the forced quanta and neighbour refreshes that every bank gets
first: write-backs of R324 but those that an aged entry holds back (R279), the oldest waiting request while the quota lasts, then the
other owed quanta. -/
def Channel.serveBoundary (c : Channel) (h left now : Nat) (late : Nat → Bool) : Command :=
  let mine := c.wbq.filter fun w => lineBank w.line / 2 == h && !late w.line
  let backs := mine.map fun w => c.toward w.line false true true now (.writeBack w)
  match (if 1 < left then c.window.find? fun e => lineBank e.line / 2 == h else none) with
  | some e => firstValid (backs ++ [if c.mustWait e then .none else c.towardEntry e now])
  | none => firstValid (backs ++ [2 * h, 2 * h + 1].map fun b => if 0 < (c.bank b).owed then c.dutyIn b now (.quantum b) else .none)

/-- Boundary service of the pair is over: nothing forced, due or owed, and no request that it may still serve. -/
def Channel.boundaryOver (c : Channel) (h left : Nat) (late : Nat → Bool) : Bool :=
  ([2 * h, 2 * h + 1].all fun b => (c.bank b).owed == 0 && !c.reserved b) &&
  !(c.wbq.any fun w => lineBank w.line / 2 == h && !late w.line) &&
  (left == 1 || !(c.window.any fun e => lineBank e.line / 2 == h))

/-- timing_duty_command() for refresh and neighbour refresh (R256, R311) and for boundary service (R313): forced quanta,
neighbour refreshes, boundary service, then other owed quanta of banks whose open row nobody needs. -/
def Channel.dutyCommand (c : Channel) (now : Nat) (late : Nat → Bool) : Command :=
  let banks := c.banks.map (·.1)
  firstValid (
    (banks.map fun b => if 4 ≤ (c.bank b).owed then c.dutyIn b now (.quantum b) else .none) ++
    (banks.map fun b => if (c.bank b).neighbour.isSome then c.dutyIn b now (.neighbour b) else .none) ++
    (c.boundary.map fun (h, left) => c.serveBoundary h left now late) ++
    (banks.map fun b => if 0 < (c.bank b).owed && !c.openRowNeeded b && !c.atBoundary b then c.dutyIn b now (.quantum b) else .none))

/-- Banks with entries, by their oldest entry. -/
def Channel.entryBanks (c : Channel) : List Nat :=
  c.window.foldl (fun l e => if l.contains (lineBank e.line) then l else l ++ [lineBank e.line]) []

/-- row_with_most_entries(b); a tie goes to the row of the oldest entry. -/
def Channel.fullestRow (c : Channel) (b : Nat) : Nat :=
  let rows := (c.window.filter fun e => lineBank e.line == b).map fun e => lineRow e.line
  let count (r : Nat) : Nat := (rows.filter (· == r)).length
  rows.foldl (fun best r => if count best < count r then r else best) (rows.headD 0)

/-- A line of another row in the bank of the oldest entry, which has been in the window for SORT_AGE_MAX: no command for it goes before
that entry's own (R279). -/
def Channel.waitsForAged (c : Channel) (line now ageMax : Nat) : Bool :=
  match c.window with
  | e :: _ => decide (e.arrival + ageMax ≤ now) && lineBank e.line == lineBank line && lineRow e.line != lineRow line
  | [] => false

/-- choose() over the window with the sorter (R277). Its first step lets the columns of other open rows of an aged entry's bank go, where
R279's words hold every command for another row of that bank back: the words are followed (assumption 24, DEDUCED). -/
def Channel.chooseSorted (c : Channel) (now ageMax : Nat) : Command :=
  let aged := match c.window with
    | e :: _ => decide (e.arrival + ageMax ≤ now)
    | [] => false
  let oldest := match c.window with
    | e :: _ => if aged && !c.mustWait e && !c.atBoundary (lineBank e.line) then c.towardEntry e now else .none
    | [] => .none
  let skip := match c.window with
    | e :: _ => if aged then some (lineBank e.line) else none
    | [] => none
  firstValid (
    [oldest] ++
    (c.window.map fun e =>
      if !c.waitsForAged e.line now ageMax && !c.reserved (lineBank e.line) && !c.atBoundary (lineBank e.line) &&
          c.columnLegal e.line e.isRead e.full now && !c.mustWait e then .column e else .none) ++
    (c.entryBanks.map fun b =>
      if skip != some b && !c.reserved b && !c.atBoundary b && c.activateLegal b now then .activate b (c.fullestRow b) else .none) ++
    (c.entryBanks.map fun b =>
      if skip != some b && !c.reserved b && !c.atBoundary b && !c.openRowNeeded b && c.prechargeLegal b now then .precharge b else .none))

/-- The write-back queue's next command, which goes ahead of the window (R439); as an ordinary write it closes a row in its way
(R252, assumption 24). -/
def Channel.chooseWriteBack (c : Channel) (now : Nat) : Command :=
  firstValid (c.wbq.map fun w => c.toward w.line false true true now (.writeBack w))

/-- The next command of a prefetch, when no demand entry can issue (R272); it closes no row (R252), and a queued write-back of its line
goes ahead of it (R439). -/
def Channel.choosePrefetch (c : Channel) (now depth : Nat) : Command :=
  match c.nextPrefetch depth with
  | some (i, line, spread) =>
    let b := lineBank line
    if c.atBoundary b || (32 ≤ c.prefetched && c.buffer.isEmpty) || c.wbq.any (·.line == line) then .none
    else c.toward line true true false now (.prefetch i line spread)
  | none => .none

end Sys2Proof.Machine
end

