-- ==== Sys2Proof/Machine/HenOps.lean ====
section
/-! DEFINITION. Hen sequences in a channel: order, admission, segments, transfers and their ends (R303 to R326), the
scrub's reads (R458), and the choice of the controller's next command (R277, R309). -/
namespace Sys2Proof.Machine

/-! ### Buffers and sequences -/

def State.henBuf (s : State) (ch h : Nat) : HenBuf := Map.get {} (s.channel ch).hens h

/-- The 16 KiB of a VB. -/
def HenBuf.vbBytes (b : HenBuf) : List Byte := b.vb ++ List.replicate (16384 - b.vb.length) 0
def HenBuf.pbEntry (b : HenBuf) (e : Nat) : Word32 := b.pb.getD e 0
def HenBuf.setVb (b : HenBuf) (off : Nat) (bytes : List Byte) : HenBuf :=
  { b with vb := b.vbBytes.take off ++ bytes ++ b.vbBytes.drop (off + bytes.length) }
def HenBuf.setPb (b : HenBuf) (vs : List Word32) : HenBuf := { b with pb := vs ++ b.pb.drop vs.length }

def State.setHenBuf (s : State) (ch h : Nat) (b : HenBuf) : State :=
  s.setChannel ch { s.channel ch with hens := Map.set {} (s.channel ch).hens h b }

def State.updSeq (s : State) (ch desc : Nat) (g : HenSeq → HenSeq) : State :=
  s.setChannel ch { s.channel ch with seqs := (s.channel ch).seqs.map fun q => if q.desc = desc then g q else q }

def HenSeq.updCmd (q : HenSeq) (k : Nat) (g : HenCmd → HenCmd) : HenSeq := { q with cmds := q.cmds.modify k g }

def HenCmd.updWork (c : HenCmd) (h : Nat) (g : HenWork → HenWork) : HenCmd :=
  { c with works := c.works.map fun w => if w.hen = h then g w else w }

def HenCmd.allDone (c : HenCmd) : Bool := c.works.all (·.finished)

/-- The status of a descriptor's work set for DMA_COMPLETE. -/
def State.endDma (s : State) (core id : Nat) (st : Status) : State :=
  let c := s.core core
  s.setCore core { c with dma := c.dma.map fun d => if d.id = id && d.status.isNone then { d with status := some st } else d }

/-! ### Order (R303) -/

/-- Channel lines of the destination of a delivery into the channel. -/
def HenArgs.destLines (a : HenArgs) : List Nat :=
  if a.space = 2 && a.op != some .vload then
    a.outRows.flatMap fun r => (List.range (r.2 / 64)).map fun i => r.1 / 64 + i
  else []

/-- The command's DRAM range covers a channel line. -/
def HenArgs.touches (a : HenArgs) (line : Nat) : Bool :=
  a.destLines.contains line ||
  (a.atBanks && a.mask.testBit (henOf (line * 64)) &&
    (let u := henOffset (line * 64)
     decide (a.hoff / 64 ≤ u / 64) && (a.op == some .rowgather || decide (u < a.hoff + a.rows * a.rowBytes))))

/-- Two commands of different descriptors with overlapping DRAM ranges, one of them written. Ranges on one hen are
ordered by the hen, so one range is a destination. -/
def HenArgs.conflicts (a b : HenArgs) : Bool := a.destLines.any b.touches || b.destLines.any a.touches

def HenCmd.finishedOn (c : HenCmd) (h : Nat) : Bool := c.works.all fun w => w.hen != h || w.finished

/-- A command may start on a hen as far as the earlier commands of its own list go. -/
def mayStartInList (before : List HenCmd) (c : HenCmd) (h : Nat) : Bool :=
  let a := henArgs c.words
  before.all fun e =>
    let b := henArgs e.words
    if a.op = some .vload then
      e.finishedOn h || b.vbReads == 0 || decide (b.vbOff + b.vbReads ≤ a.vbOff) || decide (a.vbOff + a.load ≤ b.vbOff)
    else e.finishedOn h

/-- Command `k` of a sequence may start on a hen (R303). Of an earlier-accepted descriptor it waits on a hen for the commands that name
that hen to have finished there, and not on their other hens: the spec does not say whether the command as a whole is meant (assumption
87, DESIGN CHOICE). -/
def Channel.mayStart (c : Channel) (q : HenSeq) (k h : Nat) : Bool :=
  match q.cmds[k]? with
  | none => false
  | some cmd =>
    mayStartInList (q.cmds.take k) cmd h &&
    ((c.seqs.takeWhile fun p => p.desc != q.desc).all fun p => p.cmds.all fun e =>
      e.allDone || (e.finishedOn h && !(henArgs e.words).conflicts (henArgs cmd.words)))

/-- Every work of a channel with the sequence and the command it belongs to, in order of acceptance and hen number. -/
def Channel.allWorks (c : Channel) : List (HenSeq × Nat × HenCmd × HenWork) :=
  c.seqs.flatMap fun q => (List.zip (List.range q.cmds.length) q.cmds).flatMap fun (k, cmd) =>
    cmd.works.map fun w => (q, k, cmd, w)

/-- Works that may now start are noted with the time. -/
def State.stampReady (s : State) (ch : Nat) : State :=
  let c := s.channel ch
  let ready (q : HenSeq) (k : Nat) (cmd : HenCmd) (w : HenWork) : Bool :=
    w.since.isNone && !w.finished && !q.dead &&
    (if (henArgs cmd.words).op = some .vload || (henArgs cmd.words).op = some .chainsum then
       cmd.works.all fun v => c.mayStart q k v.hen
     else c.mayStart q k w.hen)
  s.setChannel ch { c with seqs := c.seqs.map fun q =>
    { q with cmds := (List.zip (List.range q.cmds.length) q.cmds).map fun (k, cmd) =>
      { cmd with works := cmd.works.map fun w => if ready q k cmd w then { w with since := some s.run } else w } } }

/-! ### Ends of commands and sequences (R304, R320) -/

/-- Ranges of finished work released; a sequence whose commands have all finished ends, its status the first that is not
OK in list order. -/
def State.settleSeq (s : State) (ch desc : Nat) : State :=
  let c := s.channel ch
  match c.seqs.find? (·.desc == desc) with
  | none => s
  | some q =>
    let keep (r : HenRange) : Bool :=
      r.desc != desc ||
      (match q.cmds[r.cmd]? with
       | some cmd => (match r.hen with
         | some h => !cmd.finishedOn h
         | none => !cmd.allDone)
       | none => false)
    let c := { c with ranges := c.ranges.filter keep }
    if q.cmds.all (·.allDone) && !q.dead then
      let st := (q.cmds.map (·.status)).find? (· ≠ 0) |>.getD 0
      ((s.setChannel ch { c with seqs := c.seqs.filter (·.desc != desc) }).endDma q.core desc st).stampReady ch
    else (s.setChannel ch c).stampReady ch

/-- Hen `h` (or every hen) has finished a command. -/
def State.finishHen (s : State) (ch desc k : Nat) (h : Option Nat) : State :=
  (s.updSeq ch desc fun q => q.updCmd k fun c =>
    { c with works := c.works.map fun w => if h.isNone || h = some w.hen then { w with finished := true } else w }).settleSeq ch desc

/-- A command fails: it keeps its first status, its sums that wait for the lanes are not delivered (R324), and the later
commands that have not started are not performed (R304). -/
def State.failCmd (s : State) (ch desc k : Nat) (st : Status) : State :=
  let onLanes (h : Nat) : Bool := match (s.channel ch).transfer with
    | some t => t.desc == desc && t.cmd == k && t.hen == some h
    | none => false
  s.updSeq ch desc fun q =>
    { q with cmds := (List.zip (List.range q.cmds.length) q.cmds).map fun (i, c) =>
      if i = k then
        let drop (w : HenWork) : Bool := (henArgs c.words).op == some .kvscore && w.computed.isSome && !onLanes w.hen
        { c with status := if c.status = 0 then st else c.status
                 works := c.works.map fun w => if drop w then { w with finished := true } else w }
      else if k < i && !c.started then { c with works := c.works.map fun w => { w with finished := true } }
      else c }

/-! ### Rows written in place (R299, R324) -/

/-- A rewrite entered in the write-back queue, or dropped when it is full (R439, R440). -/
def State.queueFix (s : State) (ch : Nat) (w : WriteBack) : State :=
  let c := s.channel ch
  if c.wbq.any fun x => x.line == w.line then s
  else if 4 ≤ c.wbq.length then s.setChannel ch { c with wbSkipped := addSat c.wbSkipped 1 }
  else s.setChannel ch { c with wbq := c.wbq ++ [w] }

/-- The rows wholly read are written with their new values; a line shared with the next row keeps that row's bytes. Corrected lines that
are not written, and the failing line, are rewritten as any hen's reads are (R324). -/
def State.writeRows (s : State) (ch h : Nat) (a : HenArgs) (w : HenWork) : State :=
  let data := w.data
  let n := a.wholeRows data
  let (new, ev) := a.newRows (s.henBuf ch h).vbBytes data n
  let img := new ++ data.drop new.length
  let lines := (List.range (linesOf new.length)).map fun i => henToChannel h (a.hoff + 64 * i)
  let s := (List.zip (List.range lines.length) lines).foldl (fun (s : State) e => s.putDramLine ch e.2 (cut img (64 * e.1) 64)) s
  let s := (w.fixes.filter fun x => !lines.contains (x.line * 64)).foldl (fun (s : State) x => s.queueFix ch x) s
  s.countEvents ch ev

/-- A sequence ended from outside with its issuing core told (R319) or not (R325): ranges are released, rows already
read in place stay written, and running segments go on to their end. -/
def State.killSeq (s : State) (ch desc : Nat) : State :=
  let c := s.channel ch
  match c.seqs.find? (·.desc == desc) with
  | none => s
  | some q =>
    let running := c.segments.filter (·.desc == desc)
    let works := (List.zip (List.range q.cmds.length) q.cmds).flatMap fun (k, cmd) => cmd.works.map fun w => (k, cmd, w)
    let s := works.foldl (fun s (k, cmd, w) =>
      let a := henArgs cmd.words
      if a.inPlace && w.computed.isNone && !(running.any fun g => g.cmd == k && g.hen == w.hen) then
        s.writeRows ch w.hen a w else s) s
    let c := s.channel ch
    let seqs := if running.isEmpty then c.seqs.filter (·.desc != desc)
      else c.seqs.map fun p => if p.desc = desc then { p with dead := true } else p
    let lost := match c.transfer with
      | some t => t.desc == desc
      | none => false
    let s := if lost then s.leaveReqs (· == .hen ch) else s
    (s.setChannel ch { c with
      seqs := seqs
      ranges := c.ranges.filter (·.desc != desc)
      ordinary := 0
      transfer := if lost then none else c.transfer }).stampReady ch

/-! ### Refresh intervals and limits (R310, R311, R316, R318) -/

/-- tREFI of a band, in cycles. -/
def bandInterval (band : Nat) : Nat :=
  match band with
  | 0 => 150000
  | 1 => 75000
  | 2 | 3 => 37500
  | _ => 18750

/-- The hen limit of a band. -/
def bandHens (band : Nat) : Nat :=
  match band with
  | 0 => 4 | 1 => 3 | 2 => 2 | _ => 0

/-- The limit that the field's hottest layer sets (R310). -/
def Field.bandLimit (f : Field) : Nat := (f.bands.map fun e => bandHens e.2).foldl min 4

/-- The limit of R316. -/
def State.henLimit (s : State) (f : Nat) : Nat :=
  min (s.reg 0x4200 2) (min (s.field f).bandLimit (s.field f).henForecast)

/-- No segment may start in the field (R318). -/
def State.hensHalted (s : State) (f : Nat) : Bool :=
  s.reg 0x4200 6 == 1 || s.reg 0x4200 7 == 1 || (s.field f).bandLimit == 0

/-- Refresh quanta that a bank of a layer comes to owe by a time. -/
def State.quantaBy (s : State) (f layer time : Nat) : Nat :=
  let (last, band) := Map.get (0, 0) (s.field f).refresh layer
  let step := bandInterval band
  if time < last + step then 0 else (time - last) / step

/-! ### Segments (R312) -/

/-- A bank's table and whether an activate of the row brings it to 4,096 (R256). -/
def planActivate (rows : List (Nat × Nat)) (row : Nat) : Bool × List (Nat × Nat) :=
  let t := countActivate rows row
  (t.any fun e => e.1 == row && e.2 == 4096, t)

/-- The bank index and row of a visit on a hen. -/
def Visit.bank (v : Visit) (h : Nat) : Nat := 2 * h + v.lo / 1024 % 2
def Visit.row (v : Visit) : Nat := v.lo / 2048

/-- How many visits the next segment takes, at least one: until an activation table reaches 4,096, SEG_MAX_CYCLES would be
passed, or a bank of the pair would come to owe five quanta. -/
def planSegment (a : HenArgs) (segMax : Nat) (fits : Nat → Bool) (h : Nat) :
    (Nat → List (Nat × Nat)) → Nat → List Visit → Nat
  | _, _, [] => 0
  | tables, t, v :: vs =>
    let t := t + a.visitTime v false
    let (hit, tab) := planActivate (tables (v.bank h)) v.row
    let tables := fun b => if b = v.bank h then tab else tables b
    match vs with
    | [] => 1
    | w :: _ =>
      let stop := t + a.visitTime w true + a.closeTime
      if hit || segMax < stop || !fits stop then 1 else 1 + planSegment a segMax fits h tables t vs

/-- Both banks of a hen's pair are free for a segment: no other duty or boundary service, no read under way, and no write-back that
goes ahead of it (R324). -/
def Channel.pairFree (c : Channel) (h now : Nat) : Bool :=
  !(c.segments.any (·.hen == h)) && Map.get 0 c.boundary h == 0 &&
  ([2 * h, 2 * h + 1].all fun b => !c.busy b now && !c.reserved b) &&
  !(c.flight.any fun f => lineBank f.line / 2 == h) && !(c.wbq.any fun w => lineBank w.line / 2 == h)

/-- The activates of a segment keep tRRD to those of the segments that run (R251, R309). -/
def Channel.actsApart (c : Channel) (g : Segment) : Bool :=
  c.segments.all fun x => x.acts.all fun t => g.acts.all fun u => decide (t + tRRD ≤ u) || decide (u + tRRD ≤ t)

/-- The command that brings a segment nearer: a precharge of an open row of its pair, or its start once both banks take an activate and
its schedule keeps R251 (R251, R252, R309). -/
def Channel.towardSegment (c : Channel) (g : Segment) (now : Nat) : Command :=
  let pair := [2 * g.hen, 2 * g.hen + 1]
  match pair.find? fun b => (c.bank b).open_.isSome with
  | some b => if c.prechargeLegal b now then .precharge b else .none
  | none => if (pair.all fun b => c.activateLegal b now) && c.actsApart g then .segment g else .none

/-- A layer that R317 restricts has a hen active. -/
def State.layerFull (s : State) (ch h : Nat) : Bool :=
  (s.field (coreField ch)).restricted.contains (h / 2) && ((s.channel ch).segments.any fun g => g.hen / 2 == h / 2)

/-- The first segment to be admitted, in order of acceptance and hen number (R316). -/
def State.nextSegment (s : State) (ch : Nat) : Option Segment :=
  let c := s.channel ch
  let f := coreField ch
  if s.hensHalted f || s.henLimit f ≤ c.segments.length then none
  else
    c.allWorks.findSome? fun (q, k, cmd, w) =>
      let a := henArgs cmd.words
      let vs := a.visits ch (s.henBuf ch w.hen).vbBytes
      if q.dead || !a.atBanks || w.since.isNone || w.finished || w.computed.isSome || w.status != 0 ||
          vs.length ≤ w.next || !c.pairFree w.hen s.run || s.layerFull ch w.hen then none
      else
        let rest := vs.drop w.next
        let fits (stop : Nat) : Bool := [2 * w.hen, 2 * w.hen + 1].all fun b =>
          (c.bank b).owed + s.quantaBy f (w.hen / 2) (s.run + stop) ≤ 4
        let n := planSegment a (s.reg 0x4200 1 * 6 / 5) fits w.hen (fun b => (c.bank b).rows) henOpen rest
        some { hen := w.hen, desc := q.desc, cmd := k, start := s.now, first := w.next, last := w.next + n,
               until_ := s.now + a.segmentTime (rest.take n)
               acts := (List.range n).map fun i =>
                 s.run + tACT_ISS + ((rest.take i).map fun v => a.visitTime v false).foldl (· + ·) 0 }

/-- A segment starts: it holds both banks of its pair, the requests that wait there are held, and prefetched lines of these banks leave
the buffer (R273, R309, R314). -/
def State.startSegment (s : State) (ch : Nat) (g : Segment) : State :=
  let c := s.channel ch
  let mine (e : WinEntry) : Bool := lineBank e.line / 2 == g.hen
  let held := (c.window.filter fun e => mine e && !e.wasHeld).foldl (fun n e => n + e.reqs.length) 0
  let gone := c.buffer.filter fun b => lineBank b.line / 2 == g.hen
  let c := { c with
    segments := c.segments ++ [g]
    lastActivate := s.run + tACT_ISS
    buffer := c.buffer.filter fun b => lineBank b.line / 2 != g.hen
    pfUnused := c.pfUnused + BitVec.ofNat 32 gone.length
    window := c.window.map fun e => if mine e then { e with heldAt := some s.now, wasHeld := true } else e }
  ((s.setChannel ch c).updSeq ch g.desc fun q => q.updCmd g.cmd fun cmd => { cmd with started := true }).towerWrap
    0xB402 (coreTower ch) held

/-- Every running segment ends at the end of its current visit, and closes (R318). -/
def State.cutSegments (s : State) (ch : Nat) : State :=
  let c := s.channel ch
  let cutOne (g : Segment) : Segment :=
    match c.seqs.find? (·.desc == g.desc) with
    | none => g
    | some q =>
      match q.cmds[g.cmd]? with
      | none => g
      | some cmd =>
        let a := henArgs cmd.words
        let vs := ((a.visits ch (s.henBuf ch g.hen).vbBytes).drop g.first).take (g.last - g.first)
        let upTo (n : Nat) : Nat := g.start + henOpen + ((vs.take n).map fun v => a.visitTime v false).foldl (· + ·) 0
        match (List.range vs.length).find? fun n => s.now < upTo (n + 1) with
        | some n => if n + 1 < vs.length then
            { g with last := g.first + n + 1, until_ := g.start + a.segmentTime (vs.take (n + 1)), acts := g.acts.take (n + 1) } else g
        | none => g
  s.setChannel ch { c with segments := c.segments.map cutOne }

/-- The start or the end of a halt noted in every field, with its running segments cut (R318, R319). -/
def State.updateHalts (s : State) : State :=
  (List.range 64).foldl (fun s f =>
    let v := s.field f
    if s.hensHalted f then
      if v.haltedAt.isSome then s
      else
        let s := s.setField f { v with haltedAt := some s.run }
        (s.channels.filter fun e => coreField e.1 == f && !e.2.segments.isEmpty).foldl (fun s e => s.cutSegments e.1) s
    else if v.haltedAt.isSome then s.setField f { v with haltedAt := none } else s) s

/-- The rewrite that a line asks for: its corrected data, or its poisoned form (R439, R441); none in a channel that records. -/
def State.fixOf (s : State) (ch off : Nat) : List WriteBack :=
  let a := dramAddr ch (off / 64 * 64)
  let stored := s.bytes a 64
  if s.records ch off then []
  else
    match classify (s.checkOf (a / 64)) with
    | .corrected sym v => [⟨off / 64, false, if sym < 64 then stored.set sym (stored.getD sym 0 ^^^ v) else stored, s.run⟩]
    | .uncorrectable => [⟨off / 64, true, stored, s.run⟩]
    | _ => []

/-- The lines of a visit read by the hen, in order, until one is uncorrectable (R324); the last result holds the rewrites that are left
to the command itself. -/
def State.readVisit (s : State) (ch h : Nat) (mode : Rewrite) : List (Nat × Nat) → Status × List Byte × List WriteBack × State
  | [] => (0, [], [], s)
  | (u, n) :: rest =>
    let off := henToChannel h (u / 64 * 64)
    let fix := if mode = .inPlace then s.fixOf ch off else []
    match s.readDramLine ch off mode with
    | (0, line, s) =>
      let (st, more, fixes, s) := s.readVisit ch h mode rest
      (st, (if mode = .inPlace then line else cut line (u % 64) n) ++ more, fix ++ fixes, s)
    | (st, _, s) => (st, [], fix, s)

/-- Visits read one after another; ROWGATHER puts each whole row aside. -/
def State.readVisits (s : State) (ch : Nat) (a : HenArgs) (w : HenWork) : List Visit → HenWork × State
  | [] => (w, s)
  | v :: vs =>
    let mode : Rewrite := if a.inPlace then .inPlace else .henOwn
    let (st, bytes, fixes, s) := s.readVisit ch w.hen mode (pieces v.lo (v.hi - v.lo))
    let w := { w with data := w.data ++ bytes, status := st, fixes := w.fixes ++ fixes }
    if st ≠ 0 then (w, s)
    else
      let w := if v.rowEnd then { w with rows := w.rows ++ [w.data], data := [] } else w
      s.readVisits ch a w vs

/-- The end of a segment's hold: activation tables, counters, duty, held requests and boundary service (R256, R312 to R314,
R317). -/
def State.closeSegment (s : State) (ch : Nat) (g : Segment) (a : HenArgs) (vs : List Visit) : State :=
  let c := s.channel ch
  let c := vs.foldl (fun c v => c.setBank (v.bank g.hen) ((c.bank (v.bank g.hen)).noteActivate v.row s.run)) c
  let mark (c : Channel) (b : Nat) : Channel := c.setBank b { c.bank b with
    open_ := none, busyUntil := max (c.bank b).busyUntil s.run, prechargedAt := s.run - tRP }   -- its close holds tRP (R307)
  let c := mark (mark c (2 * g.hen)) (2 * g.hen + 1)
  let longest := (c.window.filterMap fun e => if lineBank e.line / 2 == g.hen then e.heldAt.map (s.now - ·) else none).foldl max 0
  let c := { c with
    segments := c.segments.filter (· != g)
    activates := c.activates + BitVec.ofNat 64 vs.length
    boundary := Map.set 0 c.boundary g.hen (s.reg 0x4200 4 + 1)
    window := c.window.map fun e => if lineBank e.line / 2 = g.hen then { e with heldAt := none } else e }
  let t := coreTower ch
  let lines := (vs.map (·.lines)).foldl (· + ·) 0
  let fl := s.field (coreField ch)
  let s := (s.setChannel ch c).setField (coreField ch)
    { fl with duty := Map.upd 0 fl.duty (g.hen / 2) (· + (s.now - max g.start fl.dutyAt)) }
  let s := (s.towerWrap 0xB400 t 1).towerWrap 0xB401 t (if a.inPlace then 2 * lines else lines)
  let s := s.setReg 0xB403 (t + 1) (max (s.reg 0xB403 (t + 1)) (min longest 0xFFFFFFFF))
  match c.seqs.find? (·.desc == g.desc) with
  | none => s
  | some q => match (s.core q.core).dma.find? (·.id == g.desc) |>.bind fun d => s.targetQueue d.target with
    | none => s
    | some w => s.charge q.core w 7 (if a.inPlace then 2 * lines else lines)

/-- A hen segment ends its schedule. -/
def State.endSegment (s : State) (ch : Nat) (g : Segment) : State :=
  match (s.channel ch).seqs.find? (·.desc == g.desc) with
  | none => s.closeSegment ch g (henArgs []) []
  | some q =>
    match q.cmds[g.cmd]? with
    | none => s.closeSegment ch g (henArgs []) []
    | some cmd =>
      let a := henArgs cmd.words
      let vs := ((a.visits ch (s.henBuf ch g.hen).vbBytes).drop g.first).take (g.last - g.first)
      match cmd.works.find? (·.hen == g.hen) with
      | none => s.closeSegment ch g a vs
      | some w =>
        let (w, s) := s.readVisits ch a w vs
        let s := s.closeSegment ch g a vs
        let w := { w with next := g.last, since := some s.run }
        let s := s.updSeq ch g.desc fun q => q.updCmd g.cmd fun c => c.updWork g.hen fun _ => w
        if q.dead then
          -- the last running segment of an ended sequence takes the sequence with it
          if (s.channel ch).segments.any (·.desc == g.desc) then
            if a.inPlace then s.writeRows ch g.hen a w else s
          else
            let s := if a.inPlace then s.writeRows ch g.hen a w else s
            (s.setChannel ch { s.channel ch with seqs := (s.channel ch).seqs.filter (·.desc != g.desc) }).stampReady ch
        else if w.status ≠ 0 then s.failCmd ch g.desc g.cmd w.status else s

/-! ### Results (R299, R300, R305, R307) -/

/-- A work whose bank accesses are over and whose results have not been formed. -/
def HenWork.bankDone (w : HenWork) (a : HenArgs) (ch : Nat) (vb : List Byte) : Bool :=
  w.since.isSome && !w.finished && w.computed.isNone && (w.status != 0 || decide ((a.visits ch vb).length ≤ w.next))

/-- The first work of an operation that is ready for its arithmetic. -/
def State.nextCompute (s : State) (ch : Nat) (op : HenOp) : Option (HenSeq × Nat × HenCmd × HenWork) :=
  let c := s.channel ch
  c.allWorks.find? fun (q, k, cmd, w) =>
    let a := henArgs cmd.words
    a.op == some op && !q.dead && w.bankDone a ch (s.henBuf ch w.hen).vbBytes &&
      !(c.segments.any fun g => g.desc == q.desc && g.cmd == k && g.hen == w.hen)

/-- A work marked computed. -/
def State.markComputed (s : State) (ch desc k h : Nat) : State :=
  s.updSeq ch desc fun q => q.updCmd k fun c => { c.updWork h fun w => { w with computed := some s.run } with started := true }

/-- Entries of a PB after a failed sum: values that the spec does not state (assumption 26). -/
def State.freeSums (s : State) (ch h n : Nat) : State :=
  let vs := (List.range n).map fun i => (Config.freeWord (s.fresh + i)).truncate 32
  { s.setHenBuf ch h ((s.henBuf ch h).setPb vs) with fresh := s.fresh + n }

/-- The chain takes its lowest hen's partials: fp32_add(+0.0, own) (R218). -/
def State.beginChain (s : State) (ch desc k : Nat) (cmd : HenCmd) (h : Nat) : State :=
  let a := henArgs cmd.words
  if !a.chained || a.hens.head? != some h then s
  else
    let n := a.width * a.vecs
    let (sum, ev) := addLists (List.replicate n 0) ((List.range n).map (s.henBuf ch h).pbEntry)
    (s.updSeq ch desc fun q => q.updCmd k fun c => { c with summed := 1, sum := sum, summedAt := s.run }).countEvents ch ev

/-- A failed chain ends once every hen of it has ended: nothing is delivered (R324). -/
def State.endFailedChain (s : State) (ch desc k : Nat) : State :=
  match ((s.channel ch).seqs.find? (·.desc == desc)).bind (·.cmds[k]?) with
  | some cmd =>
    if (henArgs cmd.words).chained && cmd.status ≠ 0 && (cmd.works.all fun w => w.computed.isSome) then s.finishHen ch desc k none
    else s
  | none => s

/-- The arithmetic of one hen's work and what follows from it. -/
def State.computeWork (s : State) (ch : Nat) (q : HenSeq) (k : Nat) (cmd : HenCmd) (w : HenWork) : State :=
  let a := henArgs cmd.words
  let h := w.hen
  let buf := s.henBuf ch h
  let s := s.markComputed ch q.desc k h
  match a.op with
  | some .dot | some .kvscore | some .kvmix =>
    if w.status ≠ 0 then
      let s := s.freeSums ch h (a.width * a.vecs)
      if a.chained then s.endFailedChain ch q.desc k else s.finishHen ch q.desc k (some h)
    else
      let (vs, ev) := a.sums h buf.vbBytes w.data buf.pbEntry
      let s := (s.setHenBuf ch h (buf.setPb vs)).countEvents ch ev
      if a.chained then (s.beginChain ch q.desc k cmd h).endFailedChain ch q.desc k
      else if a.op = some .kvscore && cmd.status = 0 then s
      else s.finishHen ch q.desc k (some h)
  | some .rowscale | some .rowaxpy => (s.writeRows ch h a w).finishHen ch q.desc k (some h)
  | some .rowgather =>
    let bad := (a.gatherRows ch buf.vbBytes).2
    let s := if w.status = 0 && bad then s.failCmd ch q.desc k 0x02 else s
    if w.rows.isEmpty then s.finishHen ch q.desc k (some h) else s
  | _ => s

/-- A transfer that is ready for the lanes, with the time at which it became ready (R305). -/
def State.readyTransfers (s : State) (ch : Nat) : List (Nat × HenTransfer) :=
  let c := s.channel ch
  let make (q : HenSeq) (k : Nat) (h : Option Nat) (bytes : Nat) : HenTransfer :=
    { desc := q.desc, cmd := k, hen := h, lines := linesOf bytes, until_ := s.now + transferTime (linesOf bytes) }
  c.seqs.flatMap fun q => if q.dead then [] else
    (List.zip (List.range q.cmds.length) q.cmds).flatMap fun (k, cmd) =>
      let a := henArgs cmd.words
      if cmd.allDone then []
      else
        match a.op with
        | some .vload => (cmd.works.head?.bind (·.since)).toList.map fun t => (t, make q k none a.load)
        | some .kvscore => cmd.works.filterMap fun w =>
            if w.finished || w.status ≠ 0 || cmd.status ≠ 0 then none
            else w.computed.map fun t => (t, make q k (some w.hen) (a.vecs * a.rows * a.ob))
        | some .rowgather => cmd.works.filterMap fun w =>
            if w.finished then none
            else w.computed.map fun t => (t, make q k (some w.hen) (w.rows.length * a.rowBytes))
        | _ =>
          if a.chained && cmd.summed == cmd.works.length && cmd.status = 0 then
            [(cmd.summedAt, make q k none (a.vecs * a.width * a.ob))]
          else []

/-- The hen transfer that goes next: the one that has been ready longest; none while one is under way. -/
def State.nextTransfer (s : State) (ch : Nat) : Option HenTransfer :=
  if (s.channel ch).transfer.isSome || !s.fieldUp (coreField ch) then none
  else ((s.readyTransfers ch).foldl (fun b x => match b with
    | some y => if x.1 < y.1 then some x else some y
    | none => some x) none).map (·.2)

/-- The rows that a delivery writes: address and bytes, with the numeric events of its roundings. -/
def State.deliveryRows (s : State) (ch : Nat) (a : HenArgs) (cmd : HenCmd) (h : Option Nat) :
    List (Nat × List Byte) × List NumEvent :=
  match h with
  | none =>
    let rows := (List.range a.vecs).map fun b =>
      let (bytes, ev) := a.outValues ((cmd.sum.drop (b * a.width)).take a.width)
      ((a.addr + b * a.stride, bytes), ev)
    (rows.map (·.1), rows.flatMap (·.2))
  | some h =>
    let j := a.rank h
    if a.op = some .rowgather then
      match cmd.works.find? (·.hen == h) with
      | some w => ((List.zip (List.range w.rows.length) w.rows).map fun (i, r) => (a.addr + (j * a.rows + i) * a.stride, r), [])
      | none => ([], [])
    else
      let rows := (List.range a.vecs).map fun b =>
        let (bytes, ev) := a.outValues ((List.range a.rows).map fun i => (s.henBuf ch h).pbEntry (b * a.rows + i))
        ((a.addr + b * a.stride + j * a.rows * a.ob, bytes), ev)
      (rows.map (·.1), rows.flatMap (·.2))

/-- Delivered rows written to their place: a core store, a slice, or the channel itself past its own fence (R321). -/
def State.writeDelivery (s : State) (ch core space : Nat) (prod : Option Nat) : List (Nat × List Byte) → Status × State
  | [] => (0, s)
  | (a, bytes) :: rest =>
    let (st, s) :=
      if space = 2 then
        (pieces a bytes.length).foldl (fun (x : Status × State × List Byte) p =>
          if x.1 ≠ 0 then x
          else
            let (st, s) := x.2.1.writeDram ch p.1 (x.2.2.take p.2) false
            (st, s, x.2.2.drop p.2)) (0, s, bytes) |> fun (st, s, _) => (st, s)
      else s.writeRange (tileAddr core space a) bytes prod (.hen ch)
    if st ≠ 0 then (st, s) else s.writeDelivery ch core space prod rest

/-! ### The choice of a command (R277, R280, R309) -/

/-- The scrub's next line, once lines in hen write ranges are skipped (R457). -/
def State.scrubStep (s : State) (ch : Nat) : Option ScrubPass :=
  match (s.channel ch).scrubs with
  | p :: _ => if p.next < p.stop && p.status = 0 then some p else none
  | [] => none

/-- The scrub's next command towards its line; it closes a row in its way, so that a pass always progresses (R458, assumption 24). -/
def State.chooseScrub (s : State) (ch : Nat) : Command :=
  match s.scrubStep ch with
  | some p =>
    let c := s.channel ch
    if s.inWriteRange ch (p.next * 64) || !s.fieldUp (coreField ch) then .scrub
    else if c.flight.any (·.scrub) || c.atBoundary (lineBank p.next) then .none
    else if s.reg 0x4101 1 != 0 && c.waitsForAged p.next s.run (nsCycles (s.reg 0x4101 2)) then .none
    else c.toward p.next true true true s.run .scrub
  | none => .none

/-- Line transfers other than scrub reads since the last scrub read: those counted, and the lines of a hen transfer that have passed
since (R458). -/
def Channel.otherTransfers (c : Channel) (now : Nat) : Nat :=
  c.otherRun + c.transfer.elim 0 fun t => min t.lines (t.passed now) - t.counted

/-- A line transfer of the window or a write-back is ready for the lanes, in boundary service too (R305). -/
def Channel.ordinaryReady (c : Channel) (now : Nat) : Bool :=
  let served (e : WinEntry) : Bool := decide (1 < Map.get 0 c.boundary (lineBank e.line / 2)) &&
    (c.window.find? fun x => lineBank x.line / 2 == lineBank e.line / 2) == some e
  (c.window.any fun e => c.rowReady e.line now && (!c.atBoundary (lineBank e.line) || served e) && !c.mustWait e) ||
    c.wbq.any fun w => c.rowReady w.line now

/-- The command of a cycle: a scrub read that 15 other transfers have passed before any of theirs (R458), duties with the segments that
are admitted, write-backs, hen transfers at their turn, then the window, prefetches and scrub reads. -/
def State.chooseCommand (s : State) (ch : Nat) : Command :=
  let c := s.channel ch
  let sorter := s.reg 0x4101 1 != 0
  let ageMax := nsCycles (s.reg 0x4101 2)
  let late (line : Nat) : Bool := sorter && c.waitsForAged line s.run ageMax
  let duty := c.dutyCommand s.run late
  let seg := match s.nextSegment ch with
    | some g => if s.fieldUp (coreField ch) then c.towardSegment g s.run else .none
    | none => .none
  let wb := Channel.chooseWriteBack { c with wbq := c.wbq.filter fun w => !late w.line } s.run
  let dueScrub := if 15 ≤ c.otherTransfers s.run then s.chooseScrub ch else .none
  let first := match duty with
    | .column _ | .writeBack _ => firstValid [dueScrub, duty]
    | cmd => cmd
  let hen := match s.nextTransfer ch with
    | some t => if 16 ≤ c.ordinary || !c.ordinaryReady s.run then .transfer t else .none
    | none => .none
  let demand :=
    if sorter then c.chooseSorted s.run ageMax
    else match c.window with
      | e :: _ => if c.mustWait e || c.atBoundary (lineBank e.line) then .none else c.towardEntry e s.run
      | [] => .none
  let ahead := match (if sorter && s.reg 0x4102 1 != 0 then c.choosePrefetch s.run (s.reg 0x4102 2) else .none) with
    | .prefetch i line spread => if late line then .none else .prefetch i line spread
    | .activate b row => if late (row * 1024 + b * 16) then .none else .activate b row
    | cmd => cmd
  firstValid [first, seg, dueScrub, wb, hen, demand, ahead, s.chooseScrub ch]

end Sys2Proof.Machine
end

