-- ==== Sys2Proof/Machine/Channels.lean ====
section
/-! DEFINITION. The channel controller's commands: entering the window, choosing a command, a line returning from the
layers; accesses to slices and core stores; the spread hash (R253 to R288, R437 to R441, R485). -/
namespace Sys2Proof.Machine

/-! ### The window -/

/-- The hen fence of R321 for an ordinary access: reads stay out of write ranges, writes out of both kinds. -/
def State.henFenced (s : State) (ch off : Nat) (read : Bool) : Bool :=
  s.inWriteRange ch off || (!read && s.inReadRange ch off)

/-- A demand read looks into the prefetch buffer and at the prefetches in flight, then merges with the newest entry of its line when that
is a read (R273, R274, R276). A line for a request from a spread alias counts in SPREAD_LINES when it is demanded (R267; assumption 23). -/
def State.insertRead (s : State) (ch : Nat) (r : Req) : Option State :=
  let c := s.channel ch
  let line := r.loc % channelBytes / 64
  let c := if s.trains ch r then c.train line s.run r.spread else c
  match c.buffer.find? (·.line == line) with
  | some b =>
    let c := { c with
      buffer := c.buffer.filter (·.line != line), pfUsed := c.pfUsed + 1
      spreadLines := if r.spread then c.spreadLines + 1 else c.spreadLines }
    some ((s.setChannel ch c).answerLine r.id (if b.poisoned then 0x01 else 0) b.data)
  | none =>
    match c.flight.find? fun f => f.line == line && f.prefetch && !c.window.any (fun e => e.line == line) with
    | some f =>
      let late := if f.reqs.isEmpty then 1 else 0
      let c := { c with
        flight := c.flight.map fun g => if g = f then { g with reqs := g.reqs ++ [r.id], spread := (!g.reqs.isEmpty && g.spread) || r.spread } else g
        pfLate := c.pfLate + late }
      some ((s.setChannel ch c).updReq r.id fun q => { q with stage := .column })
    | none =>
      match (if s.reg 0x4101 1 != 0 then (c.window.reverse.find? (·.line == line)) else none) with
      | some e =>
        if e.isRead then
          let c := { c with window := c.window.map fun x =>
            if x = e then { x with reqs := x.reqs ++ [r.id], spread := x.spread || r.spread } else x }
          let s := ((s.setChannel ch c).updReq r.id fun q => { q with stage := .window }).towerWrap 0xB304 (coreTower ch) 1
          some (if e.heldAt.isSome then s.towerWrap 0xB402 (coreTower ch) 1 else s)
        else none
      | none => none

/-- A request takes an entry of the window, when the window and its source have room (R275). -/
def State.appendEntry (s : State) (ch : Nat) (r : Req) : Option State :=
  let c := s.channel ch
  let above := s.fromAbove ch r
  let line := r.loc % channelBytes / 64
  if 64 ≤ c.window.length || 56 ≤ (c.window.filter fun e => e.fromCore == above).length then none
  else
    let c := if r.isRead then (if s.trains ch r then c.train line s.run r.spread else c) else c.writeArrives line
    let held := c.held (lineBank line)
    let full := match r.kind with
      | .write bytes => bytes.length == 64 && r.loc % 64 == 0
      | _ => false
    let e : WinEntry := { reqs := [r.id], line := line, isRead := r.isRead, full := full, fromCore := above, spread := r.spread,
                          arrival := s.run, heldAt := if held then some s.now else none, wasHeld := held }
    let s := (s.setChannel ch { c with window := c.window ++ [e] }).updReq r.id fun q => { q with stage := .window }
    some (if held then s.towerWrap 0xB402 (coreTower ch) 1 else s)

/-- A request that leaves the FIFO into its channel's controller: answered at once when its target is out of service or fenced, else a
line of the prefetch buffer, a merged read, or an entry of the window; none while there is no room (R43, R70, R275, R276, R321). -/
def State.enterWindow (s : State) (ch : Nat) (r : Req) : Option State :=
  if (s.upChannel r).isSome && s.upFull ch then none
  else
    let off := r.loc % channelBytes
    let st := s.reachStatus (r.src.tower.getD (coreTower ch)) (.dram ch off)
    if st ≠ 0 then some (s.answerReq r.id st [])
    else if s.henFenced ch off r.isRead then some ((s.towerWrap 0xB406 (coreTower ch) 1).answerReq r.id 0x0B [])
    else if r.isRead then (s.insertRead ch r).orElse fun _ => s.appendEntry ch r
    else s.appendEntry ch r

/-- Requests leave the FIFO in order while they find room (R70). -/
def State.drainFifo (ch : Nat) : Nat → State → State
  | 0, s => s
  | n + 1, s =>
    match (s.channel ch).fifo with
    | [] => s
    | id :: rest =>
      let pop (s : State) : State := s.setChannel ch { s.channel ch with fifo := rest }
      match s.findReq id with
      | none => State.drainFifo ch n (pop s)
      | some r =>
        match s.enterWindow ch r with
        | some s => State.drainFifo ch n (pop s)
        | none => s

def State.settleFifo (s : State) (ch : Nat) : State := State.drainFifo ch (s.channel ch).fifo.length s

/-- A command enters the FIFO: one of the core above goes before one of the crossbar that has come in the same beat (R275). -/
def Channel.enqueue (c : Channel) (id : Nat) (above : Bool) (now : Nat) : Channel :=
  let same := above && c.crossAt == now + 1
  { c with
    fifo := if same && c.fifo.getLast? == some c.crossId then c.fifo.dropLast ++ [id, c.crossId] else c.fifo ++ [id]
    crossAt := if above then c.crossAt else now + 1
    crossId := if above then c.crossId else id }

/-- The same for two that have already come to the window (R275). -/
def Channel.coreFirst (c : Channel) (id now : Nat) : Channel :=
  match c.window.reverse with
  | e :: x :: rest =>
    if c.crossAt = now + 1 && e.reqs == [id] && x.reqs == [c.crossId] then { c with window := rest.reverse ++ [e, x] } else c
  | _ => c

/-- WINDOW_INSERT: a read, write or atomic reaches the synchronising FIFO of its channel's controller, which holds 16 commands, and
the controller takes what it has room for (R67, R70, R108, R275, R276, R321). -/
def execWindowInsert (id : Nat) (s : State) : Host.Outcome State Fault Refusal :=
  .next (
    match s.findReq id with
    | none => s
    | some r =>
      if r.stage != .sent || !s.isOwn (r.addr / 2 ^ 48 % 64) || s.behindSameLine r || !s.running then s
      else
        match placeOf r.loc with
        | .dram ch _ =>
          let c := s.channel ch
          if 16 ≤ c.fifo.length || !s.portTurn r then s
          else
            let s := (s.setChannel ch (c.enqueue id (s.fromAbove ch r) s.now)).updReq id fun q => { q with stage := .arrived }
            let t := (s.grantPort r).settleFifo ch
            if s.fromAbove ch r then t.setChannel ch ((t.channel ch).coreFirst id s.now) else t
        | _ => s)

/-! ### Commands -/

/-- The lines that a window entry's columns read and write, charged to the first of its requests (R551). -/
def State.chargeEntry (s : State) (e : WinEntry) (n : Nat) : State :=
  match e.reqs.findSome? s.findReq with
  | some r => s.chargeReq r 6 n
  | none => s

/-- A full-line write performed by its column command (R254). -/
def State.columnWrite (s : State) (ch : Nat) (r : Req) : State :=
  match r.kind with
  | .write bytes =>
    let (st, s) := s.writeDram ch (r.loc % channelBytes) bytes r.spread
    s.answerReq r.id st []
  | _ => s

/-- A partial write or an atomic performed when its line has come from the layers: the line is corrected, merged and written whole
(R254, R255). -/
def State.mergeLine (s : State) (ch : Nat) (r : Req) : State :=
  let off := r.loc % channelBytes
  match r.kind with
  | .write bytes =>
    let (st, s) := s.writeDram ch off bytes r.spread
    s.answerReq r.id st []
  | .atomic op operand compare =>
    match s.readDramLine ch off .queue with
    | (0, line, s) =>
      let old := (line.drop (off % 64)).take 8
      let new := amoApply op (BitVec.ofNat 64 (bytesToNat old)) operand compare
      let merged := line.take (off % 64) ++ natToBytes 8 new.toNat ++ line.drop (off % 64 + 8)
      ((s.countLine ch off false r.spread).writeDramLine ch off merged r.spread).answerReq r.id 0 old
    | (st, _, s) => (s.countLine ch off false r.spread).answerReq r.id st []
  | _ => s

/-- A column command's marks on the lanes and the bank (R251): a read, a full-line write, or a read-modify-write, whose write column
follows its data after tRTW, so that it holds the lanes for tLINE + tRTW + tLINE + tWTR (R254). -/
def Channel.markColumn (c : Channel) (line : Nat) (read full : Bool) (now : Nat) : Channel :=
  let b := lineBank line
  let readEnd := now + tCL + tLINE
  if read then { c with columnAt := now, readEnd := readEnd }
  else
    let column := if full then now else writeColumn now
    let done := column + tCWL + tLINE
    { c.setBank b { c.bank b with writeEnd := done } with
      columnAt := column, writeEnd := done, readEnd := if full then c.readEnd else readEnd
      slots := if full then c.slots else c.slots.filter (now < ·) ++ [column] }

/-- An ordinary transfer on the lanes: it enters a hen transfer under way and lengthens it, or counts towards the 16 that may
go before a waiting one (R305); and it counts towards the 15 that go before a scrub read (R458). -/
def State.markLanes (s : State) (ch : Nat) : State :=
  let c := s.channel ch
  let c := { c with otherRun := c.otherRun + 1 }
  match c.transfer with
  | some t => s.setChannel ch { c with
      transfer := some { t with entered := t.entered + 1, gap := t.passed s.run, until_ := t.until_ + tLINE } }
  | none => s.setChannel ch { c with ordinary := if (s.nextTransfer ch).isSome then c.ordinary + 1 else 0 }

/-- A request served in boundary service uses up one of its quota (R313). -/
def Channel.useQuota (c : Channel) (line : Nat) : Channel :=
  let h := lineBank line / 2
  let left := Map.get 0 c.boundary h
  if 1 < left then { c with boundary := Map.set 0 c.boundary h (left - 1) } else c

/-- A queued write-back performed as a full-line write: corrected data, or the poisoned form (R439, R441, R460). -/
def State.performWriteBack (s : State) (ch : Nat) (w : WriteBack) : State :=
  let off := w.line * 64
  let c := s.channel ch
  let done (p : ScrubPass) : ScrubPass :=
    if p.waiting.contains w.line then { p with written := p.written + 1, waiting := p.waiting.filter (· != w.line) } else p
  let s := s.setChannel ch { c with
    wbq := c.wbq.filter (· != w), wbDone := addSat c.wbDone 1, scrubs := c.scrubs.map done }
  let s := s.writeDramLine ch off w.data false
  if w.poison then s.setCheck (dramAddr ch off / 64) poisonDiff else s

/-- Requests answered in order, as far as the FIFO to the core above has room for what goes there: those that are left (R70). -/
def State.answerEach (s : State) (ids : List Nat) (answer : State → Nat → State) : List Nat × State :=
  ids.foldl (fun (p : List Nat × State) i =>
    let full := match (p.2.findReq i).bind p.2.upChannel with
      | some ch => p.2.upFull ch
      | none => false
    if full then (p.1 ++ [i], p.2) else (p.1, answer p.2 i)) ([], s)

/-- A command issued. An entry leaves the window, and its place among the 64 and the 56 of R275 is free, with its column command: the spec
does not say when an entry whose column has issued leaves (assumption 81, DESIGN CHOICE). -/
def State.issueCommand (s : State) (ch : Nat) (cmd : Command) : State :=
  let now := s.run
  let s := match cmd with
    | .none => s
    | .activate _ _ => s.setChannel ch { s.channel ch with commandAt := some (now + 1) }     -- two command slots (tACT_ISS)
    | _ => s.setChannel ch { s.channel ch with commandAt := some now }
  let c := s.channel ch
  match cmd with
  | .none => s
  | .quantum b =>
    let forced := if 4 ≤ (c.bank b).owed then 1 else 0
    ((s.setChannel ch (c.quantum b now s.now)).towerWrap 0xB404 (coreTower ch) 1).towerWrap 0xB405 (coreTower ch) forced
  | .neighbour b => (s.setChannel ch (c.neighbourRefresh b now s.now)).towerSat 0xB306 (coreTower ch) 1
  | .precharge b => s.setChannel ch (c.precharge b now)
  | .activate b row => s.setChannel ch (c.activate b row now)
  | .column e =>
    if s.henFenced ch (e.line * 64) e.isRead then
      -- a range registered while the entry waited covers its line (R321)
      let (left, t) := s.answerEach e.reqs fun t i => (t.towerWrap 0xB406 (coreTower ch) 1).answerReq i 0x0B []
      let keep (x : WinEntry) : Option WinEntry :=
        if x != e then some x else if left.isEmpty then Option.none else some { x with reqs := left }
      let c := { t.channel ch with window := (t.channel ch).window.filterMap keep }
      (t.setChannel ch (if left.isEmpty then c.useQuota e.line else c)).settleFifo ch
    else
      let c := { c.useQuota e.line with window := c.window.filter (· != e) }
      let s := (s.setChannel ch (c.markColumn e.line e.isRead e.full now)).markLanes ch
      let s := if !e.isRead && !e.full then s.markLanes ch else s
      let s :=
        if e.isRead || !e.full then
          let c := s.channel ch
          let c := { c with flight := c.flight ++ [{ line := e.line, reqs := e.reqs, prefetch := false, spread := e.spread,
                                                     due := now + tCL + tLINE, rmw := !e.isRead }] }
          let s := e.reqs.foldl (fun s i => s.updReq i fun q => { q with stage := .column }) (s.setChannel ch c)
          s.chargeEntry e (if e.isRead then 1 else 2)
        else
          e.reqs.foldl (fun s i => match s.findReq i with
            | some r => (s.chargeReq r 6 1).columnWrite ch r
            | none => s) s
      s.settleFifo ch
  | .writeBack w => ((s.setChannel ch (c.markColumn w.line false true now)).markLanes ch).performWriteBack ch w
  | .segment g => s.startSegment ch g
  | .transfer t =>
    (s.setChannel ch { c with
      transfer := some { t with until_ := s.now + transferTime t.lines, startRun := now }, ordinary := 0 }).updSeq ch
      t.desc fun q => q.updCmd t.cmd fun cmd => { cmd with started := true }
  | .scrub =>
    match c.scrubs with
    | [] => s
    | p :: ps =>
      if !s.fieldUp (coreField ch) then s.setChannel ch { c with scrubs := { p with status := 0x03 } :: ps }
      else if s.inWriteRange ch (p.next * 64) then
        s.setChannel ch { c with scrubs := { p with skipped := p.skipped + 1, next := p.next + 1 } :: ps }
      else s.setChannel ch { c.markColumn p.next true true now with
        scrubs := { p with next := p.next + 1 } :: ps
        otherRun := 0
        transfer := c.transfer.map fun t => { t with counted := min t.lines (t.passed now) }
        flight := c.flight ++ [{ line := p.next, reqs := [], prefetch := false, spread := false, due := now + tCL + tLINE, scrub := true }] }
  | .prefetch i line spread =>
    let s := s.markLanes ch
    let c := s.channel ch
    let c := if 32 ≤ c.prefetched then c.dropOldest else c
    let c := { c.markColumn line true true now with
      flight := c.flight ++ [{ line := line, reqs := [], prefetch := true, spread := spread, due := now + tCL + tLINE }]
      pfIssued := c.pfIssued + 1
      trackers := c.trackers.modify i fun t => { t with next := line }.skip }
    s.setChannel ch c

/-- An aged entry holds back the commands of a line (R279); without the sorter the age rule does not apply (R280). -/
def State.agedOver (s : State) (ch line : Nat) : Bool :=
  s.reg 0x4101 1 != 0 && (s.channel ch).waitsForAged line s.run (nsCycles (s.reg 0x4101 2))

/-- COMMAND_CHOOSE: in a reference cycle the controller issues at most one command (R277, R280); none while the field is
dark for anything but refresh, none while the device is frozen (R283), and none in the slot of a read-modify-write's write column
(R251). -/
def execCommandChoose (ch : Nat) (s : State) : Host.Outcome State Fault Refusal :=
  .next (
    if !coreExists ch || !s.running || (s.channel ch).commandAt.any (s.run ≤ ·) || (s.channel ch).slots.contains s.run then s
    else
      let c := (s.channel ch).settleBoundary
      let c := { c with
        up := s.upEntries ch
        boundary := c.boundary.filter fun e => !c.boundaryOver e.1 e.2 (s.agedOver ch)
        ordinary := if (s.nextTransfer ch).isSome then c.ordinary else 0 }
      let s := s.setChannel ch c
      s.issueCommand ch (s.chooseCommand ch))

/-- A scrub's line classified and entered in its summary (R457, R459). -/
def State.noteScrub (s : State) (ch line : Nat) (k : LineClass) (logs : Bool) : State :=
  let c := s.channel ch
  match c.scrubs with
  | [] => s
  | p :: ps =>
    let queued := c.wbq.any (·.line == line)
    let p := { p with read := p.read + 1 }
    let found (p : ScrubPass) : ScrubPass :=
      if logs then { p with logged := p.logged + 1 }
      else if queued then { p with waiting := p.waiting ++ [line] } else p
    let p := match k with
      | .clean => p
      | .corrected _ _ => found { p with corrected := p.corrected + 1, firstCe := p.firstCe.orElse fun _ => some line }
      | .poisoned => { p with poisoned := p.poisoned + 1, firstFail := p.firstFail.orElse fun _ => some line }
      | .uncorrectable => found { p with uncorrectable := p.uncorrectable + 1, firstFail := p.firstFail.orElse fun _ => some line }
    s.setChannel ch { c with scrubs := p :: ps }

/-- DRAM_READ_DATA: the oldest line under way returns, with the symbols that have been disturbed, is classified, and
answers its requests or takes the write of a read-modify-write; a prefetched line that nobody waits for enters the buffer (R254, R272,
R273, R437). An answer waits for room in the FIFO to the core above, and holds back those behind it (R70). A prefetched line of a spread-trained stream counts in SPREAD_LINES
only when a request demands it: R267 does not say (assumption 23, DESIGN CHOICE). -/
def execDramReadData (ch : Nat) (flips : List (Nat × Byte)) (s : State) : Host.Outcome State Fault Refusal :=
  .next (
    let c := s.channel ch
    match c.flight with
    | [] => s
    | f :: rest =>
      let answer (s : State) (f : InFlight) (st : Status) (data : List Byte) : State :=
        let (left, s) := s.answerEach f.reqs fun s i => s.answerLine i st data
        if left.isEmpty then s
        else s.setChannel ch { s.channel ch with flight := { f with reqs := left, got := some (st, data) } :: (s.channel ch).flight }
      if s.run < f.due && s.reg 0xA001 3 ≠ 1 then s        -- a read already issued ends while FREEZING (R283)
      else if f.rmw && f.reqs.any fun i => ((s.findReq i).bind s.upChannel).any s.upFull then s
      else
        match f.got with
        | some (st, data) => answer (s.setChannel ch { c with flight := rest }) f st data
        | none =>
        let off := f.line * 64
        let s := (s.setChannel ch { c with flight := rest }).disturb ch off flips
        if f.rmw then
          f.reqs.foldl (fun (s : State) i => match s.findReq i with
            | some r => s.mergeLine ch r
            | none => s) s
        else
        let kind := classify (s.checkOf (dramAddr ch off / 64))
        let logs := s.records ch off && (s.wbSlot ch off).isSome
        let (st, data, s) := s.readDramLine ch off .queue
        if f.scrub then (s.countLine ch off false false).noteScrub ch f.line kind logs
        else
        let s := s.countLine ch off false (f.spread && !(f.prefetch && f.reqs.isEmpty))
        if f.prefetch && f.reqs.isEmpty then
          let c := s.channel ch
          s.setChannel ch { c with buffer := c.buffer ++ [⟨f.line, st != 0, data⟩] }
        else answer s f st data)

/-! ### Slices and core stores -/

/-- The reader of a request, for R453. -/
def Req.agent (r : Req) : Agent := match r.src with
  | .thread core ctx _ => .thread core ctx
  | .unit who => who
  | _ => .request r.id

/-- A request that reaches a slice or a core store of this device when its target port grants it, or that waits there for the recovery of
its line; once granted it is performed, whatever becomes of its target (R243, R287, R453). -/
def State.sramReq (s : State) (id : Nat) (body : State → Req → State) : State :=
  match s.findReq id with
  | none => s
  | some r =>
    if !(r.stage == .arrived || (r.stage == .sent && s.portTurn r)) || s.reqTravels r || !s.isOwn (r.addr / 2 ^ 48 % 64) ||
        s.behindSameLine r || !s.running || r.bankPlace.isSome then s
    else
      let arrive (s : State) : State :=
        (if r.stage = .sent then s.grantPort r else s).updReq id fun q => { q with stage := .arrived }
      match placeOf r.loc with
      | .dram _ _ => s
      | p =>
        let st := if r.stage = .sent then s.reachStatus (r.src.tower.getD p.tower) p else 0
        if st ≠ 0 then (arrive s).answerReq id st []
        else
          match p with
          | .store c off => s.onBank c off 15 fun s => body (arrive s) r
          | _ => body (arrive s) r

/-- A request of another device to the register range, which a window of its head reaches (R470), or a thread's push into a ring in DRAM
(R412). -/
def State.registerReq (s : State) (id : Nat) : Option (Req × Nat) :=
  match s.findReq id with
  | some r =>
    match r.src, placeOf r.loc with
    | .device _ _, .registers off | .thread _ _ _, .registers off => if r.stage == .sent && s.running then some (r, off) else none
    | _, _ => none
  | none => none

/-- READ_PACKET: a read reaches a slice, a core store, or the register range for another device, and is served there (R107, R242, R450,
R470, R485). -/
def execReadPacket (read : StoreRead) (s : State) : Host.Outcome State Fault Refusal :=
  .next (
    match s.registerReq read.id with
    | some ({ kind := .read n, .. }, off) => s.answerReq read.id 0 (s.registerBytes off n)
    | _ =>
      s.sramReq read.id fun s r =>
        match r.kind with
        | .read n =>
          let s := if read.flips.isEmpty then s else s.upsetSram (r.loc / 64) read.flips
          let (q, s) := s.readPlace r.loc n r.agent r.spread
          if q.waiting then s else s.answerReq read.id q.status q.bytes
        | _ => s)

/-- The rerun entry under which a request writes (R452). -/
def State.reqProducer (s : State) (r : Req) : Option Nat := match r.src with
  | .thread core ctx n => if (s.ctx core ctx).serial = n then s.producing core ctx else none
  | _ => r.prod

/-- The multicast that a copy belongs to, and the rerun entry of the task that issued it (R452). -/
def State.copySource (s : State) (desc : Nat) : Option (Nat × Option Nat) :=
  (s.multicasts.find? (·.desc == desc)).map fun m =>
    (m.core, ((s.core m.core).dma.find? (·.id == desc)).bind (·.rerun))

/-- A multicast's copy performed at its target as a write of the whole range, line by line through the target's port (R371, R372, R395,
R452, R708). -/
def State.writeCopy (s : State) (r : Req) (desc position : Nat) (bytes : List Byte) : State :=
  if r.stage != .sent || !s.running || s.reqTravels r then s
  else
    let src := s.copySource desc
    let st := s.reachStatus (coreTower ((src.map (·.1)).getD position)) (placeOf r.loc)
    if st ≠ 0 then s.answerReq r.id st []
    else
      s.unit position (.copier desc position) fun s =>
        let (st, s) := s.writeRange r.loc bytes (src.bind (·.2)) (.copier desc position)
        s.answerReq r.id st []

/-- A write of a thread, of the host or of another device performed at its slice or core store. -/
def State.writePacket (s : State) (id : Nat) : State :=
  s.sramReq id fun s r =>
    match r.kind with
    | .write bytes =>
      let (st, s) := s.writePlace r.loc bytes (s.reqProducer r) r.spread
      s.answerReq id st []
    | _ => s

/-- WRITE_PACKET: a write reaches a slice, a core store, or the register range for another device, or a multicast's copy reaches its
target; it is performed and answered (R107, R372, R450, R470, R707). -/
def execWritePacket (id : Nat) (s : State) : Host.Outcome State Fault Refusal :=
  .next (
    match s.registerReq id, s.findReq id with
    | some ({ kind := .push q bytes, .. }, _), _ =>
      s.withPush q bytes fun s r => s.answerReq id (if r = 0x100 then 0 else r.truncate 8) (if r = 0x100 then [1] else [])
    | some ({ kind := .write bytes, .. }, off), _ =>
      if wholeHalves off bytes.length then (s.writeRegisters off bytes).answerReq id 0 [] else s.answerReq id 0x02 []
    | _, some r =>
      match r.src, r.kind with
      | .copy desc p, .write bytes => s.writeCopy r desc p bytes
      | _, _ => s.writePacket id
    | _, none => s)

/-- ATOMIC_PACKET: an atomic on a slice or core store is performed as one read-modify-write (R110, R255). -/
def execAtomicPacket (id : Nat) (s : State) : Host.Outcome State Fault Refusal :=
  .next (s.sramReq id fun s r =>
    match r.kind with
    | .atomic op operand compare =>
      let (q, s) := s.readPlace r.loc 8 r.agent r.spread
      if q.waiting then s
      else if q.status ≠ 0 then s.answerReq id q.status []
      else
        let new := amoApply op (BitVec.ofNat 64 (bytesToNat q.bytes)) operand compare
        let (st, s) := s.writePlace r.loc (natToBytes 8 new.toNat) (s.reqProducer r) r.spread
        s.answerReq id st q.bytes
    | _ => s)

/-! ### The spread hash (R265 to R268) -/

/-- HASH_KEY_WRITE: the key of a tower (1 to 8) or of the module (9) is in force when the write is answered (R266). -/
def execHashKeyWrite (sub : Nat) (v : BitVec 64) (s : State) : Host.Outcome State Fault Refusal :=
  .next (s.written (if 1 ≤ sub && sub ≤ 9 then s.setReg 0x4100 sub v.toNat else s))

/-- Spread lines that each channel of a tower moved in the window: channel index and count. -/
def State.spreadMoved (s : State) (t : Nat) : List (Nat × Nat) :=
  (s.channels.filter fun e => coreTower e.1 == t).map fun e => (channelIndex e.1, (e.2.spreadLines - e.2.spreadAtWindow).toNat)

/-- The event of R268 raised, with its record and count. -/
def State.raiseImbalance (s : State) (t : Nat) : State :=
  let w := Map.get {} s.hashWatch t
  let s := { s with hashWatch := Map.set {} s.hashWatch t { w with raisedAt := s.now } }
  ((s.setReg 0x4103 4 w.last).towerSat 0xB305 t 1).raise 0x06 t w.last

/-- HASH_IMBAL_WINDOW: at the end of each 1 ms window a tower judges its channels; the event follows the configured
number of imbalanced windows in a row (R267, R268). -/
def execHashImbalWindow (t : Nat) (s : State) : Host.Outcome State Fault Refusal :=
  .next (
    let w := Map.get {} s.hashWatch t
    if 8 ≤ t || s.now < w.windowAt + msCycles 1 then s
    else
      let moved := s.spreadMoved t
      let total := moved.foldl (fun n e => n + e.2) 0
      let top := moved.foldl (fun (b : Nat × Nat) e => if b.2 < e.2 then e else b) (0, 0)
      let bad := decide (65536 ≤ total) && decide (s.reg 0x4103 1 * total < top.2 * 16 * 1280)
      let ratio := if total = 0 then 0 else min 0xFFFF (top.2 * 16 * 1280 / total)
      let n := if bad then w.consecutive + 1 else 0
      let w := { w with windowAt := s.now, consecutive := n,
                        last := if bad then ratio * 2 ^ 16 + t * 2 ^ 11 + top.1 else w.last }
      let s := { s with
        hashWatch := Map.set {} s.hashWatch t w
        channels := Map.mapVals {} s.channels fun ch c => if coreTower ch = t then { c with spreadAtWindow := c.spreadLines } else c }
      if bad && n == s.reg 0x4103 2 then s.raiseImbalance t else s)

/-- HASH_IMBAL_REPEAT: while the imbalance lasts the event is raised again (R268). -/
def execHashImbalRepeat (t : Nat) (s : State) : Host.Outcome State Fault Refusal :=
  .next (
    let w := Map.get {} s.hashWatch t
    if t < 8 && s.reg 0x4103 2 ≤ w.consecutive && 0 < w.consecutive && w.raisedAt + secCycles (s.reg 0x4103 3) ≤ s.now then
      s.raiseImbalance t
    else s)

end Sys2Proof.Machine
end

