-- ==== Sys2Proof/Machine/Hens.lean ====
section
/-! DEFINITION. The commands of chapter 7: accepting a hen sequence, the hen operations, segments, chains and deliveries,
refresh, duty and halts (R290 to R329). -/
namespace Sys2Proof.Machine

/-! ### Acceptance (R295, R296, R320) -/

/-- The status with which a hen command fails the checks of R296 to R302. -/
def State.henCmdStatus (s : State) (core ch : Nat) (a : HenArgs) : Status :=
  if a.op.isNone || a.reserved then 0x02
  else if a.mask = 0 then 0
  else if !s.hensPresent ch then 0x07
  else if a.empty then 0
  else if !a.formatsOk || !a.sizesOk ch || !a.placeOk core ch then 0x02
  else if a.space = 2 || a.outRows.isEmpty then 0
  else
    let last := a.outRows.foldl (fun m r => max m (r.1 + r.2)) a.addr
    s.rangesStatus (coreTower core) [(tileAddr core a.space a.addr, last - a.addr)]

/-- Ranges that a command holds while a hen of its mask has not finished (R320). -/
def HenCmd.rangeCount (c : HenCmd) : Nat :=
  let a := henArgs c.words
  let each := (if a.atBanks then (if a.inPlace then 2 else 1) else 0) + (if a.destLines.isEmpty then 0 else 1)
  each * (c.works.filter fun w => !w.finished).length

/-- The ranges of a command: per hen its rows, and the destination lines (R320). -/
def HenCmd.ranges (c : HenCmd) (desc k : Nat) : List HenRange :=
  let a := henArgs c.words
  let hi := if a.op = some .rowgather then 0x1FFFFF else a.hoff + a.rows * a.rowBytes - 1
  let rows := if a.atBanks then c.works.flatMap fun w =>
      [⟨desc, k, some w.hen, a.hoff, hi, false⟩] ++ (if a.inPlace then [⟨desc, k, some w.hen, a.hoff, hi, true⟩] else [])
    else []
  let dest := if a.destLines.isEmpty || c.works.isEmpty then []
    else a.outRows.map fun r => ⟨desc, k, none, r.1, r.1 + r.2 - 1, true⟩
  rows ++ dest

/-- Buffered prefetches of lines that a write range now covers are removed and counted (R321). -/
def State.dropFenced (s : State) (ch : Nat) : State :=
  let c := s.channel ch
  let bad := c.buffer.filter fun b => s.inWriteRange ch (b.line * 64)
  s.setChannel ch { c with buffer := c.buffer.filter fun b => !bad.contains b, pfUnused := c.pfUnused + BitVec.ofNat 32 bad.length }

/-- A hen-sequence descriptor accepted by the engine of its core (R295, R296, R419). -/
def State.acceptHens (s : State) (core : Nat) (d : DmaDesc) : State :=
  let w0 := d.words.getD 0 0
  let w1 := (d.words.getD 1 0).toNat
  let n := bitsOf w1 63 55
  let ch := bitsOf w1 31 18
  let list := bitsOf w1 17 0
  let fail (st : Status) : State := s.endDma core d.id st
  if word0Status w0 ≠ 0 || bitsOf w1 54 32 ≠ 0 || (d.words.drop 2).any (· ≠ 0) then fail 0x02
  else if n = 0 then fail 0
  else if !coreExists ch then fail 0x02
  else if (s.issuer ch).isNone then fail 0x07
  else if 256 < n || list % 32 ≠ 0 || 0x40000 < list + 32 * n || s.issuer ch ≠ some core then fail 0x02
  else
    let (r, s) := s.readRange (storeAddr core list) (32 * n) (.dma core d.id)
    if r.waiting then s
    else if r.status ≠ 0 then s.endDma core d.id r.status
    else
      let cmds : List (List Word) := (List.range n).map fun i => (List.range 4).map fun j =>
        BitVec.ofNat 64 (bytesToNat (cut r.bytes (32 * i + 8 * j) 8))
      let st := (cmds.map fun ws => s.henCmdStatus core ch (henArgs ws)).find? (· ≠ 0) |>.getD 0
      if st ≠ 0 then s.endDma core d.id st
      else if !s.fieldUp (coreField ch) then s.endDma core d.id 0x03
      else
        let made : List HenCmd := cmds.map fun ws =>
          let a := henArgs ws
          { words := ws, works := if a.empty then [] else a.hens.map fun h => { hen := h } }
        let c := s.channel ch
        let used : Nat := c.seqs.foldl (fun n q => q.cmds.foldl (fun m x => m + x.rangeCount) n) 0
        if 512 < made.foldl (fun m x => m + x.rangeCount) used then s
        else
          let ranges := (List.zip (List.range made.length) made).flatMap fun (k, cmd) => cmd.ranges d.id k
          let s := s.setChannel ch { c with
            seqs := c.seqs ++ [{ core := core, desc := d.id, cmds := made }], ranges := c.ranges ++ ranges }
          (s.dropFenced ch).settleSeq ch d.id

/-- HEN_SEQ: the engine of a core takes its oldest hen-sequence descriptor that no channel has accepted; one that would
exceed the channel's 512 ranges stays (R320). -/
def execHenSeq (core : Nat) (s : State) : Host.Outcome State Fault Refusal :=
  .next (
    let taken (d : DmaDesc) : Bool := (s.channels.any fun e => e.2.seqs.any fun q => q.desc == d.id)
    match (s.core core).dma.find? fun d => (d.words.headD 0).toNat / 2 ^ 40 % 256 == 3 && d.status.isNone && !taken d with
    | some d => if s.running then s.unit core (.dma core d.id) fun s => s.acceptHens core d else s
    | none => s)

/-! ### Operations (R299) -/

/-- The arithmetic of the first hen that has finished its bank accesses for a command of the operation. -/
def State.henOperation (s : State) (ch : Nat) (op : HenOp) : State :=
  if !s.running then s
  else
    match s.nextCompute ch op with
    | some (q, k, cmd, w) => s.computeWork ch q k cmd w
    | none => s

/-- The end of a VLOAD's transfer: its bytes enter the VB of every hen of the mask (R299, R305). -/
def State.endVload (s : State) (ch : Nat) (t : HenTransfer) (q : HenSeq) (a : HenArgs) : State :=
  let (r, s) := s.readRange (tileAddr q.core a.space a.addr) a.load (.hen ch)
  if r.waiting then s
  else
    let c := s.channel ch
    let s := s.setChannel ch { c with transfer := none, otherRun := c.otherRun + (t.lines - t.counted) }
    if r.status ≠ 0 then (s.failCmd ch t.desc t.cmd r.status).finishHen ch t.desc t.cmd none
    else (a.hens.foldl (fun s h => s.setHenBuf ch h ((s.henBuf ch h).setVb a.vbOff r.bytes)) s).finishHen ch t.desc t.cmd none

/-- The transfer under way with its command, when it has ended. -/
def State.endedTransfer (s : State) (ch : Nat) : Option (HenTransfer × HenSeq × HenCmd) :=
  match (s.channel ch).transfer with
  | none => none
  | some t =>
    if s.now < t.until_ then none
    else ((s.channel ch).seqs.find? (·.desc == t.desc)).bind fun q => (q.cmds[t.cmd]?).map fun c => (t, q, c)

/-- VLOAD: its broadcast, which COMMAND_CHOOSE put on the lanes, ends (R299, R305). -/
def execVload (ch : Nat) (s : State) : Host.Outcome State Fault Refusal :=
  .next (
    match s.endedTransfer ch with
    | some (t, q, cmd) =>
      if (henArgs cmd.words).op = some .vload then s.unit q.core (.hen ch) fun s => s.endVload ch t q (henArgs cmd.words) else s
    | none => s)

/-- DELIVERY: a result delivery on the lanes ends and its rows are written (R299, R304, R305). -/
def execDelivery (ch : Nat) (s : State) : Host.Outcome State Fault Refusal :=
  .next (
    match s.endedTransfer ch with
    | none => s
    | some (t, q, cmd) =>
      let a := henArgs cmd.words
      if a.op = some .vload then s
      else
        s.unit q.core (.hen ch) fun s =>
          let c := s.channel ch
          let s := s.setChannel ch { c with transfer := none, otherRun := c.otherRun + (t.lines - t.counted) }
          let (rows, ev) := s.deliveryRows ch a cmd t.hen
          let s := s.countEvents ch ev
          let (st, s) := s.writeDelivery ch q.core a.space (s.descRerun q.core t.desc) rows
          let s := if st ≠ 0 then s.failCmd ch t.desc t.cmd st else s
          s.finishHen ch t.desc t.cmd t.hen)

/-- DOT: the sums of a hen enter its PB; with CHAIN they go on along the chain (R218, R299). -/
def execDot (ch : Nat) (s : State) : Host.Outcome State Fault Refusal := .next (s.henOperation ch .dot)
/-- KVSCORE: the sums of a hen enter its PB and are its own delivery (R299). -/
def execKvscore (ch : Nat) (s : State) : Host.Outcome State Fault Refusal := .next (s.henOperation ch .kvscore)
/-- KVMIX: the mixed columns of a hen enter its PB and go on along the chain (R299, R300). -/
def execKvmix (ch : Nat) (s : State) : Host.Outcome State Fault Refusal := .next (s.henOperation ch .kvmix)
/-- ROWSCALE: a hen's rows take their scaled values (R299, R300). -/
def execRowscale (ch : Nat) (s : State) : Host.Outcome State Fault Refusal := .next (s.henOperation ch .rowscale)
/-- ROWAXPY: a hen's rows take their sums with the scaled vectors (R299, R300). -/
def execRowaxpy (ch : Nat) (s : State) : Host.Outcome State Fault Refusal := .next (s.henOperation ch .rowaxpy)
/-- ROWGATHER: a hen has read its rows, which become its delivery (R299, R302). -/
def execRowgather (ch : Nat) (s : State) : Host.Outcome State Fault Refusal := .next (s.henOperation ch .rowgather)

/-- CHAINSUM: nothing at the banks; the chain starts from the PBs as they stand (R299). -/
def execChainsum (ch : Nat) (s : State) : Host.Outcome State Fault Refusal :=
  .next (
    if !s.running then s
    else
      match (s.channel ch).allWorks.find? fun (q, _, cmd, w) =>
          !q.dead && (henArgs cmd.words).op == some .chainsum && w.since.isSome && w.computed.isNone && !w.finished with
      | none => s
      | some (q, k, cmd, _) =>
        let s := cmd.works.foldl (fun s w => s.markComputed ch q.desc k w.hen) s
        match (henArgs cmd.words).hens with
        | h :: _ => s.beginChain ch q.desc k cmd h
        | [] => s)

/-- CHAIN_HOP: the sum so far passes to the next hen of the mask, which adds its own partials (R218, R292, R307). -/
def execChainHop (ch : Nat) (s : State) : Host.Outcome State Fault Refusal :=
  .next (
    let ready (q : HenSeq) (cmd : HenCmd) : Bool :=
      let a := henArgs cmd.words
      !q.dead && a.chained && cmd.status == 0 && 0 < cmd.summed && cmd.summed < cmd.works.length &&
        (match cmd.works[cmd.summed]? with
         | some { computed := some own, .. } => decide (max own cmd.summedAt + hopTime (a.width * a.vecs) ≤ s.run)
         | _ => false)
    match (s.channel ch).allWorks.find? fun (q, _, cmd, _) => ready q cmd with
    | some (q, k, cmd, _) =>
      let a := henArgs cmd.words
      let h := a.hens.getD cmd.summed 0
      let own := (List.range (a.width * a.vecs)).map (s.henBuf ch h).pbEntry
      let (sum, ev) := addLists cmd.sum own
      (s.updSeq ch q.desc fun q => q.updCmd k fun c =>
        { c with sum := sum, summed := c.summed + 1, summedAt := s.run }).countEvents ch ev
    | none => s)

/-- HEN_SEGMENT_END: a running segment ends its schedule, releases its pair and begins boundary service (R312, R313). -/
def execHenSegmentEnd (ch : Nat) (s : State) : Host.Outcome State Fault Refusal :=
  .next (
    match (s.channel ch).segments.find? fun g => g.until_ ≤ s.now with
    | some g => s.endSegment ch g
    | none => s)

/-- THROTTLED_TIMEOUT: a command has waited for admission under R318 for HEN_WAIT_MAX (R319). -/
def execThrottledTimeout (ch : Nat) (s : State) : Host.Outcome State Fault Refusal :=
  .next (
    let c := s.channel ch
    match (s.field (coreField ch)).haltedAt with
    | none => s
    | some from_ =>
      let waits (q : HenSeq) (k : Nat) (cmd : HenCmd) (w : HenWork) : Bool :=
        !q.dead && (henArgs cmd.words).atBanks && !w.finished && w.computed.isNone && w.status == 0 &&
          !(c.segments.any fun g => g.desc == q.desc && g.cmd == k && g.hen == w.hen) &&
          (match w.since with
           | some t => decide (max t from_ + msCycles (s.reg 0x4200 5) ≤ s.run)
           | none => false)
      match c.allWorks.find? fun (q, k, cmd, w) => waits q k cmd w with
      | some (q, _, _, _) => ((s.killSeq ch q.desc).endDma q.core q.desc 0x0C).towerSat 0xB407 (coreTower ch) 1
      | none => s)

/-! ### Refresh, duty and halts -/

/-- Every channel number of a field. -/
def fieldChannels (f : Nat) : List Nat := fieldCores f

/-- REFRESH_OWED: at a tREFI boundary of a layer every bank of it owes one more quantum; a band change takes effect here
(R310, R311). -/
def execRefreshOwed (f layer : Nat) (s : State) : Host.Outcome State Fault Refusal :=
  .next (
    let fl := s.field f
    let (last, band) := Map.get (0, 0) fl.refresh layer
    if 64 ≤ f || 16 ≤ layer || !s.running || s.run < last + bandInterval band then s
    else
      let next := (last + bandInterval band, Map.get 0 fl.bands layer)
      let s := s.setField f { fl with refresh := Map.set (0, 0) fl.refresh layer next }
      (fieldChannels f).foldl (fun s ch =>
        s.setChannel ch ((List.range 4).foldl (fun (c : Channel) k =>
          let b := 4 * layer + k
          c.setBank b { c.bank b with owed := min 4 ((c.bank b).owed + 1) }) (s.channel ch))) s)

/-- LAYER_DUTY_WINDOW: the duty of each layer over the 100 µs window; a layer above HEN_LAYER_DUTY_MAX is restricted in the
next one (R317). -/
def execLayerDutyWindow (f : Nat) (s : State) : Host.Outcome State Fault Refusal :=
  .next (
    let fl := s.field f
    if 64 ≤ f || s.now < fl.dutyAt + usCycles 100 then s
    else
      let running := (s.channels.filter fun e => coreField e.1 == f).flatMap fun e => e.2.segments
      let active (layer : Nat) : Nat := Map.get 0 fl.duty layer +
        ((running.filter fun g => g.hen / 2 == layer).map fun g => s.now - max g.start fl.dutyAt).foldl (· + ·) 0
      let limit := s.reg 0x4200 3
      let hot := (List.range 16).filter fun l => decide (limit < 100) && decide (limit * usCycles 100 * 320 < active l * 100)
      let last := (List.range 16).foldl (fun m l => Map.set 0 m l (active l)) []
      (s.setField f { fl with dutyAt := s.now, duty := [], lastDuty := last, restricted := hot }).towerSat 0xB408 (f / 8) hot.length)

/-- HEN_HALT_WRITE: 0x01 halts every hen of the module, another value lets them start again (R318, R328). -/
def execHenHaltWrite (v : BitVec 8) (s : State) : Host.Outcome State Fault Refusal :=
  .next (s.written (if 1 < v.toNat then s else (s.setReg 0x4200 6 v.toNat).updateHalts))

end Sys2Proof.Machine
end

