-- ==== Sys2Proof/Machine/Kv.lean ====
section
/-! DEFINITION. Key/value regions and appends (spec file 08_batched_decode_and_kv_regions.md). -/
namespace Sys2Proof.Machine

/-! ### Region descriptors (R331 to R335, R353) -/

/-- A region descriptor. -/
structure Region where
  kfmt : Fmt
  vfmt : Fmt
  srcFmt : Fmt
  state : Nat
  contUsed : Bool
  isCont : Bool
  nch : Nat
  dh : Nat
  pairs : Nat
  tmax : Nat
  len : Nat
  basePos : Nat
  mask : Nat
  hbase : Nat
  cset : Nat
  cont : Nat
  queue : Nat
  tag : Nat
  codesOk : Bool
  members : List Nat
  deriving DecidableEq, Repr

/-- A descriptor from its words and the entries of its channel list. -/
def regionOf (ws : List Word) (entries : List Nat) : Region :=
  let f := tileField ws
  let fmt (hi lo : Nat) : Fmt := Fmt.ofCode (BitVec.ofNat 4 (f 0 hi lo))
  let row (c : Nat) : Bool := c == 3 || c == 4 || c == 7 || c == 8
  { kfmt := fmt 63 60, vfmt := fmt 59 56, srcFmt := fmt 55 52, state := f 0 51 50, contUsed := f 0 49 49 == 1,
    isCont := f 0 48 48 == 1, nch := f 0 47 41, dh := f 0 40 29, pairs := f 0 28 16, tmax := f 1 63 32, len := f 1 31 0,
    basePos := f 2 63 32, mask := f 2 31 0, hbase := f 3 20 0, cset := f 4 47 0, cont := f 5 47 0, queue := f 6 24 0,
    tag := f 7 31 0,
    codesOk := row (f 0 63 60) && row (f 0 59 56) && (f 0 55 52 == 1 || f 0 55 52 == 2) && f 0 15 0 == 0 &&
      f 3 63 21 == 0 && f 4 63 48 == 0 && f 5 63 48 == 0 && f 6 63 25 == 0 && f 7 63 32 == 0
    members := entries }

def Region.hens (r : Region) : List Nat := (List.range 32).filter fun h => r.mask.testBit h
def Region.cap (r : Region) : Nat := (r.tmax + r.nch - 1) / r.nch
def Region.krow (r : Region) : Nat := r.kfmt.operandBytes r.dh
def Region.vrow (r : Region) : Nat := r.vfmt.operandBytes r.dh
def Region.kpb (r : Region) : Nat := linesOf (r.cap * r.krow) * 64
def Region.vpb (r : Region) : Nat := linesOf (r.cap * r.vrow) * 64
def Region.slot (r : Region) : Nat := r.kpb + r.vpb
def Region.henBytes (r : Region) : Nat := (r.pairs + r.hens.length - 1) / r.hens.length * r.slot

def noRepeats : List Nat → Bool
  | [] => true
  | x :: xs => !xs.contains x && noRepeats xs

/-- What the words of a region descriptor that lies in the channel `home` must hold themselves (R332, R335). -/
def Region.wordsValid (r : Region) (home : Nat) : Bool :=
  r.codesOk && r.state != 3 && 1 ≤ r.nch && r.nch ≤ 64 && 32 ≤ r.dh && r.dh ≤ 2048 && r.dh % 32 == 0 && 1 ≤ r.pairs &&
  1 ≤ r.tmax && r.mask != 0 && r.hbase % 64 == 0 && r.hbase + r.henBytes ≤ 0x200000 && r.cset % 64 == 0 &&
  (match localPlace r.cset with
   | .dram ch _ => ch == home && decide (r.cset < 8 * dramTower)
   | _ => false)

/-- Validity of a region descriptor with its channel list (R335). -/
def Region.valid (r : Region) (home : Nat) : Bool :=
  r.wordsValid home && r.members.length == r.nch && (r.members.all fun m => decide (m < 16384) && coreExists m) && noRepeats r.members

/-- Where the row of a position, pair and kind lies (R334): its member channel, hen and hen offset. -/
def Region.place (r : Region) (t p : Nat) (value : Bool) : Nat × Nat × Nat :=
  let tt := (t + 2 ^ 32 - r.basePos) % 2 ^ 32
  let row := tt / r.nch
  let nh := r.hens.length
  let plane := r.hbase + p / nh * r.slot + (if value then r.kpb else 0)
  (r.members.getD (tt % r.nch) 0, r.hens.getD (p % nh) 0, plane + row * (if value then r.vrow else r.krow))

/-- Lines read by the controller of their own channel, whatever its field does. -/
def State.readLines (s : State) (ch : Nat) : List (Nat × Nat) → ReadResult × State
  | [] => ({}, s)
  | (a, n) :: rest =>
    let off := a % channelBytes
    match s.readDramLine ch off .queue with
    | (0, line, s) =>
      let (q, s) := (s.countLine ch off false false).readLines ch rest
      ({ q with bytes := (line.drop (off % 64)).take n ++ q.bytes }, s)
    | (st, _, s) => ({ status := st }, s.countLine ch off false false)

/-- The append unit's reads of descriptors and lists, through the window of their channel (R708); it is part of the controller of its home
channel, where they go on while the field is in reset or dark (R350, R356). -/
def State.readHome (s : State) (a n : Nat) (who : Agent) : ReadResult × State :=
  let home (ch : Nat) : Bool := match who with
    | .append c _ | .region c _ => c == ch
    | _ => false
  match placeOf a with
  | .dram ch off => if home ch && s.placeStatus (.dram ch off) = 3 then s.readLines ch (pieces a n) else s.readRange a n who
  | _ => s.readRange a n who

/-- A descriptor read with its channel list; the status of a failing read otherwise. -/
def State.readRegion (s : State) (a : Nat) (who : Agent) : Option (Status × Region × List Word) × State :=
  let (r, s) := s.readHome a 64 who
  if r.waiting then (none, s)
  else
    let ws : List Word := (List.range 8).map fun j => BitVec.ofNat 64 (bytesToNat (cut r.bytes (8 * j) 8))
    let d := regionOf ws []
    if r.status ≠ 0 || d.nch = 0 || 64 < d.nch then (some (r.status, d, ws), s)
    else
      let (l, s) := s.readHome d.cset (2 * d.nch) who
      if l.waiting then (none, s)
      else (some (l.status, regionOf ws ((List.range d.nch).map fun i => bytesToNat (cut l.bytes (2 * i) 2)), ws), s)

/-- The continuation of a region is valid for it (R353). -/
def Region.continues (c : Region) (cw : List Word) (r : Region) (home addr : Nat) : Bool :=
  c.valid home && addr % 64 == 0 && localPlace addr == .dram home (addr % channelBytes) && decide (addr < 8 * dramTower) &&
  c.isCont && c.cont == 0 && c.kfmt == r.kfmt && c.vfmt == r.vfmt && c.srcFmt == r.srcFmt && c.dh == r.dh &&
  c.pairs == r.pairs && c.basePos == r.tmax && cw.length == 8

/-- Word `i` of a descriptor written by the append unit of its home channel (R336), in reset too (R356). -/
def State.writeRegionWord (s : State) (who : Agent) (region i : Nat) (w : Word) : Status × State :=
  match placeOf region with
  | .dram ch off =>
    if s.placeStatus (.dram ch off) = 3 then s.writeDram ch (off + 8 * i) (natToBytes 8 w.toNat) false
    else s.writeRange (region + 8 * i) (natToBytes 8 w.toNat) none who
  | _ => s.writeRange (region + 8 * i) (natToBytes 8 w.toNat) none who

/-- Word 0 with another STATE, and CONT_USED set where asked. -/
def withRegionState (w : Word) (st : Nat) (used : Bool) : Word :=
  BitVec.ofNat 64 (w.toNat - w.toNat / 2 ^ 50 % 4 * 2 ^ 50 + st * 2 ^ 50) ||| (if used then BitVec.ofNat 64 (2 ^ 49) else 0)

/-! ### Past the end (R350 to R355) -/

/-- An event record (R355), with its event for the kinds that raise one. -/
def State.kvRecord (s : State) (ch region kind ntok : Nat) (r : Region) : State :=
  let head := s.reg 0x4301 2
  let v : BitVec 256 := BitVec.ofNat 256
    ((s.refTime (coreTower ch)).toNat * 2 ^ 192 + r.tag * 2 ^ 160 + r.len * 2 ^ 128 + ntok * 2 ^ 112 + kind * 2 ^ 108 +
     r.queue * 2 ^ 71 + region)
  let s := { s with kvLog := Map.set 0 s.kvLog head v }.setReg 0x4301 2 ((head + 1) % 32)
  if kind = 1 then s.raise 0x07 (coreTower ch) r.tag
  else if 3 ≤ kind then s.raise 0x08 (coreTower ch) r.tag else s

/-- SEQ_QUEUE is a queue of this device; pauses of other members' queues leave as messages (assumption 30). -/
def State.seqQueue (s : State) (r : Region) : Option Nat :=
  if s.isOwn (r.queue / 2 ^ 19) && queueExists (r.queue % 2 ^ 19) then some (r.queue % 2 ^ 19) else none

def State.pauseSeq (s : State) (r : Region) : State :=
  match s.seqQueue r with
  | some q => s.setQueue q { s.queue q with paused := (s.queue q).paused + 1 }
  | none => s.send (.groupMessage (r.queue / 2 ^ 19) 3 [r.queue % 2 ^ 19])

def State.resumeSeq (s : State) (r : Region) : State :=
  match s.seqQueue r with
  | some q => s.setQueue q { s.queue q with paused := (s.queue q).paused - 1 }
  | none => s.send (.groupMessage (r.queue / 2 ^ 19) 4 [r.queue % 2 ^ 19])

/-- complete_all_in_ring(): the descriptors present complete with OVERRUN without running. -/
def State.drainSeq (s : State) (r : Region) : State :=
  match s.seqQueue r with
  | some q => s.flushAll q 0x04 ((s.queue q).pi - (s.queue q).ci).toNat
  | none => s.send (.groupMessage (r.queue / 2 ^ 19) 5 [r.queue % 2 ^ 19])

/-- An append completes with a status (KV_APPENDS). -/
def State.finishAppend (s : State) (ch core desc : Nat) (st : Status) : State :=
  let c := s.channel ch
  ((s.setChannel ch { c with appends := c.appends.filter (·.desc != desc) }).endDma core desc st).towerWrap 0xB500 (coreTower ch) 1

/-- retire() of R350; the append, if one still waits, completes with OVERRUN. Where none waits any more (R356), the record holds 0 for NTOK:
the spec does not say (assumption 87, DESIGN CHOICE). -/
def State.retire (s : State) (who : Agent) (ch region kind : Nat) (op : Option AppendOp) (r : Region) (ws : List Word) (paused : Bool) :
    State :=
  let (_, s) := s.writeRegionWord who region 0 (withRegionState (ws.getD 0 0) 2 false)
  let ntok := match op with
    | some o => bitsOf (o.words.getD 3 0).toNat 37 22
    | none => 0
  let s := match op with
    | some o => s.finishAppend ch o.core o.desc 0x04
    | none => s
  let s := s.drainSeq r
  let s := if paused then s.resumeSeq r else s
  (s.kvRecord ch region kind ntok r).towerSat 0xB504 (coreTower ch) 1

/-- past_end(): the region pauses and asks, or retires when a continuation has been used. -/
def State.pastEnd (s : State) (ch : Nat) (op : AppendOp) (r : Region) (ws : List Word) : State :=
  let s := s.towerSat 0xB502 (coreTower ch) 1
  let who : Agent := .append ch op.desc
  if r.contUsed then s.retire who ch op.region 5 (some op) r ws false
  else
    match s.writeRegionWord who op.region 0 (withRegionState (ws.getD 0 0) 1 false) with
    | (0, s) =>
      let c := s.channel ch
      let s := s.setChannel ch { c with
        appends := c.appends.map fun o => if o.desc = op.desc then { o with paused := true } else o
        pausedRegions := c.pausedRegions ++ [(op.region, s.run + msCycles 10)]
        pausedWords := Map.set [] c.pausedWords op.region ws }
      ((s.pauseSeq r).setReg 0x4300 2 (s.reg 0x4300 2 + 1)).kvRecord ch op.region 1 (bitsOf (op.words.getD 3 0).toNat 37 22) r
    | (st, s) => s.finishAppend ch op.core op.desc st

/-- A paused region leaves the list of its channel. -/
def State.unpause (s : State) (ch region : Nat) : State :=
  let c := s.channel ch
  (s.setChannel ch { c with
    pausedRegions := c.pausedRegions.filter (·.1 != region)
    pausedWords := Map.set [] c.pausedWords region [] }).setReg 0x4300 2 (s.reg 0x4300 2 - 1)

/-- The append that waits for the answer of a region. -/
def State.pausedAppend (s : State) (ch region : Nat) : Option AppendOp :=
  (s.channel ch).appends.find? fun o => o.region == region && o.paused

/-- The descriptor of a paused region; where its read fails, as it was when the region paused (assumption 69). -/
def State.readPaused (s : State) (ch region : Nat) : Option (Status × Region × List Word) × State :=
  match s.readRegion region (.region ch region) with
  | (some (0, r, ws), s) => (some (0, r, ws), s)
  | (some (st, _, _), s) =>
    let ws := Map.get [] (s.channel ch).pausedWords region
    (some (st, regionOf ws [], ws), s)
  | (none, s) => (none, s)

/-- An answer applied to a paused region of a channel (R350). A record without a waiting append holds 0 for NTOK (assumption 87, DESIGN
CHOICE). -/
def State.answerRegion (s : State) (ch primary cont : Nat) : State :=
  let who : Agent := .region ch primary
  let op := s.pausedAppend ch primary
  match s.readPaused ch primary with
  | (some (0, r, ws), s) =>
    let (found, s) := if cont = 0 then (none, s) else s.readRegion cont who
    if cont ≠ 0 && found.isNone then s
    else
      let s := s.unpause ch primary
      let ok := match found with
        | some (0, c, cw) => c.continues cw r ch cont
        | _ => false
      if !ok then s.retire who ch primary 3 op r ws true
      else
        let (_, s) := s.writeRegionWord who primary 5 (BitVec.ofNat 64 cont)
        let (_, s) := s.writeRegionWord who primary 0 (withRegionState (ws.getD 0 0) 0 true)
        let c := s.channel ch
        let s := s.setChannel ch { c with appends := c.appends.map fun o =>
          if o.region = primary then { o with paused := false } else o }
        let ntok := match op with
          | some o => bitsOf (o.words.getD 3 0).toNat 37 22
          | none => 0
        ((s.resumeSeq r).kvRecord ch primary 2 ntok r).towerSat 0xB503 (coreTower ch) 1
  | (some (_, r, ws), s) => (s.unpause ch primary).retire who ch primary 3 op r ws true
  | (none, s) => s

/-- The home channel of a region address. -/
def regionHome (a : Nat) : Option Nat :=
  match (if a < 8 * dramTower then localPlace a else .unassigned) with
  | .dram ch _ => some ch
  | _ => none

/-- The deadline of a region that is paused. -/
def State.pausedUntil (s : State) (region : Nat) : Option Nat :=
  (regionHome region).bind fun ch => ((s.channel ch).pausedRegions.find? (·.1 == region)).map (·.2)

/-- An answer that names no paused region changes nothing and is counted in the tower of its home channel (R354); one whose address lies in
no channel counts in tower 0, since the spec names no tower (assumption 87, DESIGN CHOICE). -/
def State.strayAnswer (s : State) (region : Nat) : State := s.towerSat 0xB505 ((regionHome region).elim 0 coreTower) 1

/-- Answers that have come in time, applied in order as the lines that each needs arrive (R354, R708). -/
def State.settleAnswers (s : State) : State :=
  s.heldAnswers.foldl (fun (t : State) e =>
    if t.heldAnswers.any fun x => x.1 == e.1 then { t with heldAnswers := t.heldAnswers ++ [e] }
    else
      match regionHome e.1, t.pausedUntil e.1 with
      | some ch, some _ =>
        let u := t.unit ch (.region ch e.1) fun s => s.answerRegion ch e.1 e.2
        if (u.pausedUntil e.1).isSome then { u with heldAnswers := u.heldAnswers ++ [e] } else u
      | _, _ => t.strayAnswer e.1) { s with heldAnswers := [] }

/-- An answer that reaches the home channel: stray, or in time (R354). -/
def State.takeAnswer (s : State) (primary cont : Nat) : State :=
  match s.pausedUntil primary with
  | some deadline =>
    if deadline ≤ s.run then s.strayAnswer primary
    else { s with heldAnswers := s.heldAnswers ++ [(primary, cont)] }.settleAnswers
  | none => s.strayAnswer primary

/-! ### Rows (R339, R342, R343) -/

/-- One stored row from its source row (R342). -/
def quantiseRow (src dst : Fmt) (dh : Nat) (bytes : List Byte) : List Byte × List NumEvent :=
  let xs := (src.unpack dh bytes).map src.readArray
  let (row, ev) := dst.operand .nearest (xs.map fun x => .num x.1)
  (row, xs.flatMap (·.2) ++ ev)

/-- The bytes of a row written at a hen offset of a member channel, line by line (R343). -/
def State.writeHenBytes (s : State) (who : Agent) (ch h : Nat) : List (Nat × Nat) → List Byte → Status × State
  | [], _ => (0, s)
  | (u, n) :: rest, data =>
    match s.writePiece (dramAddr ch (henToChannel h u)) (data.take n) none who with
    | (0, s) => s.writeHenBytes who ch h rest (data.drop n)
    | (st, s) => (st, s)

/-- The rows of an append: position, pair and kind, in source order. -/
def appendRows (len ntok first npairs : Nat) : List (Nat × Nat × Bool) :=
  (List.range ntok).flatMap fun n => (List.range npairs).flatMap fun i =>
    [(len + n, first + i, false), (len + n, first + i, true)]

/-- An append that its home channel holds, changed. -/
def State.updAppend (s : State) (ch desc : Nat) (g : AppendOp → AppendOp) : State :=
  let c := s.channel ch
  s.setChannel ch { c with appends := c.appends.map fun o => if o.desc = desc then g o else o }

/-- The rows whose source was read before a failing line: position, pair and kind, in source order (R341). -/
def AppendOp.rows (op : AppendOp) : List (Nat × Nat × Bool) :=
  let w3 := (op.words.getD 3 0).toNat
  let r := regionOf op.primary.1 op.primary.2
  let whole := (op.source.elim 0 fun d => d.2.length) / (2 * r.dh)
  (appendRows r.len (bitsOf w3 37 22) (bitsOf w3 63 51) (bitsOf w3 50 38)).take whole

/-- The next row written: a member in a dark field loses its rows, another failure ends the append (R344, R357); a row that is written
counts (R360). -/
def State.writeAppendRow (s : State) (ch : Nat) (op : AppendOp) (row : Nat × Nat × Bool) : State :=
  let (t, p, value) := row
  let r := regionOf op.primary.1 op.primary.2
  let n := 2 * r.dh
  let region := if t < r.tmax then r else (op.cont.map fun c => regionOf c.1 c.2).getD r
  let (member, hen, off) := region.place t p value
  let (row, ev) := quantiseRow r.srcFmt (if value then r.vfmt else r.kfmt) r.dh (((op.source.elim [] (·.2)).drop (op.next * n)).take n)
  let s := s.countEvents ch ev
  let first (st : Status) : Status := if op.status = 0 then st else op.status
  let ended (s : State) (st : Status) : State := s.updAppend ch op.desc fun o => { o with written := some (first st) }
  if 0x200000 < off + row.length then ended s 0x02
  else
    match s.writeHenBytes (.append ch op.desc) member hen (pieces off row.length) row with
    | (0, s) => (s.towerWrap 0xB501 (coreTower ch) 1).updAppend ch op.desc fun o => { o with next := o.next + 1 }
    | (0x03, s) => s.updAppend ch op.desc fun o => { o with next := o.next + 1, status := first 0x03 }
    | (e, s) => ended s e

/-- The rows of an append written one after another, as far as their lines are written; after the last, or after a source that failed, it
ends (R343, R344, R357). -/
def State.writeAppendRows (ch desc : Nat) : Nat → State → State
  | 0, s => s
  | fuel + 1, s =>
    match (s.channel ch).appends.find? (·.desc == desc) with
    | none => s
    | some op =>
      if op.written.isSome || op.source.isNone then s
      else
        match op.rows[op.next]? with
        | none =>
          let st := op.source.elim 0 (·.1)
          s.updAppend ch desc fun o => { o with written := some (if o.status = 0 then st else o.status) }
        | some row =>
          let t := s.unit op.core (.append ch desc) fun s => s.writeAppendRow ch op row
          if (t.channel ch).appends.any fun o => o.desc == desc && o.next == op.next && o.written.isNone then t
          else State.writeAppendRows ch desc fuel t

/-- Bytes of this device or of another, for each line of which the unit has a request over the links (R482); `remote` are they where they
come back with the command. -/
def State.readGroup (s : State) (a n : Nat) (who : Agent) (remote : Option (Status × List Byte)) : ReadResult × State :=
  if s.isOwn (a / 2 ^ 48 % 64) then s.readRange (a % 2 ^ 48) n who
  else
    match remote with
    | some (st, bytes) => ({ status := st, bytes := bytes.take n }, s)
    | none => s.readRange (a % 2 ^ 48) n who (a / 2 ^ 48 % 64)

/-- The device that a group address names is this one or a member (R47). -/
def State.memberDevice (s : State) (dev : Nat) : Bool := s.isOwn dev || (s.reg 0x5200 6).testBit dev

/-- A member channel that an append writes, before the end of its region, is not on the part (R11, R341). -/
def State.memberAbsent (s : State) (r : Region) (c : Option Region) (rows : List (Nat × Nat × Bool)) : Bool :=
  rows.any fun (t, p, value) =>
    let (member, hen, off) := (if t < r.tmax then r else c.getD r).place t p value
    s.placeStatus (.dram member (henToChannel hen off)) == 0x07

/-- A unit that holds a part of an append's source on this device is absent (check 2 of R419). -/
def State.sourceAbsent (s : State) (core src bytes : Nat) : Bool :=
  s.isOwn (src / 2 ^ 48 % 64) && s.rangesStatus (coreTower core) [(src % 2 ^ 48, bytes)] == 0x07

/-- An accepted append checked and its source read (R11, R335, R338, R341, R352). -/
def State.readAppend (s : State) (ch : Nat) (op : AppendOp) (remote : Option (Status × List Byte)) : State :=
  let w3 := (op.words.getD 3 0).toNat
  let src := bitsOf (op.words.getD 2 0).toNat 53 0
  let first := bitsOf w3 63 51
  let npairs := bitsOf w3 50 38
  let ntok := bitsOf w3 37 22
  let who : Agent := .append ch op.desc
  let fail (s : State) (st : Status) : State := s.finishAppend ch op.core op.desc st
  match s.readRegion op.region who with
  | (none, s) => s
  | (some (st, r, ws), s) =>
    -- the descriptor's own words, where they could be read, are judged before the channel list's read
    let read := decide (st = 0) || !(ws.all (· == 0))
    let outside := decide (r.pairs < first + npairs) || decide (0xFFFFFFFF < r.len + ntok)
    if read && r.state = 2 then fail s 0x04
    else if read && !r.wordsValid ch then fail s 0x02
    else if st ≠ 0 then fail s st
    else if s.sourceAbsent op.core src (ntok * npairs * 4 * r.dh) then fail s 0x07
    else if !r.valid ch then fail s 0x02
    else if r.state = 1 && !outside then s
    else
      let (cont, s) := if r.cont = 0 then (none, s) else s.readRegion r.cont who
      let good := match cont with
        | some (0, c, cw) => c.continues cw r ch r.cont
        | _ => r.cont == 0
      let extra := match cont with
        | some (0, c, _) => c.tmax
        | _ => 0
      let bytes := ntok * npairs * 4 * r.dh
      let own := s.isOwn (src / 2 ^ 48 % 64)
      if r.cont ≠ 0 && cont.isNone then s
      else if s.memberAbsent r (cont.map fun c => c.2.1)
          ((appendRows r.len ntok first npairs).filter fun w => decide (w.1 < r.tmax + extra) && decide (w.2.1 < r.pairs)) && good then
        fail s 0x07
      else if !good || outside then fail s 0x02
      else if own && s.rangesStatus (coreTower ch) [(src % 2 ^ 48, bytes)] ≠ 0 then fail s (s.rangesStatus (coreTower ch) [(src % 2 ^ 48, bytes)])
      else if r.tmax + extra < r.len + ntok then s.pastEnd ch op r ws
      else
        let (data, s) := s.readGroup src bytes who remote
        if data.waiting then s
        else
          s.updAppend ch op.desc fun o => { o with
            source := some (data.status, data.bytes), primary := (ws, r.members)
            cont := cont.map fun c => (c.2.2, c.2.1.members) }

/-- An accepted append performed: its checks and its source, then its rows. -/
def State.performAppend (s : State) (ch : Nat) (op : AppendOp) (remote : Option (Status × List Byte)) : State :=
  let s := if op.source.isSome then s else s.unit op.core (.append ch op.desc) fun s => s.readAppend ch op remote
  let rows := ((s.channel ch).appends.find? (·.desc == op.desc)).elim 0 fun o => o.rows.length
  State.writeAppendRows ch op.desc (rows + 1) s

/-- A KV-append descriptor accepted by the engine of a core (R338, R419). -/
def State.acceptAppend (s : State) (core : Nat) (d : DmaDesc) (remote : Option (Status × List Byte)) : State :=
  let w1 := (d.words.getD 1 0).toNat
  let w2 := (d.words.getD 2 0).toNat
  let w3 := (d.words.getD 3 0).toNat
  let region := bitsOf w1 47 0
  let fail (st : Status) : State := (s.endDma core d.id st).towerWrap 0xB500 (coreTower core) 1
  if word0Status (d.words.getD 0 0) ≠ 0 || bitsOf w1 63 48 ≠ 0 || bitsOf w2 63 54 ≠ 0 || bitsOf w3 20 0 ≠ 0 ||
      (d.words.drop 4).any (· ≠ 0) then fail 0x02
  else if bitsOf w3 37 22 = 0 || bitsOf w3 50 38 = 0 then fail 0
  else if !s.memberDevice (bitsOf w2 53 48) || s.sourceAbsent core (bitsOf w2 53 0) 1 then fail 0x07
  else
    match (if region < 8 * dramTower then localPlace region else .unassigned) with
    | .dram ch _ =>
      if !coreExists ch then fail 0x02
      else if (s.issuer ch).isNone then fail 0x07
      else if s.issuer ch ≠ some core || region % 64 ≠ 0 then fail 0x02
      else if !s.fieldUp (coreField ch) then fail 0x03
      else if (s.channel ch).appends.any (·.region == region) || (s.channel ch).pausedRegions.any (·.1 == region) then s
      else
        let op : AppendOp := { core := core, desc := d.id, region := region, words := d.words }
        let c := s.channel ch
        (s.setChannel ch { c with appends := c.appends ++ [op] }).performAppend ch op remote
    | _ => fail 0x02

/-- The region of a descriptor has an append under way or is paused: its appends are performed one at a time, and the others go on
(R341, R351). -/
def State.appendBlocked (s : State) (d : DmaDesc) : Bool :=
  let region := bitsOf (d.words.getD 1 0).toNat 47 0
  match (if region < 8 * dramTower then localPlace region else .unassigned) with
  | .dram ch _ => (s.channel ch).appends.any (·.region == region) || (s.channel ch).pausedRegions.any (·.1 == region)
  | _ => false

/-- KV_APPEND: a home append unit performs an accepted append that waits no more, or accepts the engine's next one whose region is free
(R340, R341, R351). -/
def execKvAppend (core : Nat) (remote : Option (Status × List Byte)) (s : State) : Host.Outcome State Fault Refusal :=
  .next (
    if !s.running then s
    else
      let s := s.settleAnswers
      let mine := s.channels.findSome? fun e =>
        (e.2.appends.find? fun o => o.core == core && !o.paused && o.written.isNone && !e.2.pausedRegions.any (·.1 == o.region)).map
          fun o => (e.1, o)
      match mine with
      | some (ch, op) => s.performAppend ch op remote
      | none =>
        let taken (d : DmaDesc) : Bool := s.channels.any fun e => e.2.appends.any (·.desc == d.id)
        match (s.core core).dma.find? fun d =>
            (d.words.headD 0).toNat / 2 ^ 40 % 256 == 5 && d.status.isNone && !taken d && !s.appendBlocked d with
        | some d => s.acceptAppend core d remote
        | none => s)

/-- KV_APPEND_COMPLETE: every line is written; LEN rises when COMMIT is set and the append is OK (R340, R343, R358). -/
def execKvAppendComplete (ch : Nat) (s : State) : Host.Outcome State Fault Refusal :=
  .next (
    match if s.running then (s.channel ch).appends.find? (·.written.isSome) else none with
    | none => s
    | some op =>
      let st := op.written.getD 0
      let w3 := (op.words.getD 3 0).toNat
      if st = 0 && bitsOf w3 21 21 = 1 then
        s.unit op.core (.append ch op.desc) fun s =>
          match s.readHome (op.region + 8) 8 (.append ch op.desc) with
          | (r, s) =>
            if r.waiting then s
            else if r.status ≠ 0 then s.finishAppend ch op.core op.desc r.status
            else
              let w := BitVec.ofNat 64 (bytesToNat r.bytes + bitsOf w3 37 22)
              let (e, s) := s.writeRegionWord (.append ch op.desc) op.region 1 w
              s.finishAppend ch op.core op.desc e
      else s.finishAppend ch op.core op.desc st)

/-- KV_ANSWER: software's answer for a paused region, kept until the thaw while the device is frozen (R354, R358); one that waits for lines
goes on with the next KV_APPEND of any core. -/
def execKvAnswer (primary cont : BitVec 64) (s : State) : Host.Outcome State Fault Refusal :=
  .next (s.written (
    if !s.running then { s with heldAnswers := s.heldAnswers ++ [(primary.toNat, cont.toNat)] }
    else s.takeAnswer primary.toNat cont.toNat))

/-- KV_ANSWER_TIMEOUT: 10 ms without an answer retire a paused region; in a freeze the timer stands (R350, R358). -/
def execKvAnswerTimeout (ch : Nat) (s : State) : Host.Outcome State Fault Refusal :=
  .next (
    if !s.running then s
    else
      match (s.channel ch).pausedRegions.find? fun e => decide (e.2 ≤ s.run) && !(s.heldAnswers.any (·.1 == e.1)) with
      | none => s
      | some (region, _) =>
        s.unit ch (.region ch region) fun s =>
          let op := s.pausedAppend ch region
          match s.readPaused ch region with
          | (some (_, r, ws), s) => (s.unpause ch region).retire (.region ch region) ch region 4 op r ws true
          | (none, s) => s)

end Sys2Proof.Machine
end

