-- ==== Sys2Proof/Machine/NetOps.lean ====
section
/-! DEFINITION. The mesh's helpers: reserved bits of the DMA modes, cluster-set records, merge trees, merges and sync
objects (R219, R364, R368 to R370, R378, R379, R387 to R390, R416). -/
namespace Sys2Proof.Machine

/-! ### DMA descriptors (type 0x02) -/

def dmaMode (ws : List Word) : Nat := tileField ws 1 63 60
def dmaSrc (ws : List Word) : Nat := tileField ws 1 53 0
def dmaKind (ws : List Word) : Nat := tileField ws 2 63 60
def dmaDst (ws : List Word) : Nat := tileField ws 2 53 0
def dmaLen (ws : List Word) : Nat := tileField ws 3 63 32

/-- Bits `hi:lo` set. -/
def maskBits (hi lo : Nat) : Nat := 2 ^ (hi + 1) - 2 ^ lo

/-- The bits that each mode names in words 1 to 7; a field that the mode does not use is reserved (R414). -/
def dmaNamed (mode : Nat) : List Nat :=
  let src := maskBits 63 60 + maskBits 53 0
  let dst := maskBits 53 0
  let kind := maskBits 63 60 + maskBits 53 0
  let len := maskBits 63 32
  match mode with
  | 0 => [src, dst, len, 0, 0, 0, 0]
  | 1 => [src, dst, 0, maskBits 63 0, maskBits 47 0, maskBits 63 23, 0]
  | 2 => [maskBits 63 60, dst, maskBits 63 0, 0, 0, 0, 0]
  | 3 => [src, dst, len, maskBits 53 0, maskBits 63 32 + maskBits 12 0, 0, 0]
  | 4 => [src, kind, len, maskBits 47 0, 0, 0, 0]
  | 5 => [src, kind, len, maskBits 14 12 + maskBits 10 0, 0, 0, 0]
  | _ => [0, 0, 0, 0, 0, 0, 0]

/-- Check 1 of R419 for a DMA descriptor: assigned values and zero reserved bits. -/
def dmaWellFormed (ws : List Word) : Bool :=
  let mode := dmaMode ws
  word0Status (ws.getD 0 0) == 0 && decide (mode < 6) &&
  ((List.zip (ws.drop 1) (dmaNamed mode)).all fun (w, m) => w.toNat &&& m == w.toNat) &&
  (mode != 4 || decide (dmaKind ws < 3)) &&
  (mode != 5 || (decide (dmaKind ws < 2) && decide (tileField ws 4 14 12 < 6) && (dmaKind ws == 0 || decide (dmaDst ws < 2 ^ 19))))

/-- The engine's oldest descriptor of a mode that has not ended, other than those under way. -/
def State.nextDma (s : State) (core mode : Nat) (under : Nat → Bool) : Option DmaDesc :=
  (s.core core).dma.find? fun d =>
    (d.words.headD 0).toNat / 2 ^ 40 % 256 == 2 && d.status.isNone && dmaMode d.words == mode && !under d.id

/-- The ranges of a descriptor and its devices checked: each range lies in one place, and on this device its units are there (R284, checks 2
to 4 of R419). -/
def State.groupRanges (s : State) (tower : Nat) (rs : List (Nat × Nat)) : Status :=
  let used := rs.filter fun r => r.2 != 0
  if used.any fun r => !s.memberDevice (r.1 / 2 ^ 48 % 64) then 0x07
  else
    let st := s.rangesStatus tower ((used.filter fun r => s.isOwn (r.1 / 2 ^ 48 % 64)).map fun r => (r.1 % 2 ^ 48, r.2))
    if st = 0x07 then st
    else if used.any fun r => !rangeInPlace (r.1 % 2 ^ 48) r.2 then 0x02 else st

/-! ### Cluster sets (R368, R369) -/

def setTowers (ws : List Word) : List Nat := (List.range 8).filter fun t => (tileField ws 0 55 48).testBit t
def setCores (ws : List Word) : List Nat := (List.range 16).filter fun k => (tileField ws 0 47 32).testBit k
def setRootTower (ws : List Word) : Nat := tileField ws 0 31 29
def setRootCluster (ws : List Word) : Nat := tileField ws 0 28 22
def setFallback (ws : List Word) : Bool := tileField ws 0 59 59 == 1
def setFallbackAddr (ws : List Word) : Nat := tileField ws 3 47 0
def setFallbackBytes (ws : List Word) : Nat := tileField ws 4 31 0

/-- The clusters that the record chooses in every tower. -/
def setClusters (ws : List Word) : List Nat :=
  if tileField ws 0 60 60 = 1 then
    (List.range 80).filter fun c => ((ws.getD 2 0).toNat % 65536 * 2 ^ 64 + (ws.getD 1 0).toNat).testBit c
  else
    (List.range 80).filter fun c =>
      decide (tileField ws 0 21 18 ≤ c % 10) && decide (c % 10 ≤ tileField ws 0 14 11) &&
      decide (tileField ws 0 17 15 ≤ c / 10) && decide (c / 10 ≤ tileField ws 0 10 8)

/-- A record is valid (R369). -/
def setValid (ws : List Word) : Bool :=
  let x0 := tileField ws 0 21 18
  let y0 := tileField ws 0 17 15
  let x1 := tileField ws 0 14 11
  let y1 := tileField ws 0 10 8
  (tileField ws 0 60 60 == 1 || (x0 ≤ x1 && y0 ≤ y1 && x1 ≤ 9 && y1 ≤ 7)) && setRootCluster ws ≤ 79 &&
  !(setClusters ws).isEmpty && !(setTowers ws).isEmpty && !(setCores ws).isEmpty &&
  tileField ws 0 63 61 == 0 && tileField ws 0 58 56 == 0 && tileField ws 0 7 0 == 0 && tileField ws 2 63 16 == 0 &&
  tileField ws 3 63 48 == 0 && tileField ws 4 63 32 == 0 && (ws.drop 5).all (· == 0)

/-- The core ids of a set, ascending. -/
def setMembers (ws : List Word) : List Nat :=
  (setTowers ws).flatMap fun t => (setClusters ws).flatMap fun c => (setCores ws).map fun k => t * 2048 + c * 16 + k

/-! ### Merge trees (R378, R379) -/

/-- The column and row of a tower on the module (R21). -/
def towerCol (t : Nat) : Nat := t % 2
def towerRow (t : Nat) : Nat := t / 2

def stepTo (a b : Nat) : Nat := if a < b then a + 1 else a - 1

/-- The point of a tower toward which its tree runs: the root, or the anchor. -/
def treePoint (rt rc t : Nat) : Nat := if t = rt then rc else rc / 10 * 10 + (if rc % 10 ≤ 4 then 2 else 7)

/-- The router (tower × 128 + cluster) to which a router of the tree sends; none for the root. -/
def treeParent (rt rc r : Nat) : Option Nat :=
  let t := r / 128
  let c := r % 128
  let p := treePoint rt rc t
  if c / 10 ≠ p / 10 then some (t * 128 + stepTo (c / 10) (p / 10) * 10 + c % 10)
  else if c ≠ p then some (t * 128 + c / 10 * 10 + stepTo (c % 10) (p % 10))
  else if t = rt then none
  else
    let n := if towerRow t ≠ towerRow rt then stepTo (towerRow t) (towerRow rt) * 2 + towerCol t
      else towerRow t * 2 + stepTo (towerCol t) (towerCol rt)
    some (n * 128 + (rc / 10 * 10 + (if rc % 10 ≤ 4 then 2 else 7)))

/-- A router and every router after it up to the root. -/
def treePath (rt rc : Nat) : Nat → Nat → List Nat
  | 0, r => [r]
  | n + 1, r =>
    match treeParent rt rc r with
    | some p => r :: treePath rt rc n p
    | none => [r]

/-- The routers of the tree, ascending. -/
def treeRouters (ws : List Word) : List Nat :=
  let rt := setRootTower ws
  let rc := setRootCluster ws
  let all := (setTowers ws).flatMap fun t => (setClusters ws).flatMap fun c => treePath rt rc 64 (t * 128 + c)
  (List.range 1024).filter fun r => all.contains r || r == rt * 128 + rc

/-- Inputs of a router, of those routers, in the fixed order Y_LOW, Y_HIGH, X_LOW, X_HIGH, then shafts by sending tower. -/
def treeInputs (ws : List Word) (routers : List Nat) (r : Nat) : List Nat :=
  let rt := setRootTower ws
  let rc := setRootCluster ws
  let t := r / 128
  let c := r % 128
  let on (x : Nat) : Bool := treeParent rt rc x == some r && routers.contains x
  let near := (if 10 ≤ c then [t * 128 + c - 10] else []) ++ (if c < 70 then [t * 128 + c + 10] else []) ++
    (if 0 < c % 10 then [t * 128 + c - 1] else []) ++ (if c % 10 < 9 then [t * 128 + c + 1] else [])
  let shafts := (List.range 8).filterMap fun u => if u = t then none else some (u * 128 + treePoint rt rc u)
  (near ++ shafts).filter on

/-! ### Merges (R219) -/

/-- One element of a merge by RTYPE, with its counted events. -/
def mergeElement (rtype : Nat) (a b : Nat) : Nat × List NumEvent :=
  let two (f : Fmt) (g : Val → Val → Val) : Nat × List NumEvent :=
    let (x, e1) := f.read a
    let (y, e2) := f.read b
    let (n, e3) := f.write .nearest (g x y)
    (n, e1 ++ e2 ++ e3)
  match rtype with
  | 0 => two .fp32 Val.add
  | 1 => two .bf16 Val.add
  | 2 => ((a + b) % 2 ^ 32, [])
  | 3 => two .fp32 Val.max
  | 4 => two .bf16 Val.max
  | _ => (if signedOf 32 a < signedOf 32 b then b else a, [])

/-- Bytes of an element of RTYPE. -/
def mergeBytes (rtype : Nat) : Nat := if rtype = 1 || rtype = 4 then 2 else 4

/-- Two partials merged element by element, and the number of saturations and infinities among them. -/
def mergeFrom : Nat → Nat → List Byte → List Byte → List Byte × Nat
  | 0, _, _, _ => ([], 0)
  | n + 1, rtype, xs, ys =>
    let w := mergeBytes rtype
    let (v, ev) := mergeElement rtype (bytesToNat (xs.take w)) (bytesToNat (ys.take w))
    let (rest, k) := mergeFrom n rtype (xs.drop w) (ys.drop w)
    let sats := (ev.filter fun e => match e with
      | .sat _ => true
      | .nan _ => false).length
    (natToBytes w v ++ rest, k + sats)

def mergePartials (rtype : Nat) (xs ys : List Byte) : List Byte × Nat :=
  mergeFrom (xs.length / mergeBytes rtype) rtype xs ys

/-- Partials merged in order: the first stands for itself (R379). -/
def mergeAll (rtype : Nat) : List (List Byte) → List Byte × Nat
  | [] => ([], 0)
  | p :: ps => ps.foldl (fun (acc : List Byte × Nat) q =>
      let (m, k) := mergePartials rtype acc.1 q
      (m, acc.2 + k)) (p, 0)

/-! ### Leases and rounds -/

def State.lease (s : State) (l : Nat) : Lease := Map.get {} s.leases l
def State.setLease (s : State) (l : Nat) (v : Lease) : State := { s with leases := Map.set {} s.leases l v }

/-- The lowest free slot of a router. -/
def State.freeSlot (s : State) (r : Nat) : Option Nat := (List.range 4).find? fun i => Map.get 0 s.slots (4 * r + i) == 0

/-- Slots reserved in every router of a list, or none (R383). -/
def State.reserveSlots (s : State) (l : Nat) : List Nat → List Nat → Option (List Nat × State)
  | [], got => some (got, s)
  | r :: rs, got =>
    match s.freeSlot r with
    | some i => { s with slots := Map.set 0 s.slots (4 * r + i) (l + 1) }.reserveSlots l rs (got ++ [4 * r + i])
    | none => none

def State.freeSlots (s : State) (keys : List Nat) : State :=
  { s with slots := keys.foldl (fun m k => Map.set 0 m k 0) s.slots }

/-- The contributors of a round that starts now (R374). -/
def State.contributors (s : State) (ws : List Word) : List Nat := (setMembers ws).filter s.inService

/-- Every contributor that can still contribute has done so. -/
def State.roundFull (s : State) (r : Round) : Bool :=
  r.contributors.all fun c => r.got.any (·.core == c) || !s.inService c || !s.fieldUp (coreField c)

/-- The completions of a lease's rounds that have come to their contributors: each contribution ends with its round's status (R375). -/
def State.reachEnds (s : State) (l : Nat) : State :=
  s.roundEnds.foldl (fun (s : State) e =>
    if e.lease ≠ l || !s.running then s
    else
      let (away, here) := e.got.partition fun c => s.inTransit e.id 1 (clusterId c.core)
      let s := here.foldl (fun (s : State) c => s.endDma c.core c.desc e.status) s
      { s with roundEnds := s.roundEnds.filterMap fun k =>
          if k.id ≠ e.id then some k else if away.isEmpty then none else some { k with got := away } }) s

/-- The number under which the merger's DMA engine works for a lease (R385). -/
def mergerId (l : Nat) : Nat := 2 ^ 64 + l

/-- A round over: its completion leaves the root on RSP for every contributor (R375), and what the root still had to write is dropped. -/
def State.endRound (s : State) (l : Nat) (st : Status) : State :=
  match (s.lease l).round with
  | none => s
  | some r =>
    let root := setRootTower (s.lease l).words * 128 + setRootCluster (s.lease l).words
    let (id, s) := s.token
    let s := s.post { id := id, channel := 1, src := root, tree := true, flits := 1,
                      dsts := ((r.got.map fun c => clusterId c.core).eraseDups).filter (s.meshReaches root) }
    let ended : RoundEnd := ⟨id, l, r.got, st⟩
    let s : State := { s with roundEnds := s.roundEnds ++ [ended] }
    let s := s.leaveReqs fun
      | .anchor k => k == l
      | .dma _ k => k == mergerId l
      | _ => false
    (s.setLease l { s.lease l with round := none }).reachEnds l

/-- The result of a round written at its root for a task of that cluster that contributed (R376, R452): an address of the root cluster, or
an object of the root cluster's engine. For an
object the status follows once its engine has performed the ADD (R375). -/
def State.deliverRound (s : State) (ws : List Word) (c : Contribution) (result : List Byte) (token : Target)
    (prod : Option Nat) (who : Agent) : Option Status × State :=
  let root := setRootTower ws * 128 + setRootCluster ws
  if c.kind = 1 then
    if c.rtype = 2 && c.len = 4 && c.dest / 2 ^ 19 = 0 && s.isOwn (c.dest / 2 ^ 13) && objectCluster (c.dest % 2 ^ 13) = root then
      (none, s.sendSync .add c.dest (BitVec.ofNat 32 (bytesToNat result)) token)
    else (some 0x02, s)
  else
    let a := c.dest % 2 ^ 48
    let inRoot := match placeOf (s.translate a) with
      | .dram ch _ => clusterId ch == root && a < 8 * dramTower
      | .slice p _ => clusterId p == root
      | .store k _ => clusterId k == root
      | _ => false
    if !s.isOwn (c.dest / 2 ^ 48 % 64) || !inRoot then (some 0x02, s)
    else if s.rangesStatus (root / 128) [(a, c.len)] ≠ 0 then (some (s.rangesStatus (root / 128) [(a, c.len)]), s)
    else
      let (st, s) := s.writeRange a result prod who
      (some st, s)

/-! ### Sync objects (R387 to R390) -/

def State.syncObj (s : State) (o : Nat) : SyncObj := Map.get {} s.syncObjs o
def State.setSyncObj (s : State) (o : Nat) (v : SyncObj) : State := { s with syncObjs := Map.set {} s.syncObjs o v }

/-- The release of an object sent to its waiting clusters and devices, one multicast for each tower, and both maps cleared. -/
def State.broadcast (s : State) (o : Nat) (st : Status) : State :=
  let v := s.syncObj o
  let id := s.group.member * 2 ^ 13 + o
  let s := { s with
    fresh := s.fresh + 1
    releases := s.releases ++ (v.clusters.map fun c => ({ object := id, cluster := c, status := st, at_ := s.fresh } : Release)) }
  let s := (List.range 8).foldl (fun (s : State) t => s.post
    { id := s.fresh - 1, channel := 2, src := objectCluster o, dsts := v.clusters.filter (· / 128 == t), tree := true, flits := 1 }) s
  let s := v.devices.foldl (fun s d => s.send (.groupMessage d 7 [id, st.toNat])) s
  s.setSyncObj o { v with armed := false, clusters := [], devices := [] }

/-- A release that SYNC_RELEASES counts. -/
def State.releaseObj (s : State) (o : Nat) : State := (s.broadcast o 0).towerWrap 0xB606 (o / 1024) 1

/-- A message that its engine performs now: it has come to the engine first of those that wait there (R387), and its thread's earlier
operations on the object are done (R393). -/
def State.syncTurn (s : State) (id : Nat) (op : SyncOp) : Option SyncMsg :=
  match s.syncMsgs.find? (·.id == id) with
  | none => none
  | some m =>
    let earlier := s.syncMsgs.takeWhile fun x => x.id != id
    let blocked := earlier.any fun x => !x.arrived && x.object == m.object && m.target.core.isSome && x.target.core == m.target.core
    let out := s.dm.towers.contains (m.object % 2 ^ 13 / 1024)
    let here := match m.came with
      | none => false
      | some n => s.syncMsgs.all fun x => x.arrived || !s.isOwn (x.object / 2 ^ 13) ||
          objectCluster (x.object % 2 ^ 13) != objectCluster (m.object % 2 ^ 13) || x.came.all (n ≤ ·)
    if m.op = op && !m.arrived && s.isOwn (m.object / 2 ^ 13) && !blocked && s.running && !out && here then some m else none

/-- The engine's answer to a message leaves on CTL (R389). -/
def State.replySync (s : State) (id : Nat) (reply : Status × Word32) : State :=
  let put (m : SyncMsg) : SyncMsg :=
    if m.id = id then { m with arrived := true, reply := some reply, repliedAt := s.fresh } else m
  { s with fresh := s.fresh + 1, syncMsgs := s.syncMsgs.map put }.postSync id true

def State.dropSync (s : State) (id : Nat) : State := { s with syncMsgs := s.syncMsgs.filter (·.id != id) }

/-- Every context and queue of a cluster that waits on an object goes on (R389, R417). -/
def State.wakeCluster (s : State) (cluster object : Nat) (st : Status) : State :=
  let s := (List.range 16).foldl (fun s i =>
    let core := cluster * 16 + i
    (s.core core).ctxs.foldl (fun s (k, c) =>
      match c.wait with
      | .syncWait token _ o => if o = object then s.complete (.wait core k token) st else s
      | _ => s) s) s
  (s.queues.filter fun e => clusterId (queueCore e.1) == cluster && e.2.waiting.isSome && e.2.waitObject == object).foldl
    (fun s e => match e.2.waiting with
      | some i => s.completeRing e.1 i st
      | none => s) s

end Sys2Proof.Machine
end

