-- ==== Sys2Proof/Machine/GroupOps.lean ====
section
/-! DEFINITION. What a group lease changes in the rounds of its local lease (R489 to R494). -/
namespace Sys2Proof.Machine

/-! ### Trees of group leases (R490) -/

def maskDevices (mask : Nat) : List Nat := (List.range 64).filter fun g => mask.testBit g

/-- The devices of a group lease's tree, ascending. -/
def GroupLease.tree (g : GroupLease) : List Nat :=
  let all := (maskDevices g.mask).flatMap fun d => deviceRoute 6 d g.root
  (List.range 64).filter all.contains

/-- The devices of the tree whose next device is `d`, ascending. -/
def GroupLease.children (g : GroupLease) (d : Nat) : List Nat :=
  g.tree.filter fun c => c != g.root && c != d && (match nextDirection c g.root with
    | some dir => neighbour c dir == d
    | none => false)

def GroupLease.inMask (g : GroupLease) (d : Nat) : Bool := g.mask.testBit d

def State.groupLease (s : State) (n : Nat) : GroupLease := Map.get {} s.group.leases n
def State.setGroupLease (s : State) (n : Nat) (g : GroupLease) : State :=
  { s with group := { s.group with leases := Map.set {} s.group.leases n g } }

/-- The group lease to which a local lease of this device is bound. -/
def State.boundTo (s : State) (l : Nat) : Option (Nat × GroupLease) :=
  (List.range 32).findSome? fun n =>
    let g := s.groupLease n
    if g.state ≠ 0 && g.inMask s.group.member && g.lease = l then some (n, g) else none

/-- The lease belongs to a group lease whose root is another device: its result and its status come from there. -/
def State.remoteRoot (s : State) (l : Nat) : Bool :=
  match s.boundTo l with
  | some (_, g) => g.state == 1 && g.root != s.group.member
  | none => false

/-- The group's partial enters the anchor of the root tower on the root device (R490). -/
def State.takesGroup (s : State) (l : Nat) : Bool :=
  match s.boundTo l with
  | some (_, g) => g.state == 1 && g.root == s.group.member && !(g.children s.group.member).isEmpty
  | none => false

/-- The anchor of a lease's root tower: the shaft router at the root's row (R378). -/
def setAnchor (rec : List Word) : Nat :=
  setRootTower rec * 128 + (setRootCluster rec / 10 * 10 + (if setRootCluster rec % 10 ≤ 4 then 2 else 7))

/-- The routers between the root cluster and its tower's anchor, both included. -/
def anchorPath (rec : List Word) : List Nat :=
  let row := setRootTower rec * 128 + setRootCluster rec / 10 * 10
  let x := setRootCluster rec % 10
  let a := setAnchor rec - row
  ((List.range 10).filter fun i => min x a ≤ i && i ≤ max x a).map fun i => row + i

/-- The key under which a round holds the partial of the group. -/
def groupKey : Nat := 1024

/-- The slots of a group lease freed and the lease unbound (R489). -/
def State.unbindGroup (s : State) (n : Nat) : State :=
  let g := s.groupLease n
  let s := s.freeSlots g.slots
  let s := { s with group := { s.group with portSlots := g.ports.foldl (fun m k => Map.set 0 m k 0) s.group.portSlots } }
  (s.setGroupLease n {}).setReg 0x5203 (n + 1) 0

/-- A binding that waits for the end of its round is undone once the round has ended. -/
def State.settleGroup (s : State) (l : Nat) : State :=
  match s.boundTo l with
  | some (n, g) => if g.unbind && (s.lease l).round.isNone then s.unbindGroup n else s
  | none => s

/-- The root tells a device without a round of its own that a round of its group leases is over: one that forwards, or one whose contributors
are all lost (R489, R493). -/
def State.endForward (s : State) (l : Nat) : State :=
  (List.range 32).foldl (fun (s : State) n =>
    let g := s.groupLease n
    if g.state ≠ 0 && g.lease = l then (if g.unbind then s.unbindGroup n else s.setGroupLease n { g with round := false }) else s) s

/-- The root device tells the other devices of a group lease's tree how the round has ended (R491). -/
def State.tellGroup (s : State) (l : Nat) (st : Status) : State :=
  match s.boundTo l with
  | some (n, g) =>
    if g.root = s.group.member && g.state = 1 then
      g.tree.foldl (fun (s : State) (d : Nat) =>
        if d = s.group.member then s else s.send (.groupMessage d 14 [n, st.toNat])) s
    else s
  | none => s

/-- The group leases whose tree holds a removed device become BROKEN and their rounds end with ABORTED (R494); one that was to be unbound after
its round is unbound. -/
def State.breakGroups (s : State) (removed : List Nat) : State :=
  (List.range 32).foldl (fun s n =>
    let g := s.groupLease n
    if g.state = 1 && g.tree.any removed.contains then
      let s := (s.setGroupLease n { g with state := 3, round := false }).setReg 0x5203 (n + 1) 3
      let s := if g.inMask s.group.member then s.endRound g.lease 0x08 else s
      if g.unbind then s.unbindGroup n else s
    else s) s

end Sys2Proof.Machine
end

