-- ==== Sys2Proof/Machine/Vector.lean ====
section
/-! DEFINITION. The vector unit: the VEC instructions, and the start and completion of the operation at the head of its
input (R121 to R125, R212 to R217, R705). -/
namespace Sys2Proof.Machine

/-! ### The running operation -/

def VecOp.src (v : VecOp) : Fmt := Fmt.ofCode ((v.vcfg >>> 16).truncate 4)
def VecOp.dst (v : VecOp) : Fmt := Fmt.ofCode ((v.vcfg >>> 20).truncate 4)
def VecOp.len (v : VecOp) : Nat := v.vcfg.toNat % 2 ^ 16
def VecOp.counter (v : VecOp) : BitVec 2 := (v.vcfg >>> 25).truncate 2
def VecOp.rounding (v : VecOp) : Rounding := if v.op == .vcvt && v.vcfg.getLsbD 24 then .zero else .nearest

/-- The memory operands that an operation reads: local address and length (R123, R193). -/
def VecOp.sources (v : VecOp) : List (Nat × Nat) :=
  let n := v.src.operandBytes v.len
  (if v.op.readsA then [(v.xa.toNat, n)] else []) ++ (if v.op.readsB then [(v.xb.toNat, n)] else []) ++
  (if v.op.readsC then [(v.xc.toNat, n)] else []) ++
  (if v.op == .vwupd then [(v.xd.toNat, Fmt.w40.operandBytes v.len)] else [])

/-- The memory operands that an operation writes. -/
def VecOp.results (v : VecOp) : List (Nat × Nat) :=
  if v.op.reduces then [(v.xd.toNat, 4)]
  else if v.op == .vwupd then [(v.xd.toNat, Fmt.w40.operandBytes v.len), (v.xc.toNat, v.dst.operandBytes v.len)]
  else [(v.xd.toNat, v.dst.operandBytes v.len)]

/-- Check 5 of R123: a result overlaps a source otherwise than exactly. -/
def overlapBad (r s : Nat × Nat) : Bool :=
  r.1 < s.1 + s.2 && s.1 < r.1 + r.2 && !(r.1 == s.1 && r.2 == s.2)

/-- The checks of R123 in their order: a status that ends the operation, or none when it runs. -/
def VecOp.check (v : VecOp) : Option Status :=
  if !v.op.accepts v.src v.dst then some 0x02
  else if v.len = 0 then some 0
  else if v.op.blocked v.src v.dst && v.len % 32 ≠ 0 then some 0x02
  else if (v.sources ++ v.results).any (fun (a, n) => 0x40000 < a + n) then some 0x02
  else if v.results.any (fun r => v.sources.any (overlapBad r)) then some 0x02
  else none

/-- What the operation writes, from the bytes of its sources in the order of `sources`, with the numeric events. -/
def VecOp.compute (v : VecOp) (data : List (List Byte)) : List (Nat × List Byte) × List NumEvent :=
  let n := v.len
  let operand (i : Nat) : List Val × List NumEvent := v.src.values n (data.getD i [])
  let scalar (w : Word) : Val × List NumEvent := readF32 (w.truncate 32)
  let ofVals (r : List Val × List NumEvent) : List (Nat × List Byte) × List NumEvent :=
    let (bs, e) := v.dst.operand v.rounding r.1
    ([(v.xd.toNat, bs)], r.2 ++ e)
  let ofOne (r : Val × List NumEvent) : List (Nat × List Byte) × List NumEvent :=
    let (w, e) := writeF32 r.1
    ([(v.xd.toNat, natToBytes 4 w.toNat)], r.2 ++ e)
  let (a, ea) := operand 0
  match v.op with
  | .vcopy => ([(v.xd.toNat, data.getD 0 [])], [])
  | .vfill =>
    let (k, e) := scalar v.xb
    ofVals (List.replicate n k, e)
  | .vsum => let (r, e) := vecSum a; ofOne (r, ea ++ e)
  | .vmaxr => let (r, e) := vecMaxr a; ofOne (r, ea ++ e)
  | .vdot => let (b, eb) := operand 1; let (r, e) := vecDot a b; ofOne (r, ea ++ eb ++ e)
  | .vsoftmax => let (r, e) := vecSoftmax a; ofVals (r, ea ++ e)
  | .vwupd =>
    let (k, ek) := scalar v.xb
    let (w, ew) := Fmt.w40.values n (data.getD 1 [])
    let (new, bytes, e) := vecMaster k a w
    let (copy, ec) := v.dst.operand .nearest new
    ([(v.xd.toNat, bytes), (v.xc.toNat, copy)], ea ++ ek ++ ew ++ e ++ ec)
  | .vscale => let (k, ek) := scalar v.xb; ofVals (a.map fun x => vecElement v.op k x .nan .nan, ea ++ ek)
  | .vaxpy =>
    let (k, ek) := scalar v.xc
    let (b, eb) := operand 1
    ofVals (List.zipWith (fun x y => vecElement v.op k x y .nan) a b, ea ++ eb ++ ek)
  | .vfma | .vsel =>
    let (b, eb) := operand 1
    let (c, ec) := operand 2
    ofVals (List.zipWith (fun xy z => vecElement v.op .nan xy.1 xy.2 z) (List.zip a b) c, ea ++ eb ++ ec)
  | .vadd | .vsub | .vmul | .vmax | .vmin | .vcmplt =>
    let (b, eb) := operand 1
    ofVals (List.zipWith (fun x y => vecElement v.op .nan x y .nan) a b, ea ++ eb)
  | .vabs | .vneg | .vexp | .vrecip | .vrsqrt | .vtanh | .vcvt =>
    ofVals (a.map fun x => vecElement v.op .nan x .nan .nan, ea)

/-- The head of a core's vector input replaced. -/
def State.setVecHead (s : State) (core : Nat) (v : VecOp) : State :=
  let c := s.core core
  s.setCore core { c with vec := v :: c.vec.drop 1 }

/-- A goose sample that has waited GOOSE_WAIT_MAX takes the unit ahead of the waiting operations (R224). -/
def State.gooseFirst (s : State) (core : Nat) : Bool :=
  (s.core core).arrays.any fun (_, u) => u.sample.any (·.expired)

/-- VECTOR_OP_START: the oldest operation starts while none runs: its checks, then its sources are read and its result
formed; an operation whose source waits for a recovery has not started (R123, R125, R453, R705). -/
def execVectorOpStart (core : Nat) (s : State) : Host.Outcome State Fault Refusal :=
  .next (
    match (s.core core).vec with
    | [] => s
    | v :: _ =>
      if v.running || !s.coreUp core || s.gooseFirst core then s
      else
        match v.check with
        | some st => s.setVecHead core { v with running := true, status := st }
        | none =>
          s.unit core (.vector core) fun s =>
          let (r, data, s) := s.readSpans (.vector core) (v.sources.map fun (a, n) => (storeAddr core a, n))
          if r.waiting then s
          else if r.status ≠ 0 then s.setVecHead core { v with running := true, status := r.status }
          else
            let (writes, events) := v.compute data
            let s := (s.setVecHead core { v with running := true, writes := writes }).countEvents core events
            s.charge core (s.ctx core v.ctx).taskQueue.toNat 3 v.len)

/-- Local bytes written by a unit for a task. -/
def State.writeLocal (s : State) (core : Nat) (prod : Option Nat) (w : Nat × List Byte) : State :=
  (s.writeRange (storeAddr core w.1) w.2 prod (.vector core)).2

/-- VECTOR_OP_COMPLETE: the running operation's result is in the core store, its counter falls, and a thread that waits
with SYNC = 1 goes on (R111, R121, R125). -/
def execVectorOpComplete (core : Nat) (s : State) : Host.Outcome State Fault Refusal :=
  .next (
    match (s.core core).vec with
    | [] => s
    | v :: rest =>
      if !v.running || !s.coreUp core then s
      else
        s.unit core (.vector core) fun s =>
        let s := v.writes.foldl (fun s w => s.writeLocal core (s.producing core v.ctx) w) s
        let s := s.setCore core { s.core core with vec := rest }
        (s.complete (.counter core v.ctx v.counter) v.status).complete (.wait core v.ctx v.token) v.status)

/-! ### The VEC instructions -/

/-- A VEC issued (R121, R125). -/
def State.vecIssue (s : State) (i : Issue) (op : VOp) (xd xa xb xc : Reg) : State :=
  s.issue i (wordV 0x32 xd xa xb xc op.code) fun s => s.vecCommand i.core i.ctx op xd xa xb xc

/-- The sum of A and B (R124). -/
def execVadd (i : Issue) (xd xa xb : Reg) (s : State) : Host.Outcome State Fault Refusal :=
  .next (s.vecIssue i .vadd xd xa xb 0)

/-- The difference of A and B (R124). -/
def execVsub (i : Issue) (xd xa xb : Reg) (s : State) : Host.Outcome State Fault Refusal :=
  .next (s.vecIssue i .vsub xd xa xb 0)

/-- The product of A and B (R124). -/
def execVmul (i : Issue) (xd xa xb : Reg) (s : State) : Host.Outcome State Fault Refusal :=
  .next (s.vecIssue i .vmul xd xa xb 0)

/-- A × B + C with one rounding (R124). -/
def execVfma (i : Issue) (xd xa xb xc : Reg) (s : State) : Host.Outcome State Fault Refusal :=
  .next (s.vecIssue i .vfma xd xa xb xc)

/-- The larger of A and B (R124). -/
def execVmax (i : Issue) (xd xa xb : Reg) (s : State) : Host.Outcome State Fault Refusal :=
  .next (s.vecIssue i .vmax xd xa xb 0)

/-- The smaller of A and B (R124). -/
def execVmin (i : Issue) (xd xa xb : Reg) (s : State) : Host.Outcome State Fault Refusal :=
  .next (s.vecIssue i .vmin xd xa xb 0)

/-- The magnitude of A (R124). -/
def execVabs (i : Issue) (xd xa : Reg) (s : State) : Host.Outcome State Fault Refusal :=
  .next (s.vecIssue i .vabs xd xa 0 0)

/-- The negative of A (R124). -/
def execVneg (i : Issue) (xd xa : Reg) (s : State) : Host.Outcome State Fault Refusal :=
  .next (s.vecIssue i .vneg xd xa 0 0)

/-- The scalar in XB times A (R124). -/
def execVscale (i : Issue) (xd xa xb : Reg) (s : State) : Host.Outcome State Fault Refusal :=
  .next (s.vecIssue i .vscale xd xa xb 0)

/-- The scalar in XC times A, plus B (R124). -/
def execVaxpy (i : Issue) (xd xa xb xc : Reg) (s : State) : Host.Outcome State Fault Refusal :=
  .next (s.vecIssue i .vaxpy xd xa xb xc)

/-- e to the power A (R124). -/
def execVexp (i : Issue) (xd xa : Reg) (s : State) : Host.Outcome State Fault Refusal :=
  .next (s.vecIssue i .vexp xd xa 0 0)

/-- 1 ÷ A (R124). -/
def execVrecip (i : Issue) (xd xa : Reg) (s : State) : Host.Outcome State Fault Refusal :=
  .next (s.vecIssue i .vrecip xd xa 0 0)

/-- 1 ÷ the square root of A (R124). -/
def execVrsqrt (i : Issue) (xd xa : Reg) (s : State) : Host.Outcome State Fault Refusal :=
  .next (s.vecIssue i .vrsqrt xd xa 0 0)

/-- The hyperbolic tangent of A (R124). -/
def execVtanh (i : Issue) (xd xa : Reg) (s : State) : Host.Outcome State Fault Refusal :=
  .next (s.vecIssue i .vtanh xd xa 0 0)

/-- One FP32 at XD: the sum of A (R215) (R124). -/
def execVsum (i : Issue) (xd xa : Reg) (s : State) : Host.Outcome State Fault Refusal :=
  .next (s.vecIssue i .vsum xd xa 0 0)

/-- One FP32 at XD: the largest A (R215) (R124). -/
def execVmaxr (i : Issue) (xd xa : Reg) (s : State) : Host.Outcome State Fault Refusal :=
  .next (s.vecIssue i .vmaxr xd xa 0 0)

/-- One FP32 at XD: the sum of A × B (R215) (R124). -/
def execVdot (i : Issue) (xd xa xb : Reg) (s : State) : Host.Outcome State Fault Refusal :=
  .next (s.vecIssue i .vdot xd xa xb 0)

/-- The softmax of A (R216) (R124). -/
def execVsoftmax (i : Issue) (xd xa : Reg) (s : State) : Host.Outcome State Fault Refusal :=
  .next (s.vecIssue i .vsoftmax xd xa 0 0)

/-- 1.0 where A is less than B, else 0.0 (R124). -/
def execVcmplt (i : Issue) (xd xa xb : Reg) (s : State) : Host.Outcome State Fault Refusal :=
  .next (s.vecIssue i .vcmplt xd xa xb 0)

/-- A where C is not zero, else B (R124). -/
def execVsel (i : Issue) (xd xa xb xc : Reg) (s : State) : Host.Outcome State Fault Refusal :=
  .next (s.vecIssue i .vsel xd xa xb xc)

/-- A converted with rounding RM (R124). -/
def execVcvt (i : Issue) (xd xa : Reg) (s : State) : Host.Outcome State Fault Refusal :=
  .next (s.vecIssue i .vcvt xd xa 0 0)

/-- The master update (R217) (R124). -/
def execVwupd (i : Issue) (xd xa xb xc : Reg) (s : State) : Host.Outcome State Fault Refusal :=
  .next (s.vecIssue i .vwupd xd xa xb xc)

/-- A with its bits unchanged (R124). -/
def execVcopy (i : Issue) (xd xa : Reg) (s : State) : Host.Outcome State Fault Refusal :=
  .next (s.vecIssue i .vcopy xd xa 0 0)

/-- The scalar in XB in every element (R124). -/
def execVfill (i : Issue) (xd xb : Reg) (s : State) : Host.Outcome State Fault Refusal :=
  .next (s.vecIssue i .vfill xd 0 xb 0)

end Sys2Proof.Machine
end

