-- ==== Sys2Proof/Machine/TileOps.lean ====
section
/-! DEFINITION. The input of an array, tile requests and joins, starts and the start ramp, the completion of tiles and the
goose's sampling (R162 to R184, R222 to R227). -/
namespace Sys2Proof.Machine

/-! ### Arrays of a core -/

def State.array (s : State) (core a : Nat) : ArrayUnit := Map.get {} (s.core core).arrays a
def State.setArray (s : State) (core a : Nat) (v : ArrayUnit) : State :=
  let c := s.core core
  s.setCore core { c with arrays := Map.set {} c.arrays a v }

/-- A tile runs on the array: it is the head of its input. -/
def ArrayUnit.busy (u : ArrayUnit) : Bool := match u.tiles with
  | t :: _ => t.running
  | [] => false

/-- The input holds four entries (R165). -/
def ArrayUnit.isFull (u : ArrayUnit) : Bool := 4 ≤ u.tiles.length

/-- Held rows of all requests of a tile. -/
def Tile.columns (t : Tile) : Nat := t.reqs.foldl (fun n r => n + r.n) 0

/-- A request of `n` rows fits in the tile: columns of the mode and the drain buffer (R177). -/
def Tile.room (t : Tile) (n : Nat) : Bool :=
  t.columns + n ≤ tileLanes t.words && tileM t.words * (t.columns + n) * 4 ≤ 16384

/-- full(t) of R177. -/
def Tile.isFull (t : Tile) : Bool := !t.room 1

/-- The output rows of every request of a tile. -/
def Tile.outRows (t : Tile) : List (Nat × Nat) := t.reqs.flatMap fun r => tileOutRows t.words r.out r.n

/-- Tiles completed with any status (R190). -/
def State.countTile (s : State) (core : Nat) : State := s.towerWrap 0xB100 (coreTower core) 1

/-! ### Suspect arrays (R169, R170) -/

/-- An array marked suspect: counted, announced, and every waiting tile completes with NOT_PRESENT. -/
def State.markSuspect (s : State) (core a : Nat) : State :=
  let u := s.array core a
  let keep := if u.busy then u.tiles.take 1 else []
  let gone := if u.busy then u.tiles.drop 1 else u.tiles
  let s := s.setArray core a { u with suspect := true, tiles := keep }
  let s := (s.towerSat 0xB102 (coreTower core) 1).raise 0x04 (coreTower core) (core * 4 + a)
  gone.foldl (fun s t => t.reqs.foldl (fun s r => s.complete r.target 0x07) (s.countTile core)) s

/-! ### The goose's sampling (R222) -/

/-- One step of the sampling register. -/
def gooseStep (x : Word32) : Word32 := (x >>> 1) ^^^ (if x.getLsbD 0 then 0x80200003 else 0)

/-- The register of an array, seeded when nothing has stepped it. -/
def State.gooseRegister (s : State) (core a : Nat) : Word32 :=
  let r := (s.array core a).lfsr
  if r ≠ 0 then r
  else
    let x : Word32 := BitVec.ofNat 32 (s.reg 0x8100 4) ^^^ BitVec.ofNat 32 (core * 4 + a)
    if x = 0 then 1 else x

/-- The request and its row that hold a column of a joined tile. -/
def Tile.columnOf : List TileReq → Nat → Option (TileReq × Nat)
  | [], _ => none
  | r :: rs, n => if n < r.n then some (r, n) else Tile.columnOf rs (n - r.n)

/-- Address of an element of a request's output (R159 OUT_ORDER). -/
def tileOutElement (ws : List Word) (out m n : Nat) : Nat :=
  if tileOutOrder ws then out + n * tileOutStride ws + m * tileOb ws else out + m * tileOutStride ws + n * tileOb ws

/-- An accumulator as the drain writes it, read back as FP32 (R153, R225). -/
def drainValue (f : Fmt) (w : Word32) : Word32 :=
  (writeF32 (f.read (f.write .nearest (readF32 w).1).1).1).1

/-- The completion of a finished tile reported to every request (R180). -/
def State.reportTile (s : State) (core : Nat) (t : Tile) : State :=
  t.reqs.foldl (fun s r => s.complete r.target (r.status.getD 0)) (s.countTile core)

/-- The oldest finished tile steps the register and may be sampled; a sample of a tile that counted a numeric event is
skipped (R222, R227). The answer says whether a sample is now pending. A joined tile of which one request failed (R187) has not
completed OK and does not step it: the spec does not say (assumption 76, DESIGN CHOICE). -/
def State.sampleTile (s : State) (core a : Nat) (t : Tile) : Bool × State :=
  let ok := t.reqs.all fun r => r.status == some 0
  if !ok then (false, s)
  else
    let x := gooseStep (s.gooseRegister core a)
    let s := s.setArray core a { s.array core a with lfsr := x }
    if s.reg 0x8100 1 = 0 || x.toNat % 2 ^ s.reg 0x8100 2 ≠ 0 then (false, s)
    else
      let y := gooseStep x
      let s := s.setArray core a { s.array core a with lfsr := y }
      if t.counted then (false, s.towerWrap 0xB212 (coreTower core) 1)
      else
        let m := y.toNat / 2 ^ 16 % tileM t.words
        let n := y.toNat % 2 ^ 16 % t.columns
        let i := m * t.columns + n
        let smp : Sample := {
          m := m, n := n, y0 := t.y0.getD i 0
          yOut := drainValue (tileO t.words) (t.acc.getD i 0)
          tol := s.reg 0x8100 3, since := s.run }
        (true, s.setArray core a { s.array core a with sample := some smp })

/-- Finished tiles reported in the order in which they started, up to a sampled one (R165, R223). -/
def State.settleTiles (s : State) (core a : Nat) : Nat → State
  | 0 => s
  | fuel + 1 =>
    let u := s.array core a
    match u.sample, u.done with
    | none, t :: rest =>
      let (sampled, s) := s.sampleTile core a t
      if sampled then s
      else
        let s := s.setArray core a { s.array core a with done := rest }
        (s.reportTile core t).settleTiles core a fuel
    | _, _ => s

/-! ### The start ramp (R181 to R184) -/

/-- Arrays of a field that run a tile. -/
def State.runningArrays (s : State) (f : Nat) : Nat :=
  ((fieldCores f).flatMap fun c => (List.range 4).filter fun a => (s.array c a).busy && !(s.array c a).halted).length

/-- tRS of R182 in reference cycles: an eighth that is not a whole cycle is rounded down, and a write of START_RAMP_TIME during a
ramp takes effect from the next step; the spec gives neither (assumption 77, DESIGN CHOICE). -/
def State.rampStepCycles (s : State) : Nat := nsCycles (s.reg 0x2300 1) / 8

/-- A release that reaches a core of the field starts a ramp, unless one runs or 80 arrays are running (R181). -/
def State.startRamp (s : State) (f : Nat) : State :=
  let k := s.field f
  if k.ramp.isSome || 80 ≤ s.runningArrays f then s
  else (s.setField f { k with ramp := some (1, s.run + s.rampStepCycles) }).towerSat 0xB107 (f / 8) 1

/-- The array's head could start but for the ramp: it is closed, or open with its hold passed (R178, R183). -/
def ArrayUnit.startable (u : ArrayUnit) (now : Nat) : Bool :=
  match u.tiles with
  | t :: _ => !t.running && (!t.opened || decide (t.holdEnd ≤ now)) && !u.suspect
  | [] => false

/-- The ramp admits this array: a place is free, and no startable array stands before it, nor one that a thaw still halts (R182 to
R184). -/
def State.rampAdmits (s : State) (core a : Nat) : Bool :=
  let f := coreField core
  match (s.field f).ramp with
  | none => true
  | some (step, _) =>
    decide (s.runningArrays f < step * 80) &&
      (fieldCores f).all fun c => (List.range 4).all fun b =>
        decide (core * 4 + a ≤ c * 4 + b) || !(((s.array c b).startable s.run || (s.array c b).halted) && s.coreUp c)

/-- Arrays of a field that a thaw halted resume as places become free (R184). -/
def State.settleRamp (s : State) (f : Nat) : State :=
  let waiting := (fieldCores f).flatMap fun c => ((List.range 4).filter fun a => (s.array c a).halted).map fun a => (c, a)
  waiting.foldl (fun (s : State) e =>
    if s.coreUp e.1 && s.rampAdmits e.1 e.2 then s.setArray e.1 e.2 { s.array e.1 e.2 with halted := false } else s) s

/-- The thaw of a field that had 80 or more arrays running: a ramp from step 1, under which they resume (R184). -/
def State.thawRamp (s : State) (f : Nat) : State :=
  let halt (s : State) (c : Nat) : State := (List.range 4).foldl (fun (s : State) a =>
    if (s.array c a).busy then s.setArray c a { s.array c a with halted := true } else s) s
  let k := s.field f
  let s := (s.setField f { k with rampAtThaw := false, ramp := some (1, s.run + s.rampStepCycles) }).towerSat 0xB107 (f / 8) 1
  ((fieldCores f).foldl halt s).settleRamp f

/-- The running tile finished: a status for every request that has none of its own; it leaves the input. -/
def State.finishTile (s : State) (core a : Nat) (t : Tile) (st : Status) (all : Bool) : State :=
  let t := { t with running := false,
                    reqs := t.reqs.map fun r => if all || r.status.isNone then { r with status := some st } else r }
  let u := s.array core a
  let s := s.setArray core a { u with tiles := u.tiles.drop 1, done := u.done ++ [t] }
  (s.settleTiles core a (u.done.length + 1)).settleRamp (coreField core)

/-! ### A request (R176, R177) -/

/-- The hold of a tile's first request in reference cycles (R179). -/
def State.holdCycles (s : State) (ws : List Word) : Nat :=
  nsCycles (if tileHoldDefault ws then s.reg 0x6100 1 else min 50000 (tileHoldNs ws))

/-- The open tile with this key in an array's input, as its place there. -/
def ArrayUnit.openTile (u : ArrayUnit) (key : Word) : Option (Nat × Tile) :=
  (List.zip (List.range u.tiles.length) u.tiles).find? fun (_, t) => t.opened && t.key == key && key != 0

def ArrayUnit.setTile (u : ArrayUnit) (i : Nat) (t : Tile) : ArrayUnit := { u with tiles := u.tiles.set i t }

/-- The array chosen with SUB = 4: one with an open tile of the key and room, else the lowest that is not suspect and
not full (R116, R176). -/
def State.chooseArray (s : State) (core : Nat) (key : Word) (n : Nat) : Option Nat :=
  let joins (a : Nat) : Bool := match (s.array core a).openTile key with
    | some (_, t) => !(s.array core a).suspect && t.room n
    | none => false
  match (List.range 4).find? joins with
  | some a => some a
  | none => (List.range 4).find? fun a => !(s.array core a).suspect && !(s.array core a).isFull

/-- What a tile request meets. -/
inductive TileOutcome where
  | done (st : Status)
  | join (a i : Nat)
  | open_ (a : Nat)
  | wait (closing : Option (Nat × Nat))
  deriving DecidableEq, Repr

/-- A unit that holds part of the request's operands or output is absent: a slice or a channel that is out of service (R11, R241). -/
def State.tileAbsent (s : State) (core : Nat) (ws : List Word) : Bool :=
  let held := (List.range (tileN ws)).flatMap fun i =>
    [(tileAddr core (tileHSpace ws) (tileHAddr ws + i * tileHStride ws), tileRowBytes ws),
     (tileAddr core (tileHSpace ws) (tileHScale ws + i * tileHScaleStride ws), tileRowScales ws)]
  let out := (tileOutRows ws (tileOutAddr ws) (tileN ws)).map fun r => (tileAddr core (tileOSpace ws) r.1, r.2)
  ([(tileAddr core (tileSSpace ws) (tileSAddr ws), tileStreamBytes ws),
    (tileAddr core (tileSSpace ws) (tileSScale ws), tileScaleBytes ws)] ++ held ++ out).any fun r =>
      (pieces r.1 r.2).any fun p => s.placeStatus (placeOf (s.translate p.1)) == 0x07

/-- The procedure of R176 and R177 up to its effect; a request that names an absent unit changes no state (R11). -/
def State.tileOutcome (s : State) (core : Nat) (sub : Nat) (key : Word) (ws : List Word) : TileOutcome :=
  if tileM ws = 0 || tileN ws = 0 || tileK ws = 0 then .done 0
  else if !tileLegal core ws then .done 0x02
  else if (if sub < 4 then (s.array core sub).suspect else (List.range 4).all fun a => (s.array core a).suspect) then .done 0x07
  else if s.tileAbsent core ws then .done 0x07
  else
    match (if sub < 4 then some sub else s.chooseArray core key (tileN ws)) with
    | none => .wait none
    | some a =>
      let u := s.array core a
      match u.openTile key with
      | some (i, t) =>
        if !tileSameShared t.words ws then .done 0x02
        else if (rowStorage ws (tileOutRows ws (tileOutAddr ws) (tileN ws))).any fun r => (rowStorage ws t.outRows).any (rowsOverlap r) then
          .done 0x02
        else if t.room (tileN ws) then .join a i
        else .wait (some (a, i))
      | none => if u.isFull then .wait none else .open_ a

/-- The TILE command (R116, R175 to R180): completes at once, joins, opens a tile, or waits for room. -/
def State.tileCommand (s : State) (core ctx : Nat) (xd xa xb : Reg) (wc : BitVec 2) (w : Bool) (sub : BitVec 8) : State :=
  let c := s.ctx core ctx
  if !c.counterRoom wc w then s.awaitUnit core ctx (.tile xd xa xb wc w sub)
  else
    s.withDescriptor core ctx (c.x xa) fun s ws =>
      let key := c.x xb
      let arr := sub.toNat % 8
      let request (target : Target) : TileReq :=
        { n := tileN ws, held := tileHAddr ws, heldScale := tileHScale ws, out := tileOutAddr ws, target := target,
          rerun := c.rerun }
      let openIn (s : State) (a : Nat) : State :=
        let (target, s) := s.commandTaken core ctx xd wc w
        let t : Tile := { words := ws, key := key, reqs := [request target], opened := true,
                          holdEnd := s.run + s.holdCycles ws }
        let t := if t.isFull then { t with opened := false, closedBy := CloseCause.full }
                 else if key = 0 then { t with opened := false } else t
        let u := s.array core a
        s.setArray core a { u with tiles := u.tiles ++ [t] }
      match s.tileOutcome core arr key ws with
      | .done st =>
        let (target, s) := s.commandTaken core ctx xd wc w
        (s.countTile core).complete target st
      | .join a i =>
        let (target, s) := s.commandTaken core ctx xd wc w
        let u := s.array core a
        match u.tiles[i]? with
        | some t =>
          let t := { t with reqs := t.reqs ++ [request target] }
          s.setArray core a (u.setTile i (if t.isFull then { t with opened := false, closedBy := .full } else t))
        | none => s
      | .open_ a => openIn s a
      | .wait none => s.awaitUnit core ctx (.tile xd xa xb wc w sub)
      | .wait (some (a, i)) =>
        let u := s.array core a
        let u := match u.tiles[i]? with
          | some t => u.setTile i { t with opened := false }
          | none => u
        let s := s.setArray core a u
        if u.isFull then s.awaitUnit core ctx (.tile xd xa xb wc w sub) else openIn s a

/-! ### Operand reads of a run (R187, R711) -/

/-- Y0 of every column, by request: a failing read fails its request as its held rows do (R146, R187). -/
def State.readOutputs (s : State) (core a : Nat) (ws : List Word) :
    List TileReq → ReadResult × List (TileReq × List (List Word32)) × List NumEvent × State
  | [] => ({}, [], [], s)
  | q :: qs =>
    let f := tileO ws
    let rows := tileOutRows ws q.out q.n
    let (r, data, s) := if q.status.isSome then ({ status := q.status.getD 0 }, [], s) else s.readSpans (.array core a) (rows.map fun (p, n) => (tileAddr core (tileOSpace ws) p, n))
    if r.waiting then (r, [], [], s)
    else
      let rd := data.flatMap fun bs => f.unpack (bs.length / tileOb ws) bs
      let vals := rd.map f.readArray
      let words := vals.map fun v => (writeF32 (.num v.1)).1
      let at_ (m n : Nat) : Word32 := words.getD (if tileOutOrder ws then n * tileM ws + m else m * q.n + n) 0
      let q := if r.status ≠ 0 then { q with status := some r.status } else q
      let mine := (List.range (tileM ws)).map fun m => (List.range q.n).map (at_ m)
      let (rest, l, ev, s) := s.readOutputs core a ws qs
      (rest, (q, mine) :: l, (if r.status ≠ 0 then [] else vals.flatMap (·.2)) ++ ev, s)

end Sys2Proof.Machine
end

