-- ==== Sys2Proof/Machine/Net.lean ====
section
/-! DEFINITION. The commands of chapter 9: routers, multicast, reductions, leases and sync objects (R362 to R401). -/
namespace Sys2Proof.Machine

/-! ### Routers (R364) -/

/-- The next in a round robin after `last` among `n`, of those that pass the test. -/
def roundRobin (last n : Nat) (ok : Nat → Bool) : Option Nat := ((List.range n).map fun i => (last + 1 + i) % n).find? ok

/-- The choice at an output: the channels with a flit ready in round robin, then the inputs of the channel, a packet's flits one after
another. `ready` lists channel, input and whether the flit ends its packet. -/
def Router.serve (r : Router) (out : Nat) (ready : List (Nat × Nat × Bool)) : Option (Nat × Nat × Router) :=
  let key (ch : Nat) : Nat := out * 8 + ch
  let input (ch : Nat) : Option (Nat × Bool) :=
    match Map.get 0 r.packet (key ch) with
    | 0 => (roundRobin (Map.get 9 r.lastInput (key ch)) 10 fun i => ready.any fun f => f.1 == ch && f.2.1 == i).bind fun i =>
        (ready.find? fun f => f.1 == ch && f.2.1 == i).map fun f => (i, f.2.2)
    | p + 1 => (ready.find? fun f => f.1 == ch && f.2.1 == p).map fun f => (p, f.2.2)
  (roundRobin (Map.get 6 r.lastChannel out) 7 fun ch => (input ch).isSome).bind fun ch =>
    (input ch).map fun (i, tail) => (ch, i, { r with
        lastChannel := Map.set 6 r.lastChannel out ch
        lastInput := Map.set 9 r.lastInput (key ch) i
        packet := Map.set 0 r.packet (key ch) (if tail then 0 else i + 1) })

/-- The far side of an output has room for a flit of a channel (R67, R70, R363); what reaches its cluster always drains. -/
def State.outRoom (s : State) (r out ch : Nat) : Bool :=
  if out < 4 then (s.router (meshNext r out)).room ch (farInput out)
  else if out = 5 then (s.shaft r).down.length < 32 else true

/-- The flits that wait for an output: the first of each channel's buffer at each input, where it goes that way and has room. -/
def State.readyFlits (s : State) (r out : Nat) : List (Nat × Nat × Bool) :=
  (List.range 7).flatMap fun ch => (List.range 10).filterMap fun i =>
    match (s.router r).buffer ch i with
    | f :: _ => if (f.dsts.any fun d => hopOut r d == out) && s.outRoom r out ch then some (ch, i, f.last) else none
    | [] => none

/-- The first flit of a buffer sent through an output: of a multicast, the copy for the nodes that lie that way (R370). -/
def State.moveFlit (s : State) (r out ch i : Nat) : State :=
  let k := s.router r
  match k.buffer ch i with
  | [] => s
  | f :: fs =>
    let g := { f with dsts := f.dsts.filter fun d => hopOut r d == out }
    let left := f.dsts.filter fun d => hopOut r d != out
    let s := s.setRouter r (k.setBuffer ch i (if left.isEmpty then fs else { f with dsts := left } :: fs))
    if out < 4 then
      let n := meshNext r out
      let t := s.router n
      s.setRouter n (t.setBuffer ch (farInput out) (t.buffer ch (farInput out) ++ [g]))
    else if out = 5 then s.setShaft r { s.shaft r with down := (s.shaft r).down ++ [g] }
    else s.landed g g.dsts

/-- FLIT_FORWARD: a router forwards one flit at an output, of those that wait there, by the routes of R365, R366 and R370 (R363, R364,
R396). What its cluster and its shaft have for it comes to its inputs first; the shafts and floor dies move their flits `carried` times before and
after, as far as they can. -/
def execFlitForward (router out carried : Nat) (s : State) : Host.Outcome State Fault Refusal :=
  .next (
    if 1024 ≤ router || 80 ≤ router % 128 || s.dm.towers.contains (router / 128) || !s.running then s
    else
      let t := (s.combineAll.inject router).carry carried
      match (t.router router).serve out (t.readyFlits router out) with
      | some (ch, i, k) => (((t.setRouter router k).moveFlit router out ch i).carry carried).towerWrap 0xB600 (router / 128) 1
      | none => s)

/-! ### Multicast (R368 to R373) -/

/-- The address of a multicast's copy for a position (R372). -/
def copyAddr (kind position off : Nat) : Nat :=
  match kind with
  | 0 => sliceBase + position * 0x40000 + off
  | 1 => storeAddr position off
  | _ => dramAddr position off

/-- MULTICAST: the engine checks its descriptor, reads the source once and sends a copy for every position of the set
(R368, R373, R419). -/
def State.multicast (s : State) (core : Nat) (d : DmaDesc) (remote : Option (Status × List Byte)) : State :=
  let ws := d.words
  let n := dmaLen ws
  let set := tileField ws 4 47 0
  let size := if dmaKind ws = 2 then channelBytes else 0x40000
  let fail (s : State) (st : Status) : State := s.endDma core d.id st
  if !dmaWellFormed ws then fail s 0x02
  else if n = 0 then fail s 0
  else if s.groupRanges (coreTower core) [(dmaSrc ws, n)] = 0x07 then fail s 0x07
  else if set % 64 ≠ 0 then fail s 0x02
  else
    let (r, s) := if d.record.isSome then (d.record, s) else s.acceptRecord set (.dma core d.id)
    let (status, rec) := r.getD (0, [])
    if r.isNone then s
    else if status ≠ 0 then fail s status
    else if !setValid rec || size < dmaDst ws + n then fail s 0x02
    else if s.groupRanges (coreTower core) [(dmaSrc ws, n)] ≠ 0 then fail s (s.groupRanges (coreTower core) [(dmaSrc ws, n)])
    else
      let (data, s) := s.readGroup (dmaSrc ws) n (.dma core d.id) remote
      if data.waiting then s
      else
        -- nothing is sent where the source fails at its first line (R373)
        let copies := if data.bytes.isEmpty then [] else setMembers rec
        let nodes := (copies.map clusterId).eraseDups.filter (s.meshReaches (clusterId core))
        let m : Multicast := { core := core, desc := d.id, status := data.status, nodes := nodes.filter (· != clusterId core) }
        let s : State := { s with multicasts := s.multicasts ++ [m] }
        let s := s.post
          { id := d.id, channel := 0, src := clusterId core, tree := true, dsts := nodes, flits := (data.bytes.length + 63) / 64,
            core := some core }
        copies.foldl (fun s p =>
          let (id, s) := s.token
          let a := copyAddr (dmaKind ws) p (dmaDst ws)
          { s with reqs := s.reqs ++
            [{ id := id, src := .copy d.id p, kind := .write data.bytes, addr := s.group.member * 2 ^ 48 + a, loc := a }] }) s

/-- MULTICAST of a core's oldest such descriptor that is not yet under way. -/
def execMulticast (core : Nat) (remote : Option (Status × List Byte)) (s : State) : Host.Outcome State Fault Refusal :=
  .next (
    if !s.running then s
    else
      match s.nextDma core 4 fun id => s.multicasts.any (·.desc == id) with
      | some d => s.unit core (.dma core d.id) fun s => s.multicast core d remote
      | none => s)

/-- MULTICAST_COMPLETE: once every copy has answered and the answers have come back, the source's failure or the failing copy of the lowest
position decides the status (R373). -/
def execMulticastComplete (core : Nat) (s : State) : Host.Outcome State Fault Refusal :=
  .next (
    let s := if s.running then s.combineAll else s
    let copies (desc : Nat) : List (Nat × Req) := s.reqs.filterMap fun r => match r.src with
      | .copy d p => if d = desc then some (p, r) else none
      | _ => none
    match if s.running then s.multicasts.find? fun m => m.core == core && s.combined m (clusterId core) &&
        (copies m.desc).all fun c => c.2.stage == .done else none with
    | none => s
    | some m =>
      let cs := copies m.desc
      let bad := (List.range 16384).findSome? fun p => cs.findSome? fun c =>
        if c.1 = p && c.2.status ≠ 0 then some c.2.status else none
      let st := if m.status ≠ 0 then m.status else bad.getD 0
      let s := { s with
        multicasts := s.multicasts.filter (·.desc != m.desc)
        reqs := s.reqs.filter fun r => !(cs.any fun c => c.2.id == r.id) }
      (s.endDma core m.desc st).towerWrap 0xB601 (coreTower core) 1)

/-! ### Leases (R382 to R384, R397, R398) -/

def State.dropLeaseOp (s : State) (id : Nat) : State := { s with leaseOps := s.leaseOps.filter (·.id != id) }

/-- The operation's packet has not come to the router of its lease. -/
def State.leaseTravels (s : State) (op : LeaseOp) : Bool := s.inTransit op.id 2 (leaseCluster op.lease)

/-- The operation cannot reach its lease: its tower or a bridge on the way is out (R611). -/
def State.leaseCut (s : State) (op : LeaseOp) : Bool := !s.meshReaches (clusterId op.core) (leaseCluster op.lease)

/-- An operation's answer, once it has come back, completes its descriptor (R363). -/
def State.takeLeaseReply (s : State) (id : Nat) : State :=
  match s.leaseOps.find? (·.id == id) with
  | some { reply := some st, core := core, target := target, .. } =>
    if s.inTransit id 2 (clusterId core) then s else (s.dropLeaseOp id).complete target st
  | _ => s

/-- The lease object's answer leaves on CTL. -/
def State.replyLease (s : State) (op : LeaseOp) (st : Status) : State :=
  let s : State := { s with leaseOps := s.leaseOps.map fun o => if o.id = op.id then { o with reply := some st } else o }
  (s.post { id := op.id, channel := 2, src := leaseCluster op.lease, dsts := [clusterId op.core], flits := 1 }).takeLeaseReply op.id

/-- lease_acquire() of R383. -/
def State.acquireLease (s : State) (op : LeaseOp) (rec : List Word) : Status × State :=
  let l := s.lease op.lease
  if s.dm.towers.contains (op.lease / 256) then (0x07, s)      -- R611
  else if l.state ≠ 0 || !setValid rec || setRootTower rec ≠ op.lease / 256 then (0x02, s)
  else if (treeRouters rec).any fun r => s.dm.towers.contains (r / 128) then
    if setFallback rec then (0, s.setLease op.lease { l with state := 2, words := rec, slots := [] }) else (0x07, s)
  else
    match s.reserveSlots op.lease (treeRouters rec) [] with
    | some (got, s) => (0, s.setLease op.lease { l with state := 1, words := rec, slots := got })
    | none =>
      let s := s.towerSat 0xB604 (op.lease / 256) 1
      if setFallback rec then (0, s.setLease op.lease { l with state := 2, words := rec, slots := [] }) else (0x09, s)

/-- LEASE_ACQUIRE: at the lease's router, reserves a slot in every router of the tree, falls back, or fails (R383); the answer comes back to
the core's dispatcher. -/
def execLeaseAcquire (id : Nat) (s : State) : Host.Outcome State Fault Refusal :=
  .next (
    match s.leaseOps.find? fun o => o.id == id && o.acquire with
    | none => s
    | some op =>
      if !s.running then s
      else if op.reply.isSome then s.takeLeaseReply id
      else if s.leaseCut op then (s.dropLeaseOp id).complete op.target 0x07
      else if op.setAddr % 64 ≠ 0 then (s.dropLeaseOp id).complete op.target 0x02
      else if s.leaseTravels op then s
      else
        s.unit op.core (.dma op.core op.id) fun s =>
        let (r, s) := if op.record.isSome then (op.record, s) else s.acceptRecord op.setAddr (.dma op.core op.id)
        let (status, rec) := r.getD (0, [])
        if r.isNone then s
        else if status ≠ 0 then s.replyLease op status
        else
          let (st, s) := s.acquireLease op rec
          s.replyLease op st)

/-- LEASE_RELEASE: after the current round the slots are freed; a FREE lease stays FREE (R384). The answer comes back as LEASE_ACQUIRE's. -/
def execLeaseRelease (id : Nat) (s : State) : Host.Outcome State Fault Refusal :=
  .next (
    match s.leaseOps.find? fun o => o.id == id && !o.acquire with
    | none => s
    | some op =>
      let l := s.lease op.lease
      if !s.running then s
      else if op.reply.isSome then s.takeLeaseReply id
      else if s.leaseCut op then (s.dropLeaseOp id).complete op.target 0x07
      else if s.leaseTravels op || l.round.isSome then s
      else ((s.freeSlots l.slots).setLease op.lease {}).replyLease op 0)

/-- LEASE_FORCE_RELEASE: the round ends with ABORTED, the slots are free, contributions that wait in engines complete with
BOUNDS; a FREE lease is left as it is (R398). -/
def execLeaseForceRelease (v : BitVec 16) (s : State) : Host.Outcome State Fault Refusal :=
  .next (s.written (
    let id := v.toNat % 2 ^ 11
    let l := s.lease id
    if l.state = 0 || s.dm.towers.contains (id / 256) then s
    else
      let s := s.endRound id 0x08
      let waits (d : DmaDesc) : Bool :=
        (d.words.headD 0).toNat / 2 ^ 40 % 256 == 2 && d.status.isNone && dmaMode d.words == 5 && tileField d.words 4 10 0 == id
      let s := { s with cores := Map.mapVals {} s.cores fun _ c =>
        { c with dma := c.dma.map fun d => if waits d then { d with status := some 0x02 } else d } }
      (s.freeSlots l.slots).setLease id {}))

/-! ### Rounds (R374 to R379, R385) -/

/-- The round that starts now: TARGET_IN_RESET is its status where the field of a contributor or of the root is dark or held in
reset (R374, R395). -/
def State.newRound (s : State) (rec : List Word) : Round :=
  let root := (setRootTower rec * 128 + setRootCluster rec) * 16
  let failed := (root :: s.contributors rec).any fun c => !s.fieldUp (coreField c)
  { startedAt := s.run, contributors := s.contributors rec, got := [], status := if failed then some 0x03 else none, serial := s.fresh }

/-- A contribution joins the round of its lease; one that disagrees with the first, or whose source failed, decides the
round's status. DEST is not used where the root of a group lease is another device (R491). -/
def State.joinRound (s : State) (l : Nat) (c : Contribution) (bad : Status) : State :=
  let lease := s.lease l
  let round : Round := lease.round.getD (s.newRound lease.words)
  let agree := match round.got with
    | f :: _ => f.rtype == c.rtype && f.len == c.len && (s.remoteRoot l || (f.kind == c.kind && f.dest == c.dest))
    | [] => true
  let st : Status := if bad ≠ 0 then bad else if agree then 0 else 0x02
  { s with fresh := s.fresh + 1 }.setLease l { lease with round := some { round with
    got := round.got ++ [c]
    status := if round.status.isNone && st ≠ 0 then some st else round.status } }

/-- The staging area of a store-and-add round holds its contributions and lies in the root cluster's slices (R385). -/
def stagingOk (rec : List Word) (count len : Nat) : Bool :=
  let a := setFallbackAddr rec
  let n := count * len
  let root := setRootTower rec * 128 + setRootCluster rec
  decide (n ≤ setFallbackBytes rec) &&
    decide (interleavedBase ≤ a) && decide (a < interleavedBase + 2 ^ 32) && (a - interleavedBase) / 0x400000 == root &&
    rangeInPlace a n

/-- What a contribution names as its destination is not there (R11, R47, check 2 of R419): its device is no member, the place where the root
would write on this device is absent as seen from the root's tower, or the tower of its sync object is out. -/
def State.destAbsent (s : State) (ws : List Word) : Bool :=
  if dmaKind ws = 0 then
    !s.memberDevice (dmaDst ws / 2 ^ 48 % 64) ||
      (s.isOwn (dmaDst ws / 2 ^ 48 % 64) && s.rangesStatus (tileField ws 4 10 8) [(dmaDst ws % 2 ^ 48, dmaLen ws)] == 0x07)
  else
    let o := dmaDst ws % 2 ^ 19
    !s.memberDevice (o / 2 ^ 13) || (s.isOwn (o / 2 ^ 13) && s.dm.towers.contains (o % 2 ^ 13 / 1024))

/-- One contribution sent (R374, R375, R384, R385, R447). -/
def State.reduce (s : State) (core : Nat) (d : DmaDesc) (remote : Option (Status × List Byte)) : State :=
  let ws := d.words
  let l := tileField ws 4 10 0
  let lease := s.lease l
  let n := dmaLen ws
  let fail (s : State) (st : Status) : State := s.endDma core d.id st
  if !dmaWellFormed ws then fail s 0x02
  else if n = 0 then fail s 0
  else if s.groupRanges (coreTower core) [(dmaSrc ws, n)] = 0x07 || s.destAbsent ws then fail s 0x07
  else if lease.state = 0 then fail s 0x02
  else if (s.boundTo l).any fun b => b.2.state == 3 then fail s 0x07          -- a BROKEN group lease (R494)
  else
    let members := match lease.round with
      | some r => r.contributors
      | none => s.contributors lease.words
    let sent := match lease.round with
      | some r => r.got.any (·.core == core)
      | none => false
    -- a contributor that a failed round has lost waits for the end of that round (R375, R395)
    let lost := match lease.round with
      | some r => r.status.isSome && (s.contributors lease.words).contains core
      | none => false
    if !members.contains core then (if lost then s else fail s 0x02)
    else if sent then s
    else
      let c : Contribution := ⟨core, d.id, tileField ws 4 14 12, dmaKind ws, dmaDst ws, n, []⟩
      let size : Status := if n % 4 ≠ 0 || 2 ^ 24 < n then 0x02
        else if lease.state = 2 && !stagingOk lease.words members.length n then 0x02 else 0
      if size ≠ 0 then s.joinRound l c size
      else if s.groupRanges (coreTower core) [(dmaSrc ws, n)] ≠ 0 then fail s (s.groupRanges (coreTower core) [(dmaSrc ws, n)])
      else
        let (data, s) := s.readGroup (dmaSrc ws) n (.dma core d.id) remote
        if data.waiting then s
        else if data.status ≠ 0 then s.joinRound l c data.status
        else if lease.state = 2 then
          let rank := (members.takeWhile (· != core)).length
          let (st, s) := s.writeRange (setFallbackAddr lease.words + rank * n) data.bytes d.rerun (.dma core d.id)
          s.joinRound l c st
        else s.joinRound l { c with data := data.bytes } 0

/-- REDUCE: the engine sends its next contribution, one per lease at a time (R374, R375). -/
def execReduce (core : Nat) (remote : Option (Status × List Byte)) (s : State) : Host.Outcome State Fault Refusal :=
  .next (
    if !s.running then s
    else
      let under (id : Nat) : Bool := (s.roundEnds.any fun e => e.got.any (·.desc == id)) || s.leases.any fun e => match e.2.round with
        | some r => r.got.any (·.desc == id)
        | none => false
      -- the completion of the round before has not reached it (R375)
      let busy (d : DmaDesc) : Bool :=
        (s.roundEnds.any fun e => e.lease == tileField d.words 4 10 0 && e.got.any (·.core == core)) ||
        match (s.lease (tileField d.words 4 10 0)).round with
        | some r => r.got.any (·.core == core)
        | none => false
      match (s.core core).dma.find? fun d => (d.words.headD 0).toNat / 2 ^ 40 % 256 == 2 && d.status.isNone &&
          dmaMode d.words == 5 && !under d.id && !busy d with
      | some d => s.unit core (.dma core d.id) fun s => s.reduce core d remote
      | none => s)

/-- The LOCAL input of a router: its contributors' data merged in order of position (R379). -/
def localInput (r : Round) (rtype router : Nat) : List Byte × Nat :=
  mergeAll rtype ((r.contributors.filter fun c => clusterId c == router).filterMap fun c =>
    (r.got.find? (·.core == c)).map (·.data))

/-- The routers of a round's tree; on the root device of a group lease also those from the anchor to the root. -/
def State.roundRouters (s : State) (l : Nat) (rec : List Word) : List Nat :=
  treeRouters rec ++ (if s.takesGroup l then (anchorPath rec).filter fun r => !(treeRouters rec).contains r else [])

/-- The router inputs in their fixed order (R379), the group's partial last at the anchor where it enters (R490). -/
def State.roundInputs (s : State) (l : Nat) (rec : List Word) (router : Nat) : List Nat :=
  treeInputs rec (s.roundRouters l rec) router ++ (if s.takesGroup l && router = setAnchor rec then [groupKey] else [])

/-- The inputs of a router in their fixed order: LOCAL, then the neighbours' partials, then the group's; none while one is
missing. -/
def State.routerInputs (s : State) (l : Nat) (r : Round) (rec : List Word) (rtype router : Nat) :
    Option (List (List Byte) × Nat) :=
  let mine := r.contributors.filter fun c => clusterId c == router
  let children := s.roundInputs l rec router
  if (mine.any fun c => !(r.got.any (·.core == c))) ||
      (children.any fun c => (r.partials.find? (·.1 == c)).isNone || s.packets.any fun p => p.id == r.serial && p.src == c && 3 ≤ p.channel) then none
  else
    let (loc, k) := localInput r rtype router
    some ((if mine.isEmpty then [] else [loc]) ++
      (children.filterMap fun c => (r.partials.find? (·.1 == c)).map (·.2)).filter (!·.isEmpty), k)

/-- The root cluster's partial: the result of the round, written at once, unless the round belongs to a group lease whose root
is another device (R490). -/
def State.finishRound (s : State) (l : Nat) (r : Round) (c : Contribution) (p : List Byte) (who : Agent) : State :=
  let lease := s.lease l
  if s.remoteRoot l then s.setLease l { lease with round := some r }
  else
    let root := setRootTower lease.words * 128 + setRootCluster lease.words
    let prod := r.got.findSome? fun g => if clusterId g.core = root then s.descRerun g.core g.desc else none
    let (st, s) := s.deliverRound lease.words c p (.round l r.serial) prod who
    s.setLease l { s.lease l with round := some { r with status := st } }

/-- A partial leaves its slot for the next router of the tree on the RED channel that the lease's slot there names (R363, R381). -/
def State.postPartial (s : State) (lease : Lease) (router serial n : Nat) : State :=
  match treeParent (setRootTower lease.words) (setRootCluster lease.words) router with
  | none => s
  | some p =>
    let slot (r : Nat) : Nat := ((lease.slots.find? fun k => k / 4 == r).getD 0) % 4
    s.post { id := serial, channel := 3 + slot p, src := router, dsts := [p], flits := max 1 ((n + 63) / 64), lane := 6 + slot router }

/-- RED_PARTIAL: a router whose inputs have all come merges them and sends the partial on; the root delivers it (R376,
R379). -/
def execRedPartial (l router : Nat) (s : State) : Host.Outcome State Fault Refusal :=
  .next (
    let lease := s.lease l
    match lease.round with
    | none => s
    | some r =>
      match r.got with
      | [] => s
      | c :: _ =>
        if lease.state ≠ 1 || r.status.isSome || !s.running || (r.partials.any (·.1 == router)) ||
            !(s.roundRouters l lease.words).contains router then s
        else
          match s.routerInputs l r lease.words c.rtype router with
          | none => s
          | some (inputs, k1) =>
            let (p, k2) := mergeAll c.rtype inputs
            let count (s : State) : State := s.towerWrap 0xB201 (router / 128) (k1 + k2)
            let r := { r with partials := r.partials ++ [(router, p)] }
            if router = setRootTower lease.words * 128 + setRootCluster lease.words then
              s.unit (router * 16) (.anchor l) fun s => (count s).finishRound l r c p (.anchor l)
            else ((count s).setLease l { lease with round := some r }).postPartial lease router r.serial p.length)

/-- The tree evaluated over staged partials, router by router toward the root; `group` is the group's partial. -/
def mergeTree (rec : List Word) (r : Round) (rtype : Nat) (inputs : Nat → List Nat) : Nat → Nat → List Byte × Nat
  | 0, _ => ([], 0)
  | fuel + 1, router =>
    if router = groupKey then (((r.partials.find? (·.1 == groupKey)).map (·.2)).getD [], 0)
    else
      let (loc, k) := localInput r rtype router
      let subs := (inputs router).map (mergeTree rec r rtype inputs fuel)
      let (p, n) := mergeAll rtype ((loc :: subs.map (·.1)).filter (!·.isEmpty))
      (p, n + k + (subs.map (·.2)).foldl (· + ·) 0)

/-- FALLBACK_MERGE: the root's merger reads the staged contributions, evaluates the tree and writes the result (R385). All its merges
are made at the root and count in REDUCTION_SAT of the root's tower (assumption 75, DESIGN CHOICE). -/
def execFallbackMerge (l : Nat) (s : State) : Host.Outcome State Fault Refusal :=
  .next (
    let lease := s.lease l
    match lease.round with
    | none => s
    | some r =>
      match r.got with
      | [] => s
      | c :: _ =>
        let root := setRootTower lease.words * 128 + setRootCluster lease.words
        let merger := ((List.range 16).map fun i => root * 16 + i).find? s.inService
        let waits := s.takesGroup l && !(r.partials.any (·.1 == groupKey))
        if lease.state ≠ 2 || r.status.isSome || !s.running || waits || (r.partials.any (·.1 == root)) ||
            !(r.contributors.all fun k => r.got.any (·.core == k)) then s
        else
          let spans := (List.range r.contributors.length).map fun i => (setFallbackAddr lease.words + i * c.len, c.len)
          let engine := merger.getD (root * 16)
          s.unit engine (.dma engine (mergerId l)) fun s =>
          let (q, ds, s) := s.readSpans (.dma engine (mergerId l)) spans
          if q.waiting then s
          else
            let put (st : Status) (s : State) : State := s.setLease l { s.lease l with round := some { r with status := some st } }
            if q.status ≠ 0 then put q.status s
            else
              let staged := List.zip r.contributors ds
              let r' := { r with got := r.got.map fun g =>
                { g with data := (staged.find? (·.1 == g.core)).elim [] (·.2) } }
              let (p, k) := mergeTree lease.words r' c.rtype (s.roundInputs l lease.words) 64 root
              let s := (s.towerWrap 0xB201 (root / 128) k).towerWrap 0xB603 (root / 128) 1
              s.finishRound l { r with partials := r.partials ++ [(root, p)] } c p (.dma engine (mergerId l)))

/-- RED_DONE: the round is over and its completion leaves for every contributor, whose contribution ends when it has come (R374, R375); the
root of a group lease tells the other devices, whose status is what it tells them, whatever contributions they still miss (R491). -/
def execRedDone (l : Nat) (remote : Option Status) (s : State) : Host.Outcome State Fault Refusal :=
  .next (
    let s := s.reachEnds l
    let lease := s.lease l
    match lease.round with
    | none => if remote.isSome then s.endForward l else s
    | some r =>
      match (if s.remoteRoot l then remote else r.status) with
      | none => s
      | some st =>
        if !(s.remoteRoot l || s.roundFull r) || !s.running then s
        else
          let s := s.tellGroup l st
          let s := (s.endRound l st).settleGroup l
          if st = 0 then s.towerWrap 0xB602 (l / 256) 1 else s)

/-- ROUND_TIMEOUT: a round that misses contributions RED_ROUND_TIMEOUT after its first ends with ABORTED (R377); for a group
lease the timer runs at the root device (R491). -/
def execRoundTimeout (l : Nat) (s : State) : Host.Outcome State Fault Refusal :=
  .next (
    match (s.lease l).round with
    | none => s
    | some r =>
      let missing := !(r.contributors.all fun c => r.got.any (·.core == c)) ||
        (s.takesGroup l && !(r.partials.any (·.1 == groupKey)))
      if !s.running || s.remoteRoot l || s.run < r.startedAt + msCycles (s.reg 0x5100 1) || !missing then s
      else
        (((s.tellGroup l 0x08).endRound l 0x08).settleGroup l).towerSat 0xB605 (l / 256) 1)

/-- The rounds with contributors in a field that goes dark or is reset end with TARGET_IN_RESET (R395); so do those whose
root lies there. -/
def State.failRounds (s : State) (f : Nat) : State :=
  { s with leases := Map.mapVals {} s.leases fun _ l =>
    match l.round with
    | some r =>
      let root := (setRootTower l.words * 128 + setRootCluster l.words) * 16
      if (r.contributors.any fun c => coreField c == f) || coreField root == f then
        { l with round := some { r with
            status := some (r.status.getD 0x03)
            contributors := r.contributors.filter fun c => coreField c != f
            got := r.got.filter fun c => coreField c.core != f } }
      else l
    | none => l }

/-! ### Sync objects (R387 to R390, R399) -/

/-- OBJECT_ADD: COUNT rises, saturating, and an armed object whose target is reached releases (R388). -/
def execObjectAdd (id : Nat) (s : State) : Host.Outcome State Fault Refusal :=
  .next (
    match s.syncTurn id .add with
    | none => s
    | some m =>
      let o := m.object % 2 ^ 13
      let v := s.syncObj o
      let sum := v.count.toNat + m.value.toNat
      let s := if 0xFFFFFFFF < sum then s.towerSat 0xB607 (o / 1024) 1 else s
      let v := { v with count := BitVec.ofNat 32 (min sum 0xFFFFFFFF) }
      let s := s.setSyncObj o v
      let s := if m.value ≠ 0 && v.armed && v.target.toNat ≤ v.count.toNat then s.releaseObj o else s
      s.replySync id (0, 0))

/-- OBJECT_WAIT: a released object answers at once, an armed one registers the waiter (R388, R389). -/
def execObjectWait (id : Nat) (s : State) : Host.Outcome State Fault Refusal :=
  .next (
    match s.syncTurn id .wait with
    | none => s
    | some m =>
      let o := m.object % 2 ^ 13
      let v := s.syncObj o
      if !v.armed then s.replySync id (0, 0)
      else
        let add (l : List Nat) (x : Nat) : List Nat := if l.contains x then l else l ++ [x]
        let v := match m.target with
          | .remote dev _ => { v with devices := add v.devices dev }
          | t => match t.cluster with
            | some c => { v with clusters := add v.clusters c }
            | none => v
        (s.setSyncObj o v).replySync id (0, 1))

/-- OBJECT_READ: the engine returns COUNT (R388). -/
def execObjectRead (id : Nat) (s : State) : Host.Outcome State Fault Refusal :=
  .next (
    match s.syncTurn id .read with
    | none => s
    | some m => s.replySync id (0, (s.syncObj (m.object % 2 ^ 13)).count))

/-- OBJECT_ARM: TARGET is set, COUNT cleared and the object armed; target 0 releases at once (R388). -/
def execObjectArm (id : Nat) (s : State) : Host.Outcome State Fault Refusal :=
  .next (
    match s.syncTurn id .arm with
    | none => s
    | some m =>
      let o := m.object % 2 ^ 13
      let s := s.setSyncObj o { s.syncObj o with target := m.value, count := 0, armed := true }
      let s := if m.value = 0 then s.releaseObj o else s
      s.replySync id (0, 0))

/-- An answer given to the thread or queue that issued the operation. A SYNC READ has no address for a fault record (R133); a WAIT that
was registered goes on waiting for the release; another member's operation is told the status and the value (R388, R389). -/
def State.giveSync (s : State) (m : SyncMsg) (st : Status) (v : Word32) : State :=
  let s := s.dropSync m.id
  match m.op, m.target with
  | _, .remote dev tag => s.send (.groupMessage dev 6 [tag, st.toNat, v.toNat])
  | .read, .wait core ctx token => s.answerLoad core ctx token 0 st (natToBytes 8 v.toNat)
  | .wait, t => if st = 0 && v ≠ 0 then s else s.complete t st
  | _, t => s.complete t st

/-- SYNC_RSP: an engine's answer reaches its issuer; another device's answer comes over the links, and a device that is no
member gives NOT_PRESENT (R390, R391). -/
def execSyncRsp (id : Nat) (remote : Option (Status × Word32)) (s : State) : Host.Outcome State Fault Refusal :=
  .next (
    match s.syncMsgs.find? (·.id == id) with
    | none => s
    | some m =>
      if !s.running || s.syncBehind m then s
      else if m.reply.isSome then s.giveSync m (m.reply.getD (0, 0)).1 (m.reply.getD (0, 0)).2
      else if s.isOwn (m.object / 2 ^ 13) then
        if !s.syncReaches m then s.giveSync m 0x07 0 else s      -- R611
      else if !s.memberDevice (m.object / 2 ^ 13) then s.giveSync m 0x07 0
      else
        match remote with
        | some (st, v) => s.giveSync m st v
        | none => s)

/-- A release from another device goes to all 640 clusters (R389). -/
def State.releaseAll (s : State) (object : Nat) (st : Status) : State :=
  { s with
    fresh := s.fresh + 1
    releases := s.releases ++ (List.range 1024).filterMap fun c =>
      if c % 128 < 80 then some { object := object % 2 ^ 19, cluster := c, status := st, at_ := s.fresh } else none }

/-- RELEASE: a release reaches a cluster and wakes what waits on the object there; one from another device is first sent to
all 640 clusters (R389). -/
def execRelease (cluster object : Nat) (remote : Option Status) (s : State) : Host.Outcome State Fault Refusal :=
  .next (
    if !s.running then s
    else
      match remote with
      | some st =>
        if s.isOwn (object / 2 ^ 13) || !s.memberDevice (object / 2 ^ 13) then s
        else s.releaseAll object st
      | none =>
        match s.releases.find? fun r => r.cluster == cluster && r.object == object with
        | none => s
        | some r =>
          if s.ctlBehind cluster object r.at_ || s.inTransit r.at_ 2 cluster then s
          else
          let s := { s with releases := s.releases.erase r }
          (s.wakeCluster cluster object r.status).startRamp (coreField (cluster * 16)))

/-- SYNC_RESET: the object returns to count 0, target 0 and RELEASED, and its waiters complete with ABORTED (R399). -/
def execSyncReset (v : BitVec 32) (s : State) : Host.Outcome State Fault Refusal :=
  .next (s.written (
    let o := v.toNat % 2 ^ 13
    if s.dm.towers.contains (o / 1024) then s else (s.broadcast o 0x08).setSyncObj o {}))

end Sys2Proof.Machine
end

