-- ==== Sys2Proof/Machine/Group.lean ====
section
/-! DEFINITION. The commands of groups: membership, group leases, pace-lock and forwarded freezes (R475 to R482, R489 to R505). -/
namespace Sys2Proof.Machine

/-! ### Membership (R480, R481) -/

/-- A message to every device of a bitmap but this one. -/
def State.sendMembers (s : State) (members kind : Nat) (fields : List Nat) : State :=
  (List.range 64).foldl (fun (s : State) (g : Nat) =>
    if g ≠ s.group.member && members.testBit g then s.send (.groupMessage g kind fields) else s) s

/-- The shape and number that a device takes: alone where the number lies outside the shape (R475). -/
def State.wantedShape (s : State) : Nat × Nat :=
  let shape := s.reg 0x5200 1
  if s.reg 0x5200 2 < shapeMembers shape && shape ≠ 0 then (shape, s.reg 0x5200 2) else (0, 0)

/-- GROUP_SHAPE and GROUP_MEMBER take effect and the ports train (R480, step 1). -/
def State.reformGroup (s : State) : State :=
  let (shape, member) := s.wantedShape
  let s := { s with group := { s.group with
    shape := shape, member := member, asking := false, answers := [], published := false, requests := [], heard := []
    targets := [], ports := [], heardTarget := s.now, formed := s.out.length } }
  let s := (List.range 12).foldl (fun (s : State) p => s.setPortState p (if shape = 0 then 4 else 1)) s
  (s.setReg 0x5200 6 1).setReg 0x5200 5 (if shape = 0 then 0 else if member = 0 then 3 else 1)

/-- GROUP_REFORM: any write; each port of the shape trains again, which LGL_RETRAINS counts (R480, R504). -/
def execGroupReform (s : State) : Host.Outcome State Fault Refusal :=
  .next (s.written (
    let s := s.reformGroup
    (List.range 12).foldl (fun (s : State) p => if s.portState p = 1 then s.sat32 0xB612 (p + 1) 1 else s) s))

/-- A member accepts group traffic only once it holds a bitmap; the head once it has published one (R480). -/
def State.holdsBitmap (s : State) : Bool :=
  s.group.shape != 0 && (if s.group.member = 0 then s.group.published else s.reg 0x5200 5 == 2 || s.reg 0x5200 5 == 4)

/-- MEMBERSHIP sent to every other number of the shape, or to those that are not members, which opens a window of 1 ms (R480, steps 3
and 5). Without a steward none is sent (R39). -/
def State.askMembers (s : State) (all : Bool) : State :=
  if s.steward.lost then s
  else
    let asked := (List.range (shapeMembers s.group.shape)).filter fun g => g ≠ 0 && (all || !(s.reg 0x5200 6).testBit g)
    let s := asked.foldl (fun (s : State) g => s.send (.groupMessage g 13 [0])) s
    { s with group := { s.group with askedAt := s.now, asking := true, answers := [] } }

/-- GROUP_ENABLE: head only; ignored on other devices. -/
def execGroupEnable (v : BitVec 8) (s : State) : Host.Outcome State Fault Refusal :=
  .next (s.written (
    if s.group.member ≠ 0 || 1 < v.toNat then s
    else
      let s := s.setReg 0x5200 3 v.toNat
      if v = 1 && s.group.shape ≠ 0 then s.askMembers true else s))

/-- A device answers the head's MEMBERSHIP; the head takes a device's answer within 1 ms (R480). Without a steward nothing is answered
(R39). -/
def State.membership (s : State) (device : Nat) : State :=
  if s.group.shape = 0 || s.steward.lost then s
  else if s.group.member ≠ 0 then s.send (.groupMessage 0 13 [s.group.member])
  else if s.group.asking && s.now ≤ s.group.askedAt + msCycles 1 && 0 < device && device < shapeMembers s.group.shape then
    { s with group := { s.group with answers := device :: s.group.answers } }
  else s

/-- MEMBERSHIP: a device answers the head; on the head, the answer of a device. -/
def execMembership (device : Nat) (s : State) : Host.Outcome State Fault Refusal := .next (s.membership device)

/-- The bitmap published: GROUP_GENERATION rises and every member receives it (R480, step 4). -/
def State.publishMembers (s : State) (members : Nat) : State :=
  let s := (s.setReg 0x5200 6 members).setReg 0x5200 7 ((s.reg 0x5200 7 + 1) % 2 ^ 32)
  { s with group := { s.group with published := true } }.sendMembers members 16 [members, s.reg 0x5200 7]

/-- MEMBERSHIP_WINDOW_END: 1 ms after MEMBERSHIP the devices that answered join. -/
def execMembershipWindowEnd (s : State) : Host.Outcome State Fault Refusal :=
  .next (
    if !s.group.asking || s.group.member ≠ 0 || s.steward.lost || s.now < s.group.askedAt + msCycles 1 then s
    else
      let old := s.reg 0x5200 6
      let new := s.group.answers.foldl (fun m g => m ||| 2 ^ g) (old ||| 1)
      let g := s.group
      let s := { s with group := { g with
        asking := false, answers := []
        heard := g.answers.foldl (fun m d => Map.set 0 m d s.now) g.heard } }
      if new ≠ old || !g.published then s.publishMembers new else s)

/-- MEMBERSHIP_RETRY: every 100 ms the head asks the missing numbers again. -/
def execMembershipRetry (s : State) : Host.Outcome State Fault Refusal :=
  .next (
    if s.group.member ≠ 0 || s.group.shape = 0 || s.reg 0x5200 3 ≠ 1 || s.group.asking ||
        s.now < s.group.askedAt + msCycles 100 then s
    else s.askMembers false)

/-- Sync operations answered without their engine. -/
def State.endSyncs (s : State) (which : SyncMsg → Bool) (st : Status) : State :=
  { s with syncMsgs := s.syncMsgs.map fun m => if which m then { m with arrived := true, reply := some (st, 0) } else m }

/-- What a removal does on a device that learns of it (R481): its outstanding requests to the removed devices end with NOT_PRESENT,
its WAITs on their objects with ABORTED, and group leases through them are BROKEN. -/
def State.removeDevices (s : State) (removed : List Nat) : State :=
  let gone (object : Nat) : Bool := removed.contains (object / 2 ^ 13)
  let s : State := { s with
    reqs := s.reqs.map fun r =>
      if s.abroad r && removed.contains (r.addr / 2 ^ 48 % 64) && r.stage != .done then { r with stage := .done, status := 0x07 } else r }
  let s := s.endSyncs (fun m => m.op != .wait && gone m.object && m.reply.isNone) 0x07
  -- the WAITs on their way; while the device is frozen their answers and wakes are held (R139)
  let waits := s.syncMsgs.filter fun m => m.op == .wait && gone m.object
  let s := if s.running then waits.foldl (fun s m => s.giveSync m 0x08 0) s
    else s.endSyncs waits.contains 0x08
  let objects := (s.cores.flatMap fun e => e.2.ctxs.filterMap fun k => match k.2.wait with
      | .syncWait _ _ o => if gone o then some (e.1 / 16, o) else none
      | _ => none) ++
    (s.queues.filterMap fun e =>
      if e.2.waiting.isSome && gone e.2.waitObject then some (e.1 / 512, e.2.waitObject) else none)
  let s := if s.running then objects.eraseDups.foldl (fun s p => s.wakeCluster p.1 p.2 0x08) s
    else { s with releases := s.releases ++ objects.eraseDups.map fun p => { object := p.2, cluster := p.1, status := 0x08 } }
  s.breakGroups removed

/-- A member takes a new bitmap from the head, in bits 63:0; bits 127:64 name devices that have been removed and have joined again since
the bitmap before, whose removal is applied first (R481). -/
def State.memberBitmap (s : State) (members : Nat) : State :=
  if s.group.member = 0 || s.group.shape = 0 then s
  else
    let old := s.reg 0x5200 6
    let m := members % 2 ^ 64
    let again := members / 2 ^ 64
    let s := s.setReg 0x5200 6 m
    let s := if s.reg 0x5200 5 = 4 then s
      else if m.testBit s.group.member then
        { s.setReg 0x5200 5 2 with group := { s.group with
            heardTarget := if s.reg 0x5200 5 = 1 then s.now else s.group.heardTarget } }
      else s.setReg 0x5200 5 1
    s.removeDevices ((List.range 64).filter fun g => old.testBit g && (!m.testBit g || again.testBit g) && g ≠ s.group.member)

/-- MEMBER_BITMAP: the head's bitmap. -/
def execMemberBitmap (members : Nat) (s : State) : Host.Outcome State Fault Refusal := .next (s.memberBitmap members)

/-- MEMBER_TIMEOUT: a member from which no pace request has come for 100 us is removed (R481). Without a steward the head does
not act (R39). -/
def execMemberTimeout (device : Nat) (s : State) : Host.Outcome State Fault Refusal :=
  .next (
    let g := s.group
    let members := s.reg 0x5200 6
    if g.member ≠ 0 || g.shape = 0 || device = 0 || 64 ≤ device || s.steward.lost || !members.testBit device ||
        s.now < Map.get 0 g.heard device + usCycles 100 then s
    else
      let s := { s with group := { g with requests := Map.set 0 g.requests device 0 } }
      let s := s.publishMembers (members - 2 ^ device)
      ((s.raise 0x11 0 device).sat32 0xB614 3 1).removeDevices [device])

/-- The request is one of the host, which the device never times out (R472). -/
def Req.ofHost (r : Req) : Bool := match r.src with
  | .host _ => true
  | _ => false

/-- LGL_REQ_TIMEOUT: a group request without an answer in time completes with ABORTED (R482): that of a thread or of a unit, or a sync
operation, whose answer a freeze holds back (R139). -/
def execLglReqTimeout (id : Nat) (s : State) : Host.Outcome State Fault Refusal :=
  .next (
    let limit := msCycles (s.reg 0x5200 9)
    match s.findReq id with
    | some r =>
      if s.isOwn (r.addr / 2 ^ 48 % 64) || r.ofHost || r.stage == .done || s.now < r.sentAt + limit then s
      else (s.updReq id fun r => { r with stage := .done, status := 0x08 }).sat32 0xB614 2 1
    | none =>
      match s.syncMsgs.find? (·.id == id) with
      | some m =>
        if s.isOwn (m.object / 2 ^ 13) || m.reply.isSome || s.now < m.sentAt + limit then s
        else if s.running then (s.giveSync m 0x08 0).sat32 0xB614 2 1
        else (s.endSyncs (·.id == id) 0x08).sat32 0xB614 2 1
      | none => s)

/-! ### Group leases (R489 to R494, R505) -/

/-- The lowest free reduction slot of a port. -/
def State.freePortSlot (s : State) (p : Nat) : Option Nat :=
  ((List.range 16).map fun i => 16 * p + i).find? fun k => Map.get 0 s.group.portSlots k == 0

/-- The port in which a device of the tree holds its slot: outgoing, or on the root the lowest one on which a partial arrives. -/
def State.leasePort (s : State) (n : Nat) (g : GroupLease) : Option (Option Nat) :=
  let own := s.group.member
  let ranked (d : Nat) : Option Nat :=
    let ps := s.upPorts d
    if ps.isEmpty then none else ps[n % ps.length]?
  if own ≠ g.root then (nextDirection own g.root).map ranked
  else
    let arrivals := (g.children own).map fun c => match nextDirection c g.root with
      | some d => ranked (if d % 2 = 0 then d + 1 else d - 1)
      | none => none
    if arrivals.isEmpty then none
    else if arrivals.any (·.isNone) then some none
    else some (some ((arrivals.filterMap id).foldl min 12))

/-- The bindings of this device (R489): 1 BOUND, 2 SLOT_UNAVAILABLE, 0 when another condition fails. -/
def State.bindGroup (s : State) (n : Nat) (g : GroupLease) : Nat × State :=
  let own := s.group.member
  let lease := s.lease g.lease
  if g.inMask own && lease.state = 0 then (0, s)
  else
    let tree := lease.slots.map (· / 4)
    let path := if g.inMask own then (anchorPath lease.words).filter fun r => !tree.contains r else []
    match s.reserveSlots g.lease path [] with
    | none => (2, s)
    | some (slots, s1) =>
      match s.leasePort n g with
      | none => (1, s1.setGroupLease n { g with state := 1, slots := slots })
      | some none => (2, s)
      | some (some p) =>
        match s.freePortSlot p with
        | none => (2, s)
        | some k =>
          let s2 := { s1 with group := { s1.group with portSlots := Map.set 0 s1.group.portSlots k (n + 1) } }
          (1, s2.setGroupLease n { g with state := 1, slots := slots, ports := [k] })

/-- GROUP_LEASE: the head binds or unbinds; `others` is the answer of the other devices of the tree (1 bound, 2 no slot, 4 unit
not present, 0 another condition failed; for an unbinding, 1 when no device of DEV_MASK has a round under way). On another device the write
changes nothing, but the head's own message, with `fromHead`, binds or unbinds there and is answered. A binding is undone after its round. -/
def execGroupLease (n : Nat) (bytes : List Byte) (fromHead : Bool) (others : Nat) (s : State) :
    Host.Outcome State Fault Refusal :=
  .next (s.written (
    let mask := fieldAt bytes 0 8
    let g : GroupLease := { mask := mask, lease := fieldAt bytes 8 2 % 2 ^ 11, root := fieldAt bytes 10 1 % 64 }
    let old := s.groupLease n
    let head := s.group.member = 0
    if 32 ≤ n || bytes.length ≠ 16 || fieldAt bytes 11 5 ≠ 0 || (head && fromHead) || (!head && !fromHead) then s
    else
      let busy := old.state ≠ 0 && (if old.inMask s.group.member then (s.lease old.lease).round.isSome || old.round
        else old.state = 1 && (old.round || (mask = 0 && others ≠ 1)))
      let tell (s : State) : State := if head then s.sendMembers (s.reg 0x5200 6) 9 [n, bytesToNat bytes] else s
      let s := { s with groupLeaseEntries := if head then Map.set 0 s.groupLeaseEntries n (bytesToNat bytes) else s.groupLeaseEntries }
      if mask = 0 then
        let s := tell s
        if old.state = 0 then s.setReg 0x5203 (n + 1) 0
        else if busy && old.state = 1 then s.setGroupLease n { old with unbind := true } else s.unbindGroup n
      else if busy then s
      else
        let s := if old.state ≠ 0 then s.unbindGroup n else s
        let outside := head && ((maskDevices g.mask).any (fun d => !(s.reg 0x5200 6).testBit d) || !g.inMask g.root)
        let s := tell s
        let (own, s1) := if outside then (0, s) else if g.tree.contains s.group.member then s.bindGroup n g
          else (1, if head then s.setGroupLease n { g with state := 1 } else s)
        let result := if own ≠ 1 then own else if head && g.tree.any (· ≠ 0) then others else 1
        if head then
          if result = 1 then s1.setReg 0x5203 (n + 1) 1
          else ((s.setGroupLease n {}).sendMembers (s.reg 0x5200 6) 9 [n, 0]).setReg 0x5203 (n + 1)
            (if result = 2 || result = 4 then result else 0)
        else s1.send (.groupMessage 0 9 [n, result])))

/-- Every contributor of a lease of this device lies in a field that is dark or held in reset, or its root does (R493). -/
def State.lostHere (s : State) (rec : List Word) : Bool :=
  !s.fieldUp (coreField ((setRootTower rec * 128 + setRootCluster rec) * 16)) ||
    (s.contributors rec).all fun c => !s.fieldUp (coreField c)

/-- GROUP_MERGE: the port slot of a device merges its local result and its children's partials in ascending device order and
sends the partial on; on the root it enters the anchor of the root tower (R490, R491). A child's partial comes with its
device, status, RTYPE and bytes. A device whose contributors are all lost starts no round of its own and sends TARGET_IN_RESET up; where the
root is such a device, it tells all others (R493). -/
def execGroupMerge (n : Nat) (children : List (Nat × Status × Nat × List Byte)) (s : State) :
    Host.Outcome State Fault Refusal :=
  .next (
    let g := s.groupLease n
    let own := s.group.member
    let lease := s.lease g.lease
    let kids := g.children own
    let isLocal := g.inMask own && own ≠ g.root
    let rootKey := setRootTower lease.words * 128 + setRootCluster lease.words
    let round := if g.inMask own then lease.round else none
    let first := round.bind fun r => r.got.head?
    let localPart : Option (Status × Nat × List Byte) :=
      if !isLocal then none
      else match round, first with
        | some r, some c =>
          if r.status.isSome then some (r.status.getD 0, c.rtype, [])
          else (r.partials.find? (·.1 == rootKey)).map fun p => (0, c.rtype, p.2)
        | none, _ => if s.lostHere lease.words then some (0x03, ((children.head?).map (·.2.2.1)).getD 0, []) else none
        | _, _ => none
    let sent := match round with
      | some r => r.sent
      | none => g.round
    if g.state ≠ 1 || !s.running || sent || children.map (·.1) ≠ kids || (isLocal && localPart.isNone) ||
        (own = g.root && kids.isEmpty) then s
    else if own = g.root && first.isNone then (if round.isNone && s.lostHere lease.words then s.tellGroup g.lease 0x03 else s)
    else
      let parts := localPart.toList ++ children.map (·.2)
      let bad := (parts.map (·.1)).find? (· ≠ 0)
      let types := parts.map (·.2.1) ++ (if own = g.root then (first.map (·.rtype)).toList else [])
      let sizes := parts.map (·.2.2.length) ++ (if own = g.root then (first.map (·.len)).toList else [])
      let agree := types.all (· == types.headD 0) && sizes.all (· == sizes.headD 0)
      let st : Status := match bad with
        | some b => b
        | none => if agree then 0 else 0x02
      let (p, k) := if st = 0 then mergeAll (types.headD 0) (parts.map (·.2.2)) else ([], 0)
      let s := s.towerWrap 0xB201 (portTower ((g.ports.headD 0) / 16)) k
      let upd (r : Round) : Round :=
        if own = g.root then { r with
            sent := true
            partials := r.partials ++ [(groupKey, p)]
            status := if st ≠ 0 && r.status.isNone then some st else r.status }
        else { r with sent := true }
      let s := match (if isLocal || own = g.root then round else none) with
        | some r => s.setLease g.lease { lease with round := some (upd r) }
        | none => s.setGroupLease n { g with round := true }
      if own = g.root then s
      else
        match nextDirection own g.root with
        | some d => s.send (.groupMessage (neighbour own d) 10 [n, st.toNat, types.headD 0, p.length, bytesToNat p])
        | none => s)

/-! ### Pace-lock (R495 to R500) -/

/-- MEMBER_PACE_REQUEST (R495). -/
def State.paceRequest (s : State) : Nat :=
  (List.range 64).foldl (fun m f =>
    if !s.fieldUp f then m
    else
      let k := s.field f
      let low := min (min (s.reg 0x2200 1) k.capLimit) (min k.thermalLimit 1800)
      let low := if k.limiter.getLsbD 6 then min low k.meas else low
      min m low) 1800

/-- PACE_REQUEST_SEND: at a window's end the request is recomputed; a member sends it when it has changed and every 10 us, and
the head holds its own. Without a steward none is sent (R39), nor once the links are down with the supply (R503). -/
def execPaceRequestSend (s : State) : Host.Outcome State Fault Refusal :=
  .next (
    let v := s.paceRequest
    let g := s.group
    let s := s.setReg 0x2210 2 v
    if g.shape = 0 || s.steward.lost || s.boot.inputLoss then s
    else if g.member = 0 then { s with group := { g with requests := Map.set 0 g.requests 0 v } }
    else if v = g.sentRequest && s.now < g.requestAt + usCycles 10 then s
    else { s with group := { g with sentRequest := v, requestAt := s.now } }.send (.groupMessage 0 11 [g.member, v]))

/-- The bellwether holds a member's request (R496). -/
def State.holdRequest (s : State) (device value : Nat) : State :=
  let g := s.group
  if g.member ≠ 0 || g.shape = 0 || 64 ≤ device || !(s.reg 0x5200 6).testBit device then s
  else { s with group := { g with requests := Map.set 0 g.requests device value, heard := Map.set 0 g.heard device s.now } }

/-- PACE_REQUEST: a member's request reaches the bellwether. -/
def execPaceRequest (device value : Nat) (s : State) : Host.Outcome State Fault Refusal := .next (s.holdRequest device value)

/-- The lowest request held from the members, with the device that sets it. -/
def State.lowestRequest (s : State) : Nat × Nat :=
  ((List.range 64).filterMap fun d =>
    let v := Map.get 0 s.group.requests d
    if (s.reg 0x5200 6).testBit d && v ≠ 0 then some (v, d) else none).foldl (fun b x => if x.1 < b.1 then x else b) (1801, 0)

/-- BELLWETHER_WINDOW: the target is recomputed and sent to every member when it changes and every 10 us (R496). -/
def execBellwetherWindow (s : State) : Host.Outcome State Fault Refusal :=
  .next (
    let g := s.group
    let (low, setter) := s.lowestRequest
    if g.member ≠ 0 || g.shape = 0 || s.steward.lost || s.boot.inputLoss || 1801 ≤ low then s
    else
      let s := s.setReg 0x2210 3 setter
      if low = g.sentTarget && s.now < g.targetAt + usCycles 10 then s
      else
        let tick := s.reg 0x2210 5
        let apply := (tick + s.reg 0x2210 4) % 2 ^ 64
        let s := { s with group := { g with sentTarget := low, targetAt := s.now, targets := g.targets ++ [(apply, low)] } }
        s.sendMembers (s.reg 0x5200 6) 17 [low, tick, apply])

/-- The target sent last of those whose APPLY_TICK has come is applied as limit 2; it replaces all that were sent before it (R497). -/
def State.applyTargets (s : State) : State :=
  let tick := s.reg 0x2210 5
  match (s.group.targets.filter fun e => e.1 ≤ tick).getLast? with
  | none => s
  | some e =>
    { s with group := { s.group with targets := (s.group.targets.reverse.takeWhile fun (t : Nat × Nat) => !decide (t.1 ≤ tick)).reverse } }.setReg 0x2210 1 e.2

/-- A member sets GROUP_TICK to the tick carried plus the path time and keeps the target until its APPLY_TICK, or applies it at once when
that has passed; an ORPHAN is one no more (R497, R500). -/
def State.holdTarget (s : State) (target tick apply : Nat) : State :=
  let g := s.group
  if g.member = 0 || g.shape = 0 then s
  else
    let s := s.setReg 0x2210 5 ((tick + (2 * 242 + deviceHops 0 g.member * 75 + 99) / 100) % 2 ^ 64)
    let s := { s with group := { g with targets := g.targets ++ [(apply, target)], heardTarget := s.now } }
    (if s.reg 0x5200 5 = 4 then s.setReg 0x5200 5 2 else s).applyTargets

/-- PACE_TARGET: the head's target reaches a member. -/
def execPaceTarget (target tick apply : Nat) (s : State) : Host.Outcome State Fault Refusal := .next (s.holdTarget target tick apply)

/-- APPLY_TICK (R497). -/
def execApplyTick (s : State) : Host.Outcome State Fault Refusal := .next s.applyTargets

/-- GTICK_EDGE: GROUP_TICK rises; edges that return after a loss clear GTICK_LOST (R496, R499). -/
def execGtickEdge (s : State) : Host.Outcome State Fault Refusal :=
  .next (({ s with group := { s.group with gtickAt := s.now } }.wrap64 0x2210 5 1).setReg 0x2210 6 0)

/-- GTICK_LOSS: no edge for 1.0 us; from then on ticks are counted from the tower reference (R499). -/
def execGtickLoss (s : State) : Host.Outcome State Fault Refusal :=
  .next (
    if s.reg 0x2210 6 = 1 || s.now < s.group.gtickAt + usCycles 1 then s
    else (s.setReg 0x2210 6 1).raise 0x12 0 0)

/-- ORPHAN_TIMEOUT: a member without a PACE_TARGET for 100 us keeps the last target and becomes ORPHAN (R500). -/
def execOrphanTimeout (s : State) : Host.Outcome State Fault Refusal :=
  .next (
    if s.reg 0x5200 5 ≠ 2 || s.now < s.group.heardTarget + usCycles 100 then s
    else (s.setReg 0x5200 5 4).raise 0x13 0 0)

/-- On a member, a freeze forwarded by the head sets SOFTWARE; on the head, a member has told it of its freeze, which is forwarded, and
freezes the head as a member, when GROUP_FREEZE_PROPAGATE reads 1 (R502, R666). -/
def State.groupFreeze (s : State) (source : Nat) : State :=
  if s.group.shape = 0 then s
  else if s.group.member ≠ 0 then (s.setFlags 0xA001 4 freezeSoftware).beginFreeze
  else if s.reg 0x5200 8 = 1 && (s.reg 0x5200 6).testBit source && source ≠ 0 then
    ((s.setFlags 0xA001 4 freezeSoftware).beginFreeze).forwardFreeze source
  else s

/-- FREEZE_PACKET: a freeze is forwarded to this device. -/
def execFreezePacket (source : Nat) (s : State) : Host.Outcome State Fault Refusal := .next (s.groupFreeze source)

end Sys2Proof.Machine
end

