-- ==== Sys2Proof/Machine/Health.lean ====
section
/-! DEFINITION. What is in service: the counts of 0x1101 and HEN_MAP, regulator phases, degradation and the reasons to replace the
module (R3 to R10, R534, R544, R546, R612, R613, R627). -/
namespace Sys2Proof.Machine

/-! ### Counts in service (R3 to R6, R546, R612) -/

/-- The core counts in 0x1101: in service, and its field not dark. -/
def State.counted (s : State) (core : Nat) : Bool := s.inService core && (s.field (coreField core)).rail != .dark && !(s.field (coreField core)).fromDark

/-- The 1,280 core ids of a tower. -/
def towerCores (t : Nat) : List Nat := (List.range 1280).map fun i => t * 2048 + i

def State.enabledCores (s : State) (t : Nat) : Nat := ((towerCores t).filter s.counted).length
def State.enabledTotal (s : State) : Nat := ((List.range 8).map s.enabledCores).sum
def State.henCount (s : State) : Nat := ((List.range 8).map fun t => ((towerCores t).filter s.hensPresent).length).sum

/-- CAPACITY_GENERATION counts a change of the published counts (R5). -/
def State.capacityChanged (s : State) : State :=
  if s.dm.published then s.setReg 0x1101 10 ((s.reg 0x1101 10 + 1) % 2 ^ 32) else s

/-- The part is degraded (R613). -/
def State.isDegraded (s : State) : Bool :=
  s.enabledTotal < 10000 || s.henCount < 10000 || !s.dm.channels.isEmpty || !s.dm.towers.isEmpty

/-- DEGRADED brought up to date after a change in service (R613). -/
def State.noteDegraded (s : State) : State :=
  if s.dm.published && s.isDegraded && s.reg 0x9009 1 = 0 then
    ((s.setReg 0x9009 1 1).setReg 0x9000 1 5).raise 0x1D 0 s.enabledTotal
  else s

/-! ### Phases (R534, R544) -/

/-- Domain of a phase: fields 0 to 7, then 8 memory arrays, 9 links, 10 memory interface, 11 standby. -/
def phaseDomain (p : Nat) : Nat :=
  if p < 96 then p / 12 else if p < 104 then 8 else if p < 116 then 9 else if p < 120 then 10 else 11

def domainPhases (d : Nat) : List Nat := (List.range 122).filter fun p => phaseDomain p == d

/-- Rating of a domain's phases in mA, and the failed phases that a shared domain carries. -/
def phaseRating (d : Nat) : Nat := if d < 8 then 3200 else if d = 10 then 1500 else 4000
def phasesCarried (d : Nat) : Nat := if d = 11 then 1 else 2

def State.phaseState (s : State) (t p : Nat) : Byte := Map.get 0 s.power.phases (128 * t + p)
def State.setPhaseState (s : State) (t p : Nat) (v : Byte) : State :=
  { s with power := { s.power with phases := Map.set 0 s.power.phases (128 * t + p) v } }
def State.phaseFailed (s : State) (t p : Nat) : Bool := (s.phaseState t p).toNat % 8 != 0
def State.phaseCurrent (s : State) (t p : Nat) : Nat := Map.get 0 s.power.currents (128 * t + p)

/-- Failed phases of a domain of a tower. -/
def State.failedPhases (s : State) (t d : Nat) : Nat := ((domainPhases d).filter (s.phaseFailed t)).length

/-! ### Replacement (R627) -/

/-- Spare rows used in a bank. -/
def State.spareRows (s : State) (ch layer bank : Nat) : Nat :=
  (s.inForce.filter fun r => match r with
    | .row c l b _ => c == ch && l == layer && b == bank
    | _ => false).length

/-- REPLACE_REASONS as its conditions hold. -/
def State.replaceReasons (s : State) : Nat :=
  let bit (i : Nat) (b : Bool) : Nat := if b then 2 ^ i else 0
  if !s.dm.published then 0
  else
    bit 0 (s.enabledTotal < 10000) + bit 1 (s.henCount < 10000) + bit 2 (!s.dm.channels.isEmpty) +
    bit 3 (!s.dm.towers.isEmpty) +
    bit 4 ((List.range 64).any fun f => (s.field f).rail == .dark && 3 ≤ s.failedPhases (f / 8) (f % 8)) +
    bit 5 ((List.range 8).any fun t => [8, 9, 10, 11].any fun d => phasesCarried d < s.failedPhases t d) +
    bit 6 (s.inForce.any fun r => match r with
      | .row c l b _ => 7 ≤ s.spareRows c l b
      | _ => false) +
    bit 7 (s.inForce.any fun r => match r with
      | .lane c _ => s.laneSuspected.contains c
      | _ => false) +
    bit 8 (3687 ≤ s.reg 0x9005 4)

/-- REPLACE_REASONS brought up to date; a bit that goes from 0 to 1 raises REPLACE_ADVISED. -/
def State.refreshReplace (s : State) : State :=
  let old := s.reg 0x9009 2
  let new := s.replaceReasons
  let s := s.setReg 0x9009 2 new
  if new ^^^ (old &&& new) ≠ 0 then s.raise 0x1E 0 new else s

end Sys2Proof.Machine
end

