-- ==== Sys2Proof/Machine/Stream.lean ====
section
/-! DEFINITION. The timed-stream port: binding streams, bringing links up, frames, launches, verdicts and deadlines (spec file
13_timed_stream_port.md). -/
namespace Sys2Proof.Machine

/-! ### Binding (R522) -/

/-- The oldest stream-bind descriptor with this ACTION performed: its template is read at acceptance (R418), the fields are
checked in the order of R419, and the binding applies to frames whose last byte arrives from now on. -/
def State.runBind (s : State) (action : Nat → Bool) (work : State → BindOp → Option Status × State) :
    State :=
  match s.bindOps.find? fun b => action ((b.words.getD 1 0).toNat / 2 ^ 62) with
  | some b =>
    if !s.running then s
    else
      match work s b with
      | (some st, s) => ({ s with bindOps := s.bindOps.filter (· != b) }).complete b.target st
      | (Option.none, s) => s
  | none => s

/-- The reserved bits of a stream bind are zero, and so are the fields that an unbind does not use (R418, R419). -/
def bindWellFormed (ws : List Word) : Bool :=
  let w1 := (ws.getD 1 0).toNat
  w1 / 2 ^ 56 % 2 ^ 6 == 0 && w1 / 2 ^ 19 % 2 ^ 29 == 0 && (ws.getD 2 0).toNat / 2 ^ 18 == 0 &&
  (ws.drop 3).all (· == 0) && (w1 / 2 ^ 62 != 1 || (w1 % 2 ^ 19 == 0 && (ws.getD 2 0) == 0))

def bindStream (ws : List Word) : Nat := (ws.getD 1 0).toNat / 2 ^ 48 % 256

/-- A bind. -/
def State.bindWork (s : State) (b : BindOp) : Option Status × State :=
  let w1 := (b.words.getD 1 0).toNat
  let q := w1 % 2 ^ 19
  let at_ := (b.words.getD 2 0).toNat
  if !bindWellFormed b.words || 1 < w1 / 2 ^ 62 then (some 0x02, s)
  else if !coreExists (queueCore q) then (some 0x02, s)                                -- no such cluster (R45)
  else if !s.inService (queueCore q) then (some 0x07, s)
  else if at_ % 64 ≠ 0 || !(s.queue q).producer then (some 0x02, s)
  else
    let a := storeAddr b.core at_
    match s.checkSram (a / 64) (.dispatcher b.core) with
    | (.waiting, s) => (none, s)
    | (.failed, s) => (some 0x0A, s)
    | (.ok, s) =>
      let words := (List.range 8).map fun j => BitVec.ofNat 64 (bytesToNat (s.bytes (a + 8 * j) 8))
      if (words.getD 0 0).toNat / 2 ^ 40 % 256 ≠ 1 then (some 0x02, s)
      else (some 0, { s with stream := { s.stream with
        bindings := Map.set (0, []) s.stream.bindings (bindStream b.words) (q + 1, words) } })

/-- STREAM_BIND performs the oldest bind, or a descriptor of an unassigned ACTION, which completes with BOUNDS. -/
def execStreamBind (s : State) : Host.Outcome State Fault Refusal := .next (s.runBind (· != 1) State.bindWork)

/-- An unbind completes with OK even if the stream was not bound. -/
def State.unbindWork (s : State) (b : BindOp) : Option Status × State :=
  if !bindWellFormed b.words then (some 0x02, s)
  else (some 0, { s with stream := { s.stream with
    bindings := Map.set (0, []) s.stream.bindings (bindStream b.words) (0, []) } })

/-- STREAM_UNBIND performs the oldest unbind. -/
def execStreamUnbind (s : State) : Host.Outcome State Fault Refusal := .next (s.runBind (· == 1) State.unbindWork)

/-! ### Links (R507, R511 to R514) -/

/-- LINK_LANES of a link. -/
def State.linkLanes (s : State) (n : Nat) : Nat := s.reg 0x7001 (n + 1)

/-- Every lane of a link holds FEC lock: DOWN to ALIGNING. -/
def execLaneLock (n : Nat) (s : State) : Host.Outcome State Fault Refusal :=
  .next (if n < 8 && (s.link n).state = 0 && s.linkLanes n ≠ 0 then s.setLink n { s.link n with state := 1 } else s)

/-- The link's lanes have deskewed: ALIGNING to DECLARING. -/
def execLinkDeskewed (n : Nat) (s : State) : Host.Outcome State Fault Refusal :=
  .next (if n < 8 && (s.link n).state = 1 then s.setLink n { s.link n with state := 2 } else s)

def ceilDiv (a b : Nat) : Nat := (a + b - 1) / b

/-- hreq of R516. -/
def hreq (rate lead minFrame maxFrame margin : Nat) : Nat :=
  let w := ceilDiv (rate * (lead * 1000 + margin)) 1000
  let n := ceilDiv w (36 + minFrame) + 1
  w + 127 * n + 2 * (maxFrame + 127)

/-- A frame's header fields, TYPE in its first byte (R509). -/
structure FrameHeader where
  type : Nat
  stream : Nat
  length : Nat
  seq : Word32
  sourceTime : Word
  deriving DecidableEq, Repr

def frameHeader (bs : List Byte) : FrameHeader :=
  { type := fieldAt bs 0 1, stream := fieldAt bs 1 1, length := fieldAt bs 4 4
    seq := BitVec.ofNat 32 (fieldAt bs 8 4), sourceTime := BitVec.ofNat 64 (fieldAt bs 12 8) }

/-- The header's HCRC holds, and its TYPE is assigned. -/
def headerGood (bs : List Byte) : Bool :=
  bs.length ≥ 32 && fieldAt bs 30 2 == (crc16 (bs.take 30)).toNat && (fieldAt bs 0 1 == 1 || fieldAt bs 0 1 == 2)

/-- The payload and whether its CRC-32 holds. -/
def framePayload (bs : List Byte) : List Byte := (bs.drop 32).take (fieldAt bs 4 4)
def payloadGood (bs : List Byte) : Bool :=
  let n := fieldAt bs 4 4
  bs.length ≥ 36 + n && fieldAt bs (32 + n) 4 == (crc32 (framePayload bs)).toNat

/-- Notices of a gap, at most 65,535 frames in each (R521). -/
def gapNotices : Nat → Nat → Nat → List Control
  | 0, _, _ => []
  | fuel + 1, first, missing =>
    if missing = 0 then []
    else
      let k := min missing 65535
      { type := 0x14, flags := frameGap, cause := 0x03, seq := first % 2 ^ 32, count := k } ::
        gapNotices fuel (first + k) (missing - k)

/-- A good header's LINK_SEQ held against the one expected (R521). -/
def State.noteSeq (s : State) (n : Nat) (seq : Word32) : State :=
  let l := s.link n
  let missing := match l.expected with
    | some e => if (seq - e).toNat < 2 ^ 31 then (seq - e).toNat else 0
    | none => 0
  let first := (seq - BitVec.ofNat 32 missing).toNat
  let s := s.setLink n ({ l with expected := some (seq + 1) }.count 7 missing)
  (gapNotices (missing / 65535 + 1) first missing).foldl (fun (s : State) c => s.sendControl n c) s

/-- The cause with which a declaration is refused; 0 accepts it (R511). -/
def State.declareCause (s : State) (n : Nat) (bs : List Byte) : Nat :=
  let f (off : Nat) : Nat := fieldAt (framePayload bs) off 4
  if f 0 ≠ 1 then 0x01
  else if f 4 = 0 || 12500 * s.linkLanes n < f 4 then 0x02
  else if f 8 = 0 || 10000 < f 8 then 0x03
  else if f 16 < f 12 || 65536 < f 16 then 0x04
  else if s.reg 0x7003 (n + 1) < hreq (f 4) (f 8) (f 12) (f 16) (s.reg 0x7008 1) + s.reg 0x7008 2 then 0x05
  else if fieldAt bs 4 4 ≠ 32 then 0x06
  else 0

/-- DECLARE: checked, then accepted or refused with DECL_ACK (R511, R512). One that fails its HCRC or its payload CRC is not
answered; a failed header is also discarded and counted (R521). -/
def execDeclare (n : Nat) (bs : List Byte) (s : State) : Host.Outcome State Fault Refusal :=
  .next (
    let l := s.link n
    if !(n < 8 && 2 ≤ l.state) then s
    else if !headerGood bs then s.setLink n (l.count 4 1)
    else if fieldAt bs 0 1 ≠ 2 then s
    else
      let h := frameHeader bs
      let s := s.noteSeq n h.seq
      if !payloadGood bs then s
      else
        let l := s.link n
        let cause := s.declareCause n bs
        let f (off : Nat) : Nat := fieldAt (framePayload bs) off 4
        let margin := s.reg 0x7008 1
        let s :=
          if cause = 0 then
            let new := hreq (f 4) (f 8) (f 12) (f 16) margin
            let again := l.declared
            s.setLink n { l with
              state := 3
              rate := f 4
              lead := f 8
              minFrame := f 12
              maxFrame := f 16
              hreq := new
              hreqNow := if again then max l.hreqNow new else new
              switchAt := if again then some (s.now + usCycles l.lead + nsCycles margin) else none }
          else s.setLink n { l with state := 5 }
        let s := s.refreshHold n
        s.sendControl n { type := 0x11, flags := if cause = 0 then 0 else frameRefused, stream := h.stream, cause := cause,
                          seq := h.seq.toNat })

/-- One old lead time and PATH_MARGIN_NS after a new declaration the new HREQ alone applies (R512). -/
def execHreqSwitch (n : Nat) (s : State) : Host.Outcome State Fault Refusal :=
  .next (
    let l := s.link n
    match l.switchAt with
    | some t => if t ≤ s.now then s.setLink n { l with hreqNow := l.hreq, switchAt := none } else s
    | none => s)

/-- The ring lies within the 80 GiB of the alias, is aligned, and overlaps no other enabled ring of the group; the group's
rings take at most 4 GiB; the link's lanes are aligned and shared with no other enabled link (R514). -/
def State.linkLegal (s : State) (n : Nat) : Bool :=
  let w := s.linkLanes n
  let off := s.reg 0x7002 (n + 1)
  let len := s.reg 0x7003 (n + 1)
  let others := (List.range 8).filter fun k => k != n && k / 4 == n / 4 && s.linkEnabled k
  (w == 1 || w == 2 || w == 4) && n % w == 0 &&
  others.all (fun k => n + w ≤ k || k + s.linkLanes k ≤ n) &&
  off % 65536 == 0 && len % 65536 == 0 && 2 ^ 20 ≤ len && off + len ≤ dramTower &&
  others.all (fun k => off + len ≤ s.reg 0x7002 (k + 1) || s.reg 0x7002 (k + 1) + s.reg 0x7003 (k + 1) ≤ off) &&
  len + (others.map fun k => s.reg 0x7003 (k + 1)).sum ≤ 2 ^ 32

/-- A write of LINK_ENABLE (R514): a new ring starts empty, the ring of before goes on. A value above 1 is refused (R634). -/
def execLinkEnableWrite (n : Nat) (v : Byte) (s : State) : Host.Outcome State Fault Refusal :=
  .next (s.written (
    if 8 ≤ n || 1 < v.toNat then s
    else if v = 0 then (s.setReg 0x7000 (n + 1) 0).refreshHold n
    else if s.linkEnabled n then s
    else if !s.linkLegal n || s.dm.towers.contains (linkTower n) then s.sat32 0xB902 2 1
    else
      let l := s.link n
      let off := s.reg 0x7002 (n + 1)
      let len := s.reg 0x7003 (n + 1)
      let s := if l.ringOff = off ∧ l.ringBytes = len then s
        else s.setLink n { l with
          ringOff := off
          ringBytes := len
          next := 0
          space := false
          slots := l.slots.map fun f => { f with take := 0 } }
      (s.setReg 0x7000 (n + 1) 1).refreshHold n))

/-! ### Frames (R515, R519 to R521, R528) -/

/-- A dropped frame: NOTICE with the stream's fallback verdict, the counters of its cause, and the event at most once per link
and window of 1 ms (R520). -/
def State.dropFrame (s : State) (n cause stream : Nat) (seq fallback : Word32) : State :=
  let s := s.sendControl n { type := 0x14, flags := frameDropped, stream := stream, cause := cause, seq := seq.toNat,
                             verdict := fallback.toNat }
  let i := if cause = 0x01 || cause = 0x08 || cause = 0x09 then 2 else if cause = 0x02 || cause = 0x06 then 3 else 5
  let l := (s.link n).count i 1
  let w := s.now / msCycles 1
  let s := (s.setLink n { l with dropWindow := some w }).countStream stream 2
  if l.dropWindow = some w then s else s.raise 0x14 (linkTower n) n

/-- The oldest released slots give their space back, and SPACE is evaluated (R516, R517). -/
def State.freeRing (s : State) (n : Nat) : State :=
  let l := s.link n
  let l := { l with slots := l.slots.dropWhile (·.released) }
  let l := { l with space := l.space && l.free < l.hreqNow + s.reg 0x7008 2 }
  (s.setLink n l).refreshHold n

/-- Where the next slot of `size` bytes goes: its offset in the ring and the bytes it takes with an unused tail (R515). -/
def StreamLink.place (l : StreamLink) (size : Nat) : Option (Nat × Nat) :=
  if l.next + size ≤ l.ringBytes then
    if size ≤ l.free then some (l.next, size) else none
  else
    let take := l.ringBytes - l.next + size
    if size ≤ l.ringBytes && take ≤ l.free then some (0, take) else none

def slotBytes (length : Nat) : Nat := 64 + (length + 63) / 64 * 64

/-- A slot that touches a granule in a field that is dark or in reset (R285, R520). -/
def State.slotInReset (s : State) (a size : Nat) : Bool :=
  (pieces a size).any fun (p, _) => s.placeStatus (placeOf (s.translate p)) != 0

/-- A record of a failed stream-buffer line (R456): CORE_ID and LINE are not stated. -/
def State.bufferRecord (s : State) (n : Nat) : State :=
  let (k, s) := s.token
  let free := (Config.freeWord k).toNat
  let head := s.reg 0x4404 2
  let t := linkTower n
  let r : BitVec 256 := BitVec.ofNat 256 ((s.refTime t).toNat * 2 ^ 192 + 0x1FFFFFF * 2 ^ 167 + 0x1FFFFFF * 2 ^ 142 +
    free % 2 ^ 26 * 2 ^ 116 + 2 * 2 ^ 114 + 2 * 2 ^ 112)
  let s := { s with mem := { s.mem with sramLog := Map.set 0 s.mem.sramLog head r } }.setReg 0x4404 2 ((head + 1) % 16)
  ((s.towerWrap 0xB801 t 1).towerSat 0xB804 t 1).raise 0x0E t (free / 2 ^ 12 % 2 ^ 14)

/-- A frame taken from the stream buffer into its ring, or dropped (R515, R520). -/
def State.placeFrame (s : State) (n : Nat) (f : Frame) : State :=
  let drop (s : State) (cause : Nat) : State := s.dropFrame n cause f.stream f.seq f.fallback
  if f.crc.any fun e => e.2 != 0 then drop (s.bufferRecord n) 0x06
  else
    let l := s.link n
    match l.place (slotBytes f.length) with
    | none => drop s 0x01
    | some (off, take) =>
      let a := towerAliasBase + linkTower n * dramTower + l.ringOff + off
      if s.slotInReset a (slotBytes f.length) then drop s 0x09
      else
        let l := { l with slots := l.slots ++ [{ f with addr := a, take := take }], next := off + slotBytes f.length }
        let l := { l with space := l.space || l.free < l.hreqNow }
        (s.setLink n l).refreshHold n

/-- Wire bytes of a frame (R509). -/
def wireBytes (length : Nat) : Nat := (36 + length + 7) / 8 * 8

/-- A good DATA frame at its last byte: its binding, fallback and deadline are those of this moment (R522, R525, R531). -/
def State.arrive (s : State) (n : Nat) (h : FrameHeader) (payload : List Byte) (spoiled : Bool) : State :=
  let fallback := Map.get 0 s.stream.fallbacks h.stream
  let (q, template) := Map.get (0, []) s.stream.bindings h.stream
  let now := s.refTime (linkTower n)
  -- which line is upset and how is open: a free line, and a free difference that is not 0
  let (k, s) := if spoiled then s.token else (0, s)
  let upset : Nat × BitVec 16 :=
    ((Config.freeWord k).toNat / 2 ^ 16 % max 1 ((h.length + 63) / 64), (Config.freeWord k).truncate 16 ||| 1)
  let f : Frame := {
    seq := h.seq, stream := h.stream, length := h.length, sourceTime := h.sourceTime, payload := payload
    arrival := now
    deadline := now + BitVec.ofNat 64 (usCycles (Map.get 100 s.stream.deadlines h.stream))
    queue := q - 1, template := template, fallback := fallback, crc := if spoiled then [upset] else [] }
  let held := Map.get [] s.stream.buffers (n / 4)
  if q = 0 then s.dropFrame n 0x05 h.stream h.seq fallback
  else if s.running && held.isEmpty then s.placeFrame n f
  else if 2 ^ 21 < (held.map fun x => wireBytes x.2.length).sum + wireBytes h.length then
    s.dropFrame n 0x08 h.stream h.seq fallback
  else { s with stream := { s.stream with buffers := Map.set [] s.stream.buffers (n / 4) (held ++ [(n, f)]) } }

/-- DATA_FRAME: `bytes` is the frame from its header on; `spoiled` says that a stream-buffer line of it fails its CRC (R456). -/
def execDataFrame (n : Nat) (bs : List Byte) (spoiled : Bool) (s : State) : Host.Outcome State Fault Refusal :=
  .next (
    let l := s.link n
    if !(n < 8 && 2 ≤ l.state) then s
    else if !headerGood bs then s.setLink n (l.count 4 1)
    else if fieldAt bs 0 1 ≠ 1 then s
    else
      let h := frameHeader bs
      let s := s.noteSeq n h.seq
      let s := s.setLink n (((s.link n).count 0 1).count 1 h.length)
      let drop (cause : Nat) : State :=
        s.dropFrame n cause h.stream h.seq (Map.get 0 s.stream.fallbacks h.stream)
      if !l.declared then drop 0x0B
      else if l.maxFrame < h.length || 65536 < h.length then drop 0x04
      else if !payloadGood bs then drop 0x02
      else s.arrive n h (framePayload bs) spoiled)

/-- A lane of the link loses FEC lock: the link is DOWN; the frame in progress, named by its stream and LINK_SEQ, is dropped
(R513). -/
def execLaneLockLoss (n : Nat) (frame : Option (Byte × Word32)) (s : State) : Host.Outcome State Fault Refusal :=
  .next (
    if 8 ≤ n || (s.link n).state = 0 then s
    else
      let s := match frame with
        | some (stream, seq) =>
          (s.noteSeq n seq).dropFrame n 0x0A stream.toNat seq (Map.get 0 s.stream.fallbacks stream.toNat)
        | none => s
      (s.setLink n { s.link n with state := 0 }).refreshHold n)

/-- At thaw the buffered frames are placed in order of arrival (R528). -/
def State.unbufferFrames (s : State) : State :=
  (List.range 2).foldl (fun (s : State) g =>
    let fs := Map.get [] s.stream.buffers g
    let s := { s with stream := { s.stream with buffers := Map.set [] s.stream.buffers g [] } }
    fs.foldl (fun (s : State) x => s.placeFrame x.1 x.2) s) s

/-! ### Launches (R523) -/

/-- The slot header (R515). -/
def Frame.header (f : Frame) (n : Nat) : List Byte :=
  natToBytes 8 (f.seq.toNat * 2 ^ 32 + f.length) ++ natToBytes 8 f.sourceTime.toNat ++ natToBytes 8 f.arrival.toNat ++
  natToBytes 8 (f.stream * 2 ^ 48 + n * 2 ^ 45 + f.deadline.toNat % 2 ^ 45) ++ natToBytes 32 0

/-- The launch descriptor of a frame: its template with ARG0 and ARG1 replaced. -/
def State.frameLaunch (s : State) (n : Nat) (f : Frame) : List Byte :=
  let arg0 := s.group.member * 2 ^ 48 + f.addr
  let arg1 := f.length + f.stream * 2 ^ 32 + n * 2 ^ 40
  let ws := (f.template.set 2 (BitVec.ofNat 64 arg0)).set 3 (BitVec.ofNat 64 arg1)
  ws.flatMap fun w => natToBytes 8 w.toNat

/-- The pushes that wait on a link, in LINK_SEQ order, up to the first that is refused as full or whose queue is in reset, which is retried,
or whose ring in DRAM is being written. BOUNDS and NOT_PRESENT drop the frame. -/
def State.pushFrames (s : State) (n : Nat) : Nat → State
  | 0 => s
  | fuel + 1 =>
    match (s.link n).slots.find? fun f => f.launch.isNone && !f.released with
    | none => s
    | some f =>
      if !f.written then s
      else
        let t := s.withPush f.queue (s.frameLaunch n f) fun s r =>
          let s := if f.triedAt.isSome then s.wrap64 0xB902 1 1 else s
          if r = 0 then s.updFrame n (· == f) fun x => { x with launch := some (f.queue, ((s.queue f.queue).pi - 1).toNat) }
          else if r = 0x02 || r = 0x07 then
            let s := s.updFrame n (· == f) fun x => { x with released := true }
            (s.dropFrame n 0x07 f.stream f.seq f.fallback).freeRing n
          else s.updFrame n (· == f) fun x => { x with triedAt := some s.run }
        -- on to the next where this one has been taken or dropped
        if (t.link n).slots.any fun x => x.seq == f.seq && x.launch.isNone && !x.released then t else t.pushFrames n fuel

/-- SLOT_WRITE_COMPLETE: the link's oldest slot not yet written is in the ring, each of its lines written whole, and its launch is
pushed when no older launch of the link waits. -/
def execSlotWriteComplete (n : Nat) (s : State) : Host.Outcome State Fault Refusal :=
  .next (
    if !s.running then s
    else
      match (s.link n).slots.find? fun f => !f.written && !f.released with
      | none => s
      | some f =>
        let bytes := f.header n ++ f.payload ++ List.replicate (slotBytes f.length - 64 - f.length) 0
        let waits := (s.link n).slots.any fun x => x.written && x.launch.isNone && !x.released
        let t := s.unit (linkTower n * 2048) (.frame n f.addr) fun s =>
          match s.writeRange f.addr bytes none (.frame n f.addr) with
          | (0, s) => s.updFrame n (· == f) fun x => { x with written := true }
          | (_, s) =>
            let s := s.updFrame n (· == f) fun x => { x with released := true }
            (s.dropFrame n 0x09 f.stream f.seq f.fallback).freeRing n
        if waits then t else t.pushFrames n 2)

/-- PUSH_RETRY: 1.0 µs after a refused push it is made again, and the pushes that waited behind it follow once it is taken; a push that
waits for its ring's line, or for another push to the queue, goes on. -/
def execPushRetry (n : Nat) (s : State) : Host.Outcome State Fault Refusal :=
  .next (
    let due (f : Frame) : Bool := f.launch.isNone && !f.released && (match f.triedAt with
      | some t => t + usCycles 1 ≤ s.run
      | none => f.written)
    if s.running && (s.link n).slots.any due then s.pushFrames n ((s.link n).slots.length + 1) else s)

/-! ### Verdicts (R524 to R526) -/

/-- The stream's fallback verdict sent for a frame. -/
def State.sendFallback (s : State) (n : Nat) (f : Frame) (cause : Nat) : State :=
  let late := cause = 0x10
  let s := s.sendControl n { type := 0x13, flags := if late then frameLate else 0, stream := f.stream, cause := cause,
                             seq := f.seq.toNat, verdict := f.fallback.toNat }
  s.countStream f.stream 1

/-- Of the frames whose launch has completed, the one whose launch completed first. -/
def StreamLink.completedFirst (l : StreamLink) : Option Frame :=
  let done := l.slots.filter fun f => f.completed.isSome && !f.released
  done.find? fun f => done.all fun g => f.completedAt ≤ g.completedAt

/-- The verdict of a completed launch, or its fallback, sent by what word 7 of its slot reads; whether the fallback was late (R524, R525).
Where VALID reads 0 and the status is not OK either cause may be named. -/
def State.answerFrame (s : State) (n : Nat) (f : Frame) (st : Status) (r : ReadResult) : Bool × State :=
  let (k, s) := s.token
  let w := bytesToNat r.bytes
  let valid := r.status = 0 && 2 ^ 63 ≤ w
  if s.reached n f.deadline then (true, s.sendFallback n f 0x10)
  else if valid && st = 0 then
    (false, (s.sendControl n { type := 0x13, stream := f.stream, seq := f.seq.toNat, verdict := w % 2 ^ 32 }).countStream f.stream 0)
  else if valid then (false, s.sendFallback n f 0x12)
  else if st = 0 then (false, s.sendFallback n f 0x11)
  else (false, s.sendFallback n f (if Config.freeBool k then 0x11 else 0x12))

/-- VERDICT: of the link's slots whose launch has completed the first in order of completion gets its verdict or fallback, unless one was
sent, and is released; an OK launch then completes at its queue (R524, R526). -/
def execVerdict (n : Nat) (s : State) : Host.Outcome State Fault Refusal :=
  .next (
    if !s.running then s
    else
      match (s.link n).completedFirst with
      | none => s
      | some f =>
        let st := f.completed.getD 0
        s.unit (linkTower n * 2048) (.frame n f.addr) fun s =>
          let (r, s) := if f.answered then (({} : ReadResult), s) else s.readRange (f.addr + 56) 8 (.frame n f.addr)
          if r.waiting then s
          else
            let (late, s) := if f.answered then (f.late, s) else s.answerFrame n f st r
            let s := (s.updFrame n (· == f) fun x => { x with answered := true, released := true }).freeRing n
            match f.launch with
            | some (q, i) => s.endRing q i (lateStatus late st)
            | none => s)

/-- DEADLINE_EXPIRY: a frame whose DEADLINE has been reached without a verdict gets its fallback with LATE, frozen or not (R525). -/
def execDeadlineExpiry (n : Nat) (s : State) : Host.Outcome State Fault Refusal :=
  .next (
    let due (f : Frame) : Bool := !f.answered && !f.released && s.reached n f.deadline
    match (s.link n).slots.find? due with
    | some f =>
      let s := s.updFrame n (· == f) fun x => { x with answered := true, late := true }
      s.sendFallback n f 0x10
    | none =>
      let held := Map.get [] s.stream.buffers (n / 4)
      match held.find? fun x => x.1 == n && due x.2 with
      | some x =>
        let mark (y : Nat × Frame) : Nat × Frame :=
          if y == x then (y.1, { y.2 with answered := true, late := true }) else y
        let s := { s with stream := { s.stream with buffers := Map.set [] s.stream.buffers (n / 4) (held.map mark) } }
        s.sendFallback n x.2 0x10
      | none => s)

/-- HOLD_STATE_TIMER: every 1.0 µs a HOLD_STATE frame for each link (R510). -/
def execHoldStateTimer (s : State) : Host.Outcome State Fault Refusal :=
  .next (
    if s.now < s.stream.timerAt + usCycles 1 then s
    else
      let s := { s with stream := { s.stream with timerAt := s.now } }
      (List.range 8).foldl (fun (s : State) n =>
        if s.linkLanes n ≠ 0 then s.sendControl n { type := 0x12 } else s) s)

end Sys2Proof.Machine
end

