-- ==== Sys2Proof/Machine/FieldOps.lean ====
section
/-! DEFINITION. A core or a field that leaves service and a field that returns: what is ended, lost and kept (R43, R138, R188, R232,
R282, R325, R345, R395, R431, R461, R462, R533, R616, R617), and switching a field on or off (R538 to R542). -/
namespace Sys2Proof.Machine

/-! ### A core ends its work (R138) -/

/-- Every task of a core ended: ABORTED, or the status that a context held in FAULTED already has. -/
def State.endTasks (s : State) (core : Nat) : State :=
  ((s.core core).ctxs.map (·.1)).foldl (fun (s : State) k =>
    let c := s.ctx core k
    match c.state with
    | .free => s
    | .faulted =>
      let st : Status := match c.ending with
        | .fault st => st
        | _ => 0x08
      (s.setCtx core k { c with restart := false }).endTask core k st
    | _ => (s.setCtx core k { c with restart := false }).endTask core k 0x08) s

/-- A completion that reaches a queue; one for a thread of the core is lost with the thread. -/
def State.completeIfRing (s : State) (t : Target) (st : Status) : State :=
  match t with
  | .ring q i => s.completeRing q i st
  | _ => s

/-- The descriptors of a core's DMA engine ended with ABORTED: hen sequences, appends and scrubs leave their channels, copies of a
multicast their way. -/
def State.endDescriptors (s : State) (core : Nat) : State :=
  let ds := (s.core core).dma
  ds.foldl (fun (s : State) d =>
    let s := (s.channels.filter fun e => e.2.seqs.any (·.desc == d.id)).foldl (fun (s : State) e => s.killSeq e.1 d.id) s
    let s := { s with
      channels := s.channels.map fun (e : Nat × Channel) =>
        (e.1, { e.2 with
          appends := e.2.appends.filter (·.desc != d.id)
          scrubs := e.2.scrubs.filter (·.desc != d.id) })
      multicasts := s.multicasts.filter (·.desc != d.id)
      reqs := s.reqs.filter fun r => match r.src with
        | .copy k _ => k != d.id
        | _ => true }
    let s := s.leaveReqs fun who => match who with
      | .append _ k | .copier k _ => k == d.id
      | _ => false
    let s := s.setCore core { s.core core with dma := (s.core core).dma.filter (·.id != d.id) }
    let append := (d.words.headD 0).toNat / 2 ^ 40 % 256 == 5 && d.status.isNone
    let s := if append then s.towerWrap 0xB500 (coreTower core) 1 else s       -- KV_APPENDS: any status (R360)
    s.completeIfRing d.target (d.status.getD 0x08)) s

/-- Descriptors taken from the core's queues and not yet accepted by their unit complete with ABORTED (R431). -/
def State.endTaken (s : State) (core : Nat) : State :=
  let ls := s.leaseOps.filter (·.core == core)
  let bs := s.bindOps.filter (·.core == core)
  let ms := s.syncMsgs.filter fun m => !m.arrived && m.reply.isNone && (match m.target with
    | .ring q _ => queueCore q == core
    | _ => false)
  let s := { s with
    leaseOps := s.leaseOps.filter (·.core != core)
    bindOps := s.bindOps.filter (·.core != core)
    syncMsgs := s.syncMsgs.filter fun m => !ms.contains m }
  let ts := ls.map (·.target) ++ bs.map (·.target) ++ ms.map (·.target)
  ts.foldl (fun (s : State) t => s.completeIfRing t 0x08) s

/-- A core's contexts, tiles, samples and descriptors end; suspect marks, goose counts, numeric counters and
the core's beats stay (R141), and its tiles count as completed (R190). -/
def State.coreDown (s : State) (core : Nat) : State :=
  let s := ((s.endTasks core).endDescriptors core).endTaken core
  let s := s.leaveReqs fun who => match who with
    | .vector c | .array c _ | .held c _ | .goose c _ | .dma c _ | .dispatcher c => c == core
    | _ => false
  let c := s.core core
  let keep (u : ArrayUnit) : ArrayUnit := { suspect := u.suspect, disagree := u.disagree }
  let s := s.towerWrap 0xB100 (coreTower core) ((c.arrays.map fun e => e.2.tiles.length + e.2.done.length).sum)
  s.setCore core {
    beats := c.beats, windowBeats := c.beats, ledger := c.ledger, sats := c.sats, nans := c.nans, cycleAt := c.cycleAt
    cycleSats := c.cycleSats, cycleNans := c.cycleNans, activity := c.activity, spent := c.spent
    arrays := Map.mapVals {} c.arrays fun _ u => keep u }

/-! ### A field's channels (R282, R325) -/

/-- A channel whose field goes dark or enters reset: entries whose last column command has not issued answer TARGET_IN_RESET, the
prefetcher is emptied. -/
def State.channelDown (s : State) (ch : Nat) : State :=
  let c := s.channel ch
  -- of a read-modify-write the read column alone has issued
  let half (f : InFlight) : Bool := f.rmw && decide (s.run + tCWL < f.due + tRTW)
  let ids := c.window.flatMap (·.reqs) ++ (c.flight.filter half).flatMap (·.reqs)
  let s := ids.foldl (fun (s : State) id => s.answerReq id 0x03 []) s
  let c := s.channel ch
  let idle := (c.flight.filter fun f => f.prefetch && f.reqs.isEmpty).length + c.buffer.length
  s.setChannel ch { c with
    window := []
    flight := c.flight.filter fun f => !(f.prefetch && f.reqs.isEmpty) && !half f
    buffer := []
    trackers := []
    pfUnused := c.pfUnused + BitVec.ofNat 32 idle }

/-! ### A field -/

/-- An SRAM line of the field: its core stores and slices. -/
def lineOfField (f line : Nat) : Bool := sliceBase ≤ line * 64 && coreField (sramUnit line) == f

def Agent.inField (f : Nat) : Agent → Bool
  | .thread c _ | .fetch c _ | .vector c | .array c _ | .held c _ | .goose c _ | .dma c _ | .dispatcher c => coreField c == f
  | .hen ch | .append ch _ | .region ch _ => coreField ch == f
  | _ => false

/-- The SRAM of a field lost: contents, CRCs, copy records and rerun stores; recoveries of its lines and for its readers end
(R462, R533). -/
def State.loseSram (s : State) (f : Nat) : State :=
  let gone := s.mem.recoveries.filter fun r => lineOfField f r.line
  let s := gone.foldl (fun (s : State) r => s.releaseReader r.line r.reader) s
  let s : State := { s with mem := { s.mem with
      cells := s.mem.cells.filter fun e => !lineOfField f (e.1 / 64)
      crc := s.mem.crc.filter fun e => !lineOfField f e.1
      producer := s.mem.producer.filter fun e => !lineOfField f e.1
      slices := s.mem.slices.filter fun e => coreField (e.1 * 16) != f
      reruns := s.mem.reruns.filter fun e => coreField (e.1 * 16) != f
      recoveries := s.mem.recoveries.filter fun r => !lineOfField f r.line && !r.reader.inField f } }
  s.leaveReqs fun
    | .refetch line => !(s.mem.recoveries.any (·.pends line))
    | _ => false

/-- Queues of the field with a ring in SRAM that will be reported lost (R431). -/
def State.markLost (s : State) (f : Nat) : State :=
  { s with queues := s.queues.map fun (e : Nat × Queue) =>
      let k := e.2
      if coreField (queueCore e.1) = f && k.ringSpace.toNat ≤ 1 && (k.enable || k.pi != k.ci) then
        (e.1, { k with lostReport := some (k.pi - k.ci).toNat }) else e }

/-- A powered field ends its work; `rail` is what it becomes. Where `atOnce`, its rail is cut before its tasks end (R546), else
after (R616). Thermal stretch, limits and ramps end with it. -/
def State.fieldDown (s : State) (f : Nat) (rail : Rail) (atOnce : Bool) : State :=
  let cut (s : State) : State := s.setField f { s.field f with
    rail := rail, transition := 0, since := none, falling := none, thermal := [], released := [], ramp := none
    rampAtThaw := false, capLimit := 1800, thermalLimit := 1800, meas := 0, capStretch := 0, drainAt := none }
  if (s.field f).rail ≠ .powered then cut s
  else
    let s := if atOnce then cut s else s
    let s := (fieldCores f).foldl (fun (s : State) c => s.coreDown c) s
    let s := s.failRounds f
    let chs := (s.channels.filter fun e => coreField e.1 == f).map (·.1)
    let s := ((chs.foldl State.channelDown s).markLost f).loseSram f |> cut
    ((chs.foldl State.settleFifo s).setReg 0x6001 (f + 1) 0).updateHalts.refreshHolds      -- its forecast is 0 (R566)

/-- A queue of a returning field whose ring lay in SRAM: disabled, its indices 0, and reported if it was lost (R431). -/
def State.returnQueue (s : State) (q : Nat) : State :=
  let k := s.queue q
  if 1 < k.ringSpace.toNat then s
  else
    let s := match k.lostReport with
      | some _ => (s.towerSat 0xB707 (q / 2 ^ 16) (k.pi - k.ci).toNat).raise 0x0A (q / 2 ^ 16) q
      | none => s
    let c := s.core (queueCore q)
    let s := s.setCore (queueCore q) { c with ledger := c.ledger.filter (·.queue != q) }
    (s.setQueue q { k with
      enable := false, pi := 0, ci := 0, taken := [], waiting := none, aged := false, eligibleSince := none,
      lostReport := none }).orphanFrames q

/-- A field that is powered and leaves reset: its loop takes over from the first complete window (R78, R294, R431, R557, R579). The
spec does not say when that window begins: the windows of a field begin at whole multiples of 1.0 µs of the reference (assumption 87,
DESIGN CHOICE). -/
def State.fieldReturn (s : State) (f : Nat) : State :=
  let s := s.setField f { s.field f with rail := .powered, windowAt := (s.now + usCycles 1 - 1) / usCycles 1 * usCycles 1 }
  let s := s.applyCap f
  let qs := (s.queues.filter fun e => coreField (queueCore e.1) == f).map (·.1)
  let s := qs.foldl State.returnQueue s
  let s := { s with channels := s.channels.map fun (e : Nat × Channel) => if coreField e.1 = f then (e.1, { e.2 with hens := [] }) else e }
  s.updateHalts.refreshHolds

/-! ### Service state and the headers -/

/-- FIELD_SERVICE_STATE: 0 IN_SERVICE, 1 DRAINING, 2 OUT, 3 TURNING_ON, 4 TESTING, 5 DARK. -/
def State.serviceState (s : State) (f : Nat) : Nat := s.reg 0x9002 (f + 1)
def State.setServiceState (s : State) (f v : Nat) : State := s.setReg 0x9002 (f + 1) v

/-- The field asks to be switched on: after those that asked before, and in order of number with those that ask at once (R540). -/
def State.askTurnOn (s : State) (f : Nat) : State :=
  let q := Map.get [] s.turnOns (f / 8)
  if q.contains f then s else { s with turnOns := Map.set [] s.turnOns (f / 8) (q ++ [f]) }

def State.dropTurnOn (s : State) (f : Nat) : State :=
  { s with turnOns := Map.upd [] s.turnOns (f / 8) fun q => q.filter (· != f) }

/-- The field is to be switched off under R542. -/
def State.askTurnOff (s : State) (f : Nat) : State :=
  (s.dropTurnOn f).setField f { s.field f with offDue := true, offAt := none, tested := false }

/-- A field goes dark (R546, R565): switched off, its work ended, the counts and flags changed. -/
def State.fieldDark (s : State) (f : Nat) : State :=
  if (s.field f).rail = .dark then s
  else
    let s := ((s.fieldDown f .dark true).setServiceState f 5).askTurnOff f
    let s := s.setField f { s.field f with onAfterReset := false, test := 0, testOnly := false, fromDark := false, byWave := false }
    let s := (s.setReg 0x2006 1 (s.reg 0x2006 1 ||| 8)).towerSat 0xBA01 (f / 8) 1
    let s := s.raise 0x16 (f / 8) f
    s.capacityChanged.noteDegraded.refreshReplace

/-- Fields that share an edge with a field (R539). -/
def fieldNeighbours (f : Nat) : List Nat :=
  let i := f % 8
  let t := f / 8 * 8
  ((if 2 ≤ i then [i - 2] else []) ++ [if i % 2 = 0 then i + 1 else i - 1] ++ (if i < 6 then [i + 2] else [])).map (t + ·)

/-- The field's mean logic-phase current in the last sample exceeds 85 % of the rating: 2.72 A (R539). -/
def State.atPeak (s : State) (f : Nat) : Bool :=
  let ps := (domainPhases (f % 8)).filter fun p => !s.phaseFailed (f / 8) p
  2720 * ps.length < (ps.map (s.phaseCurrent (f / 8))).sum

def State.neighbourAtPeak (s : State) (f : Nat) : Bool := (fieldNeighbours f).any s.atPeak

def State.setHeaders (s : State) (f : Nat) (h : Headers) : State := s.setField f { s.field f with headers := h }

/-- tSTG at no wait, after a wait and after 200 µs, in reference cycles. -/
def stageInterval : Nat := nsCycles 1500

/-- A turn-on begins: the first header group closes. -/
def State.closeFirst (s : State) (f interval : Nat) : State := s.setHeaders f (.closing 1 interval s.now)

/-- In steps 2 to 4 of R538. -/
def Headers.turningOn : Headers → Bool
  | .waiting _ | .closing _ _ _ | .settling _ _ => true
  | _ => false

/-- The field's turn-on goes on: it has not failed (R546, R565), and the field is not to be switched off. -/
def State.turnsOn (s : State) (f : Nat) : Bool := (s.field f).rail == .turningOn && !(s.field f).offDue

end Sys2Proof.Machine
end

