-- ==== Sys2Proof/Machine/Power.lean ====
section
/-! DEFINITION. Power delivery, measurement and caps: samples, cap steps, attribution, switching fields on and off, phase failures
and the controlled shutdown (spec file 14_power_delivery_and_caps.md, R589). -/
namespace Sys2Proof.Machine

/-! ### Double-precision steps of the cap procedure (R556) -/

/-- A non-negative binary64 value that is not 0: `m` ÷ 2^`e`. -/
structure F64 where
  m : Nat
  e : Nat
  deriving DecidableEq, Repr

/-- The binary64 nearest to n ÷ d, ties to even, for a value from 2^-1000 to 2^53; 0 for n = 0. -/
def F64.ofRatio (n d : Nat) : F64 :=
  if n = 0 then ⟨0, 0⟩
  else
    let e0 := 53 + d.log2 - n.log2
    let e := if 2 ^ 53 * d ≤ n * 2 ^ e0 then e0 - 1 else e0
    let q := n * 2 ^ e / d
    let r := n * 2 ^ e % d
    ⟨if d < 2 * r || (2 * r = d && q % 2 = 1) then q + 1 else q, e⟩

def F64.div (x : F64) (n : Nat) : F64 := F64.ofRatio x.m (2 ^ x.e * n)
def F64.times (x : F64) (n : Nat) : F64 := F64.ofRatio (x.m * n) (2 ^ x.e)
def F64.oneMinus (x : F64) : F64 := F64.ofRatio (2 ^ x.e - x.m) (2 ^ x.e)
def F64.floor (x : F64) : Nat := x.m / 2 ^ x.e
def F64.le (x y : F64) : Bool := x.m * 2 ^ y.e ≤ y.m * 2 ^ x.e

/-- limit × (1.0 − e ÷ 3.0), rounded down, with e = min((P − lim) ÷ lim, 0.30). -/
def lowerLimit (limit p lim : Nat) : Nat :=
  let ratio := F64.ofRatio (p - lim) lim
  let cap := F64.ofRatio 3 10
  let e := if ratio.le cap then ratio else cap
  max 500 ((e.div 3).oneMinus.times limit).floor

/-- n ÷ d < 0.97 × c. -/
def below97 (n d c : Nat) : Bool :=
  let t := (F64.ofRatio 97 100).times c
  n * 2 ^ t.e < t.m * d

/-! ### THERM_ALERT_N and the controlled shutdown (R581, R589) -/

def thermalState (s : State) : Nat := s.reg 0x3000 7

/-- The condition of R581. -/
def State.thermAlert (s : State) : Bool :=
  3 ≤ thermalState s ||
  (List.range 64).any fun f =>
    let k := s.field f
    !k.thermal.isEmpty || k.thermalLimit < 1800 || k.bands.any fun e => 3 ≤ e.2

/-- Links of the device group and of the stream port go down (R589, R694). -/
def State.linksDown (s : State) : State :=
  let s := (List.range 12).foldl (fun (s : State) p =>
    if s.portState p = 4 then s else s.setPortState p 0) s
  let s := { s with group := { s.group with ports := [] } }
  ((List.range 8).foldl (fun (s : State) n => s.setLink n { s.link n with state := 0 }) s).refreshHolds

/-- Every field is switched off at once; a dark field stays dark. -/
def State.allFieldsOff (s : State) : State :=
  let s := { s with turnOns := [] }
  (List.range 64).foldl (fun (s : State) f =>
    if (s.field f).rail = .dark then s
    else
      let s := s.setField f { s.field f with onAfterReset := false, test := 0, testOnly := false, byWave := false }
      ((s.fieldDown f .off true).setServiceState f 2).askTurnOff f) s

/-- Every links rail goes off, but for those that are held at 0.60 V (R589, R694). -/
def State.dropLinkRails (s : State) (holds : Nat → Bool) : State :=
  (List.range 8).foldl (fun (s : State) t =>
    { s with links := Map.upd {} s.links t fun l => { l with setpoint := if holds t then 480 else 0 } }) s

/-- The compute side has stopped already: nothing new is recorded in LAST_SHUTDOWN. -/
def State.stopped (s : State) : Bool := !s.boot.started || s.boot.inputLoss || thermalState s == 4

/-- The controlled shutdown has not completed: headers have still to open (R589, R696). -/
def State.shuttingDown (s : State) : Bool :=
  thermalState s == 4 && (List.range 64).any fun f => (s.field f).offDue || (s.field f).headers != .idle

/-- LAST_SHUTDOWN after a cause: the first of a stop, of the causes 1 to 3 of one reference cycle the lowest, and 4 only where no other arises
before the controlled shutdown completes (R696). -/
def State.stopCause (s : State) (cause : Nat) : Nat :=
  let old := s.reg 0x2020 1
  if !s.stopped || (s.boot.stopAt == some s.now && decide (cause < old)) || (old == 4 && s.shuttingDown) then cause else old

/-- The stop noted, with its time where its cause is recorded. -/
def State.noteStop (s : State) (old : State) (cause : Nat) : State :=
  let c := old.stopCause cause
  let s := s.setReg 0x2020 1 c
  if c = cause then { s with boot := { s.boot with stopAt := some s.now } } else s

/-- The controlled shutdown: running hen segments end at their visit, every field goes off, the links go down, and of the links rails that of
T0 is held at 0.60 V (R589). LAST_SHUTDOWN tells a coolant stop that reached the trip from another cause (R696). -/
def State.controlledShutdown (s : State) (tower detail : Nat) : State :=
  if thermalState s = 4 then s
  else
    let old := s
    let cause := if thermalState s = 3 then 4 else 3
    let s := (s.channels.map (·.1)).foldl State.cutSegments s
    let s := s.allFieldsOff.linksDown.dropLinkRails (fun t => t == 0 && !old.boot.inputLoss)
    let s := ((s.setReg 0x3000 7 4).setReg 0x3000 8 (s.reg 0x3000 8 ||| 0x100)).sat32 0xBB02 2 1
    (s.noteStop old cause).raise 0x1C tower detail

/-! ### Measurement (R548, R550) -/

def State.domainMw (s : State) (t d : Nat) : Nat := Map.get 0 s.power.domains (8 * t + d)

/-- What a phase contributes by one measure: its own, nothing when failed, or the mean of the other working phases of its domain
when its sensing fails. -/
def contribution (samples : List PhaseSample) (failed : Nat → Bool) (measure : PhaseSample → Nat) (p : Nat) : Nat :=
  if failed p then 0
  else
    let of (q : Nat) : Option PhaseSample := samples.find? fun x => x.phase == q
    match of p with
    | none => 0
    | some x =>
      if !x.badSense then measure x
      else
        let others := ((domainPhases (phaseDomain p)).filter fun q => q != p && !failed q).filterMap of
        let good := others.filter fun y => !y.badSense
        if good.isEmpty then 0 else (good.map measure).sum / good.length

/-- A sense point is valid: it reads neither above the phase's local output nor more than 120 mV below it (R536). -/
def pointValid (x : PhaseSample) (mv : Nat) : Bool := mv ≤ x.outMV && x.outMV ≤ mv + 120

/-- What a logic phase regulates to, in steps of 1.25 mV: its field's setpoint, at its valid sense points, or, with SENSE_FALLBACK, the setpoint
plus 35 mV at its local output (R536). -/
def State.phaseTarget (s : State) (t p : Nat) : Nat :=
  (s.field (8 * t + phaseDomain p)).setpoint + (if (s.phaseState t p).getLsbD 7 then 28 else 0)

/-- The phase bytes and currents of a tower after a sample (R536, R550). A phase without a valid sense point falls back, and stays so until its
field is reset. -/
def State.notePhases (s : State) (t : Nat) (samples : List PhaseSample) : State :=
  samples.foldl (fun (s : State) x =>
    if 122 ≤ x.phase || s.phaseFailed t x.phase then
      { s with power := { s.power with currents := Map.set 0 s.power.currents (128 * t + x.phase) 0 } }
    else
      let old := s.phaseState t x.phase
      let fallback := x.phase < 96 && (old.getLsbD 7 || x.points.all fun v => !pointValid x v)
      let new : Byte := (if x.badSense then 0x40 else 0) ||| (if fallback then 0x80 else 0)
      let s := s.setPhaseState t x.phase new
      let s := { s with power := { s.power with currents := Map.set 0 s.power.currents (128 * t + x.phase) (x.outMA % 65536) } }
      if fallback then s.setReg 0x2006 1 (s.reg 0x2006 1 ||| 32) else s) s

/-- The measured power of a tower in µW: output by phase, and input. -/
structure TowerPower where
  out : List Nat
  input : Nat
  deriving DecidableEq, Repr

def State.towerPower (s : State) (t : Nat) (samples : List PhaseSample) : TowerPower :=
  let failed (p : Nat) : Bool := s.phaseFailed t p
  { out := (List.range 122).map (contribution samples failed fun x => x.outMA * x.outMV)
    input := ((List.range 122).map (contribution samples failed fun x => x.inMA * x.inMV)).sum }

def TowerPower.domain (p : TowerPower) (d : Nat) : Nat := ((domainPhases d).map fun i => p.out.getD i 0).sum

def addAt (m : Map Nat) (k n : Nat) : Map Nat := Map.upd 0 m k (· + n)

/-- The entries that a window's end refreshes for one tower, and its energies (R548, R570). A field that is dark, or in reset, as one is until it
has been tested, reads 0 (R566). -/
def State.storeTower (s : State) (t : Nat) (p : TowerPower) : State :=
  let s := (List.range 8).foldl (fun (s : State) f =>
    let uw := if s.fieldUp (8 * t + f) then p.domain f else 0
    { s.setReg 0x2011 (8 * t + f + 1) (uw / 1000) with
      power := { s.power with fieldEnergy := addAt s.power.fieldEnergy (8 * t + f) uw } }) s
  let logic := ((List.range 8).map fun f => s.reg 0x2011 (8 * t + f + 1)).sum
  let s := { s with power := { s.power with domains := Map.set 0 s.power.domains (8 * t) logic } }
  let s := (List.range 4).foldl (fun (s : State) d =>
    let uw := p.domain (8 + d)
    { s with power := { s.power with
        domains := Map.set 0 s.power.domains (8 * t + d + 1) (uw / 1000)
        domainEnergy := addAt s.power.domainEnergy (8 * t + d + 1) uw } }) s
  { s.setReg 0x2010 (t + 2) (p.input / 1000) with
    power := { s.power with
      energy := addAt s.power.energy t p.input
      inputEnergy := addAt s.power.inputEnergy t p.input
      samples := Map.upd [] s.power.samples (t + 1) fun l =>
        (l ++ [(p.out.sum, p.input)]).drop (l.length + 1 - 100) } }

/-! ### Caps (R545, R547, R554 to R559) -/

/-- FIELD_CAP_EFFECTIVE_MW: 3.2 A × setpoint is 4 mW per phase and setpoint unit of 1.25 mV (R545). -/
def State.fieldCap (s : State) (f : Nat) : Nat :=
  let n := 12 - s.failedPhases (f / 8) (f % 8)
  min (s.reg 0x2002 (f + 1) * n / 12) (n * (s.field f).setpoint * 4)

/-- The tower's effective cap in mW (R547). -/
def State.towerCap (s : State) (t : Nat) : Nat :=
  let cap := s.reg 0x2001 (t + 1) * 1000
  [8, 9, 10, 11].foldl (fun c d =>
    let n := (domainPhases d).length
    let k := s.failedPhases t d
    if phasesCarried d < k then min c (cap * (n - k) / (n - phasesCarried d)) else c) cap

/-- What a cap controller compares in a window: power, sustained cap, hard limit, allowance in µs, and the forecast as a fraction. -/
structure CapInput where
  p : Nat
  c : Nat
  h : Nat
  allow : Nat
  fNum : Nat
  fDen : Nat
  deriving DecidableEq, Repr

/-- cap_step of R556 for one level: X, limit and samples over at the floor, and whether the limit fell. -/
def capStep (i : CapInput) (x limit floor : Nat) : Nat × Nat × Nat × Bool :=
  let x := if i.c < i.p then min (x + 10) i.allow else x - 10
  if i.h < i.p || (i.c < i.p && i.allow ≤ x) then
    let limit := lowerLimit limit i.p (if i.h < i.p then i.h else i.c)
    (x, limit, if limit = 500 then floor + 1 else 0, true)
  else
    (x, if below97 i.p 1 i.c && below97 i.fNum i.fDen i.c then min 1800 (limit + 5) else limit, 0, false)

/-- The register of a level's limit: level 0 module, 1 + t tower, 16 + f field. -/
def capRegister (level : Nat) : Nat × Nat := if level < 16 then (0x2004, level + 1) else (0x2005, level - 15)

/-- Detail of CAP_UNREACHABLE: 0 module, 1 tower, 2 field with its number. -/
def capDetail (level : Nat) : Nat := if level = 0 then 0 else if level < 16 then 1 else 2 + (level - 16) * 256

def capTower (level : Nat) : Nat := if level = 0 then 0 else if level < 16 then level - 1 else (level - 16) / 8

/-- One cap controller at a window's end (R555, R556, R559). -/
def State.runCap (s : State) (level : Nat) (i : CapInput) : State :=
  let (idx, sub) := capRegister level
  let (x, limit, floor, fell) := capStep i (Map.get 0 s.power.excursion level) (s.reg idx sub) (Map.get 0 s.power.atFloor level)
  let above := decide (i.c < i.p)
  let began := above && !(Map.get false s.power.exceeded level)
  let s := { s.setReg idx sub limit with power := { s.power with
    excursion := Map.set 0 s.power.excursion level x
    atFloor := Map.set 0 s.power.atFloor level floor
    exceeded := Map.set false s.power.exceeded level above } }
  let s := if fell && level ≠ 0 then s.towerWrap 0xBA03 (capTower level) 1 else s
  let s := if above && level < 16 then s.setReg 0x2006 1 (s.reg 0x2006 1 ||| 1) else s
  let s := if began && level = 0 then s.sat32 0xBA04 1 1 else s
  let s := if 100 ≤ floor then s.setReg 0x2006 1 (s.reg 0x2006 1 ||| 2) else s
  if floor = 100 then s.raise 0x17 (capTower level) (capDetail level) else s

/-- The forecast rise of a field in mW × 1,024: ATTRIB_SCALE × FIELD_FORECAST_MW − FIELD_LOGIC_MW, at least 0 (R556); a field that is dark or in
reset forecasts 0 (R566). -/
def State.forecastRise (s : State) (f : Nat) : Nat :=
  if !s.fieldUp f then 0
  else s.reg 0x2104 (f + 1) * s.reg 0x6001 (f + 1) - s.reg 0x2011 (f + 1) * 1024

/-- A level's forecast: its power and the rise of the fields below it divided by the measured efficiency of the last 1 ms. -/
def State.forecastOf (s : State) (p level : Nat) (fields : List Nat) : Nat × Nat :=
  let rise := (fields.map s.forecastRise).sum
  let hist := Map.get [] s.power.samples level
  let out := (hist.map (·.1)).sum
  let inp := (hist.map (·.2)).sum
  if out = 0 then (p * 1024 + rise, 1024) else (p * 1024 * out + rise * inp, 1024 * out)

/-- The three levels' steps. -/
def State.runCaps (s : State) (i : InputSample) : State :=
  let fields := List.range 64
  let pm := s.reg 0x2010 1
  let byVolt := 1000 * i.in1V8
  let watts := min (s.reg 0x2000 1) (s.reg 0x3011 9) * 1000
  let s := if byVolt < watts then s.setReg 0x2006 1 (s.reg 0x2006 1 ||| 64) else s
  let (fn, fd) := s.forecastOf pm 0 fields
  let whole : CapInput := { p := pm, c := min watts byVolt + i.auxMW, h := min 2100000 (1170 * i.in1V8), allow := 10000,
                            fNum := fn, fDen := fd }
  let s := if s.steward.lost then s else s.runCap 0 whole      -- the module's controller is the steward's (R39)
  let s := (List.range 8).foldl (fun (s : State) t =>
    let p := s.reg 0x2010 (t + 2)
    let (fn, fd) := s.forecastOf p (t + 1) ((List.range 8).map (8 * t + ·))
    s.runCap (t + 1) { p := p, c := s.towerCap t, h := s.reg 0x2001 (t + 1) * 1000 * 2100 / 1800, allow := 10000,
                       fNum := fn, fDen := fd }) s
  fields.foldl (fun (s : State) f =>
    let c := s.fieldCap f
    let s := s.setReg 0x2003 (f + 1) c
    if !(s.fieldUp f || (s.field f).rail = .held) then s
    else
      let p := s.reg 0x2011 (f + 1)
      s.runCap (16 + f) { p := p, c := c, h := c, allow := 0, fNum := p * 1024 + s.forecastRise f, fDen := 1024 }) s

/-! ### Turn-on and a window's end (R539) -/

/-- A turn-on that waits starts at 3.0 µs when within 200 µs a sample shows no neighbour at peak, and at 6.0 µs after them; one under way takes
twice its interval, up to 6.0 µs, when a neighbour has come to peak (R539). `before` tells which were at peak in the sample before. -/
def State.stepTurnOn (s : State) (before : Nat → Bool) (f : Nat) : State :=
  match (if s.turnsOn f then (s.field f).headers else .idle) with
  | .waiting t =>
    if t + usCycles 200 < s.now then s.closeFirst f (4 * stageInterval)
    else if s.neighbourAtPeak f then s else s.closeFirst f (2 * stageInterval)
  | .closing n i t =>
    if (fieldNeighbours f).any (fun g => s.atPeak g && !before g) then
      s.setHeaders f (.closing n (min (2 * i) (4 * stageInterval)) t) else s
  | _ => s

/-- PIN_STATE (R702). -/
def State.pinState (s : State) : Nat :=
  (if s.pins.pwrGood then 1 else 0) + (if s.pins.freezeN then 2 else 0) + (if s.pins.coolantOk then 4 else 0) +
  (if s.thermAlert then 0 else 8) + (if s.pins.gtick then 16 else 0)

/-- A shared domain has failed phases beyond those it carries, and the rest cannot carry its present current at their rating (R547). -/
def State.overloaded (s : State) (t d : Nat) : Bool :=
  let k := s.failedPhases t d
  phasesCarried d < k && decide (((domainPhases d).length - k) * phaseRating d < ((domainPhases d).map (s.phaseCurrent t)).sum)

/-- The controlled shutdown for a shared domain that is overloaded. -/
def State.checkShared (s : State) : State :=
  (List.range 8).foldl (fun (s : State) t =>
    if [8, 9, 10, 11].any (s.overloaded t) then s.controlledShutdown t 0xFFFF else s) s

/-- Bits of POWER_FLAGS whose condition still holds at the end of a sample, but for those that the caps set (R655, assumption 94). -/
def State.heldPowerFlags (s : State) : Nat :=
  (if s.power.phases.any fun e => e.2.toNat % 8 != 0 then 4 else 0) +
  (if (List.range 64).any fun f => (s.field f).rail == .dark then 8 else 0) +
  (if (List.range 64).any fun f => match (s.field f).headers with
    | .waiting _ => true
    | _ => false then 16 else 0)

/-- POWER_SAMPLE: at the end of each 10 µs window the measurements enter the entries, and every cap controller takes its step. The windows
are those of the reference count, from the boot on (assumption 94). -/
def execPowerSample (samples : List PhaseSample) (i : InputSample) (s : State) : Host.Outcome State Fault Refusal :=
  .next (if !s.boot.started || s.now / usCycles 10 ≤ s.power.window then s else
    let peak := (List.range 64).filter s.atPeak
    let s := { s with
      pins := { s.pins with coolantOk := i.coolantOk, gtick := i.gtick }
      power := { s.power with window := s.now / usCycles 10 } }
    let of (t : Nat) : List PhaseSample := samples.filter fun x => x.tower == t
    let s := (List.range 8).foldl (fun (s : State) t => s.notePhases t (of t)) s
    let ps := (List.range 8).map fun t => (t, s.towerPower t (of t))
    let s := ps.foldl (fun (s : State) x => s.storeTower x.1 x.2) s
    let total := (ps.map fun x => x.2.input).sum + i.auxMW * 1000
    let out := (ps.map fun x => x.2.out.sum).sum
    let s := s.setReg 0x2010 1 (total / 1000)
    let s := { s with power := { s.power with
      energy := addAt s.power.energy 8 (i.auxMW * 1000)
      inputEnergy := addAt s.power.inputEnergy 8 (i.auxMW * 1000)
      samples := Map.upd [] s.power.samples 0 fun l => (l ++ [(out, total)]).drop (l.length + 1 - 100) } }
    let s := ((s.setReg 0x2020 3 (i.in1V8 % 65536)).setReg 0x2020 4 (i.in3V3 % 65536))
    let s := s.runCaps i
    let s := (List.range 64).foldl State.applyCap s
    let s := (List.range 64).foldl (fun (s : State) f => s.stepTurnOn (fun g => peak.contains g) f) s
    let s := { s with power := { s.power with shownPhases := s.power.phases } }
    let s := s.checkShared
    let s := s.setReg 0x2006 1 (s.reg 0x2006 1 ||| s.heldPowerFlags)
    s.setReg 0x2020 2 s.pinState)

/-! ### Attribution (R551 to R553) -/

/-- A scale as a fraction, clamped to 0.5 to 2.0; 1 when nothing is modelled. -/
def attribScale (meas model : Nat) : Nat × Nat :=
  if model = 0 then (1, 1) else if 2 * meas < model then (1, 2) else if 2 * model < meas then (2, 1) else (meas, model)

def kindEnergy (counts : List Nat) (k : Nat) : Nat := counts.getD k 0 * (Config.energyCoeff k).toNat

/-- The part of a tower's attribution that a field controller performs: energies in fJ. It gives what was attributed. -/
def State.attributeField (s : State) (f : Nat) (accounts : List Account) (leak : List (Nat × Nat)) : Nat × State :=
  let v := (s.field f).setpoint
  let mine := accounts.filter fun a => coreField a.core == f && s.inService a.core
  let es := mine.map fun a =>
    (a.queue, ((List.range 6).map (kindEnergy a.counts)).sum * (v * v) / 360000)
  let idle := (leak.filter fun e => coreField e.1 == f && s.inService e.1).map fun e => (e.1, e.2 * 10 ^ 9)
  let model := (es.map (·.2)).sum + (idle.map (·.2)).sum
  let meas := Map.get 0 s.power.fieldEnergy f * 10 ^ 4
  let (n, d) := attribScale meas model
  let give (m : Map Nat) (l : List (Nat × Nat)) : Map Nat := l.foldl (fun m e => addAt m e.1 (n * e.2 / d)) m
  let done := ((es ++ idle).map fun e => n * e.2 / d).sum
  (done, { s.setReg 0x2104 (f + 1) (1024 * n / d) with
    power := { s.power with
      queues := give s.power.queues es
      idle := give s.power.idle idle
      fieldEnergy := Map.set 0 s.power.fieldEnergy f 0 } })

/-- What a tower's cores have counted in the millisecond (R551). -/
def State.accounts (s : State) (t : Nat) : List Account :=
  (s.cores.filter fun c => coreTower c.1 == t).flatMap fun c =>
    c.2.activity.map fun e => ⟨c.1, e.1 / 8, List.replicate (e.1 % 8) 0 ++ [e.2]⟩

/-- The counts of a tower's cores begin anew. -/
def State.clearAccounts (s : State) (t : Nat) : State :=
  { s with cores := Map.mapVals {} s.cores fun k c => if coreTower k = t then { c with activity := [] } else c }

/-- ATTRIBUTION: at the end of each 1 ms a tower's measured energy is charged to queues and idle accounts, and the rest, with the
tower's other input energy, to UNATTRIBUTED (R552, R553). What its cores have counted is charged, and with it `accounts`, the events that
no command shows (assumption 44); `leak` is the modelled idle power in mW of its cores, `background` the modelled background of its channels
in nJ. -/
def execAttribution (t : Nat) (accounts : List Account) (leak : List (Nat × Nat)) (background : Nat) (s : State) :
    Host.Outcome State Fault Refusal :=
  .next (
    if 8 ≤ t || s.now / msCycles 1 ≤ Map.get 0 s.power.attributed t then s
    else
      let s := { s with power := { s.power with attributed := Map.set 0 s.power.attributed t (s.now / msCycles 1) } }
      let mine := (accounts ++ s.accounts t).filter fun a => coreTower a.core == t
      let s := s.clearAccounts t
      let (logic, s) := (List.range 8).foldl (fun (x : Nat × State) f =>
        let (n, s) := x.2.attributeField (8 * t + f) mine leak
        (x.1 + n, s)) (0, s)
      let es := mine.map fun a => (a.queue, kindEnergy a.counts 6 + kindEnergy a.counts 7)
      let meas := (Map.get 0 s.power.domainEnergy (8 * t + 1) + Map.get 0 s.power.domainEnergy (8 * t + 3)) * 10 ^ 4
      let (n, d) := attribScale meas ((es.map (·.2)).sum + background * 10 ^ 6)
      let done := logic + (es.map fun e => n * e.2 / d).sum
      let input := (Map.get 0 s.power.inputEnergy t + (if t = 0 then Map.get 0 s.power.inputEnergy 8 else 0)) * 10 ^ 4
      let clear (m : Map Nat) : Map Nat := Map.set 0 m t 0
      { s with power := { s.power with
          queues := es.foldl (fun m e => addAt m e.1 (n * e.2 / d)) s.power.queues
          unattributed := s.power.unattributed + Int.ofNat input - Int.ofNat done
          domainEnergy := s.power.domainEnergy.filter fun e => e.1 / 8 != t
          inputEnergy := if t = 0 then Map.set 0 (clear s.power.inputEnergy) 8 0 else clear s.power.inputEnergy } })

/-! ### Cap writes and flags (R558, R567, R568) -/

/-- A cap stored clamped; X of its level becomes the allowance. -/
def State.writeCap (s : State) (idx sub level v allow : Nat) : State :=
  { s.setReg idx sub v with power := { s.power with excursion := Map.set 0 s.power.excursion level allow } }

def execModuleCapWWrite (v : BitVec 16) (s : State) : Host.Outcome State Fault Refusal :=
  .next (s.written ((s.writeCap 0x2000 1 0 (clamp 400 1800 v.toNat) 10000).save 0x2000 1 (natToBytes 2 (clamp 400 1800 v.toNat))))

def execTowerCapWWrite (t : Nat) (v : BitVec 16) (s : State) : Host.Outcome State Fault Refusal :=
  .next (s.written (if t < 8 then
    (s.writeCap 0x2001 (t + 1) (t + 1) (clamp 50 225 v.toNat) 10000).save 0x2001 (t + 1) (natToBytes 2 (clamp 50 225 v.toNat))
  else s))

def execFieldCapMwWrite (f : Nat) (v : BitVec 32) (s : State) : Host.Outcome State Fault Refusal :=
  .next (s.written (if f < 64 then
    (s.writeCap 0x2002 (f + 1) (16 + f) (clamp 4000 32000 v.toNat) 0).save 0x2002 (f + 1) (natToBytes 4 (clamp 4000 32000 v.toNat))
  else s))

/-- POWER_FLAGS is cleared by writing 1; reserved bits change nothing (R568, R570). -/
def execPowerFlagsWrite (v : BitVec 16) (s : State) : Host.Outcome State Fault Refusal :=
  .next (s.written (if v.toNat / 128 ≠ 0 then s else s.clearFlags 0x2006 1 v.toNat))

/-! ### Switching a field on (R538 to R540) -/

/-- FIELD_TURN_ON: the field at the head of its tower's order begins: setpoint of R78, then the neighbour check. -/
def execFieldTurnOn (f : Nat) (s : State) : Host.Outcome State Fault Refusal :=
  .next (
    let k := s.field f
    let alone := (List.range 8).all fun i => !(s.field (f / 8 * 8 + i)).headers.turningOn
    if 64 ≤ f || thermalState s = 4 || s.boot.inputLoss || (Map.get [] s.turnOns (f / 8)).head? ≠ some f || !alone || k.headers ≠ .idle || k.offDue then s
    else
      let cap := max 1000 (min (s.reg 0x2004 1) (s.reg 0x2004 (f / 8 + 2)))      -- its own limit starts at 1,800 (R566)
      let target := max 1000 ((s.setField f { k with capLimit := cap }).lowestLimit f)
      let s := (s.dropTurnOn f).setField f { k with
        rail := .turningOn
        setpoint := Map.get 600 k.held target
        capLimit := cap
        offAt := none }
      let s := (domainPhases (f % 8)).foldl (fun (s : State) p =>
        s.setPhaseState (f / 8) p (s.phaseState (f / 8) p &&& 0x7F)) s      -- SENSE_FALLBACK ends with the reset (R536)
      let s := s.setServiceState f 3
      if s.neighbourAtPeak f then
        ((s.setHeaders f (.waiting s.now)).setReg 0x2006 1 (s.reg 0x2006 1 ||| 16)).towerSat 0xBA02 (f / 8) 1
      else s.closeFirst f stageInterval)

/-- NEIGHBOUR_WAIT_END: 200 µs of waiting have passed. -/
def execNeighbourWaitEnd (f : Nat) (s : State) : Host.Outcome State Fault Refusal :=
  .next (
    match (if s.turnsOn f then (s.field f).headers else .idle) with
    | .waiting t => if t + usCycles 200 ≤ s.now then s.closeFirst f (4 * stageInterval) else s
    | _ => s)

/-- HEADER_GROUP_CLOSE: the next of the eight groups closes. -/
def execHeaderGroupClose (f : Nat) (s : State) : Host.Outcome State Fault Refusal :=
  .next (
    match (if s.turnsOn f then (s.field f).headers else .idle) with
    | .closing n i t =>
      if s.now < t + i then s
      else if n + 1 < 8 then s.setHeaders f (.closing (n + 1) i s.now)
      else s.setHeaders f (.settling i s.now)
    | _ => s)

/-- TURN_ON_SETTLED: one interval after group 8 the sense points have held for 2.0 µs, within 20 µs after group 8: the field is powered, held
in reset until its tests end; its cap limit and its excursion count start anew (R538, R566, R579). -/
def execTurnOnSettled (f : Nat) (s : State) : Host.Outcome State Fault Refusal :=
  .next (
    match (if s.turnsOn f then (s.field f).headers else .idle) with
    | .settling i t =>
      if s.now < t + i + usCycles 2 || t + usCycles 20 < s.now then s
      else
        let s := s.setField f { s.field f with
          headers := .idle, rail := .held, thermalLimit := 1800, thermal := [], released := [] }
        let s := { s with power := { s.power with excursion := Map.set 0 s.power.excursion (16 + f) 0 } }
        (s.setReg 0x2005 (f + 1) 1800).setServiceState f 4
    | _ => s)

/-- TURN_ON_FAIL: a field not settled 20 µs after group 8 is opened and goes dark. -/
def execTurnOnFail (f : Nat) (s : State) : Host.Outcome State Fault Refusal :=
  .next (
    match (if s.turnsOn f then (s.field f).headers else .idle) with
    | .settling _ t => if s.now < t + usCycles 20 then s else (s.setHeaders f .idle).fieldDark f
    | _ => s)

/-- FIELD_TURN_OFF: every governor of the field gets a stretch of 16. A turn-on under way ends. -/
def execFieldTurnOff (f : Nat) (s : State) : Host.Outcome State Fault Refusal :=
  .next (
    if (s.field f).offDue then
      s.setField f { s.field f with offDue := false, transition := 16, headers := .stretched s.now }
    else s)

/-- HEADER_OPEN: after 1.0 µs the first group opens, 1.5 µs later the second, and the phases stop. -/
def execHeaderOpen (f : Nat) (s : State) : Host.Outcome State Fault Refusal :=
  .next (
    match (s.field f).headers with
    | .stretched t => if s.now < t + usCycles 1 then s else s.setHeaders f (.opening s.now)
    | .opening t =>
      if s.now < t + stageInterval then s
      else s.setField f { s.field f with headers := .idle, offAt := some s.now, transition := 0 }
    | _ => s)

/-! ### Phases (R544 to R547) -/

/-- A failed phase: counted, announced, and what its domain then carries (R544, R546, R547). -/
def State.failPhase (s : State) (t p code : Nat) : State :=
  if 8 ≤ t || 122 ≤ p || code = 0 || 4 < code || s.phaseFailed t p then s
  else
    let d := phaseDomain p
    let s := s.setPhaseState t p ((s.phaseState t p &&& 0xC0) ||| BitVec.ofNat 8 code)
    let s := ((s.towerSat 0xBA00 t 1).setReg 0x2006 1 (s.reg 0x2006 1 ||| 4)).raise 0x15 t (code * 256 + p)
    let s := s.refreshReplace
    let k := s.failedPhases t d
    if d < 8 then (if k = 3 then s.fieldDark (8 * t + d) else s)
    else if s.overloaded t d then s.controlledShutdown t 0xFFFF
    else s

/-- PHASE_FAILURE: a phase meets a failure condition, by its code. -/
def execPhaseFailure (t p code : Nat) (s : State) : Host.Outcome State Fault Refusal := .next (s.failPhase t p code)

/-- CURRENT_LIMIT_ENTRY (R544). -/
def execCurrentLimitEntry (t p : Nat) (s : State) : Host.Outcome State Fault Refusal :=
  .next (if t < 8 && p < 122 && !s.phaseFailed t p then s.towerSat 0xBA05 t 1 else s)

end Sys2Proof.Machine
end

