-- ==== Sys2Proof/Machine/Image.lean ====
section
/-! DEFINITION. The NOR device and the choice of a boot image: its header, its SHA-256 digest and the procedure of R603 (R600 to R603). -/
namespace Sys2Proof.Machine

/-! ### SHA-256 (R602) -/

/-- The first 64 primes. -/
def shaPrimes : List Nat :=
  [2, 3, 5, 7, 11, 13, 17, 19, 23, 29, 31, 37, 41, 43, 47, 53, 59, 61, 67, 71, 73, 79, 83, 89, 97, 101, 103, 107, 109, 113, 127, 131,
   137, 139, 149, 151, 157, 163, 167, 173, 179, 181, 191, 193, 197, 199, 211, 223, 227, 229, 233, 239, 241, 251, 257, 263, 269, 271,
   277, 281, 283, 293, 307, 311]

/-- The cube root of a number, rounded down, by bits. -/
def icbrtFrom (v : Nat) : Nat → Nat → Nat
  | 0, r => r
  | b + 1, r => icbrtFrom v b (if (r + 2 ^ b) ^ 3 ≤ v then r + 2 ^ b else r)

/-- The first 32 bits of the fractional part of a prime's cube root, and of its square root. -/
def shaRound (p : Nat) : Word32 := BitVec.ofNat 32 (icbrtFrom (p * 2 ^ 96) 36 0)
def shaStart (p : Nat) : Word32 := BitVec.ofNat 32 (isqrt (p * 2 ^ 64))

def shaK : List Word32 := shaPrimes.map shaRound
def shaInit : List Word32 := (shaPrimes.take 8).map shaStart

/-- The message schedule, newest word first. -/
def shaSchedule : Nat → List Word32 → List Word32
  | 0, w => w
  | n + 1, w =>
    let a := w.getD 1 0
    let b := w.getD 14 0
    let s1 := a.rotateRight 17 ^^^ a.rotateRight 19 ^^^ a >>> 10
    let s0 := b.rotateRight 7 ^^^ b.rotateRight 18 ^^^ b >>> 3
    shaSchedule n ((w.getD 15 0 + s0 + w.getD 6 0 + s1) :: w)

/-- One round on the eight working values. -/
def shaStep (h : List Word32) (kw : Word32 × Word32) : List Word32 :=
  let g (i : Nat) : Word32 := h.getD i 0
  let s1 := (g 4).rotateRight 6 ^^^ (g 4).rotateRight 11 ^^^ (g 4).rotateRight 25
  let ch := (g 4 &&& g 5) ^^^ (~~~(g 4) &&& g 6)
  let t1 := g 7 + s1 + ch + kw.1 + kw.2
  let s0 := (g 0).rotateRight 2 ^^^ (g 0).rotateRight 13 ^^^ (g 0).rotateRight 22
  let maj := (g 0 &&& g 1) ^^^ (g 0 &&& g 2) ^^^ (g 1 &&& g 2)
  [t1 + s0 + maj, g 0, g 1, g 2, g 3 + t1, g 4, g 5, g 6]

def shaBlock (h : List Word32) (block : List Byte) : List Word32 :=
  let word (i : Nat) : Word32 := BitVec.ofNat 32 (((block.drop (4 * i)).take 4).foldl (fun n b => n * 256 + b.toNat) 0)
  let w := (shaSchedule 48 ((List.range 16).map word).reverse).reverse
  List.zipWith (· + ·) h ((List.zip shaK w).foldl shaStep h)

/-- The message with its padding: 0x80, zeros and the length in bits. -/
def shaPad (m : List Byte) : List Byte :=
  m ++ (0x80 : Byte) :: List.replicate ((119 - m.length % 64) % 64) 0 ++ (natToBytes 8 (8 * m.length)).reverse

/-- SHA-256 of a message, its digest's bytes in order. -/
def sha256 (m : List Byte) : List Byte :=
  let p := shaPad m
  let h := ((List.range (p.length / 64)).map fun i => (p.drop (64 * i)).take 64).foldl shaBlock shaInit
  h.flatMap fun w => (natToBytes 4 w.toNat).reverse

/-! ### The NOR device (R600, R601) -/

/-- A byte of the NOR device: as written since, or as delivered. -/
def State.norByte (s : State) (a : Nat) : Byte :=
  match Map.get 0 s.nor a with
  | 0 => Config.norByte a
  | v => BitVec.ofNat 8 v

def State.norBytes (s : State) (a n : Nat) : List Byte := (List.range n).map fun i => s.norByte (a + i)

def State.setNor (s : State) (a : Nat) (v : Byte) : State := { s with nor := Map.set 0 s.nor a (256 + v.toNat) }

/-! ### Images (R602, R603) -/

/-- Offset of slot A (0) or B (1). -/
def slotOffset (slot : Nat) : Nat := slot * 0x1000000

def State.header (s : State) (slot at_ n : Nat) : Nat := bytesToNat (s.norBytes (slotOffset slot + at_) n)

/-- The slot is valid: MAGIC, HCRC, LENGTH and the reserved bits. -/
def State.headerValid (s : State) (slot : Nat) : Bool :=
  s.header slot 0 4 == 0x54384D4C && decide (1 ≤ s.header slot 12 4) && decide (s.header slot 12 4 ≤ 8388608) &&
  s.header slot 48 12 == 0 && s.header slot 60 4 == (crc32 (s.norBytes (slotOffset slot) 60)).toNat

/-- The image loads: its digest is that of its header. -/
def State.digestOk (s : State) (slot : Nat) : Bool :=
  sha256 (s.norBytes (slotOffset slot + 64) (s.header slot 12 4)) == s.norBytes (slotOffset slot + 16) 32

/-- choose_and_load() of R603: the slot that runs and IMAGE_FALLBACK; `select` is BOOT_SELECT as saved. -/
def State.chooseImage (s : State) (select : Nat) : Option (Nat × Bool) :=
  let a := s.headerValid 0 && select != 2
  let b := s.headerValid 1 && select != 1
  let first := if a && (!b || s.header 1 8 4 ≤ s.header 0 8 4) then some 0 else if b then some 1 else none
  match first with
  | none => none
  | some f =>
    let second := if f = 0 && b then some 1 else if f = 1 && a then some 0 else none
    if s.digestOk f then some (f, false)
    else match second with
      | some g => if s.digestOk g then some (g, true) else none
      | none => none

end Sys2Proof.Machine
end

