-- ==== Sys2Proof/Machine/Pace.lean ====
section
/-! DEFINITION. The steward, the management ring, stretch requests, and the regulator loops of fields and links
(spec files 01_stack_and_hierarchies.md and 02_handshake_timing_and_pace.md). -/
namespace Sys2Proof.Machine

/-! ### The steward and the management ring -/

/-- HEARTBEAT: the standby steward receives the active steward's heartbeat, during the boot too (R36, R629). -/
def execHeartbeat (s : State) : Host.Outcome State Fault Refusal :=
  .next (if (s.steward.running || s.boot.started) && !s.steward.lost then { s with steward := { s.steward with lastHeartbeat := s.now } } else s)

/-- STEWARD_TAKEOVER: after five missed heartbeats the steward in T1 becomes active; requests in progress are not
answered, snapshots are not mirrored, and no field is reset (R36 to R38, R652). Before an image runs the standby holds none, and the boot fails
(R629). -/
def execStewardTakeover (s : State) : Host.Outcome State Fault Refusal :=
  .next (
    if s.steward.running && s.reg 0x9010 3 == 1 && s.steward.lastHeartbeat + msCycles 5 ≤ s.now then
      let s := { s with
        steward := { s.steward with lastHeartbeat := s.now }
        dict := { s.dict with snaps := [] }
        host := { s.host with mbBusy := false, mbSent := [] } }
      (((s.setReg 0x9010 1 1).sat32 0x9010 2 1).setReg 0x9010 3 0).raise 0x02 0 1
    else if !s.steward.running && s.boot.started && !s.boot.inputLoss && s.reg 0x9000 1 == 0 && s.steward.lastHeartbeat + msCycles 5 ≤ s.now then
      s.setReg 0x9000 1 0x80
    else s)

/-- STANDBY_STEWARD_FAILED: the standby stops following the active steward (R38). -/
def execStandbyStewardFailed (s : State) : Host.Outcome State Fault Refusal := .next (s.setReg 0x9010 3 0)

/-- MGMT_RING_SEGMENT_FAIL: the segment's bit of MGMT_RING_BROKEN is set and the steward raises an event (R32, R38). -/
def execMgmtRingSegmentFail (segment : Nat) (s : State) : Host.Outcome State Fault Refusal :=
  .next (if segment < 8 then (s.setReg 0x9010 4 (s.reg 0x9010 4 ||| 2 ^ segment)).raise 0x01 0 segment else s)

/-- STRETCH_REQUEST: a governor keeps one request from each level; 0 withdraws it. The field controller's own request
(level 0) follows its state (R35, R63, assumption 17). -/
def execStretchRequest (core level value : Nat) (s : State) : Host.Outcome State Fault Refusal :=
  .next (
    let c := s.core core
    if !coreExists core || !s.fieldUp (coreField core) || level = 0 then s
    else s.setCore core { c with stretch := Map.set 0 c.stretch level (min 16 value) })

/-! ### The regulator loop of a field -/

/-- The deviation lies within ±0.5 % of the target. -/
def inDeadBand (meas target : Nat) : Bool := (max meas target - min meas target) * 200 ≤ target

/-- The step of R57 in setpoint units: 2.5 mV up to an error of 3 %, else 5.0 mV, between 0.60 V and 0.85 V. -/
def loopStep (meas target setpoint : Nat) : Nat :=
  if inDeadBand meas target then setpoint
  else
    let n := if (max meas target - min meas target) * 100 ≤ 3 * target then 2 else 4
    if meas < target then min 680 (setpoint + n) else max 480 (setpoint - n)

/-- The smallest stretch from 0 to 16 that brings a pace to a target plus the dead band (step 1 of R59). -/
def transitionStretch (meas target : Nat) : Nat :=
  ((List.range 17).find? fun k => meas * 16 * 1000 ≤ target * 1005 * (16 + k)).getD 16

/-- V_T of R59 in setpoint units, rounded up. -/
def Field.fallingTo (f : Field) (meas target : Nat) : Nat :=
  max 480 (f.setpoint - (meas - target) * f.slopeDen / f.slopeNum)

/-- The slope measured over a settled transition, when pace and voltage moved the same way (R59, assumption 18). -/
def Field.withSlope (f : Field) (meas : Nat) : Field :=
  match f.since with
  | none => f
  | some (m0, v0) =>
    if (meas < m0 && f.setpoint < v0) then { f with slopeNum := m0 - meas, slopeDen := v0 - f.setpoint, since := none }
    else if (m0 < meas && v0 < f.setpoint) then { f with slopeNum := meas - m0, slopeDen := f.setpoint - v0, since := none }
    else { f with since := none }

/-- FIELD_PACE_LIMITER (R56). -/
def State.limiterBits (s : State) (f : Nat) (ceiling : Bool) : BitVec 8 :=
  let low := s.lowestLimit f
  let base := (s.paceLimits f).foldl (fun n l => if l.1 = low then n ||| 2 ^ l.2 else n) 0
  BitVec.ofNat 8 (base + (if low < 1000 then 32 else 0) + (if ceiling then 64 else 0))

/-- The loop at a window's end in a field whose ring works (R54 to R59, R76, R80): the target is recomputed, a changed
target begins a transition, and the setpoint makes one step; one that has made no step, at the target, at the ceiling or at the
floor, is held (R78). A transition stretch also holds the cores back while a rising target's
transition overshoots the dead band: R58 asks for the result and names no means (assumption 71, DESIGN CHOICE). -/
def State.regulate (s : State) (f meas : Nat) : State :=
  let k := s.field f
  let target := max 1000 (s.lowestLimit f)
  let ceiling := k.setpoint == 680 && decide (meas < target) && !inDeadBand meas target
  let k := if target < k.target then
      { k with since := some (meas, k.setpoint), falling := some (k.fallingTo meas target) }
    else if k.target < target then { k with since := some (meas, k.setpoint), falling := none }
    else k
  let k := { k with target := target, meas := meas, limiter := s.limiterBits f ceiling,
                    transition := if k.since.isSome then transitionStretch meas target else 0 }
  let settled := inDeadBand meas target && k.transition = 0
  let k := if settled then { k with falling := none } else k
  let k := match k.falling with
    | some vt => if vt < k.setpoint then { k with setpoint := max vt (k.setpoint - 4) }
                 else { k with falling := none, setpoint := loopStep meas target k.setpoint }
    | none => { k with setpoint := loopStep meas target k.setpoint }
  let k := match k.falling with
    | some vt => if k.setpoint ≤ vt then { k with falling := none } else k
    | none => k
  let k := if settled then k.withSlope meas else k
  let k := if k.setpoint = (s.field f).setpoint && k.falling.isNone then { k with held := Map.set 0 k.held target k.setpoint } else k
  let s := s.setField f k
  if ceiling then s.sat32 0x2205 (f + 1) 1 else s

/-- The replica ring failed (R77): the setpoint goes to 0.60 V, the stretch is 2, FIELD_PACE_MEAS reads 0. -/
def State.ringFailed (s : State) (f : Nat) : State :=
  let k := s.field f
  let s := if k.ringFault then s else s.raise 0x03 (f / 8) f
  s.setField f { k with
    ringFault := true
    meas := 0
    transition := 2
    falling := none
    since := none
    target := max 1000 (s.lowestLimit f)
    limiter := s.limiterBits f false ||| 0x80
    setpoint := max 480 (k.setpoint - 4) }

/-- The loop of a dark or reset field is idle (R78): its target and its limiter follow the limits all the same (R55, R83), FIELD_PACE_MEAS
reads 0, and RING_FAULT stays until the reset that retests the ring (R77). -/
def State.idleLoop (s : State) (f : Nat) : State :=
  let k := s.field f
  s.setField f { k with
    meas := 0
    target := max 1000 (s.lowestLimit f)
    limiter := s.limiterBits f false ||| (if k.ringFault then 0x80 else 0) }

/-- What a field controller does with the count of a window (R57, R77, R78). -/
def State.takeCount (s : State) (field count : Nat) : State :=
  if !s.fieldUp field then s.idleLoop field
  else if (s.field field).ringFault || count < 500 || 2200 < count then s.ringFailed field
  else s.regulate field count

/-- The beats of a window that passed on a core without an issue: a core none of whose contexts is READY has counted on to the
window's end, at the field's count under its stretch, and they were idle (R61, R72, R129, R141; assumption 68). Where the stretch has
changed within the window, the whole window counts under the one in force at its end (assumption 87, DESIGN CHOICE: the spec does not say
when within a window a new stretch takes hold). -/
def State.passBeats (s : State) (core count : Nat) : State :=
  if !s.coreUp core then s
  else
    let c := s.core core
    let due := c.windowBeats + count * 16 / (16 + s.appliedStretch core)
    let beats := if c.ctxs.all fun e => e.2.state != .ready then max c.beats due else c.beats
    (s.setCore core { c with beats := beats, windowBeats := beats }).towerWrap 0xB011 (coreTower core) (beats - c.beats)

/-- PACE_WINDOW: at the end of each of the consecutive windows of 1,200 cycles the field controller takes the ring's count, and the
field's entries are refreshed (R53, R57, R77 to R79, R83). -/
def execPaceWindow (field count : Nat) (s : State) : Host.Outcome State Fault Refusal :=
  .next (
    let k := s.field field
    if 64 ≤ field || s.now < k.windowAt + usCycles 1 then s
    else
      let s := (fieldCores field).foldl (fun (s : State) c => s.passBeats c count) s
      let s := (s.setField field { k with windowAt := k.windowAt + usCycles 1 }).takeCount field count
      s.setField field { s.field field with shownSetpoint := (s.field field).setpoint })

/-! ### The links rail -/

def State.linksRail (s : State) (t : Nat) : Links := Map.get {} s.links t

/-- The link pace target: the highest effective target among the tower's powered fields, 1,000 Mbeat/s with none (R65). -/
def State.linkTarget (s : State) (t : Nat) : Nat :=
  (List.range 8).foldl (fun m i => if s.fieldUp (8 * t + i) then max m (s.field (8 * t + i)).target else m) 1000

/-- CORE_STRETCH_MAP of a tower: the applied stretch, 0xFF for a core not in service or in a dark field (R82). -/
def State.towerStretches (s : State) (t : Nat) : Map Nat :=
  (List.range 1280).filterMap fun i =>
    let c := t * 2048 + i
    let v := if s.inService c && (s.field (coreField c)).rail != .dark then s.appliedStretch c else 0xFF
    if v = 0 then none else some (c, v)

/-- The links rails are off or held: in SHUTDOWN, and after an input loss (R589, R694). -/
def State.railsCut (s : State) : Bool := s.reg 0x3000 7 == 4 || s.boot.inputLoss

/-- LINK_PACE_WINDOW: at the end of each window the supervisor takes the slowest of the four link rings and steps the links setpoint;
the tower's entries are refreshed (R65, R66, R83). A rail that is off or held makes no step. -/
def execLinkPaceWindow (tower slowest : Nat) (s : State) : Host.Outcome State Fault Refusal :=
  .next (
    let l := s.linksRail tower
    if 8 ≤ tower || s.now < l.windowAt + usCycles 1 then s
    else
      let target := s.linkTarget tower
      let meas := if s.railsCut && l.setpoint = 0 then 0 else slowest
      let l : Links := { meas := meas, target := target, setpoint := if s.railsCut then l.setpoint else loopStep meas target l.setpoint,
                         windowAt := l.windowAt + usCycles 1, stretches := s.towerStretches tower }
      { s with links := Map.set {} s.links tower l })

/-- PACE_HOST_TARGET_WRITE: the value is stored clamped and is limit 1 of R54 (R81). -/
def execPaceHostTargetWrite (v : BitVec 16) (s : State) : Host.Outcome State Fault Refusal :=
  .next (s.written ((s.setReg 0x2200 1 (clamp 1000 1800 v.toNat)).save 0x2200 1 (natToBytes 2 (clamp 1000 1800 v.toNat))))

end Sys2Proof.Machine
end

