-- ==== Sys2Proof/Machine/Thermal.lean ====
section
/-! DEFINITION. Thermal sensing, forecasting and throttling (spec file 15_thermal_control.md). -/
namespace Sys2Proof.Machine

/-! ### Temperatures -/

/-- One degree in the unit in which temperatures are computed: every quotient of R575 is a whole number of units. -/
def degree : Int := 28800000 * 720720

/-- The unit of readings, 0.125 °C. -/
def eighth : Int := degree / 8

/-- The binary32 nearest to a temperature. -/
def tempF32 (t : Int) : Word32 := (writeF32 (.num (Dy.div 60 (Dy.ofInt t) (Dy.ofInt degree)))).1

/-- A finite binary32 value times n ÷ d, rounded down. -/
def f32Times (x : Word32) (n : Int) (d : Nat) : Int :=
  match (readF32 x).1 with
  | .num v =>
    let m : Int := (if v.neg then -(v.mag : Int) else v.mag) * n
    if 0 ≤ v.exp then m * 2 ^ v.exp.toNat / d else m / (d * 2 ^ (-v.exp).toNat)
  | .nan => 0

def State.throttleC (s : State) : Int := s.reg 0x3000 1 * degree

def State.sensor (s : State) (t n : Nat) : Sensor := Map.get {} s.thermal.sensors (256 * t + n)
def State.setSensor (s : State) (t n : Nat) (v : Sensor) : State :=
  { s with thermal := { s.thermal with sensors := Map.set {} s.thermal.sensors (256 * t + n) v } }

/-! ### Arbitration (R571 to R574) -/

/-- A reading is valid (R572). -/
def readingValid (last r : Option Int) : Bool :=
  match r with
  | none => false
  | some r => -160 ≤ r && r ≤ 1200 && (match last with
    | none => true
    | some l => l - 80 ≤ r && r ≤ l + 80)

/-- A sensor's new sample; the third invalid one in a row makes it faulty. -/
def State.sampleSensor (s : State) (t n : Nat) (r : Option Int) : State :=
  let k := s.sensor t n
  let ok := readingValid k.last r
  let bad := if ok then 0 else min 3 (k.bad + 1)
  let fails := !k.faulty && bad == 3
  let faulty := k.faulty || fails
  let shown : BitVec 16 := if ok && !faulty then BitVec.ofInt 16 (r.getD 0) else 0x8000
  let s := s.setSensor t n { last := r, shown := shown, bad := bad, faulty := faulty }
  if fails then ((s.towerSat 0xBB01 t 1).setFlags 0x3000 8 8).raise 0x18 t n else s

/-- The reading of a sensor that is valid in this sample. -/
def State.good (s : State) (t n : Nat) : Option Int :=
  let k := s.sensor t n
  if k.bad = 0 && !k.faulty then k.last else none

/-- A pair's value where one of its sensors is valid, in units of 0.125 °C. -/
def State.pairGood (s : State) (t p : Nat) : Option Int :=
  match s.good t (2 * p), s.good t (2 * p + 1) with
  | some a, some b => some (max a b)
  | some a, none => some (a + 24)
  | none, some b => some (b + 24)
  | none, none => none

/-- 20 ms of samples. -/
def disagreeSamples : Nat := 2000

/-- A pair's watch over disagreement (R574). -/
def State.watchPair (s : State) (t p : Nat) : State :=
  let w := Map.get {} s.thermal.watches (128 * t + p)
  let (apart, agree) :=
    match s.good t (2 * p), s.good t (2 * p + 1) with
    | some a, some b => if 40 < (a - b).natAbs then (min disagreeSamples (w.apart + 1), 0) else (0, min disagreeSamples (w.agree + 1))
    | _, _ => (0, 0)
  let raised := if w.raised then agree < disagreeSamples else apart == disagreeSamples
  let s := { s with thermal := { s.thermal with
    watches := Map.set {} s.thermal.watches (128 * t + p) { apart := apart, agree := agree, raised := raised } } }
  if raised && !w.raised then (s.setFlags 0x3000 8 16).raise 0x19 t (2 * p) else s

/-- Highest of a list, or a rest value for an empty one. -/
def highest (rest : Int) : List Int → Int
  | [] => rest
  | x :: xs => xs.foldl max x

/-- The compute-tier pair of a cluster. Where no pair of the field has a valid sensor the spec states none: a free value (assumption
47). -/
def State.clusterTemp (s : State) (t c : Nat) : Int :=
  match s.pairGood t c with
  | some v => v
  | none =>
    let others := (((List.range 80).filter fun d => d != c && clusterField d == clusterField c).filterMap (s.pairGood t))
    if others.isEmpty then (Config.freeWord (s.fresh + c)).toInt else highest 0 others + 24

/-- The ten clusters of a field of a tower. -/
def fieldClusters (f : Nat) : List Nat := (List.range 80).filter fun c => clusterField c == f % 8

/-- What a field controller forms from a sample (R575), in units of 0.125 °C. -/
structure Temps where
  clusters : List (Nat × Int)
  tf : Int
  d15 : Int
  d0 : Int
  floor : Int
  deriving DecidableEq, Repr

def State.temps (s : State) (f : Nat) : Temps :=
  let t := f / 8
  let cs := (fieldClusters f).map fun c => (c, s.clusterTemp t c)
  let tf := highest 0 (cs.map (·.2))
  let a := s.pairGood t (80 + 2 * (f % 8))
  let b := s.pairGood t (81 + 2 * (f % 8))
  let a' := a.getD (match b with
    | some v => v + 24
    | none => tf)
  let b' := b.getD (match a with
    | some v => v + 24
    | none => tf)
  let d15 := max a' b'
  { clusters := cs, tf := tf, d15 := d15
    d0 := (s.pairGood t (96 + f % 8)).getD d15
    floor := (s.pairGood t (104 + f % 8)).getD 840 }

/-- Temperature of layer L (R575). -/
def State.layerTemp (s : State) (f : Nat) (k : Temps) (l : Nat) : Int :=
  let active : Nat := Map.get 0 (s.field f).lastDuty l
  if l = 0 then k.d0 * eighth
  else if l = 15 then k.d15 * eighth
  else k.d0 * eighth + (k.d15 - k.d0) * (eighth / 15) * l + 3 * 720720 * active

/-! ### DRAM bands (R310) -/

/-- How many of the bands' lower bounds, each lowered by `less` degrees, a temperature exceeds. -/
def boundsBelow (t : Int) (less : Int) : Nat := ([85, 95, 100, 105].filter fun b => decide ((b - less) * degree < t)).length

/-- The band of a layer after a sample. -/
def nextBand (old : Nat) (t : Int) : Nat := max (boundsBelow t 0) (min old (boundsBelow t 2))

/-- The layer temperatures and bands of a field renewed. -/
def State.setLayers (s : State) (f : Nat) (k : Temps) : State :=
  let ts := (List.range 16).map (s.layerTemp f k)
  let v := s.field f
  let bands := (List.zip (List.range 16) ts).foldl (fun m x => Map.set 0 m x.1 (nextBand (Map.get 0 v.bands x.1) x.2)) v.bands
  let s := { s.setField f { v with bands := bands } with
    thermal := { s.thermal with layers := Map.set [] s.thermal.layers f ts } }
  if bands.any fun e => 3 ≤ e.2 then s.setFlags 0x3000 8 4 else s

/-! ### Core temperatures and the forecast (R575 to R577) -/

/-- Counts of kinds 0 to 5 of a core in a list. -/
def countsOf (counts : List (Nat × List Nat)) (core : Nat) : List Nat := ((counts.find? fun e => e.1 == core).map (·.2)).getD []

/-- What a tower's cores have counted of kinds 0 to 5 (R551). -/
def State.spentBy (s : State) (t : Nat) : List (Nat × List Nat) :=
  (s.cores.filter fun e => coreTower e.1 == t).map fun e => (e.1, (List.range 6).map fun k => Map.get 0 e.2.spent k)

/-- A core's power in µW over the last 100 µs, from what it has counted of kinds 0 to 5 since the sample ten windows before, and with it
`counts`, the events that no command shows (R575, assumption 44). -/
def State.corePower (s : State) (counts : List (Nat × List Nat)) (core : Nat) : Nat :=
  let marks := Map.get [] s.thermal.marks (coreTower core)
  let before := if marks.length < 10 then [] else countsOf (marks.headD []) core
  let more := countsOf counts core
  let n := (List.range 6).map fun k => Map.get 0 (s.core core).spent k - before.getD k 0 + more.getD k 0
  let v := (s.field (coreField core)).setpoint
  let fj := ((List.range 6).map (kindEnergy n)).sum * (v * v) / 360000
  fj * s.reg 0x2104 (coreField core + 1) / (1024 * 10 ^ 5)

/-- The temperature of each core in service of a field, in order of channel index. -/
def State.coreTemps (s : State) (f : Nat) (k : Temps) (counts : List (Nat × List Nat)) : List (Nat × Int) :=
  k.clusters.flatMap fun (c, v) =>
    let cores := ((List.range 16).map fun i => f / 8 * 2048 + c * 16 + i).filter s.inService
    let ps := cores.map (s.corePower counts)
    let n := cores.length
    (List.zip cores ps).map fun (core, p) =>
      (core, v * eighth + (if ps.sum < n * p then ((n * p - ps.sum : Nat) : Int) * 576 * (720720 / n : Nat) else 0))

/-- RTH_EST of a tower (R576). -/
def State.rthEst (s : State) (t : Nat) : Word32 := (Map.get none s.thermal.rth t).getD (Config.rthBase t)

/-- TF_PRED less TF (R577): 0.40 × 8 × RTH_EST × the forecast rise, which is in mW × 1,024. -/
def State.predictedRise (s : State) (f : Nat) : Int :=
  f32Times (s.rthEst (f / 8)) ((s.forecastRise f : Int) * degree * 2) (625 * 1024)

/-! ### The throttling procedure (R578) -/

/-- The hottest core whose stretch is below 16; of equals the lowest channel index. -/
def hottest (temps : List (Nat × Int)) (stretch : Nat → Nat) : Option (Nat × Int) :=
  (temps.filter fun e => stretch e.1 < 16).foldl (fun best e =>
    match best with
    | none => some e
    | some b => if b.2 < e.2 then some e else some b) none

/-- thermal_step() for a powered field. -/
def State.thermalStep (s : State) (f : Nat) (k : Temps) (temps : List (Nat × Int)) : State :=
  let v := s.field f
  let stop := thermalState s == 3
  let limit := s.throttleC
  let margin : Int := s.reg 0x3000 3 * degree
  let rise := s.predictedRise f
  let tf := k.tf * eighth
  let pred := tf + rise
  let th (c : Nat) : Nat := Map.get 0 v.thermal c
  let c := hottest temps th
  let steps := match c with
    | some (_, t) => decide (limit ≤ t)
    | none => false
  let raise (v : Field) : Field := match c with
    | some (core, _) =>
      if steps then { v with
        thermal := Map.set 0 v.thermal core (th core + 1), released := Map.set 0 v.released core s.now } else v
    | none => v
  let release (v : Field) (e : Nat × Int) : Field :=
    let old := Map.get 0 v.thermal e.1
    if 0 < old && c.map (·.1) ≠ some e.1 && e.2 < limit - 2 * degree && Map.get 0 v.released e.1 + usCycles 100 ≤ s.now && !stop then
      { v with thermal := Map.set 0 v.thermal e.1 (old - 1), released := Map.set 0 v.released e.1 s.now }
    else v
  let v := temps.foldl release (raise v)
  let g := v.thermal.length
  let band := v.bands.foldl (fun m e => max m e.2) 0
  let fall10 := 16 < g || 3 ≤ band || 840 ≤ k.floor
  let fall5 := decide (limit - margin ≤ pred)
  let lim := v.thermalLimit
  let next :=
    if fall10 then max 1000 (lim - 10)
    else if fall5 then max 1000 (lim - 5)
    else if g ≤ 8 && pred < limit - margin - 2 * degree && tf < limit - 2 * degree && !stop then min 1800 (lim + 5)
    else lim
  let s := s.setField f { v with
    thermalLimit := next
    henForecast := bandHens (boundsBelow (k.d15 * eighth + rise) 0) }
  let s := if steps then s.towerWrap 0xBB00 (f / 8) 1 else s
  let s := if 0 < g || next < lim then s.setFlags 0x3000 8 1 else s
  let s := if !fall10 && next < lim then s.setFlags 0x3000 8 2 else s
  s.setReg 0x3002 (f + 1) (tempF32 pred).toNat

/-! ### THERMAL_STATE and the flags (R588, R592 to R594) -/

/-- TRAY_AGE_MS. -/
def State.trayAge (s : State) : Nat :=
  match s.thermal.trayAt with
  | none => 0xFFFFFFFF
  | some t => min 0xFFFFFFFF ((s.now - t) / msCycles 1)

/-- TRAY_AGE_MS exceeds 5,000 (R587). -/
def State.trayStale (s : State) : Bool := decide (5000 < s.trayAge)

/-- The reported flow is below 2.0 L/min (R585). -/
def State.flowLow (s : State) : Bool :=
  !s.trayStale && Val.lt (readF32 (BitVec.ofNat 32 (s.reg 0x3010 2))).1 (.num (Dy.ofInt 2))

/-- A core is governed, or a field's limit is lowered. -/
def State.throttled (s : State) : Bool := (List.range 64).any fun f => !(s.field f).thermal.isEmpty || (s.field f).thermalLimit < 1800

/-- The highest state that applies where neither COOLANT_STOP nor SHUTDOWN does. -/
def State.calmState (s : State) : Nat :=
  if s.thermal.degraded then 2
  else if s.throttled then 1
  else 0

def State.refreshThermalState (s : State) : State :=
  if 3 ≤ thermalState s then s else s.setReg 0x3000 7 s.calmState

/-- Flags whose condition still holds at the end of a sample. -/
def State.heldThermalFlags (s : State) : Nat :=
  (if s.throttled then 1 else 0) + (if s.thermal.sensors.any fun e => e.2.faulty then 8 else 0) + (if s.thermal.watches.any fun e => e.2.raised then 16 else 0) +
  (if s.thermal.degraded then 32 else 0) + (if s.flowLow then 64 else 0) +
  (if thermalState s = 3 then 128 else 0) + (if thermalState s = 4 then 256 else 0) + (if s.trayStale then 512 else 0)

/-! ### Coolant stop (R586) -/

/-- Clusters of the tower that are 1.0 °C or more above their value 50 samples before. -/
def risen (h : List (List Int)) : Nat :=
  if h.length = 51 then
    ((List.zip (h.headD []) (h.getLastD [])).filter fun e => decide (e.1 + 8 ≤ e.2)).length
  else 0

/-- The steps of R586, in every tower; a second detection changes nothing. -/
def State.coolantStop (s : State) (t : Nat) : State :=
  if 3 ≤ thermalState s then s
  else
    let s := (List.range 64).foldl (fun (s : State) f =>
      if s.fieldUp f then
        let cores := (fieldCores f).filter s.inService
        s.setField f { s.field f with
          thermalLimit := 1000
          thermal := cores.map fun c => (c, 16)
          released := cores.foldl (fun m c => Map.set 0 m c s.now) [] }
      else s) s
    let s := (List.range 8).foldl (fun (s : State) n => s.setLink n { s.link n with thermal := true }) s
    let s := (s.setReg 0x4200 7 1).updateHalts.refreshHolds
    (((s.setReg 0x3000 7 3).setFlags 0x3000 8 128).sat32 0xBB02 1 1).raise 0x1B t t

/-- Detail of a trip in a tower: a sensor that tripped, 0xFFFF for a layer (R580). -/
def State.trip (s : State) (t : Nat) : Option Nat :=
  let pair (p : Nat) : Bool := match s.pairGood t p with
    | some v => if 104 ≤ p then 1000 ≤ v else 880 ≤ v
    | none => false
  match (List.range 112).find? pair with
  | some p =>
    match s.good t (2 * p), s.good t (2 * p + 1) with
    | some a, some b => some (if a < b then 2 * p + 1 else 2 * p)
    | none, some _ => some (2 * p + 1)
    | _, none => some (2 * p)
  | none =>
    if (List.range 8).any fun i => (Map.get [] s.thermal.layers (8 * t + i)).any fun v => decide (110 * degree ≤ v) then some 0xFFFF
    else none

/-- One field of a tower at the end of a sample. -/
def State.thermalField (s : State) (f : Nat) (counts : List (Nat × List Nat)) : State :=
  let k := s.temps f
  let s := s.setLayers f k
  let tf := (tempF32 (k.tf * eighth)).toNat
  let s := (s.setReg 0x3001 (f + 1) tf).setReg 0x3002 (f + 1) tf
  let s := if s.fieldUp f then s.thermalStep f k (s.coreTemps f k counts) else s
  s.setReg 0x3003 (f + 1) (s.field f).thermalLimit

/-- THERMAL_STEP: at the end of a 10 µs sample a tower's sensors are arbitrated, its fields forecast and adjust stretch, limit and hen
limit, and the tower supervisor looks for a coolant stop and a trip. `readings` holds the 224 conversions in units of 0.125 °C, none
for a failed one; `counts` the events of the last 100 µs that no command shows (assumption 44); `coolantLow` says that COOLANT_OK was low
for the whole sample. The samples are those of the reference count, from the boot on (assumption 94). -/
def execThermalStep (t : Nat) (readings : List (Option Int)) (counts : List (Nat × List Nat)) (coolantLow : Bool) (s : State) :
    Host.Outcome State Fault Refusal :=
  .next (
    if 8 ≤ t || !s.boot.started || s.now / usCycles 10 ≤ Map.get 0 s.thermal.windows t then s
    else
      let s := { s with thermal := { s.thermal with windows := Map.set 0 s.thermal.windows t (s.now / usCycles 10) } }
      let s := (List.range 224).foldl (fun (s : State) n => s.sampleSensor t n (readings.getD n none)) s
      let s := (List.range 112).foldl (fun (s : State) p => s.watchPair t p) s
      let now := (List.range 80).map (s.clusterTemp t)
      let hist := Map.get [] s.thermal.history t ++ [now]
      let sum := Map.get {} s.thermal.sums t
      let th := s.thermal
      let s := { s with thermal := { th with
        history := Map.set [] th.history t (hist.drop (hist.length - 51))
        sums := Map.set {} th.sums t { sum with
          temps := sum.temps + now.foldl (· + ·) 0
          power := sum.power + s.reg 0x2010 (t + 2)
          samples := sum.samples + 1 } } }
      let s := (List.range 8).foldl (fun (s : State) i => s.thermalField (8 * t + i) counts) s
      let s := { s with
        fresh := s.fresh + 80
        thermal := { s.thermal with marks := Map.upd [] s.thermal.marks t fun l => (l ++ [s.spentBy t]).drop (l.length + 1 - 10) } }
      let rise := 4 ≤ risen (hist.drop (hist.length - 51))
      let s := if rise then { s with thermal := { s.thermal with riseAt := some s.now } } else s
      let s := if rise || (coolantLow && s.reg 0x3000 4 ≠ 0) then s.coolantStop t else s
      let s := match s.trip t with
        | some d => s.controlledShutdown t d
        | none => s
      let s := s.updateHalts.refreshThermalState
      s.setFlags 0x3000 8 s.heldThermalFlags)

/-! ### Once per second (R576, R584, R585) -/

/-- The inlet temperature in use (R587). -/
def State.inlet (s : State) : Val := if s.trayStale then .num (Dy.ofInt 40) else (readF32 (BitVec.ofNat 32 (s.reg 0x3010 1))).1

/-- RTH_ESTIMATE: the mean of the tower's pair values less the inlet, divided by the mean input power of the second. -/
def execRthEstimate (t : Nat) (s : State) : Host.Outcome State Fault Refusal :=
  .next (
    let k := Map.get {} s.thermal.sums t
    if 8 ≤ t || s.now < k.since + secCycles 1 then s
    else
      let s := { s with thermal := { s.thermal with sums := Map.set {} s.thermal.sums t { since := s.now } } }
      if k.samples = 0 || k.power < 50000 * k.samples then s
      else
        let temps := Val.sub (.num (Dy.ofInt k.temps)) (Val.mul (.num (Dy.ofInt (640 * k.samples))) s.inlet)
        let r := Val.div (Val.mul temps (.num (Dy.ofInt 1000))) (.num (Dy.ofInt (640 * k.power)))
        { s with thermal := { s.thermal with rth := Map.set none s.thermal.rth t (some (writeF32 r).1) } })

/-- RTH_EST ÷ RTH_BASE of a tower compared with n ÷ d: more than. -/
def State.ratioAbove (s : State) (t : Nat) (n d : Int) : Bool :=
  Val.lt (Val.mul (readF32 (Config.rthBase t)).1 (.num (Dy.ofInt n))) (Val.mul (readF32 (s.rthEst t)).1 (.num (Dy.ofInt d)))

/-- The reported flow, where one is in use. -/
def State.flow (s : State) : Option Dy :=
  if s.trayStale then none
  else match (readF32 (BitVec.ofNat 32 (s.reg 0x3010 2))).1 with
    | .num d => some d
    | .nan => none

/-- The ratio of R584 exceeds n ÷ d; the flow's part of it is 2.2 ÷ flow. -/
def State.flowRatioAbove (s : State) (n d : Int) : Bool :=
  ((List.range 8).any fun t => s.ratioAbove t n d) ||
  (match s.flow with
   | some q => (q.mul (Dy.ofInt (10 * n))).lt (Dy.ofInt (22 * d))
   | none => false)

/-- A quotient of two non-negative exact values, rounded down. -/
def floorDiv (a b : Dy) : Nat :=
  let e := a.exp - b.exp
  if b.mag = 0 then 0
  else if 0 ≤ e then a.mag * 2 ^ e.toNat / b.mag else a.mag / (b.mag * 2 ^ (-e).toNat)

/-- 1,800 × 1.10 ÷ ratio W, rounded down. -/
def State.capTarget (s : State) : Nat :=
  let of (t : Nat) : Nat :=
    match (readF32 (Config.rthBase t)).1, (readF32 (s.rthEst t)).1 with
    | .num b, .num e => if e.neg || e.isZero then 1800 else floorDiv (b.mul (Dy.ofInt 1980)) e
    | _, _ => 1800
  let byFlow := match s.flow with
    | some q => [floorDiv (q.mul (Dy.ofInt 900)) Dy.one]
    | none => []
  ((List.range 8).map of ++ byFlow).foldl min 1800

/-- Ratio × 1,000, rounded down, for the event; at most 0xFFFF_FFFF. -/
def State.ratioMilli (s : State) : Nat :=
  let of (t : Nat) : Nat :=
    match (readF32 (Config.rthBase t)).1, (readF32 (s.rthEst t)).1 with
    | .num b, .num e => if e.neg then 0 else floorDiv (e.mul (Dy.ofInt 1000)) b
    | _, _ => 0
  let byFlow := match s.flow with
    | some q => if q.isZero then [0xFFFFFFFF] else [floorDiv (Dy.ofInt 2200) q]
    | none => []
  min 0xFFFFFFFF (((List.range 8).map of ++ byFlow).foldl max 0)

/-- A value moved toward another by at most 36. -/
def moveBy36 (v target : Nat) : Nat := if target < v then max target (v - 36) else min target (v + 36)

/-- THERMAL_CAP_UPDATE: the steward moves THERMAL_CAP_W by the ratio, and notes the degraded flow. -/
def execThermalCapUpdate (s : State) : Host.Outcome State Fault Refusal :=
  .next (
    if !s.steward.running || s.steward.lost || s.now < s.thermal.capAt + secCycles 1 then s
    else
      let s := { s with thermal := { s.thermal with capAt := s.now } }
      let cap := s.reg 0x3011 9
      let s :=
        if s.flowRatioAbove 11 10 then
          let first := !s.thermal.degraded
          let s := { s.setReg 0x3011 9 (moveBy36 cap s.capTarget) with thermal := { s.thermal with degraded := true } }
          if first then (s.setFlags 0x3000 8 32).raise 0x1A 0 s.ratioMilli else s
        else if s.flowRatioAbove 105 100 then s
        else { s.setReg 0x3011 9 (moveBy36 cap 1800) with thermal := { s.thermal with degraded := false } }
      s.refreshThermalState)

/-! ### The tray (R585, R587, R595) -/

/-- A finite value from 0.0 to 100.0. -/
def trayValue (v : Word32) : Bool :=
  v.toNat / 2 ^ 23 % 256 ≠ 255 &&
  (match (readF32 v).1 with
   | .num d => (Dy.zero.le d) && d.le (Dy.ofInt 100)
   | .nan => false)

def State.writeTray (s : State) (sub : Nat) (v : Word32) : State :=
  { s.setReg 0x3010 sub v.toNat with thermal := { s.thermal with trayAt := some s.now } }

def execTrayInletCWrite (v : Word32) (s : State) : Host.Outcome State Fault Refusal :=
  .next (s.written (if trayValue v then s.writeTray 1 v else s))

/-- TRAY_FLOW_LPM_WRITE: a flow below 2.0 L/min sets FLOW_LOW; a flow of 0.0 starts the coolant-stop sequence. -/
def execTrayFlowLpmWrite (v : Word32) (s : State) : Host.Outcome State Fault Refusal :=
  .next (s.written (
    if !trayValue v then s
    else
      let s := s.writeTray 2 v
      let s := if s.flowLow then s.setFlags 0x3000 8 64 else s
      if (s.flow.map (·.isZero)) = some true then s.coolantStop 0 else s))

/-- TRAY_STALE: tray entries older than 5 s, or never written, are no longer used. -/
def execTrayStale (s : State) : Host.Outcome State Fault Refusal :=
  .next (if s.trayStale then s.setFlags 0x3000 8 512 else s)

/-! ### Resume (R588) and the flags -/

/-- The conditions of R588. -/
def State.mayResume (s : State) : Bool :=
  (s.pins.coolantOk || s.reg 0x3000 4 == 0) &&
  (List.range 8).all (fun t => ((Map.get [] s.thermal.history t).getLastD []).all fun v => decide (v * eighth < s.throttleC - 10 * degree)) &&
  (match s.thermal.riseAt with
   | some t => decide (t + msCycles 100 < s.now)
   | none => true)

/-- THERMAL_RESUME: leaves COOLANT_STOP. -/
def execThermalResume (v : Byte) (s : State) : Host.Outcome State Fault Refusal :=
  .next (s.written (
    if v ≠ 1 || thermalState s ≠ 3 || !s.mayResume then s
    else
      let s := (List.range 8).foldl (fun (s : State) n => s.setLink n { s.link n with thermal := false }) s
      ((s.setReg 0x4200 7 0).setReg 0x3000 7 0).updateHalts.refreshHolds.refreshThermalState))

/-- THERMAL_FLAGS is cleared by writing 1; reserved bits change nothing. -/
def execThermalFlagsWrite (v : BitVec 16) (s : State) : Host.Outcome State Fault Refusal :=
  .next (s.written (if v.toNat / 1024 ≠ 0 then s else s.clearFlags 0x3000 8 v.toNat))

end Sys2Proof.Machine
end

