-- ==== Sys2Proof/Machine/ResetOps.lean ====
section
/-! DEFINITION. Resets, the defect map and its log, and the self-test's results: what the rows of the spec file
16_bring_up_reset_and_repair.md share. -/
namespace Sys2Proof.Machine

/-! ### The defect log (R614) -/

/-- KIND codes of DEFECT_LOG. -/
def defectCore : Nat := 1
def defectArray : Nat := 2
def defectSlice : Nat := 3
def defectChannel : Nat := 4
def defectHens : Nat := 5
def defectSensor : Nat := 6
def defectPhase : Nat := 7
def defectTower : Nat := 8
def defectLane : Nat := 9
def defectRow : Nat := 10

/-- An entry written at DEFECT_LOG_HEAD; `unit` is the 14-bit core id form. -/
def State.logDefect (s : State) (kind source action unit detail : Nat) : State :=
  let head := s.reg 0x9008 2
  let entry := (s.refTime (unit / 2048)).toNat * 2 ^ 64 + kind * 2 ^ 60 + source * 2 ^ 58 + action * 2 ^ 56 + unit * 2 ^ 34 + detail
  { s with defectLog := Map.set 0 s.defectLog head (BitVec.ofNat 128 entry) }.setReg 0x9008 2 ((head + 1) % 256)

/-! ### The repair table (R608, R626) -/

/-- The entry is saved, unless the table is full; whether it is in the table. -/
def State.saveRepair (s : State) (r : Repair) : Bool × State :=
  if s.repairs.contains r then (true, s)
  else if 4096 ≤ s.repairs.length then (false, s)
  else
    let l := s.repairs ++ [r]
    (true, { s with repairs := l }.setReg 0x9005 4 l.length)

def State.removeRepair (s : State) (r : Repair) : State :=
  let l := s.repairs.filter (· != r)
  { s with repairs := l }.setReg 0x9005 4 l.length

/-- The spare word of an array: the fuse word with every repair of the table applied (R172, R608). -/
def State.spareWord (s : State) (core a : Nat) : BitVec 16 :=
  s.repairs.foldl (fun (w : BitVec 16) r => match r with
    | .spare c b v =>
      if c = core && b = a then
        let w := if v.getLsbD 15 then (w &&& 0x00FF) ||| (v &&& 0xFF00) else w
        if v.getLsbD 7 then (w &&& 0xFF00) ||| (v &&& 0x00FF) else w
      else w
    | _ => w) (Config.fuseSpare (4 * core + a) &&& 0x8F8F)

def State.bypassed (s : State) (core : Nat) : Bool := s.repairs.contains (.bypass core)

/-! ### Units out of service (R610) -/

/-- A core or slice put out of service or taken back: in the published map, or before that in what the boot's tests found. -/
def State.markCore (s : State) (core : Nat) (out : Bool) : State :=
  let put (l : List Nat) : List Nat := if out then (if l.contains core then l else l ++ [core]) else l.filter (· != core)
  let f := coreField core
  let v := s.field f
  let s := s.setField f { v with
    thermal := Map.set 0 v.thermal core 0, released := Map.set 0 v.released core 0 }
  if s.dm.published then { s with dm := { s.dm with cores := put s.dm.cores } }
  else { s with boot := { s.boot with badCores := put s.boot.badCores } }

def State.markSlice (s : State) (pos : Nat) (out : Bool) : State :=
  let put (l : List Nat) : List Nat := if out then (if l.contains pos then l else l ++ [pos]) else l.filter (· != pos)
  if s.dm.published then { s with dm := { s.dm with slices := put s.dm.slices } }
  else { s with boot := { s.boot with badSlices := put s.boot.badSlices } }

def State.coreOut (s : State) (core : Nat) : Bool :=
  Config.fuseCore core || (if s.dm.published then s.dm.cores else s.boot.badCores).contains core
def State.sliceOut (s : State) (pos : Nat) : Bool :=
  Config.fuseSlice pos || (if s.dm.published then s.dm.slices else s.boot.badSlices).contains pos

/-- A tower that is out: by its fuses, or by what the boot's tests found. -/
def State.towerOut (s : State) (t : Nat) : Bool :=
  Config.fuseTower t || s.boot.badTowers.contains t || s.dm.towers.contains t

/-! ### Self-test (R607 to R610, R618) -/

/-- A unit found failing is counted (SELFTEST_FAILURES). -/
def State.countFailure (s : State) (t : Nat) : State := s.towerSat 0xBC01 t 1

/-- The sensors of a field (R571). -/
def fieldSensors (f : Nat) : List Nat :=
  let i := f % 8
  ((fieldClusters f).flatMap fun c => [2 * c, 2 * c + 1]) ++ (List.range 4).map (160 + 4 * i + ·) ++
  [192 + 2 * i, 193 + 2 * i, 208 + 2 * i, 209 + 2 * i]

/-- Test 2 for one sensor. -/
def State.testSensor (s : State) (source t n : Nat) (fails : Bool) : State :=
  let k := s.sensor t n
  if fails then
    let s := s.countFailure t
    if k.faulty then s
    else
      let s := s.setSensor t n { k with faulty := true, shown := 0x8000 }
      (((s.towerSat 0xBB01 t 1).setFlags 0x3000 8 8).raise 0x18 t n).logDefect defectSensor source 0 (t * 2048) n
  else if k.faulty then (s.setSensor t n { k with faulty := false, bad := 0 }).logDefect defectSensor source 2 (t * 2048) n
  else s

/-- Test 3 for one phase of the field. -/
def State.testPhase (s : State) (source t p : Nat) : State :=
  let s := s.countFailure t
  if s.phaseFailed t p then s else (s.failPhase t p 4).logDefect defectPhase source 0 (t * 2048) p

/-- A core that fails one of tests 4 to 8. -/
def State.testCore (s : State) (source core : Nat) : State :=
  let s := s.countFailure (coreTower core)
  if s.coreOut core then s else (s.markCore core true).logDefect defectCore source 0 core 0

def State.testSlice (s : State) (source pos : Nat) : State :=
  let s := s.countFailure (coreTower pos)
  if s.sliceOut pos then s else (s.markSlice pos true).logDefect defectSlice source 0 pos 0

/-- An array out of service, or back in it, when its byte of GOOSE_ARRAY_DISAGREE is cleared (R226). -/
def State.setSuspect (s : State) (core a : Nat) (v : Bool) : State :=
  let c := s.core core
  let u := Map.get {} c.arrays a
  s.setCore core { c with arrays := Map.set {} c.arrays a { u with suspect := v, disagree := if v then u.disagree else 0 } }

/-- Test 9 for an array with faults: repaired by its spares, or out with its core (R608, R610). -/
def State.testArray (s : State) (source : Nat) (x : ArrayTest) : State :=
  let s := s.countFailure (coreTower x.core)
  let w := s.spareWord x.core x.array
  let one (l : List Nat) (used : Bool) : Bool := l.isEmpty || (l.length == 1 && !used && l.all (· < 16))
  let log (s : State) (source action : Nat) : State :=
    if Config.fuseCore x.core then s else s.logDefect defectArray source action x.core x.array
  let out (s : State) : State :=
    let fresh := !s.coreOut x.core || !(Map.get {} (s.core x.core).arrays x.array).suspect
    let s := (s.setSuspect x.core x.array true).markCore x.core true
    if fresh then log s source 0 else s
  if !x.other && one x.rows (w.getLsbD 15) && one x.cols (w.getLsbD 7) && !(x.rows.isEmpty && x.cols.isEmpty) then
    let v := (match x.rows with
      | r :: _ => 2 ^ 15 + r * 2 ^ 8
      | [] => 0) + (match x.cols with
      | c :: _ => 2 ^ 7 + c
      | [] => 0)
    let (saved, s) := s.saveRepair (.spare x.core x.array (BitVec.ofNat 16 v))
    let s := log s (if saved then source else 3) 1
    if x.retestOk then s.setSuspect x.core x.array false else out s
  else out s

/-- Units of the field that pass and that nothing holds out return to service (R618). -/
def State.returnUnits (s : State) (f source : Nat) (r : SelfTest) : State :=
  (fieldCores f).foldl (fun (s : State) c =>
    let bad (a : Nat) : Bool := r.arrays.any fun x => x.core == c && x.array == a
    let s := (List.range 4).foldl (fun (s : State) a =>
      if (Map.get {} (s.core c).arrays a).suspect && !bad a then
        (s.setSuspect c a false).logDefect defectArray source 2 c a
      else s) s
    let whole := (List.range 4).all fun a => !(Map.get {} (s.core c).arrays a).suspect
    let s := if s.dm.published && s.dm.cores.contains c && !Config.fuseCore c && !s.bypassed c && !r.cores.contains c && whole then
        (s.markCore c false).logDefect defectCore source 2 c 0
      else s
    if s.dm.published && s.dm.slices.contains c && !Config.fuseSlice c && !r.slices.contains c then
      (s.markSlice c false).logDefect defectSlice source 2 c 0
    else s) s

/-- Tests 2 and 3, which also run at cold boot for dark fields. -/
def State.testSupplies (s : State) (f source : Nat) (r : SelfTest) : State :=
  let t := f / 8
  let s := (fieldSensors f).foldl (fun (s : State) n => s.testSensor source t n (r.sensors.contains n)) s
  (r.phases.filter fun p => p / 12 == f % 8).foldl (fun (s : State) p => s.testPhase source t p) s

/-- The results of a field's self-test applied; `level` 0 is the ring's test alone. A phase failure that darkens the field ends
the test. -/
def State.applyTest (s : State) (f level source : Nat) (r : SelfTest) : State :=
  let mine (c : Nat) : Bool := coreField c == f && coreExists c
  let s := if r.ringOk then s.setField f { s.field f with ringFault := false } else (s.countFailure (f / 8)).ringFailed f
  if level = 0 then s
  else
    let s := s.testSupplies f source r
    if (s.field f).rail = .dark then s
    else
      let before := s.dm
      let s := (r.cores.filter mine).foldl (fun (s : State) c => s.testCore source c) s
      let s := (r.slices.filter mine).foldl (fun (s : State) c => s.testSlice source c) s
      let s := (r.arrays.filter fun x => mine x.core && x.array < 4).foldl (fun (s : State) x => s.testArray source x) s
      let s := s.returnUnits f source r
      if s.dm = before then s else s.capacityChanged.noteDegraded.refreshReplace

/-- A field whose tests have ended: OUT again after a service test, else in service. -/
def State.finishTest (s : State) (f : Nat) : State :=
  let k := s.field f
  if k.rail ≠ .held then s
  else if k.testOnly then
    (s.setField f { k with test := 0, testOnly := false, tested := true }).setServiceState f 2
  else
    let was := k.fromDark
    let s := s.setField f { k with test := 0, tested := false, fromDark := false }
    let s := (s.fieldReturn f).setServiceState f 0
    if was then s.capacityChanged.noteDegraded.refreshReplace else s

/-! ### Resets (R615 to R620) -/

/-- The field is in the course of a reset or of a return. -/
def State.inReset (s : State) (f : Nat) : Bool :=
  let k := s.field f
  k.onAfterReset || k.byWave || (Map.get [] s.turnOns (f / 8)).contains f || k.headers.turningOn || k.rail == .turningOn ||
  (k.rail == .held && s.serviceState f == 4)

/-- The field's work ends, it becomes OUT and is switched off (steps 1 and 2 of R616). -/
def State.takeOut (s : State) (f : Nat) : State :=
  let k := s.field f
  let off := k.rail == .off && k.headers == .idle && !k.offDue
  let s := ((s.fieldDown f .off false).setServiceState f 2).towerSat 0xBC00 (f / 8) 1
  if off then s.setField f { s.field f with offAt := some (k.offAt.getD s.now), tested := false } else s.askTurnOff f

/-- A reset of a field: a reset under way that has not passed step 3 takes the higher TEST, any other runs from step 1 (R620). -/
def State.resetField (s : State) (f test : Nat) (byWave : Bool) : State :=
  let k := s.field f
  let was := s.inReset f
  if was && k.rail = .off && !k.headers.turningOn then
    s.setField f { k with test := max k.test test, testOnly := false, byWave := k.byWave || (byWave && k.onAfterReset) }
  else
    let s := s.takeOut f
    let k' := s.field f
    s.setField f { k' with
      test := if was then max k.test test else test
      testOnly := false, onAfterReset := true, byWave := byWave }

/-- A field of a reset's scope that the reset passes over: dark, or of a tower that is out. -/
def State.unresettable (s : State) (f : Nat) : Bool := (s.field f).rail == .dark || (s.field f).fromDark || s.towerOut (f / 8)

/-- Scope, TEST and TARGET of a COMPUTE_RESET value (R615); one with a nonzero reserved bit is refused as the reserved scope is (R634). -/
def resetScope (v : BitVec 16) : Nat := if v.toNat / 64 % 64 = 0 then v.toNat / 2 ^ 14 else 3
def resetTest (v : BitVec 16) : Nat := v.toNat / 2 ^ 12 % 4
def resetTarget (v : BitVec 16) : Nat := v.toNat % 64

/-- Resets are served from READY on, and not after an input loss. -/
def State.mayReset (s : State) : Bool := s.dm.published && !s.boot.inputLoss

/-- The whole compute side is reset (R616, R474). -/
def State.resetAll (s : State) (test : Nat) : State :=
  if !s.mayReset then s
  else ((List.range 64).filter fun f => !s.unresettable f).foldl (fun (s : State) f => s.resetField f test true) s

/-! ### Waves (R606) -/

def State.startWaves (s : State) (fields : List Nat) : State :=
  { s with boot := { s.boot with wave := 0, waveAt := s.now, waveFields := fields } }

/-- Step 5 of the cold boot begins once the image runs and every channel is initialised. -/
def State.bootWaves (s : State) : State :=
  if s.steward.running && s.boot.channels && s.reg 0x9000 1 = 1 then
    (s.startWaves ((List.range 64).filter fun f => !s.towerOut (f / 8))).setReg 0x9000 1 2
  else s

/-! ### Input loss and full reset (R693 to R696) -/

/-- The memory arrays are no longer powered: every line's contents are lost. -/
def State.loseDram (s : State) : State :=
  { s with mem := { s.mem with cells := s.mem.cells.filter fun e => sliceBase ≤ e.1, check := [] } }

/-- An input loss: fields off at once, every rail fed from VIN_1V8 off; the steward waits for a RESET_N cycle. -/
def State.inputLoss (s : State) : State :=
  if !s.boot.rails || s.boot.inputLoss then s
  else
    let old := s
    let s := ((s.allFieldsOff.linksDown).dropLinkRails fun _ => false).loseDram
    let s := { s with boot := { s.boot with inputLoss := true, wave := 8 }, host := { s.host with linkUp := false } }
    (s.setReg 0x1102 13 0).noteStop old 2

/-- What survives a full reset: the NOR device's contents, the levels of the lands, the waiting commands and the model's own clock and
record. -/
def State.wiped (s : State) : State :=
  { pending := s.pending, now := s.now, fresh := s.fresh, out := s.out, nor := s.nor, norSize := s.norSize, saved := s.saved, repairs := s.repairs,
    pins := s.pins }

end Sys2Proof.Machine
end

