-- ==== Sys2Proof/Machine/Boot.lean ====
section
/-! DEFINITION. Cold boot, partial reset, service of fields, repairs, and the reset and power lands (spec files
16_bring_up_reset_and_repair.md and 19_package_and_electrical.md). -/
namespace Sys2Proof.Machine

/-! ### Cold boot (R596 to R612) -/

/-- COLD_BOOT: RESET_N is released; the ROM runs, and with PWR_GOOD high the main rails come up. `tableOk`: one of the repair table's
copies is valid (R605). A FREEZE_N that is low counts from now on (R699). -/
def execColdBoot (tableOk : Bool) (s : State) : Host.Outcome State Fault Refusal :=
  .next (
    if s.boot.started || !s.pins.vaux then s
    else
      let repairs := if tableOk then s.repairs else []
      let s := { s with
        pins := { s.pins with resetN := true }
        repairs := repairs
        inForce := repairs.filter fun r => match r with
          | .row _ _ _ _ | .lane _ _ => true
          | _ => false
        boot := { s.boot with started := true, since := s.now, rails := s.pins.pwrGood }
        steward := { s.steward with lastHeartbeat := s.now } }
      let s := s.setReg 0x9005 4 repairs.length
      if s.pins.freezeN then s else s.setFlags 0xA001 4 freezePin)

/-- The saved entries take their values (R605); a QCB's SWITCH_WIDTH is copied from its default (R323). -/
def State.loadSaved (s : State) (v : Saved) : State :=
  let s := v.regs.foldl (fun (s : State) (e : Nat × Nat) => s.setReg (e.1 / 256) (e.1 % 256) e.2) s
  let s := { s with
    eclassPowers := v.eclassPowers
    stream := { s.stream with deadlines := v.deadlines, fallbacks := v.fallbacks } }
  { s with bootSwitchWidth := BitVec.ofNat 8 (s.reg 0x6201 1) }

/-- In static mode the IPv4 address in use is SB_IPV4_ADDR (R646, R663). -/
def State.setStaticAddress (s : State) : State := if s.reg 0x5300 2 = 0 then s.setReg 0x5300 6 (s.reg 0x5300 3) else s

/-- IMAGE_LOAD: the ROM chooses an image, loads it and checks it; an image then runs, or the boot has failed (R600 to R605). `savedOk`:
one of the copies of the saved entries is valid. -/
def execImageLoad (savedOk : Bool) (s : State) : Host.Outcome State Fault Refusal :=
  .next (
    if !s.boot.rails || s.boot.inputLoss || s.steward.running || s.reg 0x9000 1 ≠ 0 then s
    else
      let saved : Saved := if savedOk then s.saved else {}
      let s := { s with saved := saved }
      let flags := (if Config.norQuad then 0 else 2) + (if savedOk then 0 else 4)
      let found := if s.norSize < 0x4000000 then none else s.chooseImage (Map.get 0 saved.regs (0x9000 * 256 + 3))
      match found with
      | none => (s.setReg 0x9000 1 0x80).setReg 0x9000 6 (if Config.norQuad then 0 else 2)
      | some (slot, second) =>
        let s := ((s.setReg 0x9000 1 1).setReg 0x9000 2 slot).setReg 0x9000 6 (flags + if second then 1 else 0)
        let s := (s.setReg 0x1000 7 (s.header slot 4 4)).loadSaved saved
        let s := s.setStaticAddress
        let s := { s with steward := { running := true, lastHeartbeat := s.now } }
        s.reformGroup.bootWaves)

/-- CHANNEL_INIT_COMPLETE: every channel is trained, repaired, tested and written in poisoned form; what failed is noted, and the waves
begin once an image runs (R438, R596, R609, R610). -/
def execChannelInitComplete (r : ChannelTest) (s : State) : Host.Outcome State Fault Refusal :=
  .next (
    if !s.boot.rails || s.boot.channels || s.boot.inputLoss then s
    else
      let chs := r.channels.filter coreExists
      let hens := r.hens.filter coreExists
      let towers := r.towers.filter (· < 8)
      let s := s.loseDram
      let s := { s with boot := { s.boot with
        channels := true, badChannels := chs, badHens := hens, badTowers := towers, badBridges := r.bridges.filter (· < 10) } }
      let note (kind : Nat) (fused : Bool) (s : State) (unit : Nat) : State :=
        let s := s.countFailure (unit / 2048)
        if fused then s else s.logDefect kind 0 0 unit 0
      let s := chs.foldl (fun (s : State) c => note defectChannel (Config.fuseChannel c) s c) s
      let s := hens.foldl (fun (s : State) c => note defectHens (Config.fuseHens c) s c) s
      let s := towers.foldl (fun (s : State) t => note defectTower (Config.fuseTower t) s (t * 2048)) s
      let s := ((List.range 64).filter fun f => s.towerOut (f / 8)).foldl (fun (s : State) f =>
        (s.setField f { s.field f with rail := .dark }).setServiceState f 5) s
      s.bootWaves)

/-- FIELD_WAVE: wave w switches on field Fw of every tower; after wave 7 of a cold boot the self-tests are under way (R606). -/
def execFieldWave (w : Nat) (s : State) : Host.Outcome State Fault Refusal :=
  .next (
    let b := s.boot
    if 8 ≤ w || w ≠ b.wave || s.now < b.waveAt + w * usCycles 100 || b.inputLoss then s
    else
      let s := (List.range 8).foldl (fun (s : State) t =>
        let f := 8 * t + w
        if b.waveFields.contains f && (s.field f).rail = .off then s.askTurnOn f else s) s
      let s := { s with boot := { s.boot with wave := w + 1 } }
      if w = 7 && s.reg 0x9000 1 = 2 then s.setReg 0x9000 1 3 else s)

/-- SELF_TEST_COMPLETE: a field's tests end and their results are applied; at cold boot the sensors and phases of a dark field are
tested as well (R607 to R610, R618). -/
def execSelfTestComplete (f : Nat) (r : SelfTest) (s : State) : Host.Outcome State Fault Refusal :=
  .next (
    let k := s.field f
    let cold := !s.dm.published
    let done (s : State) : State :=
      if cold && !s.boot.tested.contains f then { s with boot := { s.boot with tested := s.boot.tested ++ [f] } } else s
    if 64 ≤ f || s.boot.inputLoss then s
    else if k.rail = .held && s.serviceState f = 4 then
      let level := if cold then s.reg 0x9000 5 else k.test
      done ((s.applyTest f level (if cold then 0 else 1) r).finishTest f)
    else if cold && k.rail = .dark && s.steward.running && !s.boot.tested.contains f then done (s.testSupplies f 0 r)
    else s)

/-- DEFECT_MAP_PUBLISH: the map is the union of the fuse map, the tests' results and the persistent bypasses; it is published in one step
(R610 to R613), and a freeze that was asked for is applied (R628). -/
def execDefectMapPublish (s : State) : Host.Outcome State Fault Refusal :=
  .next (
    let b := s.boot
    let all := (List.range 64).all fun f => b.tested.contains f || s.towerOut (f / 8)
    if s.dm.published || s.boot.inputLoss || b.wave ≠ 8 || s.reg 0x9000 1 ≠ 3 || !all then s
    else
      let cores := (List.range 8).flatMap towerCores
      let towers := (List.range 8).filter s.towerOut
      let gone (c : Nat) : Bool := towers.contains (coreTower c)
      let noChannel (c : Nat) : Bool := gone c || Config.fuseChannel c || b.badChannels.contains c
      let s := { s with dm := {
        published := true
        cores := cores.filter fun c => gone c || s.coreOut c || s.bypassed c
        slices := cores.filter fun c => gone c || s.sliceOut c
        hens := cores.filter fun c => noChannel c || Config.fuseHens c || b.badHens.contains c
        channels := cores.filter noChannel
        towers := towers
        bridges := b.badBridges } }
      let s := ((s.setReg 0x1101 10 1).setReg 0x9000 1 4).setReg 0x9000 4 ((s.now - b.since) / msCycles 1)
      let s := s.setReg 0x9009 3 (((List.range 8).filter fun t => !towers.contains t).map (2 ^ ·)).sum
      s.noteDegraded.refreshReplace.beginFreeze.refreshHolds)

/-! ### Partial reset (R615 to R620) -/

def execFieldReset (v : BitVec 16) (s : State) : Host.Outcome State Fault Refusal :=
  .next (s.written (
    let f := resetTarget v
    if resetScope v ≠ 0 || resetTest v = 3 || !s.mayReset || s.unresettable f then s
    else s.resetField f (resetTest v) false))

def execTowerReset (v : BitVec 16) (s : State) : Host.Outcome State Fault Refusal :=
  .next (s.written (
    let t := resetTarget v % 8
    if resetScope v ≠ 1 || resetTest v = 3 || !s.mayReset || s.towerOut t then s
    else ((List.range 8).map (8 * t + ·)).foldl (fun (s : State) f =>
      if s.unresettable f then s else s.resetField f (resetTest v) false) s))

def execComputeSideReset (v : BitVec 16) (s : State) : Host.Outcome State Fault Refusal :=
  .next (s.written (if resetScope v ≠ 2 || resetTest v = 3 then s else s.resetAll (resetTest v)))

/-- The field has been off for 10 µs after step 2. -/
def State.offHeld (s : State) (f : Nat) : Bool :=
  let k := s.field f
  k.onAfterReset && k.rail == .off && k.headers == .idle && !k.offDue && (match k.offAt with
    | some t => decide (t + usCycles 10 ≤ s.now)
    | none => false)

/-- RESET_OFF_HOLD: step 3 of R616 begins: the field asks to be switched on, after a lower field of its tower that is as far; the fields
of a compute-side reset together, in waves. Not while frozen (R620). -/
def execResetOffHold (f : Nat) (s : State) : Host.Outcome State Fault Refusal :=
  .next (
    if 64 ≤ f || !s.offHeld f || !s.running then s
    else if (s.field f).byWave then
      let fs := (List.range 64).filter fun g => (s.field g).byWave
      if !(fs.all s.offHeld) then s
      else (fs.foldl (fun (s : State) g => s.setField g { s.field g with onAfterReset := false, byWave := false }) s).startWaves fs
    else if (List.range (f % 8)).any fun i => s.offHeld (f / 8 * 8 + i) && !(s.field (f / 8 * 8 + i)).byWave then s
    else (s.setField f { s.field f with onAfterReset := false }).askTurnOn f)

/-- ENABLE 0 in every QCB, and the windows and the MSI-X table at their reset values (R474). -/
def State.functionReset (s : State) : State :=
  let s : State := { s with host := { s.host with function := {} } }
  if !s.isHead then s
  else
    let s := { s with
      queues := Map.mapVals {} s.queues fun _ (q : Queue) => { q with enable := false, aged := false, eligibleSince := none }
      host := { s.host with windows := [], msix := [] } }
    s.resetAll 0

def execFunctionLevelReset (s : State) : Host.Outcome State Fault Refusal := .next s.functionReset
def execHotReset (s : State) : Host.Outcome State Fault Refusal := .next s.functionReset
def execPcieLinkDown (s : State) : Host.Outcome State Fault Refusal :=
  .next ({ s with host := { s.host with linkUp := false } }.setReg 0x1102 13 0).functionReset

/-! ### Service of fields (R621, R622) -/

/-- The action of a FIELD_SERVICE value; bits that R621 does not name are zero in every action. -/
def serviceAction (v : BitVec 16) : Nat := if v.toNat / 64 % 64 = 0 then v.toNat / 2 ^ 12 else 0

/-- Every context is FREE and every unit of the field idle. -/
def State.fieldIdle (s : State) (f : Nat) : Bool :=
  (fieldCores f).all fun c =>
    let k := s.core c
    let u := s.channel c
    k.ctxs.all (fun e => e.2.state == .free) && k.vec.isEmpty && k.dma.isEmpty &&
    u.seqs.isEmpty && u.appends.isEmpty && u.scrubs.isEmpty &&
    k.arrays.all fun e => e.2.tiles.isEmpty && e.2.done.isEmpty && e.2.sample.isNone

/-- The field's dispatchers stop taking: its state becomes DRAINING. -/
def execDrain (v : BitVec 16) (s : State) : Host.Outcome State Fault Refusal :=
  .next (s.written (
    let f := v.toNat % 64
    if serviceAction v ≠ 1 || !s.mayReset || s.serviceState f ≠ 0 || !s.fieldUp f then s
    else (s.setField f { s.field f with drainAt := some s.now }).setServiceState f 1))

/-- DRAIN_END: every context is FREE and every unit idle. -/
def execDrainEnd (f : Nat) (s : State) : Host.Outcome State Fault Refusal :=
  .next (if f < 64 && s.serviceState f = 1 && s.fieldIdle f then s.takeOut f else s)

/-- DRAIN_TIMEOUT: the remaining work ends. -/
def execDrainTimeout (f : Nat) (s : State) : Host.Outcome State Fault Refusal :=
  .next (
    match (s.field f).drainAt with
    | some t => if f < 64 && s.serviceState f = 1 && decide (t + msCycles (s.reg 0x9001 3) ≤ s.now) then s.takeOut f else s
    | none => s)

/-- A service test of an OUT field: it is switched on if it is off, and runs the test. -/
def State.serviceTest (s : State) (action level : Nat) (v : BitVec 16) : State :=
  let f := v.toNat % 64
  if serviceAction v ≠ action || !s.mayReset || s.serviceState f ≠ 2 || s.inReset f then s
  else
    let s := s.setField f { s.field f with test := level, testOnly := true, tested := false }
    if (s.field f).rail = .held then s.setServiceState f 4 else s.askTurnOn f

def execTestQuick (v : BitVec 16) (s : State) : Host.Outcome State Fault Refusal := .next (s.written (s.serviceTest 2 1 v))
def execTestFull (v : BitVec 16) (s : State) : Host.Outcome State Fault Refusal := .next (s.written (s.serviceTest 3 2 v))

/-- RETURN: a field tested since it was switched on goes into service; another performs steps 3 to 5 of R616 with TEST 0. A dark field
returns while at most two of its phases have failed. -/
def execReturnService (v : BitVec 16) (s : State) : Host.Outcome State Fault Refusal :=
  .next (s.written (
    let f := v.toNat % 64
    let k := s.field f
    if serviceAction v ≠ 4 || !s.mayReset || s.inReset f || s.towerOut (f / 8) then s
    else if s.serviceState f = 2 then
      if k.rail = .held && k.tested then s.finishTest f
      else s.setField f { k with
        test := 0, testOnly := false, onAfterReset := true, offAt := some (k.offAt.getD s.now) }
    else if s.serviceState f = 5 && s.failedPhases (f / 8) (f % 8) ≤ 2 then
      s.setField f { k with rail := .off, fromDark := true, test := 0, testOnly := false, onAfterReset := true }
    else s))

/-! ### Bypass and repairs (R623 to R626, R631) -/

/-- Counts, degradation and reasons to replace after a core has left service. -/
def State.serviceChanged (s : State) : State := s.capacityChanged.noteDegraded.refreshReplace

/-- CORE_BYPASS: the core leaves service, its tasks end; with bit 31 the bypass is kept in the repair table. A ramp in progress in the
field goes on for its other cores, where R188 could also be read to end it (assumption 78, DESIGN CHOICE). -/
def execCoreBypass (v : BitVec 32) (s : State) : Host.Outcome State Fault Refusal :=
  .next (s.written (
    let core := v.toNat % 2 ^ 14
    if !coreExists core || !s.mayReset then s
    else
      let s := if s.inService core then
          (((s.coreDown core).markCore core true).logDefect defectCore 2 0 core 0).serviceChanged
        else s
      if !v.getLsbD 31 then s
      else
        let (saved, s) := s.saveRepair (.bypass core)
        let s := if saved then s else s.logDefect defectCore 3 1 core 0
        s.refreshReplace))

/-- CORE_RESTORE: the persist entry is removed. -/
def execCoreRestore (v : BitVec 32) (s : State) : Host.Outcome State Fault Refusal :=
  .next (s.written (
    let core := v.toNat % 2 ^ 14
    if !coreExists core || !s.mayReset then s else (s.removeRepair (.bypass core)).refreshReplace))

def State.setRepairStatus (s : State) (st : Nat) : State := s.setReg 0x9005 3 st

/-- A repair request accepted, or answered at once with a status. -/
def State.askRepair (s : State) (r : Repair) (persist : Bool) (st : Status) : State :=
  if st ≠ 0 then s.setRepairStatus st.toNat
  else { s with repairJob := some ⟨r, persist, s.now⟩ }.setRepairStatus 0xFF

/-- DRAM_ROW_REPAIR: channel, layer, bank, row and PERSIST as the entry lays them out. -/
def execDramRowRepair (bytes : List Byte) (s : State) : Host.Outcome State Fault Refusal :=
  .next (s.written (
    let b (i : Nat) : Nat := (bytes.getD i 0).toNat
    let ch := (b 0 + 256 * b 1) % 2 ^ 14
    let row := (b 4 + 256 * b 5) % 1024
    if bytes.length ≠ 8 || b 7 ≠ 0 || s.repairJob.isSome || !s.mayReset || !coreExists ch then s
    else
      let st : Status :=
        if s.dm.channels.contains ch then 0x07
        else if 16 ≤ b 2 || 4 ≤ b 3 then 0x02
        else if 8 ≤ s.spareRows ch (b 2) (b 3) then 0x07 else 0
      s.askRepair (.row ch (b 2) (b 3) row) (b 6 % 2 == 1) st))

/-- LANE_REPAIR: the channel's spare lane is to take over a lane. -/
def execLaneRepair (v : BitVec 32) (s : State) : Host.Outcome State Fault Refusal :=
  .next (s.written (
    let ch := v.toNat % 2 ^ 14
    let lane := v.toNat / 2 ^ 16 % 128
    if s.repairJob.isSome || !s.mayReset || !coreExists ch then s
    else
      let used := s.inForce.any fun r => match r with
        | .lane c _ => c == ch
        | _ => false
      let st : Status := if s.dm.channels.contains ch then 0x07 else if 71 < lane then 0x02 else if used then 0x07 else 0
      s.askRepair (.lane ch lane) (v.getLsbD 31) st))

def Repair.channel : Repair → Nat
  | .row c _ _ _ | .lane c _ => c
  | .spare c _ _ | .bypass c => c

/-- The channel is idle: its window is empty and no hen range is registered. -/
def State.repairable (s : State) (ch : Nat) : Bool := (s.channel ch).window.isEmpty && (s.channel ch).ranges.isEmpty

/-- The 16 lines of a row copied into a spare row, corrected where that can be, else in poisoned form. -/
def State.copyRow (s : State) (ch layer bank row : Nat) : State :=
  (List.range 16).foldl (fun (s : State) i =>
    let off := row * 65536 + (4 * layer + bank) * 1024 + 64 * i
    let line := dramAddr ch off / 64
    match s.readDramLine ch off .inPlace with
    | (0, data, s) => (s.poke (64 * line) data).setCheck line 0
    | (_, _, s) => (s.poke (64 * line) (List.replicate 64 0)).setCheck line poisonDiff) s

/-- REPAIR_START: with the channel idle the row is copied and mapped to the lowest unused spare row of its bank, or the spare lane takes
over; a persistent repair enters the table. -/
def execRepairStart (s : State) : Host.Outcome State Fault Refusal :=
  .next (
    match s.repairJob with
    | none => s
    | some j =>
      let ch := j.repair.channel
      if !s.repairable ch || !s.running then s
      else
        let s := { s with repairJob := none, inForce := s.inForce ++ [j.repair] }
        let (saved, s) := if j.persist then s.saveRepair j.repair else (true, s)
        let source := if saved then 2 else 3
        let s := match j.repair with
          | .row c l b r => (s.copyRow c l b r).logDefect defectRow source 1 c (l * 2 ^ 12 + b * 2 ^ 10 + r)
          | .lane c n => s.logDefect defectLane source 1 c n
          | _ => s
        (s.setRepairStatus 0).refreshReplace)

/-- REPAIR_TIMEOUT: the channel has not been idle within 10 ms. -/
def execRepairTimeout (s : State) : Host.Outcome State Fault Refusal :=
  .next (
    match s.repairJob with
    | none => s
    | some j =>
      if s.now < j.since + msCycles 10 || s.repairable j.repair.channel then s
      else { s with repairJob := none }.setRepairStatus 0x08)

/-! ### Recovery from the controlled shutdown (R590) -/

/-- SHUTDOWN_RECOVER: the links rails come up, at their default setpoint, and start training, and the fields power on in waves. -/
def execShutdownRecover (v : Byte) (s : State) : Host.Outcome State Fault Refusal :=
  .next (s.written (
    let cool := s.thermal.layers.all fun e => e.2.all fun t => decide (t < 70 * degree)
    if v ≠ 1 || thermalState s ≠ 4 || !s.mayResume || !cool || s.boot.inputLoss then s
    else
      let s := (List.range 12).foldl (fun (s : State) p => if s.portState p = 4 then s else s.setPortState p 1) s
      let s := (List.range 8).foldl (fun (s : State) n => s.setLink n { s.link n with thermal := false }) s
      let s := s.startWaves ((List.range 64).filter fun f => (s.field f).rail ≠ .dark)
      let s := (List.range 8).foldl (fun (s : State) t => { s with links := Map.upd {} s.links t fun l => { l with setpoint := 600 } }) s
      ((s.setReg 0x4200 7 0).setReg 0x3000 7 0).updateHalts.refreshHolds.refreshThermalState))

/-! ### The reset and power lands (R692 to R696) -/

/-- PWR_GOOD_RISE: a boot that is held before step 2 goes on. -/
def execPwrGoodRise (s : State) : Host.Outcome State Fault Refusal :=
  .next (
    let s := { s with pins := { s.pins with pwrGood := true } }
    if s.boot.started && !s.boot.inputLoss then { s with boot := { s.boot with rails := true } } else s)

def execPwrGoodFall (s : State) : Host.Outcome State Fault Refusal :=
  .next { s with pins := { s.pins with pwrGood := false } }.inputLoss

/-- VIN_1V8_LOW: below 1.55 V for more than 5 µs while PWR_GOOD is high. -/
def execVin1v8Low (s : State) : Host.Outcome State Fault Refusal := .next (if s.pins.pwrGood then s.inputLoss else s)

/-- VAUX_LOSS: every rail goes off and all state is lost; only what the NOR device holds survives. -/
def execVauxLoss (s : State) : Host.Outcome State Fault Refusal :=
  .next { s.wiped with pins := { s.pins with vaux := false } }

/-- VAUX_RISE: the standby rail comes up; LAST_SHUTDOWN reads none. -/
def execVauxRise (s : State) : Host.Outcome State Fault Refusal :=
  .next (if s.pins.vaux then s else { s with pins := { s.pins with vaux := true } }.setReg 0x2020 1 0)

/-- RESET_N_LOW: a low of a width in ns: 100 µs or longer resets the whole module, shorter than 1.0 µs is ignored, between them either
happens (R693). The land is then low until COLD_BOOT. -/
def execResetNLow (ns : Nat) (s : State) : Host.Outcome State Fault Refusal :=
  .next (
    let take := 100000 ≤ ns || (1000 ≤ ns && Config.freeBool s.fresh)
    let s := { s with fresh := s.fresh + 1 }
    if !take then s
    else
      let t := s.wiped
      { t with pins := { t.pins with resetN := false } }.setReg 0x2020 1 (s.stopCause 1))

end Sys2Proof.Machine
end

