-- ==== Sys2Proof/Machine/Dma.lean ====
section
/-! DEFINITION. The DMA engine's own modes and its completions, scrubs, and the recovery and check-code commands of
chapters 10 and 11 (R111, R414 to R420, R439 to R465). -/
namespace Sys2Proof.Machine

/-! ### Ranges and writes of a DMA descriptor -/

/-- A group address of this device. -/
def State.ownAddr (s : State) (a : Nat) : Nat := s.group.member * 2 ^ 48 + a

/-- The first failing check of R419 once the descriptor's fields are well formed: NOT_PRESENT, then BOUNDS of its ranges or of
its own rules, then TARGET_IN_RESET. -/
def State.dmaChecks (s : State) (tower : Nat) (ranges : List (Nat × Nat)) (rules : Bool) : Status :=
  let st := s.groupRanges tower ranges
  if st = 0x07 then 0x07 else if st = 0x02 || !rules then 0x02 else st

/-- A group address of this device in its one form, that of another device as it is. -/
def State.homeAddr (s : State) (a : Nat) : Nat := if s.isOwn (a / 2 ^ 48 % 64) then s.ownAddr (a % 2 ^ 48) else a % 2 ^ 54

/-- Bytes written to a group address: on this device, or to another, for each line of which the unit has a request over the links (R47,
R482); `ack` is the device's answer where it comes back with the command. The status is `askedStatus` while an answer has not come. -/
def State.writeGroup (s : State) (a : Nat) (bytes : List Byte) (prod : Option Nat) (ack : Option Status) (who : Agent) : Status × State :=
  let dev := a / 2 ^ 48 % 64
  if bytes.isEmpty then (0, s)
  else if s.isOwn dev then s.writeRange (a % 2 ^ 48) bytes prod who
  else
    match ack with
    | some st =>
      let asked := s.reqs.any fun r => r.src == .unit who && !r.isRead && s.abroad r
      (st, if asked then s else s.send (.groupMessage dev 1 [a % 2 ^ 48, bytesToNat bytes, bytes.length, linkTag 0x3FFF 0]))
    | none => s.writeRange (a % 2 ^ 48) bytes prod who dev

/-- The ranges share a byte of one device's storage once translated (R416); another member's spread addresses are judged with this
device's keys (assumption 31). -/
def State.overlapping (s : State) (a b n : Nat) : Bool :=
  (a / 2 ^ 48 == b / 2 ^ 48 || (s.isOwn (a / 2 ^ 48 % 64) && s.isOwn (b / 2 ^ 48 % 64))) &&
  (pieces (a % 2 ^ 48) n).any fun p => (pieces (b % 2 ^ 48) n).any fun q =>
    rowsOverlap (s.translate p.1, p.2) (s.translate q.1, q.2)

/-- The range starts in DRAM, under its local mapping or a spread alias. -/
def inDram (a : Nat) : Bool := a < 8 * dramTower || isSpread a

/-- A copy record entered for a COPY from DRAM or a FILL whose destination is SRAM of this device (R451). -/
def State.noteCopy (s : State) (dst len : Nat) (src : Option Nat) (pattern : Word32) : State :=
  let a := dst % 2 ^ 48
  match placeOf (s.translate a) with
  | .slice _ _ | .store _ _ =>
    if s.isOwn (dst / 2 ^ 48 % 64) then s.addCopyRecord { dst := a, len := len, src := src, pattern := pattern } else s
  | _ => s

/-- The oldest descriptor of one of the engine's modes performed: nothing while the device is frozen (R669). While it waits only for another
member, the lines that it has read stay. -/
def State.runDma (s : State) (core : Nat) (mode : Nat → Bool) (work : State → DmaDesc → State) : State :=
  if !s.running then s
  else
    match (s.core core).dma.find? fun d =>
        (d.words.headD 0).toNat / 2 ^ 40 % 256 == 2 && d.status.isNone && mode (dmaMode d.words) with
    | some d =>
      let who := Agent.dma core d.id
      s.units core [who] fun s =>
        let t := work s d
        if (t.reqs.any fun r => r.src == .unit who && t.underWay r) ||
            !((t.core core).dma.any fun e => e.id == d.id && e.status.isNone) then some t else none
    | none => s

/-! ### Transfers line by line (R705, R709) -/

/-- What an engine has read of a range of group addresses so far, in order: up to a line that has not come, or that cannot be read. -/
def State.readSoFar (s : State) (who : Agent) : List (Nat × Nat) → ReadResult
  | [] => {}
  | (a, n) :: rest =>
    match s.unitReq who (.read n) (a % 2 ^ 48) (a / 2 ^ 48) with
    | none => { waiting := true }
    | some r =>
      if s.underWay r then { waiting := true }
      else if r.status ≠ 0 then { status := r.status }
      else
        let q := s.readSoFar who rest
        { q with bytes := r.data ++ q.bytes }

/-- What an engine has written of a range so far, in order: the bytes, and the status of the first line that is not written. -/
def State.writtenSoFar (s : State) (who : Agent) : List (Nat × Nat) → List Byte → Nat × Status
  | [], _ => (0, 0)
  | (a, n) :: rest, data =>
    match s.unitReq who (.write (data.take n)) (a % 2 ^ 48) (a / 2 ^ 48) with
    | none => (0, askedStatus)
    | some r =>
      if s.underWay r then (0, askedStatus)
      else if r.status ≠ 0 then (0, r.status)
      else
        let (k, st) := s.writtenSoFar who rest (data.drop n)
        (n + k, st)

/-- The lines that the data read so far complete, and at the end of the reads the last part of one. -/
def readyLines (dst : Nat) (r : ReadResult) : List (Nat × Nat) :=
  let all := pieces dst r.bytes.length
  if r.waiting then all.filter fun p => (p.1 + p.2) % 64 == 0 else all

/-- A transfer between group addresses goes on: every line is written as soon as it has been read, and of its reads, in their order, so many are made that at most 64
lines are in the engine; `used` says how many of them so many written bytes have used up (R709). It gives the status: that of the first
failing write, that of the reads, or `askedStatus` while something is under way. -/
def State.advance (s : State) (who : Agent) (prod : Option Nat) (dst : Nat) (reads : List (Nat × Nat)) (r : ReadResult)
    (used : Nat → Nat) : Status × State :=
  let lines := readyLines dst r
  let (k, st) := s.writtenSoFar who lines r.bytes
  if st ≠ 0 && st ≠ askedStatus then (st, s)
  else
    let s := s.askWrites who prod (dst / 2 ^ 48) (lines.map fun p => (p.1 % 2 ^ 48, p.2)) r.bytes
    let s := if r.waiting then
      (reads.take (used k + 64)).foldl (fun (s : State) p => s.ask who (.read p.2) (p.1 % 2 ^ 48) none (p.1 / 2 ^ 48)) s else s
    (if r.waiting || st ≠ 0 then askedStatus else r.status, s)

/-! ### COPY and FILL (R416, R420, R447) -/

/-- A COPY: every line up to one that cannot be read is written as soon as it has been read (R709); an unassigned MODE completes with
BOUNDS. -/
def State.copyWork (core : Nat) (remote : Option (Status × List Byte)) (ack : Option Status) (s : State) (d : DmaDesc) :
    State :=
  let ws := d.words
  let n := dmaLen ws
  let src := dmaSrc ws
  let dst := dmaDst ws
  if !dmaWellFormed ws then s.endDma core d.id 0x02
  else if n = 0 then s.endDma core d.id 0
  else
    let st := s.dmaChecks (coreTower core) [(src, n), (dst, n)] (!s.overlapping src dst n)
    if st ≠ 0 then s.endDma core d.id st
    else
      let who := Agent.dma core d.id
      let ended (st : Status) (s : State) : State :=
        (if st = 0 && inDram (src % 2 ^ 48) then s.noteCopy dst n (some src) 0 else s).endDma core d.id st
      if (remote.isNone && ack.isNone) || (s.isOwn (src / 2 ^ 48 % 64) && s.isOwn (dst / 2 ^ 48 % 64)) then
        let reads := pieces (s.homeAddr src) n
        let used (k : Nat) : Nat := reads.countP fun p => p.1 + p.2 ≤ s.homeAddr src + k
        let (st, t) := s.advance who d.rerun (s.homeAddr dst) reads (s.readSoFar who reads) used
        if st = askedStatus then t else ended st t
      else
        let (r, s1) := s.readGroup src n who remote
        if r.waiting then s1
        else
          let (w, s2) := s1.writeGroup dst r.bytes d.rerun ack who
          if w = askedStatus then s2 else ended (if w ≠ 0 then w else r.status) s2

/-- COPY moves the engine's oldest such descriptor; `remote` and `ack` are another member's answers to its read and write. -/
def execCopy (core : Nat) (remote : Option (Status × List Byte)) (ack : Option Status) (s : State) :
    Host.Outcome State Fault Refusal :=
  .next (s.runDma core (fun m => m == 0 || 6 ≤ m) (State.copyWork core remote ack))

/-- `n` bytes of a pattern, repeated little-endian. -/
def fillBytes (pattern n : Nat) : List Byte := (List.range n).map fun i => BitVec.ofNat 8 (pattern / 2 ^ (8 * (i % 4)))

/-- A FILL: in DRAM only whole lines. -/
def State.fillWork (core : Nat) (ack : Option Status) (s : State) (d : DmaDesc) : State :=
  let ws := d.words
  let n := dmaLen ws
  let dst := dmaDst ws
  if !dmaWellFormed ws then s.endDma core d.id 0x02
  else if n = 0 then s.endDma core d.id 0
  else
    let st := s.dmaChecks (coreTower core) [(dst, n)] (!inDram (dst % 2 ^ 48) || (dst % 64 == 0 && n % 64 == 0))
    if st ≠ 0 then s.endDma core d.id st
    else
      let (w, s) := s.writeGroup dst (fillBytes (tileField ws 3 31 0) n) d.rerun ack (.dma core d.id)
      if w = askedStatus then s
      else (if w = 0 then s.noteCopy dst n none (BitVec.ofNat 32 (tileField ws 3 31 0)) else s).endDma core d.id w

/-- FILL writes the engine's oldest such descriptor. -/
def execFill (core : Nat) (ack : Option Status) (s : State) : Host.Outcome State Fault Refusal :=
  .next (s.runDma core (· == 2) (State.fillWork core ack))

/-! ### GATHER (R416) -/

/-- The address of an element: none where it lies outside the group address space or does not lie in one place. -/
def State.gatherAddr (base stride size x : Nat) : Option Nat :=
  let a := base + x * stride
  if a / 2 ^ 48 = base / 2 ^ 48 && rangeInPlace (a % 2 ^ 48) size then some a else none

/-- What a gather's reads have given so far: the reads themselves in order, by group address, and the bytes that it writes, with how many
reads each element has used up. -/
structure Gathered where
  reads : List Nat := []
  data : ReadResult := {}
  uses : List Nat := []
  deriving DecidableEq, Repr

/-- One line of a gather as its request gives it; `remote` holds another member's answers where they come back with the command, one for each
of its lines in the order of first use. -/
def State.gatherLine (s : State) (who : Agent) (remote : List (Status × List Byte)) (reads : List Nat) (line : Nat) : ReadResult :=
  if remote.isEmpty || s.isOwn (line / 2 ^ 48 % 64) then s.readSoFar who [(s.homeAddr line, 64)]
  else
    match remote[(reads.takeWhile (· != line)).countP fun l => !s.isOwn (l / 2 ^ 48 % 64)]? with
    | some (st, bytes) => { status := st, bytes := bytes }
    | none => { waiting := true }

/-- A range of a gather from its lines, each of which is read once (R705); the lines it needs join the reads. -/
def State.gatherRange (s : State) (who : Agent) (remote : List (Status × List Byte)) :
    List (Nat × Nat) → List Nat → ReadResult × List Nat
  | [], reads => ({}, reads)
  | (a, n) :: rest, reads =>
    let line := a / 64 * 64
    let reads := if reads.contains line then reads else reads ++ [line]
    let r := s.gatherLine who remote reads line
    let (q, reads) := s.gatherRange who remote rest reads
    (if r.waiting || r.status ≠ 0 then { r with bytes := [] } else { q with bytes := (r.bytes.drop (a % 64)).take n ++ q.bytes }, reads)

/-- Elements gathered in order, each checked as it is reached, until one fails; those behind one that has not come are asked for too. -/
def State.gatherElements (s : State) (core : Nat) (who : Agent) (remote : List (Status × List Byte)) (base stride size : Nat) :
    List Nat → Gathered → Gathered
  | [], g => g
  | x :: rest, g =>
    match State.gatherAddr base stride size x with
    | none => if g.data.waiting then g else { g with data := { g.data with status := 0x02 } }
    | some a =>
      let st := s.groupRanges (coreTower core) [(a, size)]
      if st ≠ 0 then (if g.data.waiting then g else { g with data := { g.data with status := st } })
      else
        let (r, reads) := s.gatherRange who remote (pieces a size) g.reads
        let g := { g with reads := reads }
        if g.data.waiting then s.gatherElements core who remote base stride size rest g
        else if r.status ≠ 0 then { g with data := { g.data with status := r.status } }
        else if r.waiting then s.gatherElements core who remote base stride size rest { g with data := { g.data with waiting := true } }
        else s.gatherElements core who remote base stride size rest
          { g with data := { g.data with bytes := g.data.bytes ++ r.bytes }, uses := g.uses ++ [reads.length] }

/-- The index list, read line by line in ascending address as the gather proceeds, and the elements of each of its lines (R416). -/
def State.gatherList (s : State) (core : Nat) (who : Agent) (remote : List (Status × List Byte)) (base stride size : Nat) :
    List (Nat × Nat) → List Byte → Gathered → Gathered
  | [], _, g => g
  | (a, n) :: rest, carry, g =>
    if g.data.status ≠ 0 then g
    else
      let (r, reads) := s.gatherRange who remote [(a, n)] g.reads
      let g := { g with reads := reads }
      if r.status ≠ 0 then (if g.data.waiting then g else { g with data := { g.data with status := r.status } })
      else if r.waiting then s.gatherList core who remote base stride size rest [] { g with data := { g.data with waiting := true } }
      else
        let bytes := carry ++ r.bytes
        let idx := unpackBits 32 (bytes.length / 4) (bytesToNat bytes)
        s.gatherList core who remote base stride size rest (bytes.drop (bytes.length / 4 * 4))
          (s.gatherElements core who remote base stride size idx g)

/-- A GATHER: index list and elements are read in order and each line once, and the elements are written line by line as they come (R416,
R705, R709). -/
def State.gatherWork (core : Nat) (remote : List (Status × List Byte)) (ack : Option Status) (s : State) (d : DmaDesc) :
    State :=
  let ws := d.words
  let n := dmaLen ws
  let size := tileField ws 5 12 0
  let base := tileField ws 4 53 0
  let who := Agent.dma core d.id
  if !dmaWellFormed ws then s.endDma core d.id 0x02
  else if n = 0 || size = 0 then s.endDma core d.id 0
  else
    let count := n / size
    let dst := dmaDst ws
    let st := s.dmaChecks (coreTower core) [(dmaSrc ws, 4 * count), (dst, n)] (n % size == 0 && size ≤ 4096)
    if !s.memberDevice (base / 2 ^ 48 % 64) then s.endDma core d.id 0x07
    else if st ≠ 0 then s.endDma core d.id st
    else
      let g := s.gatherList core who remote base (tileField ws 5 63 32) size (pieces (dmaSrc ws) (4 * count)) [] {}
      let used (k : Nat) : Nat := if k < size then 0 else g.uses.getD (k / size - 1) 0
      let reads := (g.reads.filter fun l => remote.isEmpty || s.isOwn (l / 2 ^ 48 % 64)).map fun l => (s.homeAddr l, 64)
      if ack.isNone || s.isOwn (dst / 2 ^ 48 % 64) then
        let (st, t) := s.advance who d.rerun (s.homeAddr dst) reads g.data used
        if st = askedStatus then t else t.endDma core d.id st
      else
        let t := (s.advance who d.rerun dst reads { g.data with bytes := [] } fun _ => reads.length).2
        if g.data.waiting then t
        else
          let (w, t) := t.writeGroup dst g.data.bytes d.rerun ack who
          t.endDma core d.id (if w ≠ 0 then w else g.data.status)

/-- GATHER moves the engine's oldest such descriptor. -/
def execGather (core : Nat) (remote : List (Status × List Byte)) (ack : Option Status) (s : State) :
    Host.Outcome State Fault Refusal :=
  .next (s.runDma core (· == 3) (State.gatherWork core remote ack))

/-! ### SKEW (R156, R157, R416, R447) -/

/-- The fields of a SKEW descriptor. -/
structure Skew where
  m : Nat
  k : Nat
  win : Nat
  fmt : Nat
  lanes : Nat
  e : Nat
  step : Nat
  deriving DecidableEq, Repr

def skewOf (ws : List Word) : Skew :=
  { m := tileField ws 6 63 55, k := tileField ws 6 54 42, win := tileField ws 6 41 29, fmt := tileField ws 6 28 25
    lanes := if tileField ws 6 24 24 = 1 then 8 else 16, e := if tileField ws 6 23 23 = 1 then 2 else 1
    step := tileField ws 4 63 48 }

def Skew.format (x : Skew) : Fmt := Fmt.ofCode (BitVec.ofNat 4 x.fmt)
def Skew.bits (x : Skew) : Nat := x.format.bits
def Skew.passes (x : Skew) : Nat := (x.k + 32 * x.lanes - 1) / (32 * x.lanes)
def Skew.steps (x : Skew) : Nat := 32 / x.e * x.m + x.lanes - 1
def Skew.outBytes (x : Skew) : Nat := (x.passes * x.steps * x.lanes * x.e * x.bits + 7) / 8
def Skew.scaleBytes (x : Skew) : Nat := if x.format.isBlock then x.passes * x.m * x.lanes else 0
/-- Source elements, source bytes and source scale bytes that are read. -/
def Skew.elements (x : Skew) : Nat := if x.win = 0 then 0 else (x.m - 1) * x.step + x.win
def Skew.srcBytes (x : Skew) : Nat := (x.elements * x.bits + 7) / 8
def Skew.srcScales (x : Skew) : Nat := if x.format.isBlock then (x.elements + 31) / 32 else 0

/-- The length and format rules of R416 and R420. -/
def Skew.legal (x : Skew) : Bool :=
  (x.fmt ≤ 12 || x.fmt == 15) && x.format.tileOperand && x.k % 32 == 0 && x.k ≤ 8160 && x.win ≤ x.k &&
  x.step * x.bits % 8 == 0 && (!x.format.isBlock || x.step % 32 == 0)

/-- The source element of a place of the string: pass, step, lane and half (R156); none where it holds 0. -/
def Skew.source (x : Skew) (p t r h : Nat) : Option Nat :=
  let sb := 32 / x.e
  let u := t - r
  if t < r || sb * x.m ≤ u then none
  else
    let k := p * 32 * x.lanes + r * 32 + u % sb * x.e + h
    if k < x.win && k < x.k then some (u / sb * x.step + k) else none

/-- The string of R156 over the elements that `el` gives. -/
def Skew.string (x : Skew) (el : Nat → Nat) : List Byte :=
  let codes := (List.range x.passes).flatMap fun p => (List.range x.steps).flatMap fun t =>
    (List.range x.lanes).flatMap fun r => (List.range x.e).map fun h => ((x.source p t r h).map el).getD 0
  natToBytes x.outBytes (packBits x.bits codes)

/-- The scale string of R157 over the source scales that `sc` gives; `pad` stands for a lane without elements. -/
def Skew.scales (x : Skew) (sc : Nat → Byte) (pad : Byte) : List Byte :=
  if !x.format.isBlock then []
  else (List.range x.passes).flatMap fun p => (List.range x.m).flatMap fun m => (List.range x.lanes).map fun r =>
    let k := p * 32 * x.lanes + r * 32
    if k < x.win then sc ((m * x.step + k) / 32) else pad

/-- What each line of a range holds, found without disturbing anything: its bytes, or marks of those that cannot be read. -/
def State.peekLines (s : State) (a n : Nat) (who : Agent) : List Byte × List Byte :=
  let rs := (pieces a n).map fun (p, k) =>
    let r := (s.readPiece (p % 2 ^ 48) k who (p / 2 ^ 48)).1
    if r.status = 0 && !r.waiting then (r.bytes, List.replicate k (0 : Byte)) else (List.replicate k 0, List.replicate k 0xFF)
  (rs.flatMap (·.1), rs.flatMap (·.2))

/-- The lines of a string that may be written after a source line failed: none that holds anything of such a line; of the others
a free choice (R447). -/
def State.writeSome (s : State) (who : Agent) (free a : Nat) (prod : Option Nat) (ack : Option Status) (data taint : List Byte) : State :=
  (pieces a data.length).foldl (fun s (p, k) =>
    let i := p - a
    if ((taint.drop i).take k).all (· == 0) && Config.freeBool (free + i) then
      (s.writeGroup p ((data.drop i).take k) prod ack who).2
    else s) s

/-- A SKEW. -/
def State.skewWork (core : Nat) (remote : Option (Status × List Byte)) (ack : Option Status) (s : State) (d : DmaDesc) :
    State :=
  let ws := d.words
  let x := skewOf ws
  let src := dmaSrc ws
  let dst := dmaDst ws
  let srcScale := s.ownAddr (tileField ws 4 47 0)
  let dstScale := s.ownAddr (tileField ws 5 47 0)
  let who := Agent.dma core d.id
  if !dmaWellFormed ws then s.endDma core d.id 0x02
  else if x.m = 0 || x.k = 0 then s.endDma core d.id 0
  else
    let st := s.dmaChecks (coreTower core) [(src, x.srcBytes), (dst, x.outBytes), (srcScale, x.srcScales), (dstScale, x.scaleBytes)] x.legal
    if st ≠ 0 then s.endDma core d.id st
    else
      let (r, s1) := if x.srcBytes = 0 then (({} : ReadResult), s) else s.readGroup src x.srcBytes who remote
      if r.waiting then s1
      else
        let (q, s2) := if r.status ≠ 0 then (({} : ReadResult), s1) else s1.readRange (srcScale % 2 ^ 48) x.srcScales who
        if q.waiting then s2
        else
          let mask := 2 ^ x.bits - 1
          let el (bytes : List Byte) (i : Nat) : Nat := bytesToNat bytes / 2 ^ (i * x.bits) % (mask + 1)
          if r.status = 0 && q.status = 0 then
            let (w, s3) := s2.writeGroup dst (x.string (el r.bytes)) d.rerun ack who
            let (w2, s4) := if w = 0 then s3.writeRange (dstScale % 2 ^ 48) (x.scales (q.bytes.getD · 0) 0x7F) d.rerun who
              else (w, s3)
            if w2 = askedStatus then s4 else s4.endDma core d.id w2
          else
            let (data, taint) := if remote.isNone || s.isOwn (src / 2 ^ 48 % 64) then s.peekLines (s.homeAddr src) x.srcBytes who
              else (r.bytes, r.bytes.map (fun _ => (0 : Byte)) ++ List.replicate (x.srcBytes - r.bytes.length) 0xFF)
            let (sdata, staint) := s.peekLines srcScale x.srcScales who
            let s := s2.writeSome who (d.id * 2 ^ 33) dst d.rerun ack (x.string (el data))
              (x.string fun i => if el taint i = 0 then 0 else mask)
            let s := s.writeSome who (d.id * 2 ^ 33 + 2 ^ 32) dstScale d.rerun ack (x.scales (sdata.getD · 0) 0x7F) (x.scales (staint.getD · 0) 0)
            s.endDma core d.id (if r.status ≠ 0 then r.status else q.status)

/-- SKEW writes the string and the scales of the engine's oldest such descriptor. -/
def execSkew (core : Nat) (remote : Option (Status × List Byte)) (ack : Option Status) (s : State) :
    Host.Outcome State Fault Refusal :=
  .next (s.runDma core (· == 1) (State.skewWork core remote ack))

/-! ### Completion (R111, R421) -/

/-- DMA_COMPLETE: the engine's oldest descriptor whose work has ended completes to its counter, wait or ring slot. -/
def execDmaComplete (core : Nat) (s : State) : Host.Outcome State Fault Refusal :=
  .next (
    if !s.running then s
    else
      match (s.core core).dma.find? (·.status.isSome) with
      | some d =>
        let c := s.core core
        (s.setCore core { c with dma := c.dma.filter (·.id != d.id) }).complete d.target (d.status.getD 0)
      | none => s)

/-! ### Scrubs (R418, R457 to R461) -/

/-- Word 0 and the reserved bits of a scrub descriptor (R418). -/
def scrubWellFormed (ws : List Word) : Bool :=
  word0Status (ws.getD 0 0) == 0 && tileField ws 1 63 48 == 0 && tileField ws 2 31 0 == 0 && tileField ws 3 63 48 == 0 &&
  (ws.drop 4).all (· == 0)

/-- SCRUB: the engine's oldest scrub is checked and its channel takes the pass. -/
def State.scrubWork (s : State) (core : Nat) (d : DmaDesc) : State :=
  let ws := d.words
  let start := tileField ws 1 47 0
  let n := tileField ws 2 63 32
  let summary := tileField ws 3 47 0
  let fail (st : Status) : State := s.endDma core d.id st
  if !scrubWellFormed ws then fail 0x02
  else if n = 0 then fail 0
  else
    let ch := start / dramTower * 2048 + start % dramTower / channelBytes
    let local_ := start < 8 * dramTower
    let st := s.dmaChecks (coreTower core) [(s.ownAddr start, n), (s.ownAddr summary, 64)]
      (local_ && start % 64 == 0 && n % 64 == 0 && n ≤ 2 ^ 26 && summary % 64 == 0 && s.issuer ch == some core)
    if local_ && (s.issuer ch).isNone then fail 0x07
    else if st ≠ 0 then fail st
    else
      let first := start % channelBytes / 64
      let c := s.channel ch
      s.setChannel ch { c with scrubs := c.scrubs ++
        [{ core := core, desc := d.id, next := first, stop := first + n / 64, summary := summary }] }

/-- SCRUB: a scrub descriptor that no channel has taken yet starts its pass. -/
def execScrub (core : Nat) (s : State) : Host.Outcome State Fault Refusal :=
  .next (
    let taken (id : Nat) : Bool := s.channels.any fun e => e.2.scrubs.any (·.desc == id)
    match (s.core core).dma.find? fun d =>
        (d.words.headD 0).toNat / 2 ^ 40 % 256 == 7 && d.status.isNone && !taken d.id with
    | some d => if s.running then s.scrubWork core d else s
    | none => s)

/-- The summary record (R459). -/
def ScrubPass.record (p : ScrubPass) (ch : Nat) : List Byte :=
  let valid (l : Option Nat) : Nat := match l with
    | some line => 2 ^ 63 + dramAddr ch (line * 64)
    | none => 0
  [p.read * 2 ^ 32 + p.corrected, p.uncorrectable * 2 ^ 32 + p.poisoned, p.skipped * 2 ^ 32 + p.status.toNat,
   valid p.firstFail, valid p.firstCe, p.written * 2 ^ 32 + p.logged, 0, 0].flatMap (natToBytes 8)

/-- SCRUB_COMPLETE: a pass at its end, with no read under way and every repair issued or dropped, writes its summary and
ends with the status of the pass or of the failing write (R459). -/
def execScrubComplete (ch : Nat) (s : State) : Host.Outcome State Fault Refusal :=
  .next (
    let c := s.channel ch
    match c.scrubs with
    | p :: rest =>
      let ended := p.stop ≤ p.next || p.status ≠ 0
      if !s.running || !ended || c.flight.any (·.scrub) || p.waiting.any (fun l => c.wbq.any (·.line == l)) then s
      else
        s.unit p.core (.dma p.core p.desc) fun s =>
          let (w, s) := (s.setChannel ch { s.channel ch with scrubs := rest }).writeRange p.summary (p.record ch) none (.dma p.core p.desc)
          s.endDma p.core p.desc (if w = 0 then p.status else w)
    | [] => s)

/-! ### Recovery of SRAM lines (R451 to R455) -/

/-- What a record's source gives for one SRAM line, both lines where it spans two; `remote` is another member's answer (R451). -/
def State.refetchLine (s : State) (line : Nat) (r : CopyRecord) (remote : Option (Status × List Byte)) : ReadResult × State :=
  match r.src with
  | none => ({ bytes := (fillBytes r.pattern.toNat (r.lineAddr line - r.dst + 64)).drop (r.lineAddr line - r.dst) }, s)
  | some src => s.readGroup (src + (r.lineAddr line - r.dst)) 64 (.refetch line) remote

/-- REFETCH_COMPLETE: a clean line comes back from its source, as that stands now, and its readers go on (R451, R453). A line
whose record has ended since is no longer clean: its refetch has failed. -/
def execRefetchComplete (refetch : Refetch) (s : State) : Host.Outcome State Fault Refusal :=
  let line := refetch.line
  .next (
    if !s.running || !(s.mem.recoveries.any fun r => r.line == line && r.kind == .refetch) then s
    else
      s.unit (sramUnit line) (.refetch line) fun s =>
        match (s.copyRecords line).find? (·.coversLine line) with
        | none => s.endRecovery line (s.crcOk line) 0
        | some r =>
          let (q, s) := s.refetchLine line r refetch.remote
          if q.waiting then s
          else if q.status ≠ 0 then s.endRecovery line false 0
          else ((s.poke (line * 64) q.bytes).setCrc line 0).endRecovery line true 0)

/-- SRAM_RERUN_START: once the producer has completed, its saved launch starts again on its core, ahead of every queue
(R453, R454). -/
def execSramRerunStart (cluster entry : Nat) (s : State) : Host.Outcome State Fault Refusal :=
  .next (
    let waiting := s.mem.recoveries.any fun r => r.kind == .rerun entry && r.deadline.isNone && sramUnit r.line / 16 == cluster
    match s.rerunEntry cluster entry with
    | none => s
    | some e =>
      if !waiting || e.running || !s.coreUp e.core then s
      else
        match s.launchEntry e.queue (e.words.getD 1 0), (s.core e.core).freeCtx with
        | some (a, _), some k =>
          let s := s.startThread e.core k e.words e.queue a none (some e.id)
          let s := s.updRerun cluster e.id fun e => { e with ctx := k, running := true }
          let limit := s.run + msCycles (s.reg 0x4403 1)
          let arm (r : Recovery) : Recovery :=
            if r.kind == RecoveryKind.rerun entry && r.deadline.isNone then { r with deadline := some limit } else r
          { s with mem := { s.mem with recoveries := s.mem.recoveries.map arm } }
        | _, _ => s)

/-- RERUN_TIMEOUT: a rerun that has not completed with OK in time: its readers meet CRC_UNRECOVERED (R454). -/
def execRerunTimeout (entry : Nat) (s : State) : Host.Outcome State Fault Refusal :=
  .next (
    let late := s.mem.recoveries.any fun r => r.kind == .rerun entry && (match r.deadline with
      | some t => decide (t ≤ s.run)
      | none => false)
    if late && s.running then s.endRerun entry false else s)

/-! ### Write-back suppression, the write-back log and lanes (R442 to R448) -/

/-- WB_SUPPRESS of a tower: one bit per channel index, 160 bytes (R443, R464). -/
def execWbSuppressWrite (t : Nat) (bytes : List Byte) (s : State) : Host.Outcome State Fault Refusal :=
  .next (s.written (
    if 8 ≤ t || bytes.length ≠ 160 then s
    else { s with mem := { s.mem with wbSuppress := (List.range 1280).foldl (fun m n =>
        Map.set false m (t * 2048 + n) ((bytes.getD (n / 8) 0).getLsbD (n % 8))) s.mem.wbSuppress } }))

/-- WB_LOG_CLEAR empties one entry of a tower's log, or all 64; an entry detected in the same reference cycle, before the clearing or after
it, stays with COUNT 1 and what that detection gives (R446); a log with an empty entry is full no more (R445). -/
def execWbLogClear (t : Nat) (v : Byte) (s : State) : Host.Outcome State Fault Refusal :=
  .next (s.written (
    if 8 ≤ t then s
    else
      let named (k : Nat) : Bool := k / 64 == t && (v.getLsbD 6 || k % 64 == v.toNat % 64)
      let stays (e : Nat × WbEntry) : Bool := !named e.1 || e.2.refTime == s.refTime t
      let log := (s.mem.wbLog.filter stays).map fun e =>
        if named e.1 then (e.1, { e.2 with count := 1, kind := e.2.last, rewritten := false }) else e
      let gone := (s.mem.wbLog.filter fun e => !stays e).foldl (fun m e =>
        Map.set 0 m e.1 (e.2.channel.toNat * 2 ^ 20 + e.2.offset.toNat / 64 + 1))
        (if s.mem.wbClearedAt = s.now + 1 then s.mem.wbCleared else [])
      let full := (List.range 64).all fun i => log.any fun e => e.1 == t * 64 + i && e.2.kind != 0
      { s with mem := { s.mem with
          wbLog := log
          wbClearedAt := s.now + 1
          wbCleared := gone
          wbFull := if full then s.mem.wbFull else Map.set 0 s.mem.wbFull t 0 } }))

/-- LANE_SUSPECT_WINDOW: at the end of each 1 s window the channel starts counting again (R448); the lanes that have become suspect since
count for REPLACE_REASONS (R627). -/
def execLaneSuspectWindow (ch : Nat) (s : State) : Host.Outcome State Fault Refusal :=
  .next (if s.now < (s.channel ch).laneWindowAt + secCycles 1 then s else (s.rollLanes ch).refreshReplace)

end Sys2Proof.Machine
end

