-- ==== Sys2Proof/Machine/Float.lean ====
section
/-! DEFINITION. Scalar binary32 operations and conversions (R101, R126). -/
namespace Sys2Proof.Machine

/-- A binary32 operation on bits 31:0 of XA and XB, zero-extended into XD (R101). -/
def State.floatOp (s : State) (i : Issue) (xd xa xb : Reg) (fn : BitVec 11)
    (f : Word32 → Word32 → Word32 × List NumEvent) : State :=
  s.resultCounted i (wordR 0x0D xd xa xb fn) xd fun c =>
    let r := f ((c.x xa).truncate 32) ((c.x xb).truncate 32)
    (r.1.zeroExtend 64, r.2)

/-- FADD: adds (R101). -/
def execFadd (i : Issue) (xd xa xb : Reg) (s : State) : Host.Outcome State Fault Refusal :=
  .next (s.floatOp i xd xa xb 0x0 f32Add)

/-- FSUB: subtracts (R101). -/
def execFsub (i : Issue) (xd xa xb : Reg) (s : State) : Host.Outcome State Fault Refusal :=
  .next (s.floatOp i xd xa xb 0x1 f32Sub)

/-- FMUL: multiplies (R101). -/
def execFmul (i : Issue) (xd xa xb : Reg) (s : State) : Host.Outcome State Fault Refusal :=
  .next (s.floatOp i xd xa xb 0x2 f32Mul)

/-- FMIN: the smaller value under the NaN rules (R214) (R101). -/
def execFmin (i : Issue) (xd xa xb : Reg) (s : State) : Host.Outcome State Fault Refusal :=
  .next (s.floatOp i xd xa xb 0x3 (f32Op2 Val.min))

/-- FMAX: the larger value under the NaN rules (R214) (R101). -/
def execFmax (i : Issue) (xd xa xb : Reg) (s : State) : Host.Outcome State Fault Refusal :=
  .next (s.floatOp i xd xa xb 0x4 (f32Op2 Val.max))

/-- FLT: 1 when XA < XB, 0 with a NaN (R101). -/
def execFlt (i : Issue) (xd xa xb : Reg) (s : State) : Host.Outcome State Fault Refusal :=
  .next (s.floatOp i xd xa xb 0x5 (f32Cmp Val.lt))

/-- FLE: 1 when XA ≤ XB, 0 with a NaN (R101). -/
def execFle (i : Issue) (xd xa xb : Reg) (s : State) : Host.Outcome State Fault Refusal :=
  .next (s.floatOp i xd xa xb 0x6 (f32Cmp Val.le))

/-- FEQ: 1 when XA equals XB, 0 with a NaN (R101). -/
def execFeq (i : Issue) (xd xa xb : Reg) (s : State) : Host.Outcome State Fault Refusal :=
  .next (s.floatOp i xd xa xb 0x7 (f32Cmp Val.eqv))

/-- FABS: the sign cleared, or the canonical NaN (R101). -/
def execFabs (i : Issue) (xd xa xb : Reg) (s : State) : Host.Outcome State Fault Refusal :=
  .next (s.floatOp i xd xa xb 0x8 (fun a _ => (f32Abs a, [])))

/-- FNEG: the sign flipped, or the canonical NaN (R101). -/
def execFneg (i : Issue) (xd xa xb : Reg) (s : State) : Host.Outcome State Fault Refusal :=
  .next (s.floatOp i xd xa xb 0x9 (fun a _ => (f32Neg a, [])))

/-- Formats that the CVT column of R122 admits. -/
def cvtFormat (f : Fmt) : Bool :=
  match f with
  | .fp32 | .bf16 | .fp16 | .int32 | .int64 | .uint64 => true
  | _ => false

/-- The conversion of R126: the source read from the low bits of XA, one rounding, an INT32 result sign-extended. -/
def convert (fn : BitVec 11) (a : Word) : Word × List NumEvent :=
  let src := Fmt.ofCode ((fn >>> 2).truncate 4)
  let dst := Fmt.ofCode ((fn >>> 6).truncate 4)
  let (v, e1) := src.read a.toNat
  let (n, e2) := dst.write (if fn.getLsbD 10 then .zero else .nearest) v
  let w : Word := match dst with
    | .int32 => (BitVec.ofNat 32 n).signExtend 64
    | _ => BitVec.ofNat 64 n
  (w, e1 ++ e2)

/-- CVT converts between the formats of FN; a format that its column does not admit makes the word illegal (R126). -/
def execCvt (i : Issue) (xd xa : Reg) (fn : BitVec 11) (s : State) : Host.Outcome State Fault Refusal :=
  if cvtFormat (Fmt.ofCode ((fn >>> 2).truncate 4)) && cvtFormat (Fmt.ofCode ((fn >>> 6).truncate 4)) then
    .next (s.resultCounted i (wordR 0x0E xd xa 0 fn) xd fun c => convert fn (c.x xa))
  else
    .next (s.issue i (wordR 0x0E xd xa 0 fn) fun s => s.faultAt i.core i.ctx causeIllegal 0x08 0)

end Sys2Proof.Machine
end

