-- ==== Sys2Proof/Machine/Freeze.lean ====
section
/-! DEFINITION. Freeze, thaw and the capture of frozen state (spec file 18_freeze_and_capture.md). -/
namespace Sys2Proof.Machine

/-! ### Freezing and thawing (R666, R667, R671) -/

/-- FREEZE: any write sets SOFTWARE; while FROZEN it changes nothing (R681). -/
def execFreeze (_ : Byte) (s : State) : Host.Outcome State Fault Refusal :=
  .next (s.written (if s.reg 0xA001 3 = 2 then s else s.setFreezeSource freezeSoftware))

/-- The last source has cleared while FROZEN: THAWING, whose procedure the tick ends (R671). -/
def State.beginThaw (s : State) : State :=
  if s.reg 0xA001 4 = 0 && s.reg 0xA001 3 = 2 then
    { s with capture := { s.capture with thawAt := s.now } }.setReg 0xA001 3 3
  else s

/-- A freeze source clears. -/
def State.clearFreezeSource (s : State) (bit : Nat) : State := (s.clearFlags 0xA001 4 bit).beginThaw

/-- THAW: any write clears SOFTWARE; with FREEZE_N low the device stays frozen. While RUNNING it changes nothing (R681). -/
def execThaw (_ : Byte) (s : State) : Host.Outcome State Fault Refusal :=
  .next (s.written (if s.reg 0xA001 3 = 0 then s else s.clearFreezeSource freezeSoftware))

/-- FREEZE_N_LOW: a low of a width in ns: 200 ns or more sets PIN, up to 100 ns is ignored, between them either happens (R698). Not
acted on while RESET_N is low (R699). -/
def execFreezeNLow (ns : Nat) (s : State) : Host.Outcome State Fault Refusal :=
  .next (
    let take := 200 ≤ ns || (100 < ns && Config.freeBool s.fresh)
    let s := { s with fresh := s.fresh + 1 }
    if !take then s
    else
      let s := { s with pins := { s.pins with freezeN := false } }
      if s.pins.resetN && s.boot.started then s.setFreezeSource freezePin else s)

/-- FREEZE_N_HIGH: clears PIN. -/
def execFreezeNHigh (s : State) : Host.Outcome State Fault Refusal :=
  .next ({ s with pins := { s.pins with freezeN := true } }.clearFreezeSource freezePin)

/-- Commands that channel controllers have issued are still under way. -/
def Channel.underWay (c : Channel) (now : Nat) : Bool :=
  !c.segments.isEmpty || c.transfer.isSome || !c.flight.isEmpty || c.banks.any fun e => decide (now < e.2.refreshEnd)

/-- FREEZE_COMPLETE: every stage has stopped and every controller is in self-refresh; fields with 80 or more running arrays are noted for
the thaw (R184). With no source left THAWING begins at once. -/
def execFreezeComplete (s : State) : Host.Outcome State Fault Refusal :=
  .next (
    if s.reg 0xA001 3 ≠ 1 || s.channels.any fun e => e.2.underWay s.now then s
    else
      let s := (List.range 64).foldl (fun (s : State) f =>
        if s.fieldUp f && 80 ≤ s.runningArrays f then s.setField f { s.field f with rampAtThaw := true } else s) s
      ((s.setReg 0xA001 3 2).setReg 0xA001 5 (s.refTime 0).toNat).beginThaw)

/-! ### The capture space (R674 to R678) -/

/-- A capture address by its fields. -/
structure Place18 where
  tower : Nat
  cluster : Nat
  core : Nat
  unit : Nat
  off : Nat
  deriving DecidableEq, Repr

def capturePlace (a : Nat) : Place18 := ⟨bitsOf a 58 56, bitsOf a 55 49, bitsOf a 48 45, bitsOf a 44 40, bitsOf a 39 0⟩

/-- The core id, or that of the channel beneath. -/
def Place18.coreId (p : Place18) : Nat := p.tower * 2048 + p.cluster * 16 + p.core

/-- Size of a unit; 0 for a code that is not assigned. -/
def unitBytes : Nat → Nat
  | 0x01 => 81920
  | 0x02 => 262144
  | 0x03 => 512
  | 0x04 => 2048
  | 0x05 => 512
  | 0x06 => 64
  | 0x08 => 4194304
  | 0x09 => 26880
  | 0x0C => 8192
  | 0x0D => 67108864
  | _ => 0

/-- Codes of R86. -/
def CtxState.code : CtxState → Nat
  | .free => 0 | .ready => 1 | .waitMem => 2 | .waitCmd => 3 | .waitSync => 4 | .waitUnit => 5 | .exiting => 6 | .faulted => 7

/-- The access in flight of a context: address, kind and register (R676). A sync read has no group address, so its PEND_ADDR is a free
value (assumption 55). -/
def State.pending18 (s : State) (c : Ctx) : Option (Nat × Nat × Nat) :=
  let addr (id : Nat) : Nat := match s.findReq id with
    | some r => r.addr
    | none => 0
  match c.wait with
  | .load id xd _ _ => some (addr id, 0, xd.toNat)
  | .atomic id xd => some (addr id, 1, xd.toNat)
  | .syncRead id xd => some ((Config.freeWord id).toNat % 2 ^ 54, 2, xd.toNat)
  | _ => none

/-- The 320 bytes of a context's record (R676). -/
def State.ctxRecord (s : State) (core k : Nat) : List Byte :=
  let c := s.ctx core k
  let at_ (b v : Nat) : Nat := v * 2 ^ b
  let regs := ((List.range 32).map fun r => at_ (64 * r) (c.x (BitVec.ofNat 5 r)).toNat).sum
  let wcs := ((List.range 4).map fun i => at_ (2176 + 6 * i) (c.counter (BitVec.ofNat 2 i)).toNat).sum
  let asyncs := ((List.range 4).map fun i => at_ (2208 + 8 * i) (c.asyncStatus (BitVec.ofNat 2 i)).toNat).sum
  let pend := match s.pending18 c with
    | some (a, kind, xd) => at_ 2304 a + at_ 2254 kind + at_ 2253 1 + at_ 2248 xd
    | none => 0
  natToBytes 320 (regs + at_ 2048 c.pc.toNat + at_ 2066 c.state.code + at_ 2069 (if c.issueClass then 1 else 0) +
    at_ 2070 c.taskQueue.toNat + at_ 2112 c.vcfg.toNat + wcs + asyncs + at_ 2240 c.storeStatus.toNat + pend)

/-- The 128 bytes of an array's record; the step of a running tile is a free value (assumption 55). -/
def State.arrayRecord (s : State) (core a base : Nat) : List Byte :=
  let u := s.array core a
  let words := match u.tiles with
    | t :: _ => if t.running then t.words else []
    | [] => []
  let step := bytesToNat ((List.range 3).map fun i => Config.freeByte s.run (base + 64 + i)) % 2 ^ 20
  let state := match u.tiles with
    | t :: _ =>
      (if t.running then 2 ^ 62 + step * 2 ^ 30 else if u.startable s.run && !s.rampAdmits core a then 2 ^ 63 else 0) +
        (if t.running then t.pass % 256 * 2 ^ 50 + t.attempt % 2 * 2 ^ 29 else 0)
    | [] => 0
  let hold := match u.tiles.find? (·.opened) with
    | some t => t.holdEnd - s.run
    | none => 0
  (words.flatMap fun w => natToBytes 8 w.toNat) ++ List.replicate (64 - 8 * words.length) 0 ++
    natToBytes 8 (state + u.tiles.length % 32 * 2 ^ 24) ++ natToBytes 8 hold ++ List.replicate 48 0

/-- An entry of the vector unit's input; the next element of a running operation is a free value (assumption 55). -/
def vectorRecord (v : VecOp) (free : List Byte) : List Byte :=
  natToBytes 8 (2 ^ 63 + v.ctx * 2 ^ 32 + v.word.toNat) ++ natToBytes 8 v.vcfg.toNat ++ natToBytes 8 v.xd.toNat ++
  natToBytes 8 v.xa.toNat ++ natToBytes 8 v.xb.toNat ++ natToBytes 8 v.xc.toNat ++
  (if v.running then free else List.replicate 8 0) ++ List.replicate 8 0

/-- The 64 bytes of a core's scheduler. -/
def State.schedulerRecord (s : State) (core : Nat) : List Byte :=
  let c := s.core core
  let age (n : Nat) : Nat := match (s.queue (core * 32 + n)).eligibleSince with
    | some t => min 0xFF ((s.run - t) / usCycles 1)
    | none => 0
  [BitVec.ofNat 8 c.last0, BitVec.ofNat 8 c.last1] ++ (List.range 5).map (fun l => BitVec.ofNat 8 (Map.get 31 c.lastTaken l)) ++ [0] ++
    (List.range 32).map (fun n => BitVec.ofNat 8 (age n)) ++ List.replicate 24 0

/-- An entry of a channel's window. -/
def State.windowRecord (s : State) (e : WinEntry) : List Byte :=
  match (e.reqs.head?).bind s.findReq with
  | none => natToBytes 8 (2 ^ 62 + e.line * 64) ++ List.replicate 120 0
  | some r =>
    let (kind, data) := match r.kind with
      | .read _ => (1, [])
      | .write b => (2, b)
      | .atomic _ v _ => (3, natToBytes 8 v.toNat)
      | .push _ b => (2, b)
    let issued := if r.stage == .column then 2 ^ 61 else 0
    let who := match r.src with
      | .thread c _ _ => c
      | _ => 0x3FFF
    natToBytes 8 (kind * 2 ^ 62 + issued + r.loc % 2 ^ 26) ++ natToBytes 8 (s.run - e.arrival) ++ natToBytes 8 who ++
      List.replicate 40 0 ++ data ++ List.replicate (64 - data.length) 0

/-- Units other than memories, as bytes. -/
def State.unitImage (s : State) (p : Place18) (base : Nat) : List Byte :=
  let core := p.coreId
  match p.unit with
  | 0x03 => (List.range 4).flatMap fun a => s.arrayRecord core a (base + 128 * a)
  | 0x04 => (s.core core).dma.flatMap fun d => d.words.flatMap fun w => natToBytes 8 w.toNat
  | 0x05 => (List.zip (List.range 8) (s.core core).vec).flatMap fun e =>
      vectorRecord e.2 ((List.range 8).map fun i => Config.freeByte s.run (base + 64 * e.1 + 48 + i))
  | 0x06 => s.schedulerRecord core
  | 0x0C => (s.channel core).window.flatMap s.windowRecord
  | _ => []

/-- What a capture read answers. -/
inductive CaptureResult where
  | ok | crcFail | uncorrectable | badLength | badValue | notFrozen | outOfService
  deriving DecidableEq, Repr

/-- SRAM as stored; a line whose CRC fails is counted with its capture address (R677). -/
def State.captureSram (s : State) (a n capture : Nat) : Bool × List Byte × State :=
  let lines := (List.range ((a + n + 63) / 64 - a / 64)).map (a / 64 + ·)
  let bad := lines.filter fun l => !s.crcOk l
  let s := bad.foldl (fun (s : State) l => (s.sat32 0xBD00 2 1).setReg 0xA002 3 (capture / 64 * 64 + (l - a / 64) * 64)) s
  (!bad.isEmpty, s.bytes a n, s)

/-- DRAM through the channel's code; a line that is uncorrectable or poisoned reads all ones. -/
def State.captureDram (s : State) (ch : Nat) : List (Nat × Nat) → Bool × List Byte × State
  | [] => (false, [], s)
  | (off, n) :: rest =>
    let (st, data, s) := s.readDramLine ch off .queue
    let (bad, more, s) := s.captureDram ch rest
    (st != 0 || bad, (if st = 0 then (data.drop (off % 64)).take n else List.replicate n 0xFF) ++ more, s)

/-- A byte of a router's input buffers: port by port, channel by channel, 8 slots of 80 bytes. An empty slot reads zero; how a flit lies
in its slot the spec does not say, so a byte of one is a free value (R675; assumption 55). -/
def State.routerByte (s : State) (r i : Nat) : Byte :=
  let slot := i / 80
  if slot % 8 < ((s.router r).buffer (slot / 8 % 7) (slot / 56)).length then Config.freeByte (s.run * 1024 + r) i else 0

/-- A capture read of `n` bytes (R677, R678). -/
def State.captureRead (s : State) (a n : Nat) : CaptureResult × List Byte × State :=
  let p := capturePlace a
  let size := unitBytes p.unit
  let core := p.coreId
  let channelUnit := p.unit == 0x0C || p.unit == 0x0D
  let faulted := p.unit == 1 && p.off / 320 == (p.off + n - 1) / 320 && s.reg 0xA111 1 == 1 &&
    (s.ctx core (p.off / 320)).state == .faulted
  let fieldUp := s.fieldUp (p.tower * 8 + clusterField p.cluster)
  let served := channelUnit || (fieldUp && (p.unit == 0x08 || p.unit == 0x09 || s.inService core))
  if size ≠ 0 && size < p.off + n then (.badLength, [], s)
  else if size = 0 || 80 ≤ p.cluster || a / 2 ^ 59 ≠ 0 then (.badValue, [], s)
  else if s.reg 0xA001 3 ≠ 2 && !faulted then (.notFrozen, [], s)
  else if !served then (.outOfService, [], s)
  else
    match p.unit with
    | 0x01 =>
      let first := p.off / 320
      let recs := (List.range ((p.off + n + 319) / 320 - first)).flatMap fun i => s.ctxRecord core (first + i)
      (.ok, (recs.drop (p.off % 320)).take n, s)
    | 0x02 =>
      let (bad, bytes, s) := s.captureSram (storeAddr core p.off) n a
      (if bad then .crcFail else .ok, bytes, s)
    | 0x08 =>
      let (bad, bytes, s) := s.captureSram (sliceBase + (p.tower * 2048 + p.cluster * 16) * 0x40000 + p.off) n a
      (if bad then .crcFail else .ok, bytes, s)
    | 0x09 => (.ok, (List.range n).map fun i => s.routerByte (p.tower * 128 + p.cluster) (p.off + i), s)
    | 0x0D =>
      let s := { s with capture := { s.capture with awake := Map.set 0 s.capture.awake core s.now } }
      let (bad, bytes, s) := s.captureDram core (pieces p.off n)
      (if bad then .uncorrectable else .ok, bytes, s)
    | _ =>
      let img := s.unitImage p (a - p.off)
      (.ok, ((img ++ List.replicate (size - img.length) 0).drop p.off).take n, s)

/-- The RESULT code of R638. -/
def CaptureResult.code : CaptureResult → Nat
  | .ok | .crcFail | .uncorrectable => 0
  | .badLength => 0x06
  | .badValue => 0x07
  | .notFrozen | .outOfService => 0x08

/-- CAPTURE_DATA: a READ of up to 1,024 bytes at an offset of the 16 MiB window that starts at CAPTURE_ADDR (R640, R679). -/
def State.readCapture (s : State) (offset n : Nat) : Nat × List Byte × State :=
  if n = 0 || 1024 < n || 2 ^ 24 ≤ offset then (0x06, [], s)
  else
    let n := min n (2 ^ 24 - offset)      -- the response stops at the window's end (R637)
    let (r, bytes, s) := s.captureRead (s.reg 0xA002 1 + offset) n
    (r.code, bytes, s)

/-- With no steward the request is answered NOT_READY (R39). -/
def execCaptureData (offset n : Nat) (s : State) : Host.Outcome State Fault Refusal :=
  .next (
    if s.steward.lost then s.send (.answered 0x12 0 [])
    else
      let (code, bytes, s) := s.readCapture offset n
      s.send (.answered code 0 bytes))

/-- CAPTURE_IDLE_EXPIRY: 1.0 µs after its last capture read a channel returns to self-refresh. -/
def execCaptureIdleExpiry (ch : Nat) (s : State) : Host.Outcome State Fault Refusal :=
  .next (
    match s.capture.awake.find? fun e => e.1 == ch with
    | some e =>
      if e.2 + usCycles 1 ≤ s.now then { s with capture := { s.capture with awake := Map.erase s.capture.awake ch } } else s
    | none => s)

/-! ### The test access port (R680) -/

/-- An instruction selected, and what its data register shifts out. -/
def State.tap (s : State) (ir : BitVec 8) (out : Nat) : State :=
  ({ s with capture := { s.capture with ir := ir } }).send (.jtag out)

/-- EXTEST: the boundary-scan register drives the lands; what it captures from them is a free value (assumption 55). -/
def execExtest (bits : Nat) (s : State) : Host.Outcome State Fault Refusal :=
  .next (
    let s := s.tap 0x00 (Config.freeWord s.fresh).toNat
    { s with fresh := s.fresh + 1, capture := { s.capture with scan := bits } })

/-- SAMPLE/PRELOAD: the lands are sampled and the register is preloaded. -/
def execSamplePreload (bits : Nat) (s : State) : Host.Outcome State Fault Refusal :=
  .next (
    let s := s.tap 0x01 (Config.freeWord s.fresh).toNat
    { s with fresh := s.fresh + 1, capture := { s.capture with scan := bits } })

def execIdcode (s : State) : Host.Outcome State Fault Refusal := .next (s.tap 0x02 0x1A8D7E2B)

/-- CAPADDR: Update-DR loads the capture address, a multiple of 8. -/
def execCapaddr (a : BitVec 64) (s : State) : Host.Outcome State Fault Refusal :=
  .next (
    let s := s.tap 0x10 s.capture.address
    if a.toNat % 8 = 0 then { s with capture := { s.capture with address := a.toNat } } else s)

/-- CAPDATA: 8 bytes with their status, and the address advances unless it was refused. -/
def execCapdata (s : State) : Host.Outcome State Fault Refusal :=
  .next (
    let a := s.capture.address
    let (r, bytes, s) := s.captureRead a 8
    let status := match r with
      | .ok => 0
      | .notFrozen => 1
      | .badLength | .badValue | .outOfService => 2
      | .crcFail => 3
      | .uncorrectable => 4
    let refused := status = 1 ∨ status = 2
    let data := if refused then 2 ^ 64 - 1 else bytesToNat bytes
    let s := s.tap 0x11 (status * 2 ^ 64 + data)
    if refused then s else { s with capture := { s.capture with address := (a + 8) % 2 ^ 64 } })

/-- BYPASS: the one-bit register, which captures 0. -/
def execBypass (s : State) : Host.Outcome State Fault Refusal := .next (s.tap 0xFF 0)

end Sys2Proof.Machine
end

