-- ==== Sys2Proof/Machine/DictTable.lean ====
section
/-! DEFINITION. The directory of the object dictionary: every subindex range with its type, access, privilege and size, from the
entry tables of the chapters (R632 to R634, R661 to R664). -/
namespace Sys2Proof.Machine

/-- The access rights of R634. -/
inductive Access where
  | ro | rw | wo | rws
  deriving DecidableEq, Repr

/-- The type codes of R633 that the rules name. -/
def typeF32 : Nat := 6
def typeStr : Nat := 7
def typeBlob : Nat := 8

/-- A subindex range: index, first and last subindex, type code (R633), access, privilege (0 host, 1 steward, 2 factory) and the bytes of
one value (the largest size of a STR, the window of CAPTURE_DATA and FLASH_CONTENT). -/
structure Entry where
  index : Nat
  first : Nat
  last : Nat
  type : Nat
  access : Access
  level : Nat
  size : Nat
  deriving DecidableEq, Repr

/-- Writes of class B (R648): RWS entries, FLASH_DATA and FLASH_ERASE. -/
def Entry.classB (e : Entry) : Bool := e.access == .rws || (e.index == 0x9020 && (e.first == 2 || e.first == 3))

def Entry.variable (e : Entry) : Bool := e.type == typeStr || e.type == typeBlob

def dictIdentity0 : List Entry :=
  [⟨0x1000, 0x01, 0x01, 7, .ro, 0, 64⟩,
   ⟨0x1000, 0x02, 0x02, 7, .ro, 0, 64⟩,
   ⟨0x1000, 0x03, 0x03, 1, .ro, 0, 1⟩,
   ⟨0x1000, 0x04, 0x04, 7, .ro, 0, 64⟩,
   ⟨0x1000, 0x05, 0x05, 7, .ro, 0, 64⟩,
   ⟨0x1000, 0x06, 0x06, 4, .ro, 0, 8⟩,
   ⟨0x1000, 0x07, 0x07, 3, .ro, 0, 4⟩,
   ⟨0x1000, 0x08, 0x08, 3, .ro, 0, 4⟩,
   ⟨0x1000, 0x09, 0x09, 2, .ro, 0, 2⟩,
   ⟨0x1010, 0x01, 0x01, 8, .ro, 0, 4104⟩,
   ⟨0x1010, 0x02, 0x02, 3, .ro, 0, 4⟩,
   ⟨0x1030, 0x01, 0x01, 3, .wo, 0, 4⟩,
   ⟨0x1030, 0x02, 0x02, 3, .rws, 1, 4⟩,
   ⟨0x1030, 0x03, 0x03, 1, .ro, 0, 1⟩,
   ⟨0x1030, 0x04, 0x04, 1, .wo, 0, 1⟩,
   ⟨0x1100, 0x01, 0x01, 3, .ro, 0, 4⟩,
   ⟨0x1101, 0x01, 0x01, 2, .ro, 0, 2⟩,
   ⟨0x1101, 0x02, 0x09, 2, .ro, 0, 2⟩,
   ⟨0x1101, 0x0A, 0x0A, 3, .ro, 0, 4⟩,
   ⟨0x1102, 0x01, 0x01, 1, .ro, 0, 1⟩,
   ⟨0x1102, 0x02, 0x02, 2, .ro, 0, 2⟩,
   ⟨0x1102, 0x03, 0x03, 2, .ro, 0, 2⟩,
   ⟨0x1102, 0x04, 0x04, 1, .ro, 0, 1⟩,
   ⟨0x1102, 0x05, 0x05, 2, .ro, 0, 2⟩,
   ⟨0x1102, 0x06, 0x06, 2, .ro, 0, 2⟩,
   ⟨0x1102, 0x07, 0x07, 1, .ro, 0, 1⟩,
   ⟨0x1102, 0x08, 0x08, 1, .ro, 0, 1⟩,
   ⟨0x1102, 0x09, 0x09, 1, .ro, 0, 1⟩,
   ⟨0x1102, 0x0A, 0x0A, 3, .ro, 0, 4⟩,
   ⟨0x1102, 0x0B, 0x0B, 1, .ro, 0, 1⟩,
   ⟨0x1102, 0x0C, 0x0C, 1, .ro, 0, 1⟩,
   ⟨0x1102, 0x0D, 0x0D, 2, .ro, 0, 2⟩]

def dictIdentity1 : List Entry :=
  [⟨0x1102, 0x0E, 0x0E, 1, .ro, 0, 1⟩,
   ⟨0x1120, 0x01, 0x01, 8, .ro, 0, 1280⟩]

def dictPower0 : List Entry :=
  [⟨0x2000, 0x01, 0x01, 2, .rws, 0, 2⟩,
   ⟨0x2000, 0x02, 0x02, 2, .ro, 0, 2⟩,
   ⟨0x2000, 0x03, 0x03, 2, .ro, 0, 2⟩,
   ⟨0x2001, 0x01, 0x08, 2, .rws, 0, 2⟩,
   ⟨0x2002, 0x01, 0x40, 3, .rws, 0, 4⟩,
   ⟨0x2003, 0x01, 0x40, 3, .ro, 0, 4⟩,
   ⟨0x2004, 0x01, 0x01, 2, .ro, 0, 2⟩,
   ⟨0x2004, 0x02, 0x09, 2, .ro, 0, 2⟩,
   ⟨0x2005, 0x01, 0x40, 2, .ro, 0, 2⟩,
   ⟨0x2006, 0x01, 0x01, 2, .rw, 0, 2⟩,
   ⟨0x2010, 0x01, 0x01, 3, .ro, 0, 4⟩,
   ⟨0x2010, 0x02, 0x09, 3, .ro, 0, 4⟩,
   ⟨0x2011, 0x01, 0x40, 3, .ro, 0, 4⟩,
   ⟨0x2012, 0x01, 0x08, 8, .ro, 0, 20⟩,
   ⟨0x2013, 0x01, 0x01, 4, .ro, 0, 8⟩,
   ⟨0x2013, 0x02, 0x09, 4, .ro, 0, 8⟩,
   ⟨0x2020, 0x01, 0x01, 1, .ro, 0, 1⟩,
   ⟨0x2020, 0x02, 0x02, 1, .ro, 0, 1⟩,
   ⟨0x2020, 0x03, 0x03, 2, .ro, 0, 2⟩,
   ⟨0x2020, 0x04, 0x04, 2, .ro, 0, 2⟩,
   ⟨0x2100, 0x01, 0x08, 8, .ro, 0, 122⟩,
   ⟨0x2101, 0x01, 0x08, 8, .ro, 0, 244⟩,
   ⟨0x2102, 0x01, 0x01, 8, .ro, 0, 32⟩,
   ⟨0x2103, 0x01, 0x08, 8, .ro, 0, 327680⟩,
   ⟨0x2103, 0x09, 0x10, 8, .ro, 0, 10240⟩,
   ⟨0x2103, 0x11, 0x11, 4, .ro, 0, 8⟩,
   ⟨0x2104, 0x01, 0x40, 2, .ro, 0, 2⟩,
   ⟨0x2200, 0x01, 0x01, 2, .rws, 0, 2⟩,
   ⟨0x2200, 0x02, 0x02, 2, .ro, 0, 2⟩,
   ⟨0x2200, 0x03, 0x03, 2, .ro, 0, 2⟩,
   ⟨0x2201, 0x01, 0x40, 2, .ro, 0, 2⟩,
   ⟨0x2202, 0x01, 0x40, 2, .ro, 0, 2⟩]

def dictPower1 : List Entry :=
  [⟨0x2203, 0x01, 0x40, 2, .ro, 0, 2⟩,
   ⟨0x2204, 0x01, 0x40, 1, .ro, 0, 1⟩,
   ⟨0x2205, 0x01, 0x40, 3, .ro, 0, 4⟩,
   ⟨0x2206, 0x01, 0x08, 8, .ro, 0, 1280⟩,
   ⟨0x2207, 0x01, 0x08, 2, .ro, 0, 2⟩,
   ⟨0x2207, 0x09, 0x10, 2, .ro, 0, 2⟩,
   ⟨0x2210, 0x01, 0x01, 2, .ro, 0, 2⟩,
   ⟨0x2210, 0x02, 0x02, 2, .ro, 0, 2⟩,
   ⟨0x2210, 0x03, 0x03, 1, .ro, 0, 1⟩,
   ⟨0x2210, 0x04, 0x04, 1, .rws, 0, 1⟩,
   ⟨0x2210, 0x05, 0x05, 4, .ro, 0, 8⟩,
   ⟨0x2210, 0x06, 0x06, 1, .ro, 0, 1⟩,
   ⟨0x2300, 0x01, 0x01, 2, .rws, 1, 2⟩]

def dictThermal : List Entry :=
  [⟨0x3000, 0x01, 0x01, 1, .rws, 0, 1⟩,
   ⟨0x3000, 0x02, 0x02, 1, .ro, 0, 1⟩,
   ⟨0x3000, 0x03, 0x03, 1, .rws, 0, 1⟩,
   ⟨0x3000, 0x04, 0x04, 1, .rws, 0, 1⟩,
   ⟨0x3000, 0x05, 0x05, 1, .wo, 0, 1⟩,
   ⟨0x3000, 0x06, 0x06, 1, .wo, 0, 1⟩,
   ⟨0x3000, 0x07, 0x07, 1, .ro, 0, 1⟩,
   ⟨0x3000, 0x08, 0x08, 2, .rw, 0, 2⟩,
   ⟨0x3001, 0x01, 0x40, 6, .ro, 0, 4⟩,
   ⟨0x3002, 0x01, 0x40, 6, .ro, 0, 4⟩,
   ⟨0x3003, 0x01, 0x40, 2, .ro, 0, 2⟩,
   ⟨0x3004, 0x01, 0x08, 8, .ro, 0, 448⟩,
   ⟨0x3005, 0x01, 0x08, 8, .ro, 0, 256⟩,
   ⟨0x3006, 0x01, 0x08, 8, .ro, 0, 28⟩,
   ⟨0x3010, 0x01, 0x01, 6, .rw, 0, 4⟩,
   ⟨0x3010, 0x02, 0x02, 6, .rw, 0, 4⟩,
   ⟨0x3010, 0x03, 0x03, 3, .ro, 0, 4⟩,
   ⟨0x3011, 0x01, 0x08, 6, .ro, 0, 4⟩,
   ⟨0x3011, 0x09, 0x09, 2, .ro, 0, 2⟩,
   ⟨0x3012, 0x01, 0x08, 6, .ro, 2, 4⟩]

def dictMemory : List Entry :=
  [⟨0x4100, 0x01, 0x08, 4, .rw, 0, 8⟩,
   ⟨0x4100, 0x09, 0x09, 4, .rw, 0, 8⟩,
   ⟨0x4101, 0x01, 0x01, 1, .rw, 0, 1⟩,
   ⟨0x4101, 0x02, 0x02, 2, .rw, 0, 2⟩,
   ⟨0x4102, 0x01, 0x01, 1, .rw, 0, 1⟩,
   ⟨0x4102, 0x02, 0x02, 1, .rw, 0, 1⟩,
   ⟨0x4103, 0x01, 0x01, 1, .rw, 0, 1⟩,
   ⟨0x4103, 0x02, 0x02, 2, .rw, 0, 2⟩,
   ⟨0x4103, 0x03, 0x03, 2, .rw, 0, 2⟩,
   ⟨0x4103, 0x04, 0x04, 3, .ro, 0, 4⟩,
   ⟨0x4104, 0x01, 0x08, 8, .ro, 0, 1280⟩,
   ⟨0x4105, 0x01, 0x08, 8, .ro, 0, 160⟩,
   ⟨0x4200, 0x01, 0x01, 2, .rw, 0, 2⟩,
   ⟨0x4200, 0x02, 0x02, 1, .rw, 0, 1⟩,
   ⟨0x4200, 0x03, 0x03, 1, .rw, 0, 1⟩,
   ⟨0x4200, 0x04, 0x04, 1, .rw, 0, 1⟩,
   ⟨0x4200, 0x05, 0x05, 2, .rw, 0, 2⟩,
   ⟨0x4200, 0x06, 0x06, 1, .rw, 0, 1⟩,
   ⟨0x4200, 0x07, 0x07, 1, .ro, 0, 1⟩,
   ⟨0x4201, 0x01, 0x08, 8, .ro, 0, 128⟩,
   ⟨0x4202, 0x01, 0x08, 8, .ro, 0, 24⟩,
   ⟨0x4300, 0x01, 0x01, 8, .wo, 0, 16⟩,
   ⟨0x4300, 0x02, 0x02, 2, .ro, 0, 2⟩,
   ⟨0x4301, 0x01, 0x01, 8, .ro, 0, 1024⟩,
   ⟨0x4301, 0x02, 0x02, 1, .ro, 0, 1⟩,
   ⟨0x4400, 0x01, 0x08, 8, .rw, 0, 160⟩,
   ⟨0x4401, 0x01, 0x08, 8, .ro, 0, 1024⟩,
   ⟨0x4402, 0x01, 0x08, 1, .wo, 0, 1⟩,
   ⟨0x4403, 0x01, 0x01, 2, .rw, 0, 2⟩,
   ⟨0x4403, 0x02, 0x02, 2, .rw, 0, 2⟩,
   ⟨0x4404, 0x01, 0x01, 8, .ro, 0, 512⟩,
   ⟨0x4404, 0x02, 0x02, 1, .ro, 0, 1⟩]

def dictNet : List Entry :=
  [⟨0x5100, 0x01, 0x01, 2, .rw, 0, 2⟩,
   ⟨0x5100, 0x02, 0x02, 2, .wo, 0, 2⟩,
   ⟨0x5100, 0x03, 0x03, 3, .wo, 0, 4⟩,
   ⟨0x5101, 0x01, 0x08, 8, .ro, 0, 640⟩,
   ⟨0x5102, 0x01, 0x08, 8, .ro, 0, 1024⟩,
   ⟨0x5103, 0x01, 0x08, 8, .ro, 0, 12288⟩,
   ⟨0x5200, 0x01, 0x01, 1, .rws, 0, 1⟩,
   ⟨0x5200, 0x02, 0x02, 1, .rws, 0, 1⟩,
   ⟨0x5200, 0x03, 0x03, 1, .rw, 0, 1⟩,
   ⟨0x5200, 0x04, 0x04, 1, .wo, 0, 1⟩,
   ⟨0x5200, 0x05, 0x05, 1, .ro, 0, 1⟩,
   ⟨0x5200, 0x06, 0x06, 4, .ro, 0, 8⟩,
   ⟨0x5200, 0x07, 0x07, 3, .ro, 0, 4⟩,
   ⟨0x5200, 0x08, 0x08, 1, .rw, 0, 1⟩,
   ⟨0x5200, 0x09, 0x09, 2, .rw, 0, 2⟩,
   ⟨0x5201, 0x01, 0x0C, 1, .ro, 0, 1⟩,
   ⟨0x5202, 0x01, 0x20, 8, .rw, 0, 16⟩,
   ⟨0x5203, 0x01, 0x20, 1, .ro, 0, 1⟩,
   ⟨0x5300, 0x01, 0x01, 4, .ro, 0, 8⟩,
   ⟨0x5300, 0x02, 0x02, 1, .rws, 0, 1⟩,
   ⟨0x5300, 0x03, 0x03, 3, .rws, 0, 4⟩,
   ⟨0x5300, 0x04, 0x04, 1, .rws, 0, 1⟩,
   ⟨0x5300, 0x05, 0x05, 3, .rws, 0, 4⟩,
   ⟨0x5300, 0x06, 0x06, 3, .ro, 0, 4⟩,
   ⟨0x5300, 0x07, 0x07, 8, .rws, 0, 16⟩,
   ⟨0x5300, 0x08, 0x08, 1, .rws, 0, 1⟩,
   ⟨0x5300, 0x09, 0x09, 1, .ro, 0, 1⟩,
   ⟨0x5300, 0x0A, 0x0A, 8, .rws, 0, 80⟩]

def dictQueue : List Entry :=
  [⟨0x6000, 0x01, 0x01, 2, .rw, 0, 2⟩,
   ⟨0x6000, 0x02, 0x02, 8, .rws, 1, 16⟩,
   ⟨0x6000, 0x03, 0x03, 2, .rws, 1, 2⟩,
   ⟨0x6001, 0x01, 0x40, 3, .ro, 0, 4⟩,
   ⟨0x6002, 0x01, 0x08, 8, .ro, 0, 40960⟩,
   ⟨0x6100, 0x01, 0x01, 2, .rw, 0, 2⟩,
   ⟨0x6201, 0x01, 0x01, 1, .rws, 0, 1⟩]

def dictStream : List Entry :=
  [⟨0x7000, 0x01, 0x08, 1, .rw, 0, 1⟩,
   ⟨0x7001, 0x01, 0x08, 1, .rws, 0, 1⟩,
   ⟨0x7002, 0x01, 0x08, 4, .rws, 0, 8⟩,
   ⟨0x7003, 0x01, 0x08, 4, .rws, 0, 8⟩,
   ⟨0x7004, 0x01, 0x08, 1, .ro, 0, 1⟩,
   ⟨0x7005, 0x01, 0x08, 8, .ro, 0, 24⟩,
   ⟨0x7006, 0x01, 0x08, 1, .ro, 0, 1⟩,
   ⟨0x7007, 0x01, 0x08, 4, .ro, 0, 8⟩,
   ⟨0x7008, 0x01, 0x01, 2, .rws, 0, 2⟩,
   ⟨0x7008, 0x02, 0x02, 3, .rw, 0, 4⟩,
   ⟨0x7009, 0x01, 0x01, 8, .rws, 0, 512⟩,
   ⟨0x7009, 0x02, 0x02, 8, .rws, 0, 1024⟩,
   ⟨0x700A, 0x01, 0x01, 8, .ro, 0, 1024⟩]

def dictNumeric : List Entry :=
  [⟨0x8000, 0x01, 0x08, 8, .ro, 0, 163840⟩,
   ⟨0x8001, 0x01, 0x01, 3, .wo, 0, 4⟩,
   ⟨0x8100, 0x01, 0x01, 1, .rws, 0, 1⟩,
   ⟨0x8100, 0x02, 0x02, 1, .rws, 0, 1⟩,
   ⟨0x8100, 0x03, 0x03, 1, .rws, 0, 1⟩,
   ⟨0x8100, 0x04, 0x04, 3, .rw, 0, 4⟩,
   ⟨0x8100, 0x05, 0x05, 1, .rws, 0, 1⟩,
   ⟨0x8100, 0x06, 0x06, 2, .rw, 0, 2⟩,
   ⟨0x8101, 0x01, 0x01, 8, .ro, 0, 512⟩,
   ⟨0x8101, 0x02, 0x02, 1, .ro, 0, 1⟩,
   ⟨0x8102, 0x01, 0x08, 8, .ro, 0, 5120⟩]

def dictBoot0 : List Entry :=
  [⟨0x9000, 0x01, 0x01, 1, .ro, 0, 1⟩,
   ⟨0x9000, 0x02, 0x02, 1, .ro, 0, 1⟩,
   ⟨0x9000, 0x03, 0x03, 1, .rws, 1, 1⟩,
   ⟨0x9000, 0x04, 0x04, 3, .ro, 0, 4⟩,
   ⟨0x9000, 0x05, 0x05, 1, .rws, 0, 1⟩,
   ⟨0x9000, 0x06, 0x06, 1, .ro, 0, 1⟩,
   ⟨0x9001, 0x01, 0x01, 2, .wo, 0, 2⟩,
   ⟨0x9001, 0x02, 0x02, 2, .wo, 0, 2⟩,
   ⟨0x9001, 0x03, 0x03, 2, .rw, 0, 2⟩,
   ⟨0x9002, 0x01, 0x40, 1, .ro, 0, 1⟩,
   ⟨0x9003, 0x01, 0x01, 3, .wo, 0, 4⟩,
   ⟨0x9003, 0x02, 0x02, 3, .wo, 0, 4⟩,
   ⟨0x9004, 0x01, 0x08, 8, .ro, 0, 160⟩,
   ⟨0x9005, 0x01, 0x01, 8, .wo, 0, 8⟩,
   ⟨0x9005, 0x02, 0x02, 3, .wo, 0, 4⟩,
   ⟨0x9005, 0x03, 0x03, 1, .ro, 0, 1⟩,
   ⟨0x9005, 0x04, 0x04, 2, .ro, 0, 2⟩,
   ⟨0x9006, 0x01, 0x08, 8, .ro, 0, 81920⟩,
   ⟨0x9007, 0x01, 0x08, 8, .ro, 0, 160⟩,
   ⟨0x9008, 0x01, 0x01, 8, .ro, 0, 4096⟩,
   ⟨0x9008, 0x02, 0x02, 1, .ro, 0, 1⟩,
   ⟨0x9009, 0x01, 0x01, 1, .ro, 0, 1⟩,
   ⟨0x9009, 0x02, 0x02, 2, .ro, 0, 2⟩,
   ⟨0x9009, 0x03, 0x03, 1, .ro, 0, 1⟩,
   ⟨0x9010, 0x01, 0x01, 1, .ro, 0, 1⟩,
   ⟨0x9010, 0x02, 0x02, 3, .ro, 0, 4⟩,
   ⟨0x9010, 0x03, 0x03, 1, .ro, 0, 1⟩,
   ⟨0x9010, 0x04, 0x04, 1, .ro, 0, 1⟩,
   ⟨0x9020, 0x01, 0x01, 3, .rw, 1, 4⟩,
   ⟨0x9020, 0x02, 0x02, 8, .wo, 1, 1024⟩,
   ⟨0x9020, 0x03, 0x03, 1, .wo, 1, 1⟩,
   ⟨0x9020, 0x04, 0x04, 8, .ro, 1, 67108864⟩]

def dictBoot1 : List Entry :=
  [⟨0x9100, 0x01, 0x08, 8, .ro, 0, 640⟩,
   ⟨0x9100, 0x09, 0x09, 2, .ro, 0, 2⟩,
   ⟨0x9101, 0x01, 0x08, 8, .ro, 0, 10240⟩]

def dictDebug : List Entry :=
  [⟨0xA001, 0x01, 0x01, 1, .wo, 0, 1⟩,
   ⟨0xA001, 0x02, 0x02, 1, .wo, 0, 1⟩,
   ⟨0xA001, 0x03, 0x03, 1, .ro, 0, 1⟩,
   ⟨0xA001, 0x04, 0x04, 1, .ro, 0, 1⟩,
   ⟨0xA001, 0x05, 0x05, 4, .ro, 0, 8⟩,
   ⟨0xA002, 0x01, 0x01, 4, .rw, 0, 8⟩,
   ⟨0xA002, 0x02, 0x02, 8, .ro, 0, 16777216⟩,
   ⟨0xA002, 0x03, 0x03, 4, .ro, 0, 8⟩,
   ⟨0xA110, 0x01, 0x01, 8, .ro, 0, 2048⟩,
   ⟨0xA110, 0x02, 0x02, 1, .ro, 0, 1⟩,
   ⟨0xA110, 0x03, 0x03, 3, .ro, 0, 4⟩,
   ⟨0xA111, 0x01, 0x01, 1, .rw, 0, 1⟩,
   ⟨0xA111, 0x02, 0x02, 3, .wo, 0, 4⟩,
   ⟨0xA111, 0x03, 0x03, 3, .wo, 0, 4⟩,
   ⟨0xA111, 0x04, 0x04, 1, .rw, 0, 1⟩,
   ⟨0xA200, 0x01, 0x01, 8, .ro, 0, 4096⟩,
   ⟨0xA200, 0x02, 0x02, 1, .ro, 0, 1⟩,
   ⟨0xA200, 0x03, 0x03, 4, .rw, 0, 8⟩,
   ⟨0xA200, 0x04, 0x04, 4, .rws, 0, 8⟩,
   ⟨0xA200, 0x05, 0x05, 3, .rw, 0, 4⟩,
   ⟨0xA200, 0x06, 0x06, 4, .rw, 0, 8⟩]

def dictCounter0 : List Entry :=
  [⟨0xB000, 0x01, 0x01, 8, .ro, 0, 128⟩,
   ⟨0xB001, 0x01, 0x01, 4, .ro, 0, 8⟩,
   ⟨0xB001, 0x02, 0x02, 4, .ro, 0, 8⟩,
   ⟨0xB001, 0x03, 0x03, 3, .ro, 0, 4⟩,
   ⟨0xB001, 0x04, 0x04, 3, .ro, 0, 4⟩,
   ⟨0xB001, 0x05, 0x05, 3, .ro, 0, 4⟩,
   ⟨0xB001, 0x06, 0x06, 3, .ro, 0, 4⟩,
   ⟨0xB001, 0x07, 0x07, 3, .ro, 0, 4⟩,
   ⟨0xB001, 0x08, 0x08, 3, .ro, 0, 4⟩,
   ⟨0xB010, 0x01, 0x08, 4, .ro, 0, 8⟩,
   ⟨0xB011, 0x01, 0x08, 4, .ro, 0, 8⟩,
   ⟨0xB100, 0x01, 0x08, 4, .ro, 0, 8⟩,
   ⟨0xB101, 0x01, 0x08, 4, .ro, 0, 8⟩,
   ⟨0xB102, 0x01, 0x08, 3, .ro, 0, 4⟩,
   ⟨0xB103, 0x01, 0x08, 4, .ro, 0, 8⟩,
   ⟨0xB104, 0x01, 0x08, 4, .ro, 0, 8⟩,
   ⟨0xB105, 0x01, 0x08, 4, .ro, 0, 8⟩,
   ⟨0xB106, 0x01, 0x08, 4, .ro, 0, 8⟩,
   ⟨0xB107, 0x01, 0x08, 3, .ro, 0, 4⟩,
   ⟨0xB200, 0x01, 0x01, 8, .ro, 0, 128⟩,
   ⟨0xB200, 0x02, 0x02, 8, .ro, 0, 128⟩,
   ⟨0xB201, 0x01, 0x08, 4, .ro, 0, 8⟩,
   ⟨0xB210, 0x01, 0x08, 4, .ro, 0, 8⟩,
   ⟨0xB211, 0x01, 0x08, 4, .ro, 0, 8⟩,
   ⟨0xB212, 0x01, 0x08, 4, .ro, 0, 8⟩,
   ⟨0xB300, 0x01, 0x08, 8, .ro, 0, 40960⟩,
   ⟨0xB301, 0x01, 0x08, 8, .ro, 0, 327680⟩,
   ⟨0xB302, 0x01, 0x08, 8, .ro, 0, 10240⟩,
   ⟨0xB303, 0x01, 0x08, 8, .ro, 0, 20480⟩,
   ⟨0xB304, 0x01, 0x08, 4, .ro, 0, 8⟩,
   ⟨0xB305, 0x01, 0x08, 3, .ro, 0, 4⟩,
   ⟨0xB306, 0x01, 0x08, 3, .ro, 0, 4⟩]

def dictCounter1 : List Entry :=
  [⟨0xB400, 0x01, 0x08, 4, .ro, 0, 8⟩,
   ⟨0xB401, 0x01, 0x08, 4, .ro, 0, 8⟩,
   ⟨0xB402, 0x01, 0x08, 4, .ro, 0, 8⟩,
   ⟨0xB403, 0x01, 0x08, 3, .ro, 0, 4⟩,
   ⟨0xB404, 0x01, 0x08, 4, .ro, 0, 8⟩,
   ⟨0xB405, 0x01, 0x08, 4, .ro, 0, 8⟩,
   ⟨0xB406, 0x01, 0x08, 4, .ro, 0, 8⟩,
   ⟨0xB407, 0x01, 0x08, 3, .ro, 0, 4⟩,
   ⟨0xB408, 0x01, 0x08, 3, .ro, 0, 4⟩,
   ⟨0xB500, 0x01, 0x08, 4, .ro, 0, 8⟩,
   ⟨0xB501, 0x01, 0x08, 4, .ro, 0, 8⟩,
   ⟨0xB502, 0x01, 0x08, 3, .ro, 0, 4⟩,
   ⟨0xB503, 0x01, 0x08, 3, .ro, 0, 4⟩,
   ⟨0xB504, 0x01, 0x08, 3, .ro, 0, 4⟩,
   ⟨0xB505, 0x01, 0x08, 3, .ro, 0, 4⟩,
   ⟨0xB600, 0x01, 0x08, 4, .ro, 0, 8⟩,
   ⟨0xB601, 0x01, 0x08, 4, .ro, 0, 8⟩,
   ⟨0xB602, 0x01, 0x08, 4, .ro, 0, 8⟩,
   ⟨0xB603, 0x01, 0x08, 4, .ro, 0, 8⟩,
   ⟨0xB604, 0x01, 0x08, 3, .ro, 0, 4⟩,
   ⟨0xB605, 0x01, 0x08, 3, .ro, 0, 4⟩,
   ⟨0xB606, 0x01, 0x08, 4, .ro, 0, 8⟩,
   ⟨0xB607, 0x01, 0x08, 3, .ro, 0, 4⟩,
   ⟨0xB610, 0x01, 0x0C, 4, .ro, 0, 8⟩,
   ⟨0xB611, 0x01, 0x0C, 3, .ro, 0, 4⟩,
   ⟨0xB612, 0x01, 0x0C, 3, .ro, 0, 4⟩,
   ⟨0xB613, 0x01, 0x0C, 3, .ro, 0, 4⟩,
   ⟨0xB614, 0x01, 0x01, 3, .ro, 0, 4⟩,
   ⟨0xB614, 0x02, 0x02, 3, .ro, 0, 4⟩,
   ⟨0xB614, 0x03, 0x03, 3, .ro, 0, 4⟩,
   ⟨0xB700, 0x01, 0x08, 4, .ro, 0, 8⟩,
   ⟨0xB701, 0x01, 0x08, 4, .ro, 0, 8⟩]

def dictCounter2 : List Entry :=
  [⟨0xB702, 0x01, 0x08, 4, .ro, 0, 8⟩,
   ⟨0xB703, 0x01, 0x08, 4, .ro, 0, 8⟩,
   ⟨0xB704, 0x01, 0x08, 3, .ro, 0, 4⟩,
   ⟨0xB705, 0x01, 0x08, 3, .ro, 0, 4⟩,
   ⟨0xB706, 0x01, 0x08, 3, .ro, 0, 4⟩,
   ⟨0xB707, 0x01, 0x08, 3, .ro, 0, 4⟩,
   ⟨0xB708, 0x01, 0x08, 3, .ro, 0, 4⟩,
   ⟨0xB800, 0x01, 0x08, 8, .ro, 0, 30720⟩,
   ⟨0xB801, 0x01, 0x08, 4, .ro, 0, 8⟩,
   ⟨0xB802, 0x01, 0x08, 4, .ro, 0, 8⟩,
   ⟨0xB803, 0x01, 0x08, 4, .ro, 0, 8⟩,
   ⟨0xB804, 0x01, 0x08, 3, .ro, 0, 4⟩,
   ⟨0xB805, 0x01, 0x08, 3, .ro, 0, 4⟩,
   ⟨0xB806, 0x01, 0x08, 3, .ro, 0, 4⟩,
   ⟨0xB900, 0x01, 0x08, 8, .ro, 0, 64⟩,
   ⟨0xB901, 0x01, 0x01, 8, .ro, 0, 6144⟩,
   ⟨0xB902, 0x01, 0x01, 4, .ro, 0, 8⟩,
   ⟨0xB902, 0x02, 0x02, 3, .ro, 0, 4⟩,
   ⟨0xBA00, 0x01, 0x08, 3, .ro, 0, 4⟩,
   ⟨0xBA01, 0x01, 0x08, 3, .ro, 0, 4⟩,
   ⟨0xBA02, 0x01, 0x08, 3, .ro, 0, 4⟩,
   ⟨0xBA03, 0x01, 0x08, 4, .ro, 0, 8⟩,
   ⟨0xBA04, 0x01, 0x01, 3, .ro, 0, 4⟩,
   ⟨0xBA05, 0x01, 0x08, 3, .ro, 0, 4⟩,
   ⟨0xBB00, 0x01, 0x08, 4, .ro, 0, 8⟩,
   ⟨0xBB01, 0x01, 0x08, 3, .ro, 0, 4⟩,
   ⟨0xBB02, 0x01, 0x01, 3, .ro, 0, 4⟩,
   ⟨0xBB02, 0x02, 0x02, 3, .ro, 0, 4⟩,
   ⟨0xBC00, 0x01, 0x08, 3, .ro, 0, 4⟩,
   ⟨0xBC01, 0x01, 0x08, 3, .ro, 0, 4⟩,
   ⟨0xBD00, 0x01, 0x01, 3, .ro, 0, 4⟩,
   ⟨0xBD00, 0x02, 0x02, 3, .ro, 0, 4⟩]

/-- Every subindex range that the device defines, in ascending order (R632). -/
def dictionary : List Entry :=
  dictIdentity0 ++ dictIdentity1 ++ dictPower0 ++ dictPower1 ++ dictThermal ++ dictMemory ++ dictNet ++ dictQueue ++ dictStream ++ dictNumeric ++ dictBoot0 ++ dictBoot1 ++ dictDebug ++ dictCounter0 ++ dictCounter1 ++ dictCounter2

/-- The highest subindex that an index defines. -/
def highestSub (idx : Nat) : Nat := ((dictionary.filter fun e => e.index == idx).map (·.last)).foldl max 0

/-- The entry of an index and subindex; subindex 0 of a defined index is a U8 that reads the highest subindex (R632). -/
def findEntry (idx sub : Nat) : Option Entry :=
  if sub = 0 then if highestSub idx = 0 then none else some ⟨idx, 0, 0, 1, .ro, 0, 1⟩
  else dictionary.find? fun e => e.index == idx && decide (e.first ≤ sub) && decide (sub ≤ e.last)

def Access.code : Access → Nat
  | .ro => 0
  | .rw => 1
  | .wo => 2
  | .rws => 3

/-- A record of DICTIONARY as a little-endian number of 12 bytes (R662). -/
def Entry.record (e : Entry) : Nat :=
  e.index + e.first * 2 ^ 16 + e.last * 2 ^ 24 + e.type * 2 ^ 32 +
  (e.access.code + e.level * 4 + if e.classB then 16 else 0) * 2 ^ 40 + e.size * 2 ^ 64

end Sys2Proof.Machine
end

