-- ==== Sys2Proof/Machine/HostOps.lean ====
section
/-! DEFINITION. BAR0 as it reads and is written, and host requests held in order of receipt (R469 to R474; MB fields R642, R643). -/
namespace Sys2Proof.Machine

/-! ### Little-endian registers -/

/-- Byte `i` of a number. -/
def byteOf (v i : Nat) : Byte := BitVec.ofNat 8 (v / 2 ^ (8 * i))

/-- A register of `size` bytes at `base` after a write of bytes at `off`. -/
def overlay (old base size off : Nat) (bytes : List Byte) : Nat :=
  bytesToNat ((List.range size).map fun i =>
    if off ≤ base + i ∧ base + i < off + bytes.length then bytes.getD (base + i - off) 0 else byteOf old i)

/-- A write of `n` bytes at `off` touches the register. -/
def touches (base size off n : Nat) : Bool := decide (off < base + size) && decide (base < off + n)

/-! ### BAR0 (R469) -/

def mailboxPage : Nat := 1
def msixBase : Nat := 0x10000
def pbaBase : Nat := 0x18000
def windowBase : Nat := 0x20000
def doorbellBase : Nat := 0x1000000
def groupDoorbellBase : Nat := 0x10000000

/-- MB_STATUS (R643). -/
def HostPort.mbStatus (h : HostPort) : Nat :=
  (if h.mbOverrun then 2 ^ 18 else 0) + (if h.mbBusy then 2 ^ 17 else 0) + (if h.mbDone then 2 ^ 16 else 0) + h.mbSeq % 2 ^ 16

/-- A byte of the mailbox (R642); what MB_DOORBELL reads as is a free value (assumption 63). -/
def State.mailboxByte (s : State) (off : Nat) : Byte :=
  if off < 1048 then Map.get 0 s.host.mbRequest off
  else if 0x800 ≤ off && off < 0xC18 then s.host.mbResponse.getD (off - 0x800) 0
  else if 0xF00 ≤ off && off < 0xF04 then Config.freeByte s.now off
  else if 0xF08 ≤ off && off < 0xF0C then byteOf s.host.mbStatus (off - 0xF08)
  else if 0xF10 ≤ off && off < 0xF18 then byteOf s.host.mbRespAddr.toNat (off - 0xF10)
  else if 0xF18 ≤ off && off < 0xF1C then byteOf s.host.mbMsix.toNat (off - 0xF18)
  else 0

/-- The windows that BAR4 holds (R470). -/
def HostPort.windowCount (h : HostPort) : Nat := min 64 h.bar4

/-- A byte of BAR0; what a doorbell reads as is a free value (assumption 63). -/
def State.bar0Byte (s : State) (off : Nat) : Byte :=
  if off / 4096 = mailboxPage then s.mailboxByte (off % 4096)
  else if msixBase ≤ off && off < pbaBase then byteOf (Map.get msixReset s.host.msix ((off - msixBase) / 16)).toNat (off % 16)
  else if pbaBase ≤ off && off < pbaBase + 256 then
    ((List.range 8).map fun i => if Map.get false s.host.pba (8 * (off - pbaBase) + i) then (2 : Byte) ^ i else 0).foldl (· ||| ·) 0
  else if windowBase ≤ off && off < windowBase + 512 then
    let w := (off - windowBase) / 8
    if w < s.host.windowCount then byteOf (Map.get 0 s.host.windows w).toNat (off % 8) else 0
  else if (doorbellBase ≤ off && off < doorbellBase + 0x400000) || (groupDoorbellBase ≤ off && off < 2 * groupDoorbellBase) then
    Config.freeByte s.now off
  else 0

/-- A window register written: VALID and BASE; none above BAR4's windows (R18, R470). -/
def State.writeWindow (s : State) (w : Nat) (v : Word) : State :=
  if w < s.host.windowCount then
    { s with host := { s.host with windows := Map.set 0 s.host.windows w (v &&& 0x803FFFFF00000000) } }
  else s

/-- An entry of the MSI-X table written: a vector that is no longer masked sends its pending message (assumption 6). -/
def State.writeMsix (s : State) (v : Nat) (e : BitVec 128) : State :=
  let e := e &&& BitVec.ofNat 128 (2 ^ 97 - 1)
  let s := { s with host := { s.host with msix := Map.set msixReset s.host.msix v e } }
  if !e.getLsbD 96 && Map.get false s.host.pba v then
    { s with host := { s.host with pba := Map.set false s.host.pba v false } }.sendMsix v
  else s

/-- The messages that were pending while the function could send none. -/
def State.flushMsix (s : State) : State :=
  s.host.pba.foldl (fun (s : State) e =>
    if e.2 then { s with host := { s.host with pba := Map.set false s.host.pba e.1 false } }.sendMsix e.1 else s) s

/-- The registers of a table of BAR0 that a write touches. -/
def touched (base size off n : Nat) : List Nat :=
  (List.range ((off - base + n + size - 1) / size - (off - base) / size)).map ((off - base) / size + ·)

/-- MB_REQUEST, MB_RESP_ADDR and MB_MSIX written, and OVERRUN cleared; MB_RESPONSE is the device's. -/
def State.writeMailbox (s : State) (off : Nat) (bytes : List Byte) : State :=
  let h := s.host
  let request := bytes.zipIdx.foldl (fun (m : Map Byte) (b : Byte × Nat) =>
    if off + b.2 < 1048 then Map.set 0 m (off + b.2) b.1 else m) h.mbRequest
  let clears := touches 0xF08 4 off bytes.length && (overlay 0 0xF08 4 off bytes).testBit 18
  { s with host := { h with
      mbRequest := request
      mbRespAddr := BitVec.ofNat 64 (overlay h.mbRespAddr.toNat 0xF10 8 off bytes) &&& 0xFFFFFFFFFFFFFFC1
      mbMsix := BitVec.ofNat 32 (overlay h.mbMsix.toNat 0xF18 4 off bytes) &&& 0x800007FF
      mbOverrun := h.mbOverrun && !clears } }

/-- A write of BAR0 other than a doorbell; MB_DOORBELL is acted on by its caller. -/
def State.writeBar0 (s : State) (off : Nat) (bytes : List Byte) : State :=
  let n := bytes.length
  if off / 4096 = mailboxPage then s.writeMailbox (off % 4096) bytes
  else if msixBase ≤ off && off < pbaBase then
    (touched msixBase 16 off n).foldl (fun (s : State) v =>
      s.writeMsix v (BitVec.ofNat 128 (overlay (Map.get msixReset s.host.msix v).toNat (msixBase + 16 * v) 16 off bytes))) s
  else if windowBase ≤ off && off < windowBase + 512 then
    (touched windowBase 8 off n).foldl (fun (s : State) w =>
      s.writeWindow w (BitVec.ofNat 64 (overlay (Map.get 0 s.host.windows w).toNat (windowBase + 8 * w) 8 off bytes))) s
  else s

/-! ### Requests in order of receipt (R471) -/

/-- A bit of the AER Uncorrectable Error Status: 12 Poisoned TLP Received, 15 Completer Abort, 20 Unsupported Request (R472; PRESUMED from
PCIe, assumption 62). -/
def State.aerError (s : State) (bit : Nat) : State :=
  { s with host := { s.host with function := { s.host.function with aer := s.host.function.aer ||| 2 ^ bit } } }

/-- HOST_WRITE_ERRORS. -/
def State.hostWriteError (s : State) : State := s.sat32 0xB614 1 1

/-- A request accepted. -/
def State.addOp (s : State) (tag device : Nat) (kind : HostKind) (reqs : List Nat) : State :=
  let (id, s) := s.token
  { s with host := { s.host with ops := s.host.ops ++ [⟨id, tag, device, kind, reqs, !s.running⟩] } }

/-- An earlier posted write to the same device is not yet performed. -/
def State.opBlocked (s : State) (o : HostOp) : Bool :=
  (s.host.ops.takeWhile fun p => p.id != o.id).any fun p => !p.kind.answers && p.device == o.device

/-- While the device is frozen its dictionary goes on answering (R670): a write of the mailbox does not wait for what the freeze holds. -/
def HostOp.passes (o : HostOp) (running : Bool) : Bool := match o.kind with
  | .bar0Write _ _ => !running
  | _ => false

/-- The request can be performed now: register accesses and doorbells wait while the device is frozen (R432, R472), and everything while a
mailbox request is being taken. -/
def State.opReady (s : State) (o : HostOp) : Bool :=
  !s.host.mbRung && (!s.opBlocked o || o.passes s.running) && (match o.kind with
    | .bar0Write _ _ => true
    | .doorbell _ _ _ _ | .regWrite _ _ | .regRead _ _ => s.running
    | .bar0Read _ _ => true
    | _ => false)

def State.dropOp (s : State) (o : HostOp) : State :=
  { s with host := { s.host with ops := s.host.ops.filter (·.id != o.id) } }

/-- A read that its target has answered; its completion follows. -/
def State.readyOp (s : State) (o : HostOp) (bytes : List Byte) : State :=
  { s with host := { s.host with ops := s.host.ops.map fun p => if p.id = o.id then { p with kind := .ready bytes } else p } }

/-- A doorbell goes to its queue, on this device or on the member that holds it (R469). -/
def State.performDoorbell (s : State) (device q bytes offset : Nat) (v : BitVec 64) : State :=
  if s.isOwn device then s.applyDoorbell q (v.truncate 32)
  else if s.nonMember device then s.hostWriteError
  else s.send (.groupMessage device 8 [q, bytes, offset, v.toNat])

def State.performOp (s : State) (o : HostOp) : State :=
  match o.kind with
  | .doorbell q bytes offset v => (s.dropOp o).performDoorbell o.device q bytes offset v
  | .regWrite off bytes => (s.dropOp o).writeRegisters off bytes
  | .regRead off n => s.readyOp o (s.registerBytes off n)
  | .bar0Read off n => s.readyOp o ((List.range n).map fun i => s.bar0Byte (off + i))
  | .bar0Write off bytes =>
    let s := (s.dropOp o).writeBar0 off bytes
    if off / 4096 = mailboxPage && touches 0xF00 4 (off % 4096) bytes.length then { s with host := { s.host with mbRung := true } } else s
  | _ => s

/-- The requests that nothing holds any longer, performed in order of receipt. -/
def State.settleFrom : Nat → State → State
  | 0, s => s
  | n + 1, s =>
    match s.host.ops.find? s.opReady with
    | some o => State.settleFrom n (s.performOp o)
    | none => s

def State.settleHost (s : State) : State := State.settleFrom s.host.ops.length s

/-- A host doorbell of this device's queue (R410, R411, R599): 8 bytes, or 4 bytes to the low half; any other write is
discarded and counted, and so is every doorbell before READY; one in the controlled shutdown is refused (R589). One that comes while the
device is frozen, or while earlier host writes are not yet performed, is held and applied in order (R432, R471). A queue id of a
cluster that does not exist is ignored. -/
def State.hostDoorbell (s : State) (q bytes offset : Nat) (v : BitVec 64) : State :=
  if !queueExists q then s
  else if s.dm.published && s.reg 0x3000 7 = 4 then s.hostWriteError
  else if !s.dm.published || !(offset = 0 && (bytes = 8 || bytes = 4)) then s.doorbellError q false
  else (s.addOp 0 s.group.member (.doorbell q bytes offset v) []).settleHost

end Sys2Proof.Machine
end

