-- ==== Sys2Proof/Machine/Queues.lean ====
section
/-! DEFINITION. The commands of queues: doorbells, control-block writes, the dispatcher and the look-ahead (R402 to R434). -/
namespace Sys2Proof.Machine

/-- A doorbell write at DB_BASE. -/
def execDoorbell (q bytes offset : Nat) (v : BitVec 64) (s : State) : Host.Outcome State Fault Refusal :=
  .next (s.hostDoorbell q bytes offset v)

/-- A write to a word of a queue control block, merged with the halves not covered (R406, R407, R707). While the device is frozen no
write reaches the channel controller: PCIe holds it back (R432, R472). -/
def execQcbWrite (q w : Nat) (v : Word) (low high : Bool) (s : State) : Host.Outcome State Fault Refusal :=
  .next (if s.running then s.writeQcbWord q w (mergeHalves (s.qcbWord q w) v low high) else s)

/-- QCTL RESET_INDICES (R408). -/
def execResetIndices (q : Nat) (s : State) : Host.Outcome State Fault Refusal :=
  .next (if queueExists q && s.running then s.resetIndices q else s)

/-- QCTL FLUSH (R408). -/
def execFlush (q : Nat) (s : State) : Host.Outcome State Fault Refusal :=
  .next (if queueExists q && s.running then s.flush q else s)

/-- A doorbell that came during a freeze and is still held: it is applied before the first take (R432). -/
def State.doorbellHeld (s : State) : Bool := s.host.ops.any fun o => o.held && (match o.kind with
  | .doorbell _ _ _ _ => true
  | _ => false)

/-- A completed task of the core waits to run again, and a context is free: its rerun goes before every queue (R454). -/
def State.rerunWaits (s : State) (core : Nat) : Bool :=
  (s.core core).freeCtx.isSome && s.mem.recoveries.any fun r => match r.kind with
    | .rerun id => r.deadline.isNone && (match s.rerunEntry (sramUnit r.line / 16) id with
      | some e => e.core == core && !e.running
      | none => false)
    | _ => false

/-- The dispatcher takes the head of the queue that R425 picks. -/
def execDispatcherTake (core : Nat) (s : State) : Host.Outcome State Fault Refusal :=
  .next (
    if !s.coreUp core || s.doorbellHeld || s.rerunWaits core then s
    else match s.pick core with
      | some (lvl, n) => s.unit core (.dispatcher core) fun s => s.takeHead core lvl n
      | none => s)

/-- A queue eligible for STARVE_LIMIT without a take is aged (R425); 0 ages none. -/
def execQueueAged (q : Nat) (s : State) : Host.Outcome State Fault Refusal :=
  .next (
    let k := s.queue q
    let limit := s.reg 0x6000 1
    match k.eligibleSince with
    | some t => if limit ≠ 0 && t + usCycles limit ≤ s.run then s.setQueue q { k with aged := true } else s
    | none => s)

/-- ECLASS_POWER of an energy class, mW (R426). -/
def State.eclassPower (s : State) (c : Nat) : Nat :=
  Map.get (#[0, 8, 16, 32, 48, 64, 96, 128].getD c 0) s.eclassPowers c

/-- The remaining time of a ledger entry in cycles of the 1.2 GHz reference, 120 to each 0.1 µs of EST_TIME; at least 1.0 µs (R427). -/
def State.remaining (s : State) (e : LedgerEntry) : Nat :=
  match e.startedAt with
  | none => if e.estTime = 0 then 1200 else e.estTime * 120
  | some t => max (e.estTime * 120 - (s.run - t)) 1200

/-- The energy in nJ that one core contributes over the next millisecond, cut to a whole number (R427). -/
def State.coreForecast (s : State) (core : Nat) : Nat :=
  let ds := (s.core core).ledger
  let t := (ds.map s.remaining).sum
  let e := (ds.map fun d => s.eclassPower d.eclass * s.remaining d).sum
  if 1200000 ≤ t then e * 1000 / t else (e + s.reg 0x6000 3 * (1200000 - t)) / 1200

/-- FIELD_FORECAST_MW recomputed every 10 µs (R427): 0 for a field that is dark or in reset; frozen it holds (R432). -/
def execFieldForecast (f : Nat) (s : State) : Host.Outcome State Fault Refusal :=
  .next (
    if !s.running || 64 ≤ f then s
    else if !s.fieldUp f then s.setReg 0x6001 (f + 1) 0
    else
      let sum := (((fieldCores f).filter s.inService).map s.coreForecast).sum
      s.setReg 0x6001 (f + 1) (sum / 1000))

end Sys2Proof.Machine
end

