-- ==== Sys2Proof/Machine/DictRead.lean ====
section
/-! DEFINITION. Reading the object dictionary: the value of every entry, numbers as they stand and blobs as records of a fixed size. -/
namespace Sys2Proof.Machine

/-- A rail setpoint in units of 1.25 mV as mV, a half rounded up. -/
def railMv (setpoint : Nat) : Nat := (setpoint * 5 + 2) / 4

/-- FIELD_PACE_MEAS: 0 while the field is dark or in reset or its ring has failed. -/
def State.shownPace (s : State) (f : Nat) : Nat :=
  if (s.field f).rail = .powered && !(s.field f).ringFault then (s.field f).meas else 0

/-- An account in fJ as µJ that wraps in 64 bits. -/
def microJoules (fj : Int) : Nat := ((fj / 10 ^ 9) % 2 ^ 64).toNat

/-- Arrays of cores in service that are not suspect. -/
def State.arraysInService (s : State) : Nat :=
  (((List.range 8).flatMap towerCores).filter s.counted).foldl (fun n c =>
    n + ((List.range 4).filter fun a => !(Map.get {} (s.core c).arrays a).suspect).length) 0

/-- Input energy in µJ of a tower, or of the module (R548). -/
def State.inputMicroJoules (s : State) (t : Option Nat) : Nat :=
  let e (i : Nat) : Nat := Map.get 0 s.power.energy i
  (match t with
    | some t => e t
    | none => ((List.range 9).map e).sum) / 10 ^ 5 % 2 ^ 64

/-- The numeric entries. Those not named here stand in `regs`. -/
def State.entryNat (s : State) (idx sub : Nat) : Nat :=
  match idx with
  | 0x1000 => match sub with
    | 6 => Config.uniqueId.toNat
    | 8 => Config.romVersion.toNat
    | _ => s.reg idx sub
  | 0x1010 => 12 * dictionary.length
  | 0x1030 => if s.reg idx sub = 0 then Config.stewardCode.toNat else s.reg idx sub - 1
  | 0x1101 => if sub = 1 then s.enabledTotal else if sub ≤ 9 then s.enabledCores (sub - 2) else s.reg idx sub
  | 0x2013 => if sub = 1 then s.inputMicroJoules none else s.inputMicroJoules (some (sub - 2))
  | 0x2103 => microJoules s.power.unattributed
  | 0x2201 => (s.field (sub - 1)).target
  | 0x2202 => s.shownPace (sub - 1)
  | 0x2203 => railMv (s.field (sub - 1)).shownSetpoint
  | 0x2204 => (s.field (sub - 1)).limiter.toNat
  | 0x2207 => if sub ≤ 8 then (s.linksRail (sub - 1)).meas else railMv (s.linksRail (sub - 9)).setpoint
  | 0x3010 => if sub = 3 then s.trayAge else s.reg idx sub
  | 0x3011 => if sub = 9 then s.reg idx sub else (s.rthEst (sub - 1)).toNat
  | 0x3012 => (Config.rthBase (sub - 1)).toNat
  | 0x5300 => if sub = 1 then Config.sidebandMac.toNat else s.reg idx sub
  | 0x7004 => (s.link (sub - 1)).state
  | 0x7006 => s.holdCauses (sub - 1)
  | 0x7007 => (s.link (sub - 1)).free
  | 0x9000 => if sub = 1 && s.steward.lost then 0x81 else s.reg idx sub
  | 0x9100 => s.arraysInService
  | _ => s.reg idx sub

/-- The STR entries (R3, R661). -/
def entryText (sub : Nat) : List Byte :=
  let text (t : String) : List Byte := t.toList.map fun (c : Char) => BitVec.ofNat 8 c.toNat
  (match sub with
    | 1 => text "Polainis Microsystems"
    | 2 => text "LM8T"
    | 4 => text (if Config.orderedWithKit then "LM8T-B0-MS" else "LM8T-B0-M")
    | _ => Config.serialNumber).take 64

/-- Eight flags as a byte, bit 0 first. -/
def flagByte (p : Nat → Bool) (i : Nat) : Nat :=
  (List.range 8).foldl (fun v b => if p (8 * i + b) then v + 2 ^ b else v) 0

/-- The channel or core at an index of a tower's blob. -/
def atIndex (t n : Nat) : Nat := t * 2048 + n

def WbEntry.number (e : WbEntry) : Nat :=
  e.refTime.toNat * 2 ^ 64 + e.count.toNat * 2 ^ 48 + e.kind.toNat * 2 ^ 46 + (if e.rewritten then 2 ^ 45 else 0) +
  (if e.steward then 2 ^ 44 else 0) + e.symbol.toNat * 2 ^ 37 + e.channel.toNat * 2 ^ 26 + e.offset.toNat

/-- The adopter as ADOPTION_MAP shows it (R245). -/
def State.shownAdopter (s : State) (ch : Nat) : Nat :=
  if s.inService ch then 0xFE
  else match s.issuer ch with
    | some c => coreNumber c
    | none => 0xFF

/-- A temperature in units of 0.125 °C as 16 bits. -/
def eighths (t : Int) : Nat := ((t / eighth) % 2 ^ 16).toNat

def StreamLink.declaration (l : StreamLink) : Nat :=
  l.rate + l.lead * 2 ^ 32 + l.minFrame * 2 ^ 64 + l.maxFrame * 2 ^ 96 + l.hreq * 2 ^ 128

def SyncObj.number (o : SyncObj) : Nat := o.count.toNat + o.target.toNat * 2 ^ 32 + if o.armed then 2 ^ 64 else 0

/-- A blob as records: the bytes of a record, and each record as a little-endian number. Blobs of one value per tower or lane take the
unit from the subindex. FLASH_CONTENT and CAPTURE_DATA are windows and are read elsewhere. -/
def State.blob (s : State) (idx sub : Nat) : Nat × (Nat → Nat) :=
  let t := sub - 1
  match idx with
  | 0x1010 => (12, fun i => ((dictionary[i]?).map Entry.record).getD 0)
  | 0x1120 => (1, flagByte fun n => s.hensPresent (atIndex (n / 1280) (n % 1280)))
  | 0x2012 => (4, s.domainMw t)
  | 0x2100 => (1, fun i => (Map.get 0 s.power.shownPhases (128 * t + i)).toNat)
  | 0x2101 => (2, s.phaseCurrent t)
  | 0x2102 => (4, fun i => (Config.energyCoeff i).toNat)
  | 0x2103 =>
    if sub ≤ 8 then (8, fun i => microJoules (Int.ofNat (Map.get 0 s.power.queues (t * 65536 + i))))
    else (8, fun i => microJoules (Int.ofNat (Map.get 0 s.power.idle (atIndex (sub - 9) i))))
  | 0x2206 => (1, fun i => Map.get 0 (s.linksRail t).stretches (atIndex t i))
  | 0x3004 => (2, fun i => (s.sensor t i).shown.toNat)
  | 0x3005 => (2, fun i => eighths (((Map.get [] s.thermal.layers (8 * t + i / 16))[i % 16]?).getD 0))
  | 0x3006 => (1, flagByte fun n => (s.sensor t n).faulty)
  | 0x4104 => (1, fun i => s.shownAdopter (atIndex t i))
  | 0x4105 => (1, flagByte fun n => s.sliceInService (atIndex t n))
  | 0x4201 => (1, fun i => Map.get 0 (s.field (8 * t + i / 16)).bands (i % 16))
  | 0x4202 => (1, fun i =>
      if i < 8 then s.henLimit (8 * t + i)
      else flagByte (fun b => (s.field (8 * t + (i - 8) / 2)).restricted.contains b) (i % 2))
  | 0x4301 => (32, fun i => (Map.get 0 s.kvLog i).toNat)
  | 0x4400 => (1, flagByte fun n => Map.get false s.mem.wbSuppress (atIndex t n))
  | 0x4401 => (16, fun i => (Map.get {} s.mem.wbLog (t * 64 + i)).number)
  | 0x4404 => (32, fun i => (Map.get 0 s.mem.sramLog i).toNat)
  | 0x5101 => (2, fun i => match Map.get 0 s.slots (512 * t + i) with
      | 0 => 0xFFFF
      | l + 1 => l)
  | 0x5102 => (4, fun i => let l := s.lease (256 * t + i); l.state + l.slots.length * 2 ^ 16)
  | 0x5103 => (12, fun i => (s.syncObj (1024 * t + i)).number)
  | 0x5202 => (16, fun _ => Map.get 0 s.groupLeaseEntries t)
  | 0x5300 => (80, fun _ => s.reg idx sub)
  | 0x6000 => (2, s.eclassPower)
  | 0x6002 => (1, fun i => s.queueState (t * 65536 + i))
  | 0x7005 => (24, fun _ => (s.link t).declaration)
  | 0x7009 => if sub = 1 then (2, Map.get 100 s.stream.deadlines) else (4, fun i => (Map.get 0 s.stream.fallbacks i).toNat)
  | 0x700A => (4, fun i => match (Map.get (0, []) s.stream.bindings i).1 with
      | 0 => 0xFFFFFFFF
      | q + 1 => q)
  | 0x8000 => (4, fun i =>
      let c := s.core (atIndex t (i / 32))
      if i % 32 < 16 then (Map.get 0 c.sats (i % 32)).toNat else (Map.get 0 c.nans (i % 32 - 16)).toNat)
  | 0x8101 => (32, fun i => (Map.get 0 s.gooseLog i).toNat)
  | 0x8102 => (1, fun i => (Map.get {} (s.core (atIndex t (i / 4))).arrays (i % 4)).disagree.toNat)
  | 0x9004 => (1, flagByte fun n => s.inService (atIndex t n))
  | 0x9006 => (1, fun i => s.spareRows (atIndex t (i / 64)) (i % 64 / 4) (i % 4))
  | 0x9007 => (1, flagByte fun n => s.dm.published && !s.dm.channels.contains (atIndex t n))
  | 0x9008 => (16, fun i => (Map.get 0 s.defectLog i).toNat)
  | 0x9100 => (1, flagByte fun n => (Map.get {} (s.core (atIndex t (n / 4))).arrays (n % 4)).suspect)
  | 0x9101 => (2, fun i => (s.spareWord (atIndex t (i / 4)) (i % 4)).toNat)
  | 0xA110 => (32, fun i => (Map.get 0 s.faultLog i).toNat)
  | 0xA200 => (16, fun i => (Map.get 0 s.events.log i).toNat)
  | 0xB000 => (4, Map.get 0 s.events.counts)
  | 0xB200 => (8, fun i => (Map.get 0 (if sub = 1 then s.satTotal else s.nanTotal) i).toNat)
  | 0xB300 => (8, fun i =>
      let c := s.channel (atIndex t (i / 4))
      ([c.linesRead, c.linesWritten, c.activates, c.spreadLines].getD (i % 4) 0).toNat)
  | 0xB301 => (4, fun i => (Map.get 0 (s.channel (atIndex t (i / 64))).bankAccesses (i % 64)).toNat)
  | 0xB302 => (8, fun i => (Map.get 0 s.mem.sliceAccesses (atIndex t i)).toNat)
  | 0xB303 => (4, fun i =>
      let c := s.channel (atIndex t (i / 4))
      ([c.pfIssued, c.pfUsed, c.pfLate, c.pfUnused].getD (i % 4) 0).toNat)
  | 0xB800 => (4, fun i =>
      let c := s.channel (atIndex t (i / 6))
      [c.ce, c.ue, c.poisonReads, c.wbDone, c.wbSkipped, c.wbSuperseded].getD (i % 6) 0)
  | 0xB900 => (8, fun i => (Map.get 0 (s.link t).counters i).toNat)
  | 0xB901 => (8, fun i => (Map.get 0 s.stream.counters i).toNat)
  | _ => (1, fun _ => 0)

/-- Bytes of a blob from an offset on. -/
def State.blobBytes (s : State) (idx sub off n : Nat) : List Byte :=
  let (size, value) := s.blob idx sub
  (List.range n).map fun i => BitVec.ofNat 8 (value ((off + i) / size) / 256 ^ ((off + i) % size))

/-- The size of an entry as it stands: of a STR, the bytes it holds (R633). -/
def entrySize (e : Entry) (sub : Nat) : Nat := if e.type = typeStr then (entryText sub).length else e.size

/-- The bytes of an entry that a READ of a length takes from an offset on: the result, the bytes, and the state after, since a read of
CAPTURE_DATA wakes the layers it reads (R679). `level` is that of the session (R661). -/
def State.readEntry (s : State) (e : Entry) (sub off n level : Nat) : Nat × List Byte × State :=
  if sub = 0 then (0, [BitVec.ofNat 8 (highestSub e.index)], s)
  else if e.type = typeStr then (0, ((entryText sub).drop off).take n, s)
  else if e.type ≠ typeBlob then
    (0, natToBytes e.size (if e.index = 0x1030 && sub = 3 then level else s.entryNat e.index sub), s)
  else if e.index = 0xA002 then s.readCapture off n
  else
    let n := min n (e.size - off)
    (0, if e.index = 0x9020 then s.norBytes off n else s.blobBytes e.index sub off n, s)

end Sys2Proof.Machine
end

