-- ==== Sys2Proof/Machine/Tiles.lean ====
section
/-! DEFINITION. The tile commands: the end of a hold, a start, the end of a pass, an operand failure, the steps of a ramp,
the goose's recomputation and the numeric counters (spec files 04_matrix_arrays.md and 05_formats_and_arithmetic.md). -/
namespace Sys2Proof.Machine

/-- TILE passes a tile descriptor to an array (R116); SUB bits 2:0 of 5 to 7 make it illegal, and bits 7:3 are
reserved (R18, assumption 19). -/
def execTile (i : Issue) (xd xa xb : Reg) (wc : BitVec 2) (w : Bool) (sub : BitVec 8) (s : State) :
    Host.Outcome State Fault Refusal :=
  .next (s.issue i (wordC 0x31 xd xa xb wc w sub) fun s =>
    if 5 ≤ sub.toNat % 8 then s.faultAt i.core i.ctx causeIllegal 0x08 0
    else s.tileCommand i.core i.ctx xd xa xb wc w sub)

/-- WAIT_UNIT_RELEASE: a command held in WAIT_UNIT is tried again and issues once its counter and unit have room (R113). -/
def execWaitUnitRelease (core ctx : Nat) (s : State) : Host.Outcome State Fault Refusal :=
  .next (
    if !s.coreUp core then s
    else
      match (s.ctx core ctx).wait with
      | .unit (.dma xd xa wc w) => s.dmaCommand core ctx xd xa wc w
      | .unit (.tile xd xa xb wc w sub) => s.tileCommand core ctx xd xa xb wc w sub
      | .unit (.vec op xd xa xb xc) => s.vecCommand core ctx op xd xa xb xc
      | .unit (.sync arm xd xa xb wc w) => s.syncCommand core ctx arm xd xa xb wc w
      | _ => s)

/-- TILE_HOLD_END: an open tile at the head of an idle array's input closes when its hold has passed and the array can start it; one
that the ramp holds goes on accepting requests (R178, R179, R183, R189). -/
def execTileHoldEnd (core a : Nat) (s : State) : Host.Outcome State Fault Refusal :=
  .next (
    let u := s.array core a
    match u.tiles with
    | t :: _ =>
      if s.coreUp core && t.opened && !t.running && decide (t.holdEnd ≤ s.run) && s.rampAdmits core a then
        s.setArray core a (u.setTile 0 { t with opened := false, closedBy := .expired })
      else s
    | [] => s)

/-- Address and length of the streamed string and scales of a pass (R156, R157). -/
def streamSpans (core : Nat) (ws : List Word) (p : Nat) : List (Nat × Nat) :=
  let n := tileSteps ws * tileStepBytes ws
  let k := tileM ws * tileLanes ws
  (tileAddr core (tileSSpace ws) (tileSAddr ws) + p * n, n) ::
    (if (tileS ws).isBlock then [(tileAddr core (tileSSpace ws) (tileSScale ws) + p * k, k)] else [])

/-- The same of one held row of a request (R155). -/
def heldSpans (core : Nat) (ws : List Word) (p : Nat) (q : TileReq) (i : Nat) : List (Nat × Nat) :=
  let h := tileAddr core (tileHSpace ws) q.held
  let c := tileAddr core (tileHSpace ws) q.heldScale
  (h + i * tileHStride ws + p * tileKP ws * (tileH ws).bits / 8, 4 * passLanes ws p * (tileH ws).bits) ::
    (if (tileH ws).isBlock then [(c + i * tileHScaleStride ws + p * tileLanes ws, passLanes ws p)] else [])

/-- Held rows by column, as the cell registers have them. -/
abbrev HeldRows := List (Option (List (List Byte)))

/-- The held load of a pass: the rows of every request, a failing read marking its request (R162, R187). The first answer says
that a line waits for a recovery. -/
def State.loadHeld (s : State) (core a : Nat) (ws : List Word) (p : Nat) :
    List TileReq → Bool × List TileReq × HeldRows × State
  | [] => (false, [], [], s)
  | q :: qs =>
    let next (s : State) (q : TileReq) (mine : HeldRows) : Bool × List TileReq × HeldRows × State :=
      let (w, l, h, s) := s.loadHeld core a ws p qs
      (w, q :: l, mine ++ h, s)
    if q.status.isSome then next s q (List.replicate q.n none)
    else
      let (r, data, s) := s.readSpans (.held core a) ((List.range q.n).flatMap (heldSpans core ws p q))
      if r.waiting then (true, q :: qs, [], s)
      else if r.status ≠ 0 then next s { q with status := some r.status } (List.replicate q.n none)
      else
        let per := if (tileH ws).isBlock then 2 else 1
        next s q ((List.range q.n).map fun k => some ((data.drop (per * k)).take per))

/-- The columns of requests that have failed since left out. -/
def liveRows : List TileReq → HeldRows → HeldRows
  | [], _ => []
  | q :: qs, h => (if q.status.isSome then List.replicate q.n none else h.take q.n) ++ liveRows qs (h.drop q.n)

/-- A run begun: its held load, unless made early, then Y0 when ACC is set, and the accumulators (R146, R151, R164, R711); none
while a line waits for recovery. -/
def State.beginRun (s : State) (core a : Nat) (t : Tile) : Option (Tile × List NumEvent) × State :=
  let ws := t.words
  let (w, reqs, held, s) := match t.held with
    | some h => (false, t.reqs, h, s)
    | none => s.loadHeld core a ws 0 t.reqs
  if w then (none, s)
  else
    let start (reqs : List TileReq) (y0 : List Word32) : Tile :=
      { t with reqs := reqs, running := true, begun := true, held := some held, pass := 0, acc := y0, y0 := y0 }
    if tileAcc ws then
      let (r, l, ev, s) := s.readOutputs core a ws reqs
      if r.waiting then (none, s)
      else
        let y0 := (List.range (tileM ws)).flatMap fun m => l.flatMap fun (_, ys) => ys.getD m []
        (some (start (l.map (·.1)) y0, ev), s)
    else (some (start reqs (List.replicate (tileM ws * t.columns) 0), []), s)

/-- The last pass of a tile begins: the next entry's held load begins with it when that entry is a closed tile that the ramp does not
hold; a load that a rerun of the tile has discarded is made after the tile (R164). -/
def State.markEarly (s : State) (core a : Nat) (t : Tile) : State :=
  let u := s.array core a
  match u.tiles with
  | cur :: n :: rest =>
    if t.pass + 1 = tilePasses t.words && !t.dropped && !n.opened && s.rampAdmits core a then
      s.setArray core a { u with tiles := cur :: { n with early := true } :: rest }
    else s
  | _ => s

/-- The tile at the head of the input put back with a run begun, and its events counted. -/
def State.putRun (s : State) (core a : Nat) (t : Tile) (ev : List NumEvent) : State :=
  let s := s.setArray core a ((s.array core a).setTile 0 { t with counted := t.counted || !ev.isEmpty })
  (s.countEvents core ev).markEarly core a t

/-- The feeders and the drain of an array, which move their lines together. -/
def State.tileUnits (s : State) (core a : Nat) (body : State → Option State) : State :=
  s.units core [.array core a, .held core a] body

/-- TILE_START: the next closed tile of the input starts when the array is free and the ramp admits it (R164, R165,
R170, R182, R183). -/
def execTileStart (core a : Nat) (s : State) : Host.Outcome State Fault Refusal :=
  .next (
    let u := s.array core a
    match u.tiles with
    | t :: _ =>
      if !(s.coreUp core && a < 4 && !t.opened && u.startable s.run && s.rampAdmits core a) then s
      else
        s.tileUnits core a fun s =>
          match s.beginRun core a t with
          | (none, s) => some s
          | (some (t, ev), s) =>
            let s := s.putRun core a t ev
            let s := if t.closedBy = .full && t.key ≠ 0 then s.towerWrap 0xB105 (coreTower core) 1
              else if t.closedBy = .expired then s.towerWrap 0xB106 (coreTower core) 1 else s
            some (s.settleRamp (coreField core))
    | [] => s)

/-- The early held load of the next tile, made during the last pass of the one before it (R164); a line that waits leaves it to the
tile's start. -/
def State.loadEarly (s : State) (core a : Nat) : State :=
  match (s.array core a).tiles with
  | _ :: n :: _ =>
    if !n.early || n.held.isSome then s
    else
      let (w, reqs, held, s) := s.loadHeld core a n.words 0 n.reqs
      if w then s else s.setArray core a ((s.array core a).setTile 1 { n with reqs := reqs, held := some held })
  | _ => s

/-- An early held load discarded, with what its reads gave (R164). -/
def State.dropEarly (s : State) (core a : Nat) : State :=
  let u := s.array core a
  match u.tiles with
  | t :: n :: rest =>
    if !n.early then s
    else
      let n := { n with early := false, held := none, reqs := n.reqs.map fun q => { q with status := none } }
      s.setArray core a { u with tiles := { t with dropped := true } :: n :: rest }
  | _ => s

/-- What stands in the way of the drain's writes, before any of them is made: the places of a request's rows and the hens' ranges; with
any of them it writes nothing (R163, R321). -/
def State.drainStatus (s : State) (core space : Nat) (rows : List (Nat × List Byte)) : Status :=
  let sts := rows.flatMap fun r => (pieces (tileAddr core space r.1) r.2.length).map fun p =>
    let place := placeOf (s.translate p.1)
    let st := s.reachStatus (coreTower core) place
    match place with
    | .dram ch off => if st = 0 && (s.inReadRange ch off || s.inWriteRange ch off) then 0x0B else st
    | _ => st
  (sts.find? (· != 0)).getD 0

/-- Rows written by the drain; the first that fails gives the status (R187 states none; assumption 22). -/
def State.drainRows (s : State) (core a : Nat) (q : TileReq) (space : Nat) : List (Nat × List Byte) → Status × State
  | [] => (0, s)
  | (addr, bytes) :: rest =>
    let (st, s) := s.writeRange (tileAddr core space addr) bytes q.rerun (.array core a)
    let (st2, s) := s.drainRows core a q space rest
    (if st = 0 then st2 else st, s)

/-- The drain writes the outputs of every request that has not failed (R153, R159, R163, R180). -/
def State.drainTile (s : State) (core a : Nat) (t : Tile) : Nat → List TileReq → List TileReq × List NumEvent × State
  | _, [] => ([], [], s)
  | c0, q :: qs =>
    let ws := t.words
    let f := tileO ws
    let row (cells : List (Nat × Nat)) : List Nat × List NumEvent :=
      f.writeAll .nearest (cells.map fun (m, n) => (readF32 (t.acc.getD (m * t.columns + c0 + n) 0)).1)
    let rows := if tileOutOrder ws then (List.range q.n).map fun n => (List.range (tileM ws)).map fun m => (m, n)
      else (List.range (tileM ws)).map fun m => (List.range q.n).map fun n => (m, n)
    let (q, ev, s) :=
      if q.status.isSome then (q, [], s)
      else
        let packed := rows.map row
        let out := List.zipWith (fun r b => (r.1, f.pack b.1)) (tileOutRows ws q.out q.n) packed
        let st := s.drainStatus core (tileOSpace ws) out
        let (st, s) := if st = 0 then s.drainRows core a q (tileOSpace ws) out else (st, s)
        (if st = 0 then q else { q with status := some st }, packed.flatMap (·.2), s)
    let (l, es, s) := s.drainTile core a t (c0 + q.n) qs
    (q :: l, ev ++ es, s)

/-- A run that is to be made again (R169): every operand is read again, at once or when its lines have recovered. -/
def State.rerunTile (s : State) (core a : Nat) (t : Tile) : State :=
  let t := { t with attempt := 1, pass := 0, begun := false, held := none, acc := [], y0 := [] }
  let s := (s.setArray core a ((s.array core a).setTile 0 t)).dropEarly core a
  let t := ((s.array core a).tiles.head?).getD t
  match s.beginRun core a t with
  | (none, s) => s
  | (some (t, ev), s) => s.putRun core a t ev

/-- A pass whose checks failed (R169): the tile runs again once; then it fails and its array is suspect. -/
def State.passMismatch (s : State) (core a : Nat) (t : Tile) : State :=
  let s := s.towerWrap 0xB101 (coreTower core) 1
  if t.attempt = 0 then s.rerunTile core a t else (s.finishTile core a t 0x06 false).markSuspect core a

/-- The tile that the array runs, its run begun; none while an operand of its start waits, or where nothing runs. -/
def State.runningTile (s : State) (core a : Nat) : Option Tile × State :=
  let u := s.array core a
  match u.tiles with
  | t :: _ =>
    if !(t.running && s.coreUp core && !u.halted) then (none, s)
    else if t.begun then (some t, s)
    else
      match s.beginRun core a t with
      | (none, s) => (none, s)
      | (some (t, ev), s) => (some t, s.putRun core a t ev)
  | [] => (none, s)

/-- What reading the operands of a pass gives: the streamed string and scales, and the held rows of the next pass. -/
structure PassData where
  result : ReadResult := {}
  stream : List (List Byte) := []
  reqs : List TileReq := []
  next : Option HeldRows := none

/-- The reads that a running tile makes during a pass: the streamed operand, and the held rows of the next pass (R162, R711). -/
def State.readPass (s : State) (core a : Nat) (t : Tile) : PassData × State :=
  let (r, data, s) := s.readSpans (.array core a) (streamSpans core t.words t.pass)
  if r.waiting || r.status ≠ 0 then ({ result := r, reqs := t.reqs }, s)
  else if tilePasses t.words ≤ t.pass + 1 then ({ stream := data, reqs := t.reqs }, s)
  else
    let (w, reqs, held, s) := s.loadHeld core a t.words (t.pass + 1) t.reqs
    ({ result := { waiting := w }, stream := data, reqs := reqs, next := some held }, s)

/-- Events of a tile counted, split among its requests in proportion to their N, what does not divide going to the one that opened it
(R551; assumption 44). -/
def State.chargeTile (s : State) (core : Nat) (t : Tile) (kind n : Nat) : State :=
  let l := s.tileShares t
  let sum := max 1 (l.map (·.2)).sum
  let s := l.foldl (fun (s : State) e => s.charge core e.1 kind (n * e.2 / sum)) s
  match l with
  | [] => s
  | e :: _ => s.charge core e.1 kind (n - (l.map fun e => n * e.2 / sum).sum)

/-- TILE_PASS_END: the pass's string has streamed and the held rows of the next are loaded; its block values are accumulated and its
checksums compared, where `faults` are the cells that gave a wrong sum. After the last pass the drain writes the result (R150, R151,
R162, R163, R166, R168). A pass one of whose reads fails or waits does not end. -/
def execTilePassEnd (core a : Nat) (faults : List CellFault) (s : State) : Host.Outcome State Fault Refusal :=
  .next (s.tileUnits core a fun s =>
    match s.runningTile core a with
    | (none, s) => some s
    | (some t, s) =>
      let ws := t.words
      let (d, s1) := s.readPass core a t
      if d.result.waiting then some s1
      else if d.result.status ≠ 0 || d.reqs != t.reqs then none
      else
        let s1 := s1.loadEarly core a
        let (stream, e1) := streamBlocks ws t.pass (d.stream.getD 0 []) (d.stream.getD 1 [])
        let held := (liveRows t.reqs (t.held.getD [])).map fun c => c.map fun l => heldBlocks ws t.pass (l.getD 0 []) (l.getD 1 [])
        let blocks := held.map fun c => c.map (·.1)
        let e2 := held.flatMap fun c => match c with
          | some x => x.2
          | none => []
        let tw := coreTower core
        let (products, gated) := (passProducts ws t.pass t.columns, passGated ws stream blocks)
        let s := (s1.towerWrap 0xB103 tw products).towerWrap 0xB104 tw gated
        let s := (s.chargeTile core t 0 (products - gated)).chargeTile core t 1 gated
        let (acc, e3) := passAccumulate ws faults t.acc stream blocks
        let ev := e1 ++ e2 ++ e3
        let ok := checksPass ws t.pass faults stream blocks
        let t := { t with acc := acc, pass := t.pass + 1, held := d.next, counted := t.counted || !ev.isEmpty }
        let s := s.countEvents core ev
        if !ok then some (s.passMismatch core a t)
        else if t.pass < tilePasses ws then some ((s.setArray core a ((s.array core a).setTile 0 t)).markEarly core a t)
        else
          let (reqs, e4, s) := s.drainTile core a t 0 t.reqs
          some ((s.countEvents core e4).finishTile core a { t with reqs := reqs, counted := t.counted || !e4.isEmpty } 0 false))

/-- A request of the running tile whose held rows have failed ends; what the tile's units have read stays read (R187, R711). -/
def State.failHeld (s : State) (core a : Nat) : State :=
  match s.runningTile core a with
  | (none, _) => s
  | (some t, u) =>
    let (d, _) := u.readPass core a t
    if d.result.waiting || d.result.status ≠ 0 || d.reqs == t.reqs then s
    else u.setArray core a ((u.array core a).setTile 0 { t with reqs := d.reqs })

/-- TILE_OPERAND_FAIL: a failing read of the streamed operand stops the tile with its status; a failing read of one
request's held rows ends that request alone (R187). -/
def execTileOperandFail (core a : Nat) (s : State) : Host.Outcome State Fault Refusal :=
  .next ((s.tileUnits core a fun s =>
    match s.runningTile core a with
    | (none, s) => some s
    | (some t, s) =>
      let (d, s1) := s.readPass core a t
      if d.result.waiting then some s1
      else if d.result.status ≠ 0 then some (s1.finishTile core a t d.result.status true)
      else none).failHeld core a)

/-- RAMP_STEP: each tRS the ramp of a field goes to its next step; after step 8 it ends (R182, R189). -/
def execRampStep (field : Nat) (s : State) : Host.Outcome State Fault Refusal :=
  .next (
    let k := s.field field
    match k.ramp with
    | some (step, due) =>
      if !s.running || s.run < due then s
      else
        (s.setField field { k with ramp := if step < 8 then some (step + 1, due + s.rampStepCycles) else none }).settleRamp field
    | none => s)

/-! ### The goose -/

/-- A block operand element as an exact value under R196, R200 and R201; no counter changes (R228). A scaled element is not brought
into FP32 before the multiplication, which alone rounds: R225 does not say (assumption 79, DESIGN CHOICE). -/
def gooseValues (f : Fmt) (codes : List Nat) (scale : Nat) : List Val :=
  let (xs, e, _) := blockUnits f codes scale
  xs.map fun x => .num { Dy.ofInt x with exp := e - f.unitExp }

/-- ref and abs of R225 carried over a list of element pairs. -/
def gooseSum : Word32 → Word32 → List (Val × Val) → Word32 × Word32
  | r, b, [] => (r, b)
  | r, b, (x, y) :: rest =>
    let p := (writeF32 (x.mul y)).1
    gooseSum (f32Add r p).1 (f32Add b (f32Abs p)).1 rest

/-- ulp of R225: the spacing of a format at a value. -/
def gooseUlp (f : Fmt) (x : Word32) : Word32 :=
  match f.layout, (readF32 x).1 with
  | .float l, .num d => (writeF32 (.num ⟨false, 1, l.quantum d⟩)).1
  | _, _ => 0

/-- The agreement test of R225. -/
def gooseAgrees (f : Fmt) (tol : Nat) (yOut ref abs : Word32) : Bool :=
  let diff := f32Abs (f32Sub yOut ref).1
  let part := (f32Mul abs (writeF32 (.num ⟨false, 1, -(tol : Int)⟩)).1).1
  let bound := (f32Add part (gooseUlp f ref)).1
  (readF32 diff).1.le (readF32 bound).1

/-- The two operand rows of a sample, pass by pass; none while a line waits, a status where a read fails. The goose reads the string of a
pass, in which the streamed rows lie skewed (R156), and its scales whole, and fails where a line of them fails: the spec does not say
which lines of S it reads (assumption 87, DESIGN CHOICE). -/
def State.gooseRead (s : State) (core a : Nat) (t : Tile) (smp : Sample) :
    Nat → Nat → ReadResult × List (Val × Val) × State
  | 0, _ => ({}, [], s)
  | fuel + 1, p =>
    let ws := t.words
    match Tile.columnOf t.reqs smp.n with
    | none => ({}, [], s)
    | some (q, i) =>
      let (r, sd, s) := s.readSpans (.goose core a) (streamSpans core ws p)
      if r.waiting || r.status ≠ 0 then (r, [], s)
      else
        let (r, hd, s) := s.readSpans (.goose core a) (heldSpans core ws p q i)
        if r.waiting || r.status ≠ 0 then (r, [], s)
        else
          let n := bytesToNat (sd.getD 0 [])
          let held := blocksOf (passLanes ws p) ((tileH ws).unpack (32 * passLanes ws p) (hd.getD 0 []))
          let pairs := (List.range (passLanes ws p)).flatMap fun l =>
            List.zip
              (gooseValues (tileS ws) ((List.range 32).map fun j => streamElement ws n smp.m l j)
                ((sd.getD 1 []).getD (smp.m * tileLanes ws + l) 0x7F).toNat)
              (gooseValues (tileH ws) (held.getD l []) ((hd.getD 1 []).getD l 0x7F).toNat)
          let (r, rest, s) := s.gooseRead core a t smp fuel (p + 1)
          (r, pairs ++ rest, s)

/-- A goose record (R229). -/
def gooseRecord (time : BitVec 64) (ref yOut abs : Word32) (core a : Nat) (smp : Sample) (ws : List Word) : BitVec 256 :=
  BitVec.ofNat 256 (time.toNat * 2 ^ 192 + ref.toNat * 2 ^ 160 + yOut.toNat * 2 ^ 128 + abs.toNat * 2 ^ 96 +
    core * 2 ^ 82 + a * 2 ^ 80 + smp.m * 2 ^ 71 + smp.n * 2 ^ 66 + tileOfmt ws * 2 ^ 62 + tileSfmt ws * 2 ^ 58 +
    tileHfmt ws * 2 ^ 54 + tileK ws * 2 ^ 41)

/-- A disagreement recorded (R226). -/
def State.gooseDisagree (s : State) (core a : Nat) (rec : BitVec 256) : State :=
  let t := coreTower core
  let head := s.reg 0x8101 2
  let s := s.towerWrap 0xB211 t 1
  let b := s.gooseBatch.add s.now (core * 4 + a) rec
  let s := { s with gooseLog := b.write 16 (head + 1) s.gooseLog, gooseBatch := b }.setReg 0x8101 2 ((head + 1) % 16)
  let u := s.array core a
  let n := if u.disagree = 0xFF then u.disagree else u.disagree + 1
  let s := (s.setArray core a { u with disagree := n }).raise 0x05 t (core * 4 + a)
  if s.reg 0x8100 5 ≠ 0 && n.toNat == s.reg 0x8100 5 && !u.suspect then s.markSuspect core a else s

/-- The sampled tile's completion released, and those behind it (R223). -/
def State.releaseSample (s : State) (core a : Nat) : State :=
  let u := s.array core a
  let s := s.setArray core a { u with sample := none, done := u.done.drop 1 }
  match u.done with
  | t :: rest => (s.reportTile core t).settleTiles core a (rest.length + 1)
  | [] => s

/-- The vector unit is the goose's: with nothing in its input it serves pending samples in array order; between two operations those
that have waited GOOSE_WAIT_MAX (R223, R224). -/
def State.gooseMay (s : State) (core a : Nat) (smp : Sample) : Bool :=
  match (s.core core).vec with
  | [] => (List.range a).all fun b => (s.array core b).sample.isNone
  | v :: _ => smp.expired && !v.running && (List.range a).all fun b => !(s.array core b).sample.any (·.expired)

/-- GOOSE_RECOMPUTE: the sampled element is recomputed and compared, then the tile's completion is released (R223 to
R227). -/
def execGooseRecompute (core a : Nat) (s : State) : Host.Outcome State Fault Refusal :=
  .next (
    let u := s.array core a
    match u.sample, u.done with
    | some smp, t :: _ =>
      if !(s.coreUp core && s.gooseMay core a smp) then s
      else
        s.unit core (.goose core a) fun s =>
          let (r, pairs, s) := s.gooseRead core a t smp (tilePasses t.words) 0
          let tw := coreTower core
          if r.waiting then s
          else if r.status ≠ 0 then (s.towerWrap 0xB212 tw 1).releaseSample core a
          else
            let (ref, abs) := gooseSum smp.y0 (f32Abs smp.y0) pairs
            let s := s.towerWrap 0xB210 tw 1
            let s := if gooseAgrees (tileO t.words) smp.tol smp.yOut ref abs then s
              else s.gooseDisagree core a (gooseRecord (s.refTime tw) ref smp.yOut abs core a smp t.words)
            s.releaseSample core a
    | _, _ => s)

/-- GOOSE_WAIT_EXPIRY: a sample that has waited GOOSE_WAIT_MAX goes ahead of the waiting operations (R224). A write of GOOSE_WAIT_MAX
applies to a sample that waits: R233 does not name it among the settings that a sample keeps (assumption 87, DESIGN CHOICE). -/
def execGooseWaitExpiry (core a : Nat) (s : State) : Host.Outcome State Fault Refusal :=
  .next (
    let u := s.array core a
    match u.sample with
    | some smp =>
      if s.coreUp core && decide (smp.since + nsCycles (s.reg 0x8100 6) ≤ s.run) then
        s.setArray core a { u with sample := some { smp with expired := true } }
      else s
    | none => s)

/-- GOOSE_SEED_WRITE: the seed is stored and every sampling register is seeded again (R222). -/
def execGooseSeedWrite (v : BitVec 32) (s : State) : Host.Outcome State Fault Refusal :=
  .next (s.written (
    let reseed (c : Core) : Core := { c with arrays := Map.mapVals {} c.arrays fun _ u => { u with lfsr := 0 } }
    { s with cores := Map.mapVals {} s.cores fun _ c => reseed c }.setReg 0x8100 4 v.toNat))

/-- NUMERIC_CLEAR: the counters of the named core, or of every core, become 0, and an event of the same reference cycle is counted after
it (R211, R236). -/
def execNumericClear (v : BitVec 32) (s : State) : Host.Outcome State Fault Refusal :=
  .next (s.written (
    let wipe (c : Core) : Core := { c.inCycle s.now with sats := (c.inCycle s.now).cycleSats, nans := (c.inCycle s.now).cycleNans }
    if v.getLsbD 31 then { s with cores := Map.mapVals {} s.cores fun _ c => wipe c }
    else if coreExists (v.toNat % 2 ^ 14) then s.setCore (v.toNat % 2 ^ 14) (wipe (s.core (v.toNat % 2 ^ 14)))
    else s))

end Sys2Proof.Machine
end

