-- ==== Sys2Proof/Machine/DictWrite.lean ====
section
/-! DEFINITION. Writing the object dictionary: the checks of R639 that belong to an entry, and what a write does. Reserved bits are
refused (R634), except where an entry's chapter says that they follow R18 and are ignored. -/
namespace Sys2Proof.Machine

/-! ### The checks of an entry -/

def badValue : Nat := 0x07
def badState : Nat := 0x08
def badLength : Nat := 0x06

/-- Bytes of the image slots that the entries of 0x9020 may not touch: the running slot, and all from 0x0200_0000 on (R660). -/
def State.flashGuarded (s : State) (off n : Nat) : Bool :=
  0x2000000 < off + n || (List.range 2).any fun slot =>
    s.reg 0x9000 2 == slot && decide (off < slotOffset slot + 0x1000000) && decide (slotOffset slot < off + n)

/-- COMPUTE_RESET (R615). -/
def State.resetCheck (s : State) (v : BitVec 16) : Nat :=
  if resetScope v = 3 || resetTest v = 3 then badValue
  else if !s.mayReset || (resetScope v = 0 && s.unresettable (resetTarget v)) || (resetScope v = 1 && s.towerOut (resetTarget v % 8))
  then badState else 0

/-- FIELD_SERVICE (R621). -/
def State.serviceCheck (s : State) (v : BitVec 16) : Nat :=
  let f := v.toNat % 64
  let a := serviceAction v
  let st := s.serviceState f
  if a = 0 || 4 < a then badValue
  else if !s.mayReset then badState
  else if a = 1 then if st = 0 && s.fieldUp f then 0 else badState
  else if s.inReset f then badState
  else if a = 4 then if (st = 2 || st = 5) && !s.towerOut (f / 8) then 0 else badState
  else if st = 2 then 0 else badState

/-- Step 7 for FLASH_DATA, and steps 8 and 9 of R639, for a value of the right length. -/
def State.writeCheck (s : State) (idx sub : Nat) (bytes : List Byte) : Nat :=
  let v := bytesToNat bytes
  let upTo (n : Nat) : Nat := if v ≤ n then 0 else badValue
  let repair (ok : Bool) : Nat := if !ok then badValue else if s.reg 0x9005 3 = 0xFF || !s.mayReset then badState else 0
  match idx with
  | 0x2006 => upTo 127
  | 0x3000 => if sub = 4 then upTo 1 else if sub = 8 then upTo 1023 else 0
  | 0x3010 => if trayValue (BitVec.ofNat 32 v) then 0 else badValue
  | 0x4101 => if sub = 1 then upTo 1 else 0
  | 0x4102 => if sub = 1 then upTo 1 else 0
  | 0x4200 => if sub = 6 then upTo 1 else 0
  | 0x5200 => match sub with
    | 1 => upTo 2
    | 2 => upTo 63
    | 3 | 8 => upTo 1
    | _ => 0
  | 0x5202 => if fieldAt bytes 11 5 = 0 && fieldAt bytes 8 2 < 2 ^ 11 && fieldAt bytes 10 1 < 64 then 0 else badValue
  | 0x5300 => match sub with
    | 2 => upTo 1
    | 4 => upTo 32
    | 8 => upTo 128
    | 10 => if (List.range 4).all fun t => fieldAt bytes (20 * t + 18) 2 == 0 then 0 else badValue
    | _ => 0
  | 0x7000 => upTo 1
  | 0x7001 => if v = 0 || v = 1 || v = 2 || v = 4 then 0 else badValue
  | 0x8100 => if sub = 1 then upTo 1 else 0
  | 0x9000 => if sub = 3 then upTo 2 else if v = 1 || v = 2 then 0 else badValue
  | 0x9001 => match sub with
    | 1 => s.resetCheck (BitVec.ofNat 16 v)
    | 2 => s.serviceCheck (BitVec.ofNat 16 v)
    | _ => 0
  | 0x9003 => if s.mayReset then 0 else badState
  | 0x9005 =>
    if sub = 1 then repair (fieldAt bytes 0 2 < 2 ^ 14 && fieldAt bytes 4 2 < 1024 && fieldAt bytes 6 2 < 2) else repair true
  | 0x9020 => match sub with
    | 2 =>
      if 0x2000000 < s.reg 0x9020 1 + bytes.length then badLength
      else if s.flashGuarded (s.reg 0x9020 1) bytes.length then badState else 0
    | 3 => if s.flashGuarded (s.reg 0x9020 1 / 65536 * 65536) 65536 then badState else 0
    | _ => 0
  | 0xA002 => if v % 8 = 0 && v < 2 ^ 59 then 0 else badValue
  | 0xA111 => match sub with
    | 1 => upTo 1
    | 4 => upTo 2
    | _ => upTo (2 ^ 22 - 1)
  | 0xA200 => match sub with
    | 3 | 4 => if v &&& 0x7FFFFFFE = v then 0 else badValue
    | 5 => if v / 2 ^ 11 % 2 ^ 20 = 0 then 0 else badValue
    | _ => 0
  | _ => 0

/-! ### What a write does -/

/-- The value that an entry without a row of its own stores, clamped where its table says so. -/
def storedValue (idx sub v : Nat) : Nat :=
  match idx with
  | 0x2210 => clamp 20 100 v
  | 0x2300 => clamp 2000 16000 v
  | 0x3000 => if sub = 1 then clamp 75 100 v else if sub = 3 then clamp 0 10 v else v
  | 0x4101 => if sub = 2 then clamp 50 2000 v else v
  | 0x4102 => if sub = 2 then min 32 v else v
  | 0x4103 => if sub = 1 then max 17 v else max 1 v
  | 0x4200 => match sub with
    | 1 => clamp 1000 4000 v
    | 2 => clamp 1 4 v
    | 3 => clamp 10 100 v
    | 4 => clamp 1 64 v
    | _ => clamp 1 10000 v
  | 0x4403 => if sub = 1 then clamp 1 1000 v else max 1 v
  | 0x5100 => clamp 1 10000 v
  | 0x5200 => if sub = 9 then clamp 1 1000 v else v
  | 0x6100 => min 50000 v
  | 0x7008 => if sub = 1 then min 10000 v else v
  | 0x8100 => match sub with
    | 2 => min 20 v
    | 3 => clamp 1 23 v
    | 6 => min 20000 v
    | _ => v
  | 0x9001 => clamp 1 10000 v
  | _ => v

/-- The 16-bit or 32-bit values of a table entry, in order. -/
def tableValues (size : Nat) (bytes : List Byte) : List Nat := (List.range (bytes.length / size)).map fun i => fieldAt bytes (size * i) size

/-- A table written: `rest i` is the value that entry i reads when it is not listed. -/
def tableOf (rest : Nat → Nat) (vs : List Nat) : Map Nat :=
  (vs.zipIdx.map fun (e : Nat × Nat) => (e.2, e.1)).filter fun e => e.2 != rest e.1

def eclassRest (c : Nat) : Nat := #[0, 8, 16, 32, 48, 64, 96, 128].getD c 0

def deadlinesOf (bytes : List Byte) : Map Nat := tableOf (fun _ => 100) ((tableValues 2 bytes).map (clamp 1 1000))
def eclassesOf (bytes : List Byte) : Map Nat := tableOf eclassRest (tableValues 2 bytes)
def fallbacksOf (bytes : List Byte) : Map Word32 := (tableOf (fun _ => 0) (tableValues 4 bytes)).map fun e => (e.1, BitVec.ofNat 32 e.2)

/-- How `regs` holds a value: STEWARD_CODE as 1 more, since 0 there stands for the fused code. -/
def heldAs (idx v : Nat) : Nat := if idx = 0x1030 then v + 1 else v

/-- A write to an entry without a row of its own (R634). While a link is enabled its lanes and ring cannot be changed (R514). -/
def State.writeRegister (s : State) (idx sub : Nat) (bytes : List Byte) : State :=
  let v := bytesToNat bytes
  match idx with
  | 0x6000 => if sub = 2 then { s with eclassPowers := eclassesOf bytes } else s.setReg idx sub v
  | 0x7009 =>
    if sub = 1 then { s with stream := { s.stream with deadlines := deadlinesOf bytes } }
    else { s with stream := { s.stream with fallbacks := fallbacksOf bytes } }
  | 0x7001 | 0x7002 | 0x7003 => if s.linkEnabled (sub - 1) then s else s.setReg idx sub v
  | _ => s.setReg idx sub (heldAs idx (storedValue idx sub v))

/-- The value of an RWS entry as it stands, for saving. -/
def State.entryBytes (s : State) (idx sub : Nat) (e : Entry) : List Byte :=
  if e.type = typeBlob then s.blobBytes idx sub 0 e.size else natToBytes e.size (s.entryNat idx sub)

/-- The state after an event. -/
def State.after (s : State) (o : Host.Outcome State Fault Refusal) : State :=
  match o with
  | .next t => t
  | _ => s

/-- FLASH_DATA accepted: the work waits, and FLASH_OFFSET moves on. -/
def State.acceptFlashData (s : State) (bytes : List Byte) : State :=
  let job : Job := ⟨s.fresh, .program (s.reg 0x9020 1) bytes⟩
  { s with fresh := s.fresh + 1, dict := { s.dict with jobs := s.dict.jobs ++ [job] } }.setReg 0x9020 1 (s.reg 0x9020 1 + bytes.length)

/-- FLASH_ERASE accepted. -/
def State.acceptFlashErase (s : State) : State :=
  let job : Job := ⟨s.fresh, .erase (s.reg 0x9020 1 / 65536)⟩
  { s with fresh := s.fresh + 1, dict := { s.dict with jobs := s.dict.jobs ++ [job] } }

/-- EVENT_PENDING and GROUP_EVENT_PENDING are cleared by writing 1 (R655). -/
def State.clearPending (s : State) (sub v : Nat) : State := s.clearFlags 0xA200 sub v

/-- GROUP_LEASE written by the host: the answers of the tree's other devices, which only they know, are a free value (assumption 58). -/
def State.writeGroupLease (s : State) (n : Nat) (bytes : List Byte) : State :=
  let others := (Config.freeWord s.fresh).toNat % 5
  let s := { s with fresh := s.fresh + 1 }
  s.after (execGroupLease n bytes false others s)

/-- The effect of a write that has passed every check, PRIV_UNLOCK and PRIV_LOCK apart, which act on a session. -/
def State.applyWrite (s : State) (idx sub : Nat) (bytes : List Byte) : State :=
  let v := bytesToNat bytes
  let b8 : Byte := BitVec.ofNat 8 v
  let b16 : BitVec 16 := BitVec.ofNat 16 v
  let b32 : Word32 := BitVec.ofNat 32 v
  match idx, sub with
  | 0x2000, 1 => s.after (execModuleCapWWrite b16 s)
  | 0x2001, _ => s.after (execTowerCapWWrite (sub - 1) b16 s)
  | 0x2002, _ => s.after (execFieldCapMwWrite (sub - 1) b32 s)
  | 0x2006, _ => s.after (execPowerFlagsWrite b16 s)
  | 0x2200, 1 => s.after (execPaceHostTargetWrite b16 s)
  | 0x3000, 5 => s.after (execThermalResume b8 s)
  | 0x3000, 6 => s.after (execShutdownRecover b8 s)
  | 0x3000, 8 => s.after (execThermalFlagsWrite b16 s)
  | 0x3010, 1 => s.after (execTrayInletCWrite b32 s)
  | 0x3010, 2 => s.after (execTrayFlowLpmWrite b32 s)
  | 0x4100, _ => s.after (execHashKeyWrite sub (BitVec.ofNat 64 v) s)
  | 0x4200, 6 => s.after (execHenHaltWrite b8 s)
  | 0x4300, 1 => s.after (execKvAnswer (BitVec.ofNat 64 v) (BitVec.ofNat 64 (v / 2 ^ 64)) s)
  | 0x4400, _ => s.after (execWbSuppressWrite (sub - 1) bytes s)
  | 0x4402, _ => s.after (execWbLogClear (sub - 1) b8 s)
  | 0x5100, 2 => s.after (execLeaseForceRelease b16 s)
  | 0x5100, 3 => s.after (execSyncReset b32 s)
  | 0x5200, 3 => s.after (execGroupEnable b8 s)
  | 0x5200, 4 => s.after (execGroupReform s)
  | 0x5202, _ => s.writeGroupLease (sub - 1) bytes
  | 0x7000, _ => s.after (execLinkEnableWrite (sub - 1) b8 s)
  | 0x8001, _ => s.after (execNumericClear b32 s)
  | 0x8100, 4 => s.after (execGooseSeedWrite b32 s)
  | 0x9001, 1 =>
    if resetScope b16 = 0 then s.after (execFieldReset b16 s)
    else if resetScope b16 = 1 then s.after (execTowerReset b16 s)
    else s.after (execComputeSideReset b16 s)
  | 0x9001, 2 =>
    match serviceAction b16 with
    | 1 => s.after (execDrain b16 s)
    | 2 => s.after (execTestQuick b16 s)
    | 3 => s.after (execTestFull b16 s)
    | _ => s.after (execReturnService b16 s)
  | 0x9003, 1 => s.after (execCoreBypass b32 s)
  | 0x9003, 2 => s.after (execCoreRestore b32 s)
  | 0x9005, 1 => s.after (execDramRowRepair bytes s)
  | 0x9005, 2 => s.after (execLaneRepair b32 s)
  | 0x9020, 2 => s.acceptFlashData bytes
  | 0x9020, 3 => s.acceptFlashErase
  | 0xA001, 1 => s.after (execFreeze b8 s)
  | 0xA001, 2 => s.after (execThaw b8 s)
  | 0xA111, 2 => s.after (execContextRelease b32 s)
  | 0xA111, 3 => s.after (execContextKill b32 s)
  | 0xA200, 3 => s.clearPending 3 v
  | 0xA200, 6 => s.clearPending 6 v
  | _, _ =>
    match findEntry idx sub with
    | some e =>
      let t := s.writeRegister idx sub bytes
      if e.access = .rws then t.save idx sub (t.entryBytes idx sub e) else t
    | none => s

/-- The entry has no row of its own in the opcode table: REGISTER_WRITE writes it. -/
def plainEntry (idx sub : Nat) : Bool :=
  match idx with
  | 0x1030 => sub == 2
  | 0x2000 | 0x2001 | 0x2002 | 0x2006 | 0x2200 | 0x4100 | 0x4300 | 0x4400 | 0x4402 | 0x5202 | 0x7000 | 0x8001 | 0x9003 | 0x9005 => false
  | 0x3000 => sub != 5 && sub != 6 && sub != 8
  | 0x3010 => false
  | 0x4200 => sub != 6
  | 0x5100 => sub == 1
  | 0x5200 => sub != 3 && sub != 4
  | 0x8100 => sub != 4
  | 0x9001 => sub == 3
  | 0x9020 => sub == 1
  | 0xA001 => false
  | 0xA111 => sub != 2 && sub != 3
  | 0xA200 => sub != 3 && sub != 6
  | _ => true

end Sys2Proof.Machine
end

