-- ==== Sys2Proof/Machine/Jop.lean ====
section
/-! DEFINITION. Requests to the object dictionary: messages, sessions, privilege, the replay table, snapshots, class B writes, events and
the sideband port (spec file 17_object_dictionary.md). -/
namespace Sys2Proof.Machine

/-! ### Messages (R636) -/

def resultOk : Nat := 0x00
def resultNoEntry : Nat := 0x01
def resultPrivilege : Nat := 0x02
def resultReadOnly : Nat := 0x03
def resultWriteOnly : Nat := 0x04
def resultBadType : Nat := 0x05
def resultPending : Nat := 0x10
def resultBusy : Nat := 0x11
def resultNotReady : Nat := 0x12
def resultNoDevice : Nat := 0x13
def resultBadMessage : Nat := 0x14

/-- A message: its header as a little-endian number of 192 bits, and its data. -/
structure Message where
  header : Nat
  data : List Byte
  deriving DecidableEq, Repr

def messageOf (bytes : List Byte) : Message := ⟨bytesToNat (bytes.take 24), bytes.drop 24⟩

def Message.magic (m : Message) : Nat := bitsOf m.header 191 176
def Message.version (m : Message) : Nat := bitsOf m.header 175 172
def Message.mtype (m : Message) : Nat := bitsOf m.header 171 168
def Message.dev (m : Message) : Nat := bitsOf m.header 167 162
def Message.seq (m : Message) : Nat := bitsOf m.header 159 144
def Message.result (m : Message) : Nat := bitsOf m.header 143 136
def Message.sub (m : Message) : Nat := bitsOf m.header 135 128
def Message.index (m : Message) : Nat := bitsOf m.header 127 112
def Message.length (m : Message) : Nat := bitsOf m.header 111 100
def Message.snap (m : Message) : Bool := m.header.testBit 96
def Message.offset (m : Message) : Nat := bitsOf m.header 95 64
def Message.snapId (m : Message) : Nat := bitsOf m.header 63 48
def Message.type (m : Message) : Nat := bitsOf m.header 47 40
def Message.crc (m : Message) : Nat := bitsOf m.header 31 0
/-- MAGIC, VERSION, MTYPE and the reserved fields of a request. -/
def Message.wellFormed (m : Message) : Bool :=
  m.magic == 0x4A50 && m.version == 1 && (m.mtype == 1 || m.mtype == 2) &&
  bitsOf m.header 161 160 == 0 && bitsOf m.header 99 97 == 0 && bitsOf m.header 39 32 == 0
/-- The bytes of the message: a READ carries no data (R637). -/
def Message.bytes (m : Message) : Nat := if m.mtype = 1 then 24 else 24 + m.length

/-- A message sent by the device, with its CRC32 (R636, R704). -/
def sealed (header : Nat) (data : List Byte) : List Byte :=
  let h := natToBytes 24 (header - header % 2 ^ 32)
  natToBytes 4 (crc32 (h.drop 4 ++ data)).toNat ++ h.drop 4 ++ data

/-- The answer to a request: its result, SNAP_ID and data, the class B write it waits for, and the session's new level. -/
structure Answer where
  result : Nat
  snap : Nat := 0
  bytes : List Byte := []
  job : Option Nat := none
  level : Option Nat := none
  deriving DecidableEq, Repr

/-- The RESPONSE to a request, which echoes INDEX, SUBINDEX, DEV, SEQ, OFFSET and TYPE (R637). -/
def Message.response (m : Message) (a : Answer) : List Byte :=
  sealed (0x4A50 * 2 ^ 176 + 1 * 2 ^ 172 + 3 * 2 ^ 168 + m.dev * 2 ^ 162 + m.seq * 2 ^ 144 + a.result * 2 ^ 136 +
    m.sub * 2 ^ 128 + m.index * 2 ^ 112 + a.bytes.length * 2 ^ 100 + m.offset * 2 ^ 64 + a.snap * 2 ^ 48 + m.type * 2 ^ 40) a.bytes

/-! ### Sessions (R635) -/

def State.session (s : State) : Requester → Session
  | .mailbox => s.dict.mailbox
  | .head _ => s.dict.member
  | .jop a p => ((s.dict.jop.find? fun j => j.address == a && j.port == p).map (·.session)).getD {}

/-- The session that has gone longest without a request. -/
def oldestSession (js : List JopSession) : Option JopSession :=
  js.foldl (fun (o : Option JopSession) j => match o with
    | some k => if j.session.last < k.session.last then some j else o
    | none => some j) none

/-- A session stored; a new JOP source takes the place of the oldest one when 64 are kept. -/
def State.setSession (s : State) (who : Requester) (v : Session) : State :=
  match who with
  | .mailbox => { s with dict := { s.dict with mailbox := v } }
  | .head _ => { s with dict := { s.dict with member := v } }
  | .jop a p =>
    let others := s.dict.jop.filter fun j => !(j.address == a && j.port == p)
    let known := s.dict.jop.any fun j => j.address == a && j.port == p
    let others := if known || others.length < 64 then others
      else match oldestSession others with
        | some o => others.filter fun j => !(j.address == o.address && j.port == o.port)
        | none => others
    { s with dict := { s.dict with jop := others ++ [⟨a, p, v⟩] } }

/-- The level of a session: host from 60 s after its last request; the mailbox holds steward level at BOOT_FAILED (R659); a forwarded
request has the level of the head's mailbox. -/
def State.level (s : State) (who : Requester) : Nat :=
  let v := s.session who
  let l := if v.last + secCycles 60 ≤ s.now then 0 else v.level
  match who with
  | .mailbox => if s.reg 0x9000 1 = 0x80 then max 1 l else l
  | .head level => level
  | .jop _ _ => l

/-- A session's level changed by its own request. -/
def State.setLevel (s : State) (who : Requester) (level : Nat) : State :=
  s.setSession who { s.session who with level := level, last := s.now }

/-- STEWARD_CODE in force. -/
def State.stewardCode (s : State) : Nat := s.entryNat 0x1030 2

/-- A write to PRIV_UNLOCK (R635): whether the code is right and no lockout is on; failures are counted, and 8 within 1 s lock for 10 s. -/
def State.unlock (s : State) (v : Nat) : Bool × State :=
  let locked := match s.dict.lockUntil with
    | some t => decide (s.now < t)
    | none => false
  if v = s.stewardCode then (!locked, s)
  else
    let s := s.sat32 0xB001 8 1
    if locked then (false, s)
    else
      let fails := s.now :: s.dict.fails.filter fun t => decide (s.now < t + secCycles 1)
      if 8 ≤ fails.length then
        (false, { s with dict := { s.dict with fails := [], lockUntil := some (s.now + secCycles 10) } })
      else (false, { s with dict := { s.dict with fails := fails } })

/-! ### Reading and writing entries (R634, R637 to R641) -/

/-- The entry is served at the present boot step (R604, R659, R703). -/
def State.served (s : State) (idx sub : Nat) : Bool :=
  s.steward.running || idx == 0x1000 || idx == 0x9020 || (idx == 0x9000 && sub == 1) || (idx == 0x2020 && 2 ≤ sub && sub ≤ 4)

/-- Entries whose reading needs their own level (R634). -/
def Entry.guarded (e : Entry) : Bool := e.level == 2 || e.index == 0x1030 || e.index == 0x9020

/-- The logs whose rules promise a snapshot (R641). -/
def snapshotEntry (idx sub : Nat) : Bool :=
  match idx with
  | 0x4401 => true
  | 0x4301 | 0x4404 | 0x8101 | 0x9008 | 0xA110 | 0xA200 => sub == 1
  | _ => false

/-- Steps 3 to 5 of R639, with R659. -/
def State.accessCheck (s : State) (idx sub level : Nat) (write : Bool) : Nat × Option Entry :=
  match findEntry idx sub with
  | none => (resultNoEntry, none)
  | some e =>
    if !s.served idx sub then (resultNotReady, none)
    else if level < e.level && (write || e.guarded) then (resultPrivilege, none)
    else if write && e.access = .ro then (resultReadOnly, none)
    else if !write && e.access = .wo then (resultWriteOnly, none)
    else (resultOk, some e)

/-- The snapshots that are not 10 ms old (R641). -/
def State.liveSnaps (s : State) : List Snapshot := s.dict.snaps.filter fun p => decide (s.now < p.last + msCycles 10)

/-- The next SNAP_ID, from 1 to 0xFFFF, that no snapshot has. -/
def State.newSnapId (s : State) : Nat :=
  ((List.range 17).map fun i => (s.dict.lastSnap + i) % 0xFFFF + 1).find? (fun i => !s.liveSnaps.any (·.id == i)) |>.getD 1

/-- A snapshot taken, with its first segment. -/
def State.takeSnapshot (s : State) (idx sub size n : Nat) : Answer × State :=
  let live := s.liveSnaps
  if 16 ≤ live.length then ({ result := resultBusy }, s)
  else
    let id := s.newSnapId
    let bytes := s.blobBytes idx sub 0 size
    let p : Snapshot := ⟨id, idx, sub, bytes, s.now⟩
    ({ result := resultOk, snap := id, bytes := bytes.take n }, { s with dict := { s.dict with snaps := live ++ [p], lastSnap := id } })

/-- A segment of a snapshot. -/
def State.readSnapshot (s : State) (idx sub id off n : Nat) : Answer × State :=
  match s.liveSnaps.find? fun p => p.id == id && p.index == idx && p.sub == sub with
  | none => ({ result := badState }, s)
  | some p =>
    let snaps := s.liveSnaps.map fun q => if q.id == id then { q with last := s.now } else q
    ({ result := resultOk, snap := id, bytes := (p.bytes.drop off).take n }, { s with dict := { s.dict with snaps := snaps } })

/-- Step 7 of R639 for a READ (R637, R640, R641). -/
def readLengthOk (e : Entry) (sub off n : Nat) (snap : Bool) : Bool :=
  (!snap || (snapshotEntry e.index sub && off == 0)) &&
  if e.variable then 1 ≤ n && n ≤ 1024 && off < entrySize e sub else off == 0 && n == e.size

/-- A READ of an entry from step 7 on. -/
def State.readRequest (s : State) (e : Entry) (sub off n level : Nat) (snap : Bool) (snapId : Nat) : Answer × State :=
  if !readLengthOk e sub off n snap then ({ result := badLength }, s)
  else if snap then s.takeSnapshot e.index sub e.size n
  else if snapId ≠ 0 then s.readSnapshot e.index sub snapId off n
  else
    let (code, bytes, s) := s.readEntry e sub off n level
    ({ result := code, bytes := if code = 0 then bytes else [] }, s)

/-- Step 7 for a WRITE (R637). -/
def writeLengthOk (e : Entry) (off n : Nat) : Bool :=
  if e.index = 0x9020 && e.first = 2 then 1 ≤ n && n ≤ 1024 else off == 0 && n == e.size

/-- A WRITE of an entry from step 7 on. -/
def State.writeRequest (s : State) (e : Entry) (sub off : Nat) (bytes : List Byte) : Answer × State :=
  if !writeLengthOk e off bytes.length then ({ result := badLength }, s)
  else if e.index = 0x1030 && sub = 1 then
    let (ok, s) := s.unlock (bytesToNat bytes)
    (if ok then { result := resultOk, level := some 1 } else { result := resultPrivilege }, s)
  else if e.index = 0x1030 && sub = 4 then ({ result := resultOk, level := some 0 }, s)
  else
    let code := s.writeCheck e.index sub bytes
    if code ≠ 0 then ({ result := code }, s)
    else
      let s := s.applyWrite e.index sub bytes
      if e.classB then ({ result := resultPending, job := (s.dict.jobs.getLast?).map (·.id) }, s) else ({ result := resultOk }, s)

/-- A whole request at a level: the checks of R639 in order, and the read or write. With no steward only BOOT_STATE is read (R39). -/
def State.perform17 (s : State) (m : Message) (level : Nat) : Answer × State :=
  if s.steward.lost && !(m.mtype = 1 && m.index = 0x9000 && m.sub = 1) then ({ result := resultNotReady }, s)
  else if !m.wellFormed then ({ result := resultBadMessage }, s)
  else if m.dev ≠ 0x3F && m.dev ≠ s.group.member then ({ result := resultNoDevice }, s)
  else
    match s.accessCheck m.index m.sub level (m.mtype = 2) with
    | (code, none) => ({ result := code }, s)
    | (_, some e) =>
      if m.type ≠ e.type then ({ result := resultBadType }, s)
      else if m.mtype = 1 then s.readRequest e m.sub m.offset m.length level m.snap m.snapId
      else if m.data.length < m.length then ({ result := badLength }, s)
      else s.writeRequest e m.sub m.offset (m.data.take m.length)

/-! ### Resends and the rate (R651, R653) -/

/-- A kept response belongs to a request. -/
def Kept.matches (k : Kept) (m : Message) : Bool :=
  k.seq == m.seq && k.mtype == m.mtype && k.index == m.index && k.sub == m.sub && k.offset == m.offset && k.crc == m.crc

/-- The response kept for a request, not older than 1 s. -/
def State.keptFor (s : State) (who : Requester) (m : Message) : Option Kept :=
  (s.session who).kept.find? fun k => k.matches m && decide (s.now < k.at_ + secCycles 1)

/-- A response kept: of the 16 most recent SEQ values. -/
def State.keep (s : State) (who : Requester) (m : Message) (a : Answer) : State :=
  let v := s.session who
  let k : Kept := ⟨m.seq, m.mtype, m.index, m.sub, m.offset, m.crc, s.now, a.result, a.snap, a.bytes, a.job⟩
  s.setSession who { v with kept := (k :: v.kept.filter (·.seq != m.seq)).take 16 }

/-- A request counted against 10,000 in a second: whether it is within the rate. -/
def State.countRequest (s : State) : Bool × State :=
  let d := s.dict
  let d := if d.rateAt + secCycles 1 ≤ s.now then { d with rateAt := s.now, rateCount := 0 } else d
  if 10000 ≤ d.rateCount then (false, { s with dict := d })
  else (true, { s with dict := { d with rateCount := d.rateCount + 1 } })

/-- The session's last request is now. -/
def State.touch (s : State) (who : Requester) : State :=
  s.setSession who { s.session who with level := if (s.session who).last + secCycles 60 ≤ s.now then 0 else (s.session who).level, last := s.now }

/-- A request of a session answered: from the replay table, with BUSY, or performed and kept. -/
def State.answerRequest (s : State) (who : Requester) (m : Message) : Answer × State :=
  if s.steward.lost then s.perform17 m 0
  else
    let s := s.touch who
    match s.keptFor who m with
    | some k => ({ result := k.result, snap := k.snap, bytes := k.bytes, job := k.job }, s.sat32 0xB001 3 1)
    | none =>
      let (ok, s) := s.countRequest
      if !ok then ({ result := resultBusy }, s.sat32 0xB001 6 1)
      else
        let (a, s) := s.perform17 m (s.level who)
        let s := match a.level with
          | some l => s.setLevel who l
          | none => s
        (a, if a.result = resultBusy then s else s.keep who m a)

/-! ### The mailbox (R642 to R645) -/

/-- MB_REQUEST as the host has written it. -/
def State.mailboxRequest (s : State) : List Byte := (List.range 1048).map fun i => Map.get 0 s.host.mbRequest i

/-- The end of a mailbox request: the response, the write to host memory, MB_STATUS and the message, in this order (R644). -/
def State.finishMailbox (s : State) (seq : Nat) (response : List Byte) : State :=
  let s := { s with host := { s.host with mbResponse := response ++ s.host.mbResponse.drop response.length } }
  let s := if s.host.mbRespAddr.getLsbD 0 then s.send (.hostWrite (s.host.mbRespAddr.toNat / 64 * 64) response) else s
  let s := { s with host := { s.host with mbDone := true, mbSeq := seq, mbBusy := false, mbSent := [] } }
  if s.host.mbMsix.getLsbD 31 then s.sendMsix (s.host.mbMsix.toNat % 2 ^ 11) else s

/-- The head forwards the request to another member: well formed, to an entry that exists and whose level the mailbox has (R645). -/
def State.forwards (s : State) (m : Message) : Bool :=
  !s.steward.lost && m.wellFormed && s.group.member == 0 && m.dev != 0x3F && m.dev != 0 && (s.reg 0x5200 6).testBit m.dev &&
  (s.accessCheck m.index m.sub (s.level .mailbox) (m.mtype = 2)).2.isSome

/-- A doorbell of the mailbox: ignored while BUSY; otherwise the request is taken and answered, or sent on to a member. -/
def State.mailboxDoorbell (s : State) : State :=
  if s.host.mbBusy then { s with host := { s.host with mbOverrun := true } }
  else
    let s := { s with host := { s.host with mbBusy := true, mbDone := false } }
    let bytes := s.mailboxRequest
    let m := messageOf bytes
    let s := if s.steward.lost then s else s.wrap64 0xB001 1 1
    let fresh := match s.keptFor .mailbox m with
      | some k => k.result == resultPending && k.job.isNone
      | none => true
    if s.forwards m && fresh then
      let (ok, s) := (s.touch .mailbox).countRequest
      if !ok then (s.sat32 0xB001 6 1).finishMailbox m.seq (m.response { result := resultBusy })
      else
        let sent := bytes.take m.bytes
        let s := { s with host := { s.host with mbSent := sent } }
        s.send (.groupMessage m.dev 18 [s.level .mailbox, bytesToNat sent, sent.length])
    else
      let (a, s) := s.answerRequest .mailbox m
      s.finishMailbox m.seq (m.response a)

/-- MB_DOORBELL. -/
def execMbDoorbell (s : State) : Host.Outcome State Fault Refusal := .next s.mailboxDoorbell

/-- MB_STATUS_WRITE: writing 1 clears OVERRUN; the other bits are read only. -/
def execMbStatusWrite (v : BitVec 32) (s : State) : Host.Outcome State Fault Refusal :=
  .next (if v.getLsbD 18 then { s with host := { s.host with mbOverrun := false } } else s)

/-- FORWARDED_REQUEST: a member performs a request of the head's mailbox session and answers it; on the head the answer ends the mailbox
request. No bytes: the member has left the group before it answered. -/
def execForwardedRequest (level : Nat) (bytes : List Byte) (s : State) : Host.Outcome State Fault Refusal :=
  .next (
    if s.group.member ≠ 0 then
      let m := messageOf bytes
      let (a, s) := s.answerRequest (.head level) m
      let r := m.response a
      s.send (.groupMessage 0 18 [bytesToNat r, r.length])
    else if s.host.mbSent.isEmpty then s
    else
      let m := messageOf s.host.mbSent
      if bytes.isEmpty then
        if (s.reg 0x5200 6).testBit m.dev then s else s.finishMailbox m.seq (m.response { result := resultNoDevice })
      else
        let r := messageOf bytes
        let a : Answer := { result := r.result, snap := r.snapId, bytes := r.data }
        let s := if m.mtype = 2 && m.index = 0x1030 && r.result = 0 then
            if m.sub = 1 then s.setLevel .mailbox 1 else if m.sub = 4 then s.setLevel .mailbox 0 else s
          else s
        (if a.result = resultBusy then s else s.keep .mailbox m a).finishMailbox m.seq bytes)

/-- STEWARD_LOST: 6.0 ms after the last heartbeat received, with no standby to take over (R39). A mailbox request that a member was
performing is answered with NOT_READY. -/
def execStewardLost (s : State) : Host.Outcome State Fault Refusal :=
  .next (
    if s.steward.running && s.reg 0x9010 3 == 0 && s.steward.lastHeartbeat + msCycles 6 ≤ s.now then
      let t := { s with steward := { s.steward with lost := true } }
      if s.host.mbSent.isEmpty then t
      else
        let m := messageOf s.host.mbSent
        t.finishMailbox m.seq (m.response { result := resultNotReady })
    else s)

/-! ### JOP (R646, R647) -/

/-- An IPv4-mapped address. -/
def isMapped (address : Nat) : Bool := address / 2 ^ 32 == 0xFFFF

/-- The port receives: the device runs, the link is up, and for IPv4 an address is in use. -/
def State.receives (s : State) (v4 : Bool) : Bool :=
  s.boot.started && s.reg 0x5300 9 != 0 && (!v4 || s.reg 0x5300 6 != 0)

/-- JOP_DATAGRAM: a UDP datagram to the device. -/
def execJopDatagram (address port dst : Nat) (bytes : List Byte) (s : State) : Host.Outcome State Fault Refusal :=
  .next (
    let m := messageOf bytes
    if !s.receives (isMapped address) then s
    else if dst ≠ 4810 then s.sat32 0xB001 5 1
    else if bytes.length < 24 || bytes.length ≠ m.bytes || (crc32 (bytes.drop 4)).toNat ≠ m.crc then s.sat32 0xB001 4 1
    else
      let s := if s.steward.lost then s else s.wrap64 0xB001 2 1
      let (a, s) := s.answerRequest (.jop address port) m
      s.send (.datagram address port (m.response a)))

/-! ### Requests to single entries -/

/-- A write to one entry from step 3 of R639 on, by a session; its result is put out. -/
def State.entryWrite (s : State) (who : Requester) (idx sub : Nat) (bytes : List Byte) : State :=
  if s.steward.lost then s.send (.answered resultNotReady 0 [])
  else
    let (a, s) : Answer × State := match s.accessCheck idx sub (s.level who) true with
      | (code, none) => ({ result := code }, s)
      | (_, some e) => s.writeRequest e sub 0 bytes
    let s := match a.level with
      | some l => s.setLevel who l
      | none => s.touch who
    s.send (.answered a.result 0 [])

/-- REGISTER_WRITE: an entry without a row of its own. -/
def execRegisterWrite (who : Requester) (idx sub : Nat) (bytes : List Byte) (s : State) : Host.Outcome State Fault Refusal :=
  .next (if plainEntry idx sub then s.entryWrite who idx sub bytes else s)

/-- FLASH_DATA, FLASH_ERASE (R660). -/
def execFlashData (who : Requester) (bytes : List Byte) (s : State) : Host.Outcome State Fault Refusal :=
  .next (s.entryWrite who 0x9020 2 bytes)

def execFlashErase (who : Requester) (v : Byte) (s : State) : Host.Outcome State Fault Refusal :=
  .next (s.entryWrite who 0x9020 3 [v])

/-- FLASH_CONTENT. -/
def execFlashContent (who : Requester) (offset n : Nat) (s : State) : Host.Outcome State Fault Refusal :=
  .next (
    if s.steward.lost then s.send (.answered resultNotReady 0 [])
    else
      let (a, s) : Answer × State := match s.accessCheck 0x9020 4 (s.level who) false with
        | (code, none) => ({ result := code }, s)
        | (_, some e) => s.readRequest e 4 offset n (s.level who) false 0
      (s.touch who).send (.answered a.result 0 a.bytes))

/-- PRIV_UNLOCK, PRIV_LOCK. -/
def execPrivUnlock (who : Requester) (v : BitVec 32) (s : State) : Host.Outcome State Fault Refusal :=
  .next (s.entryWrite who 0x1030 1 (natToBytes 4 v.toNat))

def execPrivLock (who : Requester) (v : Byte) (s : State) : Host.Outcome State Fault Refusal :=
  .next (s.entryWrite who 0x1030 4 [v])

/-- SNAPSHOT_READ: with SNAP_ID 0 a READ with SNAP = 1, which takes a snapshot. -/
def execSnapshotRead (who : Requester) (idx sub snapId offset n : Nat) (s : State) : Host.Outcome State Fault Refusal :=
  .next (
    if s.steward.lost then s.send (.answered resultNotReady 0 [])
    else
      let (a, s) : Answer × State := match s.accessCheck idx sub (s.level who) false with
        | (code, none) => ({ result := code }, s)
        | (_, some e) => s.readRequest e sub offset n (s.level who) (snapId = 0) snapId
      (s.touch who).send (.answered a.result a.snap a.bytes))

/-! ### What passes with time -/

/-- SNAPSHOT_DISCARD. -/
def execSnapshotDiscard (s : State) : Host.Outcome State Fault Refusal :=
  .next { s with dict := { s.dict with snaps := s.liveSnaps } }

/-- Every session changed. -/
def State.mapSessions (s : State) (g : Session → Session) : State :=
  { s with dict := { s.dict with
      mailbox := g s.dict.mailbox
      member := g s.dict.member
      jop := s.dict.jop.map fun j => { j with session := g j.session } } }

/-- PRIV_TIMEOUT. -/
def execPrivTimeout (s : State) : Host.Outcome State Fault Refusal :=
  .next (s.mapSessions fun v => if v.last + secCycles 60 ≤ s.now then { v with level := 0 } else v)

/-- UNLOCK_LOCKOUT_END. -/
def execUnlockLockoutEnd (s : State) : Host.Outcome State Fault Refusal :=
  .next (
    match s.dict.lockUntil with
    | some t => if t ≤ s.now then { s with dict := { s.dict with lockUntil := none } } else s
    | none => s)

/-- REPLAY_EXPIRY. -/
def execReplayExpiry (s : State) : Host.Outcome State Fault Refusal :=
  .next (s.mapSessions fun v => { v with kept := v.kept.filter fun k => decide (s.now < k.at_ + secCycles 1) })

/-! ### The ends of class B writes (R649, R650) -/

/-- A class B write has ended: later resends have its result. -/
def State.endJob (s : State) (id result : Nat) : State :=
  let s := { s with dict := { s.dict with jobs := s.dict.jobs.filter (·.id != id) } }
  s.mapSessions fun v => { v with kept := v.kept.map fun k => if k.job = some id then { k with result := result, job := none } else k }

/-- A saved value in the NOR device (R605). -/
def State.storeSaved (s : State) (idx sub : Nat) (bytes : List Byte) : State :=
  let p := s.saved
  let p : Saved := match idx with
    | 0x6000 => if sub = 2 then { p with eclassPowers := eclassesOf bytes }
      else { p with regs := Map.set (regDefault idx sub) p.regs (idx * 256 + sub) (bytesToNat bytes) }
    | 0x7009 => if sub = 1 then { p with deadlines := deadlinesOf bytes } else { p with fallbacks := fallbacksOf bytes }
    | _ => { p with regs := Map.set (regDefault idx sub) p.regs (idx * 256 + sub) (heldAs idx (bytesToNat bytes)) }
  { s with saved := p }

/-- A sideband entry takes effect (R663): the IPv4 address in use follows the mode; sessions on an old address are abandoned. -/
def State.applySideband (s : State) (sub : Nat) : State :=
  let old := s.reg 0x5300 6
  let s := s.setStaticAddress
  let s := if sub = 2 && s.reg 0x5300 2 = 1 then s.setReg 0x5300 6 0 else s
  if sub = 7 || s.reg 0x5300 6 ≠ old then { s with dict := { s.dict with jop := [] } } else s

/-- RWS_SAVE_DONE: the oldest save ends; without a steward none does (R39). -/
def execRwsSaveDone (s : State) : Host.Outcome State Fault Refusal :=
  .next (
    if s.steward.lost then s
    else
      match s.dict.jobs.findSome? fun j => match j.kind with
        | .save idx sub bytes => some (j.id, idx, sub, bytes)
        | _ => none with
      | none => s
      | some (id, idx, sub, bytes) =>
        let s := (s.endJob id resultOk).storeSaved idx sub bytes
        if idx = 0x5300 && sub ≤ 8 then s.applySideband sub else s)

/-- FLASH_DONE: the oldest program or erase ends. An erased byte reads 0xFF (assumption 61); where the device reports a failure each byte
touched holds a free value. -/
def execFlashDone (ok : Bool) (s : State) : Host.Outcome State Fault Refusal :=
  .next (
    match s.dict.jobs.findSome? fun j => match j.kind with
      | .program off bytes => some (j.id, off, bytes)
      | .erase block => some (j.id, block * 65536, List.replicate 65536 0xFF)
      | .save _ _ _ => none with
    | none => s
    | some (id, off, bytes) =>
      let time := s.fresh
      let s := (bytes.zipIdx.foldl (fun (s : State) (e : Byte × Nat) =>
        s.setNor (off + e.2) (if ok then e.1 else Config.freeByte time (off + e.2))) { s with fresh := s.fresh + 1 })
      s.endJob id (if ok then resultOk else badState))

/-! ### Events (R655 to R658) -/

/-- EVENT_MSIX_SEND: the head sends the vector of EVENT_MSIX, at most once in 100 µs; a member tells the head. -/
def execEventMsixSend (s : State) : Host.Outcome State Fault Refusal :=
  .next (
    if s.steward.lost then s
    else if s.group.member ≠ 0 then
      if s.events.notifyDue then
        { s with events := { s.events with notifyDue := false, msixDue := false } }.send (.groupMessage 0 2 [s.group.member])
      else s
    else
      let waits := match s.events.lastMsix with
        | some t => decide (s.now < t + usCycles 100)
        | none => false
      if !s.events.msixDue || waits then s
      else
        let s := { s with events := { s.events with msixDue := false, notifyDue := false } }
        if (s.reg 0xA200 5).testBit 31 then
          { s with events := { s.events with lastMsix := some s.now } }.sendMsix (s.reg 0xA200 5 % 2 ^ 11)
        else s)

/-- An event target (R663): its address in network order and its port. -/
def State.eventTarget (s : State) (t : Nat) : Nat × Nat :=
  let r := (natToBytes 80 (s.reg 0x5300 10)).drop (20 * t)
  (bytesToNat (r.take 16).reverse, fieldAt r 16 2)

/-- EVENT_NOTICE_SEND: the records not yet sent to a target, at most 32 in a message and one message in 1 ms; the rest are not sent. -/
def execEventNoticeSend (t : Nat) (s : State) : Host.Outcome State Fault Refusal :=
  .next (
    let unsent := Map.get [] s.events.unsent t
    let (address, port) := s.eventTarget t
    let last := Map.get 0 s.events.lastNotice t
    if 4 ≤ t || unsent.isEmpty || s.steward.lost then s
    else if port = 0 then { s with events := { s.events with unsent := Map.set [] s.events.unsent t [] } }
    else if last ≠ 0 && s.now + 1 < last + msCycles 1 then s
    else
      let data := (unsent.take 32).flatMap fun r => natToBytes 16 r.toNat
      let seq := Map.get 0 s.events.noticeSeq t
      let header := 0x4A50 * 2 ^ 176 + 1 * 2 ^ 172 + 4 * 2 ^ 168 + s.group.member * 2 ^ 162 + seq * 2 ^ 144 + 1 * 2 ^ 128 +
        0xA200 * 2 ^ 112 + data.length * 2 ^ 100 + typeBlob * 2 ^ 40
      let s := { s with events := { s.events with
          unsent := Map.set [] s.events.unsent t []
          lastNotice := Map.set 0 s.events.lastNotice t (s.now + 1)
          noticeSeq := Map.set 0 s.events.noticeSeq t ((seq + 1) % 2 ^ 16) } }
      (s.sat32 0xB001 7 (unsent.length - 32)).send (.datagram address port (sealed header data)))

/-- EVENT_PENDING_WRITE, GROUP_EVENT_PENDING_WRITE: write 1 to clear; a reserved bit refuses the write. -/
def execEventPendingWrite (v : BitVec 64) (s : State) : Host.Outcome State Fault Refusal :=
  .next (s.written (if v &&& 0x7FFFFFFE = v then s.clearPending 3 v.toNat else s))

def execGroupEventPendingWrite (v : BitVec 64) (s : State) : Host.Outcome State Fault Refusal := .next (s.written (s.clearPending 6 v.toNat))

/-! ### The sideband port's own protocols (R646). Frames carry only what the spec and the protocol's message give (assumption 60). -/

def etherArp : Nat := 0x0806
def etherEcho : Nat := 1
def etherNeighbour : Nat := 135
def etherDhcp : Nat := 67

/-- Bytes of a number, most significant first. -/
def bigEndian (n v : Nat) : List Byte := (natToBytes n v).reverse

/-- ARP_REQUEST: the reply names the device's MAC address for the IPv4 address in use. -/
def execArpRequest (senderMac : BitVec 48) (senderIp targetIp : BitVec 32) (s : State) : Host.Outcome State Fault Refusal :=
  .next (
    if !s.receives true || targetIp.toNat ≠ s.reg 0x5300 6 then s
    else s.send (.ethernet etherArp (bigEndian 6 Config.sidebandMac.toNat ++ bigEndian 4 targetIp.toNat ++
      bigEndian 6 senderMac.toNat ++ bigEndian 4 senderIp.toNat)))

/-- ICMP_ECHO: the reply carries the request's identifier, sequence number and data. -/
def execIcmpEcho (address : Nat) (bytes : List Byte) (s : State) : Host.Outcome State Fault Refusal :=
  .next (if s.receives (isMapped address) then s.send (.ethernet etherEcho (bigEndian 16 address ++ bytes)) else s)

/-- The link-local address: fe80::/64 with the interface identifier of the MAC address (PRESUMED from IPv6, assumption 60). -/
def linkLocal : Nat :=
  let m := Config.sidebandMac.toNat
  0xFE80 * 2 ^ 112 + (m / 2 ^ 24 ^^^ 0x20000) * 2 ^ 40 + 0xFFFE * 2 ^ 24 + m % 2 ^ 24

/-- SB_IPV6_ADDR in network order; 0 for none. -/
def State.staticV6 (s : State) : Nat := bytesToNat (natToBytes 16 (s.reg 0x5300 7)).reverse

/-- NDP_SOLICITATION: the advertisement names the device's MAC address for its IPv6 address. -/
def execNdpSolicitation (source target : BitVec 128) (s : State) : Host.Outcome State Fault Refusal :=
  .next (
    if !s.receives false || (target.toNat ≠ linkLocal && (s.staticV6 = 0 || target.toNat ≠ s.staticV6)) then s
    else s.send (.ethernet etherNeighbour (bigEndian 16 source.toNat ++ bigEndian 16 target.toNat ++ bigEndian 6 Config.sidebandMac.toNat)))

/-- DHCPV4_MESSAGE: with SB_IPV4_MODE 1 an offer (type 2) is requested, an acknowledgement (5) sets the address in use, and a refusal (6)
ends it. -/
def execDhcpv4Message (type : Byte) (address : BitVec 32) (s : State) : Host.Outcome State Fault Refusal :=
  .next (
    let use (v : Nat) : State :=
      if s.reg 0x5300 6 = v then s else { s with dict := { s.dict with jop := [] } }.setReg 0x5300 6 v
    if !s.receives false || s.reg 0x5300 2 ≠ 1 then s
    else if type = 2 then s.send (.ethernet etherDhcp (bigEndian 4 address.toNat))
    else if type = 5 then use address.toNat
    else if type = 6 then use 0
    else s)

/-- SB_LINK_CHANGE: SB_LINK_STATE follows the PHY: 0 down, 1 100 Mb/s, 2 1,000 Mb/s. -/
def execSbLinkChange (v : Nat) (s : State) : Host.Outcome State Fault Refusal :=
  .next (if 2 < v || !s.pins.vaux then s else s.setReg 0x5300 9 v)

end Sys2Proof.Machine
end

