-- ==== Sys2Proof/Machine/Host.lean ====
section
/-! DEFINITION. The PCIe function's commands: host reads, writes and AtomicOps, their completions, configuration, windows, group
doorbells and members' notices (R410, R466 to R474, R598, R599, R706). -/
namespace Sys2Proof.Machine

/-! ### Outcomes of host requests (R472, R599) -/

def outcomeSuccess : Nat := 0
def outcomePoisoned : Nat := 1
def outcomeUnsupported : Nat := 2
def outcomeAbort : Nat := 3
def outcomeRetry : Nat := 4

/-- The outcome of a status; none for one that R472 does not list. -/
def statusOutcome (st : Status) : Option Nat :=
  if st = 0x00 then some outcomeSuccess
  else if st = 0x01 then some outcomePoisoned
  else if st = 0x02 || st = 0x07 then some outcomeUnsupported
  else if st = 0x03 || st = 0x0B then some outcomeAbort
  else none

/-- How an access to a BAR is answered before its target is looked at: success goes on (R589, R599, R659). -/
def State.barGate (s : State) (mailbox : Bool) : Nat :=
  if !s.host.function.decodes then outcomeUnsupported
  else if mailbox && (s.steward.running || s.reg 0x9000 1 = 0x80) then outcomeSuccess
  else if !s.steward.running then outcomeUnsupported
  else if !s.dm.published || s.reg 0x3000 7 = 4 then outcomeAbort
  else outcomeSuccess

/-- A host request lies in one 4 KiB page, as PCIe has it (PRESUMED, assumption 62). -/
def inPage (off n : Nat) : Bool := off % 4096 + n ≤ 4096

/-! ### Targets (R468, R470) -/

/-- The group address at a BAR4 offset, where its window maps. On a member that is not the head only its own addresses do (R474). -/
def State.windowAddr (s : State) (off : Nat) : Option Nat :=
  let w := off / 2 ^ 32
  let v := Map.get 0 s.host.windows w
  let g := v.toNat / 2 ^ 32 % 2 ^ 22 * 2 ^ 32 + off % 2 ^ 32
  if w < s.host.windowCount && v.getLsbD 63 && (s.isHead || s.isOwn (g / 2 ^ 48)) then some g else none

/-- The group address of a BAR offset: BAR2 is the device's own register range. -/
def State.hostTarget (s : State) (bar off : Nat) : Option Nat :=
  let g := match bar with
    | 2 => if off < 2 ^ 32 then some (s.group.member * 2 ^ 48 + registerBase + off) else none
    | 4 => s.windowAddr off
    | _ => none
  g.filter fun a => !s.nonMember (a / 2 ^ 48)

/-- Offset in the register range of a group address. -/
def registerOffset (g : Nat) : Option Nat :=
  let a := g % 2 ^ 48
  if registerBase ≤ a && a < registerBase + 2 ^ 32 then some (a - registerBase) else none

/-! ### Requests -/

/-- What host requests wait for no longer is performed in order; a mailbox request is taken as its doorbell is reached. -/
def State.settleBarsFrom : Nat → State → State
  | 0, s => s
  | n + 1, s =>
    let t := s.settleHost
    if t.host.mbRung then State.settleBarsFrom n (State.mailboxDoorbell { t with host := { t.host with mbRung := false } }) else t

def State.settleBars (s : State) : State := s.settleBarsFrom (s.host.ops.length + 1)

/-- Requests put on their way for a host request, one for each line (R252). -/
def State.sendHost (s : State) (tag : Nat) : List (Nat × ReqKind) → List Nat × State
  | [] => ([], s)
  | (a, k) :: rest =>
    let (id, s) := s.sendReq (.host tag) k a
    let (ids, s) := s.sendHost tag rest
    (id :: ids, s)

/-- A write's bytes cut at the pieces of its range. -/
def cutBytes : List (Nat × Nat) → List Byte → List (Nat × ReqKind)
  | [], _ => []
  | (a, n) :: rest, bytes => (a, .write (bytes.take n)) :: cutBytes rest (bytes.drop n)

/-- A memory request at its target: line by line on this device; as one packet to another member. -/
def State.addMemory (s : State) (tag g n : Nat) (kind : HostKind) (whole : ReqKind) (cut : List (Nat × ReqKind)) : State :=
  let dev := g / 2 ^ 48
  let own := s.isOwn dev
  let (ids, s) := s.sendHost tag (if own then cut else if n = 0 then [] else [(g, whole)])
  s.addOp tag (if own then s.group.member else dev) kind ids

/-- HOST_READ. -/
def State.hostRead (s : State) (bar off n tag : Nat) : State :=
  let own := s.group.member
  let gate := s.barGate (bar == 0 && off / 4096 == mailboxPage)
  let s :=
    if gate ≠ outcomeSuccess then s.addOp tag own (.failed gate) []
    else if bar = 0 then s.addOp tag own (.bar0Read off n) []
    else
      match s.hostTarget bar off with
      | none => s.addOp tag own (.failed outcomeUnsupported) []
      | some g =>
        match (if s.isOwn (g / 2 ^ 48) then registerOffset g else none) with
        | some o => s.addOp tag own (.regRead o n) []
        | none => s.addMemory tag g n (.read n) (.read n) ((pieces g n).map fun (a, k) => (a, .read k))
  s.settleBars

/-- HOST_READ: a host read through a BAR is on its way to its target, or waits with its outcome (R471, R472). -/
def execHostRead (bar off n tag : Nat) (s : State) : Host.Outcome State Fault Refusal :=
  .next (if s.host.linkUp && inPage off n then s.hostRead bar off n tag else s)

/-- A doorbell of another member's queue waits for the earlier writes to it (R469, R471). -/
def State.groupDoorbell (s : State) (device q bytes offset : Nat) (v : BitVec 64) : State :=
  if s.isOwn device then s.hostDoorbell q bytes offset v
  else if !s.dm.published then s.doorbellError q false
  else if s.reg 0x3000 7 = 4 || s.nonMember device then s.hostWriteError
  else if !s.isHead then s
  else (s.addOp 0 device (.doorbell q bytes offset v) []).settleBars

/-- GROUP_DOORBELL: a write at GDB_BASE, and on a member a doorbell that its head has sent it (R410, R411, R469, R474). -/
def execGroupDoorbell (device q bytes offset : Nat) (v : BitVec 64) (s : State) : Host.Outcome State Fault Refusal :=
  .next (s.groupDoorbell device q bytes offset v)

/-- A posted write to memory or to a register range: whole halves only in the latter (R707). -/
def State.hostMemoryWrite (s : State) (g : Nat) (bytes : List Byte) : State :=
  match registerOffset g with
  | some o =>
    if !wholeHalves o bytes.length then s.hostWriteError
    else if s.isOwn (g / 2 ^ 48) then s.addOp 0 s.group.member (.regWrite o bytes) []
    else s.addMemory 0 g bytes.length .write (.write bytes) []
  | none => s.addMemory 0 g bytes.length .write (.write bytes) (cutBytes (pieces g bytes.length) bytes)

/-- A posted write of the host (R469 to R472). Writes of the mailbox and of the MSI-X table are performed in order of receipt as those of memory
are; a window register takes its value at once, for the requests received after it (R470). A poisoned TLP, which `bar` names by 8 more, is not
performed (R466, R472). -/
def State.hostWrite (s : State) (bar off : Nat) (bytes : List Byte) : State :=
  let n := bytes.length
  let v := BitVec.ofNat 64 (bytesToNat bytes)
  if 8 ≤ bar then (s.aerError 12).hostWriteError
  else if !s.host.function.decodes then (s.aerError 20).hostWriteError
  else if bar = 0 && doorbellBase ≤ off && off < doorbellBase + 0x400000 then
    s.hostDoorbell ((off - doorbellBase) / 8) n (off % 8) v
  else if bar = 0 && groupDoorbellBase ≤ off && off < 2 * groupDoorbellBase then
    s.groupDoorbell ((off - groupDoorbellBase) / 0x400000) (off % 0x400000 / 8) n (off % 8) v
  else if s.barGate (bar == 0 && off / 4096 == mailboxPage) ≠ outcomeSuccess then s.hostWriteError
  else if bar = 0 then
    if windowBase ≤ off then s.writeBar0 off bytes else (s.addOp 0 s.group.member (.bar0Write off bytes) []).settleBars
  else
    match s.hostTarget bar off with
    | none => (s.aerError 20).hostWriteError
    | some g => (s.hostMemoryWrite g bytes).settleBars

/-- HOST_WRITE: a host posted write is performed in order at its target or discarded. -/
def execHostWrite (bar off : Nat) (bytes : List Byte) (s : State) : Host.Outcome State Fault Refusal :=
  .next (if s.host.linkUp && inPage off bytes.length then s.hostWrite bar off bytes else s)

/-- The AtomicOps that the device completes (R466): 64-bit FetchAdd, Swap and CAS on aligned addresses. -/
def atomicOpSupported (op : AmoOp) (off bytes : Nat) : Bool :=
  bytes == 8 && off % 8 == 0 && (op == .add || op == .swap || op == .cas)

/-- HOST_ATOMIC: a host AtomicOp is performed as AMO.G (R110, R472). -/
def execHostAtomic (bar off bytes : Nat) (op : AmoOp) (operand compare : Word) (tag : Nat) (s : State) :
    Host.Outcome State Fault Refusal :=
  .next (
    if !s.host.linkUp then s
    else
      let own := s.group.member
      let gate := s.barGate (bar == 0 && off / 4096 == mailboxPage)
      let kind : ReqKind := .atomic op operand compare
      let s :=
        if gate ≠ outcomeSuccess then s.addOp tag own (.failed gate) []
        else if bar ≠ 4 || !atomicOpSupported op off bytes then s.addOp tag own (.failed outcomeUnsupported) []
        else
          match s.hostTarget bar off with
          | none => s.addOp tag own (.failed outcomeUnsupported) []
          | some g =>
            match (if s.isOwn (g / 2 ^ 48) then placeOf (s.translate (g % 2 ^ 48)) else .unassigned), s.isOwn (g / 2 ^ 48) with
            | .registers _, _ | .unassigned, true => s.addOp tag own (.failed outcomeUnsupported) []
            | _, _ => s.addMemory tag g 8 .atomic kind [(g, kind)]
      s.settleBars)

/-! ### Completions (R471, R472, R706) -/

/-- The request is over: its requests are dropped, and what waited for it goes on. -/
def State.finishOp (s : State) (o : HostOp) : State :=
  { s.dropOp o with reqs := s.reqs.filter fun r => !o.reqs.contains r.id }.settleBars

/-- A read or AtomicOp completed with an outcome, which AER reports where it is an error; poisoned data are all ones. No completion leaves while
the link is down. -/
def State.completeRead (s : State) (o : HostOp) (outcome : Nat) (bytes : List Byte) : State :=
  let s := if outcome = outcomeUnsupported then s.aerError 20 else if outcome = outcomeAbort then s.aerError 15 else s
  let s := if s.host.linkUp then s.send (.completion o.tag outcome bytes) else s
  s.finishOp o

/-- A read or AtomicOp of `n` bytes that ended with a status; an outcome that R472 does not list is a free value. -/
def State.completeStatus (s : State) (o : HostOp) (st : Status) (data : List Byte) (n : Nat) : State :=
  match statusOutcome st with
  | some 0 => s.completeRead o outcomeSuccess (data.take n)
  | some 1 => s.completeRead o outcomePoisoned (List.replicate n 0xFF)
  | some k => s.completeRead o k []
  | none =>
    let t := s.fresh
    let k := (Config.freeWord t).toNat % 4
    let bytes := (List.range n).map fun i => Config.freeByte t i
    { s with fresh := s.fresh + 1 }.completeRead o k (if k < 2 then bytes else [])

/-- A host request's answers, first failure and data in address order; none while one is still to come. `remote` is another member's
answer. -/
def State.opAnswer (s : State) (o : HostOp) (remote : Option (Status × List Byte)) : Option (Status × List Byte) :=
  let rs := o.reqs.filterMap s.findReq
  let own := s.isOwn o.device
  if s.nonMember o.device then some (0x07, [])
  else if rs.all fun r => !s.underWay r then
    some (((rs.find? fun r => r.status != 0).map (·.status)).getD 0, rs.flatMap (·.data))
  else if own then none
  else remote

/-- HOST_COMPLETION: the response of a request's target has come back to T0's floor die; a read's completion goes to the host, a write
that failed is counted. A request behind an earlier posted write to its device waits. -/
def execHostCompletion (id : Nat) (remote : Option (Status × List Byte)) (s : State) : Host.Outcome State Fault Refusal :=
  .next (
    match s.host.ops.find? (·.id == id) with
    | none => s
    | some o =>
      if s.opBlocked o then s
      else
        match o.kind with
        | .failed k => s.completeRead o k []
        | .ready bytes => s.completeRead o outcomeSuccess bytes
        | .read n =>
          match s.opAnswer o remote with
          | some (st, data) => s.completeStatus o st data n
          | none => s
        | .atomic =>
          match s.opAnswer o remote with
          | some (st, data) => s.completeStatus o st data 8
          | none => s
        | .write =>
          match s.opAnswer o remote with
          | some (st, _) => (if st = 0 then s else s.hostWriteError).finishOp o
          | none => s
        | _ => s)

/-! ### Configuration, windows, the link and members' notices -/

/-- The function's controls changed; messages that it may send now leave. -/
def State.setFunction (s : State) (f : PcieFunction) : State := { s with host := { s.host with function := f } }.flushMsix

/-- CONFIG_REQUEST: retry status until the image runs (R599); then the contents of configuration space, which only the PCIe
specification gives, are a free value, BAR4 takes the size written (R468), and the controls that R466 names take theirs. -/
def execConfigRequest (tag : Nat) (c : ConfigRequest) (s : State) : Host.Outcome State Fault Refusal :=
  .next (
    if !s.host.linkUp then s
    else if !s.steward.running then s.send (.completion tag outcomeRetry [])
    else
      match c with
      | .read _ =>
        { s with fresh := s.fresh + 1 }.send
          (.completion tag outcomeSuccess ((List.range 4).map fun i => Config.freeByte s.fresh i))
      | .write _ _ => s.send (.completion tag outcomeSuccess [])
      | .resizeBar4 size =>
        (if size ≤ 6 then { s with host := { s.host with bar4 := 2 ^ size } } else s).send (.completion tag outcomeSuccess [])
      | .command memory busMaster =>
        (s.setFunction { s.host.function with memory := memory, busMaster := busMaster }).send (.completion tag outcomeSuccess [])
      | .msixControl enable mask =>
        (s.setFunction { s.host.function with msixOn := enable, msixMask := mask }).send (.completion tag outcomeSuccess [])
      | .power d3hot => (s.setFunction { s.host.function with d3 := d3hot }).send (.completion tag outcomeSuccess [])
      | .aerClear bits =>
        (s.setFunction { s.host.function with aer := s.host.function.aer &&& (2 ^ 32 - 1 - bits % 2 ^ 32) }).send
          (.completion tag outcomeSuccess []))

/-- WIN_WRITE: a whole window register written; it holds for host requests received later (R470). -/
def execWinWrite (w : Nat) (v : Word) (s : State) : Host.Outcome State Fault Refusal :=
  .next (
    if !s.host.linkUp then s
    else if s.barGate false ≠ outcomeSuccess then s.hostWriteError
    else s.writeWindow w v)

/-- On the head, a member's record is written to host memory before its message is sent (R473); notice of an event sets the
member's bit in GROUP_EVENT_PENDING and is announced under EVENT_MSIX (R658). -/
def State.notice (s : State) (device : Nat) (n : Notice) : State :=
  if !s.isHead || s.isOwn device || s.nonMember device || 64 ≤ device then s
  else
    match n with
    | .completion record vector =>
      let s := match record with
        | some (address, bytes) => s.send (.hostWrite (address % 2 ^ 63) bytes)
        | none => s
      match vector with
      | some v => s.sendMsix v.toNat
      | none => s
    | .event => { s.setFlags 0xA200 6 (2 ^ device) with events := { s.events with msixDue := true } }

/-- NOTIFY: a member's notice reaches the head. -/
def execNotify (device : Nat) (n : Notice) (s : State) : Host.Outcome State Fault Refusal := .next (s.notice device n)

/-- PCIE_LINK_TRAINED: the link is up at a width of 1, 2, 4, 8 or 16 lanes and a rate code of 1 to 6 (R466, R598). -/
def execPcieLinkTrained (width rate : Nat) (s : State) : Host.Outcome State Fault Refusal :=
  .next (
    if !s.boot.rails || s.boot.inputLoss || !([1, 2, 4, 8, 16].contains width) || rate = 0 || 6 < rate then s
    else { s with host := { s.host with linkUp := true } }.setReg 0x1102 13 (width * 256 + rate))

end Sys2Proof.Machine
end

