-- ==== Sys2Proof/Machine/Links.lean ====
section
/-! DEFINITION. The device links: the packets that leave and come (R477 to R479, R484, R485), the ports' frames, credits and replays (R483,
R486, R487), and what a freeze holds back (R502). -/
namespace Sys2Proof.Machine

/-! ### Ports -/

def State.port (s : State) (p : Nat) : LglPort := Map.get {} s.group.ports p
def State.setPort (s : State) (p : Nat) (v : LglPort) : State :=
  { s with group := { s.group with ports := Map.set {} s.group.ports p v } }

/-! ### Frames (R483) -/

/-- Bits of the 16-byte header of a frame. -/
def headerBits (frame : List Byte) (hi lo : Nat) : Nat := bitsOf (fieldAt frame 0 16) hi lo

/-- A virtual channel that a slot may carry, and one that a credit return may name (R483). -/
def slotVcValid (v : Nat) : Bool := v < 20
def creditVcValid (v : Nat) : Bool := v < 20 || v == 31

/-- The slots of a frame that hold a flit, with their virtual channels. -/
def frameSlots (frame : List Byte) : List Flit :=
  (List.range 4).filterMap fun i =>
    if headerBits frame (91 + i) (91 + i) = 1 then
      some { vc := headerBits frame (75 + 5 * i) (71 + 5 * i)
             control := BitVec.ofNat 128 (fieldAt frame (80 + 80 * i) 16)
             data := (frame.drop (16 + 80 * i)).take 64 }
    else none

/-- The frame's length, CRC-32 and virtual channels are good. -/
def frameGood (frame : List Byte) : Bool :=
  frame.length == 336 && fieldAt frame 0 4 == (crc32 (frame.drop 4)).toNat &&
  (frameSlots frame).all (fun f => slotVcValid f.vc) &&
  creditVcValid (headerBits frame 70 66) && creditVcValid (headerBits frame 57 53)

/-- A flit's control word and data as it stands in a slot: the data, then the control word (R483). -/
def Flit.bytes (f : Flit) : List Byte := f.data ++ natToBytes 16 f.control.toNat

/-- The header of a frame from its type, SEQ, flits and credits, with the port's ACK_SEQ and NAK; its CRC field is 0. -/
def LglPort.header (k : LglPort) (ftype seq : Nat) (flits : List Flit) (credits : List (Nat × Nat)) : Nat :=
  let cr (i : Nat) : Nat × Nat := credits.getD i (0, 0)
  let vcs := (List.range flits.length).foldl (fun n i => n + (flits[i]?.elim 0 (·.vc)) * 2 ^ (71 + 5 * i)) 0
  ftype * 2 ^ 120 + seq * 2 ^ 108 + (k.rxNext + 4095) % 4096 * 2 ^ 96 +
    (if k.nakDue then 2 ^ 95 else 0) + (2 ^ flits.length - 1) * 2 ^ 91 + vcs +
    (cr 0).1 * 2 ^ 66 + min (cr 0).2 255 * 2 ^ 58 + (cr 1).1 * 2 ^ 53 + min (cr 1).2 255 * 2 ^ 45

/-- A frame of a header and four slots, with its CRC-32. -/
def frameBytes (header : Nat) (slots : List Byte) : List Byte :=
  let body := (natToBytes 16 header).drop 4 ++ slots
  natToBytes 4 (crc32 body).toNat ++ body

def LglPort.frame (k : LglPort) (ftype seq : Nat) (flits : List Flit) (credits : List (Nat × Nat)) : List Byte :=
  frameBytes (k.header ftype seq flits credits) (flits.flatMap Flit.bytes ++ List.replicate (80 * (4 - flits.length)) 0)

/-- A frame put on a port's lanes. -/
def State.sendFrame (s : State) (p : Nat) (frame : List Byte) : State := s.send (.lglFrame p frame)

/-! ### Training (R480, R487) -/

/-- The identity frame that a port sends once it has trained: device number, shape and port number (R480, step 2), in the first bytes of its
slots (assumption 36). -/
def State.sendIdentity (s : State) (p : Nat) : State :=
  let k := s.port p
  let id : List Byte := [BitVec.ofNat 8 s.group.member, BitVec.ofNat 8 s.group.shape, BitVec.ofNat 8 p]
  s.sendFrame p (frameBytes (k.header 3 k.txNext [] []) (id ++ List.replicate 317 0))

/-- A port that has trained begins anew on both of its ends: SEQ and credits at 0, and the flits of its unacknowledged frames ahead of its
queue (assumption 93, DESIGN CHOICE). -/
def LglPort.restarted (k : LglPort) : LglPort :=
  { k with
    fails := 0, rxNext := 0, txNext := 0, discarded := false, nakDue := false, due := [], held := [], used := [], incoming := []
    retry := [], resent := [], txq := (k.retry.flatMap fun e => frameSlots e.2) ++ k.txq }

/-- A training of a port succeeds. -/
def State.portTrained (s : State) (p : Nat) : State := (s.setPort p (s.port p).restarted).sendIdentity p

/-- PORT_TRAINED: a port that was training has trained. -/
def execPortTrained (p : Nat) (s : State) : Host.Outcome State Fault Refusal :=
  .next (if s.portState p ≠ 1 || 12 ≤ p then s else s.portTrained p)

/-- The port of the peer that the cabling of R476 requires: equal rank in the opposite direction. -/
def State.peerPort (s : State) (p : Nat) : Option Nat := do
  let d ← (portDirections s.group.shape)[p]?
  let rank := ((s.portsToward d).takeWhile (· != p)).length
  (s.portsToward (if d % 2 = 0 then d + 1 else d - 1))[rank]?

/-- IDENTITY_FRAME: the right neighbour brings the port up; a wrong one, or another shape, holds it MISWIRED. -/
def execIdentityFrame (p device shape peer : Nat) (s : State) : Host.Outcome State Fault Refusal :=
  .next (
    if 12 ≤ p || s.portState p = 0 || s.portState p = 4 then s
    else
      match (portDirections s.group.shape)[p]? with
      | none => s
      | some d =>
        if device = neighbour s.group.member d && shape = s.group.shape && s.peerPort p = some peer then s.setPortState p 2
        else (s.setPortState p 3).raise 0x0F (portTower p) p)

/-! ### Packets of this device (R477, R478, R484, R485) -/

/-- A packet as it leaves: the fields of its control word, its data, its virtual channel, and its port where that is not R478's. -/
structure LinkPacket where
  dst : Nat
  core : Nat := 0x3FFF
  kind : Nat
  status : Nat := 0
  tag : Nat := 0
  addr : Nat := 0
  aux : Nat := 0
  data : List Byte := []
  vc : Nat
  port : Option Nat := none
  deriving DecidableEq, Repr

/-- The flits of a packet from a device; the control words of the later ones are zero (R484). -/
def LinkPacket.flits (m : LinkPacket) (own : Nat) : List Flit :=
  let n := max 1 ((m.data.length + 63) / 64)
  let control := m.dst * 2 ^ 122 + own * 2 ^ 116 + m.core * 2 ^ 102 + m.kind * 2 ^ 96 + m.status * 2 ^ 88 + m.tag * 2 ^ 76 + n * 2 ^ 73 +
    m.addr % 2 ^ 48 * 2 ^ 16 + m.aux % 2 ^ 16
  (List.range n).map fun i =>
    let line := (m.data.drop (64 * i)).take 64
    { vc := m.vc, control := if i = 0 then BitVec.ofNat 128 control else 0, data := line ++ List.replicate (64 - line.length) 0 }

/-- A partial goes up in packets of 256 bytes, on the channel of its port slot (R483, R489); ADDR holds RTYPE, the partial's length and the
packet's place in it (assumption 36). -/
def State.partialPackets (s : State) (dev n st rtype len : Nat) (bytes : List Byte) : List LinkPacket :=
  let slot := (s.groupLease n).ports.headD 0
  (List.range (max 1 ((len + 255) / 256))).map fun i =>
    { dst := dev, kind := 0x0A, status := st, addr := rtype * 2 ^ 44 + len * 2 ^ 16 + i, aux := n, data := (bytes.drop (256 * i)).take 256,
      vc := 4 + slot % 16, port := some (slot / 16) }

/-- The packets of a message; what R485 gives no KIND makes none (assumption 36). -/
def State.linkPackets (s : State) (dev code : Nat) (fields : List Nat) : List LinkPacket :=
  let f (i : Nat) : Nat := fields.getD i 0
  let core (t : Nat) : Nat := t / 4096
  let tag (t : Nat) : Nat := t % 4096
  match code with
  | 1 => (pieces (f 0) (f 2)).map fun p =>
      { dst := dev, core := core (f 3), kind := 0x03, tag := tag (f 3), addr := p.1, aux := p.2,
        data := ((natToBytes (f 2) (f 1)).drop (p.1 - f 0)).take p.2, vc := 0 }
  | 2 =>
    if fields.length = 1 then [{ dst := dev, kind := 0x0F, aux := 0xFFFF, vc := 2 }]
    else [{ dst := dev, kind := 0x0F, aux := f 2, data := natToBytes 8 (f 0) ++ natToBytes 16 (f 1), vc := 2 }]
  | 6 => [{ dst := dev, core := core (f 0), kind := 0x08, status := f 1, tag := tag (f 0), data := natToBytes 4 (f 2), vc := 2 }]
  | 7 => [{ dst := dev, kind := 0x09, status := f 1, addr := f 0, vc := 2 }]
  | 10 => s.partialPackets dev (f 0) (f 1) (f 2) (f 3) (natToBytes (f 3) (f 4))
  | 11 => [{ dst := dev, kind := 0x0C, aux := f 1, vc := 3 }]
  | 12 => [{ dst := dev, kind := 0x10, aux := f 0, vc := 3 }]
  | 13 => [{ dst := dev, kind := 0x0E, aux := if s.group.member = 0 then 0 else 1, vc := 3 }]
  | 14 => [{ dst := dev, kind := 0x0B, status := f 1, aux := f 0, vc := 1 }]
  | 15 => [{ dst := dev, core := core (f 0), kind := f 3, status := f 1, tag := tag (f 0), data := natToBytes 64 (f 2), vc := 1 }]
  | 16 => [{ dst := dev, kind := 0x0E, aux := 2, data := natToBytes 16 (f 0) ++ natToBytes 4 (f 1), vc := 3 }]
  | 17 => [{ dst := dev, kind := 0x0D, aux := f 0, data := natToBytes 8 (f 1) ++ natToBytes 8 (f 2), vc := 3 }]
  | 19 => [{ dst := dev, core := core (f 0), kind := 0x01, tag := tag (f 0), addr := f 1, aux := f 2, vc := 0 }]
  | 20 => [{ dst := dev, core := core (f 0), kind := 0x05, tag := tag (f 0), addr := f 1, aux := f 2,
             data := natToBytes 8 (f 3) ++ natToBytes 8 (f 4), vc := 0 }]
  | 21 => [{ dst := dev, core := core (f 0), kind := 0x03, tag := tag (f 0), addr := registerBase + 64 * f 1, aux := 64,
             data := natToBytes 64 (f 2), vc := 0 }]
  | 22 => [{ dst := dev, core := core (f 0), kind := 0x07, tag := tag (f 0), addr := f 1, aux := f 2, data := natToBytes 4 (f 3), vc := 2 }]
  | _ => []

/-- A flit put in a port's transmit queue. -/
def State.passFlit (s : State) (port : Nat) (f : Flit) : State :=
  let k := s.port port
  s.setPort port { k with txq := k.txq ++ [f] }

/-- The answer to a request of this device has come to a floor die and goes to the requester's cluster (R366, R484). -/
def State.linkAnswer (s : State) (entry : Option Nat) (dev core tag : Nat) (st : Status) (data : List Byte) : State :=
  match s.reqs.find? fun r =>
      s.abroad r && r.addr / 2 ^ 48 % 64 == dev && r.src.linkCore == core && r.tag == tag && r.stage != .done with
  | none => s
  | some r =>
    let n := match r.kind with
      | .read n => n
      | .atomic _ _ _ => 8
      | .push _ _ => 1
      | .write _ => 0
    let s := s.updReq r.id fun r => { r with stage := .done, status := st, data := if st = 0 then data.take n else [] }
    match entry, r.src.node.filter (· < 1024) with
    | some e, some a => s.post { id := r.id, channel := 1, src := e, dsts := [a], flits := 1 }
    | _, _ => s

/-- The same of a sync operation. -/
def State.linkSyncAnswer (s : State) (entry : Option Nat) (dev core tag : Nat) (st : Status) (v : Word32) : State :=
  match s.syncMsgs.find? fun m =>
      s.abroadSync m && m.object / 2 ^ 13 == dev && m.target.linkCore == core && m.tag == tag && m.reply.isNone with
  | none => s
  | some m =>
    let put (x : SyncMsg) : SyncMsg := if x.id = m.id then { x with arrived := true, reply := some (st, v), repliedAt := s.fresh } else x
    let s := { s with fresh := s.fresh + 1, syncMsgs := s.syncMsgs.map put }
    match entry, m.target.cluster with
    | some e, some a => s.post { id := m.id, channel := 2, src := e, dsts := [a], flits := 1 }
    | _, _ => s

/-- A packet handed to the port of its route (R477, R478, R489). A request whose route has no port up any longer ends with NOT_PRESENT
(R479); anything else is lost. -/
def State.sendPacket (s : State) (m : LinkPacket) : State :=
  match m.port <|> s.portFor m.core m.dst with
  | some p => (m.flits s.group.member).foldl (fun (s : State) f => s.passFlit p f) s
  | none =>
    if m.kind = 0x07 then s.linkSyncAnswer none m.dst m.core m.tag 0x07 0
    else if [0x01, 0x03, 0x05].contains m.kind then s.linkAnswer none m.dst m.core m.tag 0x07 [] else s

/-- The messages for other devices since the last time become packets of the ports, in order. -/
def State.formPackets (s : State) : State :=
  let new := (s.out.take (s.out.length - s.group.formed)).reverse
  let s := { s with group := { s.group with formed := s.out.length } }
  new.foldl (fun (s : State) o => match o with
    | .groupMessage dev code fields => (s.linkPackets dev code fields).foldl State.sendPacket s
    | _ => s) s

/-! ### Credits, retraining and replays (R486, R487) -/

/-- The credits of a frame returned to the transmitter (R486). The receiver counts a slot against its channel as soon as it has returned one
of the channel's, so that what a channel is returned beyond its own counts for the pool. -/
def LglPort.credited (k : LglPort) (frame : List Byte) : LglPort :=
  let back (m : Map Nat) (v n : Nat) : Map Nat :=
    let own := Map.get 0 m v
    Map.upd 0 (Map.upd 0 m v (· - n)) 31 (· - (n - own))
  let first := back k.used (headerBits frame 70 66) (headerBits frame 65 58)
  { k with used := back first (headerBits frame 57 53) (headerBits frame 52 45) }

/-- A retrain begins (R487, rule 6): the frames in the retry buffer go first over the other ports of the direction, if one is
up. -/
def State.beginRetrain (s : State) (p : Nat) : State :=
  let k := s.port p
  let s := (s.setPortState p 1).sat32 0xB612 (p + 1) 1
  let dir := (portDirections s.group.shape).getD p 0
  match s.upPorts dir with
  | [] => s.setPort p { k with resent := [], progressAt := s.now }
  | q :: qs =>
    let flits := (k.retry.flatMap fun e => frameSlots e.2) ++ k.txq
    let s := s.setPort p { k with retry := [], txq := [], resent := [], progressAt := s.now }
    -- packets of one initiator and destination keep to one port of the direction (R478)
    let choose (f : Flit) : Nat :=
      let c := f.control.toNat
      (q :: qs).getD ((bitsOf c 115 102 + bitsOf c 127 122) % (q :: qs).length) q
    let step (acc : State × Map Nat) (f : Flit) : State × Map Nat :=
      let (s, m) := acc
      let port := if f.control = 0 then Map.get q m f.vc else choose f
      (s.passFlit port f, Map.set q m f.vc port)
    let older := (q :: qs).map fun x => (x, (s.port x).txq)
    let s := (q :: qs).foldl (fun (s : State) x => s.setPort x { s.port x with txq := [] }) s
    let s := (flits.foldl step (s, [])).1
    older.foldl (fun s e => s.setPort e.1 { s.port e.1 with txq := (s.port e.1).txq ++ e.2 }) s

/-- Every unacknowledged frame resent in order; the port retrains when one of them has been resent 8 times (R487, rules 5 and 6). -/
def State.replay (s : State) (p : Nat) : State :=
  let k := s.port p
  if k.retry.isEmpty then s
  else
    let s := k.retry.foldl (fun (s : State) e => s.sendFrame p e.2) s
    let resent := k.retry.foldl (fun m e => Map.upd 0 m e.1 (· + 1)) k.resent
    let s := (s.setPort p { k with resent := resent, progressAt := s.now }).sat32 0xB611 (p + 1) 1
    if k.retry.any fun e => Map.get 0 resent e.1 == 8 then s.beginRetrain p else s

/-- ACK_SEQ and NAK of an accepted frame (R487, rules 4 and 5). -/
def State.takeAck (s : State) (p : Nat) (frame : List Byte) : State :=
  let k := (s.port p).credited frame
  let ack := headerBits frame 107 96
  let k := if k.retry.any (·.1 == ack) then
      let left := (k.retry.dropWhile (·.1 != ack)).drop 1
      { k with retry := left, resent := k.resent.filter fun e => left.any (·.1 == e.1), progressAt := s.now }
    else k
  let s := s.setPort p k
  if headerBits frame 95 95 = 1 then s.replay p else s

/-! ### Packets that come (R477, R479, R484, R485) -/

/-- A release from another device is first sent to all 640 clusters (R389). -/
def State.groupRelease (s : State) (object : Nat) (st : Status) : State :=
  if s.isOwn (object / 2 ^ 13) || !s.memberDevice (object / 2 ^ 13) then s else s.releaseAll object st

/-- A whole packet for this device (R485). Requests of other devices enter the mesh by the floor die of their port (R366); an answer finds its
request by SRC_CORE and TAG; the rest has the effect of its own command. A push into a queue comes as a WRITE of a core to the queue's QCB,
and AUX and the data are as assumption 36 reads them. Nothing but membership is accepted before this device holds a bitmap (R480). -/
def State.acceptPacket (s : State) (p c : Nat) (data : List Byte) : State :=
  let dev := bitsOf c 121 116
  let core := bitsOf c 115 102
  let aux := bitsOf c 15 0
  let addr := bitsOf c 63 16
  let st : Status := BitVec.ofNat 8 (bitsOf c 95 88)
  let tag := linkTag core (bitsOf c 87 76)
  let door := some (floorNode (portTower p))
  let enter (kind : ReqKind) : State := (s.sendReq (.device dev tag) kind (s.group.member * 2 ^ 48 + addr) none door).2
  let kind := bitsOf c 101 96
  if kind ≠ 0x0E && !s.holdsBitmap then s
  else
    match kind with
    | 0x01 => enter (.read (min aux 64))
    | 0x03 =>
      if core ≠ 0x3FFF && registerBase ≤ addr && addr < registerBase + 0x2000000 && aux = 64 then
        enter (.push ((addr - registerBase) / 64) data)
      else enter (.write (data.take aux))
    | 0x05 =>
      match [AmoOp.add, .and, .or, .xor, .swap, .min, .max, .minu, .maxu, .cas].find? fun o => (amoFn o).toNat == aux with
      | some op => enter (.atomic op (BitVec.ofNat 64 (fieldAt data 0 8)) (BitVec.ofNat 64 (fieldAt data 8 8)))
      | none => s.send (.groupMessage dev 15 [tag, 0x02, 0, 0x06])
    | 0x07 =>
      let op : SyncOp := match aux with
        | 0 => .add
        | 1 => .wait
        | 2 => .read
        | _ => .arm
      s.sendSync op (s.group.member * 2 ^ 13 + addr % 2 ^ 13) (BitVec.ofNat 32 (fieldAt data 0 4)) (.remote dev tag) door
    | 0x02 | 0x04 | 0x06 => s.linkAnswer door dev core (bitsOf c 87 76) st data
    | 0x08 => s.linkSyncAnswer door dev core (bitsOf c 87 76) st (BitVec.ofNat 32 (fieldAt data 0 4))
    | 0x09 => s.groupRelease (dev * 2 ^ 13 + addr % 2 ^ 13) st
    | 0x0C => s.holdRequest dev aux
    | 0x0D => s.holdTarget aux (fieldAt data 0 8) (fieldAt data 8 8)
    | 0x0E => if aux = 2 then s.memberBitmap (fieldAt data 0 16) else s.membership dev
    | 0x0F =>
      let record := if fieldAt data 0 8 = 0 then none else some (fieldAt data 0 8, (data.drop 8).take 16)
      if aux = 0xFFFF then s.notice dev .event
      else s.notice dev (.completion record (if aux = 0 then none else some (BitVec.ofNat 11 (aux - 1))))
    | 0x10 => s.groupFreeze aux
    | _ => s

/-- The credit of a slot that a port has received (R486): it is returned at once, or, for traffic to the compute tier of a frozen device, when
the device runs again (R502). -/
def State.creditSlot (s : State) (p vc : Nat) (waits : Bool) : State :=
  let k := s.port p
  let v := if Map.get 0 k.due vc + Map.get 0 k.held vc < 4 then vc else 31
  s.setPort p (if waits then { k with held := Map.upd 0 k.held v (· + 1) } else { k with due := Map.upd 0 k.due v (· + 1) })

/-- One flit that a port has received: the first of a packet names its destination, its later flits follow; and whether its KIND is none of
R485's, so that its slot, and with it the rest of its packet, is discarded. -/
def State.takeFlit (s : State) (p : Nat) (f : Flit) : Bool × State :=
  let inc := Map.get {} (s.port p).incoming f.vc
  let c := f.control.toNat
  let put (i : Incoming) (s : State) : State :=
    s.setPort p { s.port p with incoming := Map.set {} (s.port p).incoming f.vc i }
  let here := if inc.left = 0 then bitsOf c 127 122 = s.group.member else inc.pass.isNone
  let s := s.creditSlot p f.vc (here && !s.running && f.vc ≠ 2 && f.vc ≠ 3)
  if inc.left = 0 then
    let kind := bitsOf c 101 96
    let n := bitsOf c 75 73
    if kind = 0 || 0x10 < kind then (true, put { control := f.control, left := n - 1, pass := some 12 } s)
    else if n = 0 then (false, s)
    else if bitsOf c 127 122 = s.group.member then
      (false, if n ≤ 1 then s.acceptPacket p c f.data else put { control := f.control, data := f.data, left := n - 1 } s)
    else
      match s.portFor (bitsOf c 115 102) (bitsOf c 127 122) with
      | some q => (false, (put { control := f.control, left := n - 1, pass := some q } s).passFlit q f)
      | none =>
        -- the route is cut: requests complete with NOT_PRESENT (R479)
        let s := put { control := f.control, left := n - 1, pass := some 12 } s
        let tag := linkTag (bitsOf c 115 102) (bitsOf c 87 76)
        (false, if kind = 0x07 then s.send (.groupMessage (bitsOf c 121 116) 6 [tag, 0x07, 0])
          else if [0x01, 0x03, 0x05].contains kind then s.send (.groupMessage (bitsOf c 121 116) 15 [tag, 0x07, 0, kind + 1]) else s)
  else
    let s := put { inc with data := inc.data ++ f.data, left := inc.left - 1 } s
    (false, match inc.pass with
      | some q => if q < 12 then s.passFlit q f else s
      | none => if inc.left = 1 then s.acceptPacket p inc.control.toNat (inc.data ++ f.data) else s)

/-- LGL_DATA_FRAME: a frame with a good CRC and the next SEQ is accepted, any other is discarded, the first one with a NAK
(R487, rules 1 and 2). A frame with a KIND that R485 does not list counts once (R485, R504). -/
def execLglDataFrame (p : Nat) (frame : List Byte) (s : State) : Host.Outcome State Fault Refusal :=
  .next (
    let k := s.port p
    let good := frameGood frame && headerBits frame 127 120 == 1
    if 12 ≤ p || s.portState p ≠ 2 then s
    else if !good || headerBits frame 119 108 ≠ k.rxNext then
      let s := if good then s else s.sat32 0xB613 (p + 1) 1
      s.setPort p { s.port p with discarded := true, nakDue := k.nakDue || !k.discarded }
    else
      let s := s.setPort p { k with rxNext := (k.rxNext + 1) % 4096, discarded := false }
      let s := s.takeAck p frame
      let (bad, s) := (frameSlots frame).foldl (fun (a : Bool × State) f =>
        let (b, s) := a.2.takeFlit p f
        (a.1 || b, s)) (false, s)
      if bad then s.sat32 0xB613 (p + 1) 1 else s)

/-- LGL_IDLE_FRAME: its ACK, NAK and credits are applied (R486, R487). -/
def execLglIdleFrame (p : Nat) (frame : List Byte) (s : State) : Host.Outcome State Fault Refusal :=
  .next (
    if 12 ≤ p || s.portState p ≠ 2 then s
    else if !(frameGood frame && headerBits frame 127 120 == 2) then s.sat32 0xB613 (p + 1) 1
    else s.takeAck p frame)

/-! ### Frames that leave (R486, R487) -/

/-- A virtual channel has a credit: of its reservation, or of the pool. -/
def LglPort.hasCredit (k : LglPort) (vc : Nat) : Bool := Map.get 0 k.used vc < 4 || Map.get 0 k.used 31 < 1536

/-- The flits that credits let a port send now, at most so many, and the rest of its queue: PACE before every other channel (R483), then in
order of the queue, of which a channel without a credit holds up only its own (R486). -/
def LglPort.sendable (k : LglPort) : Nat → List Flit × LglPort
  | 0 => ([], k)
  | n + 1 =>
    match (k.txq.find? fun f => f.vc == 3 && k.hasCredit 3).or (k.txq.find? fun f => k.hasCredit f.vc) with
    | none => ([], k)
    | some f =>
      let against := if Map.get 0 k.used f.vc < 4 then f.vc else 31
      let (fs, k') := { k with txq := k.txq.erase f, used := Map.upd 0 k.used against (· + 1) }.sendable n
      (f :: fs, k')

/-- The slots that a freeze held up are free once the device runs. -/
def LglPort.freed (k : LglPort) (running : Bool) : LglPort :=
  if running then { k with due := k.held.foldl (fun m e => Map.upd 0 m e.1 (· + e.2)) k.due, held := [] } else k

/-- Of flits handed to a port with the command, those of packets of this device that R477, R478 and R489 lead to it. -/
def State.ownFlits (s : State) (p : Nat) (fs : List Flit) : List Flit :=
  (fs.foldl (fun (a : Bool × List Flit) f =>
    let c := f.control.toNat
    let ok := if c = 0 then a.1
      else bitsOf c 121 116 == s.group.member && (4 ≤ f.vc || s.portFor (bitsOf c 115 102) (bitsOf c 127 122) == some p)
    (ok, if ok then a.2 ++ [f] else a.2)) (false, [])).2

/-- ACK_REPORT: the port sends a frame with its ACK_SEQ: DATA when flits, credits and room in the retry buffer allow, otherwise
IDLE (R487, rules 3 and 4). The messages for other devices become packets of their ports first; `own` are further flits of this device that
are handed to the port. -/
def execAckReport (p : Nat) (own : List Flit) (s : State) : Host.Outcome State Fault Refusal :=
  .next (
    if 12 ≤ p || s.portState p ≠ 2 then s
    else
      let s := s.formPackets
      let k := (s.port p).freed s.running
      let k := { k with txq := k.txq ++ s.ownFlits p own }
      let credits := k.due.take 2
      let (flits, k') := if k.retry.length < 512 then k.sendable 4 else ([], k)
      let ftype := if flits.isEmpty then 2 else 1
      let frame := k.frame ftype k.txNext flits credits
      let k' := { k' with nakDue := false, due := credits.foldl (fun m e => Map.upd 0 m e.1 (· - min e.2 255)) k.due }
      let s := s.sendFrame p frame
      if flits.isEmpty then s.setPort p k'
      else
        let k' := { k' with
          retry := k'.retry ++ [(k.txNext, frame)]
          txNext := (k.txNext + 1) % 4096
          progressAt := if k.retry.isEmpty then s.now else k.progressAt }
        (s.setPort p k').wrap64 0xB610 (p + 1) 1)

/-- LGL_REPLAY_TIMER: ACK_SEQ has not moved for 1 us while frames are outstanding (R487, rule 5). -/
def execLglReplayTimer (p : Nat) (s : State) : Host.Outcome State Fault Refusal :=
  .next (
    let k := s.port p
    if 12 ≤ p || s.portState p ≠ 2 || k.retry.isEmpty || s.now < k.progressAt + usCycles 1 then s else s.replay p)

/-- LGL_RETRAIN: an attempt to train ends; a port that fails three times in a row is DOWN until GROUP_REFORM (R487). -/
def execLglRetrain (p : Nat) (trained : Bool) (s : State) : Host.Outcome State Fault Refusal :=
  .next (
    let k := s.port p
    if 12 ≤ p || s.portState p ≠ 1 then s
    else if trained then s.portTrained p
    else
      let s := s.setPort p { k with fails := k.fails + 1 }
      if 3 ≤ k.fails + 1 then (s.setPortState p 0).raise 0x10 (portTower p) p else s)

end Sys2Proof.Machine
end

