-- ==== Sys2Proof/Machine/LoadStore.lean ====
section
/-! DEFINITION. Loads, stores and atomics as instructions (R104 to R110). -/
namespace Sys2Proof.Machine

/-- Local load of 1 byte(s), sign-extended (R104, R106). -/
def execLbL (i : Issue) (xd xa : Reg) (imm : BitVec 16) (s : State) : Host.Outcome State Fault Refusal :=
  .next (s.localLoad i 0x20 xd xa imm 1 true)

/-- Local load of 1 byte(s), zero-extended (R104, R106). -/
def execLbuL (i : Issue) (xd xa : Reg) (imm : BitVec 16) (s : State) : Host.Outcome State Fault Refusal :=
  .next (s.localLoad i 0x21 xd xa imm 1 false)

/-- Local load of 2 byte(s), sign-extended (R104, R106). -/
def execLhL (i : Issue) (xd xa : Reg) (imm : BitVec 16) (s : State) : Host.Outcome State Fault Refusal :=
  .next (s.localLoad i 0x22 xd xa imm 2 true)

/-- Local load of 2 byte(s), zero-extended (R104, R106). -/
def execLhuL (i : Issue) (xd xa : Reg) (imm : BitVec 16) (s : State) : Host.Outcome State Fault Refusal :=
  .next (s.localLoad i 0x23 xd xa imm 2 false)

/-- Local load of 4 byte(s), sign-extended (R104, R106). -/
def execLwL (i : Issue) (xd xa : Reg) (imm : BitVec 16) (s : State) : Host.Outcome State Fault Refusal :=
  .next (s.localLoad i 0x24 xd xa imm 4 true)

/-- Local load of 4 byte(s), zero-extended (R104, R106). -/
def execLwuL (i : Issue) (xd xa : Reg) (imm : BitVec 16) (s : State) : Host.Outcome State Fault Refusal :=
  .next (s.localLoad i 0x25 xd xa imm 4 false)

/-- Local load of 8 byte(s), zero-extended (R104, R106). -/
def execLdL (i : Issue) (xd xa : Reg) (imm : BitVec 16) (s : State) : Host.Outcome State Fault Refusal :=
  .next (s.localLoad i 0x26 xd xa imm 8 false)

/-- Global load of 1 byte(s), sign-extended; the thread waits in WAIT_MEM (R105 to R107). -/
def execLbG (i : Issue) (xd xa : Reg) (imm : BitVec 16) (s : State) : Host.Outcome State Fault Refusal :=
  .next (s.globalLoad i 0x18 xd xa imm 1 true)

/-- Global load of 1 byte(s), zero-extended; the thread waits in WAIT_MEM (R105 to R107). -/
def execLbuG (i : Issue) (xd xa : Reg) (imm : BitVec 16) (s : State) : Host.Outcome State Fault Refusal :=
  .next (s.globalLoad i 0x19 xd xa imm 1 false)

/-- Global load of 2 byte(s), sign-extended; the thread waits in WAIT_MEM (R105 to R107). -/
def execLhG (i : Issue) (xd xa : Reg) (imm : BitVec 16) (s : State) : Host.Outcome State Fault Refusal :=
  .next (s.globalLoad i 0x1A xd xa imm 2 true)

/-- Global load of 2 byte(s), zero-extended; the thread waits in WAIT_MEM (R105 to R107). -/
def execLhuG (i : Issue) (xd xa : Reg) (imm : BitVec 16) (s : State) : Host.Outcome State Fault Refusal :=
  .next (s.globalLoad i 0x1B xd xa imm 2 false)

/-- Global load of 4 byte(s), sign-extended; the thread waits in WAIT_MEM (R105 to R107). -/
def execLwG (i : Issue) (xd xa : Reg) (imm : BitVec 16) (s : State) : Host.Outcome State Fault Refusal :=
  .next (s.globalLoad i 0x1C xd xa imm 4 true)

/-- Global load of 4 byte(s), zero-extended; the thread waits in WAIT_MEM (R105 to R107). -/
def execLwuG (i : Issue) (xd xa : Reg) (imm : BitVec 16) (s : State) : Host.Outcome State Fault Refusal :=
  .next (s.globalLoad i 0x1D xd xa imm 4 false)

/-- Global load of 8 byte(s), zero-extended; the thread waits in WAIT_MEM (R105 to R107). -/
def execLdG (i : Issue) (xd xa : Reg) (imm : BitVec 16) (s : State) : Host.Outcome State Fault Refusal :=
  .next (s.globalLoad i 0x1E xd xa imm 8 false)

/-- Local store of 1 byte(s), performed before the context issues again (R107). -/
def execSbL (i : Issue) (xd xa : Reg) (imm : BitVec 16) (s : State) : Host.Outcome State Fault Refusal :=
  .next (s.localStore i 0x28 xd xa imm 1)

/-- Local store of 2 byte(s), performed before the context issues again (R107). -/
def execShL (i : Issue) (xd xa : Reg) (imm : BitVec 16) (s : State) : Host.Outcome State Fault Refusal :=
  .next (s.localStore i 0x29 xd xa imm 2)

/-- Local store of 4 byte(s), performed before the context issues again (R107). -/
def execSwL (i : Issue) (xd xa : Reg) (imm : BitVec 16) (s : State) : Host.Outcome State Fault Refusal :=
  .next (s.localStore i 0x2A xd xa imm 4)

/-- Local store of 8 byte(s), performed before the context issues again (R107). -/
def execSdL (i : Issue) (xd xa : Reg) (imm : BitVec 16) (s : State) : Host.Outcome State Fault Refusal :=
  .next (s.localStore i 0x2B xd xa imm 8)

/-- Posted global store of 1 byte(s) (R105, R107). -/
def execSbG (i : Issue) (xd xa : Reg) (imm : BitVec 16) (s : State) : Host.Outcome State Fault Refusal :=
  .next (s.globalStore i 0x2C xd xa imm 1)

/-- Posted global store of 2 byte(s) (R105, R107). -/
def execShG (i : Issue) (xd xa : Reg) (imm : BitVec 16) (s : State) : Host.Outcome State Fault Refusal :=
  .next (s.globalStore i 0x2D xd xa imm 2)

/-- Posted global store of 4 byte(s) (R105, R107). -/
def execSwG (i : Issue) (xd xa : Reg) (imm : BitVec 16) (s : State) : Host.Outcome State Fault Refusal :=
  .next (s.globalStore i 0x2E xd xa imm 4)

/-- Posted global store of 8 byte(s) (R105, R107). -/
def execSdG (i : Issue) (xd xa : Reg) (imm : BitVec 16) (s : State) : Host.Outcome State Fault Refusal :=
  .next (s.globalStore i 0x2F xd xa imm 8)

/-- Local atomic ADD returning the old value (R110). -/
def execAmoLAdd (i : Issue) (xd xa xb : Reg) (s : State) : Host.Outcome State Fault Refusal :=
  .next (s.localAtomic i .add xd xa xb)

/-- Local atomic AND returning the old value (R110). -/
def execAmoLAnd (i : Issue) (xd xa xb : Reg) (s : State) : Host.Outcome State Fault Refusal :=
  .next (s.localAtomic i .and xd xa xb)

/-- Local atomic OR returning the old value (R110). -/
def execAmoLOr (i : Issue) (xd xa xb : Reg) (s : State) : Host.Outcome State Fault Refusal :=
  .next (s.localAtomic i .or xd xa xb)

/-- Local atomic XOR returning the old value (R110). -/
def execAmoLXor (i : Issue) (xd xa xb : Reg) (s : State) : Host.Outcome State Fault Refusal :=
  .next (s.localAtomic i .xor xd xa xb)

/-- Local atomic SWAP returning the old value (R110). -/
def execAmoLSwap (i : Issue) (xd xa xb : Reg) (s : State) : Host.Outcome State Fault Refusal :=
  .next (s.localAtomic i .swap xd xa xb)

/-- Local atomic CAS returning the old value (R110). -/
def execAmoLCas (i : Issue) (xd xa xb : Reg) (s : State) : Host.Outcome State Fault Refusal :=
  .next (s.localAtomic i .cas xd xa xb)

/-- Local atomic MIN returning the old value (R110). -/
def execAmoLMin (i : Issue) (xd xa xb : Reg) (s : State) : Host.Outcome State Fault Refusal :=
  .next (s.localAtomic i .min xd xa xb)

/-- Local atomic MAX returning the old value (R110). -/
def execAmoLMax (i : Issue) (xd xa xb : Reg) (s : State) : Host.Outcome State Fault Refusal :=
  .next (s.localAtomic i .max xd xa xb)

/-- Local atomic MINU returning the old value (R110). -/
def execAmoLMinu (i : Issue) (xd xa xb : Reg) (s : State) : Host.Outcome State Fault Refusal :=
  .next (s.localAtomic i .minu xd xa xb)

/-- Local atomic MAXU returning the old value (R110). -/
def execAmoLMaxu (i : Issue) (xd xa xb : Reg) (s : State) : Host.Outcome State Fault Refusal :=
  .next (s.localAtomic i .maxu xd xa xb)

/-- Global atomic ADD returning the old value (R110). -/
def execAmoGAdd (i : Issue) (xd xa xb : Reg) (s : State) : Host.Outcome State Fault Refusal :=
  .next (s.globalAtomic i .add xd xa xb)

/-- Global atomic AND returning the old value (R110). -/
def execAmoGAnd (i : Issue) (xd xa xb : Reg) (s : State) : Host.Outcome State Fault Refusal :=
  .next (s.globalAtomic i .and xd xa xb)

/-- Global atomic OR returning the old value (R110). -/
def execAmoGOr (i : Issue) (xd xa xb : Reg) (s : State) : Host.Outcome State Fault Refusal :=
  .next (s.globalAtomic i .or xd xa xb)

/-- Global atomic XOR returning the old value (R110). -/
def execAmoGXor (i : Issue) (xd xa xb : Reg) (s : State) : Host.Outcome State Fault Refusal :=
  .next (s.globalAtomic i .xor xd xa xb)

/-- Global atomic SWAP returning the old value (R110). -/
def execAmoGSwap (i : Issue) (xd xa xb : Reg) (s : State) : Host.Outcome State Fault Refusal :=
  .next (s.globalAtomic i .swap xd xa xb)

/-- Global atomic CAS returning the old value (R110). -/
def execAmoGCas (i : Issue) (xd xa xb : Reg) (s : State) : Host.Outcome State Fault Refusal :=
  .next (s.globalAtomic i .cas xd xa xb)

/-- Global atomic MIN returning the old value (R110). -/
def execAmoGMin (i : Issue) (xd xa xb : Reg) (s : State) : Host.Outcome State Fault Refusal :=
  .next (s.globalAtomic i .min xd xa xb)

/-- Global atomic MAX returning the old value (R110). -/
def execAmoGMax (i : Issue) (xd xa xb : Reg) (s : State) : Host.Outcome State Fault Refusal :=
  .next (s.globalAtomic i .max xd xa xb)

/-- Global atomic MINU returning the old value (R110). -/
def execAmoGMinu (i : Issue) (xd xa xb : Reg) (s : State) : Host.Outcome State Fault Refusal :=
  .next (s.globalAtomic i .minu xd xa xb)

/-- Global atomic MAXU returning the old value (R110). -/
def execAmoGMaxu (i : Issue) (xd xa xb : Reg) (s : State) : Host.Outcome State Fault Refusal :=
  .next (s.globalAtomic i .maxu xd xa xb)

end Sys2Proof.Machine
end

