-- ==== Sys2Proof/Machine/Scalar.lean ====
section
/-! DEFINITION. Integer instructions and branches (R97 to R103). -/
namespace Sys2Proof.Machine

/-- Adds the sign-extended immediate (R97). -/
def execAddi (i : Issue) (xd xa : Reg) (imm : BitVec 16) (s : State) : Host.Outcome State Fault Refusal :=
  .next (s.result i (wordI 0x02 xd xa imm) xd fun c => c.x xa + sext16 imm)

/-- ANDs with the zero-extended immediate (R97). -/
def execAndi (i : Issue) (xd xa : Reg) (imm : BitVec 16) (s : State) : Host.Outcome State Fault Refusal :=
  .next (s.result i (wordI 0x03 xd xa imm) xd fun c => c.x xa &&& zext16 imm)

/-- ORs with the zero-extended immediate (R97). -/
def execOri (i : Issue) (xd xa : Reg) (imm : BitVec 16) (s : State) : Host.Outcome State Fault Refusal :=
  .next (s.result i (wordI 0x04 xd xa imm) xd fun c => c.x xa ||| zext16 imm)

/-- XORs with the zero-extended immediate (R97). -/
def execXori (i : Issue) (xd xa : Reg) (imm : BitVec 16) (s : State) : Host.Outcome State Fault Refusal :=
  .next (s.result i (wordI 0x05 xd xa imm) xd fun c => c.x xa ^^^ zext16 imm)

/-- 1 if XA is less than the immediate, signed (R98). -/
def execSlti (i : Issue) (xd xa : Reg) (imm : BitVec 16) (s : State) : Host.Outcome State Fault Refusal :=
  .next (s.result i (wordI 0x06 xd xa imm) xd fun c => boolWord ((c.x xa).slt (sext16 imm)))

/-- 1 if XA is less than the sign-extended immediate, unsigned (R97, R98). -/
def execSltiu (i : Issue) (xd xa : Reg) (imm : BitVec 16) (s : State) : Host.Outcome State Fault Refusal :=
  .next (s.result i (wordI 0x07 xd xa imm) xd fun c => boolWord ((c.x xa).ult (sext16 imm)))

/-- Shifts left by IMM16 bits 5:0 (R97). -/
def execSlli (i : Issue) (xd xa : Reg) (imm : BitVec 16) (s : State) : Host.Outcome State Fault Refusal :=
  .next (s.result i (wordI 0x08 xd xa imm) xd fun c => c.x xa <<< (imm.toNat % 64))

/-- Shifts right with zero fill by IMM16 bits 5:0 (R97). -/
def execSrli (i : Issue) (xd xa : Reg) (imm : BitVec 16) (s : State) : Host.Outcome State Fault Refusal :=
  .next (s.result i (wordI 0x09 xd xa imm) xd fun c => c.x xa >>> (imm.toNat % 64))

/-- Shifts right with sign fill by IMM16 bits 5:0 (R97). -/
def execSrai (i : Issue) (xd xa : Reg) (imm : BitVec 16) (s : State) : Host.Outcome State Fault Refusal :=
  .next (s.result i (wordI 0x0A xd xa imm) xd fun c => (c.x xa).sshiftRight (imm.toNat % 64))

/-- XA shifted left by 16, OR the zero-extended immediate (R98). -/
def execShlor (i : Issue) (xd xa : Reg) (imm : BitVec 16) (s : State) : Host.Outcome State Fault Refusal :=
  .next (s.result i (wordI 0x0C xd xa imm) xd fun c => (c.x xa <<< 16) ||| zext16 imm)

/-- The sign-extended IMM21 shifted left by 16 (R98). -/
def execLui (i : Issue) (xd : Reg) (imm : BitVec 21) (s : State) : Host.Outcome State Fault Refusal :=
  .next (s.result i (wordU 0x0B xd imm) xd fun _ => imm.signExtend 64 <<< 16)

/-- Signed division truncated toward zero: all ones by zero, −2⁶³ of −2⁶³ by −1 (R99, R100). -/
def divSigned (a b : Word) : Word := if b = 0 then BitVec.allOnes 64 else a.sdiv b
/-- Unsigned division: all ones by zero (R100). -/
def divUnsigned (a b : Word) : Word := if b = 0 then BitVec.allOnes 64 else a.udiv b
/-- Signed remainder with the sign of XA: XA by zero (R99, R100). -/
def remSigned (a b : Word) : Word := if b = 0 then a else a.srem b
/-- Unsigned remainder: XA by zero (R100). -/
def remUnsigned (a b : Word) : Word := if b = 0 then a else a.umod b
/-- High 64 bits of the signed product. -/
def mulHigh (a b : Word) : Word := ((a.signExtend 128 * b.signExtend 128) >>> 64).truncate 64
/-- High 64 bits of the unsigned product. -/
def mulHighUnsigned (a b : Word) : Word := ((a.zeroExtend 128 * b.zeroExtend 128) >>> 64).truncate 64
/-- Zero bits above the highest one bit, 64 for zero. -/
def leadingZeros (a : Word) : Word := BitVec.ofNat 64 (if a = 0 then 64 else 63 - a.toNat.log2)
/-- Zero bits below the lowest one bit, 64 for zero. -/
def trailingZeros (a : Word) : Word := BitVec.ofNat 64 (((List.range 64).find? fun j => a.getLsbD j).getD 64)
/-- Number of one bits. -/
def onesCount (a : Word) : Word := BitVec.ofNat 64 ((List.range 64).filter fun j => a.getLsbD j).length

/-- XD receives XA + XB (R99). -/
def execAdd (i : Issue) (xd xa xb : Reg) (s : State) : Host.Outcome State Fault Refusal :=
  .next (s.result i (wordR 0x01 xd xa xb 0x00) xd fun c => c.x xa + c.x xb)

/-- XD receives XA − XB (R99). -/
def execSub (i : Issue) (xd xa xb : Reg) (s : State) : Host.Outcome State Fault Refusal :=
  .next (s.result i (wordR 0x01 xd xa xb 0x01) xd fun c => c.x xa - c.x xb)

/-- XD receives XA AND XB (R99). -/
def execAnd (i : Issue) (xd xa xb : Reg) (s : State) : Host.Outcome State Fault Refusal :=
  .next (s.result i (wordR 0x01 xd xa xb 0x02) xd fun c => c.x xa &&& c.x xb)

/-- XD receives XA OR XB (R99). -/
def execOr (i : Issue) (xd xa xb : Reg) (s : State) : Host.Outcome State Fault Refusal :=
  .next (s.result i (wordR 0x01 xd xa xb 0x03) xd fun c => c.x xa ||| c.x xb)

/-- XD receives XA XOR XB (R99). -/
def execXor (i : Issue) (xd xa xb : Reg) (s : State) : Host.Outcome State Fault Refusal :=
  .next (s.result i (wordR 0x01 xd xa xb 0x04) xd fun c => c.x xa ^^^ c.x xb)

/-- XD receives XA shifted left by the low 6 bits of XB (R99). -/
def execSll (i : Issue) (xd xa xb : Reg) (s : State) : Host.Outcome State Fault Refusal :=
  .next (s.result i (wordR 0x01 xd xa xb 0x05) xd fun c => c.x xa <<< ((c.x xb).toNat % 64))

/-- XD receives XA shifted right with zero fill (R99). -/
def execSrl (i : Issue) (xd xa xb : Reg) (s : State) : Host.Outcome State Fault Refusal :=
  .next (s.result i (wordR 0x01 xd xa xb 0x06) xd fun c => c.x xa >>> ((c.x xb).toNat % 64))

/-- XD receives XA shifted right with sign fill (R99). -/
def execSra (i : Issue) (xd xa xb : Reg) (s : State) : Host.Outcome State Fault Refusal :=
  .next (s.result i (wordR 0x01 xd xa xb 0x07) xd fun c => (c.x xa).sshiftRight ((c.x xb).toNat % 64))

/-- XD receives 1 if XA < XB signed (R99). -/
def execSlt (i : Issue) (xd xa xb : Reg) (s : State) : Host.Outcome State Fault Refusal :=
  .next (s.result i (wordR 0x01 xd xa xb 0x08) xd fun c => boolWord ((c.x xa).slt (c.x xb)))

/-- XD receives 1 if XA < XB unsigned (R99). -/
def execSltu (i : Issue) (xd xa xb : Reg) (s : State) : Host.Outcome State Fault Refusal :=
  .next (s.result i (wordR 0x01 xd xa xb 0x09) xd fun c => boolWord ((c.x xa).ult (c.x xb)))

/-- XD receives the signed minimum (R99). -/
def execMin (i : Issue) (xd xa xb : Reg) (s : State) : Host.Outcome State Fault Refusal :=
  .next (s.result i (wordR 0x01 xd xa xb 0x0A) xd fun c => if (c.x xa).slt (c.x xb) then c.x xa else c.x xb)

/-- XD receives the signed maximum (R99). -/
def execMax (i : Issue) (xd xa xb : Reg) (s : State) : Host.Outcome State Fault Refusal :=
  .next (s.result i (wordR 0x01 xd xa xb 0x0B) xd fun c => if (c.x xa).slt (c.x xb) then c.x xb else c.x xa)

/-- XD receives the unsigned minimum (R99). -/
def execMinu (i : Issue) (xd xa xb : Reg) (s : State) : Host.Outcome State Fault Refusal :=
  .next (s.result i (wordR 0x01 xd xa xb 0x0C) xd fun c => if (c.x xa).ult (c.x xb) then c.x xa else c.x xb)

/-- XD receives the unsigned maximum (R99). -/
def execMaxu (i : Issue) (xd xa xb : Reg) (s : State) : Host.Outcome State Fault Refusal :=
  .next (s.result i (wordR 0x01 xd xa xb 0x0D) xd fun c => if (c.x xa).ult (c.x xb) then c.x xb else c.x xa)

/-- XD receives the low 64 bits of XA × XB (R99). -/
def execMul (i : Issue) (xd xa xb : Reg) (s : State) : Host.Outcome State Fault Refusal :=
  .next (s.result i (wordR 0x01 xd xa xb 0x10) xd fun c => c.x xa * c.x xb)

/-- XD receives the high 64 bits, signed (R99). -/
def execMulh (i : Issue) (xd xa xb : Reg) (s : State) : Host.Outcome State Fault Refusal :=
  .next (s.result i (wordR 0x01 xd xa xb 0x11) xd fun c => mulHigh (c.x xa) (c.x xb))

/-- XD receives the high 64 bits, unsigned (R99). -/
def execMulhu (i : Issue) (xd xa xb : Reg) (s : State) : Host.Outcome State Fault Refusal :=
  .next (s.result i (wordR 0x01 xd xa xb 0x12) xd fun c => mulHighUnsigned (c.x xa) (c.x xb))

/-- XD receives XA ÷ XB, signed (R100) (R99). -/
def execDiv (i : Issue) (xd xa xb : Reg) (s : State) : Host.Outcome State Fault Refusal :=
  .next (s.result i (wordR 0x01 xd xa xb 0x14) xd fun c => divSigned (c.x xa) (c.x xb))

/-- XD receives XA ÷ XB, unsigned (R100) (R99). -/
def execDivu (i : Issue) (xd xa xb : Reg) (s : State) : Host.Outcome State Fault Refusal :=
  .next (s.result i (wordR 0x01 xd xa xb 0x15) xd fun c => divUnsigned (c.x xa) (c.x xb))

/-- XD receives the signed remainder (R100) (R99). -/
def execRem (i : Issue) (xd xa xb : Reg) (s : State) : Host.Outcome State Fault Refusal :=
  .next (s.result i (wordR 0x01 xd xa xb 0x16) xd fun c => remSigned (c.x xa) (c.x xb))

/-- XD receives the unsigned remainder (R100) (R99). -/
def execRemu (i : Issue) (xd xa xb : Reg) (s : State) : Host.Outcome State Fault Refusal :=
  .next (s.result i (wordR 0x01 xd xa xb 0x17) xd fun c => remUnsigned (c.x xa) (c.x xb))

/-- XD receives the leading zeros of XA (R99). -/
def execClz (i : Issue) (xd xa xb : Reg) (s : State) : Host.Outcome State Fault Refusal :=
  .next (s.result i (wordR 0x01 xd xa xb 0x18) xd fun c => leadingZeros (c.x xa))

/-- XD receives the trailing zeros of XA (R99). -/
def execCtz (i : Issue) (xd xa xb : Reg) (s : State) : Host.Outcome State Fault Refusal :=
  .next (s.result i (wordR 0x01 xd xa xb 0x19) xd fun c => trailingZeros (c.x xa))

/-- XD receives the number of one bits in XA (R99). -/
def execPopc (i : Issue) (xd xa xb : Reg) (s : State) : Host.Outcome State Fault Refusal :=
  .next (s.result i (wordR 0x01 xd xa xb 0x1A) xd fun c => onesCount (c.x xa))

/-- Branches when XA and XB compare equal (R102). -/
def execBeq (i : Issue) (xa xb : Reg) (off : BitVec 16) (s : State) : Host.Outcome State Fault Refusal :=
  .next (s.branch i 0x10 xa xb off fun a b => a == b)

/-- Branches when XA and XB compare different (R102). -/
def execBne (i : Issue) (xa xb : Reg) (off : BitVec 16) (s : State) : Host.Outcome State Fault Refusal :=
  .next (s.branch i 0x11 xa xb off fun a b => a != b)

/-- Branches when XA and XB compare less, signed (R102). -/
def execBlt (i : Issue) (xa xb : Reg) (off : BitVec 16) (s : State) : Host.Outcome State Fault Refusal :=
  .next (s.branch i 0x12 xa xb off fun a b => a.slt b)

/-- Branches when XA and XB compare not less, signed (R102). -/
def execBge (i : Issue) (xa xb : Reg) (off : BitVec 16) (s : State) : Host.Outcome State Fault Refusal :=
  .next (s.branch i 0x13 xa xb off fun a b => !a.slt b)

/-- Branches when XA and XB compare less, unsigned (R102). -/
def execBltu (i : Issue) (xa xb : Reg) (off : BitVec 16) (s : State) : Host.Outcome State Fault Refusal :=
  .next (s.branch i 0x14 xa xb off fun a b => a.ult b)

/-- Branches when XA and XB compare not less, unsigned (R102). -/
def execBgeu (i : Issue) (xa xb : Reg) (off : BitVec 16) (s : State) : Host.Outcome State Fault Refusal :=
  .next (s.branch i 0x15 xa xb off fun a b => !a.ult b)

/-- Writes PC + 4 into XD and jumps to PC + IMM21 × 4 (R102). -/
def execJal (i : Issue) (xd : Reg) (imm : BitVec 21) (s : State) : Host.Outcome State Fault Refusal :=
  .next (s.issue i (wordU 0x16 xd imm) fun s => s.updCtx i.core i.ctx fun c =>
    (c.setX xd (BitVec.ofNat 64 (c.pc.toNat + 4))).goto (c.pc.zeroExtend 64 + jumpOffset imm))

/-- Writes PC + 4 into XD and jumps to XA + IMM16, XA read first; a target that is not a multiple of 4 faults (R102,
R131). A jump is no memory access, and the spec does not say what ADDRESS its record holds: the model enters the target (assumption 73,
DESIGN CHOICE). -/
def execJalr (i : Issue) (xd xa : Reg) (imm : BitVec 16) (s : State) : Host.Outcome State Fault Refusal :=
  .next (s.issue i (wordI 0x17 xd xa imm) fun s =>
    let c := s.ctx i.core i.ctx
    let target := c.x xa + sext16 imm
    if target.toNat % 4 ≠ 0 then s.faultAt i.core i.ctx causeMisaligned 0x08 target.toNat
    else s.setCtx i.core i.ctx ((c.setX xd (BitVec.ofNat 64 (c.pc.toNat + 4))).goto target))

end Sys2Proof.Machine
end

