-- ==== Sys2Proof/Machine/Dispatch.lean ====
section
/-! DEFINITION. The meaning of each command, one arm per row of the opcode table. -/
namespace Sys2Proof.Machine

def exec (i : Instr) (s : State) : Host.Outcome State Fault Refusal :=
  match i with
  | .heartbeat => Sys2Proof.Machine.execHeartbeat s
  | .stewardTakeover => Sys2Proof.Machine.execStewardTakeover s
  | .stewardLost => Sys2Proof.Machine.execStewardLost s
  | .mgmtRingSegmentFail segment => Sys2Proof.Machine.execMgmtRingSegmentFail segment s
  | .stretchRequest core level value => Sys2Proof.Machine.execStretchRequest core level value s
  | .paceWindow field count => Sys2Proof.Machine.execPaceWindow field count s
  | .linkPaceWindow tower slowest => Sys2Proof.Machine.execLinkPaceWindow tower slowest s
  | .paceHostTargetWrite value => Sys2Proof.Machine.execPaceHostTargetWrite value s
  | .addi iss xd xa imm => Sys2Proof.Machine.execAddi iss xd xa imm s
  | .andi iss xd xa imm => Sys2Proof.Machine.execAndi iss xd xa imm s
  | .ori iss xd xa imm => Sys2Proof.Machine.execOri iss xd xa imm s
  | .xori iss xd xa imm => Sys2Proof.Machine.execXori iss xd xa imm s
  | .slti iss xd xa imm => Sys2Proof.Machine.execSlti iss xd xa imm s
  | .sltiu iss xd xa imm => Sys2Proof.Machine.execSltiu iss xd xa imm s
  | .slli iss xd xa imm => Sys2Proof.Machine.execSlli iss xd xa imm s
  | .srli iss xd xa imm => Sys2Proof.Machine.execSrli iss xd xa imm s
  | .srai iss xd xa imm => Sys2Proof.Machine.execSrai iss xd xa imm s
  | .lui iss xd imm => Sys2Proof.Machine.execLui iss xd imm s
  | .shlor iss xd xa imm => Sys2Proof.Machine.execShlor iss xd xa imm s
  | .add iss xd xa xb => Sys2Proof.Machine.execAdd iss xd xa xb s
  | .sub iss xd xa xb => Sys2Proof.Machine.execSub iss xd xa xb s
  | .and iss xd xa xb => Sys2Proof.Machine.execAnd iss xd xa xb s
  | .or iss xd xa xb => Sys2Proof.Machine.execOr iss xd xa xb s
  | .xor iss xd xa xb => Sys2Proof.Machine.execXor iss xd xa xb s
  | .sll iss xd xa xb => Sys2Proof.Machine.execSll iss xd xa xb s
  | .srl iss xd xa xb => Sys2Proof.Machine.execSrl iss xd xa xb s
  | .sra iss xd xa xb => Sys2Proof.Machine.execSra iss xd xa xb s
  | .slt iss xd xa xb => Sys2Proof.Machine.execSlt iss xd xa xb s
  | .sltu iss xd xa xb => Sys2Proof.Machine.execSltu iss xd xa xb s
  | .min iss xd xa xb => Sys2Proof.Machine.execMin iss xd xa xb s
  | .max iss xd xa xb => Sys2Proof.Machine.execMax iss xd xa xb s
  | .minu iss xd xa xb => Sys2Proof.Machine.execMinu iss xd xa xb s
  | .maxu iss xd xa xb => Sys2Proof.Machine.execMaxu iss xd xa xb s
  | .mul iss xd xa xb => Sys2Proof.Machine.execMul iss xd xa xb s
  | .mulh iss xd xa xb => Sys2Proof.Machine.execMulh iss xd xa xb s
  | .mulhu iss xd xa xb => Sys2Proof.Machine.execMulhu iss xd xa xb s
  | .div iss xd xa xb => Sys2Proof.Machine.execDiv iss xd xa xb s
  | .divu iss xd xa xb => Sys2Proof.Machine.execDivu iss xd xa xb s
  | .rem iss xd xa xb => Sys2Proof.Machine.execRem iss xd xa xb s
  | .remu iss xd xa xb => Sys2Proof.Machine.execRemu iss xd xa xb s
  | .clz iss xd xa xb => Sys2Proof.Machine.execClz iss xd xa xb s
  | .ctz iss xd xa xb => Sys2Proof.Machine.execCtz iss xd xa xb s
  | .popc iss xd xa xb => Sys2Proof.Machine.execPopc iss xd xa xb s
  | .fadd iss xd xa xb => Sys2Proof.Machine.execFadd iss xd xa xb s
  | .fsub iss xd xa xb => Sys2Proof.Machine.execFsub iss xd xa xb s
  | .fmul iss xd xa xb => Sys2Proof.Machine.execFmul iss xd xa xb s
  | .fmin iss xd xa xb => Sys2Proof.Machine.execFmin iss xd xa xb s
  | .fmax iss xd xa xb => Sys2Proof.Machine.execFmax iss xd xa xb s
  | .flt iss xd xa xb => Sys2Proof.Machine.execFlt iss xd xa xb s
  | .fle iss xd xa xb => Sys2Proof.Machine.execFle iss xd xa xb s
  | .feq iss xd xa xb => Sys2Proof.Machine.execFeq iss xd xa xb s
  | .fabs iss xd xa xb => Sys2Proof.Machine.execFabs iss xd xa xb s
  | .fneg iss xd xa xb => Sys2Proof.Machine.execFneg iss xd xa xb s
  | .cvt iss xd xa fn => Sys2Proof.Machine.execCvt iss xd xa fn s
  | .beq iss xa xb off => Sys2Proof.Machine.execBeq iss xa xb off s
  | .bne iss xa xb off => Sys2Proof.Machine.execBne iss xa xb off s
  | .blt iss xa xb off => Sys2Proof.Machine.execBlt iss xa xb off s
  | .bge iss xa xb off => Sys2Proof.Machine.execBge iss xa xb off s
  | .bltu iss xa xb off => Sys2Proof.Machine.execBltu iss xa xb off s
  | .bgeu iss xa xb off => Sys2Proof.Machine.execBgeu iss xa xb off s
  | .jal iss xd imm => Sys2Proof.Machine.execJal iss xd imm s
  | .jalr iss xd xa imm => Sys2Proof.Machine.execJalr iss xd xa imm s
  | .lbL iss xd xa imm => Sys2Proof.Machine.execLbL iss xd xa imm s
  | .lbuL iss xd xa imm => Sys2Proof.Machine.execLbuL iss xd xa imm s
  | .lhL iss xd xa imm => Sys2Proof.Machine.execLhL iss xd xa imm s
  | .lhuL iss xd xa imm => Sys2Proof.Machine.execLhuL iss xd xa imm s
  | .lwL iss xd xa imm => Sys2Proof.Machine.execLwL iss xd xa imm s
  | .lwuL iss xd xa imm => Sys2Proof.Machine.execLwuL iss xd xa imm s
  | .ldL iss xd xa imm => Sys2Proof.Machine.execLdL iss xd xa imm s
  | .lbG iss xd xa imm => Sys2Proof.Machine.execLbG iss xd xa imm s
  | .lbuG iss xd xa imm => Sys2Proof.Machine.execLbuG iss xd xa imm s
  | .lhG iss xd xa imm => Sys2Proof.Machine.execLhG iss xd xa imm s
  | .lhuG iss xd xa imm => Sys2Proof.Machine.execLhuG iss xd xa imm s
  | .lwG iss xd xa imm => Sys2Proof.Machine.execLwG iss xd xa imm s
  | .lwuG iss xd xa imm => Sys2Proof.Machine.execLwuG iss xd xa imm s
  | .ldG iss xd xa imm => Sys2Proof.Machine.execLdG iss xd xa imm s
  | .sbL iss xd xa imm => Sys2Proof.Machine.execSbL iss xd xa imm s
  | .shL iss xd xa imm => Sys2Proof.Machine.execShL iss xd xa imm s
  | .swL iss xd xa imm => Sys2Proof.Machine.execSwL iss xd xa imm s
  | .sdL iss xd xa imm => Sys2Proof.Machine.execSdL iss xd xa imm s
  | .sbG iss xd xa imm => Sys2Proof.Machine.execSbG iss xd xa imm s
  | .shG iss xd xa imm => Sys2Proof.Machine.execShG iss xd xa imm s
  | .swG iss xd xa imm => Sys2Proof.Machine.execSwG iss xd xa imm s
  | .sdG iss xd xa imm => Sys2Proof.Machine.execSdG iss xd xa imm s
  | .amoLAdd iss xd xa xb => Sys2Proof.Machine.execAmoLAdd iss xd xa xb s
  | .amoLAnd iss xd xa xb => Sys2Proof.Machine.execAmoLAnd iss xd xa xb s
  | .amoLOr iss xd xa xb => Sys2Proof.Machine.execAmoLOr iss xd xa xb s
  | .amoLXor iss xd xa xb => Sys2Proof.Machine.execAmoLXor iss xd xa xb s
  | .amoLSwap iss xd xa xb => Sys2Proof.Machine.execAmoLSwap iss xd xa xb s
  | .amoLCas iss xd xa xb => Sys2Proof.Machine.execAmoLCas iss xd xa xb s
  | .amoLMin iss xd xa xb => Sys2Proof.Machine.execAmoLMin iss xd xa xb s
  | .amoLMax iss xd xa xb => Sys2Proof.Machine.execAmoLMax iss xd xa xb s
  | .amoLMinu iss xd xa xb => Sys2Proof.Machine.execAmoLMinu iss xd xa xb s
  | .amoLMaxu iss xd xa xb => Sys2Proof.Machine.execAmoLMaxu iss xd xa xb s
  | .amoGAdd iss xd xa xb => Sys2Proof.Machine.execAmoGAdd iss xd xa xb s
  | .amoGAnd iss xd xa xb => Sys2Proof.Machine.execAmoGAnd iss xd xa xb s
  | .amoGOr iss xd xa xb => Sys2Proof.Machine.execAmoGOr iss xd xa xb s
  | .amoGXor iss xd xa xb => Sys2Proof.Machine.execAmoGXor iss xd xa xb s
  | .amoGSwap iss xd xa xb => Sys2Proof.Machine.execAmoGSwap iss xd xa xb s
  | .amoGCas iss xd xa xb => Sys2Proof.Machine.execAmoGCas iss xd xa xb s
  | .amoGMin iss xd xa xb => Sys2Proof.Machine.execAmoGMin iss xd xa xb s
  | .amoGMax iss xd xa xb => Sys2Proof.Machine.execAmoGMax iss xd xa xb s
  | .amoGMinu iss xd xa xb => Sys2Proof.Machine.execAmoGMinu iss xd xa xb s
  | .amoGMaxu iss xd xa xb => Sys2Proof.Machine.execAmoGMaxu iss xd xa xb s
  | .dma iss xd xa wc w => Sys2Proof.Machine.execDma iss xd xa wc w s
  | .tile iss xd xa xb wc w sub => Sys2Proof.Machine.execTile iss xd xa xb wc w sub s
  | .vadd iss xd xa xb => Sys2Proof.Machine.execVadd iss xd xa xb s
  | .vsub iss xd xa xb => Sys2Proof.Machine.execVsub iss xd xa xb s
  | .vmul iss xd xa xb => Sys2Proof.Machine.execVmul iss xd xa xb s
  | .vfma iss xd xa xb xc => Sys2Proof.Machine.execVfma iss xd xa xb xc s
  | .vmax iss xd xa xb => Sys2Proof.Machine.execVmax iss xd xa xb s
  | .vmin iss xd xa xb => Sys2Proof.Machine.execVmin iss xd xa xb s
  | .vabs iss xd xa => Sys2Proof.Machine.execVabs iss xd xa s
  | .vneg iss xd xa => Sys2Proof.Machine.execVneg iss xd xa s
  | .vscale iss xd xa xb => Sys2Proof.Machine.execVscale iss xd xa xb s
  | .vaxpy iss xd xa xb xc => Sys2Proof.Machine.execVaxpy iss xd xa xb xc s
  | .vexp iss xd xa => Sys2Proof.Machine.execVexp iss xd xa s
  | .vrecip iss xd xa => Sys2Proof.Machine.execVrecip iss xd xa s
  | .vrsqrt iss xd xa => Sys2Proof.Machine.execVrsqrt iss xd xa s
  | .vtanh iss xd xa => Sys2Proof.Machine.execVtanh iss xd xa s
  | .vsum iss xd xa => Sys2Proof.Machine.execVsum iss xd xa s
  | .vmaxr iss xd xa => Sys2Proof.Machine.execVmaxr iss xd xa s
  | .vdot iss xd xa xb => Sys2Proof.Machine.execVdot iss xd xa xb s
  | .vsoftmax iss xd xa => Sys2Proof.Machine.execVsoftmax iss xd xa s
  | .vcmplt iss xd xa xb => Sys2Proof.Machine.execVcmplt iss xd xa xb s
  | .vsel iss xd xa xb xc => Sys2Proof.Machine.execVsel iss xd xa xb xc s
  | .vcvt iss xd xa => Sys2Proof.Machine.execVcvt iss xd xa s
  | .vwupd iss xd xa xb xc => Sys2Proof.Machine.execVwupd iss xd xa xb xc s
  | .vcopy iss xd xa => Sys2Proof.Machine.execVcopy iss xd xa s
  | .vfill iss xd xb => Sys2Proof.Machine.execVfill iss xd xb s
  | .syncAdd iss xd xa xb wc w => Sys2Proof.Machine.execSyncAdd iss xd xa xb wc w s
  | .syncWait iss xd xa => Sys2Proof.Machine.execSyncWait iss xd xa s
  | .syncRead iss xd xa => Sys2Proof.Machine.execSyncRead iss xd xa s
  | .syncArm iss xd xa xb wc w => Sys2Proof.Machine.execSyncArm iss xd xa xb wc w s
  | .quePush iss xd xa xb => Sys2Proof.Machine.execQuePush iss xd xa xb s
  | .queExit iss xb => Sys2Proof.Machine.execQueExit iss xb s
  | .waitc iss xd imm => Sys2Proof.Machine.execWaitc iss xd imm s
  | .fence iss imm => Sys2Proof.Machine.execFence iss imm s
  | .csrr iss xd imm => Sys2Proof.Machine.execCsrr iss xd imm s
  | .csrw iss xa imm => Sys2Proof.Machine.execCsrw iss xa imm s
  | .brk iss imm => Sys2Proof.Machine.execBrk iss imm s
  | .waitUnitRelease core ctx => Sys2Proof.Machine.execWaitUnitRelease core ctx s
  | .readRsp id remote => Sys2Proof.Machine.execReadRsp id remote s
  | .writeAck id remote => Sys2Proof.Machine.execWriteAck id remote s
  | .atomicRsp id remote => Sys2Proof.Machine.execAtomicRsp id remote s
  | .taskComplete core ctx => Sys2Proof.Machine.execTaskComplete core ctx s
  | .contextRelease value => Sys2Proof.Machine.execContextRelease value s
  | .contextKill value => Sys2Proof.Machine.execContextKill value s
  | .vectorOpStart core => Sys2Proof.Machine.execVectorOpStart core s
  | .vectorOpComplete core => Sys2Proof.Machine.execVectorOpComplete core s
  | .tileHoldEnd core array => Sys2Proof.Machine.execTileHoldEnd core array s
  | .tileStart core array => Sys2Proof.Machine.execTileStart core array s
  | .tilePassEnd core array faults => Sys2Proof.Machine.execTilePassEnd core array faults s
  | .tileOperandFail core array => Sys2Proof.Machine.execTileOperandFail core array s
  | .rampStep field => Sys2Proof.Machine.execRampStep field s
  | .gooseRecompute core array => Sys2Proof.Machine.execGooseRecompute core array s
  | .gooseWaitExpiry core array => Sys2Proof.Machine.execGooseWaitExpiry core array s
  | .gooseSeedWrite value => Sys2Proof.Machine.execGooseSeedWrite value s
  | .numericClear value => Sys2Proof.Machine.execNumericClear value s
  | .standbyStewardFailed => Sys2Proof.Machine.execStandbyStewardFailed s
  | .doorbell queue bytes offset value => Sys2Proof.Machine.execDoorbell queue bytes offset value s
  | .qcbWrite queue word value low high => Sys2Proof.Machine.execQcbWrite queue word value low high s
  | .resetIndices queue => Sys2Proof.Machine.execResetIndices queue s
  | .flush queue => Sys2Proof.Machine.execFlush queue s
  | .dispatcherTake core => Sys2Proof.Machine.execDispatcherTake core s
  | .queueAged queue => Sys2Proof.Machine.execQueueAged queue s
  | .fieldForecast field => Sys2Proof.Machine.execFieldForecast field s
  | .windowInsert id => Sys2Proof.Machine.execWindowInsert id s
  | .commandChoose channel => Sys2Proof.Machine.execCommandChoose channel s
  | .dramReadData channel flips => Sys2Proof.Machine.execDramReadData channel flips s
  | .hashImbalWindow tower => Sys2Proof.Machine.execHashImbalWindow tower s
  | .hashImbalRepeat tower => Sys2Proof.Machine.execHashImbalRepeat tower s
  | .hashKeyWrite sub value => Sys2Proof.Machine.execHashKeyWrite sub value s
  | .readPacket read => Sys2Proof.Machine.execReadPacket read s
  | .writePacket id => Sys2Proof.Machine.execWritePacket id s
  | .atomicPacket id => Sys2Proof.Machine.execAtomicPacket id s
  | .refreshOwed field layer => Sys2Proof.Machine.execRefreshOwed field layer s
  | .henSeq core => Sys2Proof.Machine.execHenSeq core s
  | .vload channel => Sys2Proof.Machine.execVload channel s
  | .dot channel => Sys2Proof.Machine.execDot channel s
  | .kvscore channel => Sys2Proof.Machine.execKvscore channel s
  | .kvmix channel => Sys2Proof.Machine.execKvmix channel s
  | .chainsum channel => Sys2Proof.Machine.execChainsum channel s
  | .rowscale channel => Sys2Proof.Machine.execRowscale channel s
  | .rowaxpy channel => Sys2Proof.Machine.execRowaxpy channel s
  | .rowgather channel => Sys2Proof.Machine.execRowgather channel s
  | .henSegmentEnd channel => Sys2Proof.Machine.execHenSegmentEnd channel s
  | .chainHop channel => Sys2Proof.Machine.execChainHop channel s
  | .delivery channel => Sys2Proof.Machine.execDelivery channel s
  | .throttledTimeout channel => Sys2Proof.Machine.execThrottledTimeout channel s
  | .layerDutyWindow field => Sys2Proof.Machine.execLayerDutyWindow field s
  | .henHaltWrite value => Sys2Proof.Machine.execHenHaltWrite value s
  | .kvAppend core remote => Sys2Proof.Machine.execKvAppend core remote s
  | .kvAppendComplete channel => Sys2Proof.Machine.execKvAppendComplete channel s
  | .kvAnswer primary cont => Sys2Proof.Machine.execKvAnswer primary cont s
  | .kvAnswerTimeout channel => Sys2Proof.Machine.execKvAnswerTimeout channel s
  | .flitForward router output carried => Sys2Proof.Machine.execFlitForward router output carried s
  | .multicast core remote => Sys2Proof.Machine.execMulticast core remote s
  | .multicastComplete core => Sys2Proof.Machine.execMulticastComplete core s
  | .leaseAcquire id => Sys2Proof.Machine.execLeaseAcquire id s
  | .leaseRelease id => Sys2Proof.Machine.execLeaseRelease id s
  | .leaseForceRelease value => Sys2Proof.Machine.execLeaseForceRelease value s
  | .reduce core remote => Sys2Proof.Machine.execReduce core remote s
  | .redPartial lease router => Sys2Proof.Machine.execRedPartial lease router s
  | .fallbackMerge lease => Sys2Proof.Machine.execFallbackMerge lease s
  | .redDone lease remote => Sys2Proof.Machine.execRedDone lease remote s
  | .roundTimeout lease => Sys2Proof.Machine.execRoundTimeout lease s
  | .objectAdd id => Sys2Proof.Machine.execObjectAdd id s
  | .objectWait id => Sys2Proof.Machine.execObjectWait id s
  | .objectRead id => Sys2Proof.Machine.execObjectRead id s
  | .objectArm id => Sys2Proof.Machine.execObjectArm id s
  | .syncRsp id remote => Sys2Proof.Machine.execSyncRsp id remote s
  | .release cluster object remote => Sys2Proof.Machine.execRelease cluster object remote s
  | .syncReset value => Sys2Proof.Machine.execSyncReset value s
  | .copy core remote ack => Sys2Proof.Machine.execCopy core remote ack s
  | .skew core remote ack => Sys2Proof.Machine.execSkew core remote ack s
  | .fill core ack => Sys2Proof.Machine.execFill core ack s
  | .gather core remote ack => Sys2Proof.Machine.execGather core remote ack s
  | .dmaComplete core => Sys2Proof.Machine.execDmaComplete core s
  | .scrub core => Sys2Proof.Machine.execScrub core s
  | .scrubComplete channel => Sys2Proof.Machine.execScrubComplete channel s
  | .refetchComplete refetch => Sys2Proof.Machine.execRefetchComplete refetch s
  | .sramRerunStart cluster entry => Sys2Proof.Machine.execSramRerunStart cluster entry s
  | .rerunTimeout entry => Sys2Proof.Machine.execRerunTimeout entry s
  | .wbSuppressWrite tower bytes => Sys2Proof.Machine.execWbSuppressWrite tower bytes s
  | .wbLogClear tower value => Sys2Proof.Machine.execWbLogClear tower value s
  | .laneSuspectWindow channel => Sys2Proof.Machine.execLaneSuspectWindow channel s
  | .groupReform => Sys2Proof.Machine.execGroupReform s
  | .groupEnable value => Sys2Proof.Machine.execGroupEnable value s
  | .membership device => Sys2Proof.Machine.execMembership device s
  | .membershipWindowEnd => Sys2Proof.Machine.execMembershipWindowEnd s
  | .membershipRetry => Sys2Proof.Machine.execMembershipRetry s
  | .memberBitmap members => Sys2Proof.Machine.execMemberBitmap members s
  | .memberTimeout device => Sys2Proof.Machine.execMemberTimeout device s
  | .lglReqTimeout id => Sys2Proof.Machine.execLglReqTimeout id s
  | .portTrained port => Sys2Proof.Machine.execPortTrained port s
  | .identityFrame port device shape peer => Sys2Proof.Machine.execIdentityFrame port device shape peer s
  | .lglDataFrame port frame => Sys2Proof.Machine.execLglDataFrame port frame s
  | .lglIdleFrame port frame => Sys2Proof.Machine.execLglIdleFrame port frame s
  | .ackReport port own => Sys2Proof.Machine.execAckReport port own s
  | .lglReplayTimer port => Sys2Proof.Machine.execLglReplayTimer port s
  | .lglRetrain port trained => Sys2Proof.Machine.execLglRetrain port trained s
  | .groupLease number bytes fromHead others => Sys2Proof.Machine.execGroupLease number bytes fromHead others s
  | .groupMerge number children => Sys2Proof.Machine.execGroupMerge number children s
  | .paceRequestSend => Sys2Proof.Machine.execPaceRequestSend s
  | .paceRequest device value => Sys2Proof.Machine.execPaceRequest device value s
  | .bellwetherWindow => Sys2Proof.Machine.execBellwetherWindow s
  | .paceTarget target tick applyTick => Sys2Proof.Machine.execPaceTarget target tick applyTick s
  | .applyTick => Sys2Proof.Machine.execApplyTick s
  | .gtickEdge => Sys2Proof.Machine.execGtickEdge s
  | .gtickLoss => Sys2Proof.Machine.execGtickLoss s
  | .orphanTimeout => Sys2Proof.Machine.execOrphanTimeout s
  | .freezePacket source => Sys2Proof.Machine.execFreezePacket source s
  | .streamBind => Sys2Proof.Machine.execStreamBind s
  | .streamUnbind => Sys2Proof.Machine.execStreamUnbind s
  | .laneLock link => Sys2Proof.Machine.execLaneLock link s
  | .linkDeskewed link => Sys2Proof.Machine.execLinkDeskewed link s
  | .declare link frame => Sys2Proof.Machine.execDeclare link frame s
  | .hreqSwitch link => Sys2Proof.Machine.execHreqSwitch link s
  | .laneLockLoss link frame => Sys2Proof.Machine.execLaneLockLoss link frame s
  | .linkEnableWrite link value => Sys2Proof.Machine.execLinkEnableWrite link value s
  | .dataFrame link frame spoiled => Sys2Proof.Machine.execDataFrame link frame spoiled s
  | .slotWriteComplete link => Sys2Proof.Machine.execSlotWriteComplete link s
  | .pushRetry link => Sys2Proof.Machine.execPushRetry link s
  | .verdict link => Sys2Proof.Machine.execVerdict link s
  | .deadlineExpiry link => Sys2Proof.Machine.execDeadlineExpiry link s
  | .holdStateTimer => Sys2Proof.Machine.execHoldStateTimer s
  | .powerSample samples inputs => Sys2Proof.Machine.execPowerSample samples inputs s
  | .attribution tower accounts leak background => Sys2Proof.Machine.execAttribution tower accounts leak background s
  | .moduleCapWWrite value => Sys2Proof.Machine.execModuleCapWWrite value s
  | .towerCapWWrite tower value => Sys2Proof.Machine.execTowerCapWWrite tower value s
  | .fieldCapMwWrite field value => Sys2Proof.Machine.execFieldCapMwWrite field value s
  | .fieldTurnOn field => Sys2Proof.Machine.execFieldTurnOn field s
  | .neighbourWaitEnd field => Sys2Proof.Machine.execNeighbourWaitEnd field s
  | .headerGroupClose field => Sys2Proof.Machine.execHeaderGroupClose field s
  | .turnOnSettled field => Sys2Proof.Machine.execTurnOnSettled field s
  | .turnOnFail field => Sys2Proof.Machine.execTurnOnFail field s
  | .fieldTurnOff field => Sys2Proof.Machine.execFieldTurnOff field s
  | .headerOpen field => Sys2Proof.Machine.execHeaderOpen field s
  | .phaseFailure tower phase code => Sys2Proof.Machine.execPhaseFailure tower phase code s
  | .currentLimitEntry tower phase => Sys2Proof.Machine.execCurrentLimitEntry tower phase s
  | .powerFlagsWrite value => Sys2Proof.Machine.execPowerFlagsWrite value s
  | .thermalStep tower readings counts coolantLow => Sys2Proof.Machine.execThermalStep tower readings counts coolantLow s
  | .rthEstimate tower => Sys2Proof.Machine.execRthEstimate tower s
  | .thermalCapUpdate => Sys2Proof.Machine.execThermalCapUpdate s
  | .trayInletCWrite value => Sys2Proof.Machine.execTrayInletCWrite value s
  | .trayFlowLpmWrite value => Sys2Proof.Machine.execTrayFlowLpmWrite value s
  | .trayStale => Sys2Proof.Machine.execTrayStale s
  | .thermalResume value => Sys2Proof.Machine.execThermalResume value s
  | .shutdownRecover value => Sys2Proof.Machine.execShutdownRecover value s
  | .thermalFlagsWrite value => Sys2Proof.Machine.execThermalFlagsWrite value s
  | .coldBoot tableOk => Sys2Proof.Machine.execColdBoot tableOk s
  | .imageLoad savedOk => Sys2Proof.Machine.execImageLoad savedOk s
  | .channelInitComplete results => Sys2Proof.Machine.execChannelInitComplete results s
  | .fieldWave wave => Sys2Proof.Machine.execFieldWave wave s
  | .selfTestComplete field results => Sys2Proof.Machine.execSelfTestComplete field results s
  | .defectMapPublish => Sys2Proof.Machine.execDefectMapPublish s
  | .fieldReset value => Sys2Proof.Machine.execFieldReset value s
  | .towerReset value => Sys2Proof.Machine.execTowerReset value s
  | .computeSideReset value => Sys2Proof.Machine.execComputeSideReset value s
  | .resetOffHold field => Sys2Proof.Machine.execResetOffHold field s
  | .drain value => Sys2Proof.Machine.execDrain value s
  | .drainEnd field => Sys2Proof.Machine.execDrainEnd field s
  | .drainTimeout field => Sys2Proof.Machine.execDrainTimeout field s
  | .testQuick value => Sys2Proof.Machine.execTestQuick value s
  | .testFull value => Sys2Proof.Machine.execTestFull value s
  | .returnService value => Sys2Proof.Machine.execReturnService value s
  | .coreBypass value => Sys2Proof.Machine.execCoreBypass value s
  | .coreRestore value => Sys2Proof.Machine.execCoreRestore value s
  | .dramRowRepair bytes => Sys2Proof.Machine.execDramRowRepair bytes s
  | .laneRepair value => Sys2Proof.Machine.execLaneRepair value s
  | .repairStart => Sys2Proof.Machine.execRepairStart s
  | .repairTimeout => Sys2Proof.Machine.execRepairTimeout s
  | .functionLevelReset => Sys2Proof.Machine.execFunctionLevelReset s
  | .hotReset => Sys2Proof.Machine.execHotReset s
  | .pcieLinkDown => Sys2Proof.Machine.execPcieLinkDown s
  | .pwrGoodRise => Sys2Proof.Machine.execPwrGoodRise s
  | .pwrGoodFall => Sys2Proof.Machine.execPwrGoodFall s
  | .vin1v8Low => Sys2Proof.Machine.execVin1v8Low s
  | .vauxLoss => Sys2Proof.Machine.execVauxLoss s
  | .vauxRise => Sys2Proof.Machine.execVauxRise s
  | .resetNLow ns => Sys2Proof.Machine.execResetNLow ns s
  | .freeze value => Sys2Proof.Machine.execFreeze value s
  | .thaw value => Sys2Proof.Machine.execThaw value s
  | .freezeNLow ns => Sys2Proof.Machine.execFreezeNLow ns s
  | .freezeNHigh => Sys2Proof.Machine.execFreezeNHigh s
  | .freezeComplete => Sys2Proof.Machine.execFreezeComplete s
  | .captureData offset length => Sys2Proof.Machine.execCaptureData offset length s
  | .captureIdleExpiry channel => Sys2Proof.Machine.execCaptureIdleExpiry channel s
  | .extest bits => Sys2Proof.Machine.execExtest bits s
  | .samplePreload bits => Sys2Proof.Machine.execSamplePreload bits s
  | .idcode => Sys2Proof.Machine.execIdcode s
  | .capaddr address => Sys2Proof.Machine.execCapaddr address s
  | .capdata => Sys2Proof.Machine.execCapdata s
  | .bypass => Sys2Proof.Machine.execBypass s
  | .mbDoorbell => Sys2Proof.Machine.execMbDoorbell s
  | .mbStatusWrite value => Sys2Proof.Machine.execMbStatusWrite value s
  | .jopDatagram address port dst bytes => Sys2Proof.Machine.execJopDatagram address port dst bytes s
  | .forwardedRequest level bytes => Sys2Proof.Machine.execForwardedRequest level bytes s
  | .snapshotRead who idx sub snapId offset length => Sys2Proof.Machine.execSnapshotRead who idx sub snapId offset length s
  | .snapshotDiscard => Sys2Proof.Machine.execSnapshotDiscard s
  | .registerWrite who idx sub bytes => Sys2Proof.Machine.execRegisterWrite who idx sub bytes s
  | .rwsSaveDone => Sys2Proof.Machine.execRwsSaveDone s
  | .flashData who bytes => Sys2Proof.Machine.execFlashData who bytes s
  | .flashErase who value => Sys2Proof.Machine.execFlashErase who value s
  | .flashContent who offset length => Sys2Proof.Machine.execFlashContent who offset length s
  | .flashDone ok => Sys2Proof.Machine.execFlashDone ok s
  | .privUnlock who value => Sys2Proof.Machine.execPrivUnlock who value s
  | .privLock who value => Sys2Proof.Machine.execPrivLock who value s
  | .privTimeout => Sys2Proof.Machine.execPrivTimeout s
  | .unlockLockoutEnd => Sys2Proof.Machine.execUnlockLockoutEnd s
  | .replayExpiry => Sys2Proof.Machine.execReplayExpiry s
  | .eventMsixSend => Sys2Proof.Machine.execEventMsixSend s
  | .eventNoticeSend target => Sys2Proof.Machine.execEventNoticeSend target s
  | .eventPendingWrite value => Sys2Proof.Machine.execEventPendingWrite value s
  | .groupEventPendingWrite value => Sys2Proof.Machine.execGroupEventPendingWrite value s
  | .arpRequest senderMac senderIp targetIp => Sys2Proof.Machine.execArpRequest senderMac senderIp targetIp s
  | .icmpEcho address bytes => Sys2Proof.Machine.execIcmpEcho address bytes s
  | .ndpSolicitation source target => Sys2Proof.Machine.execNdpSolicitation source target s
  | .dhcpv4Message type address => Sys2Proof.Machine.execDhcpv4Message type address s
  | .sbLinkChange value => Sys2Proof.Machine.execSbLinkChange value s
  | .groupDoorbell device queue bytes offset value => Sys2Proof.Machine.execGroupDoorbell device queue bytes offset value s
  | .hostRead bar offset bytes tag => Sys2Proof.Machine.execHostRead bar offset bytes tag s
  | .hostWrite bar offset data => Sys2Proof.Machine.execHostWrite bar offset data s
  | .hostAtomic bar offset bytes op operand compare tag => Sys2Proof.Machine.execHostAtomic bar offset bytes op operand compare tag s
  | .hostCompletion id remote => Sys2Proof.Machine.execHostCompletion id remote s
  | .configRequest tag request => Sys2Proof.Machine.execConfigRequest tag request s
  | .winWrite window value => Sys2Proof.Machine.execWinWrite window value s
  | .notify device notice => Sys2Proof.Machine.execNotify device notice s
  | .pcieLinkTrained width rate => Sys2Proof.Machine.execPcieLinkTrained width rate s

end Sys2Proof.Machine
end

