-- ==== Sys2Proof/Machine/Tick.lean ====
section
/-! DEFINITION. The passing of time: one cycle of the 1.2 GHz reference on an empty queue of commands, and the procedure of a thaw
(R71, R425, R499, R671; assumption 68). -/
namespace Sys2Proof.Machine

/-- Each queue notes since when it has been eligible (R425). -/
def State.noteEligible (s : State) : State :=
  { s with queues := Map.mapVals {} s.queues fun q k =>
      { k with eligibleSince := if s.eligible q then some (k.eligibleSince.getD s.run) else none } }

/-- GROUP_TICK counts every 120 cycles from the reference while GTICK_LOST (R499). -/
def State.countTick (s : State) : State :=
  if s.reg 0x2210 6 = 1 && s.now % 120 = 0 then s.wrap64 0x2210 5 1 else s

/-- The tRAS, tRP and tRC timers of a bank that were running at the freeze have elapsed at the thaw, and a refresh that had issued was
completed (R283). -/
def BankTiming.thawed (k : BankTiming) (now : Nat) : BankTiming :=
  { k with activatedAt := min k.activatedAt now - tRC, prechargedAt := min k.prechargedAt now - tRP, busyUntil := min k.busyUntil now }

def State.thawBanks (s : State) : State :=
  { s with channels := s.channels.map fun e => (e.1, { e.2 with banks := Map.mapVals {} e.2.banks fun _ k => k.thawed s.run }) }

/-- What was held is applied, ramps of busy fields start (R184), and FREEZE_STATE becomes RUNNING (R671), in the second cycle after the last
source has cleared (assumption 94). -/
def State.endThaw (s : State) : State :=
  if s.reg 0xA001 3 ≠ 3 || s.now < s.capture.thawAt + 2 then s
  else
    let answers := s.heldAnswers
    let s := s.setReg 0xA001 3 0
    let s := answers.foldl (fun (s : State) a => s.takeAnswer a.1 a.2) { s with heldAnswers := [] }
    let s := s.settleBars.thawBanks
    let s := (List.range 64).foldl (fun (s : State) f =>
      if (s.field f).rampAtThaw then s.thawRamp f else s) s
    s.unbufferFrames.refreshHolds

/-- The bytes that the steward's verified image gives a line of its region: the corrected data; for a line that cannot be corrected the
spec gives no image, and its bytes are free values (R442; assumption 50). -/
def State.imageLine (s : State) (ch off : Nat) : List Byte :=
  let a := dramAddr ch off
  let stored := s.bytes a 64
  match classify (s.checkOf (a / 64)) with
  | .clean => stored
  | .corrected sym v => if sym < 64 then stored.set sym (stored.getD sym 0 ^^^ v) else stored
  | _ => (List.range 64).map fun i => Config.freeByte s.run (a + i)

/-- The steward rewrites a line of its region that the log shows and that has not been rewritten (R442). -/
def State.stewardRewrites (s : State) : State :=
  if !s.running || !s.steward.running || s.steward.lost then s
  else
    match s.mem.wbLog.find? fun e => e.2.kind != 0 && e.2.steward && !e.2.rewritten with
    | some (k, e) =>
      let ch := k / 64 * 2048 + e.channel.toNat
      s.writeDramLine ch e.offset.toNat (s.imageLine ch e.offset.toNat) false
    | none => s

/-- One cycle: `now` always counts, `run` outside a freeze. -/
def State.tick (s : State) : State :=
  let s := { s with now := s.now + 1, run := if s.running then s.run + 1 else s.run }
  s.countTick.noteEligible.stewardRewrites.endThaw

end Sys2Proof.Machine
end

