-- ==== Sys2Proof/Safety.lean ====
section
/-! DEFINITION. The terms in which the statements speak: when an issue is performed, what it leaves unchanged, and the invariants of
the state. -/
namespace Sys2Proof.Machine

/-! ### Instructions -/

/-- A line of SRAM passes its check, and no recovery of it for this reader is open (R449, R453). -/
def State.LineOk (s : State) (line : Nat) (who : Agent) : Prop :=
  s.crcOk line = true ∧ ∀ r ∈ s.mem.recoveries, ¬ (r.line = line ∧ r.reader = who)

/-- The stage performs the instruction that `w` spells: it selects the context on the beat (R87, R88), PC lies in the core store, the bank of
the word at PC is granted (R238) and its line passes its check (R131), and that word is assigned and spells the same instruction (R94 to R96). -/
structure State.Performs (s : State) (i : Issue) (w : Word32) : Prop where
  selected : s.selects i = true
  granted : s.fetchGranted i = true
  inStore : (s.ctx i.core i.ctx).pcBeyond = false
  fetched : s.LineOk (storeAddr i.core (s.ctx i.core i.ctx).pc.toNat / 64) (.fetch i.core i.ctx)
  assigned : assignedWord (s.wordAt i) = true
  spelled : sameWord (s.wordAt i) w = true

/-- The issuing context. -/
def State.at_ (s : State) (i : Issue) : Ctx := s.ctx i.core i.ctx

/-- `t` is `s` with the issuing context as `c`, the issue counted (R87, R88, R129, R141), and nothing else changed: no other context, no
unit or counter of any core, no memory, queue, request or dictionary entry. Which banks of the core store have had their beat (R238),
when the divider is free (R130) and what the core has counted for attribution (R551) are left open. -/
structure Issued (s t : State) (i : Issue) (c : Ctx) : Prop where
  context : t.at_ i = c
  contexts : ∀ k, k ≠ i.ctx → t.ctx i.core k = s.ctx i.core k
  core : t.core i.core = { s.core i.core with
    ctxs := (t.core i.core).ctxs
    beats := i.beat
    last0 := if (s.at_ i).issueClass then (s.core i.core).last0 else i.ctx
    last1 := if (s.at_ i).issueClass then i.ctx else (s.core i.core).last1
    readyAtIssue := ((s.core i.core).ctxs.filter fun e => e.1 != i.ctx && e.2.state == .ready).map (·.1)
    divider := (t.core i.core).divider
    banks := (t.core i.core).banks
    activity := (t.core i.core).activity
    spent := (t.core i.core).spent }
  cores : ∀ k, k ≠ i.core → t.core k = s.core k
  issued : t.reg 0xB010 (coreTower i.core + 1) = (s.reg 0xB010 (coreTower i.core + 1) + if (s.at_ i).counted then 0 else 1) % 2 ^ 64
  idle : t.reg 0xB011 (coreTower i.core + 1) =
    (s.reg 0xB011 (coreTower i.core + 1) + (i.beat - (s.core i.core).beats - 1)) % 2 ^ 64
  regs : ∀ idx sub, sub < 256 → ¬ (idx = 0xB010 ∧ sub = coreTower i.core + 1) →
    ¬ (idx = 0xB011 ∧ sub = coreTower i.core + 1) → t.reg idx sub = s.reg idx sub
  rest : t = { s with cores := t.cores, regs := t.regs }

/-- The marks that an issue leaves in its context: when it may issue again (R87), when its result can be used (R89, R130), and the word
(R136). -/
def Ctx.marked (c : Ctx) (s : State) (i : Issue) (w : Word32) : Ctx := c.issued (s.core i.core) i.beat w

/-- The context after an instruction that writes XD and goes on at PC + 4; an address at or beyond 0x4_0000 faults at the next
fetch (R131). -/
def Ctx.retired (c : Ctx) (s : State) (i : Issue) (w : Word32) (xd : Reg) (v : Word) : Ctx :=
  { (c.setX xd v).marked s i w with pc := BitVec.ofNat 18 (c.pc.toNat + 4), pcBeyond := decide (0x40000 ≤ c.pc.toNat + 4) }

/-- The context after a jump to `a`, with XD written. -/
def Ctx.jumped (c : Ctx) (s : State) (i : Issue) (w : Word32) (xd : Reg) (v a : Word) : Ctx :=
  { (c.setX xd v).marked s i w with pc := a.truncate 18, pcBeyond := decide (0x40000 ≤ a.toNat) }

/-- The bank of a local address has a beat for the scalar issue once the word is fetched (R238, R239). -/
def State.BankGranted (s : State) (i : Issue) (a : Word) : Prop :=
  ((s.account i (s.wordAt i)).bank i.core (storeBank a.toNat)).wins 0 s.now = true

/-- A local access of `n` bytes at `a` meets no check of R131, its bank grants it, and its line passes its check. -/
structure State.LocalOk (s : State) (i : Issue) (a : Word) (n : Nat) : Prop where
  aligned : a.toNat % n = 0
  inStore : a.toNat + n ≤ 0x40000
  granted : s.BankGranted i a
  line : s.LineOk (storeAddr i.core a.toNat / 64) (.thread i.core i.ctx)

/-- The command answers a next state, and that state is as said. -/
def Completes (c : Instr) (s : State) (P : State → Prop) : Prop := ∃ t, exec c s = .next t ∧ P t

/-- The command answers a next state in which the issuing context has gone on with `v` in XD, and all else is as in `u`. -/
def Retires (c : Instr) (s u : State) (i : Issue) (xd : Reg) (v : Word) : Prop :=
  Completes c s fun t => Issued u t i ((s.at_ i).retired s i (s.wordAt i) xd v)

/-- The context of a thread that a check has stopped (R131, R132): FAULTED while FAULT_HOLD reads 1, EXITING otherwise. -/
def Ctx.stopped (c : Ctx) (hold : Bool) (st : Status) : Ctx :=
  { c with state := if hold then .faulted else .exiting, wait := .none, ending := .fault st }

/-- The fault record of R133 for a fault on a beat entered in FAULT_LOG among those of its cycle (R134). -/
def State.faultLogged (s : State) (core ctx beat cause : Nat) (st : Status) (addr : Nat) (w : Word32) : State :=
  let c := s.ctx core ctx
  s.logFault core ctx beat (faultRecord (s.refTime (coreTower core)) addr w c.pc c.taskQueue ctx st cause)

/-- The command answers a next state in which the issuing thread has faulted with a cause, a status and an address, its record holding
the word at PC, and nothing else has happened. -/
def FaultsWith (c : Instr) (s : State) (i : Issue) (cause : Nat) (st : Status) (addr : Nat) : Prop :=
  Completes c s fun t => Issued (s.faultLogged i.core i.ctx i.beat cause st addr (s.wordAt i)) t i
    (((s.at_ i).marked s i (s.wordAt i)).stopped (s.reg 0xA111 1 == 1) st)

/-- The banks of the 64 bytes at a local address have a beat for the scalar issue once the word is fetched (R238, R239). -/
def State.DescriptorGranted (s : State) (i : Issue) (a : Word) : Prop :=
  ((s.account i (s.wordAt i)).takeBanks i.core 0 [a.toNat, a.toNat + 63]).1 = true

/-- The 64 bytes at a local address lie in the core store, their banks grant them, and their lines pass their check (R114, R131, R238). -/
structure State.DescriptorOk (s : State) (i : Issue) (a : Word) : Prop where
  inStore : a.toNat + 64 ≤ 0x40000
  granted : s.DescriptorGranted i a
  first : s.LineOk (storeAddr i.core a.toNat / 64) (.thread i.core i.ctx)
  last : a.toNat % 64 = 0 ∨ s.LineOk (storeAddr i.core (a.toNat + 63) / 64) (.thread i.core i.ctx)

/-- The issuing context once a unit has taken its command (R111, R112): with W = 0 it counts and goes on with 0 in XD; with W = 1 it
waits for the completion that names the token. -/
def Ctx.afterCommand (c : Ctx) (s : State) (i : Issue) (w : Word32) (token : Nat) (xd : Reg) (wc : BitVec 2) (wait : Bool) : Ctx :=
  if wait then (c.marked s i w).block .waitCmd (.command token xd)
  else (c.setCounter wc (c.counter wc + 1)).wake.retired s i w xd 0

/-- Where the completion of such a command goes. -/
def commandTarget (i : Issue) (token : Nat) (wc : BitVec 2) (wait : Bool) : Target :=
  if wait then .wait i.core i.ctx token else .counter i.core i.ctx wc

/-- Tokens given out. -/
def State.withTokens (s : State) (n : Nat) : State := { s with fresh := s.fresh + n }

/-! ### Units (R453, R708) -/

/-- What a unit does is settled: no line that it asked for is under way. -/
def State.Settled (t : State) (who : Agent) : Prop := ∀ r ∈ t.reqs, r.src = .unit who → t.underWay r = false

/-- Lines that units have asked for are under way, and none of them lies in the store of a core that serves them itself. -/
def State.Awaits (t : State) (whos : List Agent) : Prop :=
  (∃ r ∈ t.reqs, ∃ w ∈ whos, r.src = .unit w ∧ t.underWay r = true) ∧
    ∀ r ∈ t.reqs, ∀ w ∈ whos, r.src = .unit w → r.bankPlace = none

/-- `s` with the requests that `t` has made, and nothing else done. -/
def State.asking (s t : State) : State := { s with reqs := t.reqs, fresh := t.fresh, packets := t.packets }

/-- The unit has taken the lines that it asked for. -/
def State.linesTaken (t : State) (who : Agent) : State := { t with reqs := t.reqs.filter fun r => r.src != .unit who }

/-- The feeders and the drain of an array are settled. -/
def State.TileSettled (t : State) (core a : Nat) : Prop := t.Settled (.array core a) ∧ t.Settled (.held core a)

/-- They have taken the lines that they asked for. -/
def State.tileLinesTaken (t : State) (core a : Nat) : State :=
  { t with reqs := t.reqs.filter fun r => !([Agent.array core a, .held core a].any fun w => r.src == .unit w) }

/-! ### Memory -/

/-- Every byte but the `n` from `a` reads as before. -/
def SameBytesBut (s t : State) (a n : Nat) : Prop := ∀ b, b < a ∨ a + n ≤ b → t.byte b = s.byte b

end Sys2Proof.Machine
end

