-- ==== Sys2Proof/Certificates/Slice0/Obligations.lean ====
section
/-! DEFINITION. The statements for the provers. -/
open Sys2Proof Sys2Proof.Machine

/-! ### The step and the registers -/

/-- A step performs the command at the front of the queue on the state with the rest of the queue. -/
def Obligations.StepRunsTheFrontCommand : Prop :=
  ∀ (s : State) (c : Instr) (rest : List Instr),
    step { s with pending := c :: rest } = exec c { s with pending := rest }

/-- R85: x0 reads as zero and discards writes; any other register reads what was last written to it. -/
def Obligations.RegisterZeroIsHardWired : Prop :=
  ∀ (c : Ctx) (r q : Reg) (v : Word),
    c.x 0 = 0 ∧ c.setX 0 v = c ∧
    (c.setX r v).x q = if q = 0 then 0 else if q = r then v else c.x q

/-! ### Integer instructions and branches -/

/-- R97, R98: the immediate forms write XD and go on at PC + 4; everything else stays. -/
def Obligations.IntegerImmediateForms : Prop :=
  ∀ (s : State) (i : Issue) (xd xa : Reg) (m : BitVec 16) (k : BitVec 21),
    let a := (s.at_ i).x xa
    let se : Word := m.signExtend 64
    let ze : Word := m.zeroExtend 64
    let sh := m.toNat % 64
    let op (cmd : Instr) (w : Word32) (v : Word) : Prop := s.Performs i w → Retires cmd s s i xd v
    op (.addi i xd xa m) (wordI 0x02 xd xa m) (a + se) ∧
    op (.andi i xd xa m) (wordI 0x03 xd xa m) (a &&& ze) ∧
    op (.ori i xd xa m) (wordI 0x04 xd xa m) (a ||| ze) ∧
    op (.xori i xd xa m) (wordI 0x05 xd xa m) (a ^^^ ze) ∧
    op (.slti i xd xa m) (wordI 0x06 xd xa m) (if a.toInt < se.toInt then 1 else 0) ∧
    op (.sltiu i xd xa m) (wordI 0x07 xd xa m) (if a.toNat < se.toNat then 1 else 0) ∧
    op (.slli i xd xa m) (wordI 0x08 xd xa m) (a <<< sh) ∧
    op (.srli i xd xa m) (wordI 0x09 xd xa m) (a >>> sh) ∧
    op (.srai i xd xa m) (wordI 0x0A xd xa m) (a.sshiftRight sh) ∧
    op (.lui i xd k) (wordU 0x0B xd k) (k.signExtend 64 <<< 16) ∧
    op (.shlor i xd xa m) (wordI 0x0C xd xa m) ((a <<< 16) ||| ze)

/-- R97, R99: addition, subtraction, logic, shifts, comparisons, minima and maxima of two registers. -/
def Obligations.IntegerRegisterForms : Prop :=
  ∀ (s : State) (i : Issue) (xd xa xb : Reg),
    let a := (s.at_ i).x xa
    let b := (s.at_ i).x xb
    let sh := b.toNat % 64
    let op (cmd : Instr) (fn : BitVec 11) (v : Word) : Prop := s.Performs i (wordR 0x01 xd xa xb fn) → Retires cmd s s i xd v
    op (.add i xd xa xb) 0x00 (a + b) ∧
    op (.sub i xd xa xb) 0x01 (a - b) ∧
    op (.and i xd xa xb) 0x02 (a &&& b) ∧
    op (.or i xd xa xb) 0x03 (a ||| b) ∧
    op (.xor i xd xa xb) 0x04 (a ^^^ b) ∧
    op (.sll i xd xa xb) 0x05 (a <<< sh) ∧
    op (.srl i xd xa xb) 0x06 (a >>> sh) ∧
    op (.sra i xd xa xb) 0x07 (a.sshiftRight sh) ∧
    op (.slt i xd xa xb) 0x08 (if a.toInt < b.toInt then 1 else 0) ∧
    op (.sltu i xd xa xb) 0x09 (if a.toNat < b.toNat then 1 else 0) ∧
    op (.min i xd xa xb) 0x0A (if a.toInt < b.toInt then a else b) ∧
    op (.max i xd xa xb) 0x0B (if a.toInt < b.toInt then b else a) ∧
    op (.minu i xd xa xb) 0x0C (if a.toNat < b.toNat then a else b) ∧
    op (.maxu i xd xa xb) 0x0D (if a.toNat < b.toNat then b else a)

/-- R99, R100: products, quotients, remainders and bit counts; division never faults. -/
def Obligations.MultiplyDivideAndCountForms : Prop :=
  ∀ (s : State) (i : Issue) (xd xa xb : Reg),
    let a := (s.at_ i).x xa
    let b := (s.at_ i).x xb
    let op (cmd : Instr) (fn : BitVec 11) (v : Word) : Prop := s.Performs i (wordR 0x01 xd xa xb fn) → Retires cmd s s i xd v
    op (.mul i xd xa xb) 0x10 (BitVec.ofNat 64 (a.toNat * b.toNat)) ∧
    op (.mulh i xd xa xb) 0x11 (BitVec.ofInt 64 (a.toInt * b.toInt / 2 ^ 64)) ∧
    op (.mulhu i xd xa xb) 0x12 (BitVec.ofNat 64 (a.toNat * b.toNat / 2 ^ 64)) ∧
    op (.div i xd xa xb) 0x14
      (if b = 0 then BitVec.allOnes 64 else BitVec.ofInt 64 (a.toInt.tdiv b.toInt)) ∧
    op (.divu i xd xa xb) 0x15
      (if b = 0 then BitVec.allOnes 64 else BitVec.ofNat 64 (a.toNat / b.toNat)) ∧
    op (.rem i xd xa xb) 0x16 (if b = 0 then a else BitVec.ofInt 64 (a.toInt.tmod b.toInt)) ∧
    op (.remu i xd xa xb) 0x17 (if b = 0 then a else BitVec.ofNat 64 (a.toNat % b.toNat)) ∧
    op (.clz i xd xa xb) 0x18 (BitVec.ofNat 64 (if a = 0 then 64 else 63 - a.toNat.log2)) ∧
    op (.ctz i xd xa xb) 0x19
      (BitVec.ofNat 64 (((List.range 64).find? fun j => a.getLsbD j).getD 64)) ∧
    op (.popc i xd xa xb) 0x1A (BitVec.ofNat 64 ((List.range 64).countP fun j => a.getLsbD j))

/-- R102: the next PC of branches and jumps; JALR reads XA before it writes XD, and faults on a target that is not a multiple of 4
(R131). -/
def Obligations.BranchesAndJumps : Prop :=
  ∀ (s : State) (i : Issue) (xd xa xb : Reg) (off m : BitVec 16) (k : BitVec 21),
    let c := s.at_ i
    let a := c.x xa
    let b := c.x xb
    let pc : Word := c.pc.zeroExtend 64
    let link : Word := pc + 4
    let jumps (cmd : Instr) (xd : Reg) (v target : Word) : Prop :=
      Completes cmd s fun t => Issued s t i (c.jumped s i (s.wordAt i) xd v target)
    let branch (cmd : Instr) (op : Nat) (taken : Prop) : Prop := s.Performs i (wordB op xa xb off) →
      (taken → jumps cmd 0 0 (pc + off.signExtend 64 * 4)) ∧ (¬ taken → Retires cmd s s i 0 0)
    branch (.beq i xa xb off) 0x10 (a = b) ∧ branch (.bne i xa xb off) 0x11 (a ≠ b) ∧
    branch (.blt i xa xb off) 0x12 (a.toInt < b.toInt) ∧ branch (.bge i xa xb off) 0x13 (b.toInt ≤ a.toInt) ∧
    branch (.bltu i xa xb off) 0x14 (a.toNat < b.toNat) ∧ branch (.bgeu i xa xb off) 0x15 (b.toNat ≤ a.toNat) ∧
    (s.Performs i (wordU 0x16 xd k) → jumps (.jal i xd k) xd link (pc + k.signExtend 64 * 4)) ∧
    (let target := a + m.signExtend 64
     s.Performs i (wordI 0x17 xd xa m) →
      (target.toNat % 4 = 0 → jumps (.jalr i xd xa m) xd link target) ∧
      (target.toNat % 4 ≠ 0 → FaultsWith (.jalr i xd xa m) s i causeMisaligned 0x08 target.toNat))

/-! ### Scalar float -/

/-- R101, R126, R210: scalar float operations write their zero-extended result; the events of the operation are counted in the
core and in the totals; CVT of a format that its column does not admit is illegal. -/
def Obligations.ScalarFloatForms : Prop :=
  ∀ (s : State) (i : Issue) (xd xa xb : Reg) (fn : BitVec 11),
    let a : Word32 := ((s.at_ i).x xa).truncate 32
    let b : Word32 := ((s.at_ i).x xb).truncate 32
    let op (cmd : Instr) (f : BitVec 11) (r : Word32 × List NumEvent) : Prop := s.Performs i (wordR 0x0D xd xa xb f) →
      Retires cmd s (s.countEvents i.core r.2) i xd (r.1.zeroExtend 64)
    op (.fadd i xd xa xb) 0 (f32Add a b) ∧ op (.fsub i xd xa xb) 1 (f32Sub a b) ∧ op (.fmul i xd xa xb) 2 (f32Mul a b) ∧
    op (.fmin i xd xa xb) 3 (f32Op2 Val.min a b) ∧ op (.fmax i xd xa xb) 4 (f32Op2 Val.max a b) ∧
    op (.flt i xd xa xb) 5 (f32Cmp Val.lt a b) ∧ op (.fle i xd xa xb) 6 (f32Cmp Val.le a b) ∧
    op (.feq i xd xa xb) 7 (f32Cmp Val.eqv a b) ∧
    op (.fabs i xd xa xb) 8 (f32Abs a, []) ∧ op (.fneg i xd xa xb) 9 (f32Neg a, []) ∧
    (let ok := cvtFormat (Fmt.ofCode ((fn >>> 2).truncate 4)) && cvtFormat (Fmt.ofCode ((fn >>> 6).truncate 4))
     let r := convert fn ((s.at_ i).x xa)
     s.Performs i (wordR 0x0E xd xa 0 fn) →
      (ok = true → Retires (.cvt i xd xa fn) s (s.countEvents i.core r.2) i xd r.1) ∧
      (ok = false → FaultsWith (.cvt i xd xa fn) s i causeIllegal 0x08 0))

/-! ### Loads, stores and atomics -/

/-- R104, R106, R107: a local load gives the extended bytes of the core store; memory and all else stay. R238: a load whose bank serves
another requester on this beat has been issued, and its thread performs it again on a later beat, without a further count. -/
def Obligations.LocalLoads : Prop :=
  ∀ (s : State) (i : Issue) (xd xa : Reg) (m : BitVec 16),
    let a := (s.at_ i).x xa + m.signExtend 64
    let v (n : Nat) : Nat := bytesToNat (s.bytes (storeAddr i.core a.toNat) n)
    let load (cmd : Instr) (op n : Nat) (r : Word) : Prop := s.Performs i (wordI op xd xa m) →
      (s.LocalOk i a n → Retires cmd s s i xd r) ∧
      (a.toNat % n = 0 → a.toNat + n ≤ 0x40000 → ¬ s.BankGranted i a →
        Completes cmd s fun t =>
          Issued s t i { (s.at_ i).marked s i (s.wordAt i) with nextBeat := i.beat + 1, counted := true })
    load (.lbL i xd xa m) 0x20 1 ((BitVec.ofNat 8 (v 1)).signExtend 64) ∧ load (.lbuL i xd xa m) 0x21 1 (BitVec.ofNat 64 (v 1)) ∧
    load (.lhL i xd xa m) 0x22 2 ((BitVec.ofNat 16 (v 2)).signExtend 64) ∧ load (.lhuL i xd xa m) 0x23 2 (BitVec.ofNat 64 (v 2)) ∧
    load (.lwL i xd xa m) 0x24 4 ((BitVec.ofNat 32 (v 4)).signExtend 64) ∧ load (.lwuL i xd xa m) 0x25 4 (BitVec.ofNat 64 (v 4)) ∧
    load (.ldL i xd xa m) 0x26 8 (BitVec.ofNat 64 (v 8))

/-- R104, R106, R107: a local store of `n` bytes writes the low bytes of XD, at the address computed from XA, into the core store of
the issuing core and nowhere else, and the thread goes on. -/
def Obligations.LocalStores : Prop :=
  ∀ (s : State) (i : Issue) (xd xa : Reg) (m : BitVec 16),
    let c := s.at_ i
    let a := c.x xa + m.signExtend 64
    let at_ := storeAddr i.core a.toNat
    let store (cmd : Instr) (op n : Nat) : Prop := s.Performs i (wordI op xd xa m) → a.toNat % n = 0 → a.toNat + n ≤ 0x40000 →
      s.BankGranted i a →
      let bs := natToBytes n (c.x xd).toNat
      Completes cmd s fun t => Issued (s.writeSram at_ bs c.rerun) t i (c.retired s i (s.wordAt i) 0 0) ∧
        SameBytesBut s t at_ n ∧ t.bytes at_ n = bs
    store (.sbL i xd xa m) 0x28 1 ∧ store (.shL i xd xa m) 0x29 2 ∧ store (.swL i xd xa m) 0x2A 4 ∧ store (.sdL i xd xa m) 0x2B 8

/-- R110: a local atomic writes the new value into the doubleword at XA and returns the old one in XD. -/
def Obligations.LocalAtomics : Prop :=
  ∀ (s : State) (i : Issue) (xd xa xb : Reg), s.LocalOk i ((s.at_ i).x xa) 8 →
    let c := s.at_ i
    let at_ := storeAddr i.core (c.x xa).toNat
    let old : Word := BitVec.ofNat 64 (bytesToNat (s.bytes at_ 8))
    let b := c.x xb
    let amo (cmd : Instr) (fn : BitVec 11) (new : Word) : Prop := s.Performs i (wordR 0x27 xd xa xb fn) →
      Completes cmd s fun t =>
        Issued (s.writeSram at_ (natToBytes 8 new.toNat) c.rerun) t i (c.retired s i (s.wordAt i) xd old) ∧
        SameBytesBut s t at_ 8 ∧ t.bytes at_ 8 = natToBytes 8 new.toNat
    amo (.amoLAdd i xd xa xb) 0 (old + b) ∧ amo (.amoLAnd i xd xa xb) 1 (old &&& b) ∧ amo (.amoLOr i xd xa xb) 2 (old ||| b) ∧
    amo (.amoLXor i xd xa xb) 3 (old ^^^ b) ∧ amo (.amoLSwap i xd xa xb) 4 b ∧
    amo (.amoLCas i xd xa xb) 5 (if old = c.x xd then b else old) ∧
    amo (.amoLMin i xd xa xb) 6 (if old.toInt < b.toInt then old else b) ∧
    amo (.amoLMax i xd xa xb) 7 (if old.toInt < b.toInt then b else old) ∧
    amo (.amoLMinu i xd xa xb) 8 (if old.toNat < b.toNat then old else b) ∧
    amo (.amoLMaxu i xd xa xb) 9 (if old.toNat < b.toNat then b else old)

/-- R105 to R107: a global load puts one request on its way and leaves its thread in WAIT_MEM; a global store's thread goes on. -/
def Obligations.GlobalLoadsAndStores : Prop :=
  ∀ (s : State) (i : Issue) (xd xa : Reg) (m : BitVec 16),
    let c := s.at_ i
    let a := c.x xa + m.signExtend 64
    let src := s.threadSource i.core i.ctx
    let ok (n : Nat) : Prop := a.toNat % n = 0 ∧ s.mappedAddr a = true
    let load (cmd : Instr) (op n : Nat) (signed : Bool) : Prop := s.Performs i (wordI op xd xa m) → ok n → Completes cmd s fun t =>
      Issued (s.sendReq src (.read n) a.toNat).2 t i
        ((c.marked s i (s.wordAt i)).block .waitMem (.load s.fresh xd n signed))
    let store (cmd : Instr) (op n : Nat) : Prop := s.Performs i (wordI op xd xa m) → ok n →
      Retires cmd s (s.sendReq src (.write (natToBytes n (c.x xd).toNat)) a.toNat).2 i 0 0
    load (.lbG i xd xa m) 0x18 1 true ∧ load (.lbuG i xd xa m) 0x19 1 false ∧ load (.lhG i xd xa m) 0x1A 2 true ∧
    load (.lhuG i xd xa m) 0x1B 2 false ∧ load (.lwG i xd xa m) 0x1C 4 true ∧ load (.lwuG i xd xa m) 0x1D 4 false ∧
    load (.ldG i xd xa m) 0x1E 8 false ∧
    store (.sbG i xd xa m) 0x2C 1 ∧ store (.shG i xd xa m) 0x2D 2 ∧ store (.swG i xd xa m) 0x2E 4 ∧ store (.sdG i xd xa m) 0x2F 8

/-- R110: a global atomic sends its operation, XB and XD to the target of XA, and its thread waits in WAIT_MEM for the old value. -/
def Obligations.GlobalAtomics : Prop :=
  ∀ (s : State) (i : Issue) (xd xa xb : Reg),
    let c := s.at_ i
    (c.x xa).toNat % 8 = 0 → s.mappedAddr (c.x xa) = true →
    let amo (cmd : Instr) (fn : BitVec 11) (op : AmoOp) : Prop := s.Performs i (wordR 0x1F xd xa xb fn) → Completes cmd s fun t =>
      Issued (s.sendReq (s.threadSource i.core i.ctx) (.atomic op (c.x xb) (c.x xd)) (c.x xa).toNat).2 t i
        ((c.marked s i (s.wordAt i)).block .waitMem (.atomic s.fresh xd))
    amo (.amoGAdd i xd xa xb) 0 .add ∧ amo (.amoGAnd i xd xa xb) 1 .and ∧ amo (.amoGOr i xd xa xb) 2 .or ∧
    amo (.amoGXor i xd xa xb) 3 .xor ∧ amo (.amoGSwap i xd xa xb) 4 .swap ∧ amo (.amoGCas i xd xa xb) 5 .cas ∧
    amo (.amoGMin i xd xa xb) 6 .min ∧ amo (.amoGMax i xd xa xb) 7 .max ∧ amo (.amoGMinu i xd xa xb) 8 .minu ∧
    amo (.amoGMaxu i xd xa xb) 9 .maxu

/-- R104 to R106, R131 to R134: an access that is not aligned or leaves its range faults its thread with the cause and status of R131
and its address, and moves no data; a record that is alone in its cycle enters FAULT_LOG at its head, which goes on by one modulo 64,
and is counted. -/
def Obligations.AccessChecksFault : Prop :=
  ∀ (s : State) (i : Issue) (xd xa : Reg) (m : BitVec 16),
    let a := (s.at_ i).x xa + m.signExtend 64
    let faults (cmd : Instr) (op cause : Nat) (st : Status) : Prop := s.Performs i (wordI op xd xa m) →
      FaultsWith cmd s i cause st a.toNat
    (a.toNat % 8 ≠ 0 → faults (.ldL i xd xa m) 0x26 causeMisaligned 0x08 ∧ faults (.sdL i xd xa m) 0x2B causeMisaligned 0x08 ∧
      faults (.ldG i xd xa m) 0x1E causeMisaligned 0x08) ∧
    (a.toNat % 8 = 0 → 0x40000 < a.toNat + 8 → faults (.ldL i xd xa m) 0x26 causeLocalRange 0x02 ∧
      faults (.sdL i xd xa m) 0x2B causeLocalRange 0x02) ∧
    (a.toNat % 8 = 0 → 2 ^ 54 ≤ a.toNat → faults (.ldG i xd xa m) 0x1E causeUnmapped 0x02) ∧
    (∀ core ctx beat cause st addr w, s.faultBatch.at_ ≠ s.now →
      let c := s.ctx core ctx
      let t := s.faultLogged core ctx beat cause st addr w
      let r := faultRecord (s.refTime (coreTower core)) addr w c.pc c.taskQueue ctx st cause
      t.faultLog = Map.set 0 s.faultLog (s.reg 0xA110 2 % 64) r ∧ t.reg 0xA110 2 = (s.reg 0xA110 2 + 1) % 64 ∧
      t.reg 0xA110 3 = min (s.reg 0xA110 3 + 1) 0xFFFFFFFF ∧
      t = { s with faultLog := t.faultLog, faultBatch := t.faultBatch, regs := t.regs })

/-! ### Commands to the units -/

/-- R111 to R115: a DMA command that the stage performs, whose descriptor lies in the core store, is granted its banks and passes its
check, with room in its counter and fewer than 32 descriptors in the engine, puts a descriptor with the eight words at XA into the engine
and counts or waits, with the status BOUNDS already set for a type other than 2, 3, 5 and 7, and for a multicast to a set (R368) with what the
read of the set's record answers. Without room the thread waits in WAIT_UNIT and nothing is passed; with the banks of the descriptor taken
by another requester (R238) the command has issued and comes again on a later beat, and nothing is passed. -/
def Obligations.DmaCommand : Prop :=
  ∀ (s : State) (i : Issue) (xd xa : Reg) (wc : BitVec 2) (w : Bool), s.Performs i (wordC 0x30 xd xa 0 wc w 0) →
    let c := s.at_ i
    let word := s.wordAt i
    let k := s.core i.core
    let words := s.words8 (storeAddr i.core (c.x xa).toNat)
    let q (n : Nat) : Nat := (words.getD n 0).toNat
    let type := q 0 / 2 ^ 40 % 256
    let set : Prop := type = 2 ∧ q 1 / 2 ^ 60 = 4 ∧ q 3 / 2 ^ 32 ≠ 0
    let d : DmaDesc := { id := s.fresh + 1, words := words, target := commandTarget i s.fresh wc w, ctx := some i.ctx,
                         serial := c.serial, status := if type ∈ [2, 3, 5, 7] then none else some 0x02, rerun := c.rerun }
    let next := c.afterCommand s i word s.fresh xd wc w
    (s.DescriptorOk i (c.x xa) → c.counterRoom wc w = true → k.dma.length < 32 →
      (¬ set → Completes (.dma i xd xa wc w) s fun t =>
        Issued ((s.withTokens 2).setCore i.core { k with dma := k.dma ++ [d] }) t i next) ∧
      (set → Completes (.dma i xd xa wc w) s fun t => ∃ v, Issued (s.withTokens 2) v i next ∧
        let (r, u) := v.acceptRecord (q 4 % 2 ^ 48) (.dma i.core d.id)
        t = u.setCore i.core { u.core i.core with dma := (u.core i.core).dma ++ [{ d with record := r }] })) ∧
    ((c.x xa).toNat + 64 ≤ 0x40000 → ¬ s.DescriptorGranted i (c.x xa) → c.counterRoom wc w = true → k.dma.length < 32 →
      Completes (.dma i xd xa wc w) s fun t => Issued s t i { c.marked s i word with nextBeat := i.beat + 1, counted := true }) ∧
    (c.counterRoom wc w = false ∨ 32 ≤ k.dma.length →
      Completes (.dma i xd xa wc w) s fun t =>
        Issued s t i ((c.marked s i word).block .waitUnit (.unit (.dma xd xa wc w))))

/-- R116, R175 to R180: a TILE command that the stage performs faults as illegal with SUB bits 2:0 above 4, and waits in WAIT_UNIT without
room in its counter. With its descriptor readable and granted it does what the outcome of R176 and R177 says: it completes at once with a
status, counted as a tile; joins the tile named, which closes where it is then full; opens a tile in the array named, which does not stay open
where it is full or its key is 0; waits for room, having closed the tile named, and opens its own where the array has room nonetheless.
That outcome is that the array named opens the tile where a legal descriptor with M, N and K not 0 and every unit present names an array
below 4 that is not suspect, is not full and holds no open tile of the key. -/
def Obligations.TileCommand : Prop :=
  ∀ (s : State) (i : Issue) (xd xa xb : Reg) (wc : BitVec 2) (w : Bool) (sub : BitVec 8),
    s.Performs i (wordC 0x31 xd xa xb wc w sub) →
    let c := s.at_ i
    let word := s.wordAt i
    let cmd := Instr.tile i xd xa xb wc w sub
    let arr := sub.toNat % 8
    let ws := s.words8 (storeAddr i.core (c.x xa).toNat)
    let key := c.x xb
    let outcome := s.tileOutcome i.core arr key ws
    let next := c.afterCommand s i word s.fresh xd wc w
    let held := (c.marked s i word).block .waitUnit (.unit (.tile xd xa xb wc w sub))
    let req : TileReq := { n := tileN ws, held := tileHAddr ws, heldScale := tileHScale ws, out := tileOutAddr ws,
                           target := commandTarget i s.fresh wc w, rerun := c.rerun }
    let n : Tile := { words := ws, key := key, reqs := [req], opened := true, holdEnd := s.run + s.holdCycles ws }
    let n := if n.isFull then { n with opened := false, closedBy := .full } else if key = 0 then { n with opened := false } else n
    let given (a : Nat) (tiles : List Tile) (u : State) : State := u.setArray i.core a { s.array i.core a with tiles := tiles }
    (5 ≤ arr → FaultsWith cmd s i causeIllegal 0x08 0) ∧
    (arr < 5 → c.counterRoom wc w = false → Completes cmd s fun t => Issued s t i held) ∧
    (arr < 5 → s.DescriptorOk i (c.x xa) → c.counterRoom wc w = true →
      (∀ st, outcome = .done st → Completes cmd s fun t => ∃ v, Issued (s.withTokens 1) v i next ∧
        t = (v.countTile i.core).complete req.target st) ∧
      (∀ a j o, outcome = .join a j → (s.array i.core a).tiles[j]? = some o → Completes cmd s fun t =>
        let o := { o with reqs := o.reqs ++ [req] }
        let o := if o.isFull then { o with opened := false, closedBy := .full } else o
        Issued (given a ((s.array i.core a).tiles.set j o) (s.withTokens 1)) t i next) ∧
      (∀ a, outcome = .open_ a → Completes cmd s fun t =>
        Issued (given a ((s.array i.core a).tiles ++ [n]) (s.withTokens 1)) t i next) ∧
      (outcome = .wait none → Completes cmd s fun t => Issued s t i held) ∧
      (∀ a j o, outcome = .wait (some (a, j)) → (s.array i.core a).tiles[j]? = some o →
        let tiles := (s.array i.core a).tiles.set j { o with opened := false }
        ((s.array i.core a).isFull = true → Completes cmd s fun t => Issued (given a tiles s) t i held) ∧
        ((s.array i.core a).isFull = false → Completes cmd s fun t =>
          Issued (given a (tiles ++ [n]) (s.withTokens 1)) t i next))) ∧
    (arr < 4 → tileM ws ≠ 0 → tileN ws ≠ 0 → tileK ws ≠ 0 → tileLegal i.core ws = true → (s.array i.core arr).suspect = false →
      s.tileAbsent i.core ws = false →
      (s.array i.core arr).openTile key = none → (s.array i.core arr).isFull = false → outcome = .open_ arr)

/-- R117: ADD and ARM send the object's command with XB bits 31:0; WAIT leaves the thread in WAIT_SYNC and READ in WAIT_MEM; ADD and ARM
without counter room wait in WAIT_UNIT and send nothing (R113). -/
def Obligations.SyncCommands : Prop :=
  ∀ (s : State) (i : Issue) (xd xa xb : Reg) (wc : BitVec 2) (w : Bool),
    let c := s.at_ i
    let word := s.wordAt i
    let object := (c.x xa).toNat % 2 ^ 19
    let value : Word32 := (c.x xb).truncate 32
    let send (cmd : Instr) (sub : BitVec 8) (op : SyncOp) : Prop := s.Performs i (wordC 0x33 xd xa xb wc w sub) →
      (c.counterRoom wc w = true → Completes cmd s fun t =>
        Issued ((s.withTokens 1).sendSync op object value (commandTarget i s.fresh wc w)) t i
          (c.afterCommand s i word s.fresh xd wc w)) ∧
      (c.counterRoom wc w = false → Completes cmd s fun t =>
        Issued s t i ((c.marked s i word).block .waitUnit (.unit (.sync (op == .arm) xd xa xb wc w))))
    let wait (cmd : Instr) (sub : BitVec 8) (op : SyncOp) (st : CtxState) (wt : Wait) : Prop :=
      s.Performs i (wordC 0x33 xd xa 0 0 false sub) → Completes cmd s fun t =>
        Issued (s.sendSync op object 0 (.wait i.core i.ctx s.fresh)) t i ((c.marked s i word).block st wt)
    send (.syncAdd i xd xa xb wc w) 0x00 .add ∧ send (.syncArm i xd xa xb wc w) 0x03 .arm ∧
    wait (.syncWait i xd xa) 0x01 .wait .waitSync (.syncWait s.fresh xd object) ∧
    wait (.syncRead i xd xa) 0x02 .read .waitMem (.syncRead s.fresh xd)

/-- R113, R121, R123, R125: a VEC with room in the counter WC of VCFG and in the unit's input of 8 enters it with its operands and
VCFG; the counter goes up; with SYNC = 1 the thread waits. Without room it waits in WAIT_UNIT. -/
def Obligations.VectorCommands : Prop :=
  ∀ (s : State) (i : Issue) (xd xa xb xc : Reg),
    let c := s.at_ i
    let k := s.core i.core
    let wc : BitVec 2 := (c.vcfg >>> 25).truncate 2
    let word := s.wordAt i
    let vec (cmd : Instr) (op : VOp) (ra rb rc : Reg) : Prop := s.Performs i (wordV 0x32 xd ra rb rc op.code) →
      let v : VecOp := { op := op, ctx := i.ctx, vcfg := c.vcfg, xd := c.x xd, xa := c.x ra, xb := c.x rb, xc := c.x rc,
                         token := s.fresh, word := word }
      (c.counter wc ≠ 63 → k.vec.length < 8 → Completes cmd s fun t =>
        Issued ((s.withTokens 1).setCore i.core { k with vec := k.vec ++ [v] }) t i
          (if c.vcfg.getLsbD 27 then
            ((c.setCounter wc (c.counter wc + 1)).marked s i word).block .waitCmd (.vector s.fresh)
          else (c.setCounter wc (c.counter wc + 1)).wake.retired s i word 0 0)) ∧
      (c.counter wc = 63 ∨ 8 ≤ k.vec.length → Completes cmd s fun t =>
        Issued s t i ((c.marked s i word).block .waitUnit (.unit (.vec op xd ra rb rc))))
    vec (.vadd i xd xa xb) .vadd xa xb 0 ∧ vec (.vsub i xd xa xb) .vsub xa xb 0 ∧ vec (.vmul i xd xa xb) .vmul xa xb 0 ∧
    vec (.vfma i xd xa xb xc) .vfma xa xb xc ∧ vec (.vmax i xd xa xb) .vmax xa xb 0 ∧ vec (.vmin i xd xa xb) .vmin xa xb 0 ∧
    vec (.vabs i xd xa) .vabs xa 0 0 ∧ vec (.vneg i xd xa) .vneg xa 0 0 ∧ vec (.vscale i xd xa xb) .vscale xa xb 0 ∧
    vec (.vaxpy i xd xa xb xc) .vaxpy xa xb xc ∧ vec (.vexp i xd xa) .vexp xa 0 0 ∧ vec (.vrecip i xd xa) .vrecip xa 0 0 ∧
    vec (.vrsqrt i xd xa) .vrsqrt xa 0 0 ∧ vec (.vtanh i xd xa) .vtanh xa 0 0 ∧ vec (.vsum i xd xa) .vsum xa 0 0 ∧
    vec (.vmaxr i xd xa) .vmaxr xa 0 0 ∧ vec (.vdot i xd xa xb) .vdot xa xb 0 ∧ vec (.vsoftmax i xd xa) .vsoftmax xa 0 0 ∧
    vec (.vcmplt i xd xa xb) .vcmplt xa xb 0 ∧ vec (.vsel i xd xa xb xc) .vsel xa xb xc ∧ vec (.vcvt i xd xa) .vcvt xa 0 0 ∧
    vec (.vwupd i xd xa xb xc) .vwupd xa xb xc ∧ vec (.vcopy i xd xa) .vcopy xa 0 0 ∧ vec (.vfill i xd xb) .vfill 0 xb 0

/-- R92, R118, R119, R127, R128: PUSH, with its descriptor readable and granted, to a queue of this device whose ring lies in SRAM gives
the queue's answer in XD and goes on, which is 0x100 where the ring is full, and 0 with the entry written, PI one on and the ledger told
where it has room and the write of the entry succeeds; to a queue whose ring lies in DRAM, or to another member, the push is sent and the
thread waits; to a device that is no member XD gets NOT_PRESENT. EXIT enters EXITING with XB bits 7:0. WAITC gives and clears the status
where its counter is at or below the threshold and waits otherwise. FENCE goes on where its conditions hold and, with GLOBAL, no store has
failed; with GLOBAL and a failed store it faults with that status and clears STORE_STATUS; where they do not hold it waits. -/
def Obligations.QueueCounterAndFenceCommands : Prop :=
  ∀ (s : State) (i : Issue) (xd xa xb : Reg) (m : BitVec 16),
    let c := s.at_ i
    let word := s.wordAt i
    let gq := (c.x xb).toNat % 2 ^ 25
    let n : BitVec 2 := m.truncate 2
    let limit := m.toNat / 4 % 64
    let mask : BitVec 4 := m.truncate 4
    let q := gq % 2 ^ 19
    let k := s.queue q
    let bytes := (s.words8 (storeAddr i.core (c.x xa).toNat)).flatMap fun w => natToBytes 8 w.toNat
    (s.Performs i (wordC 0x34 xd xa xb 0 false 0x00) → s.DescriptorOk i (c.x xa) →
      (s.isOwn (gq / 2 ^ 19) = true → k.ringSpace ≠ 2 → Completes (.quePush i xd xa xb) s fun t =>
        ∃ v, Issued s v i (c.marked s i word) ∧
          let (r, u) := v.pushQueue q bytes
          t = u.updCtx i.core i.ctx fun c => (c.setX xd r).advance) ∧
      (s.isOwn (gq / 2 ^ 19) = true → k.ringSpace ≠ 2 → queueExists q = true → s.coreStatus (queueCore q) = 0 →
        k.producer = true → k.ringValid q = true → k.full = true → Retires (.quePush i xd xa xb) s s i xd 0x100) ∧
      (∀ u, k.ringSpace ≠ 2 → queueExists q = true → s.coreStatus (queueCore q) = 0 → k.producer = true → k.ringValid q = true →
        k.full = false → s.writeRange (s.slotAddr q k.pi.toNat) (bytes.set 6 (bytes.getD 6 0 &&& 0x7F)) none .other = (0, u) →
        s.pushQueue q bytes = (0, (u.setQueue q { u.queue q with pi := k.pi + 1 }).enterLedger q 1 k.pi)) ∧
      (s.isOwn (gq / 2 ^ 19) = true → k.ringSpace = 2 → Completes (.quePush i xd xa xb) s fun t =>
        Issued (s.sendReq (.thread i.core i.ctx c.serial) (.push q bytes) (gq / 2 ^ 19 * 2 ^ 48 + registerBase)).2 t i
          ((c.marked s i word).block .waitCmd (.push s.fresh xd))) ∧
      (s.isOwn (gq / 2 ^ 19) = false → s.nonMember (gq / 2 ^ 19) = true → Retires (.quePush i xd xa xb) s s i xd 0x07) ∧
      (s.isOwn (gq / 2 ^ 19) = false → s.nonMember (gq / 2 ^ 19) = false → Completes (.quePush i xd xa xb) s fun t =>
        Issued (s.sendReq (.thread i.core i.ctx c.serial) (.push q bytes) (gq / 2 ^ 19 * 2 ^ 48)).2 t i
          ((c.marked s i word).block .waitCmd (.push s.fresh xd)))) ∧
    (s.Performs i (wordC 0x34 0 0 xb 0 false 0x01) → Completes (.queExit i xb) s fun t =>
      Issued s t i { c.marked s i word with state := .exiting, ending := .exit ((c.x xb).truncate 8) }) ∧
    (s.Performs i (wordI 0x35 xd 0 m) →
      ((c.counter n).toNat ≤ limit → Completes (.waitc i xd m) s fun t =>
        Issued s t i ((c.setAsync n 0).wake.retired s i word xd ((c.asyncStatus n).zeroExtend 64))) ∧
      (limit < (c.counter n).toNat → Completes (.waitc i xd m) s fun t =>
        Issued s t i ((c.marked s i word).block .waitCmd (.counter n limit xd)))) ∧
    (s.Performs i (wordI 0x36 0 0 m) →
      (s.fenceHolds i.core i.ctx mask = true →
        (m.getLsbD 1 = true → c.storeStatus = 0) → Completes (.fence i m) s fun t => Issued s t i (c.wake.retired s i word 0 0)) ∧
      (s.fenceHolds i.core i.ctx mask = true → m.getLsbD 1 = true → c.storeStatus ≠ 0 → Completes (.fence i m) s fun t =>
        Issued (s.faultLogged i.core i.ctx i.beat causeStoreFailed c.storeStatus 0 word) t i
          { (c.marked s i word).stopped (s.reg 0xA111 1 == 1) c.storeStatus with storeStatus := 0, waited := true }) ∧
      (s.fenceHolds i.core i.ctx mask = false → Completes (.fence i m) s fun t =>
        Issued s t i ((c.marked s i word).block .waitCmd (.fence mask))))

/-- R121, R129, R140: CSRR gives a listed special register; CSRW writes VCFG without its reserved bits, or bit 0 as ISSUE_CLASS; any
other number is illegal; BRK with BRK_ACTION 2 does nothing, with 0 faults with BREAK, and with 1 freezes the device with its thread
stopped before it. -/
def Obligations.SpecialRegistersAndBreak : Prop :=
  ∀ (s : State) (i : Issue) (xd xa : Reg) (m : BitVec 16) (k : BitVec 21),
    let c := s.at_ i
    let word := s.wordAt i
    (s.Performs i (wordI 0x37 xd 0 m) →
      (∀ v, (m, v) ∈ ([(0x000, BitVec.ofNat 64 i.ctx), (0x001, BitVec.ofNat 64 (s.group.member * 2 ^ 14 + i.core)),
        (0x002, c.taskQueue.zeroExtend 64), (0x003, BitVec.ofNat 64 (0x3C000 + i.ctx * 0x40)), (0x004, c.vcfg),
        (0x005, if c.issueClass then 1 else 0),
        (0x006, BitVec.ofNat 64 ((c.counter 0).toNat + (c.counter 1).toNat * 2 ^ 8 + (c.counter 2).toNat * 2 ^ 16 +
          (c.counter 3).toNat * 2 ^ 24)), (0x007, BitVec.ofNat 64 i.beat), (0x008, s.refTime (coreTower i.core)),
        (0x009, BitVec.ofNat 64 (s.field (coreField i.core)).meas), (0x00A, BitVec.ofNat 64 (s.appliedStretch i.core)),
        (0x010, (c.asyncStatus 0).zeroExtend 64), (0x011, (c.asyncStatus 1).zeroExtend 64),
        (0x012, (c.asyncStatus 2).zeroExtend 64), (0x013, (c.asyncStatus 3).zeroExtend 64),
        (0x014, c.storeStatus.zeroExtend 64)] : List (BitVec 16 × Word)) → Retires (.csrr i xd m) s s i xd v) ∧
      (m ∉ ([0x000, 0x001, 0x002, 0x003, 0x004, 0x005, 0x006, 0x007, 0x008, 0x009, 0x00A, 0x010, 0x011, 0x012, 0x013, 0x014] :
        List (BitVec 16)) → FaultsWith (.csrr i xd m) s i causeIllegal 0x08 0)) ∧
    (s.Performs i (wordI 0x38 0 xa m) →
      (m = 0x004 → Completes (.csrw i xa m) s fun t =>
        Issued s t i { c.retired s i word 0 0 with vcfg := c.x xa &&& 0x0FFFFFFF }) ∧
      (m = 0x005 → Completes (.csrw i xa m) s fun t =>
        Issued s t i { c.retired s i word 0 0 with issueClass := (c.x xa).getLsbD 0 }) ∧
      (m ≠ 0x004 → m ≠ 0x005 → FaultsWith (.csrw i xa m) s i causeIllegal 0x08 0)) ∧
    (s.Performs i (wordU 0x39 0 k) →
      (s.reg 0xA111 4 = 2 → Retires (.brk i k) s s i 0 0) ∧
      (s.reg 0xA111 4 = 0 → FaultsWith (.brk i k) s i causeBreak 0x08 0) ∧
      (s.reg 0xA111 4 = 1 → Completes (.brk i k) s fun t => t = (s.account i word).setFreezeSource freezeSoftware))

/-! ### Threads: answers, the end of tasks, the vector unit -/

/-- R107, R110, R117, R128, R131: the answer of a load, an atomic or a sync read ends its wait with the value in XD and PC + 4, or faults
its thread with the cause of its status; that of a push to another member gives XD; a store's first failing acknowledgement is kept in
STORE_STATUS of the thread that stored, and of no later task of its context. -/
def Obligations.AnswersReachTheirThread : Prop :=
  ∀ (s : State) (id core ctx serial n : Nat) (xd : Reg) (signed : Bool) (st : Status) (data : List Byte),
    s.running = true →
    let c := s.ctx core ctx
    let give (u : State) (v : Word) : State := u.setCtx core ctx (c.setX xd v).wake.advance
    let fault (u : State) (addr : Nat) : State :=
      (u.faultLogged core ctx (s.core core).beats (loadCause st) st addr c.word).setCtx core ctx (c.stopped (s.reg 0xA111 1 == 1) st)
    let u := s.dropReq id
    (∀ r remote, s.reqs.find? (·.id == id) = some r → r.src = .thread core ctx serial → s.answerHeld r = false →
      s.answerOf r remote = some (st, data) → (∀ m ∈ s.syncMsgs, m.id ≠ id) →
      (c.wait = .load id xd n signed →
        exec (.readRsp id remote) s = .next (if st = 0 then give u (extendLoad data signed) else fault u r.addr)) ∧
      (c.wait = .atomic id xd →
        exec (.atomicRsp id remote) s = .next (if st = 0 then give u (extendLoad data false) else fault u r.addr)) ∧
      (c.wait = .push id xd →
        exec (.readRsp id remote) s = .next (give u (if data = [1] then 0x100 else st.zeroExtend 64)))) ∧
    (∀ r remote, s.reqs.find? (·.id == id) = some r → r.src = .thread core ctx serial → s.answerHeld r = false →
      s.answerOf r (remote.map fun st => (st, [])) = some (st, data) → c.wait = .none →
      exec (.writeAck id remote) s = .next
        (if c.serial = serial ∧ c.storeStatus = 0 then u.setCtx core ctx { c with storeStatus := st } else u)) ∧
    (∀ m v, s.syncMsgs.find? (·.id == id) = some m → m.op = .read → m.reply = some (st, v) → m.target = .wait core ctx n →
      s.syncBehind m = false →
      c.wait = .syncRead n xd →
      let u := { s with syncMsgs := s.syncMsgs.filter (·.id != id) }
      exec (.readRsp id none) s = .next (if st = 0 then give u (extendLoad (natToBytes 4 v.toNat) false) else fault u 0))

/-- R92, R132, R135, R137, R142: an EXITING task whose counters read zero completes in its ring with its final status and frees its
context; a FAULTED context is released; CONTEXT_KILL faults a context that runs or waits with KILLED, and one that is EXITING unless a
fault ends it; neither entry changes anything on a FREE one or on a core that is not in service. -/
def Obligations.TaskEndReleaseAndKill : Prop :=
  ∀ (s : State) (core ctx : Nat), ctx < 256 → core < 16384 →
    let c := s.ctx core ctx
    let v : Word32 := BitVec.ofNat 32 (core * 2 ^ 8 + ctx)
    let killed (w : Word32) : State :=
      (s.faultLogged core ctx (s.core core).beats causeKilled 0x08 0 w).setCtx core ctx (c.stopped (s.reg 0xA111 1 == 1) 0x08)
    (s.coreUp core = true → c.state = .exiting → c.idle = true →
      exec (.taskComplete core ctx) s = .next (s.endTask core ctx c.finalStatus) ∧
      (∀ i, c.restart = false → c.rerun = none → c.launch = some i →
        exec (.taskComplete core ctx) s = .next
          ((s.setCtx core ctx { c with state := .free, wait := .none, ending := .none }).completeRing
            c.taskQueue.toNat i c.finalStatus))) ∧
    (s.steward.lost = false → s.inService core = true →
      (c.state = .faulted →
        exec (.contextRelease v) s = .next (s.setCtx core ctx { c with state := .exiting }) ∧
        exec (.contextKill v) s = .next (s.setCtx core ctx { c with state := .exiting })) ∧
      (c.state ≠ .faulted → exec (.contextRelease v) s = .next s) ∧
      (c.state = .ready → exec (.contextKill v) s = .next (killed 0)) ∧
      (c.state ∈ [.waitMem, .waitCmd, .waitUnit, .waitSync] → exec (.contextKill v) s = .next (killed c.word)) ∧
      (c.state = .exiting → (∀ st, c.ending ≠ .fault st) → exec (.contextKill v) s = .next (killed 0)) ∧
      (∀ st, c.state = .exiting → c.ending = .fault st → exec (.contextKill v) s = .next s)) ∧
    (s.steward.lost = false → s.inService core = false ∨ c.state = .free →
      exec (.contextKill v) s = .next s ∧ exec (.contextRelease v) s = .next s)

/-- R111, R113, R121, R123, R125, R551: the oldest vector operation, where none runs and no goose sample goes first, starts with the status of
a check that it fails, or, its lines read, with the status of its sources or with its result, whose events and elements are counted. At its
completion, its lines written, the result is in the store, it leaves the input, and its counter and the thread that waits for it hear of it;
with nothing to write and a thread that waits for nothing that is its counter's fall alone. WAIT_UNIT_RELEASE tries the command again that
its context holds, and a vector operation enters its unit's input where its counter and the input have room. -/
def Obligations.VectorUnitWorksInOrder : Prop :=
  ∀ (s : State) (core : Nat) (v : VecOp) (rest : List VecOp), s.coreUp core = true →
    let k := s.core core
    let c := s.ctx core v.ctx
    let who := Agent.vector core
    let head (u : State) (v : VecOp) : State := u.setVecHead core { v with running := true }
    (k.vec = v :: rest → v.running = false → s.gooseFirst core = false →
      (∀ st, v.check = some st →
        exec (.vectorOpStart core) s = .next (s.setCore core { k with vec := { v with running := true, status := st } :: rest })) ∧
      (∀ r data u, v.check = none →
        s.readSpans who (v.sources.map fun (a, n) => (storeAddr core a, n)) = (r, data, u) →
        r.waiting = false →
        let t := if r.status ≠ 0 then head u { v with status := r.status }
          else ((head u { v with writes := (v.compute data).1 }).countEvents core (v.compute data).2).charge core c.taskQueue.toNat 3 v.len
        t.Settled who → exec (.vectorOpStart core) s = .next (t.linesTaken who))) ∧
    (k.vec = v :: rest → v.running = true →
      let u := v.writes.foldl (fun s w => s.writeLocal core (s.producing core v.ctx) w) s
      let u := u.setCore core { u.core core with vec := rest }
      let t := (u.complete (.counter core v.ctx v.counter) v.status).complete (.wait core v.ctx v.token) v.status
      t.Settled who → exec (.vectorOpComplete core) s = .next (t.linesTaken who)) ∧
    (v.writes = [] → c.wait = .none →
      ((s.setCore core { k with vec := rest }).complete (.counter core v.ctx v.counter) v.status).complete
          (.wait core v.ctx v.token) v.status =
        (s.setCore core { k with vec := rest }).setCtx core v.ctx (c.countDown v.counter v.status)) ∧
    (∀ ctx xd xa xb xc wc w sub arm op,
      let run := exec (.waitUnitRelease core ctx) s
      let wait := (s.ctx core ctx).wait
      (wait = .unit (.dma xd xa wc w) → run = .next (s.dmaCommand core ctx xd xa wc w)) ∧
      (wait = .unit (.tile xd xa xb wc w sub) → run = .next (s.tileCommand core ctx xd xa xb wc w sub)) ∧
      (wait = .unit (.sync arm xd xa xb wc w) → run = .next (s.syncCommand core ctx arm xd xa xb wc w)) ∧
      (wait = .unit (.vec op xd xa xb xc) → (s.ctx core ctx).counter (((s.ctx core ctx).vcfg >>> 25).truncate 2) ≠ 63 →
        k.vec.length < 8 → ∃ t, run = .next t ∧ ∃ n : VecOp, n.op = op ∧ n.token = s.fresh ∧ n.ctx = ctx ∧
          (t.core core).vec = k.vec ++ [n] ∧ (t.ctx core ctx).state ≠ .waitUnit ∧
          t = { s with cores := t.cores, fresh := s.fresh + 1 }))

/-! ### Tiles, the goose and the numeric counters -/

/-- R162, R164, R178, R179, R182, R183: a tile at the head of an array that the ramp admits, open and not running, closes once its hold has
passed. A closed tile at the head of such an array, not suspect, starts with the run that its held rows and Y0 begin, and the starts of tiles
that closed full, but for key 0, and of those whose hold had passed are counted; while lines of them are under way from elsewhere only their
requests are made. Such a run, with no rows loaded early and ACC clear, has the rows loaded and accumulators of +0.0. The ramp of a field
goes on by a step when its time has come, an eighth of START_RAMP_TIME on, and ends after step 8. -/
def Obligations.TilesCloseAndStart : Prop :=
  ∀ (s : State) (core a field step due : Nat) (t : Tile) (rest : List Tile), s.coreUp core = true → a < 4 →
    let u := s.array core a
    let zero := List.replicate (tileM t.words * t.columns) (0 : Word32)
    (u.tiles = t :: rest → t.opened = true → t.running = false → t.holdEnd ≤ s.run → s.rampAdmits core a = true →
      exec (.tileHoldEnd core a) s = .next
        (s.setArray core a { u with tiles := { t with opened := false, closedBy := .expired } :: rest })) ∧
    (u.tiles = t :: rest → t.opened = false → t.running = false → u.suspect = false → s.rampAdmits core a = true →
      (∀ v, s.beginRun core a t = (none, v) → v.Awaits [.array core a, .held core a] →
        exec (.tileStart core a) s = .next (s.asking v)) ∧
      (∀ n ev v, s.beginRun core a t = (some (n, ev), v) →
        let v := v.putRun core a n ev
        let w := (match n.closedBy with
          | .other => v
          | .full => if n.key = 0 then v else v.towerWrap 0xB105 (coreTower core) 1
          | .expired => v.towerWrap 0xB106 (coreTower core) 1).settleRamp (coreField core)
        w.TileSettled core a → exec (.tileStart core a) s = .next (w.tileLinesTaken core a))) ∧
    (∀ reqs held v, t.held = none → s.loadHeld core a t.words 0 t.reqs = (false, reqs, held, v) → tileAcc t.words = false →
      s.beginRun core a t = (some ({ t with reqs := reqs, running := true, begun := true, held := some held, pass := 0,
                                            acc := zero, y0 := zero }, []), v)) ∧
    ((s.field field).ramp = some (step, due) → s.running = true → due ≤ s.run →
      exec (.rampStep field) s = .next ((s.setField field { s.field field with
        ramp := if step < 8 then some (step + 1, due + nsCycles (s.reg 0x2300 1) / 8) else none }).settleRamp field))

/-- R150, R151, R162, R163, R168, R169, R187, R551: the pass of a running tile whose operands are read, with no read that fails, counts its
products, adds its block values to the accumulators and compares its checksums. Where they agree, before the last pass the tile goes on to
the next with its held rows, and after it the tile finishes with what the drain, its lines written, gives. Where they do not agree the
mismatch is counted, and the run begins again, or, when it has been made again already, the tile finishes with CHECKSUM_FAIL and its array is
marked. While lines are under way from elsewhere only their requests are made. TILE_OPERAND_FAIL finishes the tile with the status of a
failing read of the streamed operand, and ends the requests whose held rows have failed; where no read has failed it does nothing, and where
one has TILE_PASS_END does nothing. -/
def Obligations.TilePassesAccumulate : Prop :=
  ∀ (s s1 : State) (core a : Nat) (faults : List CellFault) (t : Tile) (rest : List Tile) (d : PassData),
    s.coreUp core = true → (s.array core a).tiles = t :: rest → t.running = true → t.begun = true →
    (s.array core a).halted = false → s.readPass core a t = (d, s1) →
    let ws := t.words
    let tw := coreTower core
    let stream := streamBlocks ws t.pass (d.stream.getD 0 []) (d.stream.getD 1 [])
    let held := (liveRows t.reqs (t.held.getD [])).map fun c => c.map fun l => heldBlocks ws t.pass (l.getD 0 []) (l.getD 1 [])
    let blocks := held.map fun c => c.map (·.1)
    let sum := passAccumulate ws faults t.acc stream.1 blocks
    let ev := stream.2 ++ (held.flatMap fun c => match c with
      | some x => x.2
      | none => []) ++ sum.2
    let n := { t with acc := sum.1, pass := t.pass + 1, held := d.next, counted := t.counted || !ev.isEmpty }
    let products := passProducts ws t.pass t.columns
    let gated := passGated ws stream.1 blocks
    let v := (((s1.loadEarly core a).towerWrap 0xB103 tw products).towerWrap 0xB104 tw gated)
    let v := ((v.chargeTile core t 0 (products - gated)).chargeTile core t 1 gated).countEvents core ev
    let ok := checksPass ws t.pass faults stream.1 blocks
    let ends (u : State) : Prop := u.TileSettled core a → exec (.tilePassEnd core a faults) s = .next (u.tileLinesTaken core a)
    (d.result.waiting = true → s1.Awaits [.array core a, .held core a] →
      exec (.tilePassEnd core a faults) s = .next (s.asking s1)) ∧
    (d.result.waiting = false → d.result.status = 0 → d.reqs = t.reqs →
      (ok = true → n.pass < tilePasses ws →
        ends ((v.setArray core a ((v.array core a).setTile 0 n)).markEarly core a n)) ∧
      (∀ reqs e w, ok = true → tilePasses ws ≤ n.pass → v.drainTile core a n 0 n.reqs = (reqs, e, w) →
        ends ((w.countEvents core e).finishTile core a { n with reqs := reqs, counted := n.counted || !e.isEmpty } 0 false)) ∧
      (ok = false → t.attempt = 0 → ends ((v.towerWrap 0xB101 tw 1).rerunTile core a n)) ∧
      (ok = false → t.attempt ≠ 0 → ends (((v.towerWrap 0xB101 tw 1).finishTile core a n 0x06 false).markSuspect core a)) ∧
      exec (.tileOperandFail core a) s = .next s) ∧
    (d.result.waiting = false → d.result.status ≠ 0 →
      (let u := s1.finishTile core a t d.result.status true
       (∀ x ∈ rest, x.running = false) → u.TileSettled core a →
        exec (.tileOperandFail core a) s = .next (u.tileLinesTaken core a)) ∧
      exec (.tilePassEnd core a faults) s = .next s) ∧
    (d.result.waiting = false → d.result.status = 0 → d.reqs ≠ t.reqs →
      exec (.tileOperandFail core a) s =
        .next (s.setArray core a ((s.array core a).setTile 0 { t with reqs := d.reqs })) ∧
      exec (.tilePassEnd core a faults) s = .next s)

/-- R211, R222 to R227: the goose, when it has the vector unit, recomputes the sample of an array with its operands read and counted, and
records one that does not agree; one whose operand read fails is skipped and counted in GOOSE_SKIPPED; then its tile's completion is
released. While lines of the operands are under way from elsewhere only their requests are made. A sample that has waited GOOSE_WAIT_MAX is
marked to go first. A write of GOOSE_SEED stores it and leaves every sampling register to be seeded again. NUMERIC_CLEAR leaves in the
counters of the core it names, or of every core, the events that the core has counted in this reference cycle. -/
def Obligations.GooseAndNumericCounters : Prop :=
  ∀ (s : State) (core a : Nat) (smp : Sample) (v : Word32),
    let u := s.array core a
    let who := Agent.goose core a
    let tw := coreTower core
    (∀ t rest r pairs s1, u.sample = some smp → u.done = t :: rest → s.coreUp core = true → s.gooseMay core a smp = true →
      s.gooseRead core a t smp (tilePasses t.words) 0 = (r, pairs, s1) →
      let sum := gooseSum smp.y0 (f32Abs smp.y0) pairs
      let s2 := s1.towerWrap 0xB210 tw 1
      let w := if r.status ≠ 0 then (s1.towerWrap 0xB212 tw 1).releaseSample core a
        else if gooseAgrees (tileO t.words) smp.tol smp.yOut sum.1 sum.2 then s2.releaseSample core a
        else (s2.gooseDisagree core a (gooseRecord (s2.refTime tw) sum.1 smp.yOut sum.2 core a smp t.words)).releaseSample core a
      (r.waiting = true → s1.Awaits [who] → exec (.gooseRecompute core a) s = .next (s.asking s1)) ∧
      (r.waiting = false → w.Settled who → exec (.gooseRecompute core a) s = .next (w.linesTaken who))) ∧
    (u.sample = some smp → s.coreUp core = true → smp.since + nsCycles (s.reg 0x8100 6) ≤ s.run →
      exec (.gooseWaitExpiry core a) s = .next (s.setArray core a { u with sample := some { smp with expired := true } })) ∧
    (s.steward.lost = false →
      Completes (.gooseSeedWrite v) s (fun t => t.reg 0x8100 4 = v.toNat ∧ t = { s with cores := t.cores, regs := t.regs } ∧
        (∀ c ∈ t.cores, ∀ e ∈ c.2.arrays, e.2.lfsr = 0)) ∧
      (let n := v.toNat % 2 ^ 14
       let c := s.core n
       v.getLsbD 31 = false → coreExists n = true →
        (c.cycleAt ≠ s.now → exec (.numericClear v) s = .next
          (s.setCore n { c with sats := [], nans := [], cycleAt := s.now, cycleSats := [], cycleNans := [] })) ∧
        (c.cycleAt = s.now → exec (.numericClear v) s = .next (s.setCore n { c with sats := c.cycleSats, nans := c.cycleNans }))) ∧
      (v.getLsbD 31 = true → Completes (.numericClear v) s fun t =>
        (∀ e ∈ t.cores, ∃ f ∈ s.cores, e.1 = f.1 ∧ e.2.sats = (if f.2.cycleAt = s.now then f.2.cycleSats else []) ∧
          e.2.nans = (if f.2.cycleAt = s.now then f.2.cycleNans else [])) ∧ t = { s with cores := t.cores }))

/-! ### Events, the steward and the pace loops -/

/-- R656: an event enters EVENT_LOG at its head, which goes on by one modulo 256, with the tower's reference time, its code, tower and
detail; its bit of EVENT_PENDING is set and its count rises by one, up to 0xFFFF_FFFF; with the steward lost none is logged (R39).
R32, R36 to R39: while a steward runs and is not lost a heartbeat is noted. 5 ms after the last one, with a standby ready, the standby
becomes active: ACTIVE_STEWARD reads 1, STANDBY_READY 0, the takeover is counted and its event pending, and requests in progress and
snapshots are gone. 6 ms after it with none ready the steward is lost, and a mailbox request that a member was performing is answered
NOT_READY. STANDBY_STEWARD_FAILED clears STANDBY_READY. A failed segment of the management ring sets its bit and makes its event pending. -/
def Obligations.EventsAndTheSteward : Prop :=
  (∀ (s : State) (code tower detail : Nat),
      (s.steward.lost = true → s.raise code tower detail = s) ∧
      (s.steward.lost = false →
        let t := s.raise code tower detail
        t.reg 0xA200 2 = (s.reg 0xA200 2 + 1) % 256 ∧ t.reg 0xA200 3 = s.reg 0xA200 3 ||| 2 ^ code ∧
        Map.get 0 t.events.counts code = min (Map.get 0 s.events.counts code + 1) 0xFFFFFFFF ∧
        Map.get 0 t.events.log (s.reg 0xA200 2) =
          BitVec.ofNat 128 ((s.refTime tower).toNat * 2 ^ 64 + code % 256 * 2 ^ 56 + tower % 8 * 2 ^ 53 + detail % 2 ^ 32) ∧
        (∀ i, i ≠ s.reg 0xA200 2 → Map.get 0 t.events.log i = Map.get 0 s.events.log i) ∧
        t = { s with events := t.events, regs := t.regs })) ∧
  (∀ (s : State) (segment : Nat),
      (s.steward.running = true ∨ s.boot.started = true → s.steward.lost = false →
        exec .heartbeat s = .next { s with steward := { s.steward with lastHeartbeat := s.now } }) ∧
      (s.steward.running = true → s.reg 0x9010 3 = 1 → s.steward.lastHeartbeat + msCycles 5 ≤ s.now → s.steward.lost = false →
        Completes .stewardTakeover s fun t => t.reg 0x9010 1 = 1 ∧ t.reg 0x9010 3 = 0 ∧
          t.reg 0x9010 2 = min (s.reg 0x9010 2 + 1) 0xFFFFFFFF ∧ t.reg 0xA200 3 = s.reg 0xA200 3 ||| 2 ^ 2 ∧
          t.dict = { s.dict with snaps := [] } ∧ t.host = { s.host with mbBusy := false, mbSent := [] } ∧ t.fields = s.fields ∧
          t.cores = s.cores ∧ t.mem = s.mem ∧ t.queues = s.queues ∧ t.channels = s.channels) ∧
      (s.steward.running = false → s.boot.started = true → s.boot.inputLoss = false → s.reg 0x9000 1 = 0 →
        s.steward.lastHeartbeat + msCycles 5 ≤ s.now → exec .stewardTakeover s = .next (s.setReg 0x9000 1 0x80)) ∧
      (s.steward.running = true → s.reg 0x9010 3 = 0 → s.steward.lastHeartbeat + msCycles 6 ≤ s.now →
        let t : State := { s with steward := { s.steward with lost := true } }
        let m := messageOf s.host.mbSent
        exec .stewardLost s = .next (if s.host.mbSent = [] then t
          else t.finishMailbox m.seq (m.response { result := resultNotReady }))) ∧
      Completes .standbyStewardFailed s (fun t => t.reg 0x9010 3 = 0 ∧ t = { s with regs := t.regs }) ∧
      (segment < 8 → s.steward.lost = false → Completes (.mgmtRingSegmentFail segment) s fun t =>
        (t.reg 0x9010 4).testBit segment = true ∧ t.reg 0xA200 3 = s.reg 0xA200 3 ||| 2 ^ 1 ∧
        t = { s with regs := t.regs, events := t.events }))

/-- R35, R53 to R57, R61, R63, R65, R77, R78, R81, R83. STRETCH_REQUEST: the governor of a core of a powered field keeps the value that a
level other than the field controller's asks for, at most 16. The stretch in force on a core is at most 16 and, up to 16, at least every
request that it holds, the field's transition stretch and the core's thermal stretch.
LINK_PACE_WINDOW, at the end of a 1.0 µs window of a tower: the slowest ring's pace, the target of R65 and the stretches in force are shown,
and the setpoint makes the step of R57 (in units of 1.25 mV: none within 0.5 % of the target, else 2 up to an error of 3 % and 4 above it,
from 480 to 680); a rail that is off or held in SHUTDOWN or after an input loss makes no step, and one that is off shows the pace 0; the other
towers' rails and all else stay; before the window's end nothing happens.
PACE_HOST_TARGET_WRITE stores its value clamped to 1,000 to 1,800 and saves it.
PACE_WINDOW, at the end of a window of a field, before which nothing happens. Powered, its ring working and counting from 500 to 2,200, in no
transition and with its target unchanged, the field shows the count and makes the step of R57 in its setpoint. With a ring that has failed or
counts fewer or more, the ring is marked failed, the pace reads 0, the transition stretch is 2, and the setpoint goes down by 4, to 480. Not
powered, the loop is idle: the pace reads 0, target and limiter follow the limits, and the setpoint stays. No other field changes. -/
def Obligations.PaceLoops : Prop :=
  (∀ (s : State) (core level value tower slowest : Nat) (v : BitVec 16),
      (coreExists core = true → s.fieldUp (coreField core) = true → level ≠ 0 →
        exec (.stretchRequest core level value) s = .next
          (s.setCore core { s.core core with stretch := Map.set 0 (s.core core).stretch level (min 16 value) })) ∧
      (let k := s.field (coreField core)
       s.appliedStretch core ≤ 16 ∧ (∀ e ∈ (s.core core).stretch, min 16 e.2 ≤ s.appliedStretch core) ∧
        min 16 k.transition ≤ s.appliedStretch core ∧ min 16 (Map.get 0 k.thermal core) ≤ s.appliedStretch core) ∧
      (tower < 8 → (s.linksRail tower).windowAt + usCycles 1 ≤ s.now → Completes (.linkPaceWindow tower slowest) s fun t =>
        (t.linksRail tower).target = s.linkTarget tower ∧
        (t.linksRail tower).meas = (if s.railsCut = true ∧ (s.linksRail tower).setpoint = 0 then 0 else slowest) ∧
        (let old := (s.linksRail tower).setpoint
         let target := s.linkTarget tower
         let e := max slowest target - min slowest target
         (t.linksRail tower).setpoint = (if s.railsCut = true then old else if e * 200 ≤ target then old
           else if slowest < target then min 680 (old + if e * 100 ≤ 3 * target then 2 else 4)
           else max 480 (old - if e * 100 ≤ 3 * target then 2 else 4))) ∧
        (t.linksRail tower).windowAt = (s.linksRail tower).windowAt + usCycles 1 ∧
        (t.linksRail tower).stretches = s.towerStretches tower ∧
        (∀ k, k ≠ tower → t.linksRail k = s.linksRail k) ∧ t = { s with links := t.links }) ∧
      (s.now < (s.linksRail tower).windowAt + usCycles 1 → exec (.linkPaceWindow tower slowest) s = .next s) ∧
      (s.steward.lost = false → let w := max 1000 (min 1800 v.toNat)
        exec (.paceHostTargetWrite v) s = .next ((s.setReg 0x2200 1 w).save 0x2200 1 (natToBytes 2 w)))) ∧
  (∀ (s : State) (f count : Nat), s.now < (s.field f).windowAt + usCycles 1 → exec (.paceWindow f count) s = .next s) ∧
  (∀ (s : State) (f count : Nat), f < 64 → s.fieldUp f = true → (s.field f).windowAt + usCycles 1 ≤ s.now →
      let k := s.field f
      let e := max count k.target - min count k.target
      (k.ringFault = false → 500 ≤ count → count ≤ 2200 → k.since = none → k.falling = none →
        k.target = max 1000 (s.lowestLimit f) →
        Completes (.paceWindow f count) s fun t =>
          (t.field f).meas = count ∧ (t.field f).target = k.target ∧ (t.field f).transition = 0 ∧ (t.field f).rail = k.rail ∧
          (t.field f).setpoint =
            (if e * 200 ≤ k.target then k.setpoint
             else if count < k.target then min 680 (k.setpoint + if e * 100 ≤ 3 * k.target then 2 else 4)
             else max 480 (k.setpoint - if e * 100 ≤ 3 * k.target then 2 else 4)) ∧
          (t.field f).shownSetpoint = (t.field f).setpoint ∧ (t.field f).windowAt = k.windowAt + usCycles 1 ∧
          (∀ g, g ≠ f → t.field g = s.field g) ∧ t = { s with fields := t.fields, regs := t.regs, cores := t.cores }) ∧
      (k.ringFault = true ∨ count < 500 ∨ 2200 < count →
        Completes (.paceWindow f count) s fun t =>
          t.field f = { k with ringFault := true, meas := 0, transition := 2, falling := none, since := none,
                               target := max 1000 (s.lowestLimit f),
                               limiter := s.limiterBits f false ||| 0x80, setpoint := max 480 (k.setpoint - 4),
                               shownSetpoint := max 480 (k.setpoint - 4), windowAt := k.windowAt + usCycles 1 } ∧
          (∀ g, g ≠ f → t.field g = s.field g) ∧ t = { s with fields := t.fields, regs := t.regs, events := t.events, cores := t.cores })) ∧
  (∀ (s : State) (f count : Nat), f < 64 → s.fieldUp f = false → (s.field f).windowAt + usCycles 1 ≤ s.now →
      let k := s.field f
      Completes (.paceWindow f count) s fun t =>
        t.field f = { k with meas := 0, target := max 1000 (s.lowestLimit f),
                             limiter := s.limiterBits f false ||| (if k.ringFault then 0x80 else 0),
                             shownSetpoint := k.setpoint, windowAt := k.windowAt + usCycles 1 } ∧
        (∀ g, g ≠ f → t.field g = s.field g) ∧ t = { s with fields := t.fields, regs := t.regs, cores := t.cores })

/-! ### Queues and the dispatcher -/

/-- R409, R411: an 8-byte doorbell, while the device runs and is READY and no earlier host request waits, of a consumer-managed queue in
service with a valid ring, whose index is not behind PI and leaves at most the ring's slots filled, sets PI and enters the descriptors handed
over in the ledger; one that names PI itself changes nothing. One that goes back or leaves more changes no index, and is counted in
DOORBELL_ERRORS with a QUEUE_ERROR event. -/
def Obligations.DoorbellSetsTheProducerIndex : Prop :=
  ∀ (s : State) (q : Nat) (v : BitVec 64),
    s.host.ops = [] → s.host.mbRung = false → s.running = true → s.dm.published = true → s.reg 0x3000 7 ≠ 4 → queueExists q = true →
    s.inService (queueCore q) = true → (s.queue q).producer = false → (s.queue q).ringValid q = true →
    let k := s.queue q
    let new : Word32 := v.truncate 32
    let fills := (new - k.ci).toNat
    (new ≠ k.pi → (k.pi - k.ci).toNat ≤ fills → fills ≤ 2 ^ k.ringLog2.toNat → exec (.doorbell q 8 0 v) s =
      .next (((s.withTokens 1).setQueue q { k with pi := new }).enterLedger q (new - k.pi).toNat k.pi)) ∧
    (new = k.pi → fills ≤ 2 ^ k.ringLog2.toNat → exec (.doorbell q 8 0 v) s = .next (s.withTokens 1)) ∧
    (fills < (k.pi - k.ci).toNat ∨ 2 ^ k.ringLog2.toNat < fills → s.steward.lost = false →
      Completes (.doorbell q 8 0 v) s fun t =>
        t.reg 0xB704 (q / 2 ^ 16 + 1) = min (s.reg 0xB704 (q / 2 ^ 16 + 1) + 1) 0xFFFFFFFF ∧
        t.reg 0xA200 3 = s.reg 0xA200 3 ||| 2 ^ 9 ∧
        t = { s with regs := t.regs, events := t.events, fresh := s.fresh + 1 })

/-- R407, R408, R432: a whole-word write of a control block while the device runs. Words 1 to 3 change only while ENABLE reads 0. Word 0
without ENABLE, or with ENABLE while it reads 1, stores the fields that the queue then lets change: PRIORITY, SWITCH_WIDTH and the NOTIFY bits,
and the others only while ENABLE reads 0. Word 0 that sets ENABLE does so where the ring fields are valid, the reserved bits 41 and 29:0 are
zero and the core is in service, and else changes no field, and is counted in QUEUE_CONFIG_ERRORS with a QUEUE_ERROR event. RESET_INDICES and
FLUSH of an enabled queue are counted there and do nothing else; RESET_INDICES of a disabled queue with nothing taken sets the indices and
COMPLETED to zero and clears its ledger entries; FLUSH of one, with no WAIT held, does nothing where CI is PI and completes the one descriptor
between them with ABORTED. While the device is frozen none of these writes is performed.
R421 to R423: a descriptor taken from a ring in SRAM whose slot's line passes its check, not a frame's launch and with no record to write,
has STATUS and DONE written to its slot's word 0; with neither sync nor message asked for, COMPLETED then goes on by one and its slot is free;
with NOTIFY_SYNC the ADD is sent, and COMPLETED waits. -/
def Obligations.QueueControlBlocks : Prop :=
  (∀ (s : State) (q : Nat) (v : BitVec 64), queueExists q = true → s.running = true →
      let k := s.queue q
      let w (n : Nat) (v : BitVec 64) := exec (.qcbWrite q n v true true) s
      (k.enable = true → w 1 v = .next s ∧ w 2 v = .next s ∧ w 3 v = .next s) ∧
      (k.enable = false → w 1 v = .next (s.setQueue q { k with ringAddr := v.truncate 48 }) ∧
        w 2 v = .next (s.setQueue q { k with recordAddr := v }) ∧
        w 3 v = .next (s.setQueue q { k with notifyObject := v.truncate 19 })) ∧
      (let n := v.toNat
       let kept : Queue := { k with
         priority := BitVec.ofNat 2 (n / 2 ^ 60), switchWidth := some (BitVec.ofNat 8 (n / 2 ^ 42)),
         notifyMsix := v.getLsbD 52, notifyRecord := v.getLsbD 51, notifySync := v.getLsbD 50 }
       let new : Queue := { kept with
         producer := v.getLsbD 62, ringSpace := BitVec.ofNat 2 (n / 2 ^ 58), ringLog2 := BitVec.ofNat 5 (n / 2 ^ 53),
         msixVector := BitVec.ofNat 11 (n / 2 ^ 30) }
       let legal : Prop := new.ringValid q = true ∧ v.toNat % 2 ^ 30 = 0 ∧ v.getLsbD 41 = false ∧ s.inService (queueCore q) = true
       (v.getLsbD 63 = false → k.enable = false → w 0 v = .next (s.setQueue q { new with enable := false, eligibleSince := none })) ∧
       (v.getLsbD 63 = false → k.enable = true → w 0 v = .next (s.setQueue q { kept with enable := false, eligibleSince := none })) ∧
       (v.getLsbD 63 = true → k.enable = true → w 0 v = .next (s.setQueue q { kept with enable := true })) ∧
       (v.getLsbD 63 = true → k.enable = false → legal → w 0 v = .next (s.setQueue q { new with enable := true })) ∧
       (v.getLsbD 63 = true → k.enable = false → ¬ legal → s.steward.lost = false → Completes (.qcbWrite q 0 v true true) s fun t =>
          t.reg 0xB706 (q / 2 ^ 16 + 1) = min (s.reg 0xB706 (q / 2 ^ 16 + 1) + 1) 0xFFFFFFFF ∧
          t.reg 0xA200 3 = s.reg 0xA200 3 ||| 2 ^ 9 ∧ t = { s with regs := t.regs, events := t.events })) ∧
      (k.enable = true → Completes (.resetIndices q) s fun t =>
        t.reg 0xB706 (q / 2 ^ 16 + 1) = min (s.reg 0xB706 (q / 2 ^ 16 + 1) + 1) 0xFFFFFFFF ∧ t = { s with regs := t.regs }) ∧
      (k.enable = false → k.taken = [] → let u := (s.setQueue q { k with pi := 0, ci := 0, completed := 0 }).orphanFrames q
        exec (.resetIndices q) s = .next (u.setCore (queueCore q) { u.core (queueCore q) with
          ledger := (u.core (queueCore q)).ledger.filter fun e => e.queue != q })) ∧
      (k.enable = true → Completes (.flush q) s fun t =>
        t.reg 0xB706 (q / 2 ^ 16 + 1) = min (s.reg 0xB706 (q / 2 ^ 16 + 1) + 1) 0xFFFFFFFF ∧ t = { s with regs := t.regs }) ∧
      (k.enable = false → k.taken = [] → k.waiting = none → k.pi = k.ci → exec (.flush q) s = .next s) ∧
      (k.enable = false → k.taken = [] → k.waiting = none → k.pi = k.ci + 1 →
        exec (.flush q) s = .next ((s.setQueue q { k with ci := k.ci + 1, taken := [⟨k.ci.toNat, s.peekWord0 q k.ci.toNat, none⟩] }).completeRing
          q k.ci.toNat 0x08))) ∧
  (∀ (s : State) (q n : Nat) (v : BitVec 64), s.running = false →
      exec (.qcbWrite q n v true true) s = .next s ∧ exec (.resetIndices q) s = .next s ∧ exec (.flush q) s = .next s) ∧
  (∀ (s s1 : State) (q i : Nat) (st : Status) (d : Taken),
      let k := s.queue q
      k.taken.find? (fun t => t.index == i && t.ending.isNone) = some d → s.frameOf q i = none → k.ringSpace ≠ 2 →
      s.slotFails (s.slotAddr q i) = false → k.notifyRecord = false → s1.queue q = k →
      s.writeRange (s.slotAddr q i + 6) [BitVec.ofNat 8 (128 + d.word0.toNat / 2 ^ 48 % 128), BitVec.ofNat 8 st.toNat] none = (0, s1) →
      let t := s.completeRing q i st
      (k.notifySync = false → k.notifyMsix = false →
        t.queue q = { k with completed := k.completed + 1
                             taken := k.taken.filter (·.index != i)
                             waiting := if k.waiting = some i then none else k.waiting } ∧
        (∀ j, j ≠ q → t.queue j = s1.queue j) ∧ t = { s1 with queues := t.queues, cores := t.cores }) ∧
      (k.notifySync = true → t = (s1.setQueue q { k with
          taken := k.taken.map fun x => if x.index = i then { x with ending := some st } else x
          waiting := if k.waiting = some i then none else k.waiting }).sendSync .add k.notifyObject.toNat 1 (.notify q i)))

/-- R424, R425: the dispatcher of a core picks one of its 32 queues exactly where one is eligible, of the highest level among the eligible
ones. It takes nothing while its core is down, no queue is eligible, a rerun waits (R454) or a doorbell is held (R432); else, the slot's
lines read, CI goes on by one, the queue is no longer aged, the round robin and the ledger note the take, which is counted, and an aged one
again, and the descriptor is performed, or completed with the status of its read.
R425 to R427, R432: a queue that has been eligible for STARVE_LIMIT is aged; one that has not, or with STARVE_LIMIT 0, is not. The forecast of
a field, while the device runs, is 0 where the field is not powered and else what the ledgers of its cores in service give together; no
other entry changes; frozen it stays. -/
def Obligations.DispatcherTakesByLevel : Prop :=
  (∀ (s : State) (core : Nat),
      (∀ lvl n, s.pick core = some (lvl, n) → n < 32 ∧ s.eligible (core * 32 + n) = true ∧ (s.queue (core * 32 + n)).level = lvl ∧
        ∀ m, m < 32 → s.eligible (core * 32 + m) = true → (s.queue (core * 32 + m)).level ≤ lvl) ∧
      (∀ m, m < 32 → s.eligible (core * 32 + m) = true → s.pick core ≠ none) ∧
      (s.coreUp core = false ∨ s.pick core = none ∨ s.rerunWaits core = true ∨ s.doorbellHeld = true →
        exec (.dispatcherTake core) s = .next s) ∧
      (∀ lvl n r v, s.coreUp core = true → s.doorbellHeld = false → s.rerunWaits core = false → s.pick core = some (lvl, n) →
        let q := core * 32 + n
        let i := (s.queue q).ci.toNat
        let who := Agent.dispatcher core
        s.readRange (s.slotAddr q i) 64 who = (r, v) → r.waiting = false →
        let words := (List.range 8).map fun j => BitVec.ofNat 64 (bytesToNat ((r.bytes.drop (8 * j)).take 8))
        let u := v.setQueue q { v.queue q with
          ci := (s.queue q).ci + 1, taken := (v.queue q).taken ++ [⟨i, if r.status = 0 then words.getD 0 0 else 0, none⟩],
          aged := false, eligibleSince := none }
        let u := u.setCore core { u.core core with
          lastTaken := Map.set 31 (u.core core).lastTaken lvl n,
          ledger := (u.core core).ledger.map fun e => if e.queue = q ∧ e.index = i then { e with startedAt := some u.run } else e }
        let u := u.towerWrap 0xB700 (coreTower core) 1
        let u := if lvl = 4 then u.towerWrap 0xB703 (coreTower core) 1 else u
        let t := if r.status = 0 then u.perform q i words else u.completeRing q i r.status
        t.Settled who → exec (.dispatcherTake core) s = .next (t.linesTaken who))) ∧
  (∀ (s : State) (q f t0 : Nat),
      ((s.queue q).eligibleSince = some t0 → s.reg 0x6000 1 ≠ 0 → t0 + s.reg 0x6000 1 * 1200 ≤ s.run →
        exec (.queueAged q) s = .next (s.setQueue q { s.queue q with aged := true })) ∧
      ((s.queue q).eligibleSince = some t0 → s.reg 0x6000 1 = 0 ∨ s.run < t0 + s.reg 0x6000 1 * 1200 →
        exec (.queueAged q) s = .next s) ∧
      (f < 64 → s.running = true → Completes (.fieldForecast f) s fun t =>
        t.reg 0x6001 (f + 1) = (if s.fieldUp f then (((fieldCores f).filter s.inService).map s.coreForecast).sum / 1000 else 0) ∧
        (∀ idx sub, sub < 256 → ¬ (idx = 0x6001 ∧ sub = f + 1) → t.reg idx sub = s.reg idx sub) ∧ t = { s with regs := t.regs }) ∧
      (s.running = false → exec (.fieldForecast f) s = .next s))

/-! ### Channels, packets and the spread hash -/

/-- R67, R70, R254, R272, R275, R276, R321, R437. WINDOW_INSERT: a request of this device whose turn its port gives, and that no earlier
one of its source to the same line precedes, enters the FIFO of its channel, at most 16, as the last or, from the core above, before one of
the crossbar of the same cycle; without turn or room nothing happens. A FIFO of one request hands it on where the controller takes it. The
controller, its target in service, answers one that meets a hen range FENCE_VIOLATION and counts it, and takes a write that meets none as a
new last entry of the window while that holds fewer than 64, and of its source fewer than 56, and else leaves it.
DRAM_READ_DATA, on an undisturbed line whose time has come and whose answers have room: the read-modify-writes of its requests are performed;
a demand read of one request is answered from the stored bytes where the line is clean, and with POISON and no data, counted, where it is
poisoned.
COMMAND_CHOOSE: while the device is frozen, a command of this cycle or later stands, or the write column of a read-modify-write takes the
slot, nothing is issued. Else the chosen command is issued: none changes nothing more, a precharge and an activate act on their bank and take
the slots. -/
def Obligations.ChannelWindowAndCommands : Prop :=
  (∀ (s : State) (id ch off i : Nat) (r : Req) (f : InFlight) (rest : List InFlight), s.running = true →
      let c := s.channel ch
      let a := dramAddr ch (f.line * 64)
      (s.findReq id = some r → r.stage = .sent → s.isOwn (r.addr / 2 ^ 48 % 64) = true → s.behindSameLine r = false →
        placeOf r.loc = .dram ch off →
        (c.fifo.length < 16 → s.portTurn r = true →
          let k := c.enqueue id (s.fromAbove ch r) s.now
          let t := (((s.setChannel ch k).updReq id fun q => { q with stage := .arrived }).grantPort r).settleFifo ch
          exec (.windowInsert id) s = .next
            (if s.fromAbove ch r then t.setChannel ch ((t.channel ch).coreFirst id s.now) else t) ∧
          k.fifo = (if s.fromAbove ch r = true ∧ c.crossAt = s.now + 1 ∧ c.fifo.getLast? = some c.crossId
            then c.fifo.dropLast ++ [id, c.crossId] else c.fifo ++ [id])) ∧
        (16 ≤ c.fifo.length ∨ s.portTurn r = false → exec (.windowInsert id) s = .next s)) ∧
      (c.fifo = [id] → s.findReq id = some r →
        (s.enterWindow ch r = none → s.settleFifo ch = s) ∧
        (∀ t, s.enterWindow ch r = some t → s.settleFifo ch = t.setChannel ch { t.channel ch with fifo := [] })) ∧
      ((s.upChannel r = none ∨ s.upFull ch = false) → s.reachStatus (r.src.tower.getD (coreTower ch)) (.dram ch (r.loc % channelBytes)) = 0 →
        (s.henFenced ch (r.loc % channelBytes) r.isRead = true → s.enterWindow ch r =
          some ((s.setReg 0xB406 (coreTower ch + 1) ((s.reg 0xB406 (coreTower ch + 1) + 1) % 2 ^ 64)).answerReq r.id 0x0B [])) ∧
        (s.henFenced ch (r.loc % channelBytes) r.isRead = false → r.isRead = false →
          let line := r.loc % channelBytes / 64
          let mine := (c.window.filter fun e => e.fromCore == s.fromAbove ch r).length
          (64 ≤ c.window.length ∨ 56 ≤ mine → s.enterWindow ch r = none) ∧
          (c.window.length < 64 → mine < 56 → c.held (lineBank line) = false →
            ∃ e : WinEntry, e.reqs = [r.id] ∧ e.line = line ∧ e.isRead = false ∧ e.arrival = s.run ∧ e.heldAt = none ∧
              e.fromCore = s.fromAbove ch r ∧
              s.enterWindow ch r = some ((s.setChannel ch { c.writeArrives line with window := c.window ++ [e] }).updReq r.id
                fun q => { q with stage := .window })))) ∧
      (c.flight = f :: rest → f.due ≤ s.run → f.got = none →
        (∀ i ∈ f.reqs, ∀ r, s.findReq i = some r → ∀ k, s.upChannel r = some k → s.upFull k = false) →
        (f.rmw = true → exec (.dramReadData ch []) s = .next (f.reqs.foldl (fun (s : State) i => match s.findReq i with
          | some r => s.mergeLine ch r
          | none => s) (s.setChannel ch { c with flight := rest }))) ∧
        (f.rmw = false → f.scrub = false → f.prefetch = false → f.reqs = [i] → f.line < 2 ^ 20 →
          (s.checkOf (a / 64) = 0 → exec (.dramReadData ch []) s = .next
            (((s.setChannel ch { c with flight := rest }).countLine ch (f.line * 64) false f.spread).answerLine i 0 (s.bytes a 64))) ∧
          (s.checkOf (a / 64) = poisonDiff → Completes (.dramReadData ch []) s fun t =>
            ∃ u : State, t = u.answerLine i 0x01 [] ∧ (u.channel ch).poisonReads = min (c.poisonReads + 1) 0xFFFFFFFF ∧
              u = { s with channels := u.channels })))) ∧
  (∀ (s : State) (ch : Nat), coreExists ch = true →
      let c := (s.channel ch).settleBoundary
      let u := s.setChannel ch { c with
        up := s.upEntries ch
        boundary := c.boundary.filter fun e => !c.boundaryOver e.1 e.2 (s.agedOver ch)
        ordinary := if (s.nextTransfer ch).isSome then c.ordinary else 0 }
      let at_ (n : Nat) : Channel := { u.channel ch with commandAt := some n }
      let free := (∀ n, (s.channel ch).commandAt = some n → n < s.run) ∧ s.run ∉ (s.channel ch).slots
      (s.running = false ∨ (∃ n, (s.channel ch).commandAt = some n ∧ s.run ≤ n) ∨ s.run ∈ (s.channel ch).slots →
        exec (.commandChoose ch) s = .next s) ∧
      (s.running = true → free → exec (.commandChoose ch) s = .next (u.issueCommand ch (u.chooseCommand ch)) ∧
        u.issueCommand ch .none = u ∧
        (∀ b, u.issueCommand ch (.precharge b) = u.setChannel ch ((at_ s.run).precharge b s.run)) ∧
        (∀ b row, u.issueCommand ch (.activate b row) = u.setChannel ch ((at_ (s.run + 1)).activate b row s.run))))

/-- R107, R110, R238, R242, R243, R450. READ_PACKET, WRITE_PACKET and ATOMIC_PACKET of a thread's request of this device that has come to a
slice or a core store and has its target port's turn, while the device runs. At a core store in service the bank gives it a beat, or it loses
and nothing else happens. Granted, a read of a line that passes its check answers the stored bytes, or, its line upset first, what reading the
upset line gives; a write stores its own bytes and no other, and is answered 0; an atomic of a line that passes its check answers the old
value and stores the new one. A slice is served the same without a bank, each access counted. A target that cannot be reached answers its
status. -/
def Obligations.PacketsServedAtACoreStore : Prop :=
  ∀ (s : State) (id core ctx serial c off : Nat) (r : Req), s.running = true → s.findReq id = some r → r.id = id → r.stage = .sent →
    r.src = .thread core ctx serial → s.isOwn (r.addr / 2 ^ 48 % 64) = true → s.behindSameLine r = false → s.reqTravels r = false →
    s.portTurn r = true →
    let served (u : State) : State := (u.grantPort r).updReq id fun q => { q with stage := .arrived }
    let b := s.bank c (storeBank off)
    let k := s.reqProducer r
    (placeOf r.loc = .store c off → s.reachStatus (coreTower core) (.store c off) = 0 → b.wins 15 s.now = true →
      let u := served (s.setBank c (storeBank off) (b.serve 15 s.now))
      (∀ n, r.kind = .read n → s.LineOk (r.loc / 64) (.thread core ctx) →
        exec (.readPacket ⟨id, []⟩) s = .next (u.answerReq id 0 (s.bytes r.loc n))) ∧
      (∀ n flip flips q v, r.kind = .read n →
        (u.upsetSram (r.loc / 64) (flip :: flips)).readPlace r.loc n (.thread core ctx) r.spread = (q, v) →
        exec (.readPacket ⟨id, flip :: flips⟩) s = .next (if q.waiting then v else v.answerReq id q.status q.bytes)) ∧
      (∀ bytes, r.kind = .write bytes → Completes (.writePacket id) s fun t =>
        t = (u.writeSram r.loc bytes k).answerReq id 0 [] ∧ SameBytesBut s t r.loc bytes.length ∧
        t.bytes r.loc bytes.length = bytes) ∧
      (∀ op x y, r.kind = .atomic op x y → s.LineOk (r.loc / 64) (.thread core ctx) →
        let old := s.bytes r.loc 8
        let new := amoApply op (BitVec.ofNat 64 (bytesToNat old)) x y
        Completes (.atomicPacket id) s fun t =>
          t = (u.writeSram r.loc (natToBytes 8 new.toNat) k).answerReq id 0 old ∧ SameBytesBut s t r.loc 8 ∧
          t.bytes r.loc 8 = natToBytes 8 new.toNat)) ∧
    (placeOf r.loc = .store c off → s.reachStatus (coreTower core) (.store c off) = 0 → b.wins 15 s.now = false →
      let u := s.setBank c (storeBank off) (b.lose 15 s.now)
      exec (.readPacket ⟨id, []⟩) s = .next u ∧ exec (.atomicPacket id) s = .next u ∧ exec (.writePacket id) s = .next u) ∧
    (placeOf r.loc = .slice c off → s.reachStatus (coreTower core) (.slice c off) = 0 →
      let seen (u : State) : State := { u with mem := { u.mem with sliceAccesses := Map.upd 0 u.mem.sliceAccesses c (· + 1) } }
      (∀ n, r.kind = .read n → s.LineOk (r.loc / 64) (.thread core ctx) →
        exec (.readPacket ⟨id, []⟩) s = .next ((seen (served s)).answerReq id 0 (s.bytes r.loc n))) ∧
      (∀ bytes, r.kind = .write bytes → Completes (.writePacket id) s fun t =>
        t = (seen ((served s).writeSram r.loc bytes k)).answerReq id 0 [] ∧ SameBytesBut s t r.loc bytes.length ∧
        t.bytes r.loc bytes.length = bytes)) ∧
    (placeOf r.loc = .store c off ∨ placeOf r.loc = .slice c off → s.reachStatus (coreTower core) (placeOf r.loc) ≠ 0 →
      let st := s.reachStatus (coreTower core) (placeOf r.loc)
      exec (.readPacket ⟨id, []⟩) s = .next ((served s).answerReq id st []) ∧
      exec (.atomicPacket id) s = .next ((served s).answerReq id st []) ∧
      exec (.writePacket id) s = .next ((served s).answerReq id st []))

/-- R266 to R268. HASH_KEY_WRITE: with the steward there, key 1 to 9 is in force once written, and no other changes. HASH_IMBAL_WINDOW: at
the end of a tower's window of 1 ms, and not before, each of its channels starts a new count; the window is imbalanced where the tower moved
65,536 spread lines or more and the busiest channel's share is over the ratio of 0x4103; the run of imbalanced windows ends or goes on by
one, and where it comes to the configured number, with the steward there, the event is raised: recorded, counted and pending.
HASH_IMBAL_REPEAT: while the run lasts, the event is raised again once the configured seconds have passed. -/
def Obligations.SpreadHashAndItsWatch : Prop :=
  ∀ (s : State) (sub t : Nat) (v : BitVec 64), t < 8 →
    let w := Map.get {} s.hashWatch t
    let moved := s.spreadMoved t
    let total := moved.foldl (fun n e => n + e.2) 0
    let top := moved.foldl (fun (b : Nat × Nat) e => if b.2 < e.2 then e else b) (0, 0)
    let bad := 65536 ≤ total ∧ s.reg 0x4103 1 * total < top.2 * 16 * 1280
    let counts (u : State) : Prop := Map.wf {} s.channels = true → ∀ ch,
      (coreTower ch = t → (u.channel ch).spreadAtWindow = (s.channel ch).spreadLines) ∧ (coreTower ch ≠ t → u.channel ch = s.channel ch)
    (s.steward.lost = false → 1 ≤ sub → sub ≤ 9 → Completes (.hashKeyWrite sub v) s fun u => u.hashKey sub = v ∧
      (∀ k, k ≤ 9 → k ≠ sub → u.hashKey k = s.hashKey k) ∧ u = { s with regs := u.regs }) ∧
    (w.windowAt + msCycles 1 ≤ s.now → ¬ bad → Completes (.hashImbalWindow t) s fun u =>
      Map.get {} u.hashWatch t = { w with windowAt := s.now, consecutive := 0 } ∧ counts u ∧
      (∀ k, k ≠ t → Map.get {} u.hashWatch k = Map.get {} s.hashWatch k) ∧ u = { s with hashWatch := u.hashWatch, channels := u.channels }) ∧
    (w.windowAt + msCycles 1 ≤ s.now → bad → w.consecutive + 1 ≠ s.reg 0x4103 2 → Completes (.hashImbalWindow t) s fun u =>
      (Map.get {} u.hashWatch t).consecutive = w.consecutive + 1 ∧ counts u ∧
      (Map.get {} u.hashWatch t).last = min 0xFFFF (top.2 * 16 * 1280 / total) * 2 ^ 16 + t * 2 ^ 11 + top.1) ∧
    (w.windowAt + msCycles 1 ≤ s.now → bad → w.consecutive + 1 = s.reg 0x4103 2 → s.steward.lost = false →
      Completes (.hashImbalWindow t) s fun u => (Map.get {} u.hashWatch t).raisedAt = s.now ∧ counts u ∧
        (Map.get {} u.hashWatch t).consecutive = w.consecutive + 1 ∧
        u.reg 0x4103 4 = min 0xFFFF (top.2 * 16 * 1280 / total) * 2 ^ 16 + t * 2 ^ 11 + top.1 ∧
        u.reg 0xB305 (t + 1) = min (s.reg 0xB305 (t + 1) + 1) 0xFFFFFFFF ∧ u.reg 0xA200 3 = s.reg 0xA200 3 ||| 2 ^ 6) ∧
    (s.now < w.windowAt + msCycles 1 → exec (.hashImbalWindow t) s = .next s) ∧
    (s.reg 0x4103 2 ≤ w.consecutive → 0 < w.consecutive → w.raisedAt + secCycles (s.reg 0x4103 3) ≤ s.now → s.steward.lost = false →
      Completes (.hashImbalRepeat t) s fun u => (Map.get {} u.hashWatch t).raisedAt = s.now ∧ u.reg 0x4103 4 = w.last ∧
        u.reg 0xB305 (t + 1) = min (s.reg 0xB305 (t + 1) + 1) 0xFFFFFFFF ∧ u.reg 0xA200 3 = s.reg 0xA200 3 ||| 2 ^ 6)

/-! ### Hens -/

/-- R295, R296, R299, R303 to R305, R320. HEN_SEQ, while the device runs: the engine takes its oldest hen sequence without a status that no
channel has, and once its lines have come ends it, with BOUNDS where its reserved bits are set and with 0 where it names no command, or, where
its list is read, each command passes its checks, the field is up and the channel's ranges have room, gives it to its channel with its
commands and ranges. VLOAD at the end of a transfer of a load, once the lines of the loaded bytes have come, puts them into the VB of every
hen of its mask, and DELIVERY at the end of another, its lines written, has written its rows; either ends the command on its hens, with the
status of a read or a write that failed. While lines of the list are under way the engine goes on as State.unit says; while lines of a transfer
are, from elsewhere, only their requests are made. -/
def Obligations.HenSequencesAndTransfers : Prop :=
  ∀ (s : State) (core ch : Nat),
    (∀ d, s.running = true →
      ((s.core core).dma.find? fun d => (d.words.headD 0).toNat / 2 ^ 40 % 256 == 3 && d.status.isNone &&
        !(s.channels.any fun e => e.2.seqs.any fun q => q.desc == d.id)) = some d →
      let w1 := (d.words.getD 1 0).toNat
      let n := bitsOf w1 63 55
      let at_ := bitsOf w1 31 18
      let list := bitsOf w1 17 0
      let who := Agent.dma core d.id
      let t := s.acceptHens core d
      let zero : Prop := word0Status (d.words.getD 0 0) = 0 ∧ bitsOf w1 54 32 = 0 ∧ (d.words.drop 2).all (· == 0) = true
      (t.Settled who → exec (.henSeq core) s = .next (t.linesTaken who)) ∧
      (¬ t.Settled who → exec (.henSeq core) s = .next (s.unit core who fun u => u.acceptHens core d)) ∧
      (¬ zero → t = s.endDma core d.id 0x02) ∧
      (zero → n = 0 → t = s.endDma core d.id 0) ∧
      (∀ r u, zero → 0 < n → n ≤ 256 → list % 32 = 0 → list + 32 * n ≤ 0x40000 → coreExists at_ = true → s.issuer at_ = some core →
        s.readRange (storeAddr core list) (32 * n) who = (r, u) → r.waiting = false → r.status = 0 →
        let cmds : List (List Word) := (List.range n).map fun i => (List.range 4).map fun j =>
          BitVec.ofNat 64 (bytesToNat (cut r.bytes (32 * i + 8 * j) 8))
        let made : List HenCmd := cmds.map fun ws =>
          { words := ws, works := if (henArgs ws).empty then [] else (henArgs ws).hens.map fun h => { hen := h } }
        let c := u.channel at_
        (∀ ws ∈ cmds, u.henCmdStatus core at_ (henArgs ws) = 0) → u.fieldUp (coreField at_) = true →
        (made.map HenCmd.rangeCount).sum + (c.seqs.map fun q => (q.cmds.map HenCmd.rangeCount).sum).sum ≤ 512 →
        t = ((u.setChannel at_ { c with
          seqs := c.seqs ++ [{ core := core, desc := d.id, cmds := made }]
          ranges := c.ranges ++ (List.zip (List.range n) made).flatMap fun (k, cmd) => cmd.ranges d.id k }).dropFenced at_).settleSeq
            at_ d.id)) ∧
    (∀ t q cmd r v, s.endedTransfer ch = some (t, q, cmd) →
      let a := henArgs cmd.words
      let who := Agent.hen ch
      a.op = some .vload → s.readRange (tileAddr q.core a.space a.addr) a.load who = (r, v) →
      let u := v.setChannel ch { v.channel ch with transfer := none, otherRun := (v.channel ch).otherRun + (t.lines - t.counted) }
      let w := if r.status = 0
        then (a.hens.foldl (fun u h => u.setHenBuf ch h ((u.henBuf ch h).setVb a.vbOff r.bytes)) u).finishHen ch t.desc t.cmd none
        else (u.failCmd ch t.desc t.cmd r.status).finishHen ch t.desc t.cmd none
      (r.waiting = true → v.Awaits [who] → exec (.vload ch) s = .next (s.asking v)) ∧
      (r.waiting = false → w.Settled who → exec (.vload ch) s = .next (w.linesTaken who))) ∧
    (∀ t q cmd st v, s.endedTransfer ch = some (t, q, cmd) →
      let a := henArgs cmd.words
      let who := Agent.hen ch
      let u := s.setChannel ch { s.channel ch with transfer := none, otherRun := (s.channel ch).otherRun + (t.lines - t.counted) }
      let rows := u.deliveryRows ch a cmd t.hen
      let u := u.countEvents ch rows.2
      a.op ≠ some .vload → u.writeDelivery ch q.core a.space (u.descRerun q.core t.desc) rows.1 = (st, v) →
      let w := (if st ≠ 0 then v.failCmd ch t.desc t.cmd st else v).finishHen ch t.desc t.cmd t.hen
      (w.Awaits [who] → exec (.delivery ch) s = .next (s.asking w)) ∧
      (w.Settled who → exec (.delivery ch) s = .next (w.linesTaken who)))

/-- R218, R299, R300, R302, R307, R324: while the device runs, the arithmetic of the first hen that has ended its bank accesses for the
operation. DOT and KVMIX put its sums into its PB and begin a chained command's chain or end an unchained one on the hen; KVSCORE puts them
there for its delivery; after a failed access each puts values there that the spec does not state. ROWSCALE and ROWAXPY write the rows read
and end the command on the hen. ROWGATHER fails its command with BOUNDS for a row out of range, and ends it on a hen without rows. CHAINSUM
begins the chain from the PBs as they stand. CHAIN_HOP, when the time of the hop has passed, adds the partials of the next hen of the mask to
the sum. -/
def Obligations.HenOperations : Prop :=
  ∀ (s : State) (ch k : Nat) (q : HenSeq) (cmd : HenCmd) (w : HenWork), s.running = true →
    let a := henArgs cmd.words
    let buf := s.henBuf ch w.hen
    let u := s.markComputed ch q.desc k w.hen
    let sums := a.sums w.hen buf.vbBytes w.data buf.pbEntry
    let summed := (u.setHenBuf ch w.hen (buf.setPb sums.1)).countEvents ch sums.2
    let sum (c : Instr) (op : HenOp) : Prop := s.nextCompute ch op = some (q, k, cmd, w) →
      (w.status = 0 → exec c s = .next
        (if a.chained then (summed.beginChain ch q.desc k cmd w.hen).endFailedChain ch q.desc k
         else summed.finishHen ch q.desc k (some w.hen))) ∧
      (w.status ≠ 0 → exec c s = .next
        (let u := u.freeSums ch w.hen (a.width * a.vecs)
         if a.chained then u.endFailedChain ch q.desc k else u.finishHen ch q.desc k (some w.hen)))
    let rows (c : Instr) (op : HenOp) : Prop := s.nextCompute ch op = some (q, k, cmd, w) →
      exec c s = .next ((u.writeRows ch w.hen a w).finishHen ch q.desc k (some w.hen))
    let hops (q : HenSeq) (cmd : HenCmd) : Bool :=
      !q.dead && (henArgs cmd.words).chained && cmd.status == 0 && 0 < cmd.summed && cmd.summed < cmd.works.length &&
        (match cmd.works[cmd.summed]? with
         | some { computed := some own, .. } =>
           decide (max own cmd.summedAt + hopTime ((henArgs cmd.words).width * (henArgs cmd.words).vecs) ≤ s.run)
         | _ => false)
    sum (.dot ch) .dot ∧ sum (.kvmix ch) .kvmix ∧
    (s.nextCompute ch .kvscore = some (q, k, cmd, w) → w.status = 0 → a.chained = false → cmd.status = 0 →
      exec (.kvscore ch) s = .next summed) ∧
    (s.nextCompute ch .kvscore = some (q, k, cmd, w) → w.status ≠ 0 → a.chained = false →
      exec (.kvscore ch) s = .next ((u.freeSums ch w.hen (a.width * a.vecs)).finishHen ch q.desc k (some w.hen))) ∧
    rows (.rowscale ch) .rowscale ∧ rows (.rowaxpy ch) .rowaxpy ∧
    (s.nextCompute ch .rowgather = some (q, k, cmd, w) →
      let u := if (a.gatherRows ch buf.vbBytes).2 = true ∧ w.status = 0 then u.failCmd ch q.desc k 0x02 else u
      exec (.rowgather ch) s = .next (if w.rows = [] then u.finishHen ch q.desc k (some w.hen) else u)) ∧
    (∀ h hs, ((s.channel ch).allWorks.find? fun (q, _, cmd, w) =>
        !q.dead && (henArgs cmd.words).op == some .chainsum && w.since.isSome && w.computed.isNone && !w.finished) =
          some (q, k, cmd, w) → a.hens = h :: hs →
      exec (.chainsum ch) s = .next
        ((cmd.works.foldl (fun u w => u.markComputed ch q.desc k w.hen) s).beginChain ch q.desc k cmd h)) ∧
    (((s.channel ch).allWorks.find? fun (q, _, cmd, _) => hops q cmd) = some (q, k, cmd, w) →
      let r := addLists cmd.sum ((List.range (a.width * a.vecs)).map (s.henBuf ch (a.hens.getD cmd.summed 0)).pbEntry)
      exec (.chainHop ch) s = .next ((s.updSeq ch q.desc fun q => q.updCmd k fun c =>
        { c with sum := r.1, summed := c.summed + 1, summedAt := s.run }).countEvents ch r.2))

/-- R310 to R313, R317 to R319, R328. REFRESH_OWED: while the device runs, at its boundary every bank of a layer owes one more refresh quantum,
four at most, and the band of the layer takes effect; no other bank, channel or field changes. LAYER_DUTY_WINDOW: at the end of a field's
window of 100 µs the cycles in which hens of each layer ran in it, to those of hens that still run, are kept as its last, the next starts with
none, and the layers over the limit are restricted. HEN_HALT_WRITE: with the steward there 0 and 1 are stored and the halts follow; another
value does nothing. HEN_SEGMENT_END ends the first segment whose time has come; the close of a segment takes it from the channel, marks both
banks of its pair precharged and gives the pair boundary service of its quota. THROTTLED_TIMEOUT: a command that has waited HEN_WAIT_MAX
under a halt ends its sequence with THROTTLED, which is counted. -/
def Obligations.HenRefreshDutyAndHalts : Prop :=
  ∀ (s : State) (f layer ch : Nat) (v : BitVec 8),
    let fl := s.field f
    let p := Map.get (0, 0) fl.refresh layer
    let c := s.channel ch
    (f < 64 → layer < 16 → s.running = true → p.1 + bandInterval p.2 ≤ s.run → Completes (.refreshOwed f layer) s fun t =>
      Map.get (0, 0) (t.field f).refresh layer = (p.1 + bandInterval p.2, Map.get 0 fl.bands layer) ∧
      (∀ k ∈ fieldChannels f, ∀ b, ((t.channel k).bank b).owed =
        if b / 4 = layer then min 4 (((s.channel k).bank b).owed + 1) else ((s.channel k).bank b).owed) ∧
      (∀ k, k ∉ fieldChannels f → t.channel k = s.channel k) ∧ (∀ g, g ≠ f → t.field g = s.field g) ∧
      t = { s with fields := t.fields, channels := t.channels }) ∧
    (f < 64 → fl.dutyAt + 120000 ≤ s.now → Completes (.layerDutyWindow f) s fun t =>
      let running := (s.channels.filter fun e => coreField e.1 == f).flatMap fun e => e.2.segments
      let active (l : Nat) : Nat := Map.get 0 fl.duty l + ((running.filter fun g => g.hen / 2 == l).map fun g => s.now - max g.start fl.dutyAt).sum
      t.field f = { fl with dutyAt := s.now, duty := [], lastDuty := (t.field f).lastDuty, restricted := (t.field f).restricted } ∧
      (∀ l, l < 16 → Map.get 0 (t.field f).lastDuty l = active l ∧
        (l ∈ (t.field f).restricted ↔ s.reg 0x4200 3 < 100 ∧ s.reg 0x4200 3 * 120000 * 320 < active l * 100)) ∧ (∀ g, g ≠ f → t.field g = s.field g) ∧
      t = { s with fields := t.fields, regs := t.regs }) ∧
    (s.steward.lost = false → v.toNat ≤ 1 → exec (.henHaltWrite v) s = .next (s.setReg 0x4200 6 v.toNat).updateHalts) ∧
    (1 < v.toNat → exec (.henHaltWrite v) s = .next s) ∧
    (∀ g, c.segments.find? (fun g => g.until_ ≤ s.now) = some g → exec (.henSegmentEnd ch) s = .next (s.endSegment ch g)) ∧
    (∀ g a vs, let u := (s.closeSegment ch g a vs).channel ch
      u.segments = c.segments.filter (· != g) ∧ Map.get 0 u.boundary g.hen = s.reg 0x4200 4 + 1 ∧
      (∀ b, b / 2 = g.hen → (u.bank b).open_ = none ∧ s.run ≤ (u.bank b).busyUntil)) ∧
    (∀ from_ q k cmd w, (s.field (coreField ch)).haltedAt = some from_ →
      let waits (q : HenSeq) (k : Nat) (cmd : HenCmd) (w : HenWork) : Bool :=
        !q.dead && (henArgs cmd.words).atBanks && !w.finished && w.computed.isNone && w.status == 0 &&
          !(c.segments.any fun g => g.desc == q.desc && g.cmd == k && g.hen == w.hen) &&
          (match w.since with
           | some t => decide (max t from_ + msCycles (s.reg 0x4200 5) ≤ s.run)
           | none => false)
      (c.allWorks.find? fun (q, k, cmd, w) => waits q k cmd w) = some (q, k, cmd, w) →
      exec (.throttledTimeout ch) s = .next (((s.killSeq ch q.desc).endDma q.core q.desc 0x0C).towerSat 0xB407 (coreTower ch) 1))

/-! ### Appends -/

/-- R338 to R343, R350, R354, R358, R360. KV_APPEND, while the device runs and holds no answer: with no accepted append of the core to go on
with, the engine takes its oldest append whose region is free: it ends, counted, with BOUNDS for reserved bits and with 0 for no rows, or,
with its region in a channel of the core whose field is up, is accepted and performed. The home append unit of a core performs an
accepted append that waits no more. Its source not read, it reads its region, and where that is RUNNING, valid, without a continuation and
has room, and every unit is there, it keeps the region and its source; then it writes its rows in order, each as its bytes quantised from
the source, counted, and after the last has its status. KV_APPEND_COMPLETE: with another status than 0 or without COMMIT the append
completes with it; with COMMIT LEN in the region's word 1 rises by NTOK first.
KV_ANSWER, with the steward there: for a region that is not paused or whose time is over it is stray and counted; for a paused one, in time,
without a continuation or with one that is not valid the region retires, and with a valid one it runs on, the continuation in its words,
counted. KV_ANSWER_TIMEOUT retires a region whose 10 ms are over. While lines are under way from elsewhere only their requests are made.
While the device is frozen an answer is kept, and the others do nothing. -/
def Obligations.AppendsAndAnswers : Prop :=
  (∀ (s s1 s2 : State) (core ch : Nat) (op : AppendOp) (r : Region) (ws : List Word) (data : ReadResult)
      (remote : Option (Status × List Byte)),
    let w3 := (op.words.getD 3 0).toNat
    let ntok := bitsOf w3 37 22
    let npairs := bitsOf w3 50 38
    let src := bitsOf (op.words.getD 2 0).toNat 53 0
    let size := ntok * npairs * 4 * r.dh
    let who := Agent.append ch op.desc
    s.running = true → s.heldAnswers = [] → s.channels.findSome? (fun e =>
        (e.2.appends.find? fun o => o.core == core && !o.paused && o.written.isNone && !e.2.pausedRegions.any (·.1 == o.region)).map
          fun o => (e.1, o)) = some (ch, op) → (s.channel ch).appends.find? (·.desc == op.desc) = some op →
      (op.source = none →
        let t := s.readAppend ch op remote
        let u := t.linesTaken who
        (t.Awaits [who] → exec (.kvAppend core remote) s = .next (s.asking t)) ∧
        (t.Settled who → exec (.kvAppend core remote) s = .next (State.writeAppendRows ch op.desc
          (((u.channel ch).appends.find? (·.desc == op.desc)).elim 0 (·.rows.length) + 1) u)) ∧
        (s.readRegion op.region who = (some (0, r, ws), s1) → r.state = 0 → r.valid ch = true → r.cont = 0 →
          bitsOf w3 63 51 + npairs ≤ r.pairs → r.len + ntok ≤ r.tmax → r.len + ntok ≤ 0xFFFFFFFF →
          s1.sourceAbsent op.core src size = false → s1.memberAbsent r none (appendRows r.len ntok (bitsOf w3 63 51) npairs) = false →
          (s1.isOwn (src / 2 ^ 48 % 64) = true → s1.rangesStatus (coreTower ch) [(src % 2 ^ 48, size)] = 0) →
          s1.readGroup src size who remote = (data, s2) → data.waiting = false →
          t = s2.updAppend ch op.desc fun o => { o with
            source := some (data.status, data.bytes), primary := (ws, r.members), cont := none })) ∧
      (op.source ≠ none → exec (.kvAppend core remote) s =
        .next (State.writeAppendRows ch op.desc (op.rows.length + 1) s)) ∧
      (∀ st bytes, op.source = some (st, bytes) → op.rows.length ≤ op.next → exec (.kvAppend core remote) s =
        .next (s.updAppend ch op.desc fun o => { o with written := some (if o.status = 0 then st else o.status) }))) ∧
  (∀ (s : State) (core : Nat) (d : DmaDesc) (remote : Option (Status × List Byte)),
    let w1 := (d.words.getD 1 0).toNat
    let w2 := (d.words.getD 2 0).toNat
    let w3 := (d.words.getD 3 0).toNat
    let zero : Prop := word0Status (d.words.getD 0 0) = 0 ∧ bitsOf w1 63 48 = 0 ∧ bitsOf w2 63 54 = 0 ∧ bitsOf w3 20 0 = 0 ∧
      (d.words.drop 4).all (· == 0) = true
    let ends (st : Status) : Prop := exec (.kvAppend core remote) s = .next ((s.endDma core d.id st).towerWrap 0xB500 (coreTower core) 1)
    s.running = true → s.heldAnswers = [] →
      (∀ e ∈ s.channels, ∀ o ∈ e.2.appends, o.core = core → o.paused = true ∨ o.written.isSome = true ∨
        (e.2.pausedRegions.any (·.1 == o.region)) = true) →
      ((s.core core).dma.find? fun d => (d.words.headD 0).toNat / 2 ^ 40 % 256 == 5 && d.status.isNone &&
        !(s.channels.any fun e => e.2.appends.any (·.desc == d.id)) && !s.appendBlocked d) = some d →
      (¬ zero → ends 0x02) ∧
      (zero → bitsOf w3 37 22 = 0 ∨ bitsOf w3 50 38 = 0 → ends 0) ∧
      (∀ ch off, zero → bitsOf w3 37 22 ≠ 0 → bitsOf w3 50 38 ≠ 0 → s.memberDevice (bitsOf w2 53 48) = true →
        s.sourceAbsent core (bitsOf w2 53 0) 1 = false → bitsOf w1 47 0 < 8 * dramTower → localPlace (bitsOf w1 47 0) = .dram ch off →
        coreExists ch = true → s.issuer ch = some core → bitsOf w1 47 0 % 64 = 0 → s.fieldUp (coreField ch) = true →
        let op : AppendOp := { core := core, desc := d.id, region := bitsOf w1 47 0, words := d.words }
        let c := s.channel ch
        exec (.kvAppend core remote) s = .next ((s.setChannel ch { c with appends := c.appends ++ [op] }).performAppend ch op remote))) ∧
  (∀ (s v : State) (ch t p : Nat) (value : Bool) (op : AppendOp),
    let r := regionOf op.primary.1 op.primary.2
    let n := 2 * r.dh
    let at_ := (if t < r.tmax then r else (op.cont.map fun c => regionOf c.1 c.2).getD r).place t p value
    let row := quantiseRow r.srcFmt (if value then r.vfmt else r.kfmt) r.dh (((op.source.elim [] (·.2)).drop (op.next * n)).take n)
    at_.2.2 + row.1.length ≤ 0x200000 →
    (s.countEvents ch row.2).writeHenBytes (.append ch op.desc) at_.1 at_.2.1 (pieces at_.2.2 row.1.length) row.1 = (0, v) →
      s.writeAppendRow ch op (t, p, value) =
        (v.towerWrap 0xB501 (coreTower ch) 1).updAppend ch op.desc fun o => { o with next := o.next + 1 }) ∧
  (∀ (s s1 s2 : State) (ch : Nat) (op : AppendOp) (data : ReadResult) (w e : Status),
    let w3 := (op.words.getD 3 0).toNat
    let who := Agent.append ch op.desc
    let run := exec (.kvAppendComplete ch) s
    s.running = true → (s.channel ch).appends.find? (·.written.isSome) = some op → op.written = some w →
      (w ≠ 0 ∨ bitsOf w3 21 21 = 0 → run = .next (s.finishAppend ch op.core op.desc w)) ∧
      (w = 0 → bitsOf w3 21 21 = 1 → s.readHome (op.region + 8) 8 who = (data, s1) →
        (data.waiting = true → s1.Awaits [who] → run = .next (s.asking s1)) ∧
        (data.waiting = false → data.status ≠ 0 → let u := s1.finishAppend ch op.core op.desc data.status
          u.Settled who → run = .next (u.linesTaken who)) ∧
        (data.waiting = false → data.status = 0 →
          s1.writeRegionWord who op.region 1 (BitVec.ofNat 64 (bytesToNat data.bytes + bitsOf w3 37 22)) = (e, s2) →
          let u := s2.finishAppend ch op.core op.desc e
          (u.Awaits [who] → run = .next (s.asking u)) ∧ (u.Settled who → run = .next (u.linesTaken who))))) ∧
  (∀ (s : State) (core ch : Nat) (a cont : BitVec 64) (remote : Option (Status × List Byte)), s.running = false →
    exec (.kvAppend core remote) s = .next s ∧ exec (.kvAppendComplete ch) s = .next s ∧ exec (.kvAnswerTimeout ch) s = .next s ∧
    (s.steward.lost = false → exec (.kvAnswer a cont) s = .next { s with heldAnswers := s.heldAnswers ++ [(a.toNat, cont.toNat)] })) ∧
  (∀ (s s1 s2 s3 s4 : State) (ch region deadline off : Nat) (cont : BitVec 64) (r c : Region) (ws cw : List Word) (st e5 e0 : Status),
    let who := Agent.region ch region
    let run := exec (.kvAnswer (BitVec.ofNat 64 region) cont) s
    let paused := s.pausedAppend ch region
    let t := s.answerRegion ch region cont.toNat
    let u := t.linesTaken who
    let found := (s.channel ch).pausedRegions.find? (·.1 == region)
    s.running = true → s.steward.lost = false → s.heldAnswers = [] → region < 8 * dramTower → localPlace region = .dram ch off →
      (found = none → run = .next (s.towerSat 0xB505 (coreTower ch) 1)) ∧
      (found = some (region, deadline) → deadline ≤ s.run → run = .next (s.towerSat 0xB505 (coreTower ch) 1)) ∧
      (found = some (region, deadline) → s.run < deadline →
        (t.Awaits [who] → run = .next { s.asking t with heldAnswers := [(region, cont.toNat)] }) ∧
        (t.Settled who → run = .next (if (u.pausedUntil region).isSome
          then { u with heldAnswers := u.heldAnswers ++ [(region, cont.toNat)] } else u)) ∧
        (s.readPaused ch region = (some (0, r, ws), s1) →
          (cont = 0 → t = (s1.unpause ch region).retire who ch region 3 paused r ws true) ∧
          (cont ≠ 0 → s1.readRegion cont.toNat who = (some (st, c, cw), s2) →
            (st ≠ 0 ∨ c.continues cw r ch cont.toNat = false → t = (s2.unpause ch region).retire who ch region 3 paused r ws true) ∧
            (st = 0 → c.continues cw r ch cont.toNat = true → (s2.unpause ch region).writeRegionWord who region 5 cont = (e5, s3) →
              s3.writeRegionWord who region 0 (withRegionState (ws.getD 0 0) 0 true) = (e0, s4) →
              t = (((s4.setChannel ch { s4.channel ch with appends := (s4.channel ch).appends.map fun o =>
                  if o.region = region then { o with paused := false } else o }).resumeSeq r).kvRecord ch region 2
                    ((paused.map fun o => bitsOf (o.words.getD 3 0).toNat 37 22).getD 0) r).towerSat 0xB503 (coreTower ch) 1))))) ∧
  (∀ (s s1 : State) (ch region deadline : Nat) (r : Region) (ws : List Word) (w : Status), s.running = true →
    (s.channel ch).pausedRegions.find? (fun e => decide (e.2 ≤ s.run) && !(s.heldAnswers.any (·.1 == e.1))) = some (region, deadline) →
    let who := Agent.region ch region
    (s.readPaused ch region = (none, s1) → s1.Awaits [who] → exec (.kvAnswerTimeout ch) s = .next (s.asking s1)) ∧
    (s.readPaused ch region = (some (w, r, ws), s1) →
      let t := (s1.unpause ch region).retire who ch region 4 (s.pausedAppend ch region) r ws true
      (t.Awaits [who] → exec (.kvAnswerTimeout ch) s = .next (s.asking t)) ∧
      (t.Settled who → exec (.kvAnswerTimeout ch) s = .next (t.linesTaken who))))

/-! ### The mesh -/

/-- R363, R364, R368, R372, R373. FLIT_FORWARD: while the device runs and the tower is up, once what the router's cluster and shaft have for it
has come to its inputs, the flit that Router.serve chooses of those ready for an output is sent on, counted; with none ready nothing happens.
MULTICAST takes the engine's oldest multicast that is not under way and performs it once its lines have come: it ends with BOUNDS where it is
not well formed and with 0 for no bytes; one whose checks pass reads its source once and sends that to every position of its set, to none where
the source failed at its first line. MULTICAST_COMPLETE, once every answer has come and been combined on the way back, ends the multicast,
counted, with the status of its source, or else of the failing copy of the lowest position. While the device is frozen none does anything. -/
def Obligations.RoutersAndMulticast : Prop :=
  (∀ (s : State) (router out carried ch i : Nat) (k : Router), router < 1024 → router % 128 < 80 →
      s.dm.towers.contains (router / 128) = false → s.running = true →
      let t := (s.combineAll.inject router).carry carried
      let ready := t.readyFlits router out
      ((t.router router).serve out ready = some (ch, i, k) → (∃ tail, (ch, i, tail) ∈ ready) ∧ exec (.flitForward router out carried) s =
        .next ((((t.setRouter router k).moveFlit router out ch i).carry carried).towerWrap 0xB600 (router / 128) 1)) ∧
      ((t.router router).serve out ready = none → exec (.flitForward router out carried) s = .next s)) ∧
  (∀ (s : State) (router out carried core : Nat) (remote : Option (Status × List Byte)), s.running = false →
      exec (.flitForward router out carried) s = .next s ∧ exec (.multicast core remote) s = .next s ∧
      exec (.multicastComplete core) s = .next s) ∧
  (∀ (s s2 : State) (core : Nat) (d : DmaDesc) (rec : List Word) (data : ReadResult) (remote : Option (Status × List Byte)),
      let ws := d.words
      let n := dmaLen ws
      let who := Agent.dma core d.id
      let t := s.multicast core d remote
      s.running = true → s.nextDma core 4 (fun id => s.multicasts.any (·.desc == id)) = some d →
      (t.Settled who → exec (.multicast core remote) s = .next (t.linesTaken who)) ∧
      (t.Awaits [who] → exec (.multicast core remote) s = .next (s.asking t)) ∧
      (dmaWellFormed ws = false → t = s.endDma core d.id 0x02) ∧
      (dmaWellFormed ws = true → n = 0 → t = s.endDma core d.id 0) ∧
      (dmaWellFormed ws = true → n ≠ 0 → s.groupRanges (coreTower core) [(dmaSrc ws, n)] = 0 → tileField ws 4 47 0 % 64 = 0 →
        d.record = some (0, rec) → setValid rec = true → dmaDst ws + n ≤ (if dmaKind ws = 2 then channelBytes else 0x40000) →
        s.readGroup (dmaSrc ws) n who remote = (data, s2) → data.waiting = false →
        let copies := if data.bytes = [] then [] else setMembers rec
        let nodes := (copies.map clusterId).eraseDups.filter (s2.meshReaches (clusterId core))
        t.multicasts = s2.multicasts ++
          [{ core := core, desc := d.id, status := data.status, nodes := nodes.filter (· != clusterId core) }] ∧
        t.packets = (s2.post { id := d.id, channel := 0, src := clusterId core, tree := true, dsts := nodes,
                               flits := (data.bytes.length + 63) / 64, core := some core }).packets ∧
        (∃ sent : List Req, t.reqs = s2.reqs ++ sent ∧
          sent.map (fun q => (q.src, q.kind, q.loc, q.addr)) = copies.map fun p =>
            let a := copyAddr (dmaKind ws) p (dmaDst ws)
            (Source.copy d.id p, ReqKind.write data.bytes, a, s2.group.member * 2 ^ 48 + a)) ∧
        t = { s2 with reqs := t.reqs, multicasts := t.multicasts, packets := t.packets, fresh := s2.fresh + copies.length })) ∧
  (∀ (s : State) (core : Nat) (m : Multicast), s.running = true →
      let u := s.combineAll
      let copies (id : Nat) : List (Nat × Req) := u.reqs.filterMap fun r => match r.src with
        | .copy e p => if e = id then some (p, r) else none
        | _ => none
      let ended (m : Multicast) : Bool := m.core == core && u.combined m (clusterId core) && (copies m.desc).all fun c => c.2.stage == .done
      (u.multicasts.find? ended = none → exec (.multicastComplete core) s = .next u) ∧
      (u.multicasts.find? ended = some m →
        let bad := (List.range 16384).findSome? fun p => (copies m.desc).findSome? fun c =>
          if c.1 = p && c.2.status ≠ 0 then some c.2.status else none
        exec (.multicastComplete core) s = .next (({ u with
          multicasts := u.multicasts.filter (·.desc != m.desc)
          reqs := u.reqs.filter fun r => !((copies m.desc).any fun c => c.2.id == r.id) }.endDma core m.desc
            (if m.status ≠ 0 then m.status else bad.getD 0)).towerWrap 0xB601 (coreTower core) 1)))

/-- R363, R382 to R384, R398. LEASE_ACQUIRE, while the device runs, of an operation that can reach its lease: with a set address that is not
aligned it ends with BOUNDS. At the lease, its set record read, a failing read, a lease that is not FREE, a record that is not valid or of
another tower give their status; a slot in every router of its tree binds the lease; without them the event is counted and the lease falls
back where its record allows it, and the operation gets NO_RESOURCE otherwise. LEASE_RELEASE frees the slots and the lease, and waits while a
round runs. Either's answer goes back, and once it has come completes its descriptor. While the packet is on its way or the device frozen
nothing happens. LEASE_FORCE_RELEASE, with the steward there, of a lease that is not FREE ends its round with ABORTED and the contributions that
wait for it with BOUNDS, and frees its slots; a FREE one stays. -/
def Obligations.LeasesTakeAndFreeSlots : Prop :=
  ∀ (s s1 s2 : State) (id : Nat) (op : LeaseOp) (rec : List Word) (st : Status) (got : List Nat) (v : BitVec 16),
    let l := s.lease op.lease
    let who := Agent.dma op.core op.id
    let run := exec (if op.acquire then .leaseAcquire id else .leaseRelease id) s
    let ended (x : Status) : State := (s.dropLeaseOp id).complete op.target x
    (s.leaseOps.find? (·.id == id) = some op →
      (s.running = false → run = .next s) ∧
      (s.running = true → op.reply = some st → s.inTransit id 2 (clusterId op.core) = false → run = .next (ended st)) ∧
      (s.running = true → op.reply = none → s.leaseCut op = false →
        (op.acquire = true → op.setAddr % 64 ≠ 0 → run = .next (ended 0x02)) ∧
        (s.leaseTravels op = true → op.acquire = true → op.setAddr % 64 = 0 → run = .next s) ∧
        (s.leaseTravels op = false → op.acquire = false →
          (l.round.isSome = true → run = .next s) ∧
          (l.round = none → run = .next (((s.freeSlots l.slots).setLease op.lease {}).replyLease op 0))) ∧
        (s.leaseTravels op = false → op.acquire = true → op.setAddr % 64 = 0 → s.dm.towers = [] →
          let ends (t : State) : Prop := t.Settled who → run = .next (t.linesTaken who)
          let read := if op.record.isSome then (op.record, s) else s.acceptRecord op.setAddr who
          (read = (none, s1) → s1.Awaits [who] → run = .next (s.asking s1)) ∧
          (read = (some (st, rec), s1) → s1.dm.towers = [] →
            let free := s1.lease op.lease
            let fits := free.state = 0 ∧ setValid rec = true ∧ setRootTower rec = op.lease / 256
            let short := s1.towerSat 0xB604 (op.lease / 256) 1
            (st ≠ 0 → ends (s1.replyLease op st)) ∧
            (st = 0 → ¬ fits → ends (s1.replyLease op 0x02)) ∧
            (st = 0 → fits → s1.reserveSlots op.lease (treeRouters rec) [] = some (got, s2) →
              ends ((s2.setLease op.lease { free with state := 1, words := rec, slots := got }).replyLease op 0)) ∧
            (st = 0 → fits → s1.reserveSlots op.lease (treeRouters rec) [] = none → setFallback rec = true →
              ends ((short.setLease op.lease { free with state := 2, words := rec, slots := [] }).replyLease op 0)) ∧
            (st = 0 → fits → s1.reserveSlots op.lease (treeRouters rec) [] = none → setFallback rec = false →
              ends (short.replyLease op 0x09)))))) ∧
    (s.steward.lost = false →
      let k := v.toNat % 2 ^ 11
      let waits (d : DmaDesc) : Bool :=
        (d.words.headD 0).toNat / 2 ^ 40 % 256 == 2 && d.status.isNone && dmaMode d.words == 5 && tileField d.words 4 10 0 == k
      let u := s.endRound k 0x08
      ((s.lease k).state = 0 → exec (.leaseForceRelease v) s = .next s) ∧
      ((s.lease k).state ≠ 0 → s.dm.towers = [] → exec (.leaseForceRelease v) s =
        .next ((({ u with cores := Map.mapVals {} u.cores fun _ c =>
          { c with dma := c.dma.map fun d => if waits d then { d with status := some 0x02 } else d } } : State).freeSlots
            (s.lease k).slots).setLease k {})))

/-- R374 to R377, R379, R384, R385. REDUCE, while the device runs, takes the engine's oldest contribution whose lease has none of this core
under way, and performs it once its lines have come: one whose checks pass and whose lease is bound joins the round with its data, or
with the status of a source that failed. RED_PARTIAL: a router of the round's tree that misses an input waits; with all there it merges them in
their fixed order, counts, and sends the partial on, and the root's is the round's result. FALLBACK_MERGE: the root's merger reads what was
staged once all have contributed, and the tree over it is the round's result, counted; a read that fails gives the round its status.
RED_DONE: a full round that has a status ends with it, and with that of its root where that is another device; ROUND_TIMEOUT: one that misses
contributions when its time is over ends with ABORTED, counted. While lines are under way from elsewhere only their requests are made. -/
def Obligations.ReductionsRunInRounds : Prop :=
  (∀ (s s1 : State) (core l : Nat) (d : DmaDesc) (data : ReadResult) (remote : Option (Status × List Byte)),
      let lease := s.lease l
      let ws := d.words
      let n := dmaLen ws
      let who := Agent.dma core d.id
      let t := s.reduce core d remote
      let c (bytes : List Byte) : Contribution := ⟨core, d.id, tileField ws 4 14 12, dmaKind ws, dmaDst ws, n, bytes⟩
      s.running = true →
      ((s.core core).dma.find? fun d => (d.words.headD 0).toNat / 2 ^ 40 % 256 == 2 && d.status.isNone && dmaMode d.words == 5 &&
        !((s.roundEnds.any fun e => e.got.any (·.desc == d.id)) || s.leases.any fun e => match e.2.round with
          | some r => r.got.any (·.desc == d.id)
          | none => false) &&
        !((s.roundEnds.any fun e => e.lease == tileField d.words 4 10 0 && e.got.any (·.core == core)) ||
          match (s.lease (tileField d.words 4 10 0)).round with
          | some r => r.got.any (·.core == core)
          | none => false)) = some d →
      (t.Settled who → exec (.reduce core remote) s = .next (t.linesTaken who)) ∧
      (t.Awaits [who] → exec (.reduce core remote) s = .next (s.asking t)) ∧
      (tileField ws 4 10 0 = l → lease.state = 1 → dmaWellFormed ws = true → n ≠ 0 → n % 4 = 0 → n ≤ 2 ^ 24 →
        s.groupRanges (coreTower core) [(dmaSrc ws, n)] = 0 → s.destAbsent ws = false →
        (s.boundTo l).any (fun b => b.2.state == 3) = false →
        (lease.round.elim (s.contributors lease.words) (·.contributors)).contains core = true →
        lease.round.any (fun r => r.got.any (·.core == core)) = false →
        s.readGroup (dmaSrc ws) n who remote = (data, s1) → data.waiting = false →
        (data.status = 0 → t = s1.joinRound l (c data.bytes) 0) ∧ (data.status ≠ 0 → t = s1.joinRound l (c []) data.status))) ∧
  (∀ (s : State) (l : Nat) (c : Contribution) (st : Status), ∃ r, ((s.joinRound l c st).lease l).round = some r ∧
      r.got = (s.lease l).round.elim [] (·.got) ++ [c]) ∧
  (∀ (s s1 : State) (l router k1 : Nat) (r : Round) (c : Contribution) (cs : List Contribution) (inputs : List (List Byte)),
      let lease := s.lease l
      let root := setRootTower lease.words * 128 + setRootCluster lease.words
      lease.round = some r → r.got = c :: cs → r.status = none → s.running = true →
      (lease.state = 1 → r.partials.any (·.1 == router) = false → (s.roundRouters l lease.words).contains router = true →
        let p := mergeAll c.rtype inputs
        let u := s.towerWrap 0xB201 (router / 128) (k1 + p.2)
        let n := { r with partials := r.partials ++ [(router, p.1)] }
        let t := u.finishRound l n c p.1 (.anchor l)
        (s.routerInputs l r lease.words c.rtype router = none → exec (.redPartial l router) s = .next s) ∧
        (s.routerInputs l r lease.words c.rtype router = some (inputs, k1) → router ≠ root → exec (.redPartial l router) s =
          .next ((u.setLease l { lease with round := some n }).postPartial lease router r.serial p.1.length)) ∧
        (s.routerInputs l r lease.words c.rtype router = some (inputs, k1) → router = root →
          (t.Settled (.anchor l) → exec (.redPartial l router) s = .next (t.linesTaken (.anchor l))) ∧
          (t.Awaits [.anchor l] → exec (.redPartial l router) s = .next (s.asking t)))) ∧
      (∀ q ds, lease.state = 2 → s.takesGroup l = false → r.partials.any (·.1 == root) = false →
        r.contributors.all (fun k => r.got.any (·.core == k)) = true →
        let engine := (((List.range 16).map fun i => root * 16 + i).find? s.inService).getD (root * 16)
        let who := Agent.dma engine (mergerId l)
        let run := exec (.fallbackMerge l) s
        s.readSpans who ((List.range r.contributors.length).map fun i => (setFallbackAddr lease.words + i * c.len, c.len)) = (q, ds, s1) →
        let r' := { r with got := r.got.map fun g => { g with data := ((List.zip r.contributors ds).find? (·.1 == g.core)).elim [] (·.2) } }
        let p := mergeTree lease.words r' c.rtype (s1.roundInputs l lease.words) 64 root
        let t := ((s1.towerWrap 0xB201 (root / 128) p.2).towerWrap 0xB603 (root / 128) 1).finishRound l
          { r with partials := r.partials ++ [(root, p.1)] } c p.1 who
        let u := s1.setLease l { s1.lease l with round := some { r with status := some q.status } }
        (q.waiting = true → s1.Awaits [who] → run = .next (s.asking s1)) ∧
        (q.waiting = false → q.status ≠ 0 → u.Settled who → run = .next (u.linesTaken who)) ∧
        (q.waiting = false → q.status = 0 →
          (t.Settled who → run = .next (t.linesTaken who)) ∧ (t.Awaits [who] → run = .next (s.asking t))))) ∧
  (∀ (s : State) (l : Nat) (r : Round) (st : Status),
      (let u := s.reachEnds l
       let t := ((u.tellGroup l st).endRound l st).settleGroup l
       let last := if st = 0 then t.towerWrap 0xB602 (l / 256) 1 else t
       ((u.lease l).round = some r → u.running = true →
         (u.remoteRoot l = false → r.status = none → exec (.redDone l none) s = .next u) ∧
         (u.remoteRoot l = false → r.status = some st → u.roundFull r = true → exec (.redDone l none) s = .next last) ∧
         (u.remoteRoot l = true → exec (.redDone l (some st)) s = .next last)) ∧
       ((u.lease l).round = none → exec (.redDone l none) s = .next u)) ∧
      ((s.lease l).round = some r → s.running = true → s.remoteRoot l = false → r.startedAt + msCycles (s.reg 0x5100 1) ≤ s.run →
        r.contributors.all (fun k => r.got.any (·.core == k)) = false ∨ s.takesGroup l = true ∧ r.partials.any (·.1 == groupKey) = false →
        exec (.roundTimeout l) s = .next ((((s.tellGroup l 0x08).endRound l 0x08).settleGroup l).towerSat 0xB605 (l / 256) 1)) ∧
      (s.running = false ∨ (s.lease l).round = none → exec (.roundTimeout l) s = .next s))

/-- R387 to R391, R399. An operation whose turn it is at its object's engine: ADD raises COUNT, saturating, which is counted, and releases an
armed object at its target; WAIT answers at once on a released object and registers the issuer's cluster or device on an armed one; READ answers
COUNT; ARM sets TARGET, clears COUNT, arms, and releases at once for target 0; each is answered. SYNC_RSP, while the device runs: an answer that has
come back is given to its issuer: a thread's completion or loaded value, nothing yet for a WAIT that has registered, a message for another
device; an operation on an object of a device that is no member gets NOT_PRESENT, and of a member that device's answer. RELEASE wakes what waits
in the cluster it has come to; one of another member goes to every cluster. SYNC_RESET, with the steward there, leaves the object at count 0,
target 0 and released, its waiters released with ABORTED. -/
def Obligations.SyncObjectOperations : Prop :=
  ∀ (s : State) (id cluster object : Nat) (m : SyncMsg) (st : Status) (x : Word32) (rel : Release) (v : BitVec 32),
    let o := m.object % 2 ^ 13
    let obj := s.syncObj o
    let sum := obj.count.toNat + m.value.toNat
    let counted := { obj with count := BitVec.ofNat 32 (min sum 0xFFFFFFFF) }
    (s.syncTurn id .add = some m → sum ≤ 0xFFFFFFFF →
      let u := s.setSyncObj o counted
      exec (.objectAdd id) s = .next
        ((if m.value ≠ 0 ∧ obj.armed = true ∧ obj.target.toNat ≤ sum then u.releaseObj o else u).replySync id (0, 0))) ∧
    (s.syncTurn id .add = some m → 0xFFFFFFFF < sum → Completes (.objectAdd id) s fun t =>
      (t.syncObj o).count = 0xFFFFFFFF ∧ t.reg 0xB607 (o / 1024 + 1) = min (s.reg 0xB607 (o / 1024 + 1) + 1) 0xFFFFFFFF) ∧
    (s.syncTurn id .wait = some m → obj.armed = false → exec (.objectWait id) s = .next (s.replySync id (0, 0))) ∧
    (s.syncTurn id .wait = some m → obj.armed = true →
      (∀ c, m.target.cluster = some c → exec (.objectWait id) s = .next ((s.setSyncObj o
        { obj with clusters := if obj.clusters.contains c then obj.clusters else obj.clusters ++ [c] }).replySync id (0, 1))) ∧
      (∀ dev tag, m.target = .remote dev tag → exec (.objectWait id) s = .next ((s.setSyncObj o
        { obj with devices := if obj.devices.contains dev then obj.devices else obj.devices ++ [dev] }).replySync id (0, 1)))) ∧
    (s.syncTurn id .read = some m → exec (.objectRead id) s = .next (s.replySync id (0, obj.count))) ∧
    (s.syncTurn id .arm = some m →
      let u := s.setSyncObj o { obj with target := m.value, count := 0, armed := true }
      exec (.objectArm id) s = .next ((if m.value = 0 then u.releaseObj o else u).replySync id (0, 0))) ∧
    (s.syncMsgs.find? (·.id == id) = some m → s.running = true → m.reply = none → s.isOwn (m.object / 2 ^ 13) = false →
      (s.memberDevice (m.object / 2 ^ 13) = false → ∀ r, exec (.syncRsp id r) s = .next (s.giveSync m 0x07 0)) ∧
      (s.memberDevice (m.object / 2 ^ 13) = true → exec (.syncRsp id (some (st, x))) s = .next (s.giveSync m st x) ∧
        exec (.syncRsp id none) s = .next s)) ∧
    (s.syncMsgs.find? (·.id == id) = some m → s.running = true → m.reply = some (st, x) → s.syncBehind m = false →
      exec (.syncRsp id none) s = .next (s.giveSync m st x) ∧
      (∀ dev tag, m.target = .remote dev tag → s.giveSync m st x =
        (s.dropSync m.id).send (.groupMessage dev 6 [tag, st.toNat, x.toNat])) ∧
      (∀ core ctx token, m.op = .read → m.target = .wait core ctx token →
        s.giveSync m st x = (s.dropSync m.id).answerLoad core ctx token 0 st (natToBytes 8 x.toNat)) ∧
      (∀ core ctx token, m.target = .wait core ctx token → (m.op = .add ∨ m.op = .arm ∨ (m.op = .wait ∧ (st ≠ 0 ∨ x = 0))) →
        s.giveSync m st x = (s.dropSync m.id).complete m.target st) ∧
      (∀ core ctx token, m.target = .wait core ctx token → m.op = .wait → st = 0 → x ≠ 0 → s.giveSync m st x = s.dropSync m.id)) ∧
    (s.running = true → s.releases.find? (fun r => r.cluster == cluster && r.object == object) = some rel →
      s.ctlBehind cluster object rel.at_ = false → s.inTransit rel.at_ 2 cluster = false →
      exec (.release cluster object none) s = .next
        ((({ s with releases := s.releases.erase rel }).wakeCluster cluster object rel.status).startRamp (coreField (cluster * 16)))) ∧
    (s.running = true → s.isOwn (object / 2 ^ 13) = false → s.memberDevice (object / 2 ^ 13) = true →
      exec (.release cluster object (some st)) s = .next (s.releaseAll object st)) ∧
    (s.steward.lost = false → s.dm.towers = [] → Completes (.syncReset v) s fun t =>
      t = (s.broadcast (v.toNat % 2 ^ 13) 0x08).setSyncObj (v.toNat % 2 ^ 13) {} ∧
      t.syncObj (v.toNat % 2 ^ 13) = {})

/-! ### DMA descriptors and scrubs -/

/-- R111, R416 to R420, R447, R451, R457 to R459, R709, while the device runs. COPY, FILL, GATHER and SKEW perform the engine's oldest descriptor of
their mode: not well formed it ends with BOUNDS, with nothing to move with 0, and with a check that fails with that check's status. Else COPY and
GATHER, on this device, go on as State.advance says, which ends with 0 only once everything read is written, FILL writes its pattern, and SKEW,
once its source and scales are read, writes the string and then the scales; each ends with the status of what failed. A COPY moved as another
device's answers say ends so too. While lines are under way from elsewhere only their requests are made. DMA_COMPLETE takes the oldest descriptor
with a status from its engine and completes its target. SCRUB gives the engine's oldest scrub that no channel has, its checks passed, to its
channel, and SCRUB_COMPLETE writes the summary of a pass that is over and ends its descriptor. -/
def Obligations.DmaDescriptorsAndScrubs : Prop :=
  (∀ (s : State) (who : Agent) (prod : Option Nat) (dst : Nat) (reads : List (Nat × Nat)) (r : ReadResult) (used : Nat → Nat),
    (s.advance who prod dst reads r used).1 = 0 →
      r.waiting = false ∧ r.status = 0 ∧ (s.writtenSoFar who (pieces dst r.bytes.length) r.bytes).2 = 0) ∧
  ∀ (s s1 s2 s3 s4 : State) (core ch : Nat) (d : DmaDesc) (r q : ReadResult) (w : Status) (p : ScrubPass) (rest : List ScrubPass)
    (remote : Option (Status × List Byte)) (answers : List (Status × List Byte)) (ack : Option Status),
    s.running = true →
    let ws := d.words
    let n := dmaLen ws
    let src := dmaSrc ws
    let dst := dmaDst ws
    let who := Agent.dma core d.id
    let tower := coreTower core
    let first (mode : Nat → Bool) : Prop := (s.core core).dma.find? (fun d =>
      (d.words.headD 0).toNat / 2 ^ 40 % 256 == 2 && d.status.isNone && mode (dmaMode d.words)) = some d
    let ends (c : Instr) (t : State) (st : Status) : Prop :=
      (t.endDma core d.id st).Settled who → exec c s = .next ((t.endDma core d.id st).linesTaken who)
    let awaits (c : Instr) (t : State) : Prop := t.Awaits [who] → exec c s = .next (s.asking t)
    let checks (c : Instr) (none_ : Prop) (st : Status) : Prop :=
      (dmaWellFormed ws = false → ends c s 0x02) ∧ (dmaWellFormed ws = true → none_ → ends c s 0) ∧
      (dmaWellFormed ws = true → ¬ none_ → st ≠ 0 → ends c s st)
    let own (a : Nat) : Prop := s.isOwn (a / 2 ^ 48 % 64) = true
    (first (fun m => m == 0 || 6 ≤ m) →
      let st := s.dmaChecks tower [(src, n), (dst, n)] (!s.overlapping src dst n)
      let noted (t : State) (x : Status) : State := if x = 0 && inDram (src % 2 ^ 48) then t.noteCopy dst n (some src) 0 else t
      let reads := pieces (s.homeAddr src) n
      let x := s.advance who d.rerun (s.homeAddr dst) reads (s.readSoFar who reads)
        fun k => reads.countP fun p => p.1 + p.2 ≤ s.homeAddr src + k
      let c := Instr.copy core remote ack
      checks c (n = 0) st ∧ awaits c (s.copyWork core remote ack d) ∧
      (dmaWellFormed ws = true → n ≠ 0 → st = 0 → remote = none ∧ ack = none ∨ own src ∧ own dst → x.1 ≠ askedStatus →
        ends c (noted x.2 x.1) x.1) ∧
      (dmaWellFormed ws = true → n ≠ 0 → st = 0 → remote ≠ none ∨ ack ≠ none → ¬ (own src ∧ own dst) →
        s.readGroup src n who remote = (r, s1) → r.waiting = false → s1.writeGroup dst r.bytes d.rerun ack who = (w, s2) → w ≠ askedStatus →
          ends c (noted s2 (if w ≠ 0 then w else r.status)) (if w ≠ 0 then w else r.status))) ∧
    (first (· == 2) →
      let st := s.dmaChecks tower [(dst, n)] (!inDram (dst % 2 ^ 48) || (dst % 64 == 0 && n % 64 == 0))
      let c := Instr.fill core ack
      checks c (n = 0) st ∧ awaits c (s.fillWork core ack d) ∧
      (dmaWellFormed ws = true → n ≠ 0 → st = 0 → s.writeGroup dst (fillBytes (tileField ws 3 31 0) n) d.rerun ack who = (w, s1) →
        w ≠ askedStatus → ends c (if w = 0 then s1.noteCopy dst n none (BitVec.ofNat 32 (tileField ws 3 31 0)) else s1) w)) ∧
    (first (· == 3) →
      let size := tileField ws 5 12 0
      let base := tileField ws 4 53 0
      let st := if s.memberDevice (base / 2 ^ 48 % 64) then
          s.dmaChecks tower [(src, 4 * (n / size)), (dst, n)] (n % size == 0 && size ≤ 4096) else 0x07
      let g := s.gatherList core who answers base (tileField ws 5 63 32) size (pieces src (4 * (n / size))) [] {}
      let x := s.advance who d.rerun (s.homeAddr dst)
        ((g.reads.filter fun l => answers.isEmpty || s.isOwn (l / 2 ^ 48 % 64)).map fun l => (s.homeAddr l, 64)) g.data
        fun k => if k < size then 0 else g.uses.getD (k / size - 1) 0
      let c := Instr.gather core answers ack
      checks c (n = 0 ∨ size = 0) st ∧ awaits c (s.gatherWork core answers ack d) ∧
      (dmaWellFormed ws = true → n ≠ 0 → size ≠ 0 → st = 0 → ack = none ∨ own dst → x.1 ≠ askedStatus → ends c x.2 x.1)) ∧
    (first (· == 1) →
      let x := skewOf ws
      let srcScale := s.ownAddr (tileField ws 4 47 0)
      let dstScale := s.ownAddr (tileField ws 5 47 0)
      let mask := 2 ^ x.bits - 1
      let el (i : Nat) : Nat := bytesToNat r.bytes / 2 ^ (i * x.bits) % (mask + 1)
      let st := s.dmaChecks tower [(src, x.srcBytes), (dst, x.outBytes), (srcScale, x.srcScales), (dstScale, x.scaleBytes)] x.legal
      let c := Instr.skew core remote ack
      checks c (x.m = 0 ∨ x.k = 0) st ∧ awaits c (s.skewWork core remote ack d) ∧
      (dmaWellFormed ws = true → x.m ≠ 0 → x.k ≠ 0 → st = 0 → x.srcBytes ≠ 0 → s.readGroup src x.srcBytes who remote = (r, s1) →
        r.waiting = false → r.status = 0 → s1.readRange (srcScale % 2 ^ 48) x.srcScales who = (q, s2) → q.waiting = false → q.status = 0 →
        s2.writeGroup dst (x.string el) d.rerun ack who = (0, s3) →
        s3.writeRange (dstScale % 2 ^ 48) (x.scales (q.bytes.getD · 0) 0x7F) d.rerun who = (w, s4) → w ≠ askedStatus → ends c s4 w)) ∧
    ((s.core core).dma.find? (·.status.isSome) = some d → exec (.dmaComplete core) s = .next
      ((s.setCore core { s.core core with dma := (s.core core).dma.filter (·.id != d.id) }).complete d.target (d.status.getD 0))) ∧
    (let start := tileField ws 1 47 0
     let len := tileField ws 2 63 32
     let summary := tileField ws 3 47 0
     let k := start / dramTower * 2048 + start % dramTower / channelBytes
     let c := s.channel k
     ((s.core core).dma.find? fun d => (d.words.headD 0).toNat / 2 ^ 40 % 256 == 7 && d.status.isNone &&
        !(s.channels.any fun e => e.2.scrubs.any (·.desc == d.id))) = some d →
      scrubWellFormed ws = true → len ≠ 0 → s.issuer k = some core →
      start < 8 * dramTower → start % 64 = 0 → len % 64 = 0 → len ≤ 2 ^ 26 → summary % 64 = 0 →
      s.dmaChecks tower [(s.ownAddr start, len), (s.ownAddr summary, 64)] true = 0 →
      let pass : ScrubPass :=
        { core := core, desc := d.id, next := start % channelBytes / 64, stop := start % channelBytes / 64 + len / 64, summary := summary }
      exec (.scrub core) s = .next (s.setChannel k { c with scrubs := c.scrubs ++ [pass] })) ∧
    (let c := s.channel ch
     let who := Agent.dma p.core p.desc
     c.scrubs = p :: rest → p.stop ≤ p.next ∨ p.status ≠ 0 → c.flight.any (·.scrub) = false →
      p.waiting.any (fun l => c.wbq.any (·.line == l)) = false →
      (s.setChannel ch { c with scrubs := rest }).writeRange p.summary (p.record ch) none who = (w, s1) →
      let t := s1.endDma p.core p.desc (if w = 0 then p.status else w)
      (t.Settled who → exec (.scrubComplete ch) s = .next (t.linesTaken who)) ∧
      (t.Awaits [who] → exec (.scrubComplete ch) s = .next (s.asking t)))

/-- R443 to R448, R451, R453, R454. REFETCH_COMPLETE, while the device runs and a refetch of the line is open: once its source is read the line
holds it with a clean check code and its readers go on; a source that fails, or a line whose record has ended, ends the recovery without.
SRAM_RERUN_START starts the producer's saved launch on a free context of its core and sets the deadline of the recoveries that wait for it.
RERUN_TIMEOUT: a rerun that is late has failed, while the device runs. With the steward there WB_SUPPRESS sets the bit of every channel of its
tower and no other, and WB_LOG_CLEAR empties the named entry or all, but for one detected in the same reference cycle, which stays with
COUNT 1 and the kind of that detection; the log with an empty entry is full no more. LANE_SUSPECT_WINDOW, at the end of a window and not before,
starts the channel's symbol counts again. -/
def Obligations.RecoveryAndWriteBackControl : Prop :=
  ∀ (s s1 : State) (line cluster entry t ch k addr : Nat) (r : CopyRecord) (q : ReadResult) (bytes : List Byte) (e : RerunEntry) (v : Byte)
    (l : Bool) (remote : Option (Status × List Byte)),
    (s.running = true → s.mem.recoveries.any (fun r => r.line == line && r.kind == .refetch) = true →
      let who := Agent.refetch line
      let ends (u : State) : Prop := u.Settled who → exec (.refetchComplete ⟨line, remote⟩) s = .next (u.linesTaken who)
      ((s.copyRecords line).find? (·.coversLine line) = none → ends (s.endRecovery line (s.crcOk line) 0)) ∧
      ((s.copyRecords line).find? (·.coversLine line) = some r → s.refetchLine line r remote = (q, s1) →
        (q.waiting = true → s1.Awaits [who] → exec (.refetchComplete ⟨line, remote⟩) s = .next (s.asking s1)) ∧
        (q.waiting = false → q.status = 0 → ends (((s1.poke (line * 64) q.bytes).setCrc line 0).endRecovery line true 0)) ∧
        (q.waiting = false → q.status ≠ 0 → ends (s1.endRecovery line false 0)))) ∧
    (s.mem.recoveries.any (fun r => r.line == line && r.kind == .refetch) = false → exec (.refetchComplete ⟨line, remote⟩) s = .next s) ∧
    (s.mem.recoveries.any (fun r => r.kind == .rerun entry && r.deadline.isNone && sramUnit r.line / 16 == cluster) = true →
      s.rerunEntry cluster entry = some e → e.running = false → s.coreUp e.core = true →
      s.launchEntry e.queue (e.words.getD 1 0) = some (addr, l) → (s.core e.core).freeCtx = some k →
      Completes (.sramRerunStart cluster entry) s fun u =>
        let w := (s.startThread e.core k e.words e.queue addr none (some e.id)).updRerun cluster e.id fun e =>
          { e with ctx := k, running := true }
        u = { w with mem := { w.mem with recoveries := w.mem.recoveries.map fun (r : Recovery) =>
          if r.kind == RecoveryKind.rerun entry && r.deadline.isNone then { r with deadline := some (w.run + msCycles (w.reg 0x4403 1)) }
          else r } }) ∧
    (s.running = true → s.mem.recoveries.any (fun r => r.kind == .rerun entry && r.deadline.any fun t => decide (t ≤ s.run)) = true →
      exec (.rerunTimeout entry) s = .next (s.endRerun entry false)) ∧
    (s.steward.lost = false → t < 8 → bytes.length = 160 → Completes (.wbSuppressWrite t bytes) s fun u =>
      (∀ n, n < 1280 → Map.get false u.mem.wbSuppress (t * 2048 + n) = (bytes.getD (n / 8) 0).getLsbD (n % 8)) ∧
      (∀ n, n / 2048 ≠ t → Map.get false u.mem.wbSuppress n = Map.get false s.mem.wbSuppress n) ∧
      u = { s with mem := { s.mem with wbSuppress := u.mem.wbSuppress } }) ∧
    (let named (n : Nat) : Prop := n / 64 = t ∧ (v.getLsbD 6 = true ∨ n % 64 = v.toNat % 64)
     s.steward.lost = false → t < 8 → Completes (.wbLogClear t v) s fun u =>
      (∀ x ∈ s.mem.wbLog, ¬ named x.1 → x ∈ u.mem.wbLog) ∧
      (∀ x ∈ u.mem.wbLog, (x ∈ s.mem.wbLog ∧ ¬ named x.1) ∨ (named x.1 ∧ x.2.refTime = s.refTime t ∧
        ∃ y ∈ s.mem.wbLog, x = (y.1, { y.2 with count := 1, kind := y.2.last, rewritten := false }))) ∧
      (∀ y ∈ s.mem.wbLog, named y.1 → y.2.refTime = s.refTime t → ∃ x ∈ u.mem.wbLog, x.1 = y.1 ∧ x.2.count = 1 ∧ x.2.kind = y.2.last) ∧
      (∀ i, i < 64 → (∀ x ∈ u.mem.wbLog, x.1 = t * 64 + i → x.2.kind = 0) → Map.get 0 u.mem.wbFull t = 0) ∧
      (∀ n, n ≠ t → Map.get 0 u.mem.wbFull n = Map.get 0 s.mem.wbFull n) ∧
      u = { s with mem := { s.mem with
        wbLog := u.mem.wbLog, wbFull := u.mem.wbFull, wbClearedAt := s.now + 1, wbCleared := u.mem.wbCleared } }) ∧
    ((s.channel ch).laneWindowAt + secCycles 1 ≤ s.now →
      exec (.laneSuspectWindow ch) s = .next (s.setChannel ch { s.channel ch with
        symbolCounts := [], lanesRaised := [], laneWindowAt := s.now / secCycles 1 * secCycles 1 }).refreshReplace) ∧
    (s.now < (s.channel ch).laneWindowAt + secCycles 1 → exec (.laneSuspectWindow ch) s = .next s)

/-! ### Groups -/

/-- R472, R480 to R482, R504. With the steward there, GROUP_REFORM takes the shape and number written, or stands alone where the number lies
outside the shape, and trains every port of a shape, counted; GROUP_ENABLE with 1 on the head of a shape asks every other number, and on
another device does nothing; a device answers MEMBERSHIP, and the head takes an answer within 1 ms of its asking and no later; at the end of
that window those who answered join, and a bitmap that is new, or the first, is published: kept, numbered on and sent to each member; every
100 ms an enabled head asks the numbers that are missing; a member takes a bitmap that holds it and removes none; a member unheard for 100 µs is
removed, with its event and count. A group request of a thread or a unit, or a sync operation, without an answer in time ends with ABORTED,
counted; one of the host does not. -/
def Obligations.GroupMembership : Prop :=
  ∀ (s : State) (v : BitVec 8) (device members id : Nat) (r : Req) (m : SyncMsg),
    let g := s.group
    let numbers := (List.range (shapeMembers g.shape)).filter (· ≠ 0)
    let asks (asked : List Nat) (t : State) : Prop := t.group = { g with askedAt := s.now, asking := true, answers := [] } ∧
      t.out = (asked.map fun d => Output.groupMessage d 13 [0]).reverse ++ s.out
    (s.steward.lost = false → Completes .groupReform s fun t => (t.group.shape, t.group.member) = s.wantedShape ∧ t.reg 0x5200 6 = 1 ∧
      (∀ p, p < 12 → t.portState p = (if s.wantedShape.1 = 0 then 4 else 1) ∧ t.reg 0xB612 (p + 1) =
        if s.wantedShape.1 = 0 then s.reg 0xB612 (p + 1) else min (s.reg 0xB612 (p + 1) + 1) 0xFFFFFFFF) ∧
      t.reg 0x5200 5 = (if s.wantedShape.1 = 0 then 0 else if s.wantedShape.2 = 0 then 3 else 1) ∧
      t = { s with group := t.group, regs := t.regs }) ∧
    (s.steward.lost = false → g.member = 0 → g.shape ≠ 0 → Completes (.groupEnable 1) s fun t => t.reg 0x5200 3 = 1 ∧ asks numbers t ∧
      t = { s with group := t.group, regs := t.regs, out := t.out }) ∧
    (s.steward.lost = false → g.member = 0 → exec (.groupEnable 0) s = .next (s.setReg 0x5200 3 0)) ∧
    (g.member ≠ 0 → exec (.groupEnable v) s = .next s) ∧
    (g.shape ≠ 0 → s.steward.lost = false →
      (g.member ≠ 0 → exec (.membership device) s = .next (s.send (.groupMessage 0 13 [g.member]))) ∧
      (g.member = 0 → g.asking = true → s.now ≤ g.askedAt + msCycles 1 → 0 < device → device < shapeMembers g.shape →
        exec (.membership device) s = .next { s with group := { g with answers := device :: g.answers } }) ∧
      (g.member = 0 → g.askedAt + msCycles 1 < s.now → exec (.membership device) s = .next s)) ∧
    (g.asking = true → g.member = 0 → s.steward.lost = false → g.askedAt + msCycles 1 ≤ s.now →
      let new := g.answers.foldl (fun m d => m ||| 2 ^ d) (s.reg 0x5200 6 ||| 1)
      let next := (s.reg 0x5200 7 + 1) % 2 ^ 32
      Completes .membershipWindowEnd s fun t => t.group.asking = false ∧ t.group.answers = [] ∧
        (new ≠ s.reg 0x5200 6 ∨ g.published = false → t.reg 0x5200 6 = new ∧ t.reg 0x5200 7 = next ∧ t.group.published = true ∧
          t.out = (((List.range 64).filter fun d => d ≠ 0 && new.testBit d).map fun d => Output.groupMessage d 16 [new, next]).reverse ++
            s.out) ∧
        (new = s.reg 0x5200 6 → g.published = true → t.regs = s.regs ∧ t.out = s.out)) ∧
    (g.member = 0 → g.shape ≠ 0 → s.reg 0x5200 3 = 1 → g.asking = false → s.steward.lost = false → g.askedAt + msCycles 100 ≤ s.now →
      Completes .membershipRetry s fun t => asks (numbers.filter fun d => !(s.reg 0x5200 6).testBit d) t ∧
        t = { s with group := t.group, out := t.out }) ∧
    (g.member ≠ 0 → g.shape ≠ 0 → members < 2 ^ 64 → members.testBit g.member = true → s.reg 0x5200 5 ≠ 4 →
      (∀ d, d < 64 → (s.reg 0x5200 6).testBit d = true → members.testBit d = true) →
      Completes (.memberBitmap members) s fun t => t.reg 0x5200 6 = members ∧ t.reg 0x5200 5 = 2) ∧
    (g.member = 0 → g.shape ≠ 0 → device ≠ 0 → device < 64 → s.steward.lost = false → (s.reg 0x5200 6).testBit device = true →
      Map.get 0 g.heard device + usCycles 100 ≤ s.now →
      let u := { s with group := { g with requests := Map.set 0 g.requests device 0 } }
      exec (.memberTimeout device) s = .next
        ((((u.publishMembers (s.reg 0x5200 6 - 2 ^ device)).raise 0x11 0 device).sat32 0xB614 3 1).removeDevices [device])) ∧
    (s.findReq id = some r → s.isOwn (r.addr / 2 ^ 48 % 64) = false → r.stage ≠ .done → r.sentAt + msCycles (s.reg 0x5200 9) ≤ s.now →
      exec (.lglReqTimeout id) s = .next (if r.ofHost then s
        else (s.updReq id fun r => { r with stage := .done, status := 0x08 }).sat32 0xB614 2 1)) ∧
    (s.findReq id = none → s.syncMsgs.find? (·.id == id) = some m → s.isOwn (m.object / 2 ^ 13) = false → m.reply = none →
      s.running = true → m.sentAt + msCycles (s.reg 0x5200 9) ≤ s.now →
      exec (.lglReqTimeout id) s = .next ((s.giveSync m 0x08 0).sat32 0xB614 2 1))

/-- R480, R483 to R487, R504. A port that was training and has trained begins anew and sends its identity; an attempt that fails is counted, and the
third in a row takes the port down with its event. The identity of the right neighbour brings a port up, and any other holds it MISWIRED with
its event. On a port that is up: a frame that is bad or out of sequence is discarded with one NAK, a bad one counted; a good one in sequence moves
it on, its ACK, NAK and credits are taken, then its flits in order, and a KIND that is none counts the frame; a packet of one flit for this
device is accepted. ACK_REPORT sends a DATA frame of the flits that credits allow, which stays in the retry buffer, and an IDLE frame with
none. LGL_REPLAY_TIMER resends every unacknowledged frame once ACK_SEQ has not moved for 1 µs. A port that is not up takes no frame. -/
def Obligations.DeviceLinkPorts : Prop :=
  ∀ (s : State) (p device shape peer d : Nat) (frame : List Byte), p < 12 →
    let k := s.port p
    let good (n : Nat) := frameGood frame = true ∧ headerBits frame 127 120 = n
    let bad (n : Nat) := frameGood frame = false ∨ headerBits frame 127 120 ≠ n
    let up := s.portState p = 2
    (s.portState p = 1 → exec (.portTrained p) s = .next ((s.setPort p k.restarted).sendIdentity p)) ∧
    (s.portState p ≠ 0 → s.portState p ≠ 4 → (portDirections s.group.shape)[p]? = some d →
      (device = neighbour s.group.member d → shape = s.group.shape → s.peerPort p = some peer →
        exec (.identityFrame p device shape peer) s = .next (s.setPortState p 2)) ∧
      (device ≠ neighbour s.group.member d ∨ shape ≠ s.group.shape ∨ s.peerPort p ≠ some peer →
        exec (.identityFrame p device shape peer) s = .next ((s.setPortState p 3).raise 0x0F (portTower p) p))) ∧
    (¬ up → exec (.lglDataFrame p frame) s = .next s ∧ exec (.lglIdleFrame p frame) s = .next s ∧ exec (.ackReport p []) s = .next s ∧
      exec (.lglReplayTimer p) s = .next s) ∧
    (up → good 1 → headerBits frame 119 108 ≠ k.rxNext → exec (.lglDataFrame p frame) s =
      .next (s.setPort p { k with discarded := true, nakDue := k.nakDue || !k.discarded })) ∧
    (up → bad 1 → Completes (.lglDataFrame p frame) s fun t =>
      t.port p = { k with discarded := true, nakDue := k.nakDue || !k.discarded } ∧
      t.reg 0xB613 (p + 1) = min (s.reg 0xB613 (p + 1) + 1) 0xFFFFFFFF ∧ t = { s with group := t.group, regs := t.regs }) ∧
    (up → good 1 → headerBits frame 119 108 = k.rxNext →
      let u := (s.setPort p { k with rxNext := (k.rxNext + 1) % 4096, discarded := false }).takeAck p frame
      let r := (frameSlots frame).foldl (fun (a : Bool × State) f => (a.1 || (a.2.takeFlit p f).1, (a.2.takeFlit p f).2)) (false, u)
      exec (.lglDataFrame p frame) s = .next (if r.1 then r.2.sat32 0xB613 (p + 1) 1 else r.2)) ∧
    (∀ f : Flit, (Map.get {} k.incoming f.vc).left = 0 → let c := f.control.toNat
      1 ≤ bitsOf c 101 96 → bitsOf c 101 96 ≤ 0x10 → bitsOf c 75 73 = 1 → bitsOf c 127 122 = s.group.member →
      s.takeFlit p f = (false, (s.creditSlot p f.vc (!s.running && f.vc ≠ 2 && f.vc ≠ 3)).acceptPacket p c f.data)) ∧
    (up → good 2 → exec (.lglIdleFrame p frame) s = .next (s.takeAck p frame)) ∧
    (up → bad 2 → exec (.lglIdleFrame p frame) s = .next (s.sat32 0xB613 (p + 1) 1)) ∧
    (let u := s.formPackets
     let k := (u.port p).freed u.running
     let sent := k.sendable 4
     let credits := k.due.take 2
     up →
      (sent.1 = [] ∨ 512 ≤ k.retry.length → Completes (.ackReport p []) s fun t =>
        t.out = .lglFrame p (k.frame 2 k.txNext [] credits) :: u.out ∧ (t.port p).nakDue = false ∧
        (t.port p).txNext = k.txNext ∧ (t.port p).retry = k.retry ∧ (t.port p).txq = k.txq ∧ t = { u with group := t.group, out := t.out }) ∧
      (sent.1 ≠ [] → k.retry.length < 512 → Completes (.ackReport p []) s fun t =>
        let frame := k.frame 1 k.txNext sent.1 credits
        t.out = .lglFrame p frame :: u.out ∧ (t.port p).nakDue = false ∧ (t.port p).txq = sent.2.txq ∧
        (t.port p).txNext = (k.txNext + 1) % 4096 ∧ (t.port p).retry = sent.2.retry ++ [(k.txNext, frame)] ∧
        t = { u with group := t.group, out := t.out, regs := t.regs })) ∧
    (up → k.retry ≠ [] → k.progressAt + usCycles 1 ≤ s.now → exec (.lglReplayTimer p) s = .next (s.replay p)) ∧
    (k.retry ≠ [] → (k.retry.map (·.1)).Nodup → (∀ e ∈ k.retry, Map.get 0 k.resent e.1 < 7) →
      (s.replay p).out = (k.retry.map fun e => Output.lglFrame p e.2).reverse ++ s.out ∧ ((s.replay p).port p).retry = k.retry) ∧
    (s.portState p = 1 → exec (.lglRetrain p true) s = .next ((s.setPort p k.restarted).sendIdentity p)) ∧
    (s.portState p = 1 → k.fails < 2 → exec (.lglRetrain p false) s = .next (s.setPort p { k with fails := k.fails + 1 })) ∧
    (s.portState p = 1 → 2 ≤ k.fails → exec (.lglRetrain p false) s =
      .next (((s.setPort p { k with fails := k.fails + 1 }).setPortState p 0).raise 0x10 (portTower p) p))

/-- R489 to R502. GROUP_LEASE, with the steward there: on the head an empty DEV_MASK leaves an unbound group lease unbound, and a mask of the head
alone, its lease in use, binds it with a slot in every router to the anchor; what is not well formed, and a write on another device, does
nothing. GROUP_MERGE: a device that only forwards, and has not yet in this round, sends its one child's partial on, or its status.
PACE_REQUEST_SEND: the request is recomputed, kept by the head and by a device alone, and sent by a member when it has changed and every 10 µs;
the head holds what comes. BELLWETHER_WINDOW sends the lowest request held as target in the same way, to be applied GROUP_APPLY_DELAY later.
A member takes a target at its tick, at once where that has passed. A tick edge counts and clears its loss; the loss of edges and, on a member,
of targets raise their events. A forwarded freeze freezes a member; on the head it does nothing without GROUP_FREEZE_PROPAGATE. -/
def Obligations.GroupLeasesAndPaceLock : Prop :=
  ∀ (s : State) (n device value target tick apply source : Nat) (bytes : List Byte) (others : Nat),
    let g := s.group
    let gl := s.groupLease n
    (s.steward.lost = false → n < 32 → bytes.length = 16 → fieldAt bytes 11 5 = 0 → fieldAt bytes 0 8 = 0 → g.member = 0 → gl.state = 0 →
      Completes (.groupLease n bytes false others) s fun t => t.reg 0x5203 (n + 1) = 0 ∧ t.group = g ∧
        Map.get 0 t.groupLeaseEntries n = bytesToNat bytes ∧ t.leases = s.leases ∧ t.slots = s.slots) ∧
    (∀ slots s1, s.steward.lost = false → n < 32 → bytes.length = 16 → fieldAt bytes 11 5 = 0 → fieldAt bytes 0 8 ≠ 0 → g.member = 0 → gl.state = 0 →
      let b : GroupLease := { mask := fieldAt bytes 0 8, lease := fieldAt bytes 8 2 % 2 ^ 11, root := fieldAt bytes 10 1 % 64 }
      let u := { s with groupLeaseEntries := Map.set 0 s.groupLeaseEntries n (bytesToNat bytes) }.sendMembers (s.reg 0x5200 6) 9
        [n, bytesToNat bytes]
      let held := s.lease b.lease
      b.tree = [0] → b.root = 0 → (∀ d, d < 64 → (b.inMask d = true ↔ d = 0)) → (s.reg 0x5200 6).testBit 0 = true → held.state ≠ 0 →
      u.reserveSlots b.lease ((anchorPath held.words).filter fun r => !(held.slots.map (· / 4)).contains r) [] = some (slots, s1) →
      exec (.groupLease n bytes false others) s =
        .next ((s1.setGroupLease n { b with state := 1, slots := slots }).setReg 0x5203 (n + 1) 1)) ∧
    (32 ≤ n ∨ bytes.length ≠ 16 ∨ fieldAt bytes 11 5 ≠ 0 ∨ g.member ≠ 0 → exec (.groupLease n bytes false others) s = .next s) ∧
    (∀ d st rtype data, gl.state = 1 → s.running = true → gl.inMask g.member = false → g.member ≠ gl.root →
      gl.round = false → gl.children g.member = [d] → nextDirection g.member gl.root = some value →
      exec (.groupMerge n [(d, st, rtype, data)]) s = .next
        (((s.towerWrap 0xB201 (portTower ((gl.ports.headD 0) / 16)) 0).setGroupLease n { gl with round := true }).send
          (.groupMessage (neighbour g.member value) 10 [n, st.toNat, rtype, if st = 0 then data.length else 0,
            if st = 0 then bytesToNat data else 0]))) ∧
    (g.shape = 0 → exec .paceRequestSend s = .next (s.setReg 0x2210 2 s.paceRequest)) ∧
    (g.shape ≠ 0 → g.member = 0 → s.steward.lost = false → s.boot.inputLoss = false → exec .paceRequestSend s =
      .next { s.setReg 0x2210 2 s.paceRequest with group := { g with requests := Map.set 0 g.requests 0 s.paceRequest } }) ∧
    (g.shape ≠ 0 → g.member ≠ 0 → s.steward.lost = false → s.boot.inputLoss = false → s.paceRequest ≠ g.sentRequest ∨ g.requestAt + usCycles 10 ≤ s.now →
      Completes .paceRequestSend s fun t => t.out = .groupMessage 0 11 [g.member, s.paceRequest] :: s.out ∧
        t.reg 0x2210 2 = s.paceRequest ∧ t.group = { g with sentRequest := s.paceRequest, requestAt := s.now } ∧
        t = { s with group := t.group, regs := t.regs, out := t.out }) ∧
    (g.member = 0 → g.shape ≠ 0 → device < 64 → (s.reg 0x5200 6).testBit device = true →
      exec (.paceRequest device value) s = .next { s with group := { g with
        requests := Map.set 0 g.requests device value, heard := Map.set 0 g.heard device s.now } }) ∧
    (let low := s.lowestRequest
     let due := (s.reg 0x2210 5 + s.reg 0x2210 4) % 2 ^ 64
     s.steward.lost = false → s.boot.inputLoss = false → g.member = 0 → g.shape ≠ 0 → low.1 < 1801 → low.1 ≠ g.sentTarget ∨ g.targetAt + usCycles 10 ≤ s.now →
      Completes .bellwetherWindow s fun t => t.reg 0x2210 3 = low.2 ∧
        t.group = { g with sentTarget := low.1, targetAt := s.now, targets := g.targets ++ [(due, low.1)] } ∧
        t.out = (((List.range 64).filter fun d => d ≠ g.member && (s.reg 0x5200 6).testBit d).map
          fun d => Output.groupMessage d 17 [low.1, s.reg 0x2210 5, due]).reverse ++ s.out) ∧
    (g.member ≠ 0 → g.shape ≠ 0 → g.targets = [] →
      let now := (tick + (2 * 242 + deviceHops 0 g.member * 75 + 99) / 100) % 2 ^ 64
      Completes (.paceTarget target tick apply) s fun t => t.reg 0x2210 5 = now ∧ t.group.heardTarget = s.now ∧
        (apply ≤ now → t.reg 0x2210 1 = target ∧ t.group.targets = []) ∧
        (now < apply → t.reg 0x2210 1 = s.reg 0x2210 1 ∧ t.group.targets = [(apply, target)])) ∧
    ((∀ e ∈ g.targets, s.reg 0x2210 5 < e.1) → exec .applyTick s = .next s) ∧
    (g.targets = [(apply, target)] → apply ≤ s.reg 0x2210 5 → exec .applyTick s =
      .next ({ s with group := { g with targets := [] } }.setReg 0x2210 1 target)) ∧
    (Completes .gtickEdge s fun t => t.reg 0x2210 5 = (s.reg 0x2210 5 + 1) % 2 ^ 64 ∧ t.reg 0x2210 6 = 0 ∧
      t = { s with group := { g with gtickAt := s.now }, regs := t.regs }) ∧
    (s.reg 0x2210 6 ≠ 1 → g.gtickAt + usCycles 1 ≤ s.now →
      exec .gtickLoss s = .next ((s.setReg 0x2210 6 1).raise 0x12 0 0)) ∧
    (s.reg 0x5200 5 = 2 → g.heardTarget + usCycles 100 ≤ s.now →
      exec .orphanTimeout s = .next ((s.setReg 0x5200 5 4).raise 0x13 0 0)) ∧
    (g.shape ≠ 0 → g.member ≠ 0 → exec (.freezePacket source) s =
      .next ((s.setFlags 0xA001 4 freezeSoftware).beginFreeze)) ∧
    (g.shape ≠ 0 → g.member = 0 → s.reg 0x5200 8 = 1 → (s.reg 0x5200 6).testBit source = true → source ≠ 0 →
      exec (.freezePacket source) s = .next (((s.setFlags 0xA001 4 freezeSoftware).beginFreeze).forwardFreeze source)) ∧
    (g.shape ≠ 0 → g.member = 0 → s.reg 0x5200 8 ≠ 1 → exec (.freezePacket source) s = .next s)

/-! ### The timed-stream port -/

/-- R507, R509 to R514, R521, R522. STREAM_BIND of a queue in service: with an address that is not aligned or a queue that is not
producer-managed it ends with BOUNDS, and with a template that is read and is a launch it binds its stream; STREAM_UNBIND takes the binding
away. A link with lanes passes by lane lock from DOWN to ALIGNING, by deskew to DECLARING, and by a declaration to READY, which is answered,
or, refused with its cause, to REFUSED; one that fails its header CRC is counted, and one that fails its payload's is not answered. HREQ_SWITCH at its
time leaves the new HREQ alone in force. With the steward there LINK_ENABLE of a legal link starts a new ring empty; of one that is not legal it
is refused and counted; with 0 it disables. Lost lane lock takes a link down and drops the frame in progress. HOLD_STATE frames go out every
microsecond for the links with lanes. -/
def Obligations.StreamLinksAndBindings : Prop :=
  ∀ (s : State) (n : Nat) (b : BindOp) (t : Nat) (v : Byte) (bs : List Byte),
    let l := s.link n
    let w1 := (b.words.getD 1 0).toNat
    let at_ := (b.words.getD 2 0).toNat
    let a := storeAddr b.core at_
    let words : List Word := (List.range 8).map fun j => BitVec.ofNat 64 (bytesToNat (s.bytes (a + 8 * j) 8))
    let ended (s : State) (b : BindOp) : State := { s with bindOps := s.bindOps.filter (· != b) }
    (s.bindOps.find? (fun b => (b.words.getD 1 0).toNat / 2 ^ 62 != 1) = some b → s.running = true →
      bindWellFormed b.words = true → w1 / 2 ^ 62 = 0 → coreExists (queueCore (w1 % 2 ^ 19)) = true → s.inService (queueCore (w1 % 2 ^ 19)) = true →
      (at_ % 64 ≠ 0 ∨ (s.queue (w1 % 2 ^ 19)).producer = false →
        exec .streamBind s = .next ((ended s b).complete b.target 0x02)) ∧
      (at_ % 64 = 0 → (s.queue (w1 % 2 ^ 19)).producer = true → s.LineOk (a / 64) (.dispatcher b.core) →
        (words.getD 0 0).toNat / 2 ^ 40 % 256 = 1 →
        let u : State := { s with stream := { s.stream with
          bindings := Map.set (0, []) s.stream.bindings (bindStream b.words) (w1 % 2 ^ 19 + 1, words) } }
        exec .streamBind s = .next ((ended u b).complete b.target 0))) ∧
    (s.bindOps.find? (fun b => (b.words.getD 1 0).toNat / 2 ^ 62 == 1) = some b → s.running = true →
      bindWellFormed b.words = true →
      let u : State := { s with stream := { s.stream with
        bindings := Map.set (0, []) s.stream.bindings (bindStream b.words) (0, []) } }
      exec .streamUnbind s = .next ((ended u b).complete b.target 0)) ∧
    (n < 8 →
      (l.state = 0 → s.linkLanes n ≠ 0 → exec (.laneLock n) s = .next (s.setLink n { l with state := 1 })) ∧
      (l.state ≠ 0 → exec (.laneLock n) s = .next s) ∧
      (l.state = 1 → exec (.linkDeskewed n) s = .next (s.setLink n { l with state := 2 })) ∧
      (l.state ≠ 1 → exec (.linkDeskewed n) s = .next s) ∧
      (2 ≤ l.state → headerGood bs = false → exec (.declare n bs) s = .next (s.setLink n (l.count 4 1))) ∧
      (let u := s.noteSeq n (frameHeader bs).seq
       let m := u.link n
       let f (off : Nat) : Nat := fieldAt (framePayload bs) off 4
       2 ≤ l.state → headerGood bs = true → fieldAt bs 0 1 = 2 → payloadGood bs = true →
        let answer (c : Nat) : Control :=
          { type := 0x11, flags := if c = 0 then 0 else frameRefused, stream := (frameHeader bs).stream, cause := c,
            seq := (frameHeader bs).seq.toNat }
        (u.declareCause n bs ≠ 0 → exec (.declare n bs) s =
          .next (((u.setLink n { m with state := 5 }).refreshHold n).sendControl n (answer (u.declareCause n bs)))) ∧
        (u.declareCause n bs = 0 →
          let h := hreq (f 4) (f 8) (f 12) (f 16) (u.reg 0x7008 1)
          exec (.declare n bs) s = .next (((u.setLink n { m with
            state := 3, rate := f 4, lead := f 8, minFrame := f 12, maxFrame := f 16, hreq := h
            hreqNow := if m.declared then max m.hreqNow h else h
            switchAt := if m.declared then some (u.now + usCycles m.lead + nsCycles (u.reg 0x7008 1)) else none }).refreshHold n).sendControl
              n (answer 0)))) ∧
      (2 ≤ l.state → headerGood bs = true → fieldAt bs 0 1 = 2 → payloadGood bs = false →
        exec (.declare n bs) s = .next (s.noteSeq n (frameHeader bs).seq)) ∧
      (s.steward.lost = false → v = 1 → s.linkEnabled n = false → s.linkLegal n = true → s.dm.towers = [] →
        l.ringOff ≠ s.reg 0x7002 (n + 1) ∨ l.ringBytes ≠ s.reg 0x7003 (n + 1) →
        exec (.linkEnableWrite n v) s = .next (((s.setLink n { l with
          ringOff := s.reg 0x7002 (n + 1), ringBytes := s.reg 0x7003 (n + 1), next := 0, space := false
          slots := l.slots.map fun f => { f with take := 0 } }).setReg 0x7000 (n + 1) 1).refreshHold n)) ∧
      (s.steward.lost = false → v = 1 → s.linkEnabled n = false → s.linkLegal n = false → exec (.linkEnableWrite n v) s = .next (s.sat32 0xB902 2 1)) ∧
      (s.steward.lost = false → v = 0 → exec (.linkEnableWrite n v) s = .next ((s.setReg 0x7000 (n + 1) 0).refreshHold n)) ∧
      (l.state ≠ 0 → exec (.laneLockLoss n none) s = .next ((s.setLink n { l with state := 0 }).refreshHold n)) ∧
      (∀ stream seq, l.state ≠ 0 →
        let u := (s.noteSeq n seq).dropFrame n 0x0A stream.toNat seq (Map.get 0 s.stream.fallbacks stream.toNat)
        exec (.laneLockLoss n (some (stream, seq))) s = .next ((u.setLink n { u.link n with state := 0 }).refreshHold n)) ∧
      (∀ frame, l.state = 0 → exec (.laneLockLoss n frame) s = .next s)) ∧
    (l.switchAt = some t → t ≤ s.now → exec (.hreqSwitch n) s =
      .next (s.setLink n { l with hreqNow := l.hreq, switchAt := none })) ∧
    (l.switchAt = some t → s.now < t → exec (.hreqSwitch n) s = .next s) ∧
    (s.stream.timerAt + usCycles 1 ≤ s.now → Completes .holdStateTimer s fun u => u.stream = { s.stream with timerAt := s.now } ∧
      u.out = (((List.range 8).filter fun k => s.linkLanes k ≠ 0).map fun k => Output.egress (k / 4)
        (({ type := 0x12 } : Control).bytes k (s.link k).hold (s.refTime (linkTower k)))).reverse ++ s.out ∧
      u = { s with stream := u.stream, out := u.out }) ∧
    (s.now < s.stream.timerAt + usCycles 1 → exec .holdStateTimer s = .next s)

/-- R515, R519 to R526. DATA_FRAME on a link that declares or is declared: a header that fails is counted as such. A good one is counted with its
gap, and its frame is dropped with the cause of a link not declared, of a frame too long, of a payload that fails, or of a stream not bound, in
this order, or else, while the device runs and the group's buffer is empty, placed with the binding, deadline and fallback of this moment, its
buffered line upset where the frame is spoiled. Placing drops a frame with a line that fails and one for which the ring has no room, and gives
another the ring's next slot. SLOT_WRITE_COMPLETE, its lines written, marks the oldest slot that is not written, or drops its frame where the write
fails, and goes on with the pushes that no older launch holds back. PUSH_RETRY goes on with them once one refused is due or one waits. VERDICT: of
the frames whose launch has completed the first gets its verdict, or its fallback with its cause, unless one was sent, its slot is released, and
its launch ends, with DEADLINE in place of OK where the fallback was late. DEADLINE_EXPIRY sends the fallback of a frame whose deadline has
come. While lines are under way from elsewhere only their requests are made. -/
def Obligations.StreamFramesAndVerdicts : Prop :=
  (∀ (s : State) (n : Nat) (bs : List Byte) (sp : Bool) (f : Frame), n < 8 →
    let l := s.link n
    let h := frameHeader bs
    let noted := s.noteSeq n h.seq
    let counted := noted.setLink n (((noted.link n).count 0 1).count 1 h.length)
    let fallback := Map.get 0 s.stream.fallbacks h.stream
    let run := exec (.dataFrame n bs sp) s
    let drops (u : State) (cause : Nat) : Prop := run = .next (u.dropFrame n cause h.stream h.seq fallback)
    let free := Config.freeWord counted.fresh
    let v := if sp then counted.withTokens 1 else counted
    (2 ≤ l.state → headerGood bs = false → run = .next (s.setLink n (l.count 4 1))) ∧
    (2 ≤ l.state → headerGood bs = true → fieldAt bs 0 1 = 1 →
      (l.declared = false → drops counted 0x0B) ∧
      (l.declared = true → l.maxFrame < h.length ∨ 65536 < h.length → drops counted 0x04) ∧
      (l.declared = true → h.length ≤ l.maxFrame → h.length ≤ 65536 →
        (payloadGood bs = false → drops counted 0x02) ∧
        (∀ template, payloadGood bs = true → Map.get (0, []) s.stream.bindings h.stream = (0, template) → drops v 0x05) ∧
        (∀ q template, payloadGood bs = true → s.running = true → Map.get (0, []) s.stream.bindings h.stream = (q + 1, template) →
          Map.get [] s.stream.buffers (n / 4) = [] → run = .next (v.placeFrame n
            { seq := h.seq, stream := h.stream, length := h.length, sourceTime := h.sourceTime, payload := framePayload bs
              arrival := s.refTime (linkTower n), queue := q, template := template, fallback := fallback
              crc := if sp then [(free.toNat / 2 ^ 16 % max 1 ((h.length + 63) / 64), free.truncate 16 ||| 1)] else []
              deadline := s.refTime (linkTower n) +
                BitVec.ofNat 64 (usCycles (Map.get 100 s.stream.deadlines h.stream)) })))) ∧
    ((∃ e ∈ f.crc, e.2 ≠ 0) → s.placeFrame n f = (s.bufferRecord n).dropFrame n 0x06 f.stream f.seq f.fallback) ∧
    (f.crc = [] →
      (l.place (slotBytes f.length) = none → s.placeFrame n f = s.dropFrame n 0x01 f.stream f.seq f.fallback) ∧
      (∀ off take, l.place (slotBytes f.length) = some (off, take) →
        let a := towerAliasBase + linkTower n * dramTower + l.ringOff + off
        let m := { l with slots := l.slots ++ [{ f with addr := a, take := take }], next := off + slotBytes f.length }
        s.slotInReset a (slotBytes f.length) = false →
          s.placeFrame n f = (s.setLink n { m with space := m.space || decide (m.free < m.hreqNow) }).refreshHold n))) ∧
  (∀ (s s1 : State) (n : Nat) (f : Frame) (w : Status), s.running = true →
    (s.link n).slots.find? (fun f => !f.written && !f.released) = some f →
    let who := Agent.frame n f.addr
    s.writeRange f.addr (f.header n ++ f.payload ++ List.replicate (slotBytes f.length - 64 - f.length) 0) none who = (w, s1) →
    let t := if w = 0 then s1.updFrame n (· == f) fun x => { x with written := true }
      else ((s1.updFrame n (· == f) fun x => { x with released := true }).dropFrame n 0x09 f.stream f.seq f.fallback).freeRing n
    let u := t.linesTaken who
    (t.Settled who → exec (.slotWriteComplete n) s = .next
      (if (s.link n).slots.any fun x => x.written && x.launch.isNone && !x.released then u else u.pushFrames n 2)) ∧
    (t.Awaits [who] → exec (.slotWriteComplete n) s = .next (s.asking t))) ∧
  (∀ (s : State) (n : Nat), s.running = true → (∃ x ∈ (s.link n).slots, x.launch = none ∧ x.released = false ∧
      ((∃ t, x.triedAt = some t ∧ t + usCycles 1 ≤ s.run) ∨ x.triedAt = none ∧ x.written = true)) →
    exec (.pushRetry n) s = .next (s.pushFrames n ((s.link n).slots.length + 1))) ∧
  (∀ (s s1 s2 : State) (n : Nat) (f : Frame) (r : ReadResult) (late : Bool), s.running = true → (s.link n).completedFirst = some f →
    let who := Agent.frame n f.addr
    let st := f.completed.getD 0
    let close (t : State) (late : Bool) : State :=
      let u := (t.updFrame n (· == f) fun x => { x with answered := true, released := true }).freeRing n
      match f.launch with
      | some (q, i) => u.endRing q i (lateStatus late st)
      | none => u
    let ends (t : State) : Prop := t.Settled who → exec (.verdict n) s = .next (t.linesTaken who)
    (f.answered = true → ends (close s f.late)) ∧
    (f.answered = false → s.readRange (f.addr + 56) 8 who = (r, s1) →
      (r.waiting = true → s1.Awaits [who] → exec (.verdict n) s = .next (s.asking s1)) ∧
      (r.waiting = false → s1.answerFrame n f st r = (late, s2) → ends (close s2 late)))) ∧
  (∀ (s : State) (n : Nat) (f : Frame) (st : Status) (r : ReadResult),
    let u := s.withTokens 1
    let v := bytesToNat r.bytes
    (s.reached n f.deadline = true → s.answerFrame n f st r = (true, u.sendFallback n f 0x10)) ∧
    (s.reached n f.deadline = false →
      (r.status = 0 → 2 ^ 63 ≤ v → st = 0 → s.answerFrame n f st r = (false, (u.sendControl n
        { type := 0x13, stream := f.stream, seq := f.seq.toNat, verdict := v % 2 ^ 32 }).countStream f.stream 0)) ∧
      (r.status = 0 → 2 ^ 63 ≤ v → st ≠ 0 → s.answerFrame n f st r = (false, u.sendFallback n f 0x12)) ∧
      (r.status ≠ 0 ∨ v < 2 ^ 63 → st = 0 → s.answerFrame n f st r = (false, u.sendFallback n f 0x11)))) ∧
  (∀ (s : State) (n : Nat) (f : Frame),
    (s.link n).slots.find? (fun f => !f.answered && !f.released && s.reached n f.deadline) = some f → exec (.deadlineExpiry n) s =
      .next ((s.updFrame n (· == f) fun x => { x with answered := true, late := true }).sendFallback n f 0x10))

/-! ### Power and temperature -/

/-- R538 to R540, R542, R544, R558, R568. FIELD_TURN_ON of the first field in its tower's order, with no other of the tower turning on: TURNING_ON
with its setpoint and cap limit; the first header group closes at once where no neighbour is at peak, and else the field waits, with its flag and
its count. NEIGHBOUR_WAIT_END closes the first group 200 µs after the wait began, HEADER_GROUP_CLOSE the next one at each interval's end and then
lets the field settle. TURN_ON_SETTLED, an interval and 2.0 µs after group 8 and within 20 µs of it, makes it powered in reset, TESTING, with
its limits anew; TURN_ON_FAIL makes it dark 20 µs after group 8. Where the field is to be switched off, or its turn-on has failed, these four
leave it. FIELD_TURN_OFF stretches a field that is due by 16, and after 1.0 µs and 1.5 µs more HEADER_OPEN has opened its headers. A cap
written is stored clamped, its excursion set to its allowance; POWER_FLAGS is cleared by writing 1, a reserved bit changing nothing. The first
phase of a field to fail is given its code and counted; a failed phase neither fails again nor counts a current limit. -/
def Obligations.FieldSupplyAndCaps : Prop :=
  ∀ (s : State) (f t p n i : Nat) (v : BitVec 16) (u : BitVec 32),
    let k := s.field f
    (f < 64 → thermalState s ≠ 4 → s.boot.inputLoss = false → (Map.get [] s.turnOns (f / 8)).head? = some f →
      (∀ j, j < 8 → (s.field (f / 8 * 8 + j)).headers.turningOn = false) → k.headers = .idle → k.offDue = false →
      s.neighbourAtPeak f = false → Completes (.fieldTurnOn f) s fun r =>
        let cap := max 1000 (min (s.reg 0x2004 1) (s.reg 0x2004 (f / 8 + 2)))
        (r.field f).rail = .turningOn ∧ (r.field f).headers = .closing 1 stageInterval s.now ∧
        (r.field f).setpoint = Map.get 600 k.held (max 1000 ((s.setField f { k with capLimit := cap }).lowestLimit f)) ∧
        (r.field f).capLimit = cap ∧ (r.field f).offAt = none ∧
        r.serviceState f = 3 ∧ (∀ g, g ≠ f → r.field g = s.field g) ∧
        r = { s with fields := r.fields, turnOns := r.turnOns, power := r.power, regs := r.regs }) ∧
    (f < 64 → thermalState s ≠ 4 → s.boot.inputLoss = false → (Map.get [] s.turnOns (f / 8)).head? = some f →
      (∀ j, j < 8 → (s.field (f / 8 * 8 + j)).headers.turningOn = false) → k.headers = .idle → k.offDue = false →
      s.neighbourAtPeak f = true → Completes (.fieldTurnOn f) s fun r =>
        (r.field f).rail = .turningOn ∧ (r.field f).headers = .waiting s.now ∧ r.serviceState f = 3 ∧
        r.reg 0x2006 1 = s.reg 0x2006 1 ||| 16 ∧ r.reg 0xBA02 (f / 8 + 1) = min (s.reg 0xBA02 (f / 8 + 1) + 1) 0xFFFFFFFF ∧
        r = { s with fields := r.fields, turnOns := r.turnOns, power := r.power, regs := r.regs }) ∧
    (s.turnsOn f = false → exec (.neighbourWaitEnd f) s = .next s ∧ exec (.headerGroupClose f) s = .next s ∧
      exec (.turnOnSettled f) s = .next s ∧ exec (.turnOnFail f) s = .next s) ∧
    (s.turnsOn f = true → k.headers = .waiting t → t + usCycles 200 ≤ s.now →
      exec (.neighbourWaitEnd f) s = .next (s.setHeaders f (.closing 1 (4 * stageInterval) s.now))) ∧
    (k.headers = .waiting t → s.now < t + usCycles 200 → exec (.neighbourWaitEnd f) s = .next s) ∧
    (s.turnsOn f = true → k.headers = .closing n i t → t + i ≤ s.now → exec (.headerGroupClose f) s =
      .next (s.setHeaders f (if n + 1 < 8 then .closing (n + 1) i s.now else .settling i s.now))) ∧
    (s.turnsOn f = true → k.headers = .settling i t → t + i + usCycles 2 ≤ s.now → s.now ≤ t + usCycles 20 → Completes (.turnOnSettled f) s fun r =>
      (r.field f).rail = .held ∧ (r.field f).headers = .idle ∧ (r.field f).capLimit = k.capLimit ∧ (r.field f).thermalLimit = 1800 ∧
      (r.field f).thermal = [] ∧ r.reg 0x2005 (f + 1) = 1800 ∧ r.reg 0x9002 (f + 1) = 4 ∧
      (∀ g, g ≠ f → r.field g = s.field g) ∧ r = { s with fields := r.fields, power := r.power, regs := r.regs }) ∧
    (k.headers = .settling i t → t + usCycles 20 < s.now → exec (.turnOnSettled f) s = .next s) ∧
    (s.turnsOn f = true → k.headers = .settling i t → t + usCycles 20 ≤ s.now →
      exec (.turnOnFail f) s = .next ((s.setHeaders f .idle).fieldDark f)) ∧
    (k.offDue = true → exec (.fieldTurnOff f) s =
      .next (s.setField f { k with offDue := false, transition := 16, headers := .stretched s.now })) ∧
    (k.offDue = false → exec (.fieldTurnOff f) s = .next s) ∧
    (k.headers = .stretched t → t + usCycles 1 ≤ s.now → exec (.headerOpen f) s = .next (s.setHeaders f (.opening s.now))) ∧
    (k.headers = .opening t → t + stageInterval ≤ s.now → exec (.headerOpen f) s =
      .next (s.setField f { k with headers := .idle, offAt := some s.now, transition := 0 })) ∧
    (k.headers = .idle → exec (.neighbourWaitEnd f) s = .next s ∧ exec (.headerGroupClose f) s = .next s ∧
      exec (.turnOnSettled f) s = .next s ∧ exec (.turnOnFail f) s = .next s ∧ exec (.headerOpen f) s = .next s) ∧
    (s.steward.lost = false → Completes (.moduleCapWWrite v) s fun r => r.reg 0x2000 1 = max 400 (min 1800 v.toNat) ∧
      Map.get 0 r.power.excursion 0 = 10000 ∧ r = { s with regs := r.regs, power := r.power, dict := r.dict, fresh := s.fresh + 1 }) ∧
    (s.steward.lost = false → t < 8 → Completes (.towerCapWWrite t v) s fun r => r.reg 0x2001 (t + 1) = max 50 (min 225 v.toNat) ∧
      Map.get 0 r.power.excursion (t + 1) = 10000 ∧
      r = { s with regs := r.regs, power := r.power, dict := r.dict, fresh := s.fresh + 1 }) ∧
    (s.steward.lost = false → f < 64 → Completes (.fieldCapMwWrite f u) s fun r => r.reg 0x2002 (f + 1) = max 4000 (min 32000 u.toNat) ∧
      Map.get 0 r.power.excursion (16 + f) = 0 ∧
      r = { s with regs := r.regs, power := r.power, dict := r.dict, fresh := s.fresh + 1 }) ∧
    (s.steward.lost = false → v.toNat < 128 → exec (.powerFlagsWrite v) s = .next (s.setReg 0x2006 1 (s.reg 0x2006 1 ^^^ (s.reg 0x2006 1 &&& v.toNat)))) ∧
    (128 ≤ v.toNat → exec (.powerFlagsWrite v) s = .next s) ∧
    (t < 8 → p < 122 → 1 ≤ n → n ≤ 4 → s.phaseFailed t p = false → phaseDomain p < 8 →
      s.failedPhases t (phaseDomain p) = 0 → Completes (.phaseFailure t p n) s fun r =>
        r.phaseState t p = (s.phaseState t p &&& 0xC0) ||| BitVec.ofNat 8 n ∧ r.fields = s.fields ∧
        r.reg 0xBA00 (t + 1) = min (s.reg 0xBA00 (t + 1) + 1) 0xFFFFFFFF) ∧
    (s.phaseFailed t p = true → exec (.phaseFailure t p n) s = .next s ∧ exec (.currentLimitEntry t p) s = .next s) ∧
    (t < 8 → p < 122 → s.phaseFailed t p = false → exec (.currentLimitEntry t p) s = .next (s.towerSat 0xBA05 t 1))

/-- R548, R552, R553, R571 to R573, R576, R584 to R588, R594, R595, R702. POWER_SAMPLE, once in each 10 µs of the reference count (the model's
choice of the windows, assumption 94), takes the pins and the supply voltages and renews MODULE_INPUT_MW, PIN_STATE and the phase states
shown, where no shared domain has more failed phases than it carries. ATTRIBUTION, once in each millisecond, takes the energies of its tower and the counts of its cores. THERMAL_STEP, once in each 10 µs, takes
the reading of each sensor of its tower, invalid ones counted, and keeps the pair values of the tower's 80 clusters with those of the 50
samples before.
RTH_ESTIMATE waits for its second, and starts a new one when it ended with no sample. THERMAL_CAP_UPDATE waits for its second, and with no
ratio above 1.05 moves THERMAL_CAP_W toward 1,800 W. Tray values are taken where they are finite and from 0 to 100: a flow of 0 starts the
coolant stop, which sets every powered field's limit to 1,000. Entries that are stale set their flag. THERMAL_RESUME, where its conditions
hold, leaves COOLANT_STOP. THERMAL_FLAGS is cleared by writing 1, a reserved bit changing nothing. -/
def Obligations.SensorsAndCoolant : Prop :=
  (∀ (s : State) (samples : List PhaseSample) (i : InputSample) (t background : Nat) (accounts : List Account)
      (leak : List (Nat × Nat)) (readings : List (Option Int)) (counts : List (Nat × List Nat)) (low : Bool),
      (s.boot.started = true → s.power.window < s.now / usCycles 10 →
       (∀ k, k < 8 → ∀ d, d < 12 → 8 ≤ d → s.failedPhases k d ≤ phasesCarried d) → Completes (.powerSample samples i) s fun u => u.pins = { s.pins with coolantOk := i.coolantOk, gtick := i.gtick } ∧
        u.reg 0x2010 1 = (((List.range 8).map fun t => (s.towerPower t (samples.filter (·.tower == t))).input).sum + i.auxMW * 1000) / 1000 ∧
        u.reg 0x2020 3 = i.in1V8 % 65536 ∧ u.reg 0x2020 4 = i.in3V3 % 65536 ∧ u.reg 0x2020 2 = u.pinState ∧ u.power.shownPhases = u.power.phases ∧
        u.power.window = s.now / usCycles 10 ∧ u.mem = s.mem ∧ u.queues = s.queues) ∧
      (s.boot.started = false ∨ s.now / usCycles 10 ≤ s.power.window → exec (.powerSample samples i) s = .next s) ∧
      (s.now / msCycles 1 ≤ Map.get 0 s.power.attributed t → exec (.attribution t accounts leak background) s = .next s) ∧
      (s.boot.started = false ∨ s.now / usCycles 10 ≤ Map.get 0 s.thermal.windows t →
        exec (.thermalStep t readings counts low) s = .next s) ∧
      (t < 8 → Map.get 0 s.power.attributed t < s.now / msCycles 1 → Completes (.attribution t accounts leak background) s fun u =>
        (∀ d, Map.get 0 u.power.domainEnergy (8 * t + d % 8) = 0) ∧ Map.get 0 u.power.inputEnergy t = 0 ∧
        (∀ d, d < 8 → Map.get 0 u.power.fieldEnergy (8 * t + d) = 0) ∧ (∀ c, coreTower c = t → (u.core c).activity = []) ∧
        Map.get 0 u.power.attributed t = s.now / msCycles 1 ∧
        u = { s with power := u.power, regs := u.regs, cores := u.cores }) ∧
      (t < 8 → s.boot.started = true → Map.get 0 s.thermal.windows t < s.now / usCycles 10 →
       Completes (.thermalStep t readings counts low) s fun u => Map.get 0 u.thermal.windows t = s.now / usCycles 10 ∧
        (∀ n, n < 224 → let r := readings.getD n none
          (u.sensor t n).last = r ∧
            (u.sensor t n).bad = if readingValid (s.sensor t n).last r then 0 else min 3 ((s.sensor t n).bad + 1)) ∧
        (let h := Map.get [] s.thermal.history t
          let h' := Map.get [] u.thermal.history t
          h'.dropLast = h.drop (h.length - 50) ∧ (h'.getLastD []).length = 80) ∧
        (u.fresh = s.fresh + 80 ∨ 3 ≤ thermalState u)) ∧
      (let k := Map.get {} s.thermal.sums t
       t < 8 → k.since + secCycles 1 ≤ s.now → k.samples = 0 → exec (.rthEstimate t) s =
        .next { s with thermal := { s.thermal with sums := Map.set {} s.thermal.sums t { since := s.now } } }) ∧
      (s.now < (Map.get {} s.thermal.sums t).since + secCycles 1 → exec (.rthEstimate t) s = .next s)) ∧
  (∀ (s : State) (v : Word32) (b : Byte) (w : BitVec 16),
      (s.steward.running = true → s.steward.lost = false → s.thermal.capAt + secCycles 1 ≤ s.now →
        let u := { s with thermal := { s.thermal with capAt := s.now } }
        u.flowRatioAbove 11 10 = false → u.flowRatioAbove 105 100 = false → exec .thermalCapUpdate s =
          .next { u.setReg 0x3011 9 (moveBy36 (s.reg 0x3011 9) 1800) with
            thermal := { u.thermal with degraded := false } }.refreshThermalState) ∧
      (s.now < s.thermal.capAt + secCycles 1 → exec .thermalCapUpdate s = .next s) ∧
      (s.steward.lost = false → trayValue v = true → Completes (.trayInletCWrite v) s fun u => u.reg 0x3010 1 = v.toNat ∧ u.thermal.trayAt = some s.now ∧
        u = { s with regs := u.regs, thermal := { s.thermal with trayAt := some s.now } }) ∧
      (trayValue v = false → exec (.trayInletCWrite v) s = .next s ∧ exec (.trayFlowLpmWrite v) s = .next s) ∧
      (s.steward.lost = false → trayValue v = true → (s.writeTray 2 v).flowLow = false → (s.writeTray 2 v).flow.map (·.isZero) ≠ some true →
        exec (.trayFlowLpmWrite v) s = .next (s.writeTray 2 v)) ∧
      (s.steward.lost = false → trayValue v = true → (s.writeTray 2 v).flow.map (·.isZero) = some true → thermalState s < 3 →
        Completes (.trayFlowLpmWrite v) s fun u => thermalState u = 3 ∧ u.reg 0x4200 7 = 1 ∧
          ∀ f, f < 64 → s.fieldUp f = true → (u.field f).thermalLimit = 1000) ∧
      (s.trayStale = true → exec .trayStale s = .next (s.setReg 0x3000 8 (s.reg 0x3000 8 ||| 512))) ∧
      (s.trayStale = false → exec .trayStale s = .next s) ∧
      (s.steward.lost = false → thermalState s = 3 → s.mayResume = true → Completes (.thermalResume 1) s fun u => thermalState u ≤ 2 ∧ u.reg 0x4200 7 = 0 ∧
        ∀ n, n < 8 → (u.link n).thermal = false) ∧
      (b ≠ 1 ∨ thermalState s ≠ 3 ∨ s.mayResume = false → exec (.thermalResume b) s = .next s) ∧
      (s.steward.lost = false → w.toNat < 1024 → exec (.thermalFlagsWrite w) s = .next (s.setReg 0x3000 8 (s.reg 0x3000 8 ^^^ (s.reg 0x3000 8 &&& w.toNat)))) ∧
      (1024 ≤ w.toNat → exec (.thermalFlagsWrite w) s = .next s))

/-! ### Boot, reset, service and repair -/

/-- R438, R596, R600, R604 to R607, R609 to R613, R692 to R696. COLD_BOOT, where the standby supply is there and no boot has started, starts it;
with no valid copy of the repair table no repair is in force. IMAGE_LOAD with the rails on, no valid copy of the saved entries and no image
running yet runs the image chosen, or the boot has failed. CHANNEL_INIT_COMPLETE with no failing unit leaves every channel good and no line of
DRAM listed. FIELD_WAVE asks, at its time, for the next wave's fields that are off. SELF_TEST_COMPLETE after the boot applies a field's results
and ends its test. DEFECT_MAP_PUBLISH, with every field tested or its tower out, publishes the map in one step: READY, or degraded.
PWR_GOOD_RISE lets a boot go on. PWR_GOOD_FALL on powered rails, and a low VIN_1V8 while PWR_GOOD is high, are an input loss: the waves end, the
link goes down and DRAM is lost. VAUX_LOSS and a RESET_N low of 100 µs lose all but the NOR device's contents. LAST_SHUTDOWN keeps the cause of
the first stop, of the causes of one cycle the lowest, and a coolant stop that reached the trip only where no other cause arises before the
shutdown has completed; a low shorter than 1.0 µs does nothing; VAUX_RISE clears LAST_SHUTDOWN. -/
def Obligations.BootAndSupplyLands : Prop :=
  ∀ (s : State) (w ns f : Nat) (r : SelfTest) (ch : ChannelTest),
    let b := s.boot
    (b.started = false → s.pins.vaux = true → Completes (.coldBoot false) s fun t => t.boot.started = true ∧ t.boot.since = s.now ∧
      t.boot.rails = s.pins.pwrGood ∧ t.pins.resetN = true ∧ t.repairs = [] ∧ t.inForce = [] ∧ t.reg 0x9005 4 = 0 ∧
      t = { s with pins := t.pins, repairs := [], inForce := [], boot := t.boot, regs := t.regs,
                   steward := { s.steward with lastHeartbeat := s.now } }) ∧
    (b.started = true → exec (.coldBoot false) s = .next s) ∧
    (b.rails = true → b.inputLoss = false → s.steward.running = false → s.reg 0x9000 1 = 0 →
      let found := if s.norSize < 0x4000000 then none else ({ s with saved := {} } : State).chooseImage 0
      Completes (.imageLoad false) s fun t => t.saved = {} ∧ t.mem = s.mem ∧
        (found = none → t.steward = s.steward ∧ t.reg 0x9000 1 = 0x80) ∧
        (∀ slot second, found = some (slot, second) →
          t.steward.running = true ∧ t.steward.lastHeartbeat = s.now ∧ t.reg 0x9000 2 = slot)) ∧
    (s.steward.running = true → exec (.imageLoad false) s = .next s) ∧
    (b.rails = true → b.channels = false → b.inputLoss = false → ch.channels = [] → ch.hens = [] → ch.towers = [] →
      Completes (.channelInitComplete ch) s fun t => t.boot.channels = true ∧ t.boot.badChannels = [] ∧
        (∀ e ∈ t.mem.cells, sliceBase ≤ e.1) ∧ t.mem.check = []) ∧
    (w < 7 → b.wave = w → b.waveAt + w * usCycles 100 ≤ s.now → b.inputLoss = false → Completes (.fieldWave w) s fun t =>
      t.boot = { b with wave := w + 1 } ∧
      (∀ k, k < 8 → b.waveFields.contains (8 * k + w) = true → (s.field (8 * k + w)).rail = .off →
        8 * k + w ∈ Map.get [] t.turnOns k) ∧ t = { s with boot := t.boot, turnOns := t.turnOns }) ∧
    (w ≠ b.wave → exec (.fieldWave w) s = .next s) ∧
    (f < 64 → b.inputLoss = false → s.dm.published = true → (s.field f).rail = .held → s.serviceState f = 4 →
      exec (.selfTestComplete f r) s = .next ((s.applyTest f (s.field f).test 1 r).finishTest f)) ∧
    (s.dm.published = false → b.inputLoss = false → b.wave = 8 → s.reg 0x9000 1 = 3 →
      (∀ f, f < 64 → b.tested.contains f = true ∨ s.towerOut (f / 8) = true) → Completes .defectMapPublish s fun t =>
        t.dm.published = true ∧ t.dm.bridges = b.badBridges ∧
        (∀ c, c ∈ t.dm.cores ↔ (c ∈ (List.range 8).flatMap towerCores ∧
          (s.towerOut (coreTower c) = true ∨ s.coreOut c = true ∨ s.bypassed c = true))) ∧
        (∀ k, k ∈ t.dm.towers ↔ k < 8 ∧ s.towerOut k = true) ∧
        (t.reg 0x9000 1 = 4 ∨ t.reg 0x9000 1 = 5) ∧ t.reg 0x1101 10 = 1) ∧
    (exec .pwrGoodRise s = .next (let u := { s with pins := { s.pins with pwrGood := true } }
      if b.started = true ∧ b.inputLoss = false then { u with boot := { b with rails := true } } else u)) ∧
    (b.rails = true → b.inputLoss = false → Completes .pwrGoodFall s fun t => t.boot.inputLoss = true ∧ t.boot.wave = 8 ∧
      t.host.linkUp = false ∧ (∀ e ∈ t.mem.cells, sliceBase ≤ e.1)) ∧
    (s.pins.pwrGood = true → exec .vin1v8Low s = .next s.inputLoss) ∧ (s.pins.pwrGood = false → exec .vin1v8Low s = .next s) ∧
    Completes .vauxLoss s (fun t => t.pins = { s.pins with vaux := false } ∧ t.nor = s.nor ∧ t.norSize = s.norSize ∧ t.saved = s.saved ∧
      t.repairs = s.repairs ∧ t.mem = State.reset.mem ∧ t.regs = [] ∧ t.cores = [] ∧ t.queues = [] ∧ t.fields = [] ∧
      t.boot.started = false) ∧
    (s.pins.vaux = false → exec .vauxRise s =
      .next ({ s with pins := { s.pins with vaux := true } }.setReg 0x2020 1 0)) ∧
    (s.pins.vaux = true → exec .vauxRise s = .next s) ∧
    (ns < 1000 → exec (.resetNLow ns) s = .next (s.withTokens 1)) ∧
    (100000 ≤ ns → Completes (.resetNLow ns) s fun t => t.boot.started = false ∧ t.steward.running = false ∧ t.pins.resetN = false ∧
      t.nor = s.nor ∧ t.norSize = s.norSize ∧ t.repairs = s.repairs ∧ t.cores = [] ∧ t.queues = [] ∧
      t.reg 0x2020 1 = s.stopCause 1) ∧
    (s.stopped = false → ∀ c, s.stopCause c = c) ∧
    (s.stopped = true → b.stopAt ≠ some s.now → s.reg 0x2020 1 ≠ 4 → ∀ c, s.stopCause c = s.reg 0x2020 1) ∧
    (s.stopped = true → b.stopAt = some s.now → s.reg 0x2020 1 ≠ 4 → ∀ c, s.stopCause c = min (s.reg 0x2020 1) c) ∧
    (s.stopped = true → s.reg 0x2020 1 = 4 → s.shuttingDown = true → ∀ c, c < 4 → s.stopCause c = c)

/-- R474, R590, R615, R616, R618, R620 to R626. COMPUTE_RESET, by its scope, resets a field, the fields of a tower or every field that can be reset;
one with a reserved TEST or scope does nothing. RESET_OFF_HOLD: a field off for 10 µs, before every higher one of its tower, asks to be switched
on. A function-level reset, a hot reset and a link that goes down put the function's controls at their reset values; on the head they also disable
every queue, clear the windows and the MSI-X table and reset the compute side. DRAIN makes a powered field in service DRAINING; it is taken out
once idle, or at its time's end. An OUT field that is on starts the quick test, one that is off asks to be switched on for the full test, and RETURN
puts a tested one in service. CORE_BYPASS takes a core out of service, CORE_RESTORE removes its entry. A row repair and a lane repair are accepted, or
answered NOT_PRESENT or BOUNDS; one of a lane starts when the channel is idle, and a repair whose channel was not idle for 10 ms ends with
status 0x08. SHUTDOWN_RECOVER, where its conditions hold, leaves the shutdown and switches the fields on in waves. -/
def Obligations.ResetServiceAndRepair : Prop :=
  ∀ (s : State) (v : BitVec 16) (c : BitVec 32) (f t0 : Nat) (bytes : List Byte) (j : RepairJob),
    let k := s.field f
    let g := v.toNat % 64
    (s.steward.lost = false → resetScope v = 0 → resetTest v ≠ 3 → s.mayReset = true → exec (.fieldReset v) s =
      .next (if s.unresettable (resetTarget v) then s else s.resetField (resetTarget v) (resetTest v) false)) ∧
    (s.steward.lost = false → resetScope v = 1 → resetTest v ≠ 3 → s.mayReset = true → exec (.towerReset v) s =
      .next (if s.towerOut (resetTarget v % 8) then s else
        ((List.range 8).map (8 * (resetTarget v % 8) + ·)).foldl (fun (s : State) f =>
          if s.unresettable f then s else s.resetField f (resetTest v) false) s)) ∧
    (s.steward.lost = false → resetScope v = 2 → resetTest v ≠ 3 → exec (.computeSideReset v) s = .next (s.resetAll (resetTest v))) ∧
    (resetTest v = 3 ∨ resetScope v = 3 ∨ s.mayReset = false → exec (.fieldReset v) s = .next s ∧ exec (.towerReset v) s = .next s ∧
      exec (.computeSideReset v) s = .next s) ∧
    (f < 64 → s.offHeld f = true → s.running = true → k.byWave = false →
      (∀ i, i < f % 8 → s.offHeld (f / 8 * 8 + i) = false) →
      exec (.resetOffHold f) s = .next ((s.setField f { k with onAfterReset := false }).askTurnOn f)) ∧
    (s.offHeld f = false → exec (.resetOffHold f) s = .next s) ∧
    (s.isHead = true →
      let u : State := { s with
        queues := Map.mapVals {} s.queues fun _ (q : Queue) => { q with enable := false, aged := false, eligibleSince := none }
        host := { s.host with function := {}, windows := [], msix := [] } }
      exec .functionLevelReset s = .next (u.resetAll 0) ∧ exec .hotReset s = .next (u.resetAll 0)) ∧
    (s.isHead = false → exec .functionLevelReset s = .next { s with host := { s.host with function := {} } } ∧
      exec .hotReset s = .next { s with host := { s.host with function := {} } }) ∧
    (exec .pcieLinkDown s = exec .functionLevelReset ({ s with host := { s.host with linkUp := false } }.setReg 0x1102 13 0)) ∧
    (s.steward.lost = false → serviceAction v = 1 → s.mayReset = true → s.serviceState g = 0 → s.fieldUp g = true → exec (.drain v) s =
      .next ((s.setField g { s.field g with drainAt := some s.now }).setServiceState g 1)) ∧
    (f < 64 → s.serviceState f = 1 → s.fieldIdle f = true → exec (.drainEnd f) s = .next (s.takeOut f)) ∧
    (s.serviceState f ≠ 1 → exec (.drainEnd f) s = .next s ∧ exec (.drainTimeout f) s = .next s) ∧
    (f < 64 → s.serviceState f = 1 → k.drainAt = some t0 → t0 + msCycles (s.reg 0x9001 3) ≤ s.now →
      exec (.drainTimeout f) s = .next (s.takeOut f)) ∧
    (s.steward.lost = false → s.mayReset = true → s.serviceState g = 2 → s.inReset g = false →
      (serviceAction v = 2 → (s.field g).rail = .held → exec (.testQuick v) s =
        .next ((s.setField g { s.field g with test := 1, testOnly := true, tested := false }).setServiceState g 4)) ∧
      (serviceAction v = 3 → (s.field g).rail ≠ .held → exec (.testFull v) s =
        .next ((s.setField g { s.field g with test := 2, testOnly := true, tested := false }).askTurnOn g)) ∧
      (serviceAction v = 4 → exec (.returnService v) s = .next (
        if s.towerOut (g / 8) then s
        else if (s.field g).rail = .held ∧ (s.field g).tested = true then s.finishTest g
        else s.setField g { s.field g with
          test := 0, testOnly := false, onAfterReset := true, offAt := some ((s.field g).offAt.getD s.now) }))) ∧
    (let core := c.toNat % 2 ^ 14
     s.steward.lost = false → coreExists core = true → s.mayReset = true →
      (s.inService core = true → c.getLsbD 31 = false → exec (.coreBypass c) s = .next
        (((s.coreDown core).markCore core true).logDefect defectCore 2 0 core 0).serviceChanged) ∧
      (s.inService core = false → c.getLsbD 31 = false → exec (.coreBypass c) s = .next s) ∧
      exec (.coreRestore c) s = .next ((s.removeRepair (.bypass core)).refreshReplace)) ∧
    (let b (i : Nat) : Nat := (bytes.getD i 0).toNat
     let ch := (b 0 + 256 * b 1) % 2 ^ 14
     s.steward.lost = false → bytes.length = 8 → b 7 = 0 → s.repairJob = none → s.mayReset = true → coreExists ch = true →
      (s.dm.channels.contains ch = false → b 2 < 16 → b 3 < 4 → s.spareRows ch (b 2) (b 3) < 8 →
        let job : RepairJob := ⟨.row ch (b 2) (b 3) ((b 4 + 256 * b 5) % 1024), b 6 % 2 == 1, s.now⟩
        exec (.dramRowRepair bytes) s = .next ({ s with repairJob := some job }.setRepairStatus 0xFF)) ∧
      (s.dm.channels.contains ch = true → exec (.dramRowRepair bytes) s = .next (s.setRepairStatus 0x07)) ∧
      (s.dm.channels.contains ch = false → 16 ≤ b 2 ∨ 4 ≤ b 3 → exec (.dramRowRepair bytes) s = .next (s.setRepairStatus 0x02))) ∧
    (let ch := c.toNat % 2 ^ 14
     let lane := c.toNat / 2 ^ 16 % 128
     s.steward.lost = false → s.repairJob = none → s.mayReset = true → coreExists ch = true → s.dm.channels.contains ch = false → s.inForce = [] →
      (lane ≤ 71 → exec (.laneRepair c) s =
        .next ({ s with repairJob := some ⟨.lane ch lane, c.getLsbD 31, s.now⟩ }.setRepairStatus 0xFF)) ∧
      (71 < lane → exec (.laneRepair c) s = .next (s.setRepairStatus 0x02))) ∧
    (∀ ch n, s.repairJob = some j → j.repair = .lane ch n → j.persist = false → s.repairable ch = true → s.running = true →
      exec .repairStart s = .next
        (((({ s with repairJob := none, inForce := s.inForce ++ [.lane ch n] } : State).logDefect defectLane 2 1 ch n).setRepairStatus
          0).refreshReplace)) ∧
    (s.repairJob = some j → j.since + msCycles 10 ≤ s.now → s.repairable j.repair.channel = false →
      exec .repairTimeout s = .next ({ s with repairJob := none }.setRepairStatus 0x08)) ∧
    (s.repairJob = none → exec .repairStart s = .next s ∧ exec .repairTimeout s = .next s) ∧
    (thermalState s ≠ 4 ∨ s.mayResume = false ∨ s.boot.inputLoss = true → exec (.shutdownRecover 1) s = .next s) ∧
    (s.steward.lost = false → thermalState s = 4 → s.mayResume = true → (∀ e ∈ s.thermal.layers, ∀ x ∈ e.2, x < 70 * degree) → s.boot.inputLoss = false →
      Completes (.shutdownRecover 1) s fun t => thermalState t ≤ 2 ∧ t.reg 0x4200 7 = 0 ∧
        t.boot = { s.boot with wave := 0, waveAt := s.now, waveFields := (List.range 64).filter fun f => (s.field f).rail ≠ .dark })

/-! ### Freeze and capture -/

/-- R502, R628, R666, R667, R671, R681, R698, R699. FREEZE changes nothing while the device is FROZEN, and THAW nothing while it is RUNNING. FREEZE, and a low of FREEZE_N of 200 ns outside RESET_N, set their source and tell the group; from
RUNNING after READY the device is then FREEZING, memory and cores as they are, while a low of at most 100 ns does nothing. FREEZE_COMPLETE waits
while a channel has commands under way and then makes it FROZEN, its time noted. THAW clears SOFTWARE and FREEZE_N's end clears PIN; the last source
to clear while FROZEN makes the device THAWING, and one that is set in the same cycle keeps it FROZEN.
R674, R677 to R680. CAPTURE_DATA answers from its window at CAPTURE_ADDR, refuses a wrong length, and with no steward answers NOT_READY; on a
frozen device the scheduler of a core in service reads as its record. CAPTURE_IDLE_EXPIRY puts a channel back after 1.0 µs. IDCODE and BYPASS shift
out their values; CAPADDR loads a multiple of 8; CAPDATA shifts out 8 bytes and walks on, or shifts out status 1 and stays where the device is not
frozen; SAMPLE/PRELOAD and EXTEST load the boundary-scan register. -/
def Obligations.FreezeAndCapture : Prop :=
  (∀ (s : State) (v : Byte) (ns : Nat),
      (s.steward.lost = false → s.reg 0xA001 3 ≠ 2 → exec (.freeze v) s = .next (s.setFreezeSource freezeSoftware)) ∧
      (s.reg 0xA001 3 = 2 → exec (.freeze v) s = .next s) ∧
      (s.steward.lost = false → s.reg 0xA001 3 = 3 → s.capture.thawAt = s.now → Completes (.freeze v) s fun t => t.reg 0xA001 3 = 2 ∧
        t.reg 0xA001 4 = s.reg 0xA001 4 ||| 2 ∧ t = { s with regs := t.regs }) ∧
      (s.steward.lost = false → s.dm.published = true → s.running = true → Completes (.freeze v) s fun t => t.reg 0xA001 3 = 1 ∧
        t.reg 0xA001 4 = s.reg 0xA001 4 ||| 2 ∧ t.running = false ∧ t.mem = s.mem ∧ t.cores = s.cores) ∧
      (s.steward.lost = false → s.reg 0xA001 3 = 2 → s.reg 0xA001 4 = freezeSoftware → Completes (.thaw v) s fun t => t.reg 0xA001 3 = 3 ∧ t.reg 0xA001 4 = 0 ∧
        t = { s with regs := t.regs, capture := { s.capture with thawAt := s.now } }) ∧
      (s.reg 0xA001 3 = 0 → exec (.thaw v) s = .next s) ∧
      (200 ≤ ns → s.pins.resetN = true → s.boot.started = true → exec (.freezeNLow ns) s =
        .next (({ s.withTokens 1 with pins := { s.pins with freezeN := false } } : State).setFreezeSource freezePin)) ∧
      (ns ≤ 100 → exec (.freezeNLow ns) s = .next (s.withTokens 1)) ∧
      (exec .freezeNHigh s = .next (({ s with pins := { s.pins with freezeN := true } } : State).clearFreezeSource freezePin)) ∧
      (s.reg 0xA001 3 = 1 → (∃ e ∈ s.channels, e.2.underWay s.now = true) → exec .freezeComplete s = .next s) ∧
      (s.reg 0xA001 3 = 1 → (∀ e ∈ s.channels, e.2.underWay s.now = false) → s.reg 0xA001 4 ≠ 0 →
        Completes .freezeComplete s fun t => t.reg 0xA001 3 = 2 ∧ t.reg 0xA001 5 = (s.refTime 0).toNat ∧ t.cores = s.cores ∧
          t = { s with fields := t.fields, regs := t.regs }) ∧
      (s.reg 0xA001 3 ≠ 1 → exec .freezeComplete s = .next s)) ∧
  (∀ (s s1 : State) (offset n ch bits : Nat) (a : BitVec 64) (r : CaptureResult) (bytes : List Byte) (e : Nat × Nat),
      (s.steward.lost = true → exec (.captureData offset n) s = .next (s.send (.answered 0x12 0 []))) ∧
      (s.steward.lost = false → n = 0 ∨ 1024 < n ∨ 2 ^ 24 ≤ offset → exec (.captureData offset n) s = .next (s.send (.answered 0x06 0 []))) ∧
      (s.steward.lost = false → 0 < n → n ≤ 1024 → offset < 2 ^ 24 →
        s.captureRead (s.reg 0xA002 1 + offset) (min n (2 ^ 24 - offset)) = (r, bytes, s1) →
        exec (.captureData offset n) s = .next (s1.send (.answered r.code 0 bytes))) ∧
      (∀ core, core < 16384 → coreExists core = true → s.reg 0xA001 3 = 2 → s.inService core = true →
        s.fieldUp (core / 2048 * 8 + clusterField (core / 16 % 128)) = true → 8 ≤ n → n ≤ 64 →
        s.captureRead (core / 2048 * 2 ^ 56 + core / 16 % 128 * 2 ^ 49 + core % 16 * 2 ^ 45 + 6 * 2 ^ 40) n =
          (.ok, (s.schedulerRecord core).take n, s)) ∧
      (s.capture.awake.find? (fun e => e.1 == ch) = some e → e.2 + usCycles 1 ≤ s.now → exec (.captureIdleExpiry ch) s =
        .next { s with capture := { s.capture with awake := Map.erase s.capture.awake ch } }) ∧
      (s.capture.awake.find? (fun e => e.1 == ch) = none → exec (.captureIdleExpiry ch) s = .next s) ∧
      (exec .idcode s = .next ({ s with capture := { s.capture with ir := 0x02 } }.send (.jtag 0x1A8D7E2B))) ∧
      (exec .bypass s = .next ({ s with capture := { s.capture with ir := 0xFF } }.send (.jtag 0))) ∧
      (a.toNat % 8 = 0 → Completes (.capaddr a) s fun t => t.capture = { s.capture with ir := 0x10, address := a.toNat } ∧
        t.out = .jtag s.capture.address :: s.out ∧ t = { s with capture := t.capture, out := t.out }) ∧
      (a.toNat % 8 ≠ 0 → exec (.capaddr a) s =
        .next ({ s with capture := { s.capture with ir := 0x10 } }.send (.jtag s.capture.address))) ∧
      (s.captureRead s.capture.address 8 = (.ok, bytes, s1) → Completes .capdata s fun t =>
        t.out = .jtag (bytesToNat bytes) :: s1.out ∧ t.capture.address = (s.capture.address + 8) % 2 ^ 64 ∧ t.capture.ir = 0x11) ∧
      (s.captureRead s.capture.address 8 = (.notFrozen, bytes, s1) → Completes .capdata s fun t =>
        t.out = .jtag (2 ^ 64 + (2 ^ 64 - 1)) :: s1.out ∧ t.capture = { s1.capture with ir := 0x11 }) ∧
      (Completes (.samplePreload bits) s fun t => t.capture = { s.capture with ir := 0x01, scan := bits } ∧
        t = { s with capture := t.capture, fresh := s.fresh + 1, out := t.out }) ∧
      (Completes (.extest bits) s fun t => t.capture = { s.capture with ir := 0x00, scan := bits } ∧
        t = { s with capture := t.capture, fresh := s.fresh + 1, out := t.out }))

/-! ### The host -/

/-- R466, R468 to R474, R589, R598, R599, R658. HOST_READ of BAR4, with the link up and inside a 4 KiB page: Unsupported Request where the function
decodes no memory, no image runs or no window maps, Completer Abort before READY, and to memory of this device one request for each line.
HOST_WRITE there is discarded and counted in the first case, and else goes to memory of this device line by line; one to the mailbox or the MSI-X
table waits its turn; a poisoned one is discarded, counted and reported. HOST_ATOMIC of an operation that is not supported is refused; one to a
core store is sent there. HOST_COMPLETION of a request that no earlier posted write blocks completes it with its outcome; a failed write is
counted. CONFIG_REQUEST takes the size of BAR4, memory space, bus mastering and D3hot, and is to be retried before the image runs. WIN_WRITE takes
VALID and BASE. GROUP_DOORBELL goes to this device's queue, or waits to be sent to the member. The head takes a member's notice of an event.
PCIE_LINK_TRAINED brings the link up at a legal width and rate. -/
def Obligations.HostAccesses : Prop :=
  ∀ (s : State) (bar off n tag id w device width rate : Nat) (bytes : List Byte) (v : Word) (o : HostOp) (op : AmoOp) (x y : Word),
    let own := s.group.member
    (s.host.linkUp = false ∨ inPage off n = false → exec (.hostRead bar off n tag) s = .next s) ∧
    (s.host.linkUp = true → inPage off n = true → bar = 4 →
      (s.host.function.decodes = false ∨ s.steward.running = false → exec (.hostRead bar off n tag) s =
        .next (s.addOp tag own (.failed outcomeUnsupported) []).settleBars) ∧
      (s.host.function.decodes = true → s.steward.running = true → s.dm.published = false → exec (.hostRead bar off n tag) s =
        .next (s.addOp tag own (.failed outcomeAbort) []).settleBars) ∧
      (s.barGate false = outcomeSuccess → s.windowAddr off = none →
        exec (.hostRead bar off n tag) s = .next (s.addOp tag own (.failed outcomeUnsupported) []).settleBars) ∧
      (∀ g ids s1, s.barGate false = outcomeSuccess → s.windowAddr off = some g →
        s.nonMember (g / 2 ^ 48) = false → s.isOwn (g / 2 ^ 48) = true → registerOffset g = none →
        s.sendHost tag ((pieces g n).map fun (a, k) => (a, .read k)) = (ids, s1) →
        exec (.hostRead bar off n tag) s = .next (s1.addOp tag s1.group.member (.read n) ids).settleBars)) ∧
    (s.host.linkUp = true → inPage off bytes.length = true →
      (8 ≤ bar → exec (.hostWrite bar off bytes) s = .next (s.aerError 12).hostWriteError) ∧
      (bar < 8 → s.host.function.decodes = false → exec (.hostWrite bar off bytes) s = .next (s.aerError 20).hostWriteError) ∧
      (bar = 4 → s.host.function.decodes = true → s.steward.running = false →
        exec (.hostWrite bar off bytes) s = .next s.hostWriteError) ∧
      (bar = 0 → off < windowBase → s.barGate (off / 4096 == mailboxPage) = outcomeSuccess →
        exec (.hostWrite bar off bytes) s = .next (s.addOp 0 own (.bar0Write off bytes) []).settleBars) ∧
      (∀ g ids s1, bar = 4 → s.barGate false = outcomeSuccess → s.windowAddr off = some g → s.nonMember (g / 2 ^ 48) = false →
        s.isOwn (g / 2 ^ 48) = true → registerOffset g = none →
        s.sendHost 0 (cutBytes (pieces g bytes.length) bytes) = (ids, s1) →
        exec (.hostWrite bar off bytes) s = .next (s1.addOp 0 s1.group.member .write ids).settleBars)) ∧
    (s.host.linkUp = true → s.barGate false = outcomeSuccess → bar = 4 → atomicOpSupported op off n = false →
      exec (.hostAtomic bar off n op x y tag) s = .next (s.addOp tag own (.failed outcomeUnsupported) []).settleBars) ∧
    (∀ g ids s1 c k, s.host.linkUp = true → s.barGate false = outcomeSuccess → bar = 4 → atomicOpSupported op off n = true →
      s.windowAddr off = some g → s.nonMember (g / 2 ^ 48) = false → s.isOwn (g / 2 ^ 48) = true →
      placeOf (s.translate (g % 2 ^ 48)) = .store c k →
      s.sendHost tag [(g, .atomic op x y)] = (ids, s1) →
      exec (.hostAtomic bar off n op x y tag) s = .next (s1.addOp tag s1.group.member .atomic ids).settleBars) ∧
    (s.host.ops.find? (·.id == id) = some o → s.opBlocked o = false →
      (∀ k, o.kind = .failed k → exec (.hostCompletion id none) s = .next (s.completeRead o k [])) ∧
      (∀ b, o.kind = .ready b → exec (.hostCompletion id none) s = .next (s.completeRead o outcomeSuccess b)) ∧
      (∀ st data, o.kind = .read n → s.opAnswer o none = some (st, data) →
        exec (.hostCompletion id none) s = .next (s.completeStatus o st data n)) ∧
      (∀ st data, o.kind = .write → s.opAnswer o none = some (st, data) →
        exec (.hostCompletion id none) s = .next ((if st = 0 then s else s.hostWriteError).finishOp o))) ∧
    (s.host.linkUp = true → s.steward.running = true → n ≤ 6 → exec (.configRequest tag (.resizeBar4 n)) s =
      .next ({ s with host := { s.host with bar4 := 2 ^ n } }.send (.completion tag outcomeSuccess []))) ∧
    (s.host.linkUp = true → s.steward.running = false → exec (.configRequest tag (.resizeBar4 n)) s =
      .next (s.send (.completion tag outcomeRetry []))) ∧
    (∀ b d, s.host.linkUp = true → s.steward.running = true →
      exec (.configRequest tag (.command b d)) s = .next
        ((s.setFunction { s.host.function with memory := b, busMaster := d }).send (.completion tag outcomeSuccess [])) ∧
      exec (.configRequest tag (.power d)) s = .next
        ((s.setFunction { s.host.function with d3 := d }).send (.completion tag outcomeSuccess []))) ∧
    (s.host.linkUp = true → s.barGate false = outcomeSuccess → w < s.host.windowCount → Completes (.winWrite w v) s fun t =>
      Map.get 0 t.host.windows w = v &&& 0x803FFFFF00000000 ∧
      (∀ k, k ≠ w → Map.get 0 t.host.windows k = Map.get 0 s.host.windows k) ∧
      t = { s with host := { s.host with windows := t.host.windows } }) ∧
    (s.isOwn device = true → exec (.groupDoorbell device w n off v) s = .next (s.hostDoorbell w n off v)) ∧
    (s.isOwn device = false → s.dm.published = true → s.reg 0x3000 7 ≠ 4 → s.nonMember device = false → s.isHead = true →
      exec (.groupDoorbell device w n off v) s = .next (s.addOp 0 device (.doorbell w n off v) []).settleBars) ∧
    (s.isHead = true → s.isOwn device = false → s.nonMember device = false → device < 64 → Completes (.notify device .event) s fun t =>
      t.reg 0xA200 6 = s.reg 0xA200 6 ||| 2 ^ device ∧ t.events = { s.events with msixDue := true } ∧
      t = { s with regs := t.regs, events := t.events }) ∧
    (s.boot.rails = true → s.boot.inputLoss = false → width ∈ [1, 2, 4, 8, 16] → 1 ≤ rate → rate ≤ 6 →
      exec (.pcieLinkTrained width rate) s =
        .next ({ s with host := { s.host with linkUp := true } }.setReg 0x1102 13 (width * 256 + rate))) ∧
    (width ∉ [1, 2, 4, 8, 16] ∨ rate = 0 ∨ 6 < rate → exec (.pcieLinkTrained width rate) s = .next s)

/-! ### The object dictionary -/

/-- R634, R635, R637, R639 to R647, R660. MB_DOORBELL of a busy mailbox is an overrun; any other whose request is not to be forwarded answers it.
MB_STATUS_WRITE clears OVERRUN. A JOP datagram to another port, or not well formed, is counted; any other is answered to its sender. A member
performs a forwarded request and answers the head; on a head that waits for none it does nothing. REGISTER_WRITE that passes the checks of R639
is applied and answered, PENDING for class B, and one that a check refuses is answered with that result. PRIV_UNLOCK with the code and no lockout
gives steward level, with a wrong code it is counted and refused; PRIV_LOCK gives host level. FLASH_DATA and FLASH_ERASE at steward level, outside the
running slot, queue their work, and FLASH_CONTENT reads the NOR device. SNAPSHOT_READ takes a snapshot, while fewer than 16 are kept, and reads its
segments. With no steward only the mailbox, which answers NOT_READY, is covered. -/
def Obligations.DictionaryRequests : Prop :=
  ∀ (s s1 : State) (who : Requester) (a : Answer) (e : Entry) (idx sub address port off n : Nat) (bytes : List Byte) (v : BitVec 32)
    (b : Byte) (p : Snapshot),
    let m := messageOf bytes
    let level := s.level who
    (s.host.mbBusy = true → exec .mbDoorbell s = .next { s with host := { s.host with mbOverrun := true } }) ∧
    (let u : State := { s with host := { s.host with mbBusy := true, mbDone := false } }
     let w := if s.steward.lost then u else u.wrap64 0xB001 1 1
     let r := messageOf s.mailboxRequest
     s.host.mbBusy = false → w.forwards r = false → w.answerRequest .mailbox r = (a, s1) →
      exec .mbDoorbell s = .next (s1.finishMailbox r.seq (r.response a))) ∧
    (v.getLsbD 18 = true → exec (.mbStatusWrite v) s = .next { s with host := { s.host with mbOverrun := false } }) ∧
    (v.getLsbD 18 = false → exec (.mbStatusWrite v) s = .next s) ∧
    (s.receives (isMapped address) = true →
      (off ≠ 4810 → exec (.jopDatagram address port off bytes) s = .next (s.sat32 0xB001 5 1)) ∧
      (bytes.length < 24 ∨ (crc32 (bytes.drop 4)).toNat ≠ m.crc → exec (.jopDatagram address port 4810 bytes) s =
        .next (s.sat32 0xB001 4 1)) ∧
      (24 ≤ bytes.length → bytes.length = m.bytes → (crc32 (bytes.drop 4)).toNat = m.crc → s.steward.lost = false →
        (s.wrap64 0xB001 2 1).answerRequest (.jop address port) m = (a, s1) →
        exec (.jopDatagram address port 4810 bytes) s = .next (s1.send (.datagram address port (m.response a))))) ∧
    (s.group.member ≠ 0 → s.answerRequest (.head n) m = (a, s1) → exec (.forwardedRequest n bytes) s =
      .next (s1.send (.groupMessage 0 18 [bytesToNat (m.response a), (m.response a).length]))) ∧
    (s.group.member = 0 → s.host.mbSent = [] → exec (.forwardedRequest n bytes) s = .next s) ∧
    (s.steward.lost = false → plainEntry idx sub = true → s.accessCheck idx sub level true = (0, some e) →
      writeLengthOk e 0 bytes.length = true → e.index ≠ 0x1030 → s.writeCheck e.index sub bytes = 0 →
      exec (.registerWrite who idx sub bytes) s =
        .next (((s.applyWrite e.index sub bytes).touch who).send (.answered (if e.classB then resultPending else resultOk) 0 []))) ∧
    (s.steward.lost = false → plainEntry idx sub = true → n ≠ 0 → s.accessCheck idx sub level true = (n, none) →
      exec (.registerWrite who idx sub bytes) s = .next ((s.touch who).send (.answered n 0 []))) ∧
    (s.steward.lost = false → s.steward.running = true →
      (v.toNat = s.stewardCode → s.dict.lockUntil = none →
        exec (.privUnlock who v) s = .next ((s.setLevel who 1).send (.answered resultOk 0 []))) ∧
      (v.toNat ≠ s.stewardCode → Completes (.privUnlock who v) s fun t =>
        t.reg 0xB001 8 = min (s.reg 0xB001 8 + 1) 0xFFFFFFFF ∧ t.out = .answered resultPrivilege 0 [] :: s.out ∧
        t = { s with regs := t.regs, dict := t.dict, out := t.out }) ∧
      exec (.privLock who b) s = .next ((s.setLevel who 0).send (.answered resultOk 0 []))) ∧
    (s.steward.lost = false → 1 ≤ level →
      (1 ≤ bytes.length → bytes.length ≤ 1024 → s.reg 0x9020 1 + bytes.length ≤ 0x2000000 →
        s.flashGuarded (s.reg 0x9020 1) bytes.length = false → Completes (.flashData who bytes) s fun t =>
          t.dict.jobs = s.dict.jobs ++ [⟨s.fresh, .program (s.reg 0x9020 1) bytes⟩] ∧
          t.reg 0x9020 1 = s.reg 0x9020 1 + bytes.length ∧ t.out = .answered resultPending 0 [] :: s.out ∧ t.nor = s.nor ∧
          t = { s with dict := t.dict, regs := t.regs, out := t.out, fresh := s.fresh + 1 }) ∧
      (s.flashGuarded (s.reg 0x9020 1 / 65536 * 65536) 65536 = false → Completes (.flashErase who b) s fun t =>
          t.dict.jobs = s.dict.jobs ++ [⟨s.fresh, .erase (s.reg 0x9020 1 / 65536)⟩] ∧
          t.out = .answered resultPending 0 [] :: s.out ∧
          t = { s with dict := t.dict, out := t.out, fresh := s.fresh + 1 }) ∧
      (1 ≤ n → n ≤ 1024 → off + n ≤ 0x4000000 → Completes (.flashContent who off n) s fun t =>
          t.out = .answered resultOk 0 (s.norBytes off n) :: s.out ∧ t = { s with dict := t.dict, out := t.out })) ∧
    (s.steward.lost = false → s.accessCheck idx sub level false = (0, some e) → s.liveSnaps.length < 16 →
      readLengthOk e sub off n true = true →
      let content := s.blobBytes e.index sub 0 e.size
      let u : State := { s with dict := { s.dict with
        snaps := s.liveSnaps ++ [⟨s.newSnapId, e.index, sub, content, s.now⟩], lastSnap := s.newSnapId } }
      exec (.snapshotRead who idx sub 0 off n) s = .next ((u.touch who).send (.answered resultOk s.newSnapId (content.take n)))) ∧
    (s.steward.lost = false → s.accessCheck idx sub level false = (0, some e) → readLengthOk e sub off n false = true → address ≠ 0 →
      s.liveSnaps.find? (fun p => p.id == address && p.index == e.index && p.sub == sub) = some p →
      let u : State := { s with dict := { s.dict with
        snaps := s.liveSnaps.map fun q => if q.id == address then { q with last := s.now } else q } }
      exec (.snapshotRead who idx sub address off n) s =
        .next ((u.touch who).send (.answered resultOk address ((p.bytes.drop off).take n))))

/-- R635, R641, R646, R649, R650, R651, R655 to R658, R660, R663. SNAPSHOT_DISCARD drops snapshots not used for 10 ms, PRIV_TIMEOUT the level of a
session silent for 60 s, REPLAY_EXPIRY responses kept for 1 s, UNLOCK_LOCKOUT_END a lockout that has ended. The end of a save, other than of the
sideband's entries, puts the value in the NOR device; the end of a program writes its bytes and no other. EVENT_MSIX_SEND: a member tells the head;
the head sends its vector; with no steward neither. EVENT_NOTICE_SEND sends a target's records in one message, the first at once, and drops those
of a target without a port. EVENT_PENDING and GROUP_EVENT_PENDING are cleared by writing 1, a reserved bit of the first changing nothing. A port
that receives answers an ARP request for its address, an echo, a solicitation of its link-local address and a DHCP offer, and with mode 1 takes the
address acknowledged. SB_LINK_CHANGE takes the PHY's state. -/
def Obligations.DictionaryTimeAndSideband : Prop :=
  ∀ (s : State) (t id idx sub address : Nat) (bytes : List Byte) (v : BitVec 64) (mac : BitVec 48) (ip target : BitVec 32)
    (six source : BitVec 128),
    (Completes .snapshotDiscard s fun u => (∀ p, p ∈ u.dict.snaps ↔ p ∈ s.dict.snaps ∧ s.now < p.last + msCycles 10) ∧
      u = { s with dict := { s.dict with snaps := u.dict.snaps } }) ∧
    (Completes .privTimeout s fun u =>
      u.dict.mailbox.level = (if s.dict.mailbox.last + secCycles 60 ≤ s.now then 0 else s.dict.mailbox.level) ∧
      u.dict.mailbox.kept = s.dict.mailbox.kept ∧ u.dict.jop.length = s.dict.jop.length ∧
      (∀ j ∈ u.dict.jop, j.session.last + secCycles 60 ≤ s.now → j.session.level = 0) ∧ u = { s with dict := u.dict }) ∧
    (Completes .replayExpiry s fun u =>
      (∀ k, k ∈ u.dict.mailbox.kept ↔ k ∈ s.dict.mailbox.kept ∧ s.now < k.at_ + secCycles 1) ∧
      u.dict.mailbox.level = s.dict.mailbox.level ∧ u = { s with dict := u.dict }) ∧
    (s.dict.lockUntil = some t → t ≤ s.now → exec .unlockLockoutEnd s =
      .next { s with dict := { s.dict with lockUntil := none } }) ∧
    (s.dict.lockUntil = some t → s.now < t → exec .unlockLockoutEnd s = .next s) ∧
    (∀ js, s.dict.jobs = ⟨id, .save idx sub bytes⟩ :: js → idx ≠ 0x5300 → s.steward.lost = false →
      exec .rwsSaveDone s = .next ((s.endJob id resultOk).storeSaved idx sub bytes)) ∧
    (s.dict.jobs = [] → exec .rwsSaveDone s = .next s ∧ exec (.flashDone true) s = .next s) ∧
    (∀ js off, s.dict.jobs = ⟨id, .program off bytes⟩ :: js → Completes (.flashDone true) s fun u =>
      (∀ i, i < bytes.length → u.norByte (off + i) = bytes.getD i 0) ∧
      (∀ a, a < off ∨ off + bytes.length ≤ a → u.norByte a = s.norByte a) ∧
      u = { s with nor := u.nor, dict := u.dict, fresh := s.fresh + 1 }) ∧
    (s.steward.lost = false → s.group.member ≠ 0 → s.events.notifyDue = true → exec .eventMsixSend s =
      .next ({ s with events := { s.events with notifyDue := false, msixDue := false } }.send (.groupMessage 0 2 [s.group.member]))) ∧
    (s.steward.lost = false → s.group.member = 0 → s.events.msixDue = true → s.events.lastMsix = none →
      (s.reg 0xA200 5).testBit 31 = true → exec .eventMsixSend s = .next (State.sendMsix { s with events := { s.events with
        msixDue := false, notifyDue := false, lastMsix := some s.now } } (s.reg 0xA200 5 % 2 ^ 11))) ∧
    (s.steward.lost = true → exec .eventMsixSend s = .next s) ∧
    (t < 4 → Map.get [] s.events.unsent t ≠ [] → s.steward.lost = false →
      ((s.eventTarget t).2 = 0 → exec (.eventNoticeSend t) s =
        .next { s with events := { s.events with unsent := Map.set [] s.events.unsent t [] } }) ∧
      ((s.eventTarget t).2 ≠ 0 → Map.get 0 s.events.lastNotice t = 0 → Completes (.eventNoticeSend t) s fun u =>
        Map.get [] u.events.unsent t = [] ∧ (∃ message, u.out = .datagram (s.eventTarget t).1 (s.eventTarget t).2 message :: s.out) ∧
        Map.get 0 u.events.noticeSeq t = (Map.get 0 s.events.noticeSeq t + 1) % 2 ^ 16 ∧
        u = { s with events := u.events, regs := u.regs, out := u.out })) ∧
    (s.steward.lost = false → v &&& 0x7FFFFFFE = v → exec (.eventPendingWrite v) s =
      .next (s.setReg 0xA200 3 (s.reg 0xA200 3 ^^^ (s.reg 0xA200 3 &&& v.toNat)))) ∧
    (v &&& 0x7FFFFFFE ≠ v → exec (.eventPendingWrite v) s = .next s) ∧
    (s.steward.lost = false → exec (.groupEventPendingWrite v) s = .next (s.setReg 0xA200 6 (s.reg 0xA200 6 ^^^ (s.reg 0xA200 6 &&& v.toNat)))) ∧
    (s.receives true = true → target.toNat = s.reg 0x5300 6 → exec (.arpRequest mac ip target) s = .next (s.send
      (.ethernet 0x0806 (bigEndian 6 Config.sidebandMac.toNat ++ bigEndian 4 target.toNat ++ bigEndian 6 mac.toNat ++
        bigEndian 4 ip.toNat)))) ∧
    (target.toNat ≠ s.reg 0x5300 6 → exec (.arpRequest mac ip target) s = .next s) ∧
    (s.receives (isMapped address) = true → exec (.icmpEcho address bytes) s =
      .next (s.send (.ethernet etherEcho (bigEndian 16 address ++ bytes)))) ∧
    (s.receives false = true → six.toNat = linkLocal → exec (.ndpSolicitation source six) s = .next (s.send
      (.ethernet etherNeighbour (bigEndian 16 source.toNat ++ bigEndian 16 six.toNat ++ bigEndian 6 Config.sidebandMac.toNat)))) ∧
    (s.receives false = true → s.reg 0x5300 2 = 1 →
      (exec (.dhcpv4Message 2 ip) s = .next (s.send (.ethernet etherDhcp (bigEndian 4 ip.toNat)))) ∧
      (s.reg 0x5300 6 ≠ ip.toNat → exec (.dhcpv4Message 5 ip) s =
        .next ({ s with dict := { s.dict with jop := [] } }.setReg 0x5300 6 ip.toNat))) ∧
    (s.reg 0x5300 2 ≠ 1 → exec (.dhcpv4Message 5 ip) s = .next s) ∧
    (t ≤ 2 → s.pins.vaux = true → exec (.sbLinkChange t) s = .next (s.setReg 0x5300 9 t)) ∧
    (2 < t → exec (.sbLinkChange t) s = .next s)

/-! ### The whole machine -/

/-- R17, R70, R71, R442: on an empty queue a cycle of the 1.2 GHz reference passes: `now` always counts, `run` outside a freeze, and
nothing but the queues' eligibility times and the group's tick follows it (the model's choice, assumption 68), unless the steward
rewrites a line of its region that the log shows. -/
def Obligations.IdleCycle : Prop :=
  ∀ (s : State), s.pending = [] → s.reg 0xA001 3 ≠ 3 →
    let due := s.mem.wbLog.find? fun e => e.2.kind != 0 && e.2.steward && !e.2.rewritten
    (due = none ∨ s.running = false ∨ s.steward.running = false ∨ s.steward.lost = true →
      ∃ t, step s = .next t ∧ t.now = s.now + 1 ∧ t.pending = [] ∧
        t.run = (if s.running then s.run + 1 else s.run) ∧ t.mem = s.mem ∧ t.cores = s.cores ∧ t.channels = s.channels ∧
        (s.reg 0x2210 6 ≠ 1 → t.regs = s.regs) ∧
        t = { s with now := t.now, run := t.run, queues := t.queues, regs := t.regs }) ∧
    (∀ k e, due = some (k, e) → s.running = true → s.steward.running = true → s.steward.lost = false →
      let u : State := { s with now := s.now + 1, run := s.run + 1 }
      let ch := k / 64 * 2048 + e.channel.toNat
      ∃ t, step s = .next t ∧ t.mem = (u.writeDramLine ch e.offset.toNat (u.imageLine ch e.offset.toNat) false).mem ∧
        t.cores = s.cores)

/-- R39, R86, R438, R535, R596, R608, R613, R642: the machine at reset, before COLD_BOOT: no command waits, the boot has not started, no
image runs and no map is published, so no core is in service; every context is FREE and every field off; memory is in canonical form.
The values that the spec does not give are the model's (assumptions 1, 5 and 51). -/
def Obligations.ResetState : Prop :=
  let s := State.reset
  s.pending = [] ∧ s.mem.wf = true ∧ s.boot.started = false ∧ s.boot.rails = false ∧ s.steward.running = false ∧
    s.dm.published = false ∧ s.running = true ∧ s.reg 0x9000 1 = 0 ∧ (∀ c, s.inService c = false) ∧
    (∀ c k, (s.ctx c k).state = .free) ∧ (∀ f, (s.field f).rail = .off) ∧ (∀ q, (s.queue q).enable = false) ∧
    (∀ l, (s.lease l).state = 0) ∧ s.host.linkUp = false ∧ s.host.mbBusy = false

/-- Every command is performed: it answers a next state, in which the queue of commands and the time are as before. -/
def Obligations.EveryCommandAnswers : Prop :=
  ∀ (c : Instr) (s : State), ∃ t, exec c s = .next t ∧ t.pending = s.pending ∧ t.now = s.now

/-- R437 to R441, R450: memory keeps its canonical form: the bytes, the check states of the DRAM lines and the CRC states of the SRAM
lines have strictly rising addresses and no entry equal to what an unlisted one reads as, so equal memories are equal data. -/
def Obligations.MemoryStaysCanonical : Prop :=
  ∀ (s t : State), s.mem.wf = true → step s = .next t → t.mem.wf = true
end

