-- ==== Sys2Proof/Laws/Maps.lean ====
section
/-! SUPPORT. Laws of the sparse tables: what reads give after a write, and that a write keeps the canonical form. -/
namespace Sys2Proof.Machine
variable {α : Type}

@[simp] theorem Map.get_nil (d : α) (i : Nat) : Map.get d [] i = d := rfl

theorem Map.get_erase_same (d : α) (m : Map α) (i : Nat) : Map.get d (Map.erase m i) i = d := by
  induction m with
  | nil => rfl
  | cons e m ih =>
    obtain ⟨k, v⟩ := e
    by_cases h : k = i <;> simp [Map.erase, Map.get, h, ih]

theorem Map.get_erase_of_ne (d : α) (m : Map α) {i j : Nat} (h : j ≠ i) :
    Map.get d (Map.erase m i) j = Map.get d m j := by
  induction m with
  | nil => rfl
  | cons e m ih =>
    obtain ⟨k, v⟩ := e
    by_cases hk : k = i
    · subst hk; simp [Map.erase, Map.get, ih, Ne.symm h]
    · rw [Map.erase, if_neg hk]
      by_cases hj : k = j <;> simp [Map.get, hj, ih]

theorem Map.get_insert_of_ne (d : α) (m : Map α) {i j : Nat} (v : α) (h : j ≠ i) :
    Map.get d (Map.insert m i v) j = Map.get d m j := by
  induction m with
  | nil => simp [Map.insert, Map.get, Ne.symm h]
  | cons e m ih =>
    obtain ⟨k, w⟩ := e
    by_cases hk : i < k
    · simp [Map.insert, Map.get, hk, Ne.symm h]
    · rw [Map.insert, if_neg hk]
      by_cases hj : k = j <;> simp [Map.get, hj, ih]

/-- Inserting a key that the table does not list. -/
theorem Map.get_insert_same (d : α) (m : Map α) (i : Nat) (v : α) :
    Map.get d (Map.insert (Map.erase m i) i v) i = v := by
  induction m with
  | nil => simp [Map.erase, Map.insert, Map.get]
  | cons e m ih =>
    obtain ⟨k, w⟩ := e
    by_cases h : k = i
    · simp [Map.erase, h, ih]
    · by_cases hk : i < k <;> simp [Map.erase, Map.insert, Map.get, h, hk, ih]

variable [DecidableEq α]

@[simp] theorem Map.get_set_same (d : α) (m : Map α) (i : Nat) (v : α) : Map.get d (Map.set d m i v) i = v := by
  by_cases h : v = d
  · simp [Map.set, h, Map.get_erase_same]
  · simp [Map.set, h, Map.get_insert_same]

theorem Map.get_set_of_ne (d : α) (m : Map α) {i j : Nat} (v : α) (h : j ≠ i) :
    Map.get d (Map.set d m i v) j = Map.get d m j := by
  by_cases hv : v = d
  · simp [Map.set, hv, Map.get_erase_of_ne _ _ h]
  · simp [Map.set, hv, Map.get_insert_of_ne _ _ _ h, Map.get_erase_of_ne _ _ h]

/-- The rest value with which another entry is read does not matter. -/
theorem Map.get_set_of_ne' (d e : α) (m : Map α) {i j : Nat} (v : α) (h : j ≠ i) :
    Map.get e (Map.set d m i v) j = Map.get e m j := by
  by_cases hv : v = d
  · simp [Map.set, hv, Map.get_erase_of_ne _ _ h]
  · simp [Map.set, hv, Map.get_insert_of_ne _ _ _ h, Map.get_erase_of_ne _ _ h]

theorem Map.get_set (d : α) (m : Map α) (i j : Nat) (v : α) :
    Map.get d (Map.set d m i v) j = if j = i then v else Map.get d m j := by
  by_cases h : j = i
  · simp [h]
  · simp [h, Map.get_set_of_ne]

/-! ### The canonical form -/

theorem Map.wfFrom_mono (d : α) {a b : Nat} (m : Map α) (h : b ≤ a) (w : Map.wfFrom d a m = true) :
    Map.wfFrom d b m = true := by
  cases m with
  | nil => rfl
  | cons e m => simp only [Map.wfFrom, Bool.and_eq_true, decide_eq_true_eq] at w ⊢; exact ⟨⟨h.trans w.1.1, w.1.2⟩, w.2⟩

theorem Map.wfFrom_erase (d : α) (m : Map α) (i lo : Nat) (w : Map.wfFrom d lo m = true) :
    Map.wfFrom d lo (Map.erase m i) = true := by
  induction m generalizing lo with
  | nil => rfl
  | cons e m ih =>
    obtain ⟨k, v⟩ := e
    simp only [Map.wfFrom, Bool.and_eq_true, decide_eq_true_eq] at w
    by_cases h : k = i
    · simp only [Map.erase, h, if_true]; exact ih _ (Map.wfFrom_mono d m (by omega) w.2)
    · simp only [Map.erase, h, if_false, Map.wfFrom, Bool.and_eq_true, decide_eq_true_eq]; exact ⟨w.1, ih _ w.2⟩

theorem Map.wfFrom_insert (d : α) (m : Map α) (i lo : Nat) (v : α) (hv : v ≠ d) (hi : lo ≤ i)
    (w : Map.wfFrom d lo (Map.erase m i) = true) : Map.wfFrom d lo (Map.insert (Map.erase m i) i v) = true := by
  induction m generalizing lo with
  | nil => simp [Map.erase, Map.insert, Map.wfFrom, hv, hi]
  | cons e m ih =>
    obtain ⟨k, u⟩ := e
    by_cases h : k = i
    · simp only [Map.erase, h, if_true] at w ⊢; exact ih lo hi w
    · simp only [Map.erase, h, if_false, Map.wfFrom, Bool.and_eq_true, decide_eq_true_eq] at w
      by_cases hk : i < k
      · simp only [Map.erase, h, if_false, Map.insert, hk, if_true, Map.wfFrom, Bool.and_eq_true, decide_eq_true_eq]
        exact ⟨⟨hi, hv⟩, ⟨by omega, w.1.2⟩, w.2⟩
      · simp only [Map.erase, h, if_false, Map.insert, hk, Map.wfFrom, Bool.and_eq_true, decide_eq_true_eq]
        exact ⟨w.1, ih _ (by omega) w.2⟩

/-- A write keeps the canonical form of a table. -/
theorem Map.wf_set (d : α) (m : Map α) (i : Nat) (v : α) (w : Map.wf d m = true) : Map.wf d (Map.set d m i v) = true := by
  by_cases h : v = d
  · simp only [Map.set, h, if_true]; exact Map.wfFrom_erase d m i 0 w
  · simp only [Map.set, h, if_false]
    exact Map.wfFrom_insert d m i 0 v h (Nat.zero_le _) (Map.wfFrom_erase d m i 0 w)

theorem Map.wfFrom_filter (d : α) (m : Map α) (p : Nat × α → Bool) (lo : Nat) (w : Map.wfFrom d lo m = true) :
    Map.wfFrom d lo (m.filter p) = true := by
  induction m generalizing lo with
  | nil => rfl
  | cons e m ih =>
    obtain ⟨k, v⟩ := e
    simp only [Map.wfFrom, Bool.and_eq_true, decide_eq_true_eq] at w
    by_cases h : p (k, v) = true
    · rw [List.filter_cons_of_pos h]; simp only [Map.wfFrom, Bool.and_eq_true, decide_eq_true_eq]; exact ⟨w.1, ih _ w.2⟩
    · rw [List.filter_cons_of_neg h]; exact ih _ (Map.wfFrom_mono d m (by omega) w.2)

/-- Leaving entries out keeps the canonical form. -/
theorem Map.wf_filter (d : α) (m : Map α) (p : Nat × α → Bool) (w : Map.wf d m = true) : Map.wf d (m.filter p) = true :=
  Map.wfFrom_filter d m p 0 w

/-- A key below every key of a table reads as the rest value. -/
theorem Map.get_below (d : α) (m : Map α) (i lo : Nat) (h : i < lo) (w : Map.wfFrom d lo m = true) : Map.get d m i = d := by
  induction m generalizing lo with
  | nil => rfl
  | cons e m ih =>
    obtain ⟨k, v⟩ := e
    simp only [Map.wfFrom, Bool.and_eq_true, decide_eq_true_eq] at w
    rw [Map.get, if_neg (by omega)]
    exact ih (k + 1) (by omega) w.2

theorem Map.ext_from (d : α) (m n : Map α) (lo : Nat) (wm : Map.wfFrom d lo m = true) (wn : Map.wfFrom d lo n = true)
    (h : ∀ i, Map.get d m i = Map.get d n i) : m = n := by
  induction m generalizing n lo with
  | nil =>
    cases n with
    | nil => rfl
    | cons e n =>
      simp only [Map.wfFrom, Bool.and_eq_true, decide_eq_true_eq] at wn
      exact absurd (by simpa [Map.get] using (h e.1).symm) wn.1.2
  | cons e m ih =>
    obtain ⟨k, v⟩ := e
    simp only [Map.wfFrom, Bool.and_eq_true, decide_eq_true_eq] at wm
    cases n with
    | nil => exact absurd (by simpa [Map.get] using h k) wm.1.2
    | cons f n =>
      obtain ⟨j, u⟩ := f
      simp only [Map.wfFrom, Bool.and_eq_true, decide_eq_true_eq] at wn
      have hk := h k
      have hj := h j
      simp only [Map.get, if_true] at hk hj
      rcases Nat.lt_trichotomy k j with hlt | heq | hgt
      · rw [if_neg (by omega), Map.get_below d n k (j + 1) (by omega) wn.2] at hk; exact absurd hk wm.1.2
      · subst heq
        rw [if_pos rfl] at hk
        subst hk
        congr 1
        refine ih n (k + 1) wm.2 wn.2 fun i => ?_
        have hi := h i
        simp only [Map.get] at hi
        by_cases hki : k = i
        · subst hki; rw [Map.get_below d m k (k + 1) (by omega) wm.2, Map.get_below d n k (k + 1) (by omega) wn.2]
        · rwa [if_neg hki, if_neg hki] at hi
      · rw [if_neg (by omega), Map.get_below d m j (k + 1) (by omega) wm.2] at hj; exact absurd hj.symm wn.1.2

/-- Two tables in canonical form that read alike are equal data. -/
theorem Map.ext_of_wf (d : α) (m n : Map α) (wm : Map.wf d m = true) (wn : Map.wf d n = true)
    (h : ∀ i, Map.get d m i = Map.get d n i) : m = n := Map.ext_from d m n 0 wm wn h

end Sys2Proof.Machine
end

