-- ==== Sys2Proof/Laws/Memory.lean ====
section
/-! SUPPORT. Laws of memory: reading after writing, and the canonical form under every operation that stores. -/
namespace Sys2Proof.Machine

theorem Memory.wf_iff (m : Memory) :
    m.wf = true ↔ Map.wf 0 m.cells = true ∧ Map.wf poisonDiff m.check = true ∧ Map.wf 0 m.crc = true := by
  simp [Memory.wf, and_assoc]

theorem storeBytes_wf (m : List Host.Cell) (a : Nat) (bs : List Byte) (w : Map.wf 0 m = true) :
    Map.wf 0 (storeBytes m a bs) = true := by
  induction bs generalizing m a with
  | nil => exact w
  | cons b bs ih => exact ih _ _ (Map.wf_set 0 m a b w)

/-- Bytes outside the stored range keep their value. -/
theorem get_storeBytes_of_outside (m : List Host.Cell) (a : Nat) (bs : List Byte) (x : Nat)
    (h : x < a ∨ a + bs.length ≤ x) : Map.get 0 (storeBytes m a bs) x = Map.get 0 m x := by
  induction bs generalizing m a with
  | nil => rfl
  | cons b bs ih =>
    rw [storeBytes, ih, Map.get_set_of_ne]
    · simp only [List.length_cons] at h; omega
    · simp only [List.length_cons] at h; omega

/-- The stored bytes are read back. -/
theorem get_storeBytes_of_inside (m : List Host.Cell) (a : Nat) (bs : List Byte) (i : Nat) (h : i < bs.length) :
    Map.get 0 (storeBytes m a bs) (a + i) = bs.getD i 0 := by
  induction bs generalizing m a i with
  | nil => simp at h
  | cons b bs ih =>
    rw [storeBytes]
    cases i with
    | zero => rw [get_storeBytes_of_outside _ _ _ _ (by omega)]; simp
    | succ i =>
      rw [show a + (i + 1) = a + 1 + i by omega, ih _ _ _ (by simpa using h)]; simp

theorem State.poke_mem_wf (s : State) (a : Nat) (bs : List Byte) (w : s.mem.wf = true) : (s.poke a bs).mem.wf = true := by
  rw [Memory.wf_iff] at w ⊢
  exact ⟨storeBytes_wf _ _ _ w.1, w.2⟩

theorem State.byte_poke_of_outside (s : State) (a : Nat) (bs : List Byte) (x : Nat) (h : x < a ∨ a + bs.length ≤ x) :
    (s.poke a bs).byte x = s.byte x := get_storeBytes_of_outside _ _ _ _ h

theorem State.byte_poke_of_inside (s : State) (a : Nat) (bs : List Byte) (i : Nat) (h : i < bs.length) :
    (s.poke a bs).byte (a + i) = bs.getD i 0 := get_storeBytes_of_inside _ _ _ _ h

theorem State.bytes_length (s : State) (a n : Nat) : (s.bytes a n).length = n := by
  induction n generalizing a with
  | zero => rfl
  | succ n ih => simp [State.bytes, ih]

/-- Reading a range just stored gives the bytes. -/
theorem State.bytes_poke (s : State) (a : Nat) (bs : List Byte) : (s.poke a bs).bytes a bs.length = bs := by
  suffices h : ∀ k n, k + n = bs.length → (s.poke a bs).bytes (a + k) n = bs.drop k from h 0 bs.length (by omega)
  intro k n hk
  induction n generalizing k with
  | zero => simp [State.bytes, List.drop_eq_nil_of_le (show bs.length ≤ k by omega)]
  | succ n ih =>
    have hlt : k < bs.length := by omega
    rw [State.bytes, State.byte_poke_of_inside _ _ _ _ hlt, Nat.add_assoc, ih (k + 1) (by omega),
      List.drop_eq_getElem_cons hlt]
    simp [hlt]

theorem State.setCheck_mem_wf (s : State) (l : Nat) (d : BitVec 64) (w : s.mem.wf = true) :
    (s.setCheck l d).mem.wf = true := by
  rw [Memory.wf_iff] at w ⊢
  exact ⟨w.1, Map.wf_set _ _ _ _ w.2.1, w.2.2⟩

theorem State.setCrc_mem_wf (s : State) (l : Nat) (d : BitVec 16) (w : s.mem.wf = true) : (s.setCrc l d).mem.wf = true := by
  rw [Memory.wf_iff] at w ⊢
  exact ⟨w.1, w.2.1, Map.wf_set _ _ _ _ w.2.2⟩

end Sys2Proof.Machine
end

