-- ==== Sys2Proof/Laws/State.lean ====
section
/-! SUPPORT. What the operations that change one table of the state leave as it is, field by field, and what they write. -/
namespace Sys2Proof.Machine
variable (s : State)

/-! ### Dictionary entries -/

@[simp] theorem State.setReg_cores (i j v : Nat) : (s.setReg i j v).cores = s.cores := rfl
@[simp] theorem State.setReg_mem (i j v : Nat) : (s.setReg i j v).mem = s.mem := rfl
@[simp] theorem State.setReg_fields (i j v : Nat) : (s.setReg i j v).fields = s.fields := rfl
@[simp] theorem State.setReg_channels (i j v : Nat) : (s.setReg i j v).channels = s.channels := rfl
@[simp] theorem State.setReg_queues (i j v : Nat) : (s.setReg i j v).queues = s.queues := rfl
@[simp] theorem State.setReg_pending (i j v : Nat) : (s.setReg i j v).pending = s.pending := rfl
@[simp] theorem State.setReg_now (i j v : Nat) : (s.setReg i j v).now = s.now := rfl
@[simp] theorem State.setReg_core (i j v k : Nat) : (s.setReg i j v).core k = s.core k := rfl
@[simp] theorem State.setReg_ctx (i j v k n : Nat) : (s.setReg i j v).ctx k n = s.ctx k n := rfl
@[simp] theorem State.setReg_field (i j v k : Nat) : (s.setReg i j v).field k = s.field k := rfl
@[simp] theorem State.setReg_byte (i j v a : Nat) : (s.setReg i j v).byte a = s.byte a := rfl
@[simp] theorem State.setReg_crcOk (i j v l : Nat) : (s.setReg i j v).crcOk l = s.crcOk l := rfl

/-- Reading the entry written. -/
@[simp] theorem State.reg_setReg_same (i j v : Nat) : (s.setReg i j v).reg i j = v := by
  simp [State.reg, State.setReg]

/-- Reading any other entry. -/
theorem State.reg_setReg_of_ne {i j i' j' : Nat} (v : Nat) (h : i' * 256 + j' ≠ i * 256 + j) :
    (s.setReg i j v).reg i' j' = s.reg i' j' := by
  simp only [State.reg, State.setReg]
  by_cases hd : regDefault i j = regDefault i' j'
  · rw [hd, Map.get_set_of_ne _ _ _ h]
  · rw [Map.get_set_of_ne' _ _ _ _ h]

/-- Entries are told apart by index and subindex. -/
theorem State.reg_setReg {i j i' j' : Nat} (v : Nat) (hj : j < 256) (hj' : j' < 256) :
    (s.setReg i j v).reg i' j' = if i' = i ∧ j' = j then v else s.reg i' j' := by
  by_cases h : i' = i ∧ j' = j
  · obtain ⟨rfl, rfl⟩ := h; simp
  · rw [if_neg h]; apply State.reg_setReg_of_ne; omega

/-! ### Cores and contexts -/

@[simp] theorem State.setCore_regs (k : Nat) (c : Core) : (s.setCore k c).regs = s.regs := rfl
@[simp] theorem State.setCore_mem (k : Nat) (c : Core) : (s.setCore k c).mem = s.mem := rfl
@[simp] theorem State.setCore_fields (k : Nat) (c : Core) : (s.setCore k c).fields = s.fields := rfl
@[simp] theorem State.setCore_channels (k : Nat) (c : Core) : (s.setCore k c).channels = s.channels := rfl
@[simp] theorem State.setCore_queues (k : Nat) (c : Core) : (s.setCore k c).queues = s.queues := rfl
@[simp] theorem State.setCore_pending (k : Nat) (c : Core) : (s.setCore k c).pending = s.pending := rfl
@[simp] theorem State.setCore_now (k : Nat) (c : Core) : (s.setCore k c).now = s.now := rfl
@[simp] theorem State.setCore_reg (k i j : Nat) (c : Core) : (s.setCore k c).reg i j = s.reg i j := rfl
@[simp] theorem State.setCore_byte (k a : Nat) (c : Core) : (s.setCore k c).byte a = s.byte a := rfl
@[simp] theorem State.setCore_crcOk (k l : Nat) (c : Core) : (s.setCore k c).crcOk l = s.crcOk l := rfl

@[simp] theorem State.core_setCore_same (k : Nat) (c : Core) : (s.setCore k c).core k = c := by
  simp [State.core, State.setCore]

theorem State.core_setCore_of_ne {k j : Nat} (c : Core) (h : j ≠ k) : (s.setCore k c).core j = s.core j := by
  simp [State.core, State.setCore, Map.get_set_of_ne _ _ _ h]

@[simp] theorem State.ctx_setCtx_same (k n : Nat) (c : Ctx) : (s.setCtx k n c).ctx k n = c := by
  simp [State.ctx, State.setCtx]

theorem State.ctx_setCtx_of_ne {k n m : Nat} (c : Ctx) (h : m ≠ n) : (s.setCtx k n c).ctx k m = s.ctx k m := by
  simp [State.ctx, State.setCtx, Map.get_set_of_ne _ _ _ h]

theorem State.core_setCtx_of_ne {k n j : Nat} (c : Ctx) (h : j ≠ k) : (s.setCtx k n c).core j = s.core j :=
  s.core_setCore_of_ne _ h

@[simp] theorem State.core_setCtx_same (k n : Nat) (c : Ctx) :
    (s.setCtx k n c).core k = { s.core k with ctxs := Map.set {} (s.core k).ctxs n c } := by
  simp [State.setCtx]

@[simp] theorem State.setCtx_reg (k n i j : Nat) (c : Ctx) : (s.setCtx k n c).reg i j = s.reg i j := rfl
@[simp] theorem State.setCtx_mem (k n : Nat) (c : Ctx) : (s.setCtx k n c).mem = s.mem := rfl

/-! ### Other units -/

@[simp] theorem State.field_setField_same (f : Nat) (v : Field) : (s.setField f v).field f = v := by
  simp [State.field, State.setField]

theorem State.field_setField_of_ne {f g : Nat} (v : Field) (h : g ≠ f) : (s.setField f v).field g = s.field g := by
  simp [State.field, State.setField, Map.get_set_of_ne _ _ _ h]

@[simp] theorem State.channel_setChannel_same (k : Nat) (v : Channel) : (s.setChannel k v).channel k = v := by
  simp [State.channel, State.setChannel]

theorem State.channel_setChannel_of_ne {k j : Nat} (v : Channel) (h : j ≠ k) : (s.setChannel k v).channel j = s.channel j := by
  simp [State.channel, State.setChannel, Map.get_set_of_ne _ _ _ h]

@[simp] theorem State.queue_setQueue_same (q : Nat) (v : Queue) : (s.setQueue q v).queue q = v := by
  simp [State.queue, State.setQueue]

theorem State.queue_setQueue_of_ne {q j : Nat} (v : Queue) (h : j ≠ q) : (s.setQueue q v).queue j = s.queue j := by
  simp [State.queue, State.setQueue, Map.get_set_of_ne _ _ _ h]

@[simp] theorem State.setField_reg (f i j : Nat) (v : Field) : (s.setField f v).reg i j = s.reg i j := rfl
@[simp] theorem State.setChannel_reg (k i j : Nat) (v : Channel) : (s.setChannel k v).reg i j = s.reg i j := rfl
@[simp] theorem State.setQueue_reg (q i j : Nat) (v : Queue) : (s.setQueue q v).reg i j = s.reg i j := rfl
@[simp] theorem State.setField_mem (f : Nat) (v : Field) : (s.setField f v).mem = s.mem := rfl
@[simp] theorem State.setChannel_mem (k : Nat) (v : Channel) : (s.setChannel k v).mem = s.mem := rfl
@[simp] theorem State.setQueue_mem (q : Nat) (v : Queue) : (s.setQueue q v).mem = s.mem := rfl
@[simp] theorem State.send_reg (o : Output) (i j : Nat) : (s.send o).reg i j = s.reg i j := rfl
@[simp] theorem State.send_mem (o : Output) : (s.send o).mem = s.mem := rfl

/-! ### The mesh, the crossbars' ports and the banks of core stores -/

@[simp] theorem State.router_setRouter_same (r : Nat) (v : Router) : (s.setRouter r v).router r = v := by
  simp [State.router, State.setRouter]

theorem State.router_setRouter_of_ne {r q : Nat} (v : Router) (h : q ≠ r) : (s.setRouter r v).router q = s.router q := by
  simp [State.router, State.setRouter, Map.get_set_of_ne _ _ _ h]

@[simp] theorem State.shaft_setShaft_same (r : Nat) (v : Shaft) : (s.setShaft r v).shaft r = v := by
  simp [State.shaft, State.setShaft]

theorem State.shaft_setShaft_of_ne {r q : Nat} (v : Shaft) (h : q ≠ r) : (s.setShaft r v).shaft q = s.shaft q := by
  simp [State.shaft, State.setShaft, Map.get_set_of_ne _ _ _ h]

@[simp] theorem Router.buffer_setBuffer_same (k : Router) (c i : Nat) (fs : List MeshFlit) :
    (k.setBuffer c i fs).buffer c i = fs := by
  simp [Router.buffer, Router.setBuffer]

@[simp] theorem State.bank_setBank_same (c b : Nat) (v : StoreBank) : (s.setBank c b v).bank c b = v := by
  simp [State.bank, State.setBank]

theorem State.bank_setBank_of_ne {c b d : Nat} (v : StoreBank) (h : d ≠ b) : (s.setBank c b v).bank c d = s.bank c d := by
  simp [State.bank, State.setBank, Map.get_set_of_ne _ _ _ h]

@[simp] theorem State.setRouter_reg (r i j : Nat) (v : Router) : (s.setRouter r v).reg i j = s.reg i j := rfl
@[simp] theorem State.setRouter_mem (r : Nat) (v : Router) : (s.setRouter r v).mem = s.mem := rfl
@[simp] theorem State.setShaft_reg (r i j : Nat) (v : Shaft) : (s.setShaft r v).reg i j = s.reg i j := rfl
@[simp] theorem State.setShaft_mem (r : Nat) (v : Shaft) : (s.setShaft r v).mem = s.mem := rfl
@[simp] theorem State.setBank_reg (c b i j : Nat) (v : StoreBank) : (s.setBank c b v).reg i j = s.reg i j := rfl
@[simp] theorem State.setBank_mem (c b : Nat) (v : StoreBank) : (s.setBank c b v).mem = s.mem := rfl

/-- Banks are no context's state. -/
@[simp] theorem State.setBank_ctx (c b k n : Nat) (v : StoreBank) : (s.setBank c b v).ctx k n = s.ctx k n := by
  by_cases h : k = c
  · subst h; simp [State.ctx, State.setBank]
  · simp [State.ctx, State.setBank, s.core_setCore_of_ne _ h]

/-- A packet put on its way changes nothing but the list of packets. -/
theorem State.post_eq (p : Packet) : s.post p = { s with packets := (s.post p).packets } := by
  unfold State.post; dsimp only; split <;> rfl

/-- An access to a bank is the bank's beat, with the access where the bank grants it. -/
theorem State.onBank_cases (c off order : Nat) (body : State → State) :
    (s.bank c (storeBank off)).wins order s.now = true ∧
        s.onBank c off order body = body (s.setBank c (storeBank off) ((s.bank c (storeBank off)).serve order s.now)) ∨
      (s.bank c (storeBank off)).wins order s.now = false ∧
        s.onBank c off order body = s.setBank c (storeBank off) ((s.bank c (storeBank off)).lose order s.now) := by
  unfold State.onBank; dsimp only; split
  · exact .inl ⟨‹_›, rfl⟩
  · exact .inr ⟨Bool.eq_false_iff.mpr ‹_›, rfl⟩

/-- What a unit's event comes to on its first reading: it does not happen, it is done and takes its lines, or lines that it asks for are
under way, and then only its requests are made before the banks serve theirs. -/
theorem State.units_cases (core : Nat) (whos : List Agent) (body : State → Option State) :
    body s = none ∧ s.units core whos body = s ∨
      ∃ t, body s = some t ∧
        ((t.reqs.any fun r => (whos.any fun w => r.src == .unit w) && t.underWay r) = true ∧
            (let u := State.serveBanks { s with reqs := t.reqs, fresh := t.fresh, packets := t.packets } core whos
             s.units core whos body = u ∨ s.units core whos body = State.unitsFrom core whos body 3 u) ∨
          s.units core whos body = { t with reqs := t.reqs.filter fun r => !(whos.any fun w => r.src == .unit w) }) := by
  rw [State.units, State.unitsFrom]
  cases h : body s with
  | none => exact .inl ⟨rfl, rfl⟩
  | some t =>
    refine .inr ⟨t, rfl, ?_⟩
    by_cases hw : (t.reqs.any fun r => (whos.any fun w => r.src == .unit w) && t.underWay r) = true
    · refine .inl ⟨hw, ?_⟩
      simp only [hw, if_true]
      split
      · exact .inr rfl
      · exact .inl rfl
    · exact .inr (by simp only [hw, Bool.false_eq_true, if_false])

/-! ### Registers of a context (R85) -/

@[simp] theorem Ctx.x_zero (c : Ctx) : c.x 0 = 0 := rfl

@[simp] theorem Ctx.setX_zero (c : Ctx) (v : Word) : c.setX 0 v = c := rfl

theorem Ctx.x_setX (c : Ctx) (r q : Reg) (v : Word) :
    (c.setX r v).x q = if q = 0 then 0 else if q = r then v else c.x q := by
  unfold Ctx.x Ctx.setX
  by_cases hq : q = 0
  · rw [if_pos hq, if_pos hq]
  rw [if_neg hq, if_neg hq, if_neg hq]
  by_cases hr : r = 0
  · have : q ≠ r := fun e => hq (e.trans hr)
    rw [if_pos hr, if_neg this]
  rw [if_neg hr]
  by_cases h : q = r
  · rw [if_pos h, h]; exact Map.get_set_same ..
  · rw [if_neg h]; exact Map.get_set_of_ne _ _ _ fun e => h (BitVec.eq_of_toNat_eq e)

end Sys2Proof.Machine
end

