-- ==== Sys2Proof/Laws/Issue.lean ====
section
/-! SUPPORT. What the issue of an instruction does: the stage's part once, then each shared form over it. -/
namespace Sys2Proof.Machine
variable {s : State} {i : Issue}

theorem State.account_reg (s : State) (i : Issue) (w : Word32) (idx sub : Nat) (h : sub < 256) (ht : coreTower i.core < 255) :
    (s.account i w).reg idx sub =
      if idx = 0xB011 ∧ sub = coreTower i.core + 1 then (s.reg idx sub + (i.beat - (s.core i.core).beats - 1)) % 2 ^ 64
      else if idx = 0xB010 ∧ sub = coreTower i.core + 1 then (s.reg idx sub + if (s.at_ i).counted then 0 else 1) % 2 ^ 64
      else s.reg idx sub := by
  simp only [State.account, State.towerWrap, State.wrap64]
  rw [State.reg_setReg _ _ (by omega) h]
  split
  · rename_i e; obtain ⟨rfl, rfl⟩ := e
    rw [State.reg_setReg _ _ (by omega) (by omega), if_neg (by omega)]; rfl
  · rw [State.reg_setReg _ _ (by omega) h]
    split
    · rename_i e; obtain ⟨rfl, rfl⟩ := e; rfl
    · rfl

theorem State.account_core_of_ne (s : State) (i : Issue) (w : Word32) {k : Nat} (h : k ≠ i.core) :
    (s.account i w).core k = s.core k := by
  simp [State.account, State.towerWrap, State.wrap64, State.core_setCore_of_ne _ _ h]

/-- A line that is in order is read as it stands. -/
theorem State.checkSram_of_ok {line : Nat} {who : Agent} (h : s.LineOk line who) : s.checkSram line who = (.ok, s) := by
  obtain ⟨h1, h2⟩ := h
  have : (s.mem.recoveries.find? fun r => r.line == line && r.reader == who) = none := by
    simp only [List.find?_eq_none, Bool.and_eq_true, beq_iff_eq]; exact h2
  simp only [State.checkSram, h1, if_true, this]

/-- An issue that is performed runs its body on the state with the issue counted. -/
theorem State.issue_of_performs {w : Word32} (h : s.Performs i w) (body : State → State) :
    s.issue i w body = body (s.account i (s.wordAt i)) := by
  obtain ⟨h1, hg, h2, h3, h4, h5⟩ := h
  simp only [State.issue, h1, hg, h2, h4, h5, State.checkSram_of_ok h3, Bool.not_true, Bool.false_eq_true, if_false, if_true]

theorem State.selects_core (h : s.selects i = true) : i.core < 16384 := by
  simp [State.selects, State.coreUp, State.inService, coreExists] at h; omega

/-- The context given to the issuing thread after an issue is the whole effect. -/
theorem issued_account (hs : s.selects i = true) (w : Word32) (c : Ctx) :
    Issued s ((s.account i w).setCtx i.core i.ctx c) i c := by
  have hc := State.selects_core hs
  have ht : coreTower i.core < 8 := by unfold coreTower; omega
  constructor
  · simp [State.at_]
  · intro k hk
    rw [State.ctx_setCtx_of_ne _ _ hk]
    simp [State.account, State.towerWrap, State.wrap64, State.ctx, Map.get_set_of_ne _ _ _ hk]
  · simp only [State.core_setCtx_same, State.account, State.towerWrap, State.wrap64, State.setReg_core, State.core_setCore_same]
    rfl
  · intro k hk
    rw [State.core_setCtx_of_ne _ _ hk, State.account_core_of_ne _ _ _ hk]
  · rw [State.setCtx_reg, State.account_reg _ _ _ _ _ (by omega) (by omega), if_neg (by omega), if_pos ⟨rfl, rfl⟩]
  · rw [State.setCtx_reg, State.account_reg _ _ _ _ _ (by omega) (by omega), if_pos ⟨rfl, rfl⟩]
  · intro idx sub h1 h2 h3
    rw [State.setCtx_reg, State.account_reg _ _ _ _ _ h1 (by omega), if_neg h3, if_neg h2]
  · rfl

/-- The context of the issuing thread once its issue is counted. -/
theorem State.account_ctx (s : State) (i : Issue) (w : Word32) :
    (s.account i w).ctx i.core i.ctx = (s.at_ i).marked s i w := by
  simp [State.account, State.towerWrap, State.wrap64, State.ctx, State.at_, Ctx.marked]

@[simp] theorem Ctx.marked_x (c : Ctx) (s : State) (i : Issue) (w : Word32) (r : Reg) : (c.marked s i w).x r = c.x r := rfl

theorem Ctx.marked_setX (c : Ctx) (s : State) (i : Issue) (w : Word32) (r : Reg) (v : Word) :
    (c.marked s i w).setX r v = (c.setX r v).marked s i w := by
  unfold Ctx.setX Ctx.marked Ctx.issued; split <;> rfl

theorem Ctx.setX_pc (c : Ctx) (r : Reg) (v : Word) : (c.setX r v).pc = c.pc := by unfold Ctx.setX; split <;> rfl

theorem Ctx.retired_eq (c : Ctx) (s : State) (i : Issue) (w : Word32) (xd : Reg) (v : Word) :
    ((c.marked s i w).setX xd v).advance = c.retired s i w xd v := by
  have h : c.pc.toNat + 4 < 2 ^ 64 := by have := c.pc.isLt; omega
  rw [Ctx.marked_setX]
  simp only [Ctx.advance, Ctx.goto, Ctx.marked, Ctx.issued, Ctx.retired, Ctx.setX_pc, BitVec.toNat_ofNat, Nat.mod_eq_of_lt h]
  congr 1
  apply BitVec.eq_of_toNat_eq; simp

theorem Ctx.jumped_eq (c : Ctx) (s : State) (i : Issue) (w : Word32) (xd : Reg) (v a : Word) :
    ((c.marked s i w).setX xd v).goto a = c.jumped s i w xd v a := by
  rw [Ctx.marked_setX]; rfl

theorem Ctx.retired_zero (c : Ctx) (s : State) (i : Issue) (w : Word32) : (c.marked s i w).advance = c.retired s i w 0 0 := by
  rw [← Ctx.retired_eq, Ctx.setX_zero]

/-- A register result (R97 to R99): XD written, the thread at PC + 4, all else as before. -/
theorem State.result_issued {w : Word32} (h : s.Performs i w) (xd : Reg) (f : Ctx → Word) :
    Issued s (s.result i w xd f) i ((s.at_ i).retired s i (s.wordAt i) xd (f ((s.at_ i).marked s i (s.wordAt i)))) := by
  rw [State.result, State.issue_of_performs h, State.updCtx, State.account_ctx, Ctx.retired_eq]
  exact issued_account h.selected _ _

/-- A conditional branch (R102). -/
theorem State.branch_issued {op : Nat} {xa xb : Reg} {off : BitVec 16} (h : s.Performs i (wordB op xa xb off))
    (taken : Word → Word → Bool) :
    Issued s (s.branch i op xa xb off taken) i
      (if taken ((s.at_ i).x xa) ((s.at_ i).x xb) then
        (s.at_ i).jumped s i (s.wordAt i) 0 0 ((s.at_ i).pc.zeroExtend 64 + branchOffset off)
      else (s.at_ i).retired s i (s.wordAt i) 0 0) := by
  rw [State.branch, State.issue_of_performs h, State.updCtx, State.account_ctx, Ctx.retired_zero,
    ← Ctx.jumped_eq, Ctx.setX_zero]
  exact issued_account h.selected _ _

/-! ### Faults -/

theorem State.logFault_reg (s : State) (core ctx beat : Nat) (r : BitVec 256) {idx sub : Nat} (h : sub < 256)
    (hn : ¬ (idx = 0xA110 ∧ (sub = 2 ∨ sub = 3))) : (s.logFault core ctx beat r).reg idx sub = s.reg idx sub := by
  simp only [State.logFault, State.sat32]
  rw [State.reg_setReg _ _ (by omega) h, if_neg (by omega), State.reg_setReg _ _ (by omega) h, if_neg (by omega)]
  rfl

/-- A fault is its record in the log and the stopped context (R131 to R133). -/
theorem State.threadFault_eq (s : State) (core ctx cause : Nat) (st : Status) (addr : Nat) (w : Word32) :
    s.threadFault core ctx cause st addr w =
      (s.faultLogged core ctx (s.core core).beats cause st addr w).setCtx core ctx ((s.ctx core ctx).stopped (s.reg 0xA111 1 == 1) st) := by
  simp only [State.threadFault, State.faultLogged, Ctx.stopped]
  rw [State.logFault_reg _ _ _ _ _ (by omega) (by omega)]

/-! ### Units -/

/-- What units do that have no line under way is done, and they take their lines with it (R708). -/
theorem State.units_of_settled {core : Nat} {whos : List Agent} {body : State → Option State} {t : State} (h : body s = some t)
    (hs : ∀ w ∈ whos, t.Settled w) :
    s.units core whos body = { t with reqs := t.reqs.filter fun r => !whos.any fun w => r.src == .unit w } := by
  have h1 : (t.reqs.any fun r => (whos.any fun w => r.src == .unit w) && t.underWay r) = false := by
    simp only [List.any_eq_false, Bool.and_eq_true, List.any_eq_true, beq_iff_eq, not_and, Bool.not_eq_true]
    rintro r hr ⟨w, hw, e⟩
    exact hs w hw r hr e
  simp only [State.units, State.unitsFrom, h, h1, Bool.false_eq_true, if_false]

/-- What units do whose lines are under way from elsewhere is put off: only their requests are made (R453, R708). -/
theorem State.units_of_awaits {core : Nat} {whos : List Agent} {body : State → Option State} {t : State} (h : body s = some t)
    (ha : t.Awaits whos) : s.units core whos body = s.asking t := by
  obtain ⟨⟨r, hr, w, hw, e, hu⟩, hn⟩ := ha
  have h1 : (t.reqs.any fun r => (whos.any fun w => r.src == .unit w) && t.underWay r) = true := by
    simp only [List.any_eq_true, Bool.and_eq_true, beq_iff_eq]
    exact ⟨r, hr, ⟨w, hw, e⟩, hu⟩
  have h2 : ∀ (l : List Req) (u : State), (∀ r ∈ l, ∀ w ∈ whos, r.src = .unit w → r.bankPlace = none) →
      l.foldl (fun (t : State) r =>
        match r.src, r.bankPlace with
        | .unit who, some (c, off, o) => if c = core && whos.contains who && r.stage != .done then t.serveLine who r c off o else t
        | _, _ => t) u = u := by
    intro l
    induction l with
    | nil => intros; rfl
    | cons r l ih =>
      intro u hl
      simp only [List.foldl_cons]
      rw [ih _ fun r hr => hl r (List.mem_cons_of_mem _ hr)]
      split
      · rename_i who c off o e1 e2
        by_cases hc : who ∈ whos
        · rw [hl r (List.mem_cons_self ..) who hc e1] at e2; cases e2
        · simp [hc]
      · rfl
  have h3 : State.serveBanks (s.asking t) core whos = s.asking t := h2 _ _ hn
  rw [State.units, State.unitsFrom]
  simp only [h, h1, if_true]
  rw [show ({ s with reqs := t.reqs, fresh := t.fresh, packets := t.packets } : State) = s.asking t from rfl, h3]
  exact if_neg (Nat.lt_irrefl _)

/-- The same of one unit. -/
theorem State.unit_of_settled {core : Nat} {who : Agent} {body : State → State} (hs : (body s).Settled who) :
    s.unit core who body = (body s).linesTaken who := by
  have h : s.units core [who] (fun s => some (body s)) = _ := State.units_of_settled (t := body s) rfl (by simpa using hs)
  simpa [State.unit, State.linesTaken, bne] using h

end Sys2Proof.Machine
end

