-- ==== Sys2Proof/WellFormed.lean ====
section
/-! DEFINITION. Well-formed commands: every unit that an operand names exists (R40, R44, R45, R94), and every field that the spec
bounds lies in its range. A command that breaks a range names a unit that no source can address; the meanings leave the
state as it is, or answer as the spec says, where one comes all the same. -/
namespace Sys2Proof

/-- A cluster id, tower × 128 + cluster, that names a cluster that exists (R45). -/
def validCluster (c : Nat) : Bool := decide (c < 1024) && decide (c % 128 < 80)

/-- A core id, and the id of its channel, in a cluster that exists (R44, R45). -/
def validCore (c : Nat) : Bool := decide (c < 16384) && validCluster (c / 16)

/-- A queue of a core that exists (R44). -/
def validQueue (q : Nat) : Bool := validCore (q / 32)

/-- An issue names a core and one of its 256 contexts (R85). -/
def Issue.inRange (i : Issue) : Bool := validCore i.core && decide (i.ctx < 256)

/-- The checks of each command's operands. -/
def Instr.wellFormed (c : Instr) : Bool :=
  match c with
  | .heartbeat | .stewardTakeover | .stewardLost | .paceHostTargetWrite .. | .readRsp .. | .writeAck .. | .atomicRsp ..
  | .contextRelease .. | .contextKill .. | .gooseSeedWrite .. | .numericClear .. | .standbyStewardFailed | .windowInsert ..
  | .writePacket .. | .atomicPacket .. | .henHaltWrite .. | .kvAnswer .. | .leaseAcquire ..
  | .leaseRelease .. | .leaseForceRelease .. | .objectAdd .. | .objectWait .. | .objectRead .. | .objectArm .. | .syncRsp ..
  | .syncReset .. | .refetchComplete .. | .rerunTimeout .. | .groupReform | .groupEnable .. | .membershipWindowEnd
  | .membershipRetry | .memberBitmap .. | .lglReqTimeout .. | .paceRequestSend | .bellwetherWindow | .paceTarget ..
  | .applyTick | .gtickEdge | .gtickLoss | .orphanTimeout | .freezePacket .. | .streamBind | .streamUnbind | .holdStateTimer
  | .powerSample .. | .moduleCapWWrite .. | .powerFlagsWrite .. | .thermalCapUpdate | .trayInletCWrite ..
  | .trayFlowLpmWrite .. | .trayStale | .thermalResume .. | .shutdownRecover .. | .thermalFlagsWrite .. | .coldBoot ..
  | .imageLoad .. | .channelInitComplete .. | .defectMapPublish | .fieldReset .. | .towerReset .. | .computeSideReset ..
  | .drain .. | .testQuick .. | .testFull .. | .returnService .. | .coreBypass .. | .coreRestore .. | .dramRowRepair ..
  | .laneRepair .. | .repairStart | .repairTimeout | .functionLevelReset | .hotReset | .pcieLinkDown | .pwrGoodRise
  | .pwrGoodFall | .vin1v8Low | .vauxLoss | .vauxRise | .resetNLow .. | .freeze .. | .thaw .. | .freezeNLow .. | .freezeNHigh
  | .freezeComplete | .captureData .. | .extest .. | .samplePreload .. | .idcode | .capaddr .. | .capdata | .bypass
  | .mbDoorbell | .mbStatusWrite .. | .forwardedRequest .. | .snapshotRead .. | .snapshotDiscard | .registerWrite ..
  | .rwsSaveDone | .flashData .. | .flashErase .. | .flashContent .. | .flashDone .. | .privUnlock .. | .privLock ..
  | .privTimeout | .unlockLockoutEnd | .replayExpiry | .eventMsixSend | .eventPendingWrite .. | .groupEventPendingWrite ..
  | .arpRequest .. | .icmpEcho .. | .ndpSolicitation .. | .dhcpv4Message .. | .sbLinkChange .. | .hostCompletion ..
  | .configRequest .. | .pcieLinkTrained .. => true
  | .mgmtRingSegmentFail segment => decide (segment < 8)
  | .stretchRequest core _ value => validCore core && decide (value ≤ 16)
  | .paceWindow field .. | .rampStep field | .fieldForecast field | .layerDutyWindow field | .fieldCapMwWrite field ..
  | .fieldTurnOn field | .neighbourWaitEnd field | .headerGroupClose field | .turnOnSettled field | .turnOnFail field
  | .fieldTurnOff field | .headerOpen field | .selfTestComplete field .. | .resetOffHold field | .drainEnd field
  | .drainTimeout field => decide (field < 64)
  | .linkPaceWindow tower .. | .hashImbalWindow tower | .hashImbalRepeat tower | .wbSuppressWrite tower ..
  | .wbLogClear tower .. | .attribution tower .. | .towerCapWWrite tower .. | .thermalStep tower .. | .rthEstimate tower
    => decide (tower < 8)
  | .addi i .. | .andi i .. | .ori i .. | .xori i .. | .slti i .. | .sltiu i .. | .slli i .. | .srli i .. | .srai i ..
  | .lui i .. | .shlor i .. | .add i .. | .sub i .. | .and i .. | .or i .. | .xor i .. | .sll i .. | .srl i .. | .sra i ..
  | .slt i .. | .sltu i .. | .min i .. | .max i .. | .minu i .. | .maxu i .. | .mul i .. | .mulh i .. | .mulhu i ..
  | .div i .. | .divu i .. | .rem i .. | .remu i .. | .clz i .. | .ctz i .. | .popc i .. | .fadd i .. | .fsub i ..
  | .fmul i .. | .fmin i .. | .fmax i .. | .flt i .. | .fle i .. | .feq i .. | .fabs i .. | .fneg i .. | .cvt i ..
  | .beq i .. | .bne i .. | .blt i .. | .bge i .. | .bltu i .. | .bgeu i .. | .jal i .. | .jalr i .. | .lbL i .. | .lbuL i ..
  | .lhL i .. | .lhuL i .. | .lwL i .. | .lwuL i .. | .ldL i .. | .lbG i .. | .lbuG i .. | .lhG i .. | .lhuG i .. | .lwG i ..
  | .lwuG i .. | .ldG i .. | .sbL i .. | .shL i .. | .swL i .. | .sdL i .. | .sbG i .. | .shG i .. | .swG i .. | .sdG i ..
  | .amoLAdd i .. | .amoLAnd i .. | .amoLOr i .. | .amoLXor i .. | .amoLSwap i .. | .amoLCas i .. | .amoLMin i ..
  | .amoLMax i .. | .amoLMinu i .. | .amoLMaxu i .. | .amoGAdd i .. | .amoGAnd i .. | .amoGOr i .. | .amoGXor i ..
  | .amoGSwap i .. | .amoGCas i .. | .amoGMin i .. | .amoGMax i .. | .amoGMinu i .. | .amoGMaxu i .. | .dma i .. | .tile i ..
  | .vadd i .. | .vsub i .. | .vmul i .. | .vfma i .. | .vmax i .. | .vmin i .. | .vabs i .. | .vneg i .. | .vscale i ..
  | .vaxpy i .. | .vexp i .. | .vrecip i .. | .vrsqrt i .. | .vtanh i .. | .vsum i .. | .vmaxr i .. | .vdot i ..
  | .vsoftmax i .. | .vcmplt i .. | .vsel i .. | .vcvt i .. | .vwupd i .. | .vcopy i .. | .vfill i .. | .syncAdd i ..
  | .syncWait i .. | .syncRead i .. | .syncArm i .. | .quePush i .. | .queExit i .. | .waitc i .. | .fence i .. | .csrr i ..
  | .csrw i .. | .brk i .. => i.inRange
  | .waitUnitRelease core ctx | .taskComplete core ctx => validCore core && decide (ctx < 256)
  | .vectorOpStart core | .vectorOpComplete core | .dispatcherTake core | .henSeq core | .kvAppend core ..
  | .multicast core .. | .multicastComplete core | .reduce core .. | .copy core .. | .skew core .. | .fill core ..
  | .gather core .. | .dmaComplete core | .scrub core => validCore core
  | .readPacket read => read.flips.all fun f => decide (f.1 < 64)
  | .tileHoldEnd core array | .tileStart core array | .tilePassEnd core array .. | .tileOperandFail core array
  | .gooseRecompute core array | .gooseWaitExpiry core array => validCore core && decide (array < 4)
  | .doorbell queue .. | .resetIndices queue | .flush queue | .queueAged queue => validQueue queue
  | .qcbWrite queue word .. => validQueue queue && decide (word < 8)
  | .commandChoose channel | .dramReadData channel .. | .vload channel | .dot channel | .kvscore channel | .kvmix channel
  | .chainsum channel | .rowscale channel | .rowaxpy channel | .rowgather channel | .henSegmentEnd channel
  | .chainHop channel | .delivery channel | .throttledTimeout channel | .kvAppendComplete channel | .kvAnswerTimeout channel
  | .scrubComplete channel | .laneSuspectWindow channel | .captureIdleExpiry channel => validCore channel
  | .hashKeyWrite entry .. => (decide (1 ≤ entry) && decide (entry ≤ 9))
  | .refreshOwed field layer => decide (field < 64) && decide (layer < 16)
  | .flitForward router output _ => validCluster router && decide (output < 6)
  | .redPartial lease router => decide (lease < 2048) && validCluster router
  | .fallbackMerge lease | .redDone lease .. | .roundTimeout lease => decide (lease < 2048)
  | .release cluster object .. => validCluster cluster && decide (object < 1024)
  | .sramRerunStart cluster .. => validCluster cluster
  | .membership device | .memberTimeout device | .paceRequest device .. | .notify device .. => decide (device < 64)
  | .portTrained port | .lglDataFrame port .. | .lglIdleFrame port .. | .ackReport port .. | .lglReplayTimer port
  | .lglRetrain port .. => decide (port < 12)
  | .identityFrame port device _ peer => decide (port < 12) && decide (device < 64) && decide (peer < 64)
  | .groupLease number bytes .. => decide (number < 32) && decide (bytes.length = 16)
  | .groupMerge number .. => decide (number < 32)
  | .laneLock link | .linkDeskewed link | .declare link .. | .hreqSwitch link | .laneLockLoss link ..
  | .linkEnableWrite link .. | .dataFrame link .. | .slotWriteComplete link | .pushRetry link | .verdict link
  | .deadlineExpiry link => decide (link < 8)
  | .phaseFailure tower phase .. | .currentLimitEntry tower phase => decide (tower < 8) && decide (phase < 122)
  | .fieldWave wave => decide (wave < 8)
  | .jopDatagram _ port .. => decide (port < 65536)
  | .eventNoticeSend target => decide (target < 4)
  | .groupDoorbell device queue .. => decide (device < 64) && validQueue queue
  | .hostRead bar .. | .hostWrite bar .. | .hostAtomic bar .. => ((bar == 0) || (bar == 2) || (bar == 4))
  | .winWrite window .. => decide (window < 64)

end Sys2Proof
end

