-- ==== Sys2Proof/Tests/Slice0.lean ====
section
/-! SUPPORT. The model's own tests, each expected value from the spec or from a public check value, and the witnesses: for every
statement with hypotheses, named states and operands that meet the hypotheses of each of its clauses together. -/
open Sys2Proof Sys2Proof.Machine
namespace Sys2Proof.Machine

/-! The terms of the statements' hypotheses as Bools, each with the lemma that gives the term. -/

def State.lineOkB (s : State) (line : Nat) (who : Agent) : Bool :=
  s.crcOk line && !(s.mem.recoveries.any fun r => r.line == line && r.reader == who)
theorem State.lineOkB_sound {s : State} {line : Nat} {who : Agent} (h : s.lineOkB line who = true) : s.LineOk line who := by
  simpa [lineOkB, LineOk] using h
def State.performsB (s : State) (i : Issue) (w : Word32) : Bool :=
  s.selects i && s.fetchGranted i && !(s.ctx i.core i.ctx).pcBeyond &&
    s.lineOkB (storeAddr i.core (s.ctx i.core i.ctx).pc.toNat / 64) (.fetch i.core i.ctx) && assignedWord (s.wordAt i) &&
    sameWord (s.wordAt i) w
theorem State.performsB_sound {s : State} {i : Issue} {w : Word32} (h : s.performsB i w = true) : s.Performs i w := by
  simp only [performsB, Bool.and_eq_true, Bool.not_eq_true'] at h
  obtain ⟨⟨⟨⟨⟨a, g⟩, b⟩, c⟩, d⟩, e⟩ := h
  exact ⟨a, g, b, lineOkB_sound c, d, e⟩
def State.bankGrantedB (s : State) (i : Issue) (a : Word) : Bool :=
  ((s.account i (s.wordAt i)).bank i.core (storeBank a.toNat)).wins 0 s.now
theorem State.bankGrantedB_iff {s : State} {i : Issue} {a : Word} : s.bankGrantedB i a = true ↔ s.BankGranted i a := Iff.rfl
def State.localOkB (s : State) (i : Issue) (a : Word) (n : Nat) : Bool :=
  decide (a.toNat % n = 0) && decide (a.toNat + n ≤ 0x40000) && s.bankGrantedB i a &&
    s.lineOkB (storeAddr i.core a.toNat / 64) (.thread i.core i.ctx)
theorem State.localOkB_sound {s : State} {i : Issue} {a : Word} {n : Nat} (h : s.localOkB i a n = true) : s.LocalOk i a n := by
  simp only [localOkB, Bool.and_eq_true, decide_eq_true_eq] at h
  obtain ⟨⟨⟨a, b⟩, c⟩, d⟩ := h
  exact ⟨a, b, c, lineOkB_sound d⟩
def State.descriptorGrantedB (s : State) (i : Issue) (a : Word) : Bool :=
  ((s.account i (s.wordAt i)).takeBanks i.core 0 [a.toNat, a.toNat + 63]).1
theorem State.descriptorGrantedB_iff {s : State} {i : Issue} {a : Word} : s.descriptorGrantedB i a = true ↔ s.DescriptorGranted i a :=
  Iff.rfl
def State.descriptorOkB (s : State) (i : Issue) (a : Word) : Bool :=
  decide (a.toNat + 64 ≤ 0x40000) && s.descriptorGrantedB i a && s.lineOkB (storeAddr i.core a.toNat / 64) (.thread i.core i.ctx) &&
    (decide (a.toNat % 64 = 0) || s.lineOkB (storeAddr i.core (a.toNat + 63) / 64) (.thread i.core i.ctx))
theorem State.descriptorOkB_sound {s : State} {i : Issue} {a : Word} (h : s.descriptorOkB i a = true) : s.DescriptorOk i a := by
  simp only [descriptorOkB, Bool.and_eq_true, Bool.or_eq_true, decide_eq_true_eq] at h
  obtain ⟨⟨⟨a, g⟩, b⟩, c⟩ := h
  exact ⟨a, g, lineOkB_sound b, c.imp_right lineOkB_sound⟩
def State.settledB (t : State) (who : Agent) : Bool := t.reqs.all fun r => r.src != .unit who || !t.underWay r
theorem State.settledB_sound {t : State} {who : Agent} (h : t.settledB who = true) : t.Settled who := by
  simp only [settledB, List.all_eq_true, Bool.or_eq_true, bne_iff_ne, Bool.not_eq_true'] at h
  exact fun r hr he => (h r hr).resolve_left (not_not_intro he)
def State.awaitsB (t : State) (whos : List Agent) : Bool :=
  (t.reqs.any fun r => whos.any fun w => r.src == .unit w && t.underWay r) &&
    t.reqs.all fun r => whos.all fun w => r.src != .unit w || r.bankPlace == none
theorem State.awaitsB_sound {t : State} {whos : List Agent} (h : t.awaitsB whos = true) : t.Awaits whos := by
  simp only [awaitsB, Bool.and_eq_true, List.any_eq_true, List.all_eq_true, Bool.or_eq_true, bne_iff_ne, beq_iff_eq] at h
  exact ⟨h.1, fun r hr w hw he => (h.2 r hr w hw).resolve_left (not_not_intro he)⟩
def State.tileSettledB (t : State) (core a : Nat) : Bool := t.settledB (.array core a) && t.settledB (.held core a)
theorem State.tileSettledB_sound {t : State} {core a : Nat} (h : t.tileSettledB core a = true) : t.TileSettled core a := by
  simp only [tileSettledB, Bool.and_eq_true] at h
  exact ⟨settledB_sound h.1, settledB_sound h.2⟩

end Sys2Proof.Machine

namespace Sys2Proof.Tests

set_option Elab.async false

def nextOf (s : Sys2Proof.Machine.State) (o : Host.Outcome Sys2Proof.Machine.State Fault Refusal) : Sys2Proof.Machine.State :=
  match o with
  | .next t => t
  | _ => s
def ctx0 (regs : List Word) : Sys2Proof.Machine.Ctx :=
  { state := .ready, regs := (List.range regs.length).map fun i => (i + 1, regs.getD i 0), nextBeat := 0 }
/-- A running module whose context 0 of core 0 is the one given, with something in every list that a statement could lose. -/
def wcx (c : Sys2Proof.Machine.Ctx) : Sys2Proof.Machine.State :=
  { Sys2Proof.Machine.State.reset with
    dm := { published := true }
    out := [.jtag 5, .jtag 6]
    pending := [.heartbeat]
    fresh := 100
    faultLog := [(60, 9)]
    fields := [(0, { rail := .powered })]
    cores := [(0, { ctxs := [(0, c), (200, { pc := 8 })] }), (17, { beats := 3 })]
    regs := [(0xB010 * 256 + 1, 41), (0xB010 * 256 + 2, 42)]
    queues := [(99, { enable := true })] }
def w0 (regs : List Word) : Sys2Proof.Machine.State := wcx (ctx0 regs)
def i0 : Issue := ⟨0, 0, 5⟩
def words (ws : List Word) : List Byte := ws.flatMap fun w => natToBytes 8 w.toNat
def put (s : Sys2Proof.Machine.State) (a : Nat) (bs : List Byte) : Sys2Proof.Machine.State := { s with mem := { s.mem with cells := storeBytes s.mem.cells a bs } }
def tws : List Word := [1 <<< 56 ||| 1 <<< 52 ||| 1 <<< 23 ||| 1 <<< 18 ||| 32 <<< 5, 0x1000, 0, 0x3000, 0, 0x4000, 0, 0]
abbrev S := Sys2Proof.Machine.State
def gsx (g : Group) (l : List (Nat × Nat × Nat)) : S :=
  l.foldl (fun s (a, b, c) => s.setReg a b c)
    { w0 [1] with
      group := g
      now := 200000000
      reqs := [{ id := 9, src := .thread 0 0 0, kind := .read 8, addr := 5 * 2^48, loc := 0 }] }
def nx (s : S) (c : Instr) : S := nextOf s (exec c s)
def clean (s : S) (l n : Nat) : S := (List.range n).foldl (fun s i => s.setCheck (l + i) 0) s
def dd (ws : List Word) : DmaDesc := { id := 5, words := ws, target := .counter 0 0 1 }
def wd (s : S) (w : Word32) : S := put s (storeAddr 0 0) (natToBytes 4 w.toNat)
/-- Every request answered with what memory holds. -/
def served (s : S) : S :=
  { s with
    packets := []
    reqs := s.reqs.map fun r =>
      { r with
        stage := .done
        data := match r.kind with
          | .read n => s.bytes r.loc n
          | _ => [] } }
/-- An issue counted, and one that has read a descriptor. -/
def acc (s : S) (i : Issue) : S := s.account i (s.wordAt i)
def accD (s : S) (i : Issue) (a : Word) : S :=
  ((acc s i).takeBanks i.core 0 [a.toNat, a.toNat + 63]).2.charge i.core (s.ctx i.core i.ctx).taskQueue.toNat 4 1

/-! Instructions: results that the spec states word for word, each after one command. -/

def s1 : S := w0 [0x100, 0xFFFFFFFFFFFFFFFF, 0x8000000000000000, 0x7F, 5]
/-- Register x9 after an instruction issued at context 0 of core 0, whose word stands at PC. -/
def x9 (w : Word32) (s : S) (c : Instr) : Word := ((nx (wd s w) c).ctx 0 0).x 9
def st0 (w : Word32) (s : S) (c : Instr) : Sys2Proof.Machine.Ctx := (nx (wd s w) c).ctx 0 0

-- R98: ADDI sign-extends its immediate, ANDI does not.
theorem test_addi_sign_extends : x9 (wordI 0x02 9 1 0xFFFF) s1 (.addi i0 9 1 0xFFFF) = 0xFF := by decide +kernel
theorem test_andi_zero_extends : x9 (wordI 0x03 9 2 0xFFFF) s1 (.andi i0 9 2 0xFFFF) = 0xFFFF := by decide +kernel
theorem test_srai_keeps_sign : x9 (wordI 0x0A 9 3 63) s1 (.srai i0 9 3 63) = 0xFFFFFFFFFFFFFFFF := by decide +kernel
theorem test_lui_sign_extends : x9 (wordU 0x0B 9 0x100000) s1 (.lui i0 9 0x100000) = 0xFFFFFFF000000000 := by decide +kernel
-- R85: a result for x0 is discarded.
theorem test_x0_discards : (st0 (wordI 0x02 0 1 7) s1 (.addi i0 0 1 7)).x 0 = 0 ∧
    (st0 (wordI 0x02 0 1 7) s1 (.addi i0 0 1 7)).pc = 4 := by decide +kernel
-- R100: the corners of division.
theorem test_div_by_zero : x9 (wordR 0x01 9 1 0 0x14) s1 (.div i0 9 1 0) = 0xFFFFFFFFFFFFFFFF ∧
    x9 (wordR 0x01 9 1 0 0x17) s1 (.remu i0 9 1 0) = 0x100 := by decide +kernel
theorem test_div_overflow : x9 (wordR 0x01 9 3 2 0x14) s1 (.div i0 9 3 2) = 0x8000000000000000 ∧
    x9 (wordR 0x01 9 3 2 0x16) s1 (.rem i0 9 3 2) = 0 := by decide +kernel
theorem test_slt_signed : x9 (wordR 0x01 9 2 1 0x08) s1 (.slt i0 9 2 1) = 1 ∧
    x9 (wordR 0x01 9 2 1 0x09) s1 (.sltu i0 9 2 1) = 0 := by decide +kernel
-- R102: JAL links PC + 4 and counts its offset in words; a branch backward.
theorem test_jal : x9 (wordU 0x16 9 3) s1 (.jal i0 9 3) = 4 ∧ (st0 (wordU 0x16 9 3) s1 (.jal i0 9 3)).pc = 12 := by decide +kernel
theorem test_beq_taken : (st0 (wordB 0x10 1 1 4) s1 (.beq i0 1 1 4)).pc = 16 ∧
    (st0 (wordB 0x10 1 2 4) s1 (.beq i0 1 2 4)).pc = 4 := by decide +kernel
-- R101: FLT of a NaN writes 0, FMIN returns the operand that is a number.
theorem test_float_nan :
    (let s : S := w0 [0x7FC00000, 0x3F800000]
     x9 (wordR 0x0D 9 1 2 5) s (.flt i0 9 1 2) = 0 ∧ x9 (wordR 0x0D 9 1 2 3) s (.fmin i0 9 1 2) = 0x3F800000 ∧
        x9 (wordR 0x0D 9 1 2 8) s (.fabs i0 9 1 2) = 0x7FC00000) := by decide +kernel
theorem test_fadd_rounds_to_even : x9 (wordR 0x0D 9 1 2 0) (w0 [0x4B800000,
    0x3F800000]) (.fadd i0 9 1 2) = 0x4B800000 := by decide +kernel
-- R107: a byte is sign-extended; R104, R131: a misaligned access faults.
theorem test_lb_signed : x9 (wordI 0x20 9 1 0) (put s1 (storeAddr 0 0x100) [0x80]) (.lbL i0 9 1 0) = 0xFFFFFFFFFFFFFF80 := by decide +kernel
theorem test_sd_at_the_top :
    (let s : S := wd (w0 [0x3FFF8, 0x1122334455667788]) (wordI 0x2B 2 1 0)
     (nextOf s (exec (.sdL i0 2 1 0) s)).byte (storeAddr 0 0x3FFFF) = 0x11) := by decide +kernel
theorem test_misaligned_faults : (st0 (wordI 0x24 9 1 2) s1 (.lwL i0 9 1 2)).ending = .fault 0x08 ∧
    (st0 (wordI 0x24 9 1 4) s1 (.lwL i0 9 1 4)).state = .ready := by
  decide +kernel
-- R110: compare and swap compares with XD, stores XB and returns the old value.
theorem test_amo_cas :
    (let s : S := wd (put (w0 [0x100, 7, 9]) (storeAddr 0 0x100) [7]) (wordR 0x27 2 1 3 5)
     let t := nextOf s (exec (.amoLCas i0 2 1 3) s)
     (t.ctx 0 0).x 2 = 7 ∧ t.byte (storeAddr 0 0x100) = 9) := by decide +kernel
-- R94 to R96: a word that is not assigned is illegal; x9 + 1 spelled out bit by bit: OP 000010, XD 01001, XA 00001, IMM 1.
theorem test_unassigned_is_illegal : (st0 0 s1 (.addi i0 9 1 1)).ending = .fault 0x08 := by decide +kernel
theorem test_addi_word : wordI 0x02 9 1 1 = 0b000010_01001_00001_0000000000000001 := by decide +kernel
-- R704: the CRC-32 of IEEE 802.3, whose check value of "123456789" is known; R449: the CRC-16 with 0x1021 from 0xFFFF.
theorem test_crc32 : crc32 [0x31, 0x32, 0x33, 0x34, 0x35, 0x36, 0x37, 0x38, 0x39] = 0xCBF43926 := by decide +kernel
theorem test_crc16 : crc16 [0x31, 0x32, 0x33, 0x34, 0x35, 0x36, 0x37, 0x38, 0x39] = 0x29B1 := by decide +kernel
-- Chapter 9: T0 to T7 crosses bridges 0, 5, 7 and 9.
theorem test_bridge_route : bridgeRoute 0 7 = [0, 5, 7, 9] := by decide +kernel
-- An idle step counts one cycle; no word spells a command, since the table gives no row any bits.
theorem test_idle_counts : (nextOf s1 (step { s1 with pending := [] })).now = s1.now + 1 := by decide +kernel
theorem test_no_word_is_a_command : decodeTableWord 32 0x12345678 = none := by decide


/-! Well-formedness: for each check a term that it refuses, and the nearest that it takes. -/

theorem test_wellFormed_cores : ([.stretchRequest 80 0 0, .vectorOpStart 16384, .doorbell (80 * 512) 8 0 0, .commandChoose 1280,
    .addi ⟨1280, 0, 0⟩ 1 1 0, .waitUnitRelease 1280 0, .tileHoldEnd 1280 0, .qcbWrite (1280 * 32) 0 0 true true,
    .stretchRequest 1280 0 0].map Instr.wellFormed) = [true, false, false, false, false, false, false, false, false] ∧
    (Instr.stretchRequest 1279 0 16).wellFormed = true := by decide +kernel
theorem test_wellFormed_contexts : ([.addi ⟨0, 255, 0⟩ 1 1 0, .addi ⟨0, 256, 0⟩ 1 1 0, .waitUnitRelease 0 256,
    .taskComplete 0 256]
    : List Instr).map Instr.wellFormed = [true, false, false, false] := by decide +kernel
theorem test_wellFormed_fields : ([.paceWindow 63 0, .paceWindow 64 0, .refreshOwed 64 0, .refreshOwed 0 16, .refreshOwed 63 15,
    .fieldWave 8] : List Instr).map Instr.wellFormed = [true, false, false, false, true, false] := by decide +kernel
theorem test_wellFormed_towers : ([.linkPaceWindow 7 0, .linkPaceWindow 8 0, .mgmtRingSegmentFail 8, .phaseFailure 8 0 1,
    .phaseFailure 0 122 1, .phaseFailure 7 121 1, .laneLock 8, .laneLock 7] : List Instr).map Instr.wellFormed =
    [true, false, false, false, false, true, false, true] := by decide +kernel
theorem test_wellFormed_ranges : ([.stretchRequest 0 0 17, .tileHoldEnd 0 4, .qcbWrite 0 8 0 true true, .hashKeyWrite 0 0,
    .hashKeyWrite 10 0, .hashKeyWrite 9 0, .eventNoticeSend 4, .winWrite 64 0, .jopDatagram 0 65536 0 [], .hostRead 1 0 8 0,
    .hostWrite 3 0 [], .hostAtomic 5 0 8 .add 0 0 0, .hostRead 4 0 8 0] : List Instr).map Instr.wellFormed =
    [false, false, false, false, false, true, false, false, false, false, false, false, true] := by decide +kernel
theorem test_wellFormed_packages : ([.flitForward 80 0 1, .flitForward 0 6 1, .flitForward 79 5 1, .redPartial 2048 0,
    .redPartial 0 80, .fallbackMerge 2048, .release 80 0 none, .release 0 1024 none, .sramRerunStart 80 0] : List Instr).map
    Instr.wellFormed = [false, false, true, false, false, false, false, false, false] := by decide +kernel
theorem test_wellFormed_groups : ([.membership 64, .portTrained 12, .identityFrame 12 0 0 0, .identityFrame 0 64 0 0,
    .identityFrame 0 0 0 64, .groupLease 32 (List.replicate 16 0) true 0, .groupLease 0 [0] true 0,
    .groupLease 31 (List.replicate 16 0) true 0, .groupMerge 32 [], .groupDoorbell 64 0 8 0 0, .groupDoorbell 0 (80 * 512) 8 0 0]
    : List Instr).map Instr.wellFormed = [false, false, false, false, false, false, false, true, false, false, false] := by
  decide +kernel

/-! Instructions: every word of the forms of one shape, placed at PC. -/

def s0 : S := w0 [0x100, 0x101, 0x88]
/-- Whether each of the words is performed at context 0 of core 0 in a state, and the state meets a condition. -/
def allPerform (s : S) (ws : List Word32) (p : S → Bool := fun _ => true) : Bool :=
  ws.all fun w => (wd s w).performsB i0 w && p (wd s w)
def rWords (op : Nat) (fns : List Nat) : List Word32 := fns.map fun k => wordR op 1 1 2 (BitVec.ofNat 11 k)
def iWords (ops : List Nat) (m : BitVec 16) : List Word32 := ops.map fun k => wordI k 2 1 m

theorem witness_IntegerImmediateForms :
    allPerform s0 (iWords [2, 3, 4, 5, 6, 7, 8, 9, 10, 12] 0x8005 ++ [wordU 0x0B 1 0x1FFFF0]) = true := by decide +kernel
theorem witness_IntegerRegisterForms : allPerform s0 (rWords 1 (List.range 14)) = true := by decide +kernel
theorem witness_MultiplyDivideAndCountForms :
    allPerform s0 (rWords 1 [16, 17, 18, 20, 21, 22, 23, 24, 25, 26]) = true := by decide +kernel
def bWords (a b : Reg) : List Word32 := [0x10, 0x11, 0x12, 0x13, 0x14, 0x15].map fun k => wordB k a b 0xFFFF
theorem witness_BranchesAndJumps_taken :
    (allPerform s0 (bWords 1 2) (fun s => let c := s.at_ i0
      decide ((c.x 1) ≠ (c.x 2) ∧ (c.x 1).toInt < (c.x 2).toInt ∧ (c.x 1).toNat < (c.x 2).toNat)) &&
     allPerform s0 (bWords 1 1) (fun s => let c := s.at_ i0
      decide (c.x 1 = c.x 1 ∧ (c.x 1).toInt ≤ (c.x 1).toInt ∧ (c.x 1).toNat ≤ (c.x 1).toNat)) &&
     allPerform s0 [wordU 0x16 1 0x1FFFFF, wordI 0x17 1 1 4] (fun s => ((s.at_ i0).x 1 + 4).toNat % 4 == 0)) = true := by
  decide +kernel
theorem witness_BranchesAndJumps_notTaken :
    (allPerform s0 (bWords 2 1) (fun s => let c := s.at_ i0
      decide (¬ c.x 2 = c.x 1 ∧ ¬ (c.x 2).toInt < (c.x 1).toInt ∧ ¬ (c.x 2).toNat < (c.x 1).toNat)) &&
     allPerform s0 (bWords 1 2) (fun s => let c := s.at_ i0
      decide (¬ (c.x 2).toInt ≤ (c.x 1).toInt ∧ ¬ (c.x 2).toNat ≤ (c.x 1).toNat)) &&
     allPerform s0 [wordI 0x17 1 2 4] (fun s => ((s.at_ i0).x 2 + 4).toNat % 4 != 0)) = true := by decide +kernel
theorem witness_ScalarFloatForms :
    (allPerform s0 (rWords 0x0D (List.range 10)) && allPerform s0 [wordR 0x0E 1 1 0 0x1FF, wordR 0x0E 1 1 0 0]) = true ∧
    ([0x1FF, 0] : List (BitVec 11)).map (fun (fn : BitVec 11) => cvtFormat (Fmt.ofCode ((fn >>> 2).truncate 4)) &&
      cvtFormat (Fmt.ofCode ((fn >>> 6).truncate 4))) = [false, true] := by decide +kernel

/-! Accesses to the core store, whose bank is free, is at its last beat of another requester, or of a line at the top. -/

def sBank : S := { s0 with cores := [(0, { ctxs := [(0, ctx0 [0x100])], banks := [(4, { servedAt := 1, served := 3 })] })] }
def sTop : S := w0 [0x3FFF0, 0x101, 0x88]
theorem witness_LocalLoads :
    ([(s0, 8), (sTop, 8)].all fun (s, m) => allPerform s (iWords [0x20, 0x21, 0x22, 0x23, 0x24, 0x25, 0x26] m) fun s =>
      [1, 2, 4, 8].all (s.localOkB i0 ((s.at_ i0).x 1 + m.signExtend 64))) = true ∧
    allPerform sBank (iWords [0x20, 0x21, 0x22, 0x23, 0x24, 0x25, 0x26] 8) (fun s => let a := (s.at_ i0).x 1 + 8
      decide (a.toNat % 8 = 0 ∧ a.toNat + 8 ≤ 0x40000) && !s.bankGrantedB i0 a) = true := by decide +kernel
theorem witness_LocalStores :
    ([(s0, 8), (sTop, 8)].all fun (s, m) => allPerform s (iWords [0x28, 0x29, 0x2A, 0x2B] m) fun s =>
      let a := (s.at_ i0).x 1 + m.signExtend 64
      decide (a.toNat % 8 = 0 ∧ a.toNat + 8 ≤ 0x40000) && s.bankGrantedB i0 a) = true := by decide +kernel
theorem witness_LocalAtomics : allPerform s0 (rWords 0x27 (List.range 10)) (fun s => s.localOkB i0 ((s.at_ i0).x 1) 8) = true := by
  decide +kernel
theorem witness_GlobalLoadsAndStores :
    allPerform s0 (iWords [0x18, 0x19, 0x1A, 0x1B, 0x1C, 0x1D, 0x1E, 0x2C, 0x2D, 0x2E, 0x2F] 8) (fun s =>
      let a := (s.at_ i0).x 1 + 8
      decide (a.toNat % 8 = 0) && s.mappedAddr a) = true := by decide +kernel
theorem witness_GlobalAtomics : allPerform s0 (rWords 0x1F (List.range 10)) (fun s =>
    decide (((s.at_ i0).x 1).toNat % 8 = 0) && s.mappedAddr ((s.at_ i0).x 1)) = true := by decide +kernel

/-! The vector unit's commands: with room, and with the counter full. -/

def vecOps : List (VOp × Reg × Reg × Reg) := [(.vadd, 1, 2, 0), (.vsub, 1, 2, 0), (.vmul, 1, 2, 0), (.vfma, 1, 2, 3), (.vmax,
    1, 2, 0),
  (.vmin, 1, 2, 0), (.vabs, 1, 0, 0), (.vneg, 1, 0, 0), (.vscale, 1, 2, 0), (.vaxpy, 1, 2, 3), (.vexp, 1, 0, 0), (.vrecip, 1, 0, 0),
  (.vrsqrt, 1, 0, 0), (.vtanh, 1, 0, 0), (.vsum, 1, 0, 0), (.vmaxr, 1, 0, 0), (.vdot, 1, 2, 0), (.vsoftmax, 1, 0, 0),
  (.vcmplt, 1, 2, 0), (.vsel, 1, 2, 3), (.vcvt, 1, 0, 0), (.vwupd, 1, 2, 3), (.vcopy, 1, 0, 0), (.vfill, 0, 2, 0)]
def vecWords : List Word32 := vecOps.map fun (op, a, b, c) => wordV 0x32 1 a b c op.code
def sFull : S := s0.updCtx 0 0 fun c => c.setCounter 0 63
theorem witness_VectorCommands :
    allPerform s0 vecWords (fun s => let c := s.at_ i0
      decide (c.counter ((c.vcfg >>> 25).truncate 2) ≠ 63 ∧ (s.core 0).vec.length < 8)) = true ∧
    allPerform sFull vecWords (fun s => let c := s.at_ i0
      decide (c.counter ((c.vcfg >>> 25).truncate 2) = 63)) = true := by decide +kernel

/-! Device links: a frame that a port builds is good. -/

theorem bytesToNat_four (c : BitVec 32) (bs : List Byte) : bytesToNat (natToBytes 4 c.toNat ++
    bs) = c.toNat + 2 ^ 32 * bytesToNat bs := by
  have h := c.isLt
  simp [bytesToNat, natToBytes]
  omega

theorem length_natToBytes : ∀ (n v : Nat), (natToBytes n v).length = n
  | 0, _ => rfl
  | n + 1, v => by simp [natToBytes, length_natToBytes n]

theorem fieldAt_header (c : BitVec 32) (b : List Byte) :
    fieldAt (natToBytes 4 c.toNat ++ b) 0 16 = c.toNat + 2 ^ 32 * bytesToNat (b.take 12) := by
  have : (natToBytes 4 c.toNat ++ b).take 16 = natToBytes 4 c.toNat ++ b.take 12 := by simp [natToBytes]
  rw [fieldAt, List.drop_zero, this, bytesToNat_four]

theorem headerBits_above (c : BitVec 32) (b : List Byte) (hi lo : Nat) (h : 32 ≤ lo) (h' : lo ≤ hi) :
    headerBits (natToBytes 4 c.toNat ++ b) hi lo = bitsOf (bytesToNat (b.take 12)) (hi - 32) (lo - 32) := by
  have hc := c.isLt
  obtain ⟨k, rfl⟩ : ∃ k, lo = 32 + k := ⟨lo - 32, by omega⟩
  rw [headerBits, fieldAt_header]
  simp only [bitsOf]
  rw [Nat.pow_add, ← Nat.div_div_eq_div_mul, Nat.add_mul_div_left _ _ (by decide), Nat.div_eq_of_lt hc]
  simp
  congr 2
  omega

def body (t seq : Nat) : List Byte := (natToBytes 16 (t * 2 ^ 120 + seq * 2 ^ 108 + 4095 * 2 ^ 96)).drop 4 ++ List.replicate 320 0

theorem frame_eq (t seq : Nat) : LglPort.frame {} t seq [] [] = natToBytes 4 (crc32 (body t seq)).toNat ++ body t seq := by
  simp only [LglPort.frame, body, List.flatMap_nil, List.length_nil]
  generalize List.replicate 320 (0 : Byte) = z
  simp [frameBytes, LglPort.header]

theorem body_header : ∀ t ∈ [1, 2], ∀ seq ∈ [0, 4095],
    (let h := bytesToNat ((body t seq).take 12)
     bitsOf h 95 88 = t ∧ bitsOf h 87 76 = seq ∧ (∀ i ∈ [0, 1, 2, 3], bitsOf h (91 + i - 32) (91 + i - 32) = 0) ∧
     bitsOf h 38 34 = 0 ∧ bitsOf h 25 21 = 0) := by decide +kernel

theorem witness_DeviceLinkPorts_good (t : Nat) (ht : t ∈ [1, 2]) (seq : Nat) (hs : seq ∈ [0, 4095]) :
    frameGood (LglPort.frame {} t seq [] []) = true ∧ headerBits (LglPort.frame {} t seq [] []) 127 120 = t ∧
      headerBits (LglPort.frame {} t seq [] []) 119 108 = seq ∧ frameSlots (LglPort.frame {} t seq [] []) = [] := by
  obtain ⟨h1, h2, h3, h4, h5⟩ := body_header t ht seq hs
  have hb : (natToBytes 4 (crc32 (body t seq)).toNat ++ body t seq).drop 4 = body t seq := rfl
  have hn : (natToBytes 4 (crc32 (body t seq)).toNat ++ body t seq).length = 336 := by
    simp [length_natToBytes, body, -List.reduceReplicate]
  have hf : fieldAt (natToBytes 4 (crc32 (body t seq)).toNat ++ body t seq) 0 4 = (crc32 (body t seq)).toNat := by
    have : (natToBytes 4 (crc32 (body t seq)).toNat ++ body t seq).take 4 = natToBytes 4 (crc32 (body t seq)).toNat ++ [] := rfl
    rw [fieldAt, List.drop_zero, this, bytesToNat_four]
    simp [bytesToNat]
  have hz : frameSlots (LglPort.frame {} t seq [] []) = [] := by
    rw [frame_eq, frameSlots]
    simp only [List.filterMap_eq_nil_iff, List.mem_range]
    intro i hi
    rw [headerBits_above _ _ _ _ (by omega) (by omega), if_neg]
    have := h3 i (by simp; omega)
    omega
  refine ⟨?_, ?_, ?_, hz⟩
  · rw [frameGood, hz, frame_eq, hb, hn, hf, headerBits_above _ _ _ _ (by decide) (by decide), headerBits_above _ _ _ _ (by decide) (by decide), h4, h5]
    simp [creditVcValid]
  · rw [frame_eq, headerBits_above _ _ _ _ (by decide) (by decide)]; exact h1
  · rw [frame_eq, headerBits_above _ _ _ _ (by decide) (by decide)]; exact h2

theorem witness_DeviceLinkPorts_bad : frameGood [] = false := by decide +kernel

def gl (k : LglPort) : S := ({ w0 [1] with group := { shape := 1, member := 3, ports := [(2, k)] } } : S).setReg 0x5201 3 2

theorem witness_DeviceLinkPorts_states : ((gl {}).portState 2 = 2 ∧ 0 = ((gl {}).port 2).rxNext ∧
    4095 ≠ ((gl {}).port 2).rxNext) := by decide +kernel

/-! The stream port: deadlines on the reference time, which has an offset of each module. -/

theorem reached_of_now (s t : Sys2Proof.Machine.State) (n : Nat) (d : BitVec 64) (h : s.now = t.now) : s.reached n d = t.reached n d := by
  unfold State.reached State.refTime; rw [h]
theorem reached_now (s : Sys2Proof.Machine.State) (n : Nat) : s.reached n (s.refTime (linkTower n)) = true := by
  simp [State.reached]
theorem reached_later (s : Sys2Proof.Machine.State) (n : Nat) : s.reached n (s.refTime (linkTower n) + 1) = false := by
  simp only [State.reached]
  have : s.refTime (linkTower n) - (s.refTime (linkTower n) + 1) = (-1 : BitVec 64) := by bv_omega
  rw [this]; rfl
/-- The reference time of the first step, which a module's own offset shifts. -/
def time0 : BitVec 64 := (w0 [1]).refTime (linkTower 1)
def frameAt (d : BitVec 64) (st : Status) : Frame :=
  { seq := 3, stream := 9, length := 4, sourceTime := 0, payload := [1, 2, 3, 4], arrival := 0, deadline := d, queue := 3,
    template := [1 <<< 40, 0, 0, 0, 0, 0, 0, 0], fallback := 7, addr := storeAddr 0 0x8000, take := 128, written := true,
    launch := some (3, 0), completed := some st }
def sVerdict (d : BitVec 64) (st : Status) (verdict : Byte) : S :=
  let k : StreamLink := { state := 3, maxFrame := 1024, ringOff := 0x10000, ringBytes := 0x100000, slots := [frameAt d st] }
  put { w0 [1] with stream := { links := [(1, k)] } } (storeAddr 0 0x803F) [verdict]
/-- What VERDICT reads for the frame. -/
def verdictRead (d : BitVec 64) (st : Status) (verdict : Byte) : ReadResult × S :=
  ((sVerdict d st verdict).withTokens 1).readRange ((frameAt d st).addr + 56) 8 .other

theorem verdict_frame (d : BitVec 64) (st : Status) (verdict : Byte) : (sVerdict d st verdict).running = true ∧
    ((sVerdict d st verdict).link 1).slots.find? (fun f => f.completed.isSome && !f.released) = some (frameAt d st) ∧
    (frameAt d st).answered = false := ⟨rfl, rfl, rfl⟩

theorem witness_StreamFramesAndVerdicts_late : (verdictRead time0 0 0x80).2.reached 1 (frameAt time0 0).deadline = true := by
  rw [reached_of_now _ (w0 [1]) _ _ (by decide +kernel)]
  exact reached_now _ _

theorem witness_StreamFramesAndVerdicts_inTime :
    (∀ st ∈ [0, 2], ∀ b ∈ [0x80, 0], (verdictRead (time0 + 1) st b).2.reached 1 (frameAt (time0 + 1) st).deadline = false) ∧
    (let r := (verdictRead (time0 + 1) 0 0x80).1
     r.status = 0 ∧ r.waiting = false ∧ 2 ^ 63 ≤ bytesToNat r.bytes) ∧
    (let r := (verdictRead (time0 + 1) 2 0x80).1
     r.status = 0 ∧ r.waiting = false ∧ 2 ^ 63 ≤ bytesToNat r.bytes ∧ (frameAt (time0 + 1) 2).completed ≠ some 0) ∧
    bytesToNat (verdictRead (time0 + 1) 0 0).1.bytes < 2 ^ 63 := by
  have h : ∀ st ∈ [0, 2], ∀ b ∈ [0x80, 0], (verdictRead (time0 + 1) st b).2.now = (w0 [1]).now := by decide +kernel
  refine ⟨fun st hs b hb => ?_, by decide +kernel, by decide +kernel, by decide +kernel⟩
  rw [reached_of_now _ (w0 [1]) _ _ (h st hs b hb)]
  exact reached_later _ _

theorem witness_StreamFramesAndVerdicts_expiry :
    ((sVerdict time0 0 0x80).link 1).slots.find? (fun f => !f.answered && !f.released &&
        (sVerdict time0 0 0x80).reached 1 f.deadline) =
      some (frameAt time0 0) := by
  have h : (sVerdict time0 0 0x80).reached 1 time0 = true := by
    rw [reached_of_now _ (w0 [1]) _ _ (by decide +kernel)]
    exact reached_now _ _
  have hs : ((sVerdict time0 0 0x80).link 1).slots = [frameAt time0 0] := rfl
  rw [hs, List.find?_cons]
  have hp : (!(frameAt time0 0).answered && !(frameAt time0 0).released &&
      (sVerdict time0 0 0x80).reached 1 (frameAt time0 0).deadline) = true := h
  rw [hp]

/-! Thermal control: RTH_EST is no number, so no ratio exceeds a bound whatever RTH_BASE is. -/

theorem lt_nan (a : Val) : Val.lt a .nan = false := by cases a <;> rfl

def sCool : S :=
  { w0 [1] with
    now := 9000000000, steward := { running := true }
    thermal := { rth := (List.range 8).map fun t => (t, some 0x7FC00000) } }

theorem flowRatio_below (n d : Int) : sCool.flowRatioAbove n d = false := by
  have h : ∀ t ∈ List.range 8, (readF32 (sCool.rthEst t)).1 = .nan := by decide +kernel
  have hf : sCool.flow = none := rfl
  simp only [State.flowRatioAbove, hf, Bool.or_false, List.any_eq_false, State.ratioAbove]
  intro t ht
  rw [h t ht]
  show ¬ Val.lt _ .nan = true
  simp [lt_nan]

theorem witness_SensorsAndCoolant_cap : sCool.steward.running = true ∧ sCool.steward.lost = false ∧
    sCool.thermal.capAt + secCycles 1 ≤ sCool.now ∧ sCool.flowRatioAbove 11 10 = false ∧ sCool.flowRatioAbove 105 100 = false :=
  ⟨rfl, rfl, by decide, flowRatio_below _ _, flowRatio_below _ _⟩

/-! The sideband: the link-local address, whatever the MAC address is; a stream's binding; and memory. -/

theorem linkLocal_bound (m : Nat) (h : m < 2 ^ 48) :
    0xFE80 * 2 ^ 112 + (m / 2 ^ 24 ^^^ 0x20000) * 2 ^ 40 + 0xFFFE * 2 ^ 24 + m % 2 ^ 24 < 2 ^ 128 := by
  have hx : m / 2 ^ 24 ^^^ 0x20000 < 2 ^ 24 := Nat.xor_lt_two_pow (by omega) (by decide)
  omega
def linkForm (m : Nat) : Nat := 0xFE80 * 2 ^ 112 + (m / 2 ^ 24 ^^^ 0x20000) * 2 ^ 40 + 0xFFFE * 2 ^ 24 + m % 2 ^ 24
theorem linkLocal_eq : linkLocal = linkForm Config.sidebandMac.toNat := rfl
theorem linkForm_lt (m : Nat) (h : m < 2 ^ 48) : linkForm m < 2 ^ 128 := linkLocal_bound m h
theorem linkLocal_lt : linkLocal < 2 ^ 128 := by rw [linkLocal_eq]; exact linkForm_lt _ Config.sidebandMac.isLt
theorem witness_DictionaryTimeAndSideband_linkLocal : (BitVec.ofNat 128 linkLocal).toNat = linkLocal := by
  rw [BitVec.toNat_ofNat]
  exact Nat.mod_eq_of_lt linkLocal_lt

theorem witness_MemoryStaysCanonical : State.reset.mem.wf = true ∧ (put (w0 [1]) 5 [0x80]).mem.wf = true ∧
    (put (w0 [1]) 5 [0x80]).mem.cells ≠ [] ∧ ∃ t, step (put (w0 [1]) 5 [0x80]) = .next t :=
  ⟨by decide +kernel, by decide +kernel, by decide +kernel, _, rfl⟩

namespace Case1

theorem witness_AccessChecksFault_1 :
    (let s : State := (wd (w0 [0x101, 0x181]) (wordI 0x26 1 1 2)); let i : Issue := i0; let xd : Reg := 1; let xa : Reg := 1;
      let m : BitVec 16 := 2;
    (let a := (s.at_ i).x xa + m.signExtend 64;
      decide (a.toNat % 8 ≠ 0 ∧ s.performsB i (wordI 0x26 xd xa m)))) = true := by decide +kernel

theorem witness_AccessChecksFault_2 :
    (let s : State := (wd (w0 [0x101, 0x181]) (wordI 0x2B 1 1 2)); let i : Issue := i0; let xd : Reg := 1; let xa : Reg := 1;
      let m : BitVec 16 := 2;
    (let a := (s.at_ i).x xa + m.signExtend 64;
      decide (a.toNat % 8 ≠ 0 ∧ s.performsB i (wordI 0x2B xd xa m)))) = true := by decide +kernel

theorem witness_AccessChecksFault_3 :
    (let s : State := (wd (w0 [0x101, 0x181]) (wordI 0x1E 1 1 2)); let i : Issue := i0; let xd : Reg := 1; let xa : Reg := 1;
      let m : BitVec 16 := 2;
    (let a := (s.at_ i).x xa + m.signExtend 64;
      decide (a.toNat % 8 ≠ 0 ∧ s.performsB i (wordI 0x1E xd xa m)))) = true := by decide +kernel

theorem witness_AccessChecksFault_4 :
    (let s : State := (wd (w0 [0x40000, 0x181]) (wordI 0x26 1 1 0)); let i : Issue := i0; let xd : Reg := 1;
      let xa : Reg := 1; let m : BitVec 16 := 0;
    (let a := (s.at_ i).x xa + m.signExtend 64;
      decide (a.toNat % 8 = 0 ∧ 0x40000 < a.toNat + 8 ∧ s.performsB i (wordI 0x26 xd xa m)))) = true := by decide +kernel

theorem witness_AccessChecksFault_5 :
    (let s : State := (wd (w0 [0x40000, 0x181]) (wordI 0x2B 1 1 0)); let i : Issue := i0; let xd : Reg := 1;
      let xa : Reg := 1; let m : BitVec 16 := 0;
    (let a := (s.at_ i).x xa + m.signExtend 64;
      decide (a.toNat % 8 = 0 ∧ 0x40000 < a.toNat + 8 ∧ s.performsB i (wordI 0x2B xd xa m)))) = true := by decide +kernel

theorem witness_AccessChecksFault_6 :
    (let s : State := (wd (w0 [0x40000000000000, 0x181]) (wordI 0x1E 1 1 0)); let i : Issue := i0; let xd : Reg := 1;
      let xa : Reg := 1; let m : BitVec 16 := 0;
    (let a := (s.at_ i).x xa + m.signExtend 64;
      decide (a.toNat % 8 = 0 ∧ 2 ^ 54 ≤ a.toNat ∧ s.performsB i (wordI 0x1E xd xa m)))) = true := by decide +kernel

theorem witness_AccessChecksFault_7 :
    (let s : State := { wd (w0 [0x101]) 0 with now := 5 };
    (decide (s.faultBatch.at_ ≠ s.now))) = true := by decide +kernel

end Case1

namespace Case2

def dw (ws : List Word) : S := put (w0 [0x100, 0x0]) (storeAddr 0 0x100) (words ws)
def dma1 : S := wd (dw [5 <<< 40, 0x1000, 0x2000, 64, 0, 0, 0, 0]) (wordC 0x30 3 1 0 1 true 0)
def dma2 : S := wd (dw [2 <<< 40, 4 <<< 60 ||| 0x1000, 0x2000, 1 <<< 32 ||| 64, 0x40, 0, 0, 0]) (wordC 0x30 3 1 0 1 false 0)
def dmab : S := { dma1 with cores := dma1.cores.map fun e => (e.1, { e.2 with banks := [(4, { servedAt := 1, served := 3 })] }) }
def full63 (s : S) : S := s.updCtx 0 0 fun c => c.setCounter 1 63
def t1 (ws : List Word) (sub : BitVec 8) : S := wd (put (w0 [0x100, 0x0,
    0x77]) (storeAddr 0 0x100) (words ws)) (wordC 0x31 3 1 2 1 true sub)
def t9 (ws : List Word) (sub : BitVec 8) : S := wd (put (w0 [0x100, 0x0,
    0x77]) (storeAddr 0 0x100) (words ws)) (wordC 0x31 3 1 3 1 true sub)
def twz : List Word := tws.set 0 (1 <<< 56 ||| 1 <<< 52)
def op9 : Tile := ((nx (t9 tws 0) (.tile i0 3 1 3 1 true 0)).array 0 0).tiles.headD { words := [], key := 0, reqs := [], opened := false, holdEnd := 0 }
def wa (a : Nat) (l : List Tile) (s : S) : S := s.setArray 0 a { s.array 0 a with tiles := l }
def tws5 : List Word := tws.set 5 0x5000
def op16 : Tile := { op9 with reqs := op9.reqs.map fun r => { r with n := 16 } }
def r9 : Tile := { op9 with opened := false }

theorem witness_DmaCommand_1 :
    (let s : State := dma1; let i : Issue := i0; let xd : Reg := 3; let xa : Reg := 1; let wc : BitVec 2 := 1;
      let w : Bool := true;
    (decide (s.performsB i (wordC 0x30 xd xa 0 wc w 0)) &&
      let c := s.at_ i; decide (s.descriptorOkB i (c.x xa) ∧ c.counterRoom wc w = true) &&
      let k := s.core i.core; decide (k.dma.length < 32) &&
      let words := s.words8 (storeAddr i.core (c.x xa).toNat); let q (n : Nat) : Nat := (words.getD n 0).toNat;
      let type := q 0 / 2 ^ 40 % 256;
      decide (¬ ( type = 2 ∧ q 1 / 2 ^ 60 = 4 ∧ q 3 / 2 ^ 32 ≠ 0)))) = true := by decide +kernel

theorem witness_DmaCommand_2 :
    (let s : State := dma2; let i : Issue := i0; let xd : Reg := 3; let xa : Reg := 1; let wc : BitVec 2 := 1;
      let w : Bool := false;
    (decide (s.performsB i (wordC 0x30 xd xa 0 wc w 0)) &&
      let c := s.at_ i; decide (s.descriptorOkB i (c.x xa) ∧ c.counterRoom wc w = true) &&
      let k := s.core i.core; decide (k.dma.length < 32) &&
      let words := s.words8 (storeAddr i.core (c.x xa).toNat); let q (n : Nat) : Nat := (words.getD n 0).toNat;
      let type := q 0 / 2 ^ 40 % 256; decide (type = 2 ∧ q 1 / 2 ^ 60 = 4 ∧ q 3 / 2 ^ 32 ≠ 0))) = true := by decide +kernel

theorem witness_DmaCommand_3 :
    (let s : State := dmab; let i : Issue := i0; let xd : Reg := 3; let xa : Reg := 1; let wc : BitVec 2 := 1;
      let w : Bool := true;
    (decide (s.performsB i (wordC 0x30 xd xa 0 wc w 0)) &&
      let c := s.at_ i;
      decide ((c.x xa).toNat + 64 ≤ 0x40000 ∧ ¬ s.descriptorGrantedB i (c.x xa) ∧ c.counterRoom wc w = true) &&
      let k := s.core i.core; decide (k.dma.length < 32))) = true := by decide +kernel

theorem witness_DmaCommand_4 :
    (let s : State := (full63 dma2); let i : Issue := i0; let xd : Reg := 3; let xa : Reg := 1; let wc : BitVec 2 := 1;
      let w : Bool := false;
    (decide (s.performsB i (wordC 0x30 xd xa 0 wc w 0)) &&
      let c := s.at_ i; let k := s.core i.core;
      decide (c.counterRoom wc w = false ∨ 32 ≤ k.dma.length))) = true := by decide +kernel

theorem witness_TileCommand_1 :
    (let s : State := (t1 tws 0); let i : Issue := i0; let xd : Reg := 3; let xa : Reg := 1; let xb : Reg := 2;
      let wc : BitVec 2 := 1; let w : Bool := true; let sub : BitVec 8 := 0;
    (decide (s.performsB i (wordC 0x31 xd xa xb wc w sub)) &&
      let arr := sub.toNat % 8; decide (arr < 5) &&
      let c := s.at_ i; decide (s.descriptorOkB i (c.x xa) ∧ c.counterRoom wc w = true) &&
      let key := c.x xb; let ws := s.words8 (storeAddr i.core (c.x xa).toNat); let outcome := s.tileOutcome i.core arr key ws;
      match outcome with
      | .open_ _ => (true)
      | _ => false) &&
    (decide (s.performsB i (wordC 0x31 xd xa xb wc w sub)) &&
      let arr := sub.toNat % 8; decide (arr < 4) &&
      let c := s.at_ i; let ws := s.words8 (storeAddr i.core (c.x xa).toNat);
      decide (tileM ws ≠ 0 ∧ tileN ws ≠ 0 ∧ tileK ws ≠ 0 ∧ tileLegal i.core ws = true ∧
        (s.array i.core arr).suspect = false ∧ s.tileAbsent i.core ws = false) &&
      let key := c.x xb;
      decide ((s.array i.core arr).openTile key = none ∧ (s.array i.core arr).isFull = false))) = true := by decide +kernel

theorem witness_TileCommand_2 :
    (let s : State := (t1 tws 5); let i : Issue := i0; let xd : Reg := 3; let xa : Reg := 1; let xb : Reg := 2;
      let wc : BitVec 2 := 1; let w : Bool := true; let sub : BitVec 8 := 5;
    (decide (s.performsB i (wordC 0x31 xd xa xb wc w sub)) &&
      let arr := sub.toNat % 8; decide (5 ≤ arr))) = true := by decide +kernel

theorem witness_TileCommand_3 :
    (let s : State := (wd (put (full63 (w0 [0x100, 0x0, 0x77])) (storeAddr 0 0x100) (words tws)) (wordC 0x31 3 1 2 1 false 0));
      let i : Issue := i0; let xd : Reg := 3; let xa : Reg := 1; let xb : Reg := 2; let wc : BitVec 2 := 1;
      let w : Bool := false; let sub : BitVec 8 := 0;
    (decide (s.performsB i (wordC 0x31 xd xa xb wc w sub)) &&
      let arr := sub.toNat % 8; decide (arr < 5) &&
      let c := s.at_ i; decide (c.counterRoom wc w = false))) = true := by decide +kernel

theorem witness_TileCommand_4 :
    (let s : State := (t1 twz 0); let i : Issue := i0; let xd : Reg := 3; let xa : Reg := 1; let xb : Reg := 2;
      let wc : BitVec 2 := 1; let w : Bool := true; let sub : BitVec 8 := 0;
    (decide (s.performsB i (wordC 0x31 xd xa xb wc w sub)) &&
      let arr := sub.toNat % 8; decide (arr < 5) &&
      let c := s.at_ i; decide (s.descriptorOkB i (c.x xa) ∧ c.counterRoom wc w = true) &&
      let key := c.x xb; let ws := s.words8 (storeAddr i.core (c.x xa).toNat); let outcome := s.tileOutcome i.core arr key ws;
      match outcome with
      | .done _ => (true)
      | _ => false)) = true := by decide +kernel

theorem witness_TileCommand_5 :
    (let s : State := (wa 0 [op9] (t9 tws5 0)); let i : Issue := i0; let xd : Reg := 3; let xa : Reg := 1; let xb : Reg := 3;
      let wc : BitVec 2 := 1; let w : Bool := true; let sub : BitVec 8 := 0;
    (decide (s.performsB i (wordC 0x31 xd xa xb wc w sub)) &&
      let arr := sub.toNat % 8; decide (arr < 5) &&
      let c := s.at_ i; decide (s.descriptorOkB i (c.x xa) ∧ c.counterRoom wc w = true) &&
      let key := c.x xb; let ws := s.words8 (storeAddr i.core (c.x xa).toNat); let outcome := s.tileOutcome i.core arr key ws;
      match outcome with
      | .join a j => (match (s.array i.core a).tiles[j]? with
      | some _ => (true)
      | _ => false)
      | _ => false)) = true := by decide +kernel

theorem witness_TileCommand_6 :
    (let s : State := (wa 0 [op16] (t9 tws5 0)); let i : Issue := i0; let xd : Reg := 3; let xa : Reg := 1; let xb : Reg := 3;
      let wc : BitVec 2 := 1; let w : Bool := true; let sub : BitVec 8 := 0;
    (decide (s.performsB i (wordC 0x31 xd xa xb wc w sub)) &&
      let arr := sub.toNat % 8; decide (arr < 5) &&
      let c := s.at_ i; decide (s.descriptorOkB i (c.x xa) ∧ c.counterRoom wc w = true) &&
      let key := c.x xb; let ws := s.words8 (storeAddr i.core (c.x xa).toNat); let outcome := s.tileOutcome i.core arr key ws;
      match outcome with
      | .wait (some (a, j)) => (match (s.array i.core a).tiles[j]? with
      | some _ => (decide ((s.array i.core a).isFull = false))
      | _ => false)
      | _ => false)) = true := by decide +kernel

theorem witness_TileCommand_7 :
    (let s : State := (wa 0 [{ r9 with running := true }, r9, r9, r9] (t1 tws 0)); let i : Issue := i0; let xd : Reg := 3;
      let xa : Reg := 1; let xb : Reg := 2; let wc : BitVec 2 := 1; let w : Bool := true; let sub : BitVec 8 := 0;
    (decide (s.performsB i (wordC 0x31 xd xa xb wc w sub)) &&
      let arr := sub.toNat % 8; decide (arr < 5) &&
      let c := s.at_ i; decide (s.descriptorOkB i (c.x xa) ∧ c.counterRoom wc w = true) &&
      let key := c.x xb; let ws := s.words8 (storeAddr i.core (c.x xa).toNat); let outcome := s.tileOutcome i.core arr key ws;
      decide (outcome = .wait none))) = true := by decide +kernel

theorem witness_TileCommand_8 :
    (let s : State := (wa 0 [{ r9 with running := true }, r9, r9, op16] (t9 tws5 0)); let i : Issue := i0; let xd : Reg := 3;
      let xa : Reg := 1; let xb : Reg := 3; let wc : BitVec 2 := 1; let w : Bool := true; let sub : BitVec 8 := 0;
    (decide (s.performsB i (wordC 0x31 xd xa xb wc w sub)) &&
      let arr := sub.toNat % 8; decide (arr < 5) &&
      let c := s.at_ i; decide (s.descriptorOkB i (c.x xa) ∧ c.counterRoom wc w = true) &&
      let key := c.x xb; let ws := s.words8 (storeAddr i.core (c.x xa).toNat); let outcome := s.tileOutcome i.core arr key ws;
      match outcome with
      | .wait (some (a, j)) => (match (s.array i.core a).tiles[j]? with
      | some _ => (decide ((s.array i.core a).isFull = true))
      | _ => false)
      | _ => false)) = true := by decide +kernel

end Case2

namespace Case3

def full63 (s : S) : S := s.updCtx 0 0 fun c => c.setCounter 1 63

theorem witness_SyncCommands_1 :
    (let s : State := (wd (w0 [0x105, 0x700000009]) (wordC 0x33 3 1 2 1 true 0)); let i : Issue := i0; let xd : Reg := 3;
      let xa : Reg := 1; let xb : Reg := 2; let wc : BitVec 2 := 1; let w : Bool := true;
    (decide (s.performsB i (wordC 0x33 xd xa xb wc w 0x00)) &&
      let c := s.at_ i; decide (c.counterRoom wc w = true))) = true := by decide +kernel

theorem witness_SyncCommands_2 :
    (let s : State := (wd (w0 [0x105, 0x700000009]) (wordC 0x33 3 1 2 1 true 3)); let i : Issue := i0; let xd : Reg := 3;
      let xa : Reg := 1; let xb : Reg := 2; let wc : BitVec 2 := 1; let w : Bool := true;
    (decide (s.performsB i (wordC 0x33 xd xa xb wc w 0x03)) &&
      let c := s.at_ i; decide (c.counterRoom wc w = true))) = true := by decide +kernel

theorem witness_SyncCommands_3 :
    (let s : State := (wd (w0 [0x105, 0x700000009]) (wordC 0x33 3 1 0 0 false 1)); let i : Issue := i0; let xd : Reg := 3;
      let xa : Reg := 1;
    (decide (s.performsB i (wordC 0x33 xd xa 0 0 false 0x01)))) = true := by decide +kernel

theorem witness_SyncCommands_4 :
    (let s : State := (wd (w0 [0x105, 0x700000009]) (wordC 0x33 3 1 0 0 false 2)); let i : Issue := i0; let xd : Reg := 3;
      let xa : Reg := 1;
    (decide (s.performsB i (wordC 0x33 xd xa 0 0 false 0x02)))) = true := by decide +kernel

theorem witness_SyncCommands_5 :
    (let s : State := (full63 (wd (w0 [0x105, 0x700000009]) (wordC 0x33 3 1 2 1 false 0))); let i : Issue := i0;
      let xd : Reg := 3; let xa : Reg := 1; let xb : Reg := 2; let wc : BitVec 2 := 1; let w : Bool := false;
    (decide (s.performsB i (wordC 0x33 xd xa xb wc w 0x00)) &&
      let c := s.at_ i; decide (c.counterRoom wc w = false))) = true := by decide +kernel

theorem witness_SyncCommands_6 :
    (let s : State := (full63 (wd (w0 [0x105, 0x700000009]) (wordC 0x33 3 1 2 1 false 3))); let i : Issue := i0;
      let xd : Reg := 3; let xa : Reg := 1; let xb : Reg := 2; let wc : BitVec 2 := 1; let w : Bool := false;
    (decide (s.performsB i (wordC 0x33 xd xa xb wc w 0x03)) &&
      let c := s.at_ i; decide (c.counterRoom wc w = false))) = true := by decide +kernel

end Case3

namespace Case4

def q1 : Queue := { enable := true, producer := true, ringLog2 := 4, ringAddr := 0x8000 }
def qs (k : Queue) : S := { w0 [0x100, 0x0] with queues := [(0, k)] }
def qf (s : S) (w : Word32) : S := wd s w
def pushW : Word32 := wordC 0x34 3 1 2 0 false 0
def c5 (s : S) : S := s.updCtx 0 0 fun c => { c.setCounter 1 5 with storeStatus := 0x0B }
def rs9 (s : S) : S := { s with reqs := [{ id := 7, src := .thread 0 0 0, kind := .write [1], addr := 0x1000, loc := 0x1000 }] }
def b2 : S := w0 [0x1FFFFFFF, 0x0]

theorem witness_QueueCounterAndFenceCommands_1 :
    (let s : State := (wd (qs q1) pushW); let i : Issue := i0; let xd : Reg := 3; let xa : Reg := 1; let xb : Reg := 2;
    (decide (s.performsB i (wordC 0x34 xd xa xb 0 false 0x00)) &&
      let c := s.at_ i; decide (s.descriptorOkB i (c.x xa)) &&
      let gq := (c.x xb).toNat % 2 ^ 25; decide (s.isOwn (gq / 2 ^ 19) = true) &&
      let q := gq % 2 ^ 19; let k := s.queue q; decide (k.ringSpace ≠ 2)) &&
    (decide (s.performsB i (wordC 0x34 xd xa xb 0 false 0x00)) &&
      let c := s.at_ i; decide (s.descriptorOkB i (c.x xa)) &&
      let gq := (c.x xb).toNat % 2 ^ 25; let q := gq % 2 ^ 19; let k := s.queue q;
      decide (k.ringSpace ≠ 2 ∧ queueExists q = true ∧ s.coreStatus (queueCore q) = 0 ∧ k.producer = true ∧
        k.ringValid q = true ∧ k.full = false) &&
      let bytes := (s.words8 (storeAddr i.core (c.x xa).toNat)).flatMap fun w => natToBytes 8 w.toNat;
      let (p0, _) := s.writeRange (s.slotAddr q k.pi.toNat) (bytes.set 6 (bytes.getD 6 0 &&& 0x7F)) none .other;
      decide (p0 = 0))) = true := by decide +kernel

theorem witness_QueueCounterAndFenceCommands_2 :
    (let s : State := (wd (qs { q1 with pi := 16 }) pushW); let i : Issue := i0; let xd : Reg := 3; let xa : Reg := 1;
      let xb : Reg := 2;
    (decide (s.performsB i (wordC 0x34 xd xa xb 0 false 0x00)) &&
      let c := s.at_ i; decide (s.descriptorOkB i (c.x xa)) &&
      let gq := (c.x xb).toNat % 2 ^ 25; decide (s.isOwn (gq / 2 ^ 19) = true) &&
      let q := gq % 2 ^ 19; let k := s.queue q;
      decide (k.ringSpace ≠ 2 ∧ queueExists q = true ∧ s.coreStatus (queueCore q) = 0 ∧ k.producer = true ∧
        k.ringValid q = true ∧ k.full = true))) = true := by decide +kernel

theorem witness_QueueCounterAndFenceCommands_3 :
    (let s : State := (wd (w0 [0x100, 3 <<< 19]) pushW); let i : Issue := i0; let xd : Reg := 3; let xa : Reg := 1;
      let xb : Reg := 2;
    (decide (s.performsB i (wordC 0x34 xd xa xb 0 false 0x00)) &&
      let c := s.at_ i; decide (s.descriptorOkB i (c.x xa)) &&
      let gq := (c.x xb).toNat % 2 ^ 25;
      decide (s.isOwn (gq / 2 ^ 19) = false ∧ s.nonMember (gq / 2 ^ 19) = true))) = true := by decide +kernel

theorem witness_QueueCounterAndFenceCommands_4 :
    (let s : State := (wd ({ w0 [0x100, 3 <<< 19] with group := { shape := 3, member := 0 }}.setReg 0x5200 6 0xF) pushW);
      let i : Issue := i0; let xd : Reg := 3; let xa : Reg := 1; let xb : Reg := 2;
    (decide (s.performsB i (wordC 0x34 xd xa xb 0 false 0x00)) &&
      let c := s.at_ i; decide (s.descriptorOkB i (c.x xa)) &&
      let gq := (c.x xb).toNat % 2 ^ 25;
      decide (s.isOwn (gq / 2 ^ 19) = false ∧ s.nonMember (gq / 2 ^ 19) = false))) = true := by decide +kernel

theorem witness_QueueCounterAndFenceCommands_5 :
    (let s : State := (wd (qs { q1 with ringSpace := 2 }) pushW); let i : Issue := i0; let xd : Reg := 3; let xa : Reg := 1;
      let xb : Reg := 2;
    (decide (s.performsB i (wordC 0x34 xd xa xb 0 false 0x00)) &&
      let c := s.at_ i; decide (s.descriptorOkB i (c.x xa)) &&
      let gq := (c.x xb).toNat % 2 ^ 25; decide (s.isOwn (gq / 2 ^ 19) = true) &&
      let q := gq % 2 ^ 19; let k := s.queue q; decide (k.ringSpace = 2))) = true := by decide +kernel

theorem witness_QueueCounterAndFenceCommands_6 :
    (let s : State := (wd (qs q1) (wordC 0x34 0 0 2 0 false 1)); let i : Issue := i0; let xb : Reg := 2;
    (decide (s.performsB i (wordC 0x34 0 0 xb 0 false 0x01)))) = true := by decide +kernel

theorem witness_QueueCounterAndFenceCommands_7 :
    (let s : State := (wd (qs q1) (wordI 0x35 3 0 1)); let i : Issue := i0; let xd : Reg := 3; let m : BitVec 16 := 1;
    (decide (s.performsB i (wordI 0x35 xd 0 m)) &&
      let c := s.at_ i; let n : BitVec 2 := m.truncate 2; let limit := m.toNat / 4 % 64;
      decide ((c.counter n).toNat ≤ limit))) = true := by decide +kernel

theorem witness_QueueCounterAndFenceCommands_8 :
    (let s : State := (wd (c5 (qs q1)) (wordI 0x35 3 0 1)); let i : Issue := i0; let xd : Reg := 3; let m : BitVec 16 := 1;
    (decide (s.performsB i (wordI 0x35 xd 0 m)) &&
      let limit := m.toNat / 4 % 64; let c := s.at_ i; let n : BitVec 2 := m.truncate 2;
      decide (limit < (c.counter n).toNat))) = true := by decide +kernel

theorem witness_QueueCounterAndFenceCommands_9 :
    (let s : State := (wd (qs q1) (wordI 0x36 0 0 2)); let i : Issue := i0; let m : BitVec 16 := 2;
    (decide (s.performsB i (wordI 0x36 0 0 m)) &&
      let mask : BitVec 4 := m.truncate 4; decide (s.fenceHolds i.core i.ctx mask = true) &&
      let c := s.at_ i; decide (m.getLsbD 1 = true → c.storeStatus = 0))) = true := by decide +kernel

theorem witness_QueueCounterAndFenceCommands_10 :
    (let s : State := (wd (c5 (qs q1)) (wordI 0x36 0 0 2)); let i : Issue := i0; let m : BitVec 16 := 2;
    (decide (s.performsB i (wordI 0x36 0 0 m)) &&
      let mask : BitVec 4 := m.truncate 4; decide (s.fenceHolds i.core i.ctx mask = true ∧ m.getLsbD 1 = true) &&
      let c := s.at_ i; decide (c.storeStatus ≠ 0))) = true := by decide +kernel

theorem witness_QueueCounterAndFenceCommands_11 :
    (let s : State := (wd (rs9 (qs q1)) (wordI 0x36 0 0 15)); let i : Issue := i0; let m : BitVec 16 := 15;
    (decide (s.performsB i (wordI 0x36 0 0 m)) &&
      let mask : BitVec 4 := m.truncate 4; decide (s.fenceHolds i.core i.ctx mask = false))) = true := by decide +kernel

theorem witness_SpecialRegistersAndBreak_1 :
    (let s : State := (wd b2 (wordI 0x37 3 0 0x14)); let i : Issue := i0; let xd : Reg := 3; let m : BitVec 16 := 0x14;
    (decide (s.performsB i (wordI 0x37 xd 0 m)) &&
      let v := (0 : Word); let c := s.at_ i;
      decide ((m, v) ∈ ([(0x000, BitVec.ofNat 64 i.ctx), (0x001, BitVec.ofNat 64 (s.group.member * 2 ^ 14 + i.core)), (0x002,
        c.taskQueue.zeroExtend 64), (0x003, BitVec.ofNat 64 (0x3C000 + i.ctx * 0x40)), (0x004, c.vcfg), (0x005,
        if c.issueClass then 1 else 0), (0x006,
        BitVec.ofNat 64 ((c.counter 0).toNat + (c.counter 1).toNat * 2 ^ 8 + (c.counter 2).toNat * 2 ^ 16 + (c.counter 3).toNat * 2 ^ 24)), (0x007, BitVec.ofNat 64 i.beat), (0x008, s.refTime (coreTower i.core)), (0x009, BitVec.ofNat 64 (s.field (coreField i.core)).meas), (0x00A, BitVec.ofNat 64 (s.appliedStretch i.core)), (0x010, (c.asyncStatus 0).zeroExtend 64), (0x011, (c.asyncStatus 1).zeroExtend 64), (0x012, (c.asyncStatus 2).zeroExtend 64), (0x013, (c.asyncStatus 3).zeroExtend 64), (0x014, c.storeStatus.zeroExtend 64)] : List (BitVec 16 × Word))))) = true := by decide +kernel

theorem witness_SpecialRegistersAndBreak_2 :
    (let s : State := (wd b2 (wordI 0x37 3 0 15)); let i : Issue := i0; let xd : Reg := 3; let m : BitVec 16 := 15;
    (decide (s.performsB i (wordI 0x37 xd 0 m) ∧
        m ∉ ([0x000, 0x001, 0x002, 0x003, 0x004, 0x005, 0x006, 0x007, 0x008, 0x009, 0x00A, 0x010, 0x011, 0x012, 0x013,
        0x014] : List (BitVec 16))))) = true := by decide +kernel

theorem witness_SpecialRegistersAndBreak_3 :
    (let s : State := (wd b2 (wordI 0x38 0 1 4)); let i : Issue := i0; let xa : Reg := 1; let m : BitVec 16 := 4;
    (decide (s.performsB i (wordI 0x38 0 xa m) ∧ m = 0x004))) = true := by decide +kernel

theorem witness_SpecialRegistersAndBreak_4 :
    (let s : State := (wd b2 (wordI 0x38 0 1 5)); let i : Issue := i0; let xa : Reg := 1; let m : BitVec 16 := 5;
    (decide (s.performsB i (wordI 0x38 0 xa m) ∧ m = 0x005))) = true := by decide +kernel

theorem witness_SpecialRegistersAndBreak_5 :
    (let s : State := (wd b2 (wordI 0x38 0 1 1)); let i : Issue := i0; let xa : Reg := 1; let m : BitVec 16 := 1;
    (decide (s.performsB i (wordI 0x38 0 xa m) ∧ m ≠ 0x004 ∧ m ≠ 0x005))) = true := by decide +kernel

theorem witness_SpecialRegistersAndBreak_6 :
    (let s : State := ((wd b2 (wordU 0x39 0 0)).setReg 0xA111 4 2); let i : Issue := i0; let k : BitVec 21 := 0;
    (decide (s.performsB i (wordU 0x39 0 k) ∧ s.reg 0xA111 4 = 2))) = true := by decide +kernel

theorem witness_SpecialRegistersAndBreak_7 :
    (let s : State := ((wd b2 (wordU 0x39 0 0)).setReg 0xA111 4 0); let i : Issue := i0; let k : BitVec 21 := 0;
    (decide (s.performsB i (wordU 0x39 0 k) ∧ s.reg 0xA111 4 = 0))) = true := by decide +kernel

theorem witness_SpecialRegistersAndBreak_8 :
    (let s : State := ((wd b2 (wordU 0x39 0 0)).setReg 0xA111 4 1); let i : Issue := i0; let k : BitVec 21 := 0;
    (decide (s.performsB i (wordU 0x39 0 k) ∧ s.reg 0xA111 4 = 1))) = true := by decide +kernel

end Case4

namespace Case5

def rq (k : ReqKind) (st : Status) (d : List Byte) : Req := { id := 7, src := .thread 0 0 0, kind := k, addr := 0x100, loc := 0x100, stage := .done, status := st, data := d }
def aw (wt : Wait) (r : Req) : S := { wcx { ctx0 [0x100, 0x0] with state := if wt = .none then .ready else .waitMem, wait := wt } with reqs := [r] }
def grp (s : S) : S := { s with group := { shape := 3, member := 0 } }.setReg 0x5200 6 0xF
def sm : SyncMsg := { id := 7, op := .read, object := 5, value := 0, target := .wait 0 0 4, reply := some (0, 0x80000001) }
def tk (c : Sys2Proof.Machine.Ctx) : S := { wcx c with now := 7, steward := { running := true }, mem := {}, run := 9 }

theorem witness_AnswersReachTheirThread_1 :
    (let s : State := (aw (.load 7 3 4 true) (rq (.read 4) 0 [1,2,3,0x80])); let id : Nat := 7; let core : Nat := 0;
      let ctx : Nat := 0; let serial : Nat := 0; let n : Nat := 4; let xd : Reg := 3; let signed : Bool := true;
      let st : Status := 0; let data : List Byte := [1,2,3,0x80];
    (decide (s.running = true) &&
      match s.reqs.find? (·.id == id) with
      | some r => (decide (r.src = .thread core ctx serial ∧ s.answerHeld r = false) &&
        let remote := (Option.none : Option (Status × List Byte));
        decide (s.answerOf r remote = some (st, data) ∧ (∀ m ∈ s.syncMsgs, m.id ≠ id)) &&
        let c := s.ctx core ctx; decide (c.wait = .load id xd n signed))
      | _ => false)) = true := by decide +kernel

theorem witness_AnswersReachTheirThread_2 :
    (let s : State := (aw (.atomic 7 3) (rq (.atomic .add 1 2) 0 [1,2,3,0x80])); let id : Nat := 7; let core : Nat := 0;
      let ctx : Nat := 0; let serial : Nat := 0; let xd : Reg := 3; let st : Status := 0;
      let data : List Byte := [1,2,3,0x80];
    (decide (s.running = true) &&
      match s.reqs.find? (·.id == id) with
      | some r => (decide (r.src = .thread core ctx serial ∧ s.answerHeld r = false) &&
        let remote := (Option.none : Option (Status × List Byte));
        decide (s.answerOf r remote = some (st, data) ∧ (∀ m ∈ s.syncMsgs, m.id ≠ id)) &&
        let c := s.ctx core ctx; decide (c.wait = .atomic id xd))
      | _ => false)) = true := by decide +kernel

theorem witness_AnswersReachTheirThread_3 :
    (let s : State := (grp (aw (.push 7 3) { (rq (.push 5 []) 0 []) with stage := .sent, addr := 3 <<< 48 }));
      let id : Nat := 7; let core : Nat := 0; let ctx : Nat := 0; let serial : Nat := 0; let xd : Reg := 3;
      let st : Status := 9; let data : List Byte := [1];
    (decide (s.running = true) &&
      match s.reqs.find? (·.id == id) with
      | some r => (decide (r.src = .thread core ctx serial ∧ s.answerHeld r = false) &&
        let remote := (some (9, [1]) : Option (Status × List Byte));
        decide (s.answerOf r remote = some (st, data) ∧ (∀ m ∈ s.syncMsgs, m.id ≠ id)) &&
        let c := s.ctx core ctx; decide (c.wait = .push id xd))
      | _ => false)) = true := by decide +kernel

theorem witness_AnswersReachTheirThread_4 :
    (let s : State := (aw .none (rq (.write [1]) 9 [])); let id : Nat := 7; let core : Nat := 0; let ctx : Nat := 0;
      let serial : Nat := 0; let st : Status := 9; let data : List Byte := [];
    (decide (s.running = true) &&
      match s.reqs.find? (·.id == id) with
      | some r => (decide (r.src = .thread core ctx serial ∧ s.answerHeld r = false) &&
        let remote := (Option.none : Option Status);
        decide (s.answerOf r (remote.map fun st => (st, [])) = some (st, data)) &&
        let c := s.ctx core ctx; decide (c.wait = .none))
      | _ => false)) = true := by decide +kernel

theorem witness_AnswersReachTheirThread_5 :
    (let s : State := { (aw (.syncRead 4 3) (rq (.read 4) 1 [])) with syncMsgs := [{ sm with reply := some (9, 0) }] };
      let id : Nat := 7; let core : Nat := 0; let ctx : Nat := 0; let n : Nat := 4; let xd : Reg := 3; let st : Status := 9;
    (decide (s.running = true) &&
      match s.syncMsgs.find? (·.id == id) with
      | some m => (decide (m.op = .read) &&
        match m.reply with
      | some (p0, _) => (decide (p0 = st ∧ m.target = .wait core ctx n ∧ s.syncBehind m = false) &&
        let c := s.ctx core ctx; decide (c.wait = .syncRead n xd))
      | _ => false)
      | _ => false)) = true := by decide +kernel

theorem witness_TaskEndReleaseAndKill_1 :
    (let s : State := (tk { state := .exiting, launch := some 3, ending := .exit 5 }); let core : Nat := 0; let ctx : Nat := 0;
    (decide (ctx < 256 ∧ core < 16384 ∧ s.coreUp core = true) &&
      let c := s.ctx core ctx; decide (c.state = .exiting ∧ c.idle = true)) &&
    (decide (ctx < 256 ∧ core < 16384 ∧ s.coreUp core = true) &&
      let c := s.ctx core ctx; decide (c.state = .exiting ∧ c.idle = true ∧ c.restart = false ∧ c.rerun = none) &&
      match c.launch with
      | some _ => (true)
      | _ => false) &&
    (decide (ctx < 256 ∧ core < 16384 ∧ s.steward.lost = false ∧ s.inService core = true) &&
      let c := s.ctx core ctx; decide (c.state ≠ .faulted)) &&
    (decide (ctx < 256 ∧ core < 16384 ∧ s.steward.lost = false ∧ s.inService core = true) &&
      let c := s.ctx core ctx; decide (c.state = .exiting ∧ (∀ st, c.ending ≠ .fault st)))) = true := by decide +kernel

theorem witness_TaskEndReleaseAndKill_2 :
    (let s : State := (tk { state := .exiting, launch := some 3, ending := .fault 2 }); let core : Nat := 0; let ctx : Nat := 0;
    (decide (ctx < 256 ∧ core < 16384 ∧ s.steward.lost = false ∧ s.inService core = true) &&
      let c := s.ctx core ctx; decide (c.state = .exiting) &&
      match c.ending with
      | .fault _ => (true)
      | _ => false)) = true := by decide +kernel

theorem witness_TaskEndReleaseAndKill_3 :
    (let s : State := (tk { state := .faulted }); let core : Nat := 0; let ctx : Nat := 0;
    (decide (ctx < 256 ∧ core < 16384 ∧ s.steward.lost = false ∧ s.inService core = true) &&
      let c := s.ctx core ctx; decide (c.state = .faulted))) = true := by decide +kernel

theorem witness_TaskEndReleaseAndKill_4 :
    (let s : State := (tk { state := .ready }); let core : Nat := 0; let ctx : Nat := 0;
    (decide (ctx < 256 ∧ core < 16384 ∧ s.steward.lost = false ∧ s.inService core = true) &&
      let c := s.ctx core ctx; decide (c.state = .ready))) = true := by decide +kernel

theorem witness_TaskEndReleaseAndKill_5 :
    (let s : State := (tk { state := .waitCmd, word := 77, wait := .command 4 4 }); let core : Nat := 0; let ctx : Nat := 0;
    (decide (ctx < 256 ∧ core < 16384 ∧ s.steward.lost = false ∧ s.inService core = true) &&
      let c := s.ctx core ctx; decide (c.state ∈ [.waitMem, .waitCmd, .waitUnit, .waitSync]))) = true := by decide +kernel

theorem witness_TaskEndReleaseAndKill_6 :
    (let s : State := (tk { state := .free }); let core : Nat := 0; let ctx : Nat := 0;
    (decide (ctx < 256 ∧ core < 16384 ∧ s.steward.lost = false) &&
      let c := s.ctx core ctx; decide (s.inService core = false ∨ c.state = .free))) = true := by decide +kernel

end Case5

namespace Case6

def cx (c : Sys2Proof.Machine.Core) : S := { w0 [1] with cores := [(0, c)] }
def v1 : VecOp := { op := .vadd, ctx := 0, vcfg := 64, xd := 0x100, xa := 0x200, xb := 0x300, xc := 0, token := 0, word := 0 }
def v2 : VecOp := { v1 with xd := 0x101 }
def v3 : VecOp := { v1 with running := true, writes := [(0x100, [1,2,3,4])] }
def v4 : VecOp := { v1 with running := true, status := 0x0A }
def wt (w : UnitCmd) : S := { wcx { ctx0 [0x100, 0x0, 0x200, 0x300] with state := .waitUnit, wait := .unit w } with mem := { cells := storeBytes [] (storeAddr 0 0x100) (words tws) } }
def v1q : S := let s := cx { vec := [v1] }; served (s.readSpans (.vector 0) (v1.sources.map fun (a, n) => (storeAddr 0 a, n))).2.2

theorem witness_VectorUnitWorksInOrder_1 :
    (let s : State := (cx { vec := [v2] }); let core : Nat := 0; let v : VecOp := v2;
    (decide (s.coreUp core = true) &&
      let k := s.core core; match k.vec with
      | p0 :: _ => (decide (p0 = v ∧ v.running = false ∧ s.gooseFirst core = false) &&
        match v.check with
      | some _ => (true)
      | _ => false)
      | _ => false) &&
    (decide (s.coreUp core = true ∧ v.writes = []) &&
      let c := s.ctx core v.ctx; decide (c.wait = .none))) = true := by decide +kernel

theorem witness_VectorUnitWorksInOrder_2 :
    (let s : State := ((cx { vec := [v4, v1] }).updCtx 0 0 fun c => c.setCounter 0 3); let core : Nat := 0; let v : VecOp := v4;
    (decide (s.coreUp core = true) &&
      let k := s.core core; match k.vec with
      | p0 :: rest => (decide (p0 = v ∧ v.running = true) &&
        let u := v.writes.foldl (fun s w => s.writeLocal core (s.producing core v.ctx) w) s;
        let ux := u.setCore core { u.core core with vec := rest };
        let t := (ux.complete (.counter core v.ctx v.counter) v.status).complete (.wait core v.ctx v.token) v.status;
        let who := Agent.vector core; decide (t.settledB who))
      | _ => false)) = true := by decide +kernel

theorem witness_VectorUnitWorksInOrder_3 :
    (let s : State := (wt (.dma 3 1 1 true)); let core : Nat := 0;
    (decide (s.coreUp core = true) &&
      let ctx := (0 : Nat); let wait := (s.ctx core ctx).wait; match wait with
      | .unit (.dma _ _ _ _) => (true)
      | _ => false)) = true := by decide +kernel

theorem witness_VectorUnitWorksInOrder_4 :
    (let s : State := (wt (.tile 3 1 2 1 true 0)); let core : Nat := 0;
    (decide (s.coreUp core = true) &&
      let ctx := (0 : Nat); let wait := (s.ctx core ctx).wait; match wait with
      | .unit (.tile _ _ _ _ _ _) => (true)
      | _ => false)) = true := by decide +kernel

theorem witness_VectorUnitWorksInOrder_5 :
    (let s : State := (wt (.sync true 3 1 2 1 true)); let core : Nat := 0;
    (decide (s.coreUp core = true) &&
      let ctx := (0 : Nat); let wait := (s.ctx core ctx).wait; match wait with
      | .unit (.sync _ _ _ _ _ _) => (true)
      | _ => false)) = true := by decide +kernel

theorem witness_VectorUnitWorksInOrder_6 :
    (let s : State := (wt (.vec .vadd 4 1 3 4)); let core : Nat := 0;
    (decide (s.coreUp core = true) &&
      let ctx := (0 : Nat); let wait := (s.ctx core ctx).wait; match wait with
      | .unit (.vec _ _ _ _ _) => (decide ((s.ctx core ctx).counter (((s.ctx core ctx).vcfg >>> 25).truncate 2) ≠ 63) &&
        let k := s.core core; decide (k.vec.length < 8))
      | _ => false)) = true := by decide +kernel

theorem witness_VectorUnitWorksInOrder_7 :
    (let s : State := v1q; let core : Nat := 0; let v : VecOp := v1;
    (decide (s.coreUp core = true) &&
      let k := s.core core; match k.vec with
      | p0 :: _ => (decide (p0 = v ∧ v.running = false ∧ s.gooseFirst core = false ∧ v.check = none) &&
        let who := Agent.vector core; let (r, data, u) := s.readSpans who (v.sources.map fun (a, n) => (storeAddr core a, n));
        decide (r.waiting = false) &&
        let head (u : State) (v : VecOp) : State := u.setVecHead core { v with running := true }; let c := s.ctx core v.ctx;
        let t := if r.status ≠ 0 then head u { v with status := r.status } else ((head u { v with writes := (v.compute data).1 }).countEvents core (v.compute data).2).charge core c.taskQueue.toNat 3 v.len;
        decide (t.settledB who))
      | _ => false)) = true := by decide +kernel

end Case6

namespace Case7

def cx (c : Sys2Proof.Machine.Core) : S := { w0 [1] with cores := [(0, c)] }
def tile1 : Tile := { words := tws, key := 0, reqs := [{ n := 1, held := 0x3000, heldScale := 0, out := 0x4000, target := .counter 0 0 1 }], opened := true, holdEnd := 0 }
def ta (u : ArrayUnit) : S := { cx {} with cores := [(0, { arrays := [(2, u)] })], fields := [(0, { rail := .powered, ramp := some (8, 0) })] }
def z := List.replicate 1 (0 : Word32)
def held_ (a : Nat) (who : Agent) (s : S) : S := let u := s.setCrc (storeAddr 0 a / 64) 5
  { u with mem := { u.mem with recoveries := [{ line := storeAddr 0 a / 64, reader := who, kind := .refetch }] } }
def badLine (a : Nat) (s : S) : S := s.setCrc (storeAddr 0 a / 64) 5
def hb : List Byte := List.replicate 64 0x3F
def trun : Tile := { tile1 with opened := false, running := true, begun := true, acc := z, y0 := z, held := some [some [hb]] }
def tr (f : Tile) : S := ta { tiles := [f] }
def tws2 : List Word := tws.set 0 (tws.headD 0 + (512 - 32) <<< 5)
def tr2 : S := tr { trun with words := tws2 }
def cf : List CellFault := [.product 0 0 0 5]
def twsd : List Word := (tws.set 0 (tws.headD 0 + 2 <<< 46))
def tr3 : S := badLine 0x3200 tr2
def sx (a : Nat) : Word := BitVec.ofNat 64 (sliceBase + a)
def twS : List Word := [tws.headD 0 ||| 1 <<< 46 ||| 1 <<< 44 ||| 1 <<< 42, sx 0x1000, 0, sx 0x3000, 0, sx 0x4000, 0, 0]
def tileQ : Tile := { tile1 with words := twS, reqs := [{ n := 1, held := sliceBase + 0x3000, heldScale := 0, out := sliceBase + 0x4000, target := .counter 0 0 1 }] }
def tsc : S := ta { tiles := [{ tileQ with opened := false, closedBy := .full }] }
def qst (s : S) : S := served (nx s (.tileStart 0 2))
def trS : Tile := { tileQ with opened := false, running := true, begun := true, acc := z, y0 := z, held := some [some [hb]] }
def qp (f : List CellFault) (s : S) : S := served (nx s (.tilePassEnd 0 2 f))
def failing (s : S) : S := { s with reqs := s.reqs.map fun r => { r with status := 1 } }
def tr2S : Tile := { trS with words := twS.set 0 (twS.headD 0 + (512 - 32) <<< 5) }
def fh (s : S) : S := { s with reqs := s.reqs.map fun r => if r.src = .unit (.held 0 2) then { r with status := 1 } else r }

theorem witness_TilesCloseAndStart_1 :
    (let s : State := (qst tsc); let core : Nat := 0; let a : Nat := 2; let field : Nat := 0;
      let t : Tile := { tileQ with opened := false, closedBy := .full };
    (decide (s.coreUp core = true ∧ a < 4) &&
      let u := s.array core a; match u.tiles with
      | p0 :: _ => (decide (p0 = t ∧ t.opened = false ∧ t.running = false ∧ u.suspect = false ∧ s.rampAdmits core a = true) &&
        match s.beginRun core a t with
      | (some (n, ev), v) => (let vx := v.putRun core a n ev; let w := (match n.closedBy with
      | .other => vx
      | .full => if n.key = 0 then vx else vx.towerWrap 0xB105 (coreTower core) 1
      | .expired => vx.towerWrap 0xB106 (coreTower core) 1).settleRamp (coreField core); decide (w.tileSettledB core a))
      | _ => false)
      | _ => false) &&
    (decide (s.coreUp core = true ∧ a < 4 ∧ t.held = none) &&
      let (p0, _, _, _) := s.loadHeld core a t.words 0 t.reqs; decide (p0 = false ∧ tileAcc t.words = false)) &&
    (decide (s.coreUp core = true ∧ a < 4) &&
      match (s.field field).ramp with
      | some (_, due) => (decide (s.running = true ∧ due ≤ s.run))
      | _ => false)) = true := by decide +kernel

theorem witness_TilesCloseAndStart_2 :
    (let s : State := (ta { tiles := [tile1] }); let core : Nat := 0; let a : Nat := 2; let t : Tile := tile1;
    (decide (s.coreUp core = true ∧ a < 4) &&
      let u := s.array core a; match u.tiles with
      | p0 :: _ => (decide (p0 = t ∧ t.opened = true ∧ t.running = false ∧ t.holdEnd ≤ s.run ∧ s.rampAdmits core a = true))
      | _ => false)) = true := by decide +kernel

theorem witness_TilesCloseAndStart_3 :
    (let s : State := tsc; let core : Nat := 0; let a : Nat := 2;
    (decide (s.coreUp core = true ∧ a < 4) &&
      let u := s.array core a; match u.tiles with
      | t :: _ => (decide (t.opened = false ∧ t.running = false ∧ u.suspect = false ∧ s.rampAdmits core a = true) &&
        let (p0, v) := s.beginRun core a t; decide (p0 = none ∧ v.awaitsB [.array core a, .held core a]))
      | _ => false)) = true := by decide +kernel

theorem witness_TilePassesAccumulate_1 :
    (let s : State := (qp [] (qp [] (tr trS))); let core : Nat := 0; let a : Nat := 2; let faults : List CellFault := [];
    (decide (s.coreUp core = true) &&
      match (s.array core a).tiles with
      | t :: _ => (decide (t.running = true ∧ t.begun = true ∧ (s.array core a).halted = false) &&
        let (d, s1) := s.readPass core a t; decide (d.result.waiting = false ∧ d.result.status = 0 ∧ d.reqs = t.reqs) &&
        let ws := t.words; let stream := streamBlocks ws t.pass (d.stream.getD 0 []) (d.stream.getD 1 []);
        let held := (liveRows t.reqs (t.held.getD [])).map fun c => c.map fun l => heldBlocks ws t.pass (l.getD 0 []) (l.getD 1 []);
        let blocks := held.map fun c => c.map (·.1); let ok := checksPass ws t.pass faults stream.1 blocks;
        decide (ok = true) &&
        let sum := passAccumulate ws faults t.acc stream.1 blocks; let ev := stream.2 ++ (held.flatMap fun c => match c with
      | some x => x.2
      | none => []) ++ sum.2;
        let n := { t with acc := sum.1, pass := t.pass + 1, held := d.next, counted := t.counted || !ev.isEmpty };
        decide (tilePasses ws ≤ n.pass) &&
        let tw := coreTower core; let products := passProducts ws t.pass t.columns; let gated := passGated ws stream.1 blocks;
        let v := (((s1.loadEarly core a).towerWrap 0xB103 tw products).towerWrap 0xB104 tw gated);
        let vx := ((v.chargeTile core t 0 (products - gated)).chargeTile core t 1 gated).countEvents core ev;
        let (reqs, e, w) := vx.drainTile core a n 0 n.reqs;
        decide (((w.countEvents core e).finishTile core a { n with reqs := reqs, counted := n.counted || !e.isEmpty } 0 false).tileSettledB core a))
      | _ => false) &&
    (decide (s.coreUp core = true) &&
      match (s.array core a).tiles with
      | t :: _ => (decide (t.running = true ∧ t.begun = true ∧ (s.array core a).halted = false) &&
        let (d, _) := s.readPass core a t; decide (d.result.waiting = false ∧ d.result.status = 0 ∧ d.reqs = t.reqs))
      | _ => false)) = true := by decide +kernel

theorem witness_TilePassesAccumulate_2 :
    (let s : State := (failing (qp [] (tr trS))); let core : Nat := 0; let a : Nat := 2;
    (decide (s.coreUp core = true) &&
      match (s.array core a).tiles with
      | t :: rest => (decide (t.running = true ∧ t.begun = true ∧ (s.array core a).halted = false) &&
        let (d, s1) := s.readPass core a t;
        decide (d.result.waiting = false ∧ d.result.status ≠ 0 ∧ (∀ x ∈ rest, x.running = false)) &&
        let u := s1.finishTile core a t d.result.status true; decide (u.tileSettledB core a))
      | _ => false) &&
    (decide (s.coreUp core = true) &&
      match (s.array core a).tiles with
      | t :: _ => (decide (t.running = true ∧ t.begun = true ∧ (s.array core a).halted = false) &&
        let (d, _) := s.readPass core a t; decide (d.result.waiting = false ∧ d.result.status ≠ 0))
      | _ => false)) = true := by decide +kernel

theorem witness_TilePassesAccumulate_3 :
    (let s : State := (tr trS); let core : Nat := 0; let a : Nat := 2;
    (decide (s.coreUp core = true) &&
      match (s.array core a).tiles with
      | t :: _ => (decide (t.running = true ∧ t.begun = true ∧ (s.array core a).halted = false) &&
        let (d, s1) := s.readPass core a t; decide (d.result.waiting = true ∧ s1.awaitsB [.array core a, .held core a]))
      | _ => false)) = true := by decide +kernel

theorem witness_TilePassesAccumulate_4 :
    (let s : State := (qp [] (qp [] (tr tr2S))); let core : Nat := 0; let a : Nat := 2; let faults : List CellFault := [];
    (decide (s.coreUp core = true) &&
      match (s.array core a).tiles with
      | t :: _ => (decide (t.running = true ∧ t.begun = true ∧ (s.array core a).halted = false) &&
        let (d, s1) := s.readPass core a t; decide (d.result.waiting = false ∧ d.result.status = 0 ∧ d.reqs = t.reqs) &&
        let ws := t.words; let stream := streamBlocks ws t.pass (d.stream.getD 0 []) (d.stream.getD 1 []);
        let held := (liveRows t.reqs (t.held.getD [])).map fun c => c.map fun l => heldBlocks ws t.pass (l.getD 0 []) (l.getD 1 []);
        let blocks := held.map fun c => c.map (·.1); let ok := checksPass ws t.pass faults stream.1 blocks;
        decide (ok = true) &&
        let sum := passAccumulate ws faults t.acc stream.1 blocks; let ev := stream.2 ++ (held.flatMap fun c => match c with
      | some x => x.2
      | none => []) ++ sum.2;
        let n := { t with acc := sum.1, pass := t.pass + 1, held := d.next, counted := t.counted || !ev.isEmpty };
        decide (n.pass < tilePasses ws) &&
        let tw := coreTower core; let products := passProducts ws t.pass t.columns; let gated := passGated ws stream.1 blocks;
        let v := (((s1.loadEarly core a).towerWrap 0xB103 tw products).towerWrap 0xB104 tw gated);
        let vx := ((v.chargeTile core t 0 (products - gated)).chargeTile core t 1 gated).countEvents core ev;
        decide (((vx.setArray core a ((vx.array core a).setTile 0 n)).markEarly core a n).tileSettledB core a))
      | _ => false)) = true := by decide +kernel

theorem witness_TilePassesAccumulate_5 :
    (let s : State := (qp cf (qp cf (tr trS))); let core : Nat := 0; let a : Nat := 2; let faults : List CellFault := cf;
    (decide (s.coreUp core = true) &&
      match (s.array core a).tiles with
      | t :: _ => (decide (t.running = true ∧ t.begun = true ∧ (s.array core a).halted = false) &&
        let (d, s1) := s.readPass core a t; decide (d.result.waiting = false ∧ d.result.status = 0 ∧ d.reqs = t.reqs) &&
        let ws := t.words; let stream := streamBlocks ws t.pass (d.stream.getD 0 []) (d.stream.getD 1 []);
        let held := (liveRows t.reqs (t.held.getD [])).map fun c => c.map fun l => heldBlocks ws t.pass (l.getD 0 []) (l.getD 1 []);
        let blocks := held.map fun c => c.map (·.1); let ok := checksPass ws t.pass faults stream.1 blocks;
        decide (ok = false ∧ t.attempt = 0) &&
        let tw := coreTower core; let products := passProducts ws t.pass t.columns; let gated := passGated ws stream.1 blocks;
        let v := (((s1.loadEarly core a).towerWrap 0xB103 tw products).towerWrap 0xB104 tw gated);
        let sum := passAccumulate ws faults t.acc stream.1 blocks; let ev := stream.2 ++ (held.flatMap fun c => match c with
      | some x => x.2
      | none => []) ++ sum.2;
        let vx := ((v.chargeTile core t 0 (products - gated)).chargeTile core t 1 gated).countEvents core ev;
        let n := { t with acc := sum.1, pass := t.pass + 1, held := d.next, counted := t.counted || !ev.isEmpty };
        decide (((vx.towerWrap 0xB101 tw 1).rerunTile core a n).tileSettledB core a))
      | _ => false)) = true := by decide +kernel

theorem witness_TilePassesAccumulate_6 :
    (let s : State := (qp cf (tr { trS with attempt := 1 })); let core : Nat := 0; let a : Nat := 2;
      let faults : List CellFault := cf;
    (decide (s.coreUp core = true) &&
      match (s.array core a).tiles with
      | t :: _ => (decide (t.running = true ∧ t.begun = true ∧ (s.array core a).halted = false) &&
        let (d, s1) := s.readPass core a t; decide (d.result.waiting = false ∧ d.result.status = 0 ∧ d.reqs = t.reqs) &&
        let ws := t.words; let stream := streamBlocks ws t.pass (d.stream.getD 0 []) (d.stream.getD 1 []);
        let held := (liveRows t.reqs (t.held.getD [])).map fun c => c.map fun l => heldBlocks ws t.pass (l.getD 0 []) (l.getD 1 []);
        let blocks := held.map fun c => c.map (·.1); let ok := checksPass ws t.pass faults stream.1 blocks;
        decide (ok = false ∧ t.attempt ≠ 0) &&
        let tw := coreTower core; let products := passProducts ws t.pass t.columns; let gated := passGated ws stream.1 blocks;
        let v := (((s1.loadEarly core a).towerWrap 0xB103 tw products).towerWrap 0xB104 tw gated);
        let sum := passAccumulate ws faults t.acc stream.1 blocks; let ev := stream.2 ++ (held.flatMap fun c => match c with
      | some x => x.2
      | none => []) ++ sum.2;
        let vx := ((v.chargeTile core t 0 (products - gated)).chargeTile core t 1 gated).countEvents core ev;
        let n := { t with acc := sum.1, pass := t.pass + 1, held := d.next, counted := t.counted || !ev.isEmpty };
        decide ((((vx.towerWrap 0xB101 tw 1).finishTile core a n 0x06 false).markSuspect core a).tileSettledB core a))
      | _ => false)) = true := by decide +kernel

theorem witness_TilePassesAccumulate_7 :
    (let s : State := (fh (qp [] (qp [] (tr tr2S)))); let core : Nat := 0; let a : Nat := 2;
    (decide (s.coreUp core = true) &&
      match (s.array core a).tiles with
      | t :: _ => (decide (t.running = true ∧ t.begun = true ∧ (s.array core a).halted = false) &&
        let (d, _) := s.readPass core a t; decide (d.result.waiting = false ∧ d.result.status = 0 ∧ d.reqs ≠ t.reqs))
      | _ => false)) = true := by decide +kernel

end Case7

namespace Case8

def cx (c : Sys2Proof.Machine.Core) : S := { w0 [1] with cores := [(0, c)] }
def z := List.replicate 1 (0 : Word32)
def tile1 : Tile := { words := tws, key := 0, reqs := [{ n := 1, held := 0x3000, heldScale := 0, out := 0x4000, target := .counter 0 0 1 }], opened := false, running := true, holdEnd := 0, acc := z, y0 := z }
def ta (u : ArrayUnit) : S := { cx {} with cores := [(0, { arrays := [(2, u)], sats := [(1, 1)] })], fields := [(0, { rail := .powered, ramp := some (8, 0) })] }
def smp : Sample := { m := 0, n := 0, y0 := 0, yOut := 0, tol := 0, since := 0 }
def gs (u : ArrayUnit) : S := { ta { u with done := [tile1], sample := some smp, lfsr := 4 } with run := 10000 }
def gsb : S := (gs {}).setCrc (storeAddr 0 0x1000 / 64) 5
def gsy : S := { (gs {}) with cores := [(0, { arrays := [(2, { done := [tile1], sample := some { smp with yOut := 0x42000000 } })] })] }
def gsq (s : S) : S := served (s.gooseRead 0 2 tile1 ((s.array 0 2).sample.getD smp) (tilePasses tile1.words) 0).2.2
def tileG : Tile := { tile1 with words := [tws.headD 0 ||| 1 <<< 46, BitVec.ofNat 64 (sliceBase + 0x1000), 0, 0x3000, 0, 0x4000, 0, 0] }
def ev : S := { w0 [1] with steward := { running := true }, now := 50000000 }
def pf : S := { w0 [1] with now := 5000, fields := [(0, { rail := .powered, target := 1500 })] }
def pf1 (k : Field) : S := { pf with fields := [(0, k)] }
def qd : Queue := { enable := true, ringLog2 := 4, ringAddr := 0x8000 }
def qst (k : Queue) : S := { w0 [1] with queues := [(3, k)] }
def qk : S := qst { qd with pi := 1, ci := 1, taken := [⟨0, 0, Option.none⟩] }
def qk1 : S := (qk.writeRange (qk.slotAddr 3 0 + 6) [BitVec.ofNat 8 (128 + 0), 5] Option.none).2

theorem witness_GooseAndNumericCounters_1 :
    (let s : State := (gsq (gsq gsy)); let core : Nat := 0; let a : Nat := 2; let v : Word32 := 5;
    (let u := s.array core a; match u.sample with
      | some smp => (match u.done with
      | t :: _ => (decide (s.coreUp core = true ∧ s.gooseMay core a smp = true) &&
        let (r, pairs, s1) := s.gooseRead core a t smp (tilePasses t.words) 0; decide (r.waiting = false) &&
        let tw := coreTower core; let sum := gooseSum smp.y0 (f32Abs smp.y0) pairs; let s2 := s1.towerWrap 0xB210 tw 1;
        let w := if r.status ≠ 0 then (s1.towerWrap 0xB212 tw 1).releaseSample core a else if gooseAgrees (tileO t.words) smp.tol smp.yOut sum.1 sum.2 then s2.releaseSample core a else (s2.gooseDisagree core a (gooseRecord (s2.refTime tw) sum.1 smp.yOut sum.2 core a smp t.words)).releaseSample core a;
        let who := Agent.goose core a; decide (w.settledB who))
      | _ => false)
      | _ => false) &&
    (let u := s.array core a; match u.sample with
      | some smp => (decide (s.coreUp core = true ∧ smp.since + nsCycles (s.reg 0x8100 6) ≤ s.run))
      | _ => false) &&
    (decide (s.steward.lost = false)) &&
    (decide (s.steward.lost = false ∧ v.getLsbD 31 = false) &&
      let n := v.toNat % 2 ^ 14; decide (coreExists n = true) &&
      let c := s.core n; decide (c.cycleAt = s.now))) = true := by decide +kernel

theorem witness_GooseAndNumericCounters_2 :
    (let s : State := (gs {}); let v : Word32 := 0x80000000;
    (decide (s.steward.lost = false ∧ v.getLsbD 31 = true))) = true := by decide +kernel

theorem witness_GooseAndNumericCounters_3 :
    (let s : State := { (gs {}) with cores := [(0, { arrays := [(2, { done := [tileG], sample := some smp })] })] };
      let core : Nat := 0; let a : Nat := 2;
    (let u := s.array core a; match u.sample with
      | some smp => (match u.done with
      | t :: _ => (decide (s.coreUp core = true ∧ s.gooseMay core a smp = true) &&
        let (r, _, s1) := s.gooseRead core a t smp (tilePasses t.words) 0; decide (r.waiting = true) &&
        let who := Agent.goose core a; decide (s1.awaitsB [who]))
      | _ => false)
      | _ => false)) = true := by decide +kernel

theorem witness_GooseAndNumericCounters_4 :
    (let s : State := { (gs {}) with now := 7 }; let v : Word32 := 5;
    (decide (s.steward.lost = false ∧ v.getLsbD 31 = false) &&
      let n := v.toNat % 2 ^ 14; decide (coreExists n = true) &&
      let c := s.core n; decide (c.cycleAt ≠ s.now))) = true := by decide +kernel

theorem witness_EventsAndTheSteward_1 :
    (let s : State := ev; let segment : Nat := 7;
    (decide ((s.steward.running = true ∨ s.boot.started = true) ∧ s.steward.lost = false)) &&
    (decide (s.steward.running = true ∧ s.reg 0x9010 3 = 1 ∧ s.steward.lastHeartbeat + msCycles 5 ≤ s.now ∧
        s.steward.lost = false)) &&
    (decide (segment < 8 ∧ s.steward.lost = false))) = true := by decide +kernel

theorem witness_EventsAndTheSteward_2 :
    (let s : State := ev;
    (decide (s.steward.lost = false)) &&
    (decide (s.steward.lost = false) && let i := (5 : Nat); decide (i ≠ s.reg 0xA200 2))) = true := by decide +kernel

theorem witness_EventsAndTheSteward_3 :
    (let s : State := { ev with steward := { lost := true } };
    (decide (s.steward.lost = true))) = true := by decide +kernel

theorem witness_EventsAndTheSteward_4 :
    (let s : State := { ev with steward := {}, boot := { started := true } };
    (decide (s.steward.running = false ∧ s.boot.started = true ∧ s.boot.inputLoss = false ∧ s.reg 0x9000 1 = 0 ∧
        s.steward.lastHeartbeat + msCycles 5 ≤ s.now))) = true := by decide +kernel

theorem witness_EventsAndTheSteward_5 :
    (let s : State := (ev.setReg 0x9010 3 0);
    (decide (s.steward.running = true ∧ s.reg 0x9010 3 = 0 ∧
        s.steward.lastHeartbeat + msCycles 6 ≤ s.now))) = true := by decide +kernel

theorem witness_PaceLoops_1 :
    (let s : State := { (w0 [1]) with now := 5000 }; let core : Nat := 0; let level : Nat := 2; let tower : Nat := 7;
    (decide (coreExists core = true ∧ s.fieldUp (coreField core) = true ∧ level ≠ 0)) &&
    (decide (tower < 8 ∧ (s.linksRail tower).windowAt + usCycles 1 ≤ s.now)) &&
    (decide (s.steward.lost = false))) = true := by decide +kernel

theorem witness_PaceLoops_2 :
    (let s : State := (w0 [1]); let tower : Nat := 7;
    (decide (s.now < (s.linksRail tower).windowAt + usCycles 1))) = true := by decide +kernel

theorem witness_PaceLoops_3 :
    (let s : State := (w0 [1]); let f : Nat := 0;
    (decide (s.now < (s.field f).windowAt + usCycles 1))) = true := by decide +kernel

theorem witness_PaceLoops_4 :
    (let s : State := (pf1 { rail := .powered, target := max 1000 (pf.lowestLimit 0) }); let f : Nat := 0;
      let count : Nat := 1500;
    (decide (f < 64 ∧ s.fieldUp f = true ∧ (s.field f).windowAt + usCycles 1 ≤ s.now) &&
      let k := s.field f;
      decide (k.ringFault = false ∧ 500 ≤ count ∧ count ≤ 2200 ∧ k.since = none ∧ k.falling = none ∧
        k.target = max 1000 (s.lowestLimit f)))) = true := by decide +kernel

theorem witness_PaceLoops_5 :
    (let s : State := (pf1 { rail := .powered, target := max 1000 (pf.lowestLimit 0) }); let f : Nat := 0; let count : Nat := 499;
    (decide (f < 64 ∧ s.fieldUp f = true ∧ (s.field f).windowAt + usCycles 1 ≤ s.now) &&
      let k := s.field f; decide (k.ringFault = true ∨ count < 500 ∨ 2200 < count))) = true := by decide +kernel

theorem witness_PaceLoops_6 :
    (let s : State := { (w0 [1]) with now := 5000 }; let f : Nat := 3;
    (decide (f < 64 ∧ s.fieldUp f = false ∧ (s.field f).windowAt + usCycles 1 ≤ s.now))) = true := by decide +kernel

theorem witness_DoorbellSetsTheProducerIndex_1 :
    (let s : State := (qst qd); let q : Nat := 3; let v : BitVec 64 := 16;
    (decide (s.host.ops = [] ∧ s.host.mbRung = false ∧ s.running = true ∧ s.dm.published = true ∧ s.reg 0x3000 7 ≠ 4 ∧
        queueExists q = true ∧ s.inService (queueCore q) = true ∧ (s.queue q).producer = false ∧
        (s.queue q).ringValid q = true) &&
      let new : Word32 := v.truncate 32; let k := s.queue q; decide (new ≠ k.pi) &&
      let fills := (new - k.ci).toNat;
      decide ((k.pi - k.ci).toNat ≤ fills ∧ fills ≤ 2 ^ k.ringLog2.toNat))) = true := by decide +kernel

theorem witness_DoorbellSetsTheProducerIndex_2 :
    (let s : State := (qst qd); let q : Nat := 3; let v : BitVec 64 := 17;
    (decide (s.host.ops = [] ∧ s.host.mbRung = false ∧ s.running = true ∧ s.dm.published = true ∧ s.reg 0x3000 7 ≠ 4 ∧
        queueExists q = true ∧ s.inService (queueCore q) = true ∧ (s.queue q).producer = false ∧
        (s.queue q).ringValid q = true) &&
      let new : Word32 := v.truncate 32; let k := s.queue q; let fills := (new - k.ci).toNat;
      decide ((fills < (k.pi - k.ci).toNat ∨ 2 ^ k.ringLog2.toNat < fills) ∧ s.steward.lost = false))) = true := by decide +kernel

theorem witness_DoorbellSetsTheProducerIndex_3 :
    (let s : State := (qst { qd with pi := 2 }); let q : Nat := 3; let v : BitVec 64 := 2;
    (decide (s.host.ops = [] ∧ s.host.mbRung = false ∧ s.running = true ∧ s.dm.published = true ∧ s.reg 0x3000 7 ≠ 4 ∧
        queueExists q = true ∧ s.inService (queueCore q) = true ∧ (s.queue q).producer = false ∧
        (s.queue q).ringValid q = true) &&
      let new : Word32 := v.truncate 32; let k := s.queue q; decide (new = k.pi) &&
      let fills := (new - k.ci).toNat; decide (fills ≤ 2 ^ k.ringLog2.toNat))) = true := by decide +kernel

theorem witness_QueueControlBlocks_1 :
    (let s : State := (qst { qd with enable := false }); let q : Nat := 3; let v : BitVec 64 := 0x8000000000000001;
    (decide (queueExists q = true ∧ s.running = true) && let k := s.queue q; decide (k.enable = false)) &&
    (decide (queueExists q = true ∧ s.running = true ∧ v.getLsbD 63 = true) &&
      let k := s.queue q; decide (k.enable = false) &&
      let n := v.toNat;
      let kept : Queue := { k with priority := BitVec.ofNat 2 (n / 2 ^ 60), switchWidth := some (BitVec.ofNat 8 (n / 2 ^ 42)), notifyMsix := v.getLsbD 52, notifyRecord := v.getLsbD 51, notifySync := v.getLsbD 50 };
      let new : Queue := { kept with producer := v.getLsbD 62, ringSpace := BitVec.ofNat 2 (n / 2 ^ 58), ringLog2 := BitVec.ofNat 5 (n / 2 ^ 53), msixVector := BitVec.ofNat 11 (n / 2 ^ 30) };
      decide (¬ ( new.ringValid q = true ∧ v.toNat % 2 ^ 30 = 0 ∧ v.getLsbD 41 = false ∧ s.inService (queueCore q) = true) ∧
        s.steward.lost = false)) &&
    (decide (queueExists q = true ∧ s.running = true) && let k := s.queue q; decide (k.enable = false ∧ k.taken = [])) &&
    (decide (queueExists q = true ∧ s.running = true) &&
      let k := s.queue q;
      decide (k.enable = false ∧ k.taken = [] ∧ k.waiting = none ∧ k.pi = k.ci))) = true := by decide +kernel

theorem witness_QueueControlBlocks_2 :
    (let s : State := (qst qd); let q : Nat := 3; let v : BitVec 64 := 0x1234567890;
    (decide (queueExists q = true ∧ s.running = true) && let k := s.queue q; decide (k.enable = true)) &&
    (decide (queueExists q = true ∧ s.running = true ∧ v.getLsbD 63 = false) &&
      let k := s.queue q; decide (k.enable = true))) = true := by decide +kernel

theorem witness_QueueControlBlocks_3 :
    (let s : State := (qst { qd with enable := false, pi := 1 }); let q : Nat := 3; let v : BitVec 64 := 0x1234567890;
    (decide (queueExists q = true ∧ s.running = true ∧ v.getLsbD 63 = false) && let k := s.queue q; decide (k.enable = false)) &&
    (decide (queueExists q = true ∧ s.running = true) &&
      let k := s.queue q;
      decide (k.enable = false ∧ k.taken = [] ∧ k.waiting = none ∧ k.pi = k.ci + 1))) = true := by decide +kernel

theorem witness_QueueControlBlocks_4 :
    (let s : State := qk; let q : Nat := 3; let i : Nat := 0; let st : Status := 5;
    (let k := s.queue q; match k.taken.find? (fun t => t.index == i && t.ending.isNone) with
      | some d => (decide (s.frameOf q i = none ∧ k.ringSpace ≠ 2 ∧ s.slotFails (s.slotAddr q i) = false ∧
          k.notifyRecord = false) &&
        let (p0, s1) := s.writeRange (s.slotAddr q i + 6) [BitVec.ofNat 8 (128 + d.word0.toNat / 2 ^ 48 % 128),
          BitVec.ofNat 8 st.toNat] none;
        decide (p0 = 0 ∧ k.notifySync = false ∧ k.notifyMsix = false ∧ s1.queue q = k))
      | _ => false) &&
    (let k := s.queue q; match k.taken.find? (fun t => t.index == i && t.ending.isNone) with
      | some d => (decide (s.frameOf q i = none ∧ k.ringSpace ≠ 2 ∧ s.slotFails (s.slotAddr q i) = false ∧
          k.notifyRecord = false) &&
        let (p0, s1) := s.writeRange (s.slotAddr q i + 6) [BitVec.ofNat 8 (128 + d.word0.toNat / 2 ^ 48 % 128),
          BitVec.ofNat 8 st.toNat] none;
        decide (p0 = 0 ∧ k.notifySync = false ∧ k.notifyMsix = false) &&
        let j := (9 : Nat); decide (j ≠ q ∧ s1.queue q = k))
      | _ => false)) = true := by decide +kernel

theorem witness_QueueControlBlocks_5 :
    (let s : State := (qst { qd with enable := false, pi := 0 }); let q : Nat := 3; let v : BitVec 64 := 0x80A0000000000000;
    (decide (queueExists q = true ∧ s.running = true ∧ v.getLsbD 63 = true) &&
      let k := s.queue q; decide (k.enable = false) &&
      let n := v.toNat;
      let kept : Queue := { k with priority := BitVec.ofNat 2 (n / 2 ^ 60), switchWidth := some (BitVec.ofNat 8 (n / 2 ^ 42)), notifyMsix := v.getLsbD 52, notifyRecord := v.getLsbD 51, notifySync := v.getLsbD 50 };
      let new : Queue := { kept with producer := v.getLsbD 62, ringSpace := BitVec.ofNat 2 (n / 2 ^ 58), ringLog2 := BitVec.ofNat 5 (n / 2 ^ 53), msixVector := BitVec.ofNat 11 (n / 2 ^ 30) };
      decide (new.ringValid q = true ∧ v.toNat % 2 ^ 30 = 0 ∧ v.getLsbD 41 = false ∧
        s.inService (queueCore q) = true))) = true := by decide +kernel

theorem witness_QueueControlBlocks_6 :
    (let s : State := (qst qd); let q : Nat := 3; let v : BitVec 64 := 0x8000001234567890;
    (decide (queueExists q = true ∧ s.running = true ∧ v.getLsbD 63 = true) &&
      let k := s.queue q; decide (k.enable = true))) = true := by decide +kernel

theorem witness_QueueControlBlocks_7 :
    (let s : State := ((qst { qd with enable := false, pi := 1 }).setReg 0xA001 3 1);
    (decide (s.running = false))) = true := by decide +kernel

theorem witness_QueueControlBlocks_8 :
    (let s : State := (qst { qd with pi := 1, ci := 1, notifySync := true, taken := [⟨0, 0, Option.none⟩] });
      let q : Nat := 3; let i : Nat := 0; let st : Status := 5;
    (let k := s.queue q; match k.taken.find? (fun t => t.index == i && t.ending.isNone) with
      | some d => (decide (s.frameOf q i = none ∧ k.ringSpace ≠ 2 ∧ s.slotFails (s.slotAddr q i) = false ∧
          k.notifyRecord = false) &&
        let (p0, s1) := s.writeRange (s.slotAddr q i + 6) [BitVec.ofNat 8 (128 + d.word0.toNat / 2 ^ 48 % 128),
          BitVec.ofNat 8 st.toNat] none;
        decide (p0 = 0 ∧ k.notifySync = true ∧ s1.queue q = k))
      | _ => false)) = true := by decide +kernel

end Case8

namespace Case9

def qd : Queue := { enable := true, ringLog2 := 4, ringAddr := 0x8000 }
def qst (k : Queue) : S := { w0 [1] with queues := [(3, k)] }
def dk : S := qst { qd with pi := 1, priority := 2 }
def dkr : S := qst { qd with pi := 1, priority := 2, ringAddr := storeAddr 0 0x8000 }
def dkd : S := { dk with reqs := [{ id := 7, src := .unit (.dispatcher 0), kind := .read 64, addr := 0x8000, loc := 0x8000, stage := .done, status := 0, data := words [5 <<< 56, 1,2,3,4,5,6,7] }] }
def dke : S := { dk with reqs := [{ id := 7, src := .unit (.dispatcher 0), kind := .read 64, addr := 0x8000, loc := 0x8000, stage := .done, status := 0x01, data := [] }] }
def dks : S := served (put (dk.readRange (dk.slotAddr 3 0) 64 (.dispatcher 0)).2 (dk.slotAddr 3 0) (words [5 <<< 56,
    1,2,3,4,5,6,7]))
def rqw (k : ReqKind) : Req := { id := 7, src := .thread 0 0 0, kind := k, addr := 0x1000, loc := 0x1000 }
def cw : S := { w0 [1] with reqs := [rqw (.write [1,2])] }
def inf : InFlight := { line := 5, reqs := [7], prefetch := false, spread := false, due := 0 }
def cf (f : InFlight) : S := { cw with channels := [(0, { flight := [f] })] }
def cfp : S := { cf inf with mem := { check := [(5, poisonDiff)] } }
def cfq : S := (cf inf).setCheck 5 0
def cff : S := { cw with channels := [(0, { fifo := [7] })], reqs := [{ rqw (.write [1,2]) with stage := .arrived }] }
def fw (n : Nat) : S := { cff with channels := [(0, { fifo := [7], window := List.replicate n { reqs := [3], line := 1, isRead := false, arrival := 0, fromCore := true, spread := false } })] }
def hfr : S := { cw with channels := [(0, { ranges := [{ desc := 0, cmd := 0, hen := Option.none, lo := 0x1000, hi := 0x1040, write := true }] })] }

theorem witness_DispatcherTakesByLevel_1 :
    (let s : State := dks; let core : Nat := 0;
    (match s.pick core with | some (_, _) => (true) | _ => false) &&
    (match s.pick core with
      | some (_, _) => (let m := (3 : Nat); decide (m < 32 ∧ s.eligible (core * 32 + m) = true))
      | _ => false) &&
    (let m := (3 : Nat); decide (m < 32 ∧ s.eligible (core * 32 + m) = true)) &&
    (decide (s.coreUp core = true ∧ s.doorbellHeld = false ∧ s.rerunWaits core = false) &&
      match s.pick core with
      | some (lvl, n) => (let q := core * 32 + n; let i := (s.queue q).ci.toNat; let who := Agent.dispatcher core;
        let (r, v) := s.readRange (s.slotAddr q i) 64 who; decide (r.waiting = false) &&
        let words := (List.range 8).map fun j => BitVec.ofNat 64 (bytesToNat ((r.bytes.drop (8 * j)).take 8));
        let u := v.setQueue q { v.queue q with ci := (s.queue q).ci + 1, taken := (v.queue q).taken ++ [⟨i, if r.status = 0 then words.getD 0 0 else 0, none⟩], aged := false, eligibleSince := none };
        let ux := u.setCore core { u.core core with lastTaken := Map.set 31 (u.core core).lastTaken lvl n, ledger := (u.core core).ledger.map fun e => if e.queue = q ∧ e.index = i then { e with startedAt := some u.run } else e };
        let uxx := ux.towerWrap 0xB700 (coreTower core) 1;
        let uxxx := if lvl = 4 then uxx.towerWrap 0xB703 (coreTower core) 1 else uxx;
        let t := if r.status = 0 then uxxx.perform q i words else uxxx.completeRing q i r.status; decide (t.settledB who))
      | _ => false)) = true := by decide +kernel

theorem witness_DispatcherTakesByLevel_2 :
    (let s : State := (qst { qd with eligibleSince := some 0 }); let q : Nat := 3; let f : Nat := 0; let t0 : Nat := 0;
    (decide ((s.queue q).eligibleSince = some t0 ∧ (s.reg 0x6000 1 = 0 ∨ s.run < t0 + s.reg 0x6000 1 * 1200))) &&
    (decide (f < 64 ∧ s.running = true))) = true := by decide +kernel

theorem witness_DispatcherTakesByLevel_3 :
    (let s : State := (w0 [1]); let core : Nat := 0;
    (decide (s.coreUp core = false ∨ s.pick core = none ∨ s.rerunWaits core = true ∨ s.doorbellHeld = true))) = true := by decide +kernel

theorem witness_DispatcherTakesByLevel_4 :
    (let s : State := ({ (qst { qd with eligibleSince := some 0 }) with run := 120000 }); let q : Nat := 3; let t0 : Nat := 0;
    (decide ((s.queue q).eligibleSince = some t0 ∧ s.reg 0x6000 1 ≠ 0 ∧
        t0 + s.reg 0x6000 1 * 1200 ≤ s.run))) = true := by decide +kernel

theorem witness_DispatcherTakesByLevel_5 :
    (let s : State := ((w0 [1]).setReg 0xA001 3 1);
    (decide (s.running = false))) = true := by decide +kernel

theorem witness_ChannelWindowAndCommands_1 :
    (let s : State := cfq; let id : Nat := 7; let ch : Nat := 0; let off : Nat := 0x1000; let i : Nat := 7;
      let r : Req := (rqw (.write [1,2])); let f : InFlight := inf; let rest : List InFlight := [];
    (decide (s.running = true ∧ s.findReq id = some r ∧ r.stage = .sent ∧ s.isOwn (r.addr / 2 ^ 48 % 64) = true ∧
        s.behindSameLine r = false ∧ placeOf r.loc = .dram ch off) &&
      let c := s.channel ch; decide (c.fifo.length < 16 ∧ s.portTurn r = true)) &&
    (decide (s.running = true ∧ (s.upChannel r = none ∨ s.upFull ch = false) ∧
        s.reachStatus (r.src.tower.getD (coreTower ch)) (.dram ch (r.loc % channelBytes)) = 0 ∧
        s.henFenced ch (r.loc % channelBytes) r.isRead = false ∧ r.isRead = false) &&
      let c := s.channel ch; decide (c.window.length < 64) &&
      let mine := (c.window.filter fun e => e.fromCore == s.fromAbove ch r).length; decide (mine < 56) &&
      let line := r.loc % channelBytes / 64; decide (c.held (lineBank line) = false)) &&
    (decide (s.running = true) &&
      let c := s.channel ch;
      decide (c.flight = f :: rest ∧ f.due ≤ s.run ∧ f.got = none ∧
        (∀ i ∈ f.reqs, ∀ r, s.findReq i = some r → ∀ k, s.upChannel r = some k → s.upFull k = false) ∧ f.rmw = false ∧
        f.scrub = false ∧ f.prefetch = false ∧ f.reqs = [i] ∧ f.line < 2 ^ 20) &&
      let a := dramAddr ch (f.line * 64); decide (s.checkOf (a / 64) = 0))) = true := by decide +kernel

theorem witness_ChannelWindowAndCommands_2 :
    (let s : State := cw; let ch : Nat := 0;
    (decide (coreExists ch = true ∧ s.running = true) &&
      let free := (∀ n, (s.channel ch).commandAt = some n → n < s.run) ∧ s.run ∉ (s.channel ch).slots; decide (free)) &&
    (decide (coreExists ch = true ∧ s.running = true) &&
      let free := (∀ n, (s.channel ch).commandAt = some n → n < s.run) ∧ s.run ∉ (s.channel ch).slots; decide (free)) &&
    (decide (coreExists ch = true ∧ s.running = true) &&
      let free := (∀ n, (s.channel ch).commandAt = some n → n < s.run) ∧ s.run ∉ (s.channel ch).slots;
      decide (free))) = true := by decide +kernel

theorem witness_ChannelWindowAndCommands_3 :
    (let s : State := (fw 56); let id : Nat := 7; let ch : Nat := 0; let r : Req := { rqw (.write [1,2]) with stage := .arrived };
    (decide (s.running = true) &&
      let c := s.channel ch; decide (c.fifo = [id] ∧ s.findReq id = some r ∧ s.enterWindow ch r = none)) &&
    (decide (s.running = true ∧ (s.upChannel r = none ∨ s.upFull ch = false) ∧
        s.reachStatus (r.src.tower.getD (coreTower ch)) (.dram ch (r.loc % channelBytes)) = 0 ∧
        s.henFenced ch (r.loc % channelBytes) r.isRead = false ∧ r.isRead = false) &&
      let c := s.channel ch; let mine := (c.window.filter fun e => e.fromCore == s.fromAbove ch r).length;
      decide (64 ≤ c.window.length ∨ 56 ≤ mine))) = true := by decide +kernel

theorem witness_ChannelWindowAndCommands_4 :
    (let s : State := { cw with channels := [(0, { fifo := List.range 16 })] }; let id : Nat := 7; let ch : Nat := 0;
      let off : Nat := 0x1000; let r : Req := (rqw (.write [1,2]));
    (decide (s.running = true ∧ s.findReq id = some r ∧ r.stage = .sent ∧ s.isOwn (r.addr / 2 ^ 48 % 64) = true ∧
        s.behindSameLine r = false ∧ placeOf r.loc = .dram ch off) &&
      let c := s.channel ch; decide (16 ≤ c.fifo.length ∨ s.portTurn r = false))) = true := by decide +kernel

theorem witness_ChannelWindowAndCommands_5 :
    (let s : State := cff; let id : Nat := 7; let ch : Nat := 0; let r : Req := { rqw (.write [1,2]) with stage := .arrived };
    (decide (s.running = true) &&
      let c := s.channel ch; decide (c.fifo = [id] ∧ s.findReq id = some r) &&
      match s.enterWindow ch r with
      | some _ => (true)
      | _ => false)) = true := by decide +kernel

theorem witness_ChannelWindowAndCommands_6 :
    (let s : State := cfp; let ch : Nat := 0; let i : Nat := 7; let f : InFlight := inf;
      let rest : List InFlight := [];
    (decide (s.running = true) &&
      let c := s.channel ch;
      decide (c.flight = f :: rest ∧ f.due ≤ s.run ∧ f.got = none ∧
        (∀ i ∈ f.reqs, ∀ r, s.findReq i = some r → ∀ k, s.upChannel r = some k → s.upFull k = false) ∧ f.rmw = false ∧
        f.scrub = false ∧ f.prefetch = false ∧ f.reqs = [i] ∧ f.line < 2 ^ 20) &&
      let a := dramAddr ch (f.line * 64); decide (s.checkOf (a / 64) = poisonDiff))) = true := by decide +kernel

theorem witness_ChannelWindowAndCommands_7 :
    (let s : State := (cf { inf with rmw := true }); let ch : Nat := 0; 
      let f : InFlight := { inf with rmw := true }; let rest : List InFlight := [];
    (decide (s.running = true) &&
      let c := s.channel ch;
      decide (c.flight = f :: rest ∧ f.due ≤ s.run ∧ f.got = none ∧
        (∀ i ∈ f.reqs, ∀ r, s.findReq i = some r → ∀ k, s.upChannel r = some k → s.upFull k = false) ∧
        f.rmw = true))) = true := by decide +kernel

theorem witness_ChannelWindowAndCommands_8 :
    (let s : State := hfr; let ch : Nat := 0; let r : Req := (rqw (.write [1,2]));
    (decide (s.running = true ∧ (s.upChannel r = none ∨ s.upFull ch = false) ∧
        s.reachStatus (r.src.tower.getD (coreTower ch)) (.dram ch (r.loc % channelBytes)) = 0 ∧
        s.henFenced ch (r.loc % channelBytes) r.isRead = true))) = true := by decide +kernel

theorem witness_ChannelWindowAndCommands_9 :
    (let s : State := { cw with channels := [(0, { commandAt := some 0 })] }; let ch : Nat := 0;
    (decide (coreExists ch = true ∧ (s.running = false ∨ (∃ n, (s.channel ch).commandAt = some n ∧
        s.run ≤ n) ∨ s.run ∈ (s.channel ch).slots)))) = true := by decide +kernel

end Case9

namespace Case10

def rs (k : ReqKind) (a : Nat) : Req := { id := 7, src := .thread 0 0 0, kind := k, addr := a, loc := a }
def pw (k : ReqKind) : S := put { w0 [1] with reqs := [rs k (storeAddr 0 0x100)] } (storeAddr 0 0x100) [1,2,3,4,5,6,7,8,9]
def pl : S := (pw (.read 4)).setBank 0 4 { servedAt := 1, served := 0 }
def sl (k : ReqKind) : S := put { w0 [1] with reqs := [rs k (sliceBase + 0x100)] } (sliceBase + 0x100) [1,2,3,4,5,6,7,8,9]
def sp : S := { w0 [1] with now := 5000000000000, channels := [(3, { spreadLines := 70000 })] }

theorem witness_PacketsServedAtACoreStore_1 :
    (let s : State := (pw (.read 4)); let id : Nat := 7; let core : Nat := 0; let ctx : Nat := 0; let serial : Nat := 0;
      let c : Nat := 0; let off : Nat := 0x100;
    (decide (s.running = true) &&
      match s.findReq id with
      | some r => (decide (r.id = id ∧ r.stage = .sent ∧ r.src = .thread core ctx serial ∧
          s.isOwn (r.addr / 2 ^ 48 % 64) = true ∧ s.behindSameLine r = false ∧ s.reqTravels r = false ∧ s.portTurn r = true ∧
          placeOf r.loc = .store c off ∧ s.reachStatus (coreTower core) (.store c off) = 0) &&
        let b := s.bank c (storeBank off); decide (b.wins 15 s.now = true) &&
        match r.kind with
      | .read _ => (decide (s.lineOkB (r.loc / 64) (.thread core ctx)))
      | _ => false)
      | _ => false) &&
    (decide (s.running = true) &&
      match s.findReq id with
      | some r => (decide (r.id = id ∧ r.stage = .sent ∧ r.src = .thread core ctx serial ∧
          s.isOwn (r.addr / 2 ^ 48 % 64) = true ∧ s.behindSameLine r = false ∧ s.reqTravels r = false ∧ s.portTurn r = true ∧
          placeOf r.loc = .store c off ∧ s.reachStatus (coreTower core) (.store c off) = 0) &&
        let b := s.bank c (storeBank off); decide (b.wins 15 s.now = true) &&
        match r.kind with
      | .read _ => (
        
        true)
      | _ => false)
      | _ => false)) = true := by decide +kernel

theorem witness_PacketsServedAtACoreStore_2 :
    (let s : State := (pw (.write [9,9])); let id : Nat := 7; let core : Nat := 0; let ctx : Nat := 0; let serial : Nat := 0;
      let c : Nat := 0; let off : Nat := 0x100;
    (decide (s.running = true) &&
      match s.findReq id with
      | some r => (decide (r.id = id ∧ r.stage = .sent ∧ r.src = .thread core ctx serial ∧
          s.isOwn (r.addr / 2 ^ 48 % 64) = true ∧ s.behindSameLine r = false ∧ s.reqTravels r = false ∧ s.portTurn r = true ∧
          placeOf r.loc = .store c off ∧ s.reachStatus (coreTower core) (.store c off) = 0) &&
        let b := s.bank c (storeBank off); decide (b.wins 15 s.now = true) &&
        match r.kind with
      | .write _ => (true)
      | _ => false)
      | _ => false)) = true := by decide +kernel

theorem witness_PacketsServedAtACoreStore_3 :
    (let s : State := (pw (.atomic .cas 3 4)); let id : Nat := 7; let core : Nat := 0; let ctx : Nat := 0;
      let serial : Nat := 0; let c : Nat := 0; let off : Nat := 0x100;
    (decide (s.running = true) &&
      match s.findReq id with
      | some r => (decide (r.id = id ∧ r.stage = .sent ∧ r.src = .thread core ctx serial ∧
          s.isOwn (r.addr / 2 ^ 48 % 64) = true ∧ s.behindSameLine r = false ∧ s.reqTravels r = false ∧ s.portTurn r = true ∧
          placeOf r.loc = .store c off ∧ s.reachStatus (coreTower core) (.store c off) = 0) &&
        let b := s.bank c (storeBank off); decide (b.wins 15 s.now = true) &&
        match r.kind with
      | .atomic _ _ _ => (decide (s.lineOkB (r.loc / 64) (.thread core ctx)))
      | _ => false)
      | _ => false)) = true := by decide +kernel

theorem witness_PacketsServedAtACoreStore_4 :
    (let s : State := pl; let id : Nat := 7; let core : Nat := 0; let ctx : Nat := 0; let serial : Nat := 0; let c : Nat := 0;
      let off : Nat := 0x100;
    (decide (s.running = true) &&
      match s.findReq id with
      | some r => (decide (r.id = id ∧ r.stage = .sent ∧ r.src = .thread core ctx serial ∧
          s.isOwn (r.addr / 2 ^ 48 % 64) = true ∧ s.behindSameLine r = false ∧ s.reqTravels r = false ∧ s.portTurn r = true ∧
          placeOf r.loc = .store c off ∧ s.reachStatus (coreTower core) (.store c off) = 0) &&
        let b := s.bank c (storeBank off); decide (b.wins 15 s.now = false))
      | _ => false)) = true := by decide +kernel

theorem witness_PacketsServedAtACoreStore_5 :
    (let s : State := (sl (.read 4)); let id : Nat := 7; let core : Nat := 0; let ctx : Nat := 0; let serial : Nat := 0;
      let c : Nat := 0; let off : Nat := 0x100;
    (decide (s.running = true) &&
      match s.findReq id with
      | some r => (decide (r.id = id ∧ r.stage = .sent ∧ r.src = .thread core ctx serial ∧
          s.isOwn (r.addr / 2 ^ 48 % 64) = true ∧ s.behindSameLine r = false ∧ s.reqTravels r = false ∧ s.portTurn r = true ∧
          placeOf r.loc = .slice c off ∧ s.reachStatus (coreTower core) (.slice c off) = 0) &&
        match r.kind with
      | .read _ => (decide (s.lineOkB (r.loc / 64) (.thread core ctx)))
      | _ => false)
      | _ => false)) = true := by decide +kernel

theorem witness_PacketsServedAtACoreStore_6 :
    (let s : State := (sl (.write [9,9])); let id : Nat := 7; let core : Nat := 0; let ctx : Nat := 0; let serial : Nat := 0;
      let c : Nat := 0; let off : Nat := 0x100;
    (decide (s.running = true) &&
      match s.findReq id with
      | some r => (decide (r.id = id ∧ r.stage = .sent ∧ r.src = .thread core ctx serial ∧
          s.isOwn (r.addr / 2 ^ 48 % 64) = true ∧ s.behindSameLine r = false ∧ s.reqTravels r = false ∧ s.portTurn r = true ∧
          placeOf r.loc = .slice c off ∧ s.reachStatus (coreTower core) (.slice c off) = 0) &&
        match r.kind with
      | .write _ => (true)
      | _ => false)
      | _ => false)) = true := by decide +kernel

theorem witness_PacketsServedAtACoreStore_7 :
    (let s : State := { (pw (.read 4)) with fields := [] }; let id : Nat := 7; let core : Nat := 0; let ctx : Nat := 0;
      let serial : Nat := 0; let c : Nat := 0; let off : Nat := 0x100;
    (decide (s.running = true) &&
      match s.findReq id with
      | some r => (decide (r.id = id ∧ r.stage = .sent ∧ r.src = .thread core ctx serial ∧
          s.isOwn (r.addr / 2 ^ 48 % 64) = true ∧ s.behindSameLine r = false ∧ s.reqTravels r = false ∧ s.portTurn r = true ∧
          (placeOf r.loc = .store c off ∨ placeOf r.loc = .slice c off) ∧ s.reachStatus (coreTower core) (placeOf r.loc) ≠ 0))
      | _ => false)) = true := by decide +kernel

theorem witness_SpreadHashAndItsWatch_1 :
    (let s : State := { sp with hashWatch := [(0, { consecutive := 1000 })] }; let sub : Nat := 9; let t : Nat := 0;
    (decide (t < 8 ∧ s.steward.lost = false ∧ 1 ≤ sub ∧ sub ≤ 9)) &&
    (decide (t < 8) &&
      let w := Map.get {} s.hashWatch t; decide (w.windowAt + msCycles 1 ≤ s.now) &&
      let moved := s.spreadMoved t; let total := moved.foldl (fun n e => n + e.2) 0;
      let top := moved.foldl (fun (b : Nat × Nat) e => if b.2 < e.2 then e else b) (0, 0);
      let bad := 65536 ≤ total ∧ s.reg 0x4103 1 * total < top.2 * 16 * 1280;
      decide (bad ∧ w.consecutive + 1 ≠ s.reg 0x4103 2)) &&
    (decide (t < 8) &&
      let w := Map.get {} s.hashWatch t;
      decide (s.reg 0x4103 2 ≤ w.consecutive ∧ 0 < w.consecutive ∧ w.raisedAt + secCycles (s.reg 0x4103 3) ≤ s.now ∧
        s.steward.lost = false))) = true := by decide +kernel

theorem witness_SpreadHashAndItsWatch_2 :
    (let s : State := { sp with channels := [] }; let t : Nat := 0;
    (decide (t < 8) &&
      let w := Map.get {} s.hashWatch t; decide (w.windowAt + msCycles 1 ≤ s.now) &&
      let moved := s.spreadMoved t; let total := moved.foldl (fun n e => n + e.2) 0;
      let top := moved.foldl (fun (b : Nat × Nat) e => if b.2 < e.2 then e else b) (0, 0);
      let bad := 65536 ≤ total ∧ s.reg 0x4103 1 * total < top.2 * 16 * 1280; decide (¬ bad))) = true := by decide +kernel

theorem witness_SpreadHashAndItsWatch_3 :
    (let s : State := { sp with channels := [], now := 0 }; let t : Nat := 0;
    (decide (t < 8) && let w := Map.get {} s.hashWatch t; decide (s.now < w.windowAt + msCycles 1))) = true := by decide +kernel

theorem witness_SpreadHashAndItsWatch_4 :
    (let s : State := { sp with hashWatch := [(0, { consecutive := sp.reg 0x4103 2 - 1 })] }; let t : Nat := 0;
    (decide (t < 8) &&
      let w := Map.get {} s.hashWatch t; decide (w.windowAt + msCycles 1 ≤ s.now) &&
      let moved := s.spreadMoved t; let total := moved.foldl (fun n e => n + e.2) 0;
      let top := moved.foldl (fun (b : Nat × Nat) e => if b.2 < e.2 then e else b) (0, 0);
      let bad := 65536 ≤ total ∧ s.reg 0x4103 1 * total < top.2 * 16 * 1280;
      decide (bad ∧ w.consecutive + 1 = s.reg 0x4103 2 ∧ s.steward.lost = false))) = true := by decide +kernel

end Case10

namespace Case11

def hw (op mask : Nat) (sp : Nat := 0) (chain : Nat := 0) : List Word := [BitVec.ofNat 64 (op * 2^60 + 1 * 2^56 + 1 * 2^52 + chain * 2^47 + sp * 2^44 + 2^39 + mask), 1 <<< 52 ||| 1 <<< 39, 0x2000, 2]
def work (h : Nat) : HenWork := { hen := h, next := 9, since := some 0, data := [0x80, 0x3F] }
def hseq (ws : List Word) (works : List HenWork) : HenSeq := { core := 0, desc := 5, cmds := [{ words := ws, works := works, started := true }] }
def hs (q : HenSeq) : S := { w0 [1] with channels := [(0, { seqs := [q] })] }
def hst (ws : List Word) : S := { w0 [1] with cores := [(0, { dma := [dd ws] })] }
def w8 : HenWork := { work 0 with rows := [[0,1]] }
def hopc : HenCmd := { words := hw 4 3, works := [{ work 0 with computed := some 0 }, { work 1 with computed := some 0 }], started := true, summed := 1, sum := [0x3F800000] }
def hopq : HenSeq := { core := 0, desc := 5, cmds := [hopc] }
def hop : S := { w0 [1] with run := 100, channels := [(0, { seqs := [hopq], hens := [(1, { pb := [0x40000000] })] })] }
def sg0 : Segment := { hen := 0, desc := 5, cmd := 0, start := 0, first := 0, last := 1, until_ := 120000 }
def hr : S := { w0 [1] with now := 120000, run := 120000, fields := [(0, { rail := .powered, setpoint := 601, duty := [(1, 5)] })], channels := [(0, { banks := [(1, { owed := 4 })], segments := [{ hen := 0, desc := 5, cmd := 0, start := 0, first := 0, last := 1, until_ := 120000 }] })] }
def hh : S := { w0 [1] with run := 12000000, fields := [(0, { rail := .powered, haltedAt := some 0 })], channels := [(0, { seqs := [hseq (hw 2 1) [{ work 0 with since := some 0 }]] })], cores := [(0, { dma := [dd (hw 2 1)] })] }
def workf (h : Nat) : HenWork := { work h with status := 1 }
def hvl : S := { hs (hseq (hw 1 1) [{ hen := 0 }]) with channels := [(0, { seqs := [hseq (hw 1 1) [{ hen := 0 }]], transfer := some { desc := 5, cmd := 0, hen := none, lines := 1, until_ := 0 } })] }
def hlist : S := put (hst [3 <<< 40, BitVec.ofNat 64 (1 * 2^55 + 0x400)]) (storeAddr 0 0x400) (words (hw 2 1))
def dlist : DmaDesc := dd [3 <<< 40, BitVec.ofNat 64 (1 * 2^55 + 0x400)]
def hlq : S := served (hlist.readRange (storeAddr 0 0x400) 32 (.dma 0 5)).2
def hwv : List Word := hw 1 1 1
def hwd : List Word := hw 2 1 1
def slc (h : List Word) : List Word := h.set 1 (BitVec.ofNat 64 (2^52 + 2^39))
def hvs : S := { hvl with channels := [(0, { seqs := [hseq hwv [{ hen := 0 }]], transfer := some { desc := 5, cmd := 0, hen := none, lines := 1, until_ := 0 } })] }
def hds : S := { hvl with channels := [(0, { seqs := [hseq hwd [{ hen := 0 }]], transfer := some { desc := 5, cmd := 0, hen := some 0, lines := 1, until_ := 0 } })] }
def hvq : S := served (hvl.readRange (tileAddr 0 (henArgs (hw 1 1)).space (henArgs (hw 1 1)).addr) (henArgs (hw 1 1)).load (.hen 0)).2

def hlist0 : S := put (hst [3 <<< 40, BitVec.ofNat 64 (1 * 2^55 + 0x400)]) (storeAddr 0 0x400) (words (hw 2 0))
def hl0 : S := served (hlist0.readRange (storeAddr 0 0x400) 32 (.dma 0 5)).2

theorem witness_HenSequencesAndTransfers_1 :
    (let s : State := (hst [3 <<< 40, 1 <<< 32]); let core : Nat := 0;
    (decide (s.running = true) &&
      match ((s.core core).dma.find? fun d => (d.words.headD 0).toNat / 2 ^ 40 % 256 == 3 && d.status.isNone &&
        !(s.channels.any fun e => e.2.seqs.any fun q => q.desc == d.id)) with
      | some d => (let t := s.acceptHens core d; let who := Agent.dma core d.id; decide (t.settledB who))
      | _ => false) &&
    (decide (s.running = true) &&
      match ((s.core core).dma.find? fun d => (d.words.headD 0).toNat / 2 ^ 40 % 256 == 3 && d.status.isNone &&
        !(s.channels.any fun e => e.2.seqs.any fun q => q.desc == d.id)) with
      | some d => (let w1 := (d.words.getD 1 0).toNat;
        decide (¬ ( word0Status (d.words.getD 0 0) = 0 ∧ bitsOf w1 54 32 = 0 ∧ (d.words.drop 2).all (· == 0) = true)))
      | _ => false)) = true := by decide +kernel

theorem witness_HenSequencesAndTransfers_2 :
    (let s : State := (hst [3 <<< 40]); let core : Nat := 0;
    (decide (s.running = true) &&
      match ((s.core core).dma.find? fun d => (d.words.headD 0).toNat / 2 ^ 40 % 256 == 3 && d.status.isNone &&
        !(s.channels.any fun e => e.2.seqs.any fun q => q.desc == d.id)) with
      | some d => (let w1 := (d.words.getD 1 0).toNat;
        decide (word0Status (d.words.getD 0 0) = 0 ∧ bitsOf w1 54 32 = 0 ∧ (d.words.drop 2).all (· == 0) = true) &&
        let n := bitsOf w1 63 55; decide (n = 0))
      | _ => false)) = true := by decide +kernel

theorem witness_HenSequencesAndTransfers_3 :
    (let s : State := hlist; let core : Nat := 0;
    (decide (s.running = true) &&
      match ((s.core core).dma.find? fun d => (d.words.headD 0).toNat / 2 ^ 40 % 256 == 3 && d.status.isNone &&
        !(s.channels.any fun e => e.2.seqs.any fun q => q.desc == d.id)) with
      | some d => (let t := s.acceptHens core d; let who := Agent.dma core d.id; decide (¬ t.settledB who))
      | _ => false)) = true := by decide +kernel

theorem witness_HenSequencesAndTransfers_4 :
    (let s : State := hvs; let ch : Nat := 0;
    (match s.endedTransfer ch with
      | some (_, q, cmd) => (let a := henArgs cmd.words; decide (a.op = some .vload) &&
        let who := Agent.hen ch; let (r, v) := s.readRange (tileAddr q.core a.space a.addr) a.load who;
        decide (r.waiting = true ∧ v.awaitsB [who]))
      | _ => false)) = true := by decide +kernel

theorem witness_HenSequencesAndTransfers_5 :
    (let s : State := hds; let ch : Nat := 0;
    (match s.endedTransfer ch with
      | some (t, q, cmd) => (let a := henArgs cmd.words; decide (a.op ≠ some .vload) &&
        let u := s.setChannel ch { s.channel ch with transfer := none, otherRun := (s.channel ch).otherRun + (t.lines - t.counted) };
        let rows := u.deliveryRows ch a cmd t.hen; let ux := u.countEvents ch rows.2;
        let (st, v) := ux.writeDelivery ch q.core a.space (ux.descRerun q.core t.desc) rows.1;
        let w := (if st ≠ 0 then v.failCmd ch t.desc t.cmd st else v).finishHen ch t.desc t.cmd t.hen;
        let who := Agent.hen ch; decide (w.awaitsB [who]))
      | _ => false)) = true := by decide +kernel

theorem witness_HenSequencesAndTransfers_6 :
    (let s : State := hvq; let ch : Nat := 0;
    (match s.endedTransfer ch with
      | some (t, q, cmd) => (let a := henArgs cmd.words; decide (a.op = some .vload) &&
        let who := Agent.hen ch; let (r, v) := s.readRange (tileAddr q.core a.space a.addr) a.load who;
        decide (r.waiting = false) &&
        let u := v.setChannel ch { v.channel ch with transfer := none, otherRun := (v.channel ch).otherRun + (t.lines - t.counted) };
        let w := if r.status = 0 then (a.hens.foldl (fun u h => u.setHenBuf ch h ((u.henBuf ch h).setVb a.vbOff r.bytes)) u).finishHen ch t.desc t.cmd none else (u.failCmd ch t.desc t.cmd r.status).finishHen ch t.desc t.cmd none;
        decide (w.settledB who))
      | _ => false)) = true := by decide +kernel

theorem witness_HenSequencesAndTransfers_7 :
    (let s : State := (served (nx hds (.delivery 0))); let ch : Nat := 0;
    (match s.endedTransfer ch with
      | some (t, q, cmd) => (let a := henArgs cmd.words; decide (a.op ≠ some .vload) &&
        let u := s.setChannel ch { s.channel ch with transfer := none, otherRun := (s.channel ch).otherRun + (t.lines - t.counted) };
        let rows := u.deliveryRows ch a cmd t.hen; let ux := u.countEvents ch rows.2;
        let (st, v) := ux.writeDelivery ch q.core a.space (ux.descRerun q.core t.desc) rows.1;
        let w := (if st ≠ 0 then v.failCmd ch t.desc t.cmd st else v).finishHen ch t.desc t.cmd t.hen;
        let who := Agent.hen ch; decide (w.settledB who))
      | _ => false)) = true := by decide +kernel

theorem witness_HenSequencesAndTransfers_8 :
    (let s : State := hl0; let core : Nat := 0;
    (decide (s.running = true) &&
      match ((s.core core).dma.find? fun d => (d.words.headD 0).toNat / 2 ^ 40 % 256 == 3 && d.status.isNone &&
        !(s.channels.any fun e => e.2.seqs.any fun q => q.desc == d.id)) with
      | some d => (let w1 := (d.words.getD 1 0).toNat;
        decide (word0Status (d.words.getD 0 0) = 0 ∧ bitsOf w1 54 32 = 0 ∧ (d.words.drop 2).all (· == 0) = true) &&
        let n := bitsOf w1 63 55; decide (0 < n ∧ n ≤ 256) &&
        let list := bitsOf w1 17 0; decide (list % 32 = 0 ∧ list + 32 * n ≤ 0x40000) &&
        let at_ := bitsOf w1 31 18; decide (coreExists at_ = true ∧ s.issuer at_ = some core) &&
        let who := Agent.dma core d.id; let (r, u) := s.readRange (storeAddr core list) (32 * n) who;
        decide (r.waiting = false ∧ r.status = 0) &&
        let cmds : List (List Word) := (List.range n).map fun i => (List.range 4).map fun j => BitVec.ofNat 64 (bytesToNat (cut r.bytes (32 * i + 8 * j) 8));
        decide ((∀ ws ∈ cmds, u.henCmdStatus core at_ (henArgs ws) = 0) ∧ u.fieldUp (coreField at_) = true) &&
        let made : List HenCmd := cmds.map fun ws => { words := ws, works := if (henArgs ws).empty then [] else (henArgs ws).hens.map fun h => { hen := h } };
        let c := u.channel at_;
        decide ((made.map HenCmd.rangeCount).sum + (c.seqs.map fun q => (q.cmds.map HenCmd.rangeCount).sum).sum ≤ 512))
      | _ => false)) = true := by decide +kernel

theorem witness_HenOperations_1 :
    (let s : State := (hs (hseq (hw 2 1) [work 0])); let ch : Nat := 0; let k : Nat := 0;
      let q : HenSeq := (hseq (hw 2 1) [work 0]); let cmd : HenCmd := { words := hw 2 1, works := [work 0], started := true };
      let w : HenWork := (work 0);
    (decide (s.running = true ∧ s.nextCompute ch .dot = some (q, k, cmd, w) ∧ w.status = 0))) = true := by decide +kernel

theorem witness_HenOperations_2 :
    (let s : State := (hs (hseq (hw 4 3) [work 0, work 1])); let ch : Nat := 0; let k : Nat := 0;
      let q : HenSeq := (hseq (hw 4 3) [work 0, work 1]);
      let cmd : HenCmd := { words := hw 4 3, works := [work 0, work 1], started := true }; let w : HenWork := (work 0);
    (decide (s.running = true ∧ s.nextCompute ch .kvmix = some (q, k, cmd, w) ∧ w.status = 0))) = true := by decide +kernel

theorem witness_HenOperations_3 :
    (let s : State := (hs (hseq (hw 3 3) [work 0, work 1])); let ch : Nat := 0; let k : Nat := 0;
      let q : HenSeq := (hseq (hw 3 3) [work 0, work 1]);
      let cmd : HenCmd := { words := hw 3 3, works := [work 0, work 1], started := true }; let w : HenWork := (work 0);
    (decide (s.running = true ∧ s.nextCompute ch .kvscore = some (q, k, cmd, w) ∧ w.status = 0) &&
      let a := henArgs cmd.words; decide (a.chained = false ∧ cmd.status = 0))) = true := by decide +kernel

theorem witness_HenOperations_4 :
    (let s : State := (hs (hseq (hw 5 3) [work 0, work 1])); let ch : Nat := 0; let k : Nat := 0;
      let q : HenSeq := (hseq (hw 5 3) [work 0, work 1]);
      let cmd : HenCmd := { words := hw 5 3, works := [work 0, work 1], started := true }; let w : HenWork := (work 0);
    (decide (s.running = true ∧ ((s.channel ch).allWorks.find? fun (q, _, cmd, w) => !q.dead &&
        (henArgs cmd.words).op == some .chainsum && w.since.isSome && w.computed.isNone && !w.finished) = some (q, k, cmd, w)) &&
      let a := henArgs cmd.words; match a.hens with
      | _ :: _ => (true)
      | _ => false)) = true := by decide +kernel

theorem witness_HenOperations_5 :
    (let s : State := (hs (hseq (hw 6 3) [work 0, work 1])); let ch : Nat := 0; let k : Nat := 0;
      let q : HenSeq := (hseq (hw 6 3) [work 0, work 1]);
      let cmd : HenCmd := { words := hw 6 3, works := [work 0, work 1], started := true }; let w : HenWork := (work 0);
    (decide (s.running = true ∧ s.nextCompute ch .rowscale = some (q, k, cmd, w)))) = true := by decide +kernel

theorem witness_HenOperations_6 :
    (let s : State := (hs (hseq (hw 7 3) [work 0, work 1])); let ch : Nat := 0; let k : Nat := 0;
      let q : HenSeq := (hseq (hw 7 3) [work 0, work 1]);
      let cmd : HenCmd := { words := hw 7 3, works := [work 0, work 1], started := true }; let w : HenWork := (work 0);
    (decide (s.running = true ∧ s.nextCompute ch .rowaxpy = some (q, k, cmd, w)))) = true := by decide +kernel

theorem witness_HenOperations_7 :
    (let s : State := (hs (hseq (hw 8 1) [w8])); let ch : Nat := 0; let k : Nat := 0; let q : HenSeq := (hseq (hw 8 1) [w8]);
      let cmd : HenCmd := { words := hw 8 1, works := [w8], started := true }; let w : HenWork := w8;
    (decide (s.running = true ∧ s.nextCompute ch .rowgather = some (q, k, cmd, w)))) = true := by decide +kernel

theorem witness_HenOperations_8 :
    (let s : State := hop; let ch : Nat := 0; let k : Nat := 0; let q : HenSeq := hopq; let cmd : HenCmd := hopc;
      let w : HenWork := { work 0 with computed := some 0 };
    (decide (s.running = true) &&
      let hops (q : HenSeq) (cmd : HenCmd) : Bool := !q.dead && (henArgs cmd.words).chained && cmd.status == 0 &&
        0 < cmd.summed && cmd.summed < cmd.works.length && (match cmd.works[cmd.summed]? with
      | some { computed := some own, .. } => decide (max own cmd.summedAt + hopTime ((henArgs cmd.words).width * (henArgs cmd.words).vecs) ≤ s.run)
      | _ => false);
        decide (((s.channel ch).allWorks.find? fun (q, _, cmd, _) => hops q cmd) = some (q, k, cmd,
          w)))) = true := by decide +kernel

theorem witness_HenOperations_9 :
    (let s : State := (hs (hseq (hw 2 1) [workf 0])); let ch : Nat := 0; let k : Nat := 0;
      let q : HenSeq := (hseq (hw 2 1) [workf 0]);
      let cmd : HenCmd := { words := hw 2 1, works := [workf 0], started := true }; let w : HenWork := (workf 0);
    (decide (s.running = true ∧ s.nextCompute ch .dot = some (q, k, cmd, w) ∧ w.status ≠ 0))) = true := by decide +kernel

theorem witness_HenOperations_10 :
    (let s : State := (hs (hseq (hw 4 3) [workf 0, work 1])); let ch : Nat := 0; let k : Nat := 0;
      let q : HenSeq := (hseq (hw 4 3) [workf 0, work 1]);
      let cmd : HenCmd := { words := hw 4 3, works := [workf 0, work 1], started := true }; let w : HenWork := (workf 0);
    (decide (s.running = true ∧ s.nextCompute ch .kvmix = some (q, k, cmd, w) ∧ w.status ≠ 0))) = true := by decide +kernel

theorem witness_HenOperations_11 :
    (let s : State := (hs (hseq (hw 3 3) [workf 0, work 1])); let ch : Nat := 0; let k : Nat := 0;
      let q : HenSeq := (hseq (hw 3 3) [workf 0, work 1]);
      let cmd : HenCmd := { words := hw 3 3, works := [workf 0, work 1], started := true }; let w : HenWork := (workf 0);
    (decide (s.running = true ∧ s.nextCompute ch .kvscore = some (q, k, cmd, w) ∧ w.status ≠ 0) &&
      let a := henArgs cmd.words; decide (a.chained = false))) = true := by decide +kernel

theorem witness_HenRefreshDutyAndHalts_1 :
    (let s : State := hr; let f : Nat := 0; let ch : Nat := 0; let v : BitVec 8 := 1;
    (decide (f < 64) && let fl := s.field f; decide (fl.dutyAt + 120000 ≤ s.now)) &&
    (decide (s.steward.lost = false ∧ v.toNat ≤ 1)) &&
    (let c := s.channel ch; match c.segments.find? (fun g => g.until_ ≤ s.now) with | some _ => (true) | _ => false) &&
    (let b := (1 : Nat); let g := (sg0 : Segment); decide (b / 2 = g.hen))) = true := by decide +kernel

theorem witness_HenRefreshDutyAndHalts_2 :
    (let s : State := hh; let f : Nat := 0; let layer : Nat := 0; let ch : Nat := 0; let v : BitVec 8 := 2;
    (decide (f < 64 ∧ layer < 16 ∧ s.running = true) &&
      let fl := s.field f; let p := Map.get (0, 0) fl.refresh layer; decide (p.1 + bandInterval p.2 ≤ s.run)) &&
    (decide (1 < v.toNat)) &&
    (match (s.field (coreField ch)).haltedAt with
      | some from_ => (let c := s.channel ch;
        let waits (q : HenSeq) (k : Nat) (cmd : HenCmd) (w : HenWork) : Bool := !q.dead && (henArgs cmd.words).atBanks &&
          !w.finished && w.computed.isNone && w.status == 0 && !(c.segments.any fun g => g.desc == q.desc && g.cmd == k &&
          g.hen == w.hen) && (match w.since with
      | some t => decide (max t from_ + msCycles (s.reg 0x4200 5) ≤ s.run)
      | none => false); match (c.allWorks.find? fun (q, k, cmd, w) => waits q k cmd w) with
      | some (_, _, _, _) => (true)
      | _ => false)
      | _ => false)) = true := by decide +kernel

end Case11

namespace Case12

def rw (st : Nat) (cont : Nat) : List Word := [BitVec.ofNat 64 (3*2^60 + 3*2^56 + 2^52 + st * 2^50 + 2^41 + 32*2^29 + 1*2^16), 4 <<< 32, 1, 0, 0x102000, BitVec.ofNat 64 cont, 0, 7]
def cw : List Word := [BitVec.ofNat 64 (3*2^60 + 3*2^56 + 2^52 + 2^48 + 2^41 + 32*2^29 + 1*2^16), 4 <<< 32,
    BitVec.ofNat 64 (4*2^32+1), 0x1000, 0x102000, 0, 0, 7]
def opw (commit : Nat) : List Word := [0, 0, BitVec.ofNat 64 (storeAddr 0 0x1000),
    BitVec.ofNat 64 (1 * 2^38 + 1 * 2^22 + commit * 2^21)]
def kv (w : List Word) (op : AppendOp) : S := clean (clean (clean (clean (clean (put (put { w0 [1] with channels := [(0, { appends := [op] })], cores := [(0, { dma := [dd []] })] } 0x101000 (words w)) 0x103000 (words cw)) 0 1) 3 1) 0x4040 1) 0x40C0 1) 0x4080 1
def op0 (c : Nat) : AppendOp := { core := 0, desc := 5, region := 0x101000, words := opw c }
def kp (now : Nat) : S := let s := kv (rw 1 0x103000) { op0 0 with paused := true }
  { s with run := now, channels := [(0, { appends := [{ op0 0 with paused := true }], pausedRegions := [(0x101000, 10)] })] }
def kv0 : S := kv (rw 0 0) (op0 0)
def ka (s : S) : S := served (nx s (.kvAppend 0 Option.none))
def kv4 : S := ka (ka (ka (ka kv0)))
def opOf (s : S) : AppendOp := (s.channel 0).appends.headD (op0 0)
def kv5 : S := ka (ka kv4)
def op6 : AppendOp := { opOf kv4 with next := 2 }
def kv6 : S := kv (rw 0 0) op6
def dk (w1 w2 w3 : Nat) : DmaDesc := dd [BitVec.ofNat 64 (5 * 2^40), BitVec.ofNat 64 w1, BitVec.ofNat 64 w2, BitVec.ofNat 64 w3]
def ks (d : DmaDesc) : S := { kv0 with channels := [], cores := [(0, { dma := [d] })] }
def dk0 : DmaDesc := dk 0x101000 (storeAddr 0 0x1000) (1 * 2^38 + 1 * 2^22)
def kw (c : Nat) (st : Status) : S := kv (rw 0 0) { op0 c with written := some st }
def kc (s : S) : S := served (nx s (.kvAppendComplete 0))
def failed (st : Status) (s : S) : S := { s with reqs := s.reqs.map fun r => { r with status := st } }
def kan (c : BitVec 64) (s : S) : S := served (nx s (.kvAnswer 0x101000 c))
def kq (c : BitVec 64) : S := { kan c (kp 9) with heldAnswers := [] }
def kq2 (c : BitVec 64) : S := { kan c (kq c) with heldAnswers := [] }
def kq3 (c : BitVec 64) : S := { kan c (kq2 c) with heldAnswers := [] }
def kt (s : S) : S := served (nx s (.kvAnswerTimeout 0))
def kq4 (c : BitVec 64) : S := { kan c (kq3 c) with heldAnswers := [] }
def kq5 (c : BitVec 64) : S := { kan c (kq4 c) with heldAnswers := [] }

theorem witness_AppendsAndAnswers_1 :
    (let s : State := (ka (ka (ka kv0))); let core : Nat := 0; let ch : Nat := 0; let op : AppendOp := (op0 0);
      let remote : Option (Status × List Byte) := Option.none;
    (decide (s.running = true ∧ s.heldAnswers = [] ∧
        s.channels.findSome? (fun e => (e.2.appends.find? fun o => o.core == core && !o.paused && o.written.isNone &&
        !e.2.pausedRegions.any (·.1 == o.region)).map fun o => (e.1, o)) = some (ch, op) ∧
        (s.channel ch).appends.find? (·.desc == op.desc) = some op ∧ op.source = none) &&
      let t := s.readAppend ch op remote; let who := Agent.append ch op.desc; decide (t.settledB who)) &&
    (decide (s.running = true ∧ s.heldAnswers = [] ∧
        s.channels.findSome? (fun e => (e.2.appends.find? fun o => o.core == core && !o.paused && o.written.isNone &&
        !e.2.pausedRegions.any (·.1 == o.region)).map fun o => (e.1, o)) = some (ch, op) ∧
        (s.channel ch).appends.find? (·.desc == op.desc) = some op ∧ op.source = none) &&
      let who := Agent.append ch op.desc; match s.readRegion op.region who with
      | (some (p0, r, _), s1) => (decide (p0 = 0 ∧ r.state = 0 ∧ r.valid ch = true ∧ r.cont = 0) &&
        let w3 := (op.words.getD 3 0).toNat; let npairs := bitsOf w3 50 38; decide (bitsOf w3 63 51 + npairs ≤ r.pairs) &&
        let ntok := bitsOf w3 37 22; decide (r.len + ntok ≤ r.tmax ∧ r.len + ntok ≤ 0xFFFFFFFF) &&
        let src := bitsOf (op.words.getD 2 0).toNat 53 0; let size := ntok * npairs * 4 * r.dh;
        decide (s1.sourceAbsent op.core src size = false ∧
          s1.memberAbsent r none (appendRows r.len ntok (bitsOf w3 63 51) npairs) = false ∧
          (s1.isOwn (src / 2 ^ 48 % 64) = true → s1.rangesStatus (coreTower ch) [(src % 2 ^ 48, size)] = 0)) &&
        let (data, _) := s1.readGroup src size who remote; decide (data.waiting = false))
      | _ => false)) = true := by decide +kernel

theorem witness_AppendsAndAnswers_2 :
    (let s : State := kv6; let core : Nat := 0; let ch : Nat := 0; let op : AppendOp := op6;
    (decide (s.running = true ∧ s.heldAnswers = [] ∧
        s.channels.findSome? (fun e => (e.2.appends.find? fun o => o.core == core && !o.paused && o.written.isNone &&
        !e.2.pausedRegions.any (·.1 == o.region)).map fun o => (e.1, o)) = some (ch, op) ∧
        (s.channel ch).appends.find? (·.desc == op.desc) = some op ∧ op.source ≠ none)) &&
    (decide (s.running = true ∧ s.heldAnswers = [] ∧
        s.channels.findSome? (fun e => (e.2.appends.find? fun o => o.core == core && !o.paused && o.written.isNone &&
        !e.2.pausedRegions.any (·.1 == o.region)).map fun o => (e.1, o)) = some (ch, op) ∧
        (s.channel ch).appends.find? (·.desc == op.desc) = some op) &&
      match op.source with
      | some (_, _) => (decide (op.rows.length ≤ op.next))
      | _ => false)) = true := by decide +kernel

theorem witness_AppendsAndAnswers_3 :
    (let s : State := (kv0.setReg 0xA001 3 1);
    (decide (s.running = false)) &&
    (decide (s.running = false ∧ s.steward.lost = false))) = true := by decide +kernel

theorem witness_AppendsAndAnswers_4 :
    (let s : State := (kq3 0x103000); let ch : Nat := 0; let region : Nat := 0x101000; let deadline : Nat := 10;
      let off : Nat := 0x101000; let cont : BitVec 64 := 0x103000;
    (decide (s.running = true ∧ s.steward.lost = false ∧ s.heldAnswers = [] ∧ region < 8 * dramTower ∧
        localPlace region = .dram ch off) &&
      let found := (s.channel ch).pausedRegions.find? (·.1 == region);
      decide (found = some (region, deadline) ∧ s.run < deadline) &&
      let t := s.answerRegion ch region cont.toNat; let who := Agent.region ch region; decide (t.awaitsB [who])) &&
    (decide (s.running = true ∧ s.steward.lost = false ∧ s.heldAnswers = [] ∧ region < 8 * dramTower ∧
        localPlace region = .dram ch off) &&
      let found := (s.channel ch).pausedRegions.find? (·.1 == region);
      decide (found = some (region, deadline) ∧ s.run < deadline) &&
      match s.readPaused ch region with
      | (some (p0, r, _), s1) => (decide (p0 = 0 ∧ cont ≠ 0) &&
        let who := Agent.region ch region; match s1.readRegion cont.toNat who with
      | (some (st, c, cw), _) => (decide (st = 0 ∧ c.continues cw r ch cont.toNat = true) &&
        true)
      | _ => false)
      | _ => false)) = true := by decide +kernel

theorem witness_AppendsAndAnswers_5 :
    (let s : State := (kq3 0); let ch : Nat := 0; let region : Nat := 0x101000; let deadline : Nat := 10;
      let off : Nat := 0x101000; let cont : BitVec 64 := 0;
    (decide (s.running = true ∧ s.steward.lost = false ∧ s.heldAnswers = [] ∧ region < 8 * dramTower ∧
        localPlace region = .dram ch off) &&
      let found := (s.channel ch).pausedRegions.find? (·.1 == region);
      decide (found = some (region, deadline) ∧ s.run < deadline) &&
      let t := s.answerRegion ch region cont.toNat; let who := Agent.region ch region; decide (t.settledB who)) &&
    (decide (s.running = true ∧ s.steward.lost = false ∧ s.heldAnswers = [] ∧ region < 8 * dramTower ∧
        localPlace region = .dram ch off) &&
      let found := (s.channel ch).pausedRegions.find? (·.1 == region);
      decide (found = some (region, deadline) ∧ s.run < deadline) &&
      match s.readPaused ch region with
      | (some (p0, _, _), _) => (decide (p0 = 0 ∧ cont = 0))
      | _ => false)) = true := by decide +kernel

theorem witness_AppendsAndAnswers_6 :
    (let s : State := kv0; let core : Nat := 0; let ch : Nat := 0; let op : AppendOp := (op0 0);
      let remote : Option (Status × List Byte) := Option.none;
    (decide (s.running = true ∧ s.heldAnswers = [] ∧
        s.channels.findSome? (fun e => (e.2.appends.find? fun o => o.core == core && !o.paused && o.written.isNone &&
        !e.2.pausedRegions.any (·.1 == o.region)).map fun o => (e.1, o)) = some (ch, op) ∧
        (s.channel ch).appends.find? (·.desc == op.desc) = some op ∧ op.source = none) &&
      let t := s.readAppend ch op remote; let who := Agent.append ch op.desc;
      decide (t.awaitsB [who]))) = true := by decide +kernel

theorem witness_AppendsAndAnswers_7 :
    (let s : State := (ks (dk 0x101000 (2^54) (2^38 + 2^22))); let core : Nat := 0;
      let d : DmaDesc := (dk 0x101000 (2^54) (2^38 + 2^22));
    (decide (s.running = true ∧ s.heldAnswers = [] ∧
        (∀ e ∈ s.channels, ∀ o ∈ e.2.appends,
        o.core = core → o.paused = true ∨ o.written.isSome = true ∨ (e.2.pausedRegions.any (·.1 == o.region)) = true) ∧
        ((s.core core).dma.find? fun d => (d.words.headD 0).toNat / 2 ^ 40 % 256 == 5 && d.status.isNone &&
        !(s.channels.any fun e => e.2.appends.any (·.desc == d.id)) && !s.appendBlocked d) = some d) &&
      let w1 := (d.words.getD 1 0).toNat; let w2 := (d.words.getD 2 0).toNat; let w3 := (d.words.getD 3 0).toNat;
      decide (¬ ( word0Status (d.words.getD 0 0) = 0 ∧ bitsOf w1 63 48 = 0 ∧ bitsOf w2 63 54 = 0 ∧ bitsOf w3 20 0 = 0 ∧
        (d.words.drop 4).all (· == 0) = true)))) = true := by decide +kernel

theorem witness_AppendsAndAnswers_8 :
    (let s : State := (ks (dk 0x101000 (storeAddr 0 0x1000) (2^38))); let core : Nat := 0;
      let d : DmaDesc := (dk 0x101000 (storeAddr 0 0x1000) (2^38));
    (decide (s.running = true ∧ s.heldAnswers = [] ∧
        (∀ e ∈ s.channels, ∀ o ∈ e.2.appends,
        o.core = core → o.paused = true ∨ o.written.isSome = true ∨ (e.2.pausedRegions.any (·.1 == o.region)) = true) ∧
        ((s.core core).dma.find? fun d => (d.words.headD 0).toNat / 2 ^ 40 % 256 == 5 && d.status.isNone &&
        !(s.channels.any fun e => e.2.appends.any (·.desc == d.id)) && !s.appendBlocked d) = some d) &&
      let w1 := (d.words.getD 1 0).toNat; let w2 := (d.words.getD 2 0).toNat; let w3 := (d.words.getD 3 0).toNat;
      decide (word0Status (d.words.getD 0 0) = 0 ∧ bitsOf w1 63 48 = 0 ∧ bitsOf w2 63 54 = 0 ∧ bitsOf w3 20 0 = 0 ∧
        (d.words.drop 4).all (· == 0) = true ∧ (bitsOf w3 37 22 = 0 ∨ bitsOf w3 50 38 = 0)))) = true := by decide +kernel

theorem witness_AppendsAndAnswers_9 :
    (let s : State := (ks dk0); let core : Nat := 0; let d : DmaDesc := dk0;
    (decide (s.running = true ∧ s.heldAnswers = [] ∧
        (∀ e ∈ s.channels, ∀ o ∈ e.2.appends,
        o.core = core → o.paused = true ∨ o.written.isSome = true ∨ (e.2.pausedRegions.any (·.1 == o.region)) = true) ∧
        ((s.core core).dma.find? fun d => (d.words.headD 0).toNat / 2 ^ 40 % 256 == 5 && d.status.isNone &&
        !(s.channels.any fun e => e.2.appends.any (·.desc == d.id)) && !s.appendBlocked d) = some d) &&
      let w1 := (d.words.getD 1 0).toNat; let w2 := (d.words.getD 2 0).toNat; let w3 := (d.words.getD 3 0).toNat;
      decide (word0Status (d.words.getD 0 0) = 0 ∧ bitsOf w1 63 48 = 0 ∧ bitsOf w2 63 54 = 0 ∧ bitsOf w3 20 0 = 0 ∧
        (d.words.drop 4).all (· == 0) = true ∧ bitsOf w3 37 22 ≠ 0 ∧ bitsOf w3 50 38 ≠ 0 ∧
        s.memberDevice (bitsOf w2 53 48) = true ∧ s.sourceAbsent core (bitsOf w2 53 0) 1 = false ∧
        bitsOf w1 47 0 < 8 * dramTower) &&
      match localPlace (bitsOf w1 47 0) with
      | .dram ch _ => (decide (coreExists ch = true ∧ s.issuer ch = some core ∧ bitsOf w1 47 0 % 64 = 0 ∧
          s.fieldUp (coreField ch) = true))
      | _ => false)) = true := by decide +kernel

theorem witness_AppendsAndAnswers_10 :
    (let s : State := (served (nx (ka (ka (ka kv0))) (.kvAppend 0 Option.none))); let ch : Nat := 0; let t : Nat := 0;
      let p : Nat := 0; let value : Bool := false; let op : AppendOp := (opOf kv4);
    (let r := regionOf op.primary.1 op.primary.2;
      let at_ := (if t < r.tmax then r else (op.cont.map fun c => regionOf c.1 c.2).getD r).place t p value;
      let n := 2 * r.dh;
      let row := quantiseRow r.srcFmt (if value then r.vfmt else r.kfmt) r.dh (((op.source.elim [] (·.2)).drop (op.next * n)).take n);
      decide (at_.2.2 + row.1.length ≤ 0x200000) &&
      let (p0, _) := (s.countEvents ch row.2).writeHenBytes (.append ch op.desc) at_.1 at_.2.1 (pieces at_.2.2 row.1.length) row.1;
      decide (p0 = 0))) = true := by decide +kernel

theorem witness_AppendsAndAnswers_11 :
    (let s : State := (kw 0 0); let ch : Nat := 0; let op : AppendOp := { op0 0 with written := some 0 }; let w : Status := 0;
    (decide (s.running = true ∧ (s.channel ch).appends.find? (·.written.isSome) = some op ∧ op.written = some w) &&
      let w3 := (op.words.getD 3 0).toNat; decide (w ≠ 0 ∨ bitsOf w3 21 21 = 0))) = true := by decide +kernel

theorem witness_AppendsAndAnswers_12 :
    (let s : State := (kw 1 0); let ch : Nat := 0; let op : AppendOp := { op0 1 with written := some 0 }; let w : Status := 0;
    (decide (s.running = true ∧ (s.channel ch).appends.find? (·.written.isSome) = some op ∧ op.written = some w ∧ w = 0) &&
      let w3 := (op.words.getD 3 0).toNat; decide (bitsOf w3 21 21 = 1) &&
      let who := Agent.append ch op.desc; let (data, s1) := s.readHome (op.region + 8) 8 who;
      decide (data.waiting = true ∧ s1.awaitsB [who]))) = true := by decide +kernel

theorem witness_AppendsAndAnswers_13 :
    (let s : State := (kc (kw 1 0)); let ch : Nat := 0; let op : AppendOp := { op0 1 with written := some 0 };
      let w : Status := 0;
    (decide (s.running = true ∧ (s.channel ch).appends.find? (·.written.isSome) = some op ∧ op.written = some w ∧ w = 0) &&
      let w3 := (op.words.getD 3 0).toNat; decide (bitsOf w3 21 21 = 1) &&
      let who := Agent.append ch op.desc; let (data, s1) := s.readHome (op.region + 8) 8 who;
      decide (data.waiting = false ∧ data.status = 0) &&
      let (e, s2) := s1.writeRegionWord who op.region 1 (BitVec.ofNat 64 (bytesToNat data.bytes + bitsOf w3 37 22));
      let u := s2.finishAppend ch op.core op.desc e; decide (u.awaitsB [who]))) = true := by decide +kernel

theorem witness_AppendsAndAnswers_14 :
    (let s : State := (kc (kc (kw 1 0))); let ch : Nat := 0; let op : AppendOp := { op0 1 with written := some 0 };
      let w : Status := 0;
    (decide (s.running = true ∧ (s.channel ch).appends.find? (·.written.isSome) = some op ∧ op.written = some w ∧ w = 0) &&
      let w3 := (op.words.getD 3 0).toNat; decide (bitsOf w3 21 21 = 1) &&
      let who := Agent.append ch op.desc; let (data, s1) := s.readHome (op.region + 8) 8 who;
      decide (data.waiting = false ∧ data.status = 0) &&
      let (e, s2) := s1.writeRegionWord who op.region 1 (BitVec.ofNat 64 (bytesToNat data.bytes + bitsOf w3 37 22));
      let u := s2.finishAppend ch op.core op.desc e; decide (u.settledB who))) = true := by decide +kernel

theorem witness_AppendsAndAnswers_15 :
    (let s : State := (failed 1 (kc (kw 1 0))); let ch : Nat := 0; let op : AppendOp := { op0 1 with written := some 0 };
      let w : Status := 0;
    (decide (s.running = true ∧ (s.channel ch).appends.find? (·.written.isSome) = some op ∧ op.written = some w ∧ w = 0) &&
      let w3 := (op.words.getD 3 0).toNat; decide (bitsOf w3 21 21 = 1) &&
      let who := Agent.append ch op.desc; let (data, s1) := s.readHome (op.region + 8) 8 who;
      decide (data.waiting = false ∧ data.status ≠ 0) &&
      let u := s1.finishAppend ch op.core op.desc data.status; decide (u.settledB who))) = true := by decide +kernel

theorem witness_AppendsAndAnswers_16 :
    (let s : State := kv0; let ch : Nat := 0; let region : Nat := 0x101000; let off : Nat := 0x101000;
    (decide (s.running = true ∧ s.steward.lost = false ∧ s.heldAnswers = [] ∧ region < 8 * dramTower ∧
        localPlace region = .dram ch off) &&
      let found := (s.channel ch).pausedRegions.find? (·.1 == region); decide (found = none))) = true := by decide +kernel

theorem witness_AppendsAndAnswers_17 :
    (let s : State := (kp 10); let ch : Nat := 0; let region : Nat := 0x101000; let deadline : Nat := 10;
      let off : Nat := 0x101000;
    (decide (s.running = true ∧ s.steward.lost = false ∧ s.heldAnswers = [] ∧ region < 8 * dramTower ∧
        localPlace region = .dram ch off) &&
      let found := (s.channel ch).pausedRegions.find? (·.1 == region);
      decide (found = some (region, deadline) ∧ deadline ≤ s.run))) = true := by decide +kernel

theorem witness_AppendsAndAnswers_18 :
    (let s : State := (kq2 0x101000); let ch : Nat := 0; let region : Nat := 0x101000; let deadline : Nat := 10;
      let off : Nat := 0x101000; let cont : BitVec 64 := 0x101000;
    (decide (s.running = true ∧ s.steward.lost = false ∧ s.heldAnswers = [] ∧ region < 8 * dramTower ∧
        localPlace region = .dram ch off) &&
      let found := (s.channel ch).pausedRegions.find? (·.1 == region);
      decide (found = some (region, deadline) ∧ s.run < deadline) &&
      match s.readPaused ch region with
      | (some (p0, r, _), s1) => (decide (p0 = 0 ∧ cont ≠ 0) &&
        let who := Agent.region ch region; match s1.readRegion cont.toNat who with
      | (some (st, c, cw), _) => (decide (st ≠ 0 ∨ c.continues cw r ch cont.toNat = false))
      | _ => false)
      | _ => false)) = true := by decide +kernel

theorem witness_AppendsAndAnswers_19 :
    (let s : State := (kp 10); let ch : Nat := 0; let region : Nat := 0x101000; let deadline : Nat := 10;
    (decide (s.running = true ∧ (s.channel ch).pausedRegions.find? (fun e => decide (e.2 ≤ s.run) &&
        !(s.heldAnswers.any (·.1 == e.1))) = some (region, deadline)) &&
      let (p0, s1) := s.readPaused ch region; decide (p0 = none) &&
      let who := Agent.region ch region; decide (s1.awaitsB [who]))) = true := by decide +kernel

theorem witness_AppendsAndAnswers_20 :
    (let s : State := (kt (kt (kp 10))); let ch : Nat := 0; let region : Nat := 0x101000; let deadline : Nat := 10;
    (decide (s.running = true ∧ (s.channel ch).pausedRegions.find? (fun e => decide (e.2 ≤ s.run) &&
        !(s.heldAnswers.any (·.1 == e.1))) = some (region, deadline)) &&
      match s.readPaused ch region with
      | (some (_, r, ws), s1) => (let who := Agent.region ch region;
        let t := (s1.unpause ch region).retire who ch region 4 (s.pausedAppend ch region) r ws true; decide (t.awaitsB [who]))
      | _ => false)) = true := by decide +kernel

theorem witness_AppendsAndAnswers_21 :
    (let s : State := (kt (kt (kt (kp 10)))); let ch : Nat := 0; let region : Nat := 0x101000; let deadline : Nat := 10;
    (decide (s.running = true ∧ (s.channel ch).pausedRegions.find? (fun e => decide (e.2 ≤ s.run) &&
        !(s.heldAnswers.any (·.1 == e.1))) = some (region, deadline)) &&
      match s.readPaused ch region with
      | (some (_, r, ws), s1) => (let who := Agent.region ch region;
        let t := (s1.unpause ch region).retire who ch region 4 (s.pausedAppend ch region) r ws true; decide (t.settledB who))
      | _ => false)) = true := by decide +kernel

end Case12

namespace Case13

def pk : Packet := { id := 9, channel := 1, src := 1, dsts := [0], flits := 2 }
def setw (fb : Nat) : List Word := [BitVec.ofNat 64 (2^48 + 3 * 2^32 + fb * 2^59), 0, 0,
    BitVec.ofNat 64 (storeAddr 0 0x8000), 0x1000]
def wdz (fb : Nat) : List Word := setw fb ++ [0,0,0]
def mdesc : List Word := [2 <<< 40, BitVec.ofNat 64 (4 * 2^60 + storeAddr 0 0x1000), BitVec.ofNat 64 (2^60 + 0x2000),
    8 <<< 32, BitVec.ofNat 64 (storeAddr 0 0x3000)]
def mdd : DmaDesc := { dd mdesc with record := some (0, wdz 0) }
def far : S → S := fun s => put s (storeAddr 16 0x1000) [1,2,3,4,5,6,7,8]
def mdf : DmaDesc := { mdd with words := mdesc.set 1 (BitVec.ofNat 64 (4 * 2^60 + storeAddr 16 0x1000)) }
def mcf : S := far { w0 [1] with cores := [(0, { dma := [mdf] })] }
def mc : S := put { w0 [1] with cores := [(0, { dma := [mdd] })] } (storeAddr 0 0x1000) [1,2,3,4,5,6,7,8]
def mdbad : DmaDesc := { mdd with words := mdesc ++ [1] }
def lop (a : Bool) : LeaseOp := { id := 3, acquire := a, lease := 2, setAddr := storeAddr 16 0x3000, core := 0, target := .counter 0 0 1 }
def ls (a : Bool) (fb : Nat) (sl : Map Nat) (le : Lease) : S := put { w0 [1] with leaseOps := [lop a], slots := sl, leases := [(2, le)] } (storeAddr 16 0x3000) (words (setw fb))
def rnd : Round := { startedAt := 0, contributors := [0, 1], got := [] }
def lfr : S := ls false 0 [(0, 3)] { state := 1, words := wdz 0, slots := [0] }
def rdesc : List Word := [2 <<< 40, BitVec.ofNat 64 (5 * 2^60 + storeAddr 0 0x1000), BitVec.ofNat 64 (storeAddr 0 0x2000),
    4 <<< 32, 2]
def lst (st : Nat) (r : Option Round) : S := put { w0 [1] with leases := [(2, { state := st, words := wdz 0, slots := [0], round := r })], cores := [(0, { dma := [dd rdesc] })] } (storeAddr 0 0x1000) [0,0,0x80,0x3F]
def c0 : Contribution := ⟨0, 5, 0, 1, storeAddr 0 0x2000, 4, [0,0,0x80,0x3F]⟩
def c1 : Contribution := ⟨1, 6, 0, 1, storeAddr 1 0x2000, 4, [0,0,0x80,0x3F]⟩
def rr2 : Round := { rnd with contributors := [0, 16], got := [c0, { c1 with core := 16 }] }
def root2 : S := { lst 1 Option.none with leases := [(2, { state := 1, words := [BitVec.ofNat 64 (2^48 + 1 * 2^32 + 1 * 2^11)] ++ [0,0,0,0,0,0,0], slots := [0], round := some rr2 })] }
def pks : S := { w0 [1] with packets := [pk] }
def mc0 (d : DmaDesc) : S := { mc with cores := [(0, { dma := [d] })] }
def mc2 : S := served (nx mc (.multicast 0 Option.none))
def mcf2 : S := served (nx mcf (.multicast 0 Option.none))
def mdz : DmaDesc := { mdd with words := mdesc.set 3 0 }
def mcc : S := served (nx mc2 (.multicast 0 Option.none))
def mcx : S := nx mc2 (.multicast 0 Option.none)
def lq (a : Bool) (fb : Nat) (sl : Map Nat) (le : Lease) : S := served (nx (ls a fb sl le) (.leaseAcquire 3))
def lfull : Map Nat := (List.range 4).map fun i => (i, 1)
def fails1 (s : S) : S := { s with reqs := s.reqs.map fun r => { r with status := 1 } }
def lopx (a : Bool) : LeaseOp := { lop a with setAddr := 1 }
def lopr (a : Bool) : LeaseOp := { lop a with reply := some 0 }
def lso (o : LeaseOp) : S := { ls false 0 [] {} with leaseOps := [o] }
def re0 (st : Nat) (r : Option Round) : S := { lst st r with dm := { published := true } }
def red1 : S := lst 1 Option.none
def rdescf : List Word := rdesc.set 1 (BitVec.ofNat 64 (5 * 2^60 + storeAddr 16 0x1000))
def redf : S := put { red1 with cores := [(0, { dma := [dd rdescf] })] } (storeAddr 16 0x1000) [0,0,0x80,0x3F]
def redfq : S := served (nx redf (.reduce 0 Option.none))
def redq : S := served (nx red1 (.reduce 0 Option.none))
def r2 (st : Nat) : S := lst st (some { rnd with got := [c0, c1] })
def rdq : S := served (nx (r2 1) (.redPartial 2 0))
def fbq : S := served (nx (r2 2) (.fallbackMerge 2))
def rst (x : Option Status) : S := lst 1 (some { rnd with got := [c0, c1], status := x })
def wdf : List Word := (wdz 0).set 3 (BitVec.ofNat 64 (storeAddr 16 0x8000))
def k0 : Contribution := { c0 with kind := 0, dest := sliceBase + 0x2000 }
def k1 : Contribution := { c1 with kind := 0, dest := sliceBase + 0x2000 }
def rk (st : Nat) : S := { r2 st with leases := [(2, { state := st, words := wdf, slots := [0], round := some { rnd with got := [k0, k1] } })] }
def rkq : S := served (nx (rk 2) (.fallbackMerge 2))
def gl2 : GroupLease := { state := 1, mask := 3, lease := 2, root := 1 }

theorem witness_RoutersAndMulticast_1 :
    (let s : State := (mc0 mdbad); let core : Nat := 0; let d : DmaDesc := mdbad;
      let remote : Option (Status × List Byte) := Option.none;
    (decide (s.running = true ∧ s.nextDma core 4 (fun id => s.multicasts.any (·.desc == id)) = some d) &&
      let t := s.multicast core d remote; let who := Agent.dma core d.id; decide (t.settledB who)) &&
    (decide (s.running = true ∧ s.nextDma core 4 (fun id => s.multicasts.any (·.desc == id)) = some d) &&
      let ws := d.words; decide (dmaWellFormed ws = false))) = true := by decide +kernel

theorem witness_RoutersAndMulticast_2 :
    (let s : State := pks; let router : Nat := 1; let out : Nat := 0; let carried : Nat := 0;
    (decide (router < 1024 ∧ router % 128 < 80 ∧ s.dm.towers.contains (router / 128) = false ∧ s.running = true) &&
      let t := (s.combineAll.inject router).carry carried; let ready := t.readyFlits router out;
      match (t.router router).serve out ready with
      | some (_, _, _) => (true)
      | _ => false)) = true := by decide +kernel

theorem witness_RoutersAndMulticast_3 :
    (let s : State := pks; let router : Nat := 1; let out : Nat := 1; let carried : Nat := 0;
    (decide (router < 1024 ∧ router % 128 < 80 ∧ s.dm.towers.contains (router / 128) = false ∧ s.running = true) &&
      let t := (s.combineAll.inject router).carry carried; let ready := t.readyFlits router out;
      decide ((t.router router).serve out ready = none))) = true := by decide +kernel

theorem witness_RoutersAndMulticast_4 :
    (let s : State := (pks.setReg 0xA001 3 1);
    (decide (s.running = false))) = true := by decide +kernel

theorem witness_RoutersAndMulticast_5 :
    (let s : State := mcf; let core : Nat := 0; let d : DmaDesc := mdf; let remote : Option (Status × List Byte) := Option.none;
    (decide (s.running = true ∧ s.nextDma core 4 (fun id => s.multicasts.any (·.desc == id)) = some d) &&
      let t := s.multicast core d remote; let who := Agent.dma core d.id;
      decide (t.awaitsB [who]))) = true := by decide +kernel

theorem witness_RoutersAndMulticast_6 :
    (let s : State := mcf2; let core : Nat := 0; let d : DmaDesc := mdf; let rcd : List Word := (wdz 0);
      let remote : Option (Status × List Byte) := Option.none;
    (decide (s.running = true ∧ s.nextDma core 4 (fun id => s.multicasts.any (·.desc == id)) = some d) &&
      let ws := d.words; decide (dmaWellFormed ws = true) &&
      let n := dmaLen ws;
      decide (n ≠ 0 ∧ s.groupRanges (coreTower core) [(dmaSrc ws, n)] = 0 ∧ tileField ws 4 47 0 % 64 = 0 ∧
        d.record = some (0, rcd) ∧ setValid rcd = true ∧ dmaDst ws + n ≤ (if dmaKind ws = 2 then channelBytes else 0x40000)) &&
      let who := Agent.dma core d.id; let (data, _) := s.readGroup (dmaSrc ws) n who remote;
      decide (data.waiting = false))) = true := by decide +kernel

theorem witness_RoutersAndMulticast_7 :
    (let s : State := (mc0 mdz); let core : Nat := 0; let d : DmaDesc := mdz;
    (decide (s.running = true ∧ s.nextDma core 4 (fun id => s.multicasts.any (·.desc == id)) = some d) &&
      let ws := d.words; decide (dmaWellFormed ws = true) &&
      let n := dmaLen ws; decide (n = 0))) = true := by decide +kernel

theorem witness_RoutersAndMulticast_8 :
    (let s : State := mcx; let core : Nat := 0;
    (decide (s.running = true) &&
      let u := s.combineAll; let copies (id : Nat) : List (Nat × Req) := u.reqs.filterMap fun r => match r.src with
      | .copy e p => if e = id then some (p, r) else none
      | _ => none;
        let ended (m : Multicast) : Bool := m.core == core && u.combined m (clusterId core) &&
          (copies m.desc).all fun c => c.2.stage == .done;
        match u.multicasts.find? ended with
      | some _ => (true)
      | _ => false)) = true := by decide +kernel

theorem witness_RoutersAndMulticast_9 :
    (let s : State := mc; let core : Nat := 0;
    (decide (s.running = true) &&
      let u := s.combineAll; let copies (id : Nat) : List (Nat × Req) := u.reqs.filterMap fun r => match r.src with
      | .copy e p => if e = id then some (p, r) else none
      | _ => none;
        let ended (m : Multicast) : Bool := m.core == core && u.combined m (clusterId core) &&
          (copies m.desc).all fun c => c.2.stage == .done;
        decide (u.multicasts.find? ended = none))) = true := by decide +kernel

theorem witness_LeasesTakeAndFreeSlots_1 :
    (let s : State := (ls true 0 [] {}); let id : Nat := 3; let op : LeaseOp := (lop true); let v : BitVec 16 := 2;
    (decide (s.leaseOps.find? (·.id == id) = some op ∧ s.running = true ∧ op.reply = none ∧ s.leaseCut op = false ∧
        s.leaseTravels op = false ∧ op.acquire = true ∧ op.setAddr % 64 = 0 ∧ s.dm.towers = []) &&
      let who := Agent.dma op.core op.id;
      let read := if op.record.isSome then (op.record, s) else s.acceptRecord op.setAddr who; let (p0, s1) := read;
      decide (p0 = none ∧ s1.awaitsB [who])) &&
    (decide (s.steward.lost = false) && let k := v.toNat % 2 ^ 11; decide ((s.lease k).state = 0))) = true := by decide +kernel

theorem witness_LeasesTakeAndFreeSlots_2 :
    (let s : State := (lq true 0 [] { state := 1 }); let id : Nat := 3; let op : LeaseOp := (lop true); let v : BitVec 16 := 2;
    (decide (s.leaseOps.find? (·.id == id) = some op ∧ s.running = true ∧ op.reply = none ∧ s.leaseCut op = false ∧
        s.leaseTravels op = false ∧ op.acquire = true ∧ op.setAddr % 64 = 0 ∧ s.dm.towers = []) &&
      let who := Agent.dma op.core op.id;
      let read := if op.record.isSome then (op.record, s) else s.acceptRecord op.setAddr who; match read with
      | (some (st, rcd), s1) => (decide (s1.dm.towers = [] ∧ st = 0) &&
        let free := s1.lease op.lease;
        decide (¬ ( free.state = 0 ∧ setValid rcd = true ∧ setRootTower rcd = op.lease / 256) ∧
          (s1.replyLease op 0x02).settledB who))
      | _ => false) &&
    (decide (s.steward.lost = false) &&
      let k := v.toNat % 2 ^ 11; decide ((s.lease k).state ≠ 0 ∧ s.dm.towers = []))) = true := by decide +kernel

theorem witness_LeasesTakeAndFreeSlots_3 :
    (let s : State := (lq true 0 [] {}); let id : Nat := 3; let op : LeaseOp := (lop true);
    (decide (s.leaseOps.find? (·.id == id) = some op ∧ s.running = true ∧ op.reply = none ∧ s.leaseCut op = false ∧
        s.leaseTravels op = false ∧ op.acquire = true ∧ op.setAddr % 64 = 0 ∧ s.dm.towers = []) &&
      let who := Agent.dma op.core op.id;
      let read := if op.record.isSome then (op.record, s) else s.acceptRecord op.setAddr who; match read with
      | (some (st, rcd), s1) => (decide (s1.dm.towers = [] ∧ st = 0) &&
        let free := s1.lease op.lease; decide (free.state = 0 ∧ setValid rcd = true ∧ setRootTower rcd = op.lease / 256) &&
        match s1.reserveSlots op.lease (treeRouters rcd) [] with
      | some (got, s2) => (decide (((s2.setLease op.lease { free with state := 1, words := rcd, slots := got }).replyLease op 0).settledB who))
      | _ => false)
      | _ => false)) = true := by decide +kernel

theorem witness_LeasesTakeAndFreeSlots_4 :
    (let s : State := (lq true 0 lfull {}); let id : Nat := 3; let op : LeaseOp := (lop true);
    (decide (s.leaseOps.find? (·.id == id) = some op ∧ s.running = true ∧ op.reply = none ∧ s.leaseCut op = false ∧
        s.leaseTravels op = false ∧ op.acquire = true ∧ op.setAddr % 64 = 0 ∧ s.dm.towers = []) &&
      let who := Agent.dma op.core op.id;
      let read := if op.record.isSome then (op.record, s) else s.acceptRecord op.setAddr who; match read with
      | (some (st, rcd), s1) => (decide (s1.dm.towers = [] ∧ st = 0) &&
        let free := s1.lease op.lease;
        decide (free.state = 0 ∧ setValid rcd = true ∧ setRootTower rcd = op.lease / 256 ∧
          s1.reserveSlots op.lease (treeRouters rcd) [] = none ∧ setFallback rcd = false) &&
        let short := s1.towerSat 0xB604 (op.lease / 256) 1; decide ((short.replyLease op 0x09).settledB who))
      | _ => false)) = true := by decide +kernel

theorem witness_LeasesTakeAndFreeSlots_5 :
    (let s : State := (lq true 1 lfull {}); let id : Nat := 3; let op : LeaseOp := (lop true);
    (decide (s.leaseOps.find? (·.id == id) = some op ∧ s.running = true ∧ op.reply = none ∧ s.leaseCut op = false ∧
        s.leaseTravels op = false ∧ op.acquire = true ∧ op.setAddr % 64 = 0 ∧ s.dm.towers = []) &&
      let who := Agent.dma op.core op.id;
      let read := if op.record.isSome then (op.record, s) else s.acceptRecord op.setAddr who; match read with
      | (some (st, rcd), s1) => (decide (s1.dm.towers = [] ∧ st = 0) &&
        let free := s1.lease op.lease;
        decide (free.state = 0 ∧ setValid rcd = true ∧ setRootTower rcd = op.lease / 256 ∧
          s1.reserveSlots op.lease (treeRouters rcd) [] = none ∧ setFallback rcd = true) &&
        let short := s1.towerSat 0xB604 (op.lease / 256) 1;
        decide (((short.setLease op.lease { free with state := 2, words := rcd, slots := [] }).replyLease op 0).settledB who))
      | _ => false)) = true := by decide +kernel

theorem witness_LeasesTakeAndFreeSlots_6 :
    (let s : State := (fails1 (lq true 0 [] {})); let id : Nat := 3; let op : LeaseOp := (lop true); let st : Status := 1;
    (decide (s.leaseOps.find? (·.id == id) = some op ∧ s.running = true ∧ op.reply = none ∧ s.leaseCut op = false ∧
        s.leaseTravels op = false ∧ op.acquire = true ∧ op.setAddr % 64 = 0 ∧ s.dm.towers = []) &&
      let who := Agent.dma op.core op.id;
      let read := if op.record.isSome then (op.record, s) else s.acceptRecord op.setAddr who; match read with
      | (some (p0, _), s1) => (decide (p0 = st ∧ s1.dm.towers = [] ∧ st ≠ 0 ∧ (s1.replyLease op st).settledB who))
      | _ => false)) = true := by decide +kernel

theorem witness_LeasesTakeAndFreeSlots_7 :
    (let s : State := ((ls true 0 [] {}).setReg 0xA001 3 1); let id : Nat := 3; let op : LeaseOp := (lop true);
    (decide (s.leaseOps.find? (·.id == id) = some op ∧ s.running = false))) = true := by decide +kernel

theorem witness_LeasesTakeAndFreeSlots_8 :
    (let s : State := (lso (lopx true)); let id : Nat := 3; let op : LeaseOp := (lopx true);
    (decide (s.leaseOps.find? (·.id == id) = some op ∧ s.running = true ∧ op.reply = none ∧ s.leaseCut op = false ∧
        op.acquire = true ∧ op.setAddr % 64 ≠ 0))) = true := by decide +kernel

theorem witness_LeasesTakeAndFreeSlots_9 :
    (let s : State := (lso (lopr true)); let id : Nat := 3; let op : LeaseOp := (lopr true);
    (decide (s.leaseOps.find? (·.id == id) = some op ∧ s.running = true) &&
      match op.reply with
      | some _ => (decide (s.inTransit id 2 (clusterId op.core) = false))
      | _ => false)) = true := by decide +kernel

theorem witness_LeasesTakeAndFreeSlots_10 :
    (let s : State := { lso (lop true) with packets := [{ id := 3, channel := 2, src := 0, dsts := [leaseCluster 2], flits := 1 }] };
      let id : Nat := 3; let op : LeaseOp := (lop true);
    (decide (s.leaseOps.find? (·.id == id) = some op ∧ s.running = true ∧ op.reply = none ∧ s.leaseCut op = false ∧
        s.leaseTravels op = true ∧ op.acquire = true ∧ op.setAddr % 64 = 0))) = true := by decide +kernel

theorem witness_LeasesTakeAndFreeSlots_11 :
    (let s : State := (ls false 0 [(0, 3)] { state := 1, words := wdz 0, slots := [0], round := some rnd });
      let id : Nat := 3; let op : LeaseOp := (lop false);
    (decide (s.leaseOps.find? (·.id == id) = some op ∧ s.running = true ∧ op.reply = none ∧ s.leaseCut op = false ∧
        s.leaseTravels op = false ∧ op.acquire = false) &&
      let l := s.lease op.lease; decide (l.round.isSome = true))) = true := by decide +kernel

theorem witness_LeasesTakeAndFreeSlots_12 :
    (let s : State := (ls false 0 [(0, 3)] { state := 1, words := wdz 0, slots := [0] }); let id : Nat := 3;
      let op : LeaseOp := (lop false);
    (decide (s.leaseOps.find? (·.id == id) = some op ∧ s.running = true ∧ op.reply = none ∧ s.leaseCut op = false ∧
        s.leaseTravels op = false ∧ op.acquire = false) &&
      let l := s.lease op.lease; decide (l.round = none))) = true := by decide +kernel

theorem witness_ReductionsRunInRounds_1 :
    (let s : State := redfq; let core : Nat := 0; let l : Nat := 2; let d : DmaDesc := (dd rdescf);
      let remote : Option (Status × List Byte) := Option.none;
    (decide (s.running = true ∧ ((s.core core).dma.find? fun d => (d.words.headD 0).toNat / 2 ^ 40 % 256 == 2 &&
        d.status.isNone && dmaMode d.words == 5 &&
        !((s.roundEnds.any fun e => e.got.any (·.desc == d.id)) || s.leases.any fun e => match e.2.round with
      | some r => r.got.any (·.desc == d.id)
      | none => false) && !((s.roundEnds.any fun e => e.lease == tileField d.words 4 10 0 &&
          e.got.any (·.core == core)) || match (s.lease (tileField d.words 4 10 0)).round with
      | some r => r.got.any (·.core == core)
      | none => false)) = some d) &&
        let t := s.reduce core d remote; let who := Agent.dma core d.id; decide (t.settledB who)) &&
    (decide (s.running = true ∧ ((s.core core).dma.find? fun d => (d.words.headD 0).toNat / 2 ^ 40 % 256 == 2 &&
        d.status.isNone && dmaMode d.words == 5 &&
        !((s.roundEnds.any fun e => e.got.any (·.desc == d.id)) || s.leases.any fun e => match e.2.round with
      | some r => r.got.any (·.desc == d.id)
      | none => false) && !((s.roundEnds.any fun e => e.lease == tileField d.words 4 10 0 &&
          e.got.any (·.core == core)) || match (s.lease (tileField d.words 4 10 0)).round with
      | some r => r.got.any (·.core == core)
      | none => false)) = some d) &&
        let ws := d.words; decide (tileField ws 4 10 0 = l) &&
        let lease := s.lease l; decide (lease.state = 1 ∧ dmaWellFormed ws = true) &&
        let n := dmaLen ws;
        decide (n ≠ 0 ∧ n % 4 = 0 ∧ n ≤ 2 ^ 24 ∧ s.groupRanges (coreTower core) [(dmaSrc ws, n)] = 0 ∧
          s.destAbsent ws = false ∧ (s.boundTo l).any (fun b => b.2.state == 3) = false ∧
          (lease.round.elim (s.contributors lease.words) (·.contributors)).contains core = true ∧
          lease.round.any (fun r => r.got.any (·.core == core)) = false) &&
        let who := Agent.dma core d.id; let (data, _) := s.readGroup (dmaSrc ws) n who remote;
        decide (data.waiting = false ∧ data.status = 0))) = true := by decide +kernel

theorem witness_ReductionsRunInRounds_2 :
    (let s : State := (lst 1 Option.none); let l : Nat := 2;
    (let u := s.reachEnds l; decide ((u.lease l).round = none)) &&
    (decide (s.running = false ∨ (s.lease l).round = none))) = true := by decide +kernel

theorem witness_ReductionsRunInRounds_3 :
    (let s : State := { lst 1 (some { rnd with got := [c0] }) with run := 120000000 }; let l : Nat := 2;
    (let u := s.reachEnds l; match (u.lease l).round with
      | some r => (decide (u.running = true ∧ u.remoteRoot l = false ∧ r.status = none))
      | _ => false) &&
    (match (s.lease l).round with
      | some r => (decide (s.running = true ∧ s.remoteRoot l = false ∧ r.startedAt + msCycles (s.reg 0x5100 1) ≤ s.run ∧
          (r.contributors.all (fun k => r.got.any (·.core == k)) = false ∨ s.takesGroup l = true ∧
          r.partials.any (·.1 == groupKey) = false)))
      | _ => false)) = true := by decide +kernel

theorem witness_ReductionsRunInRounds_4 :
    (let s : State := redf; let core : Nat := 0; let d : DmaDesc := (dd rdescf);
      let remote : Option (Status × List Byte) := Option.none;
    (decide (s.running = true ∧ ((s.core core).dma.find? fun d => (d.words.headD 0).toNat / 2 ^ 40 % 256 == 2 &&
        d.status.isNone && dmaMode d.words == 5 &&
        !((s.roundEnds.any fun e => e.got.any (·.desc == d.id)) || s.leases.any fun e => match e.2.round with
      | some r => r.got.any (·.desc == d.id)
      | none => false) && !((s.roundEnds.any fun e => e.lease == tileField d.words 4 10 0 &&
          e.got.any (·.core == core)) || match (s.lease (tileField d.words 4 10 0)).round with
      | some r => r.got.any (·.core == core)
      | none => false)) = some d) &&
        let t := s.reduce core d remote; let who := Agent.dma core d.id;
        decide (t.awaitsB [who]))) = true := by decide +kernel

theorem witness_ReductionsRunInRounds_5 :
    (let s : State := (fails1 redfq); let core : Nat := 0; let l : Nat := 2; let d : DmaDesc := (dd rdescf);
      let remote : Option (Status × List Byte) := Option.none;
    (decide (s.running = true ∧ ((s.core core).dma.find? fun d => (d.words.headD 0).toNat / 2 ^ 40 % 256 == 2 &&
        d.status.isNone && dmaMode d.words == 5 &&
        !((s.roundEnds.any fun e => e.got.any (·.desc == d.id)) || s.leases.any fun e => match e.2.round with
      | some r => r.got.any (·.desc == d.id)
      | none => false) && !((s.roundEnds.any fun e => e.lease == tileField d.words 4 10 0 &&
          e.got.any (·.core == core)) || match (s.lease (tileField d.words 4 10 0)).round with
      | some r => r.got.any (·.core == core)
      | none => false)) = some d) &&
        let ws := d.words; decide (tileField ws 4 10 0 = l) &&
        let lease := s.lease l; decide (lease.state = 1 ∧ dmaWellFormed ws = true) &&
        let n := dmaLen ws;
        decide (n ≠ 0 ∧ n % 4 = 0 ∧ n ≤ 2 ^ 24 ∧ s.groupRanges (coreTower core) [(dmaSrc ws, n)] = 0 ∧
          s.destAbsent ws = false ∧ (s.boundTo l).any (fun b => b.2.state == 3) = false ∧
          (lease.round.elim (s.contributors lease.words) (·.contributors)).contains core = true ∧
          lease.round.any (fun r => r.got.any (·.core == core)) = false) &&
        let who := Agent.dma core d.id; let (data, _) := s.readGroup (dmaSrc ws) n who remote;
        decide (data.waiting = false ∧ data.status ≠ 0))) = true := by decide +kernel

theorem witness_ReductionsRunInRounds_6 :
    (let s : State := (r2 1); let l : Nat := 2; let router : Nat := 0;
    (let lease := s.lease l; match lease.round with
      | some r => (match r.got with
      | c :: _ => (decide (r.status = none ∧ s.running = true ∧ lease.state = 1 ∧ r.partials.any (·.1 == router) = false ∧
          (s.roundRouters l lease.words).contains router = true) &&
        match s.routerInputs l r lease.words c.rtype router with
      | some (inputs, k1) => (let root := setRootTower lease.words * 128 + setRootCluster lease.words;
        decide (router = root) &&
        let p := mergeAll c.rtype inputs; let u := s.towerWrap 0xB201 (router / 128) (k1 + p.2);
        let n := { r with partials := r.partials ++ [(router, p.1)] }; let t := u.finishRound l n c p.1 (.anchor l);
        decide (t.settledB (.anchor l)))
      | _ => false)
      | _ => false)
      | _ => false)) = true := by decide +kernel

theorem witness_ReductionsRunInRounds_7 :
    (let s : State := (lst 1 (some { rnd with got := [c0] })); let l : Nat := 2; let router : Nat := 0;
    (let lease := s.lease l; match lease.round with
      | some r => (match r.got with
      | c :: _ => (decide (r.status = none ∧ s.running = true ∧ lease.state = 1 ∧ r.partials.any (·.1 == router) = false ∧
          (s.roundRouters l lease.words).contains router = true ∧ s.routerInputs l r lease.words c.rtype router = none))
      | _ => false)
      | _ => false)) = true := by decide +kernel

theorem witness_ReductionsRunInRounds_8 :
    (let s : State := root2; let l : Nat := 2; let router : Nat := 1;
    (let lease := s.lease l; match lease.round with
      | some r => (match r.got with
      | c :: _ => (decide (r.status = none ∧ s.running = true ∧ lease.state = 1 ∧ r.partials.any (·.1 == router) = false ∧
          (s.roundRouters l lease.words).contains router = true) &&
        match s.routerInputs l r lease.words c.rtype router with
      | some (_, _) => (let root := setRootTower lease.words * 128 + setRootCluster lease.words; decide (router ≠ root))
      | _ => false)
      | _ => false)
      | _ => false)) = true := by decide +kernel

theorem witness_ReductionsRunInRounds_9 :
    (let s : State := fbq; let l : Nat := 2;
    (let lease := s.lease l; match lease.round with
      | some r => (match r.got with
      | c :: _ => (decide (r.status = none ∧ s.running = true ∧ lease.state = 2 ∧ s.takesGroup l = false) &&
        let root := setRootTower lease.words * 128 + setRootCluster lease.words;
        decide (r.partials.any (·.1 == root) = false ∧ r.contributors.all (fun k => r.got.any (·.core == k)) = true) &&
        let engine := (((List.range 16).map fun i => root * 16 + i).find? s.inService).getD (root * 16);
        let who := Agent.dma engine (mergerId l);
        let (q, ds, s1) := s.readSpans who ((List.range r.contributors.length).map fun i => (setFallbackAddr lease.words + i * c.len, c.len));
        decide (q.waiting = false ∧ q.status = 0) &&
        let r' := { r with got := r.got.map fun g => { g with data := ((List.zip r.contributors ds).find? (·.1 == g.core)).elim [] (·.2) } };
        let p := mergeTree lease.words r' c.rtype (s1.roundInputs l lease.words) 64 root;
        let t := ((s1.towerWrap 0xB201 (root / 128) p.2).towerWrap 0xB603 (root / 128) 1).finishRound l { r with partials := r.partials ++ [(root, p.1)] } c p.1 who;
        decide (t.settledB who))
      | _ => false)
      | _ => false)) = true := by decide +kernel

theorem witness_ReductionsRunInRounds_10 :
    (let s : State := (fails1 fbq); let l : Nat := 2;
    (let lease := s.lease l; match lease.round with
      | some r => (match r.got with
      | c :: _ => (decide (r.status = none ∧ s.running = true ∧ lease.state = 2 ∧ s.takesGroup l = false) &&
        let root := setRootTower lease.words * 128 + setRootCluster lease.words;
        decide (r.partials.any (·.1 == root) = false ∧ r.contributors.all (fun k => r.got.any (·.core == k)) = true) &&
        let engine := (((List.range 16).map fun i => root * 16 + i).find? s.inService).getD (root * 16);
        let who := Agent.dma engine (mergerId l);
        let (q, _, s1) := s.readSpans who ((List.range r.contributors.length).map fun i => (setFallbackAddr lease.words + i * c.len, c.len));
        decide (q.waiting = false ∧ q.status ≠ 0) &&
        let u := s1.setLease l { s1.lease l with round := some { r with status := some q.status } }; decide (u.settledB who))
      | _ => false)
      | _ => false)) = true := by decide +kernel

theorem witness_ReductionsRunInRounds_11 :
    (let s : State := (rk 1); let l : Nat := 2; let router : Nat := 0;
    (let lease := s.lease l; match lease.round with
      | some r => (match r.got with
      | c :: _ => (decide (r.status = none ∧ s.running = true ∧ lease.state = 1 ∧ r.partials.any (·.1 == router) = false ∧
          (s.roundRouters l lease.words).contains router = true) &&
        match s.routerInputs l r lease.words c.rtype router with
      | some (inputs, k1) => (let root := setRootTower lease.words * 128 + setRootCluster lease.words;
        decide (router = root) &&
        let p := mergeAll c.rtype inputs; let u := s.towerWrap 0xB201 (router / 128) (k1 + p.2);
        let n := { r with partials := r.partials ++ [(router, p.1)] }; let t := u.finishRound l n c p.1 (.anchor l);
        decide (t.awaitsB [.anchor l]))
      | _ => false)
      | _ => false)
      | _ => false)) = true := by decide +kernel

theorem witness_ReductionsRunInRounds_12 :
    (let s : State := (rk 2); let l : Nat := 2;
    (let lease := s.lease l; match lease.round with
      | some r => (match r.got with
      | c :: _ => (decide (r.status = none ∧ s.running = true ∧ lease.state = 2 ∧ s.takesGroup l = false) &&
        let root := setRootTower lease.words * 128 + setRootCluster lease.words;
        decide (r.partials.any (·.1 == root) = false ∧ r.contributors.all (fun k => r.got.any (·.core == k)) = true) &&
        let engine := (((List.range 16).map fun i => root * 16 + i).find? s.inService).getD (root * 16);
        let who := Agent.dma engine (mergerId l);
        let (q, _, s1) := s.readSpans who ((List.range r.contributors.length).map fun i => (setFallbackAddr lease.words + i * c.len, c.len));
        decide (q.waiting = true ∧ s1.awaitsB [who]))
      | _ => false)
      | _ => false)) = true := by decide +kernel

theorem witness_ReductionsRunInRounds_13 :
    (let s : State := rkq; let l : Nat := 2;
    (let lease := s.lease l; match lease.round with
      | some r => (match r.got with
      | c :: _ => (decide (r.status = none ∧ s.running = true ∧ lease.state = 2 ∧ s.takesGroup l = false) &&
        let root := setRootTower lease.words * 128 + setRootCluster lease.words;
        decide (r.partials.any (·.1 == root) = false ∧ r.contributors.all (fun k => r.got.any (·.core == k)) = true) &&
        let engine := (((List.range 16).map fun i => root * 16 + i).find? s.inService).getD (root * 16);
        let who := Agent.dma engine (mergerId l);
        let (q, ds, s1) := s.readSpans who ((List.range r.contributors.length).map fun i => (setFallbackAddr lease.words + i * c.len, c.len));
        decide (q.waiting = false ∧ q.status = 0) &&
        let r' := { r with got := r.got.map fun g => { g with data := ((List.zip r.contributors ds).find? (·.1 == g.core)).elim [] (·.2) } };
        let p := mergeTree lease.words r' c.rtype (s1.roundInputs l lease.words) 64 root;
        let t := ((s1.towerWrap 0xB201 (root / 128) p.2).towerWrap 0xB603 (root / 128) 1).finishRound l { r with partials := r.partials ++ [(root, p.1)] } c p.1 who;
        decide (t.awaitsB [who]))
      | _ => false)
      | _ => false)) = true := by decide +kernel

theorem witness_ReductionsRunInRounds_14 :
    (let s : State := { rst (some 8) with group := { (rst Option.none).group with leases := [(0, gl2)] } }; let l : Nat := 2;
    (let u := s.reachEnds l; match (u.lease l).round with
      | some _ => (decide (u.running = true ∧ u.remoteRoot l = true))
      | _ => false)) = true := by decide +kernel

theorem witness_ReductionsRunInRounds_15 :
    (let s : State := (rst (some 0)); let l : Nat := 2; let st : Status := 0;
    (let u := s.reachEnds l; match (u.lease l).round with
      | some r => (decide (u.running = true ∧ u.remoteRoot l = false ∧ r.status = some st ∧ u.roundFull r = true))
      | _ => false)) = true := by decide +kernel

end Case13

namespace Case14

def sm (op : SyncOp) (v : Word32) (t : Target) : SyncMsg := { id := 4, op := op, object := 5, value := v, target := t, came := some 0 }
def so (op : SyncOp) (v : Word32) (t : Target) (o : SyncObj) : S := { w0 [1] with syncMsgs := [sm op v t], syncObjs := [(5, o)] }
def tc : Target := .counter 0 0 1
def tw : Target := .wait 0 0 9
def dm1 (ws : List Word) : S := put { w0 [1] with cores := [(0, { dma := [dd ws] })] } (storeAddr 0 0x1000) [1,2,3,4,0,0,0,0]
def st0 (a : Nat) : Word := BitVec.ofNat 64 (storeAddr 0 a)
def fw : List Word := [2 <<< 40, 2 <<< 60, st0 0x2000, 64 <<< 32 ||| 0xA5A5A5A5, 0, 0, 0, 0]
def gw : List Word := [2 <<< 40, 3 <<< 60 ||| st0 0x3000, st0 0x2000, 16 <<< 32, st0 0x8000, 16 <<< 32 ||| 8, 0, 0]
def kw (f : Nat) : List Word := [2 <<< 40, 1 <<< 60 ||| st0 0x1000, st0 0x2000, 0, 32 <<< 48 ||| st0 0x6000, st0 0x7000,
    BitVec.ofNat 64 (2^55 + 32 * 2^42 + 32 * 2^29 + f * 2^25 + 2^24), 0]
def sw : List Word := [7 <<< 40, 0x400, 128 <<< 32, st0 0x2000, 0,0,0,0]

def dmf (ws : List Word) : S := put { w0 [1] with cores := [(0, { dma := [dd ws] })] } (storeAddr 16 0x1000) [1,2,3,4,0,0,0,0]
def stf (a : Nat) : Word := BitVec.ofNat 64 (storeAddr 16 a)
def cpf : List Word := [2 <<< 40, stf 0x1000, stf 0x2000, 64 <<< 32, 0, 0, 0, 0]
def q1 (c : Instr) (s : S) : S := served (nx s c)
def ff : List Word := [2 <<< 40, BitVec.ofNat 64 (2 * 2^60 + 0), stf 0x2000, 64 <<< 32 ||| 0xA5A5A5A5, 0, 0, 0, 0]
def gf : List Word := [2 <<< 40, 3 <<< 60 ||| stf 0x3000, stf 0x2000, 16 <<< 32, stf 0x8000, 16 <<< 32 ||| 8, 0, 0]
def qg (s : S) : S := q1 (.gather 0 [] Option.none) s
def kf (f : Nat) : List Word := [2 <<< 40, 1 <<< 60 ||| stf 0x1000, stf 0x2000, 0, 32 <<< 48 ||| stf 0x6000, stf 0x7000,
    BitVec.ofNat 64 (2^55 + 32 * 2^42 + 32 * 2^29 + f * 2^25 + 2^24), 0]
def qk (s : S) : S := q1 (.skew 0 Option.none Option.none) s
def skewReq (id a : Nat) (k : ReqKind) (data : List Byte) : Req :=
  { id := id, src := .unit (.dma 0 5), kind := k, addr := storeAddr 16 a, loc := storeAddr 16 a, stage := .done, data := data }
/-- A SKEW of one row of 32 elements on 8 lanes, all of whose lines have come. -/
def skewCome : S :=
  let out : List Byte := [1, 2, 3, 4].flatMap (fun b => b :: List.replicate 7 0) ++ List.replicate 280 0
  { dmf (kf 3) with
    reqs := [skewReq 100 0x1000 (.read 32) ([1, 2, 3, 4] ++ List.replicate 28 0), skewReq 101 0x6000 (.read 1) [0]] ++
      (List.range 5).map (fun i => skewReq (102 + i) (0x2000 + 64 * i) (.write ((out.drop (64 * i)).take 64)) []) ++
      [skewReq 107 0x7000 (.write (0 :: List.replicate 7 0x7F)) []]
    fresh := 108 }
def rcp : List Word := [2 <<< 40, BitVec.ofNat 64 (2^48 + storeAddr 0 0x1000), stf 0x2000, 64 <<< 32, 0, 0, 0, 0]
def rdm : S := { gsx { shape := 1, member := 0 } [(0x5200,6,3)] with cores := [(0, { dma := [dd rcp] })] }
def rem1 : Option (Status × List Byte) := some (0, List.replicate 64 7)
def bad0 (ws : List Word) (i : Nat) (w : Word) : List Word := ws.set i w
def badw (ws : List Word) : S := dm1 (ws.set 6 (2^60))
def eds (ws : List (List Word)) : List (List Word) := ws
def fz : List Word := ff.set 3 5
def gz : List Word := gf.set 3 0
def kz : List Word := (kf 3).set 6 (BitVec.ofNat 64 (2^55 + 32 * 2^29 + 3 * 2^25 + 2^24))
def cz : List Word := cpf.set 3 0
def f7 : List Word := ff.set 2 (BitVec.ofNat 64 (2^48))
def g7 : List Word := gf.set 2 (BitVec.ofNat 64 (2^48))
def k7 : List Word := (kf 3).set 2 (BitVec.ofNat 64 (2^48))
def sbf (a : Nat) : S := { dm1 sw with channels := [(0, { scrubs := [{ core := 0, desc := 5, next := 7, stop := 7, summary := a }] })] }

def lineA : Nat := storeAddr 0 0x2000 / 64
def rcs : S := { clean (put { w0 [1] with cores := [(0, { copies := [{ dst := storeAddr 0 0x2000, len := 128, src := some 0x4000, pattern := 0 }] })] } 0x4000 [7,7,7]) 0x100 2 with
  mem := { (clean (put (w0 [1]) 0x4000 [7,7,7]) 0x100 2).mem with crc := [(lineA, 5)], recoveries := [{ line := lineA, reader := .other, kind := .refetch }] }, channels := [(3, { symbolCounts := [(1, 5)] })], now := 1200000000 }
def rre : S := { rcs with mem := { rcs.mem with recoveries := [{ line := lineA, reader := .other, kind := .rerun 9 }], reruns := [(0, [{ id := 9, words := [0, 0x100, 0,0,0,0,0,0], queue := 0, core := 0, ctx := 0, running := false }])] } }
def wbs : S := { rcs with mem := { rcs.mem with wbLog := [(3, { count := 1 }), (64, { count := 2 })], wbFull := [(0, 1), (1, 1)], wbSuppress := [(5, true), (2048, true)] } }


def tr_ : Target := .remote 3 9
def rcf : S := { rcs with cores := [(0, { copies := [{ dst := storeAddr 0 0x2000, len := 128, src := some (storeAddr 16 0x4000), pattern := 0 }] })] }
def rcq : S := served (nx rcf (.refetchComplete ⟨lineA, Option.none⟩))
def smr : SyncMsg := { sm .read 0 tw with object := 2^13 + 5 }
def sor (mem : Nat) : S := { gsx { shape := 1, member := 0 } [(0x5200,6,mem)] with syncMsgs := [smr] }

theorem witness_SyncObjectOperations_1 :
    (let s : State := { so .add 0 tc {} with syncMsgs := [{ sm .add 0 tc with reply := some (0, 0) }], releases := [⟨5, 0, 0, 0⟩] };
      let id : Nat := 4; let cluster : Nat := 0; let object : Nat := 5;
      let m : SyncMsg := { sm .add 0 tc with reply := some (0, 0) };
    (decide (s.syncTurn id .add = some m) &&
      let o := m.object % 2 ^ 13; let obj := s.syncObj o; let sum := obj.count.toNat + m.value.toNat;
      decide (sum ≤ 0xFFFFFFFF)) &&
    (decide (s.syncMsgs.find? (·.id == id) = some m ∧ s.running = true) &&
      match m.reply with
      | some (_, _) => (decide (s.syncBehind m = false))
      | _ => false) &&
    (decide (s.running = true) &&
      match s.releases.find? (fun r => r.cluster == cluster && r.object == object) with
      | some rel => (decide (s.ctlBehind cluster object rel.at_ = false ∧ s.inTransit rel.at_ 2 cluster = false))
      | _ => false) &&
    (decide (s.steward.lost = false ∧ s.dm.towers = []))) = true := by decide +kernel

theorem witness_SyncObjectOperations_2 :
    (let s : State := { so .read 0 tw {} with cores := [(0, { ctxs := [(0, { state := .waitMem, wait := .syncRead 9 3 })] })], syncMsgs := [{ sm .read 0 tw with reply := some (0, 7) }] };
      let id : Nat := 4; let m : SyncMsg := { sm .read 0 tw with reply := some (0, 7) };
    (decide (s.syncTurn id .read = some m)) &&
    (decide (s.syncMsgs.find? (·.id == id) = some m ∧ s.running = true) &&
      match m.reply with
      | some (_, _) => (decide (s.syncBehind m = false ∧ m.op = .read) &&
        match m.target with
      | .wait _ _ _ => (true)
      | _ => false)
      | _ => false)) = true := by decide +kernel

theorem witness_SyncObjectOperations_3 :
    (let s : State := { so .wait 0 tw {} with syncMsgs := [{ sm .wait 0 tw with reply := some (0, 1) }] }; let id : Nat := 4;
      let m : SyncMsg := { sm .wait 0 tw with reply := some (0, 1) };
    (decide (s.syncTurn id .wait = some m) && let o := m.object % 2 ^ 13; let obj := s.syncObj o; decide (obj.armed = false)) &&
    (decide (s.syncMsgs.find? (·.id == id) = some m ∧ s.running = true) &&
      match m.reply with
      | some (st, x) => (decide (s.syncBehind m = false) &&
        match m.target with
      | .wait _ _ _ => (decide (m.op = .wait ∧ st = 0 ∧ x ≠ 0))
      | _ => false)
      | _ => false)) = true := by decide +kernel

theorem witness_SyncObjectOperations_4 :
    (let s : State := (sor 3); let id : Nat := 4; let object : Nat := (2^13+5); let m : SyncMsg := smr;
    (decide (s.syncMsgs.find? (·.id == id) = some m ∧ s.running = true ∧ m.reply = none ∧
        s.isOwn (m.object / 2 ^ 13) = false ∧ s.memberDevice (m.object / 2 ^ 13) = true)) &&
    (decide (s.running = true ∧ s.isOwn (object / 2 ^ 13) = false ∧
        s.memberDevice (object / 2 ^ 13) = true))) = true := by decide +kernel

theorem witness_SyncObjectOperations_5 :
    (let s : State := (so .add 3 tc { target := 3, armed := true, clusters := [0], count := 0xFFFFFFFE }); let id : Nat := 4;
      let m : SyncMsg := (sm .add 3 tc);
    (decide (s.syncTurn id .add = some m) &&
      let o := m.object % 2 ^ 13; let obj := s.syncObj o; let sum := obj.count.toNat + m.value.toNat;
      decide (0xFFFFFFFF < sum))) = true := by decide +kernel

theorem witness_SyncObjectOperations_6 :
    (let s : State := (so .wait 3 tw { target := 3, armed := true }); let id : Nat := 4; let m : SyncMsg := (sm .wait 3 tw);
    (decide (s.syncTurn id .wait = some m) &&
      let o := m.object % 2 ^ 13; let obj := s.syncObj o; decide (obj.armed = true) &&
      match m.target.cluster with
      | some _ => (true)
      | _ => false)) = true := by decide +kernel

theorem witness_SyncObjectOperations_7 :
    (let s : State := (so .arm 3 tc { target := 3, armed := false, count := 9 }); let id : Nat := 4;
      let m : SyncMsg := (sm .arm 3 tc);
    (decide (s.syncTurn id .arm = some m))) = true := by decide +kernel

theorem witness_SyncObjectOperations_8 :
    (let s : State := (so .wait 3 tr_ { target := 3, armed := true }); let id : Nat := 4; let m : SyncMsg := (sm .wait 3 tr_);
    (decide (s.syncTurn id .wait = some m) &&
      let o := m.object % 2 ^ 13; let obj := s.syncObj o; decide (obj.armed = true) &&
      match m.target with
      | .remote _ _ => (true)
      | _ => false)) = true := by decide +kernel

theorem witness_SyncObjectOperations_9 :
    (let s : State := { so .read 0 tr_ {} with syncMsgs := [{ sm .read 0 tr_ with reply := some (0, 7) }] };
      let id : Nat := 4; let m : SyncMsg := { sm .read 0 tr_ with reply := some (0, 7) };
    (decide (s.syncMsgs.find? (·.id == id) = some m ∧ s.running = true) &&
      match m.reply with
      | some (_, _) => (decide (s.syncBehind m = false) &&
        match m.target with
      | .remote _ _ => (true)
      | _ => false)
      | _ => false)) = true := by decide +kernel

theorem witness_SyncObjectOperations_10 :
    (let s : State := { so .wait 0 tw {} with syncMsgs := [{ sm .wait 0 tw with reply := some (0, 0) }] }; let id : Nat := 4;
      let m : SyncMsg := { sm .wait 0 tw with reply := some (0, 0) };
    (decide (s.syncMsgs.find? (·.id == id) = some m ∧ s.running = true) &&
      match m.reply with
      | some (st, x) => (decide (s.syncBehind m = false) &&
        match m.target with
      | .wait _ _ _ => (decide (m.op = .add ∨ m.op = .arm ∨ (m.op = .wait ∧ (st ≠ 0 ∨ x = 0))))
      | _ => false)
      | _ => false)) = true := by decide +kernel

theorem witness_SyncObjectOperations_11 :
    (let s : State := (sor 1); let id : Nat := 4; let m : SyncMsg := smr;
    (decide (s.syncMsgs.find? (·.id == id) = some m ∧ s.running = true ∧ m.reply = none ∧
        s.isOwn (m.object / 2 ^ 13) = false ∧ s.memberDevice (m.object / 2 ^ 13) = false))) = true := by decide +kernel

theorem witness_DmaDescriptorsAndScrubs_1 :
    (let s : State := (clean (dm1 [2 <<< 40, 0, st0 0x2000, 64 <<< 32, 0, 0, 0, 0]) 0 1); let core : Nat := 0;
      let d : DmaDesc := (dd [2 <<< 40, 0, st0 0x2000, 64 <<< 32, 0, 0, 0, 0]);
      let remote : Option (Status × List Byte) := Option.none; let ack : Option Status := Option.none;
    (decide (s.running = true ∧ (s.core core).dma.find? (fun d => (d.words.headD 0).toNat / 2 ^ 40 % 256 == 2 &&
        d.status.isNone && (fun m => m == 0 || 6 ≤ m) (dmaMode d.words)) = some d) &&
      let who := Agent.dma core d.id; decide ((s.copyWork core remote ack d).awaitsB [who]))) = true := by decide +kernel

theorem witness_DmaDescriptorsAndScrubs_2 :
    (let s : State := (dm1 [2 <<< 40, st0 0x1000, st0 0x1008, 64 <<< 32, 0, 0, 0, 0]); let core : Nat := 0;
      let d : DmaDesc := (dd [2 <<< 40, st0 0x1000, st0 0x1008, 64 <<< 32, 0, 0, 0, 0]);
    (decide (s.running = true ∧ (s.core core).dma.find? (fun d => (d.words.headD 0).toNat / 2 ^ 40 % 256 == 2 &&
        d.status.isNone && (fun m => m == 0 || 6 ≤ m) (dmaMode d.words)) = some d) &&
      let ws := d.words; decide (dmaWellFormed ws = true) &&
      let n := dmaLen ws; decide (¬ (n = 0)) &&
      let tower := coreTower core; let src := dmaSrc ws; let dst := dmaDst ws;
      let st := s.dmaChecks tower [(src, n), (dst, n)] (!s.overlapping src dst n); decide (st ≠ 0) &&
      let who := Agent.dma core d.id; decide ((s.endDma core d.id st).settledB who))) = true := by decide +kernel

theorem witness_DmaDescriptorsAndScrubs_3 :
    (let s : State := (dm1 [2 <<< 40, st0 0x1000, st0 0x1008, 64 <<< 32, 1, 0, 0, 0]); let core : Nat := 0;
      let d : DmaDesc := (dd [2 <<< 40, st0 0x1000, st0 0x1008, 64 <<< 32, 1, 0, 0, 0]);
    (decide (s.running = true ∧ (s.core core).dma.find? (fun d => (d.words.headD 0).toNat / 2 ^ 40 % 256 == 2 &&
        d.status.isNone && (fun m => m == 0 || 6 ≤ m) (dmaMode d.words)) = some d) &&
      let ws := d.words; decide (dmaWellFormed ws = false) &&
      let who := Agent.dma core d.id; decide ((s.endDma core d.id 0x02).settledB who))) = true := by decide +kernel

theorem witness_DmaDescriptorsAndScrubs_4 :
    (let s : State := { dm1 (kw 3) with cores := [(0, { dma := [{ dd (kw 3) with status := some 5 }] })] };
      let core : Nat := 0; let d : DmaDesc := { dd (kw 3) with status := some 5 };
    (decide (s.running = true ∧ (s.core core).dma.find? (·.status.isSome) = some d))) = true := by decide +kernel

theorem witness_DmaDescriptorsAndScrubs_5 :
    (let s : State := (dm1 sw); let core : Nat := 0; let d : DmaDesc := (dd sw);
    (decide (s.running = true ∧ ((s.core core).dma.find? fun d => (d.words.headD 0).toNat / 2 ^ 40 % 256 == 7 &&
        d.status.isNone && !(s.channels.any fun e => e.2.scrubs.any (·.desc == d.id))) = some d) &&
      let ws := d.words; decide (scrubWellFormed ws = true) &&
      let len := tileField ws 2 63 32; decide (len ≠ 0) &&
      let start := tileField ws 1 47 0; let k := start / dramTower * 2048 + start % dramTower / channelBytes;
      decide (s.issuer k = some core ∧ start < 8 * dramTower ∧ start % 64 = 0 ∧ len % 64 = 0 ∧ len ≤ 2 ^ 26) &&
      let summary := tileField ws 3 47 0; decide (summary % 64 = 0) &&
      let tower := coreTower core;
      decide (s.dmaChecks tower [(s.ownAddr start, len), (s.ownAddr summary, 64)] true = 0))) = true := by decide +kernel

theorem witness_DmaDescriptorsAndScrubs_6 :
    (let s : State := (q1 (.copy 0 Option.none Option.none) (q1 (.copy 0 Option.none Option.none) (dmf cpf)));
      let core : Nat := 0; let d : DmaDesc := (dd cpf); let remote : Option (Status × List Byte) := Option.none;
      let ack : Option Status := Option.none;
    (decide (s.running = true ∧ (s.core core).dma.find? (fun d => (d.words.headD 0).toNat / 2 ^ 40 % 256 == 2 &&
        d.status.isNone && (fun m => m == 0 || 6 ≤ m) (dmaMode d.words)) = some d) &&
      let ws := d.words; decide (dmaWellFormed ws = true) &&
      let n := dmaLen ws; decide (n ≠ 0) &&
      let tower := coreTower core; let src := dmaSrc ws; let dst := dmaDst ws;
      let st := s.dmaChecks tower [(src, n), (dst, n)] (!s.overlapping src dst n);
      decide (st = 0 ∧ (remote = none ∧ ack = none ∨ s.isOwn (src / 2 ^ 48 % 64) = true ∧ s.isOwn (dst / 2 ^ 48 % 64) = true)) &&
      let who := Agent.dma core d.id; let reads := pieces (s.homeAddr src) n;
      let x := s.advance who d.rerun (s.homeAddr dst) reads (s.readSoFar who reads) fun k => reads.countP fun p => p.1 + p.2 ≤ s.homeAddr src + k;
      decide (x.1 ≠ askedStatus) &&
      let noted (t : State) (x : Status) : State := if x = 0 && inDram (src % 2 ^ 48) then t.noteCopy dst n (some src) 0 else t;
      decide (((noted x.2 x.1).endDma core d.id x.1).settledB who))) = true := by decide +kernel

theorem witness_DmaDescriptorsAndScrubs_7 :
    (let s : State := (q1 (.copy 0 Option.none Option.none) (q1 (.copy 0 Option.none Option.none) (dmf cpf)));
      let who : Agent := (.dma 0 5); let prod : Option Nat := Option.none; let dst : Nat := (storeAddr 16 0x2000);
      let reads : List (Nat × Nat) := (pieces (storeAddr 16 0x1000) 64);
      let r : ReadResult := ((q1 (.copy 0 Option.none Option.none) (q1 (.copy 0 Option.none Option.none) (dmf cpf))).readSoFar (.dma 0 5) (pieces (storeAddr 16 0x1000) 64));
      let used : Nat → Nat := (fun k => k);
    (decide ((s.advance who prod dst reads r used).1 = 0))) = true := by decide +kernel

theorem witness_DmaDescriptorsAndScrubs_8 :
    (let s : State := (dmf ff); let core : Nat := 0; let d : DmaDesc := (dd ff); let ack : Option Status := Option.none;
    (decide (s.running = true ∧ (s.core core).dma.find? (fun d => (d.words.headD 0).toNat / 2 ^ 40 % 256 == 2 &&
        d.status.isNone && (· == 2) (dmaMode d.words)) = some d) &&
      let who := Agent.dma core d.id; decide ((s.fillWork core ack d).awaitsB [who]))) = true := by decide +kernel

theorem witness_DmaDescriptorsAndScrubs_9 :
    (let s : State := (q1 (.fill 0 Option.none) (dmf ff)); let core : Nat := 0; let d : DmaDesc := (dd ff);
      let ack : Option Status := Option.none;
    (decide (s.running = true ∧ (s.core core).dma.find? (fun d => (d.words.headD 0).toNat / 2 ^ 40 % 256 == 2 &&
        d.status.isNone && (· == 2) (dmaMode d.words)) = some d) &&
      let ws := d.words; decide (dmaWellFormed ws = true) &&
      let n := dmaLen ws; decide (n ≠ 0) &&
      let tower := coreTower core; let dst := dmaDst ws;
      let st := s.dmaChecks tower [(dst, n)] (!inDram (dst % 2 ^ 48) || (dst % 64 == 0 && n % 64 == 0)); decide (st = 0) &&
      let who := Agent.dma core d.id; let (w, s1) := s.writeGroup dst (fillBytes (tileField ws 3 31 0) n) d.rerun ack who;
      decide (w ≠ askedStatus ∧ ((if w = 0 then s1.noteCopy dst n none (BitVec.ofNat 32 (tileField ws 3 31 0)) else s1).endDma core d.id w).settledB who))) = true := by decide +kernel

theorem witness_DmaDescriptorsAndScrubs_10 :
    (let s : State := (dmf gf); let core : Nat := 0; let d : DmaDesc := (dd gf);
      let answers : List (Status × List Byte) := []; let ack : Option Status := Option.none;
    (decide (s.running = true ∧ (s.core core).dma.find? (fun d => (d.words.headD 0).toNat / 2 ^ 40 % 256 == 2 &&
        d.status.isNone && (· == 3) (dmaMode d.words)) = some d) &&
      let who := Agent.dma core d.id; decide ((s.gatherWork core answers ack d).awaitsB [who]))) = true := by decide +kernel

theorem witness_DmaDescriptorsAndScrubs_11 :
    (let s : State := (qg (qg (qg (dmf gf)))); let core : Nat := 0; let d : DmaDesc := (dd gf);
      let answers : List (Status × List Byte) := []; let ack : Option Status := Option.none;
    (decide (s.running = true ∧ (s.core core).dma.find? (fun d => (d.words.headD 0).toNat / 2 ^ 40 % 256 == 2 &&
        d.status.isNone && (· == 3) (dmaMode d.words)) = some d) &&
      let ws := d.words; decide (dmaWellFormed ws = true) &&
      let n := dmaLen ws; decide (n ≠ 0) &&
      let size := tileField ws 5 12 0; decide (size ≠ 0) &&
      let base := tileField ws 4 53 0; let tower := coreTower core; let src := dmaSrc ws; let dst := dmaDst ws;
      let st := if s.memberDevice (base / 2 ^ 48 % 64) then s.dmaChecks tower [(src, 4 * (n / size)), (dst,
        n)] (n % size == 0 && size ≤ 4096) else 0x07;
      decide (st = 0 ∧ (ack = none ∨ s.isOwn (dst / 2 ^ 48 % 64) = true)) &&
      let who := Agent.dma core d.id;
      let g := s.gatherList core who answers base (tileField ws 5 63 32) size (pieces src (4 * (n / size))) [] {};
      let x := s.advance who d.rerun (s.homeAddr dst) ((g.reads.filter fun l => answers.isEmpty || s.isOwn (l / 2 ^ 48 % 64)).map fun l => (s.homeAddr l, 64)) g.data fun k => if k < size then 0 else g.uses.getD (k / size - 1) 0;
      decide (x.1 ≠ askedStatus ∧ (x.2.endDma core d.id x.1).settledB who))) = true := by decide +kernel

theorem witness_DmaDescriptorsAndScrubs_12 :
    (let s : State := (dmf (kf 3)); let core : Nat := 0; let d : DmaDesc := (dd (kf 3));
      let remote : Option (Status × List Byte) := Option.none; let ack : Option Status := Option.none;
    (decide (s.running = true ∧ (s.core core).dma.find? (fun d => (d.words.headD 0).toNat / 2 ^ 40 % 256 == 2 &&
        d.status.isNone && (· == 1) (dmaMode d.words)) = some d) &&
      let who := Agent.dma core d.id; decide ((s.skewWork core remote ack d).awaitsB [who]))) = true := by decide +kernel

theorem witness_DmaDescriptorsAndScrubs_13 :
    (let s : State := skewCome; let core : Nat := 0; let d : DmaDesc := (dd (kf 3));
      let remote : Option (Status × List Byte) := Option.none; let ack : Option Status := Option.none;
    (decide (s.running = true ∧ (s.core core).dma.find? (fun d => (d.words.headD 0).toNat / 2 ^ 40 % 256 == 2 &&
        d.status.isNone && (· == 1) (dmaMode d.words)) = some d) &&
      let ws := d.words; decide (dmaWellFormed ws = true) &&
      let x := skewOf ws; decide (x.m ≠ 0 ∧ x.k ≠ 0) &&
      let tower := coreTower core; let src := dmaSrc ws; let dst := dmaDst ws;
      let srcScale := s.ownAddr (tileField ws 4 47 0); let dstScale := s.ownAddr (tileField ws 5 47 0);
      let st := s.dmaChecks tower [(src, x.srcBytes), (dst, x.outBytes), (srcScale, x.srcScales), (dstScale,
        x.scaleBytes)] x.legal;
      decide (st = 0 ∧ x.srcBytes ≠ 0) &&
      let who := Agent.dma core d.id; let (r, s1) := s.readGroup src x.srcBytes who remote;
      decide (r.waiting = false ∧ r.status = 0) &&
      let (q, s2) := s1.readRange (srcScale % 2 ^ 48) x.srcScales who; decide (q.waiting = false ∧ q.status = 0) &&
      let mask := 2 ^ x.bits - 1; let el (i : Nat) : Nat := bytesToNat r.bytes / 2 ^ (i * x.bits) % (mask + 1);
      let (p0, s3) := s2.writeGroup dst (x.string el) d.rerun ack who; decide (p0 = 0) &&
      let (w, s4) := s3.writeRange (dstScale % 2 ^ 48) (x.scales (q.bytes.getD · 0) 0x7F) d.rerun who;
      decide (w ≠ askedStatus ∧ (s4.endDma core d.id w).settledB who))) = true := by decide +kernel

theorem witness_DmaDescriptorsAndScrubs_14 :
    (let s : State := (q1 (.copy 0 rem1 Option.none) rdm); let core : Nat := 0; let d : DmaDesc := (dd rcp);
      let remote : Option (Status × List Byte) := rem1; let ack : Option Status := Option.none;
    (decide (s.running = true ∧ (s.core core).dma.find? (fun d => (d.words.headD 0).toNat / 2 ^ 40 % 256 == 2 &&
        d.status.isNone && (fun m => m == 0 || 6 ≤ m) (dmaMode d.words)) = some d) &&
      let ws := d.words; decide (dmaWellFormed ws = true) &&
      let n := dmaLen ws; decide (n ≠ 0) &&
      let tower := coreTower core; let src := dmaSrc ws; let dst := dmaDst ws;
      let st := s.dmaChecks tower [(src, n), (dst, n)] (!s.overlapping src dst n);
      decide (st = 0 ∧ (remote ≠ none ∨ ack ≠ none) ∧ ¬ (s.isOwn (src / 2 ^ 48 % 64) = true ∧
        s.isOwn (dst / 2 ^ 48 % 64) = true)) &&
      let who := Agent.dma core d.id; let (r, s1) := s.readGroup src n who remote; decide (r.waiting = false) &&
      let (w, s2) := s1.writeGroup dst r.bytes d.rerun ack who; decide (w ≠ askedStatus) &&
      let noted (t : State) (x : Status) : State := if x = 0 && inDram (src % 2 ^ 48) then t.noteCopy dst n (some src) 0 else t;
      decide (((noted s2 (if w ≠ 0 then w else r.status)).endDma core d.id (if w ≠ 0 then w else r.status)).settledB who))) = true := by decide +kernel

theorem witness_DmaDescriptorsAndScrubs_15 :
    (let s : State := (badw ff); let core : Nat := 0; let d : DmaDesc := (dd (ff.set 6 (2^60)));
    (decide (s.running = true ∧ (s.core core).dma.find? (fun d => (d.words.headD 0).toNat / 2 ^ 40 % 256 == 2 &&
        d.status.isNone && (· == 2) (dmaMode d.words)) = some d) &&
      let ws := d.words; decide (dmaWellFormed ws = false) &&
      let who := Agent.dma core d.id; decide ((s.endDma core d.id 0x02).settledB who))) = true := by decide +kernel

theorem witness_DmaDescriptorsAndScrubs_16 :
    (let s : State := (badw gf); let core : Nat := 0; let d : DmaDesc := (dd (gf.set 6 (2^60)));
    (decide (s.running = true ∧ (s.core core).dma.find? (fun d => (d.words.headD 0).toNat / 2 ^ 40 % 256 == 2 &&
        d.status.isNone && (· == 3) (dmaMode d.words)) = some d) &&
      let ws := d.words; decide (dmaWellFormed ws = false) &&
      let who := Agent.dma core d.id; decide ((s.endDma core d.id 0x02).settledB who))) = true := by decide +kernel

theorem witness_DmaDescriptorsAndScrubs_17 :
    (let s : State := (dm1 ((kf 3).set 7 1)); let core : Nat := 0; let d : DmaDesc := (dd ((kf 3).set 7 1));
    (decide (s.running = true ∧ (s.core core).dma.find? (fun d => (d.words.headD 0).toNat / 2 ^ 40 % 256 == 2 &&
        d.status.isNone && (· == 1) (dmaMode d.words)) = some d) &&
      let ws := d.words; decide (dmaWellFormed ws = false) &&
      let who := Agent.dma core d.id; decide ((s.endDma core d.id 0x02).settledB who))) = true := by decide +kernel

theorem witness_DmaDescriptorsAndScrubs_18 :
    (let s : State := (dm1 fz); let core : Nat := 0; let d : DmaDesc := (dd fz);
    (decide (s.running = true ∧ (s.core core).dma.find? (fun d => (d.words.headD 0).toNat / 2 ^ 40 % 256 == 2 &&
        d.status.isNone && (· == 2) (dmaMode d.words)) = some d) &&
      let ws := d.words; decide (dmaWellFormed ws = true) &&
      let n := dmaLen ws; decide (n = 0) &&
      let who := Agent.dma core d.id; decide ((s.endDma core d.id 0).settledB who))) = true := by decide +kernel

theorem witness_DmaDescriptorsAndScrubs_19 :
    (let s : State := (dm1 gz); let core : Nat := 0; let d : DmaDesc := (dd gz);
    (decide (s.running = true ∧ (s.core core).dma.find? (fun d => (d.words.headD 0).toNat / 2 ^ 40 % 256 == 2 &&
        d.status.isNone && (· == 3) (dmaMode d.words)) = some d) &&
      let ws := d.words; decide (dmaWellFormed ws = true) &&
      let n := dmaLen ws; let size := tileField ws 5 12 0; decide (n = 0 ∨ size = 0) &&
      let who := Agent.dma core d.id; decide ((s.endDma core d.id 0).settledB who))) = true := by decide +kernel

theorem witness_DmaDescriptorsAndScrubs_20 :
    (let s : State := (dm1 kz); let core : Nat := 0; let d : DmaDesc := (dd kz);
    (decide (s.running = true ∧ (s.core core).dma.find? (fun d => (d.words.headD 0).toNat / 2 ^ 40 % 256 == 2 &&
        d.status.isNone && (· == 1) (dmaMode d.words)) = some d) &&
      let ws := d.words; decide (dmaWellFormed ws = true) &&
      let x := skewOf ws; decide (x.m = 0 ∨ x.k = 0) &&
      let who := Agent.dma core d.id; decide ((s.endDma core d.id 0).settledB who))) = true := by decide +kernel

theorem witness_DmaDescriptorsAndScrubs_21 :
    (let s : State := (dm1 cz); let core : Nat := 0; let d : DmaDesc := (dd cz);
    (decide (s.running = true ∧ (s.core core).dma.find? (fun d => (d.words.headD 0).toNat / 2 ^ 40 % 256 == 2 &&
        d.status.isNone && (fun m => m == 0 || 6 ≤ m) (dmaMode d.words)) = some d) &&
      let ws := d.words; decide (dmaWellFormed ws = true) &&
      let n := dmaLen ws; decide (n = 0) &&
      let who := Agent.dma core d.id; decide ((s.endDma core d.id 0).settledB who))) = true := by decide +kernel

theorem witness_DmaDescriptorsAndScrubs_22 :
    (let s : State := (dm1 f7); let core : Nat := 0; let d : DmaDesc := (dd f7);
    (decide (s.running = true ∧ (s.core core).dma.find? (fun d => (d.words.headD 0).toNat / 2 ^ 40 % 256 == 2 &&
        d.status.isNone && (· == 2) (dmaMode d.words)) = some d) &&
      let ws := d.words; decide (dmaWellFormed ws = true) &&
      let n := dmaLen ws; decide (¬ (n = 0)) &&
      let tower := coreTower core; let dst := dmaDst ws;
      let st := s.dmaChecks tower [(dst, n)] (!inDram (dst % 2 ^ 48) || (dst % 64 == 0 && n % 64 == 0)); decide (st ≠ 0) &&
      let who := Agent.dma core d.id; decide ((s.endDma core d.id st).settledB who))) = true := by decide +kernel

theorem witness_DmaDescriptorsAndScrubs_23 :
    (let s : State := (dm1 g7); let core : Nat := 0; let d : DmaDesc := (dd g7);
    (decide (s.running = true ∧ (s.core core).dma.find? (fun d => (d.words.headD 0).toNat / 2 ^ 40 % 256 == 2 &&
        d.status.isNone && (· == 3) (dmaMode d.words)) = some d) &&
      let ws := d.words; decide (dmaWellFormed ws = true) &&
      let n := dmaLen ws; let size := tileField ws 5 12 0; decide (¬ (n = 0 ∨ size = 0)) &&
      let base := tileField ws 4 53 0; let tower := coreTower core; let src := dmaSrc ws; let dst := dmaDst ws;
      let st := if s.memberDevice (base / 2 ^ 48 % 64) then s.dmaChecks tower [(src, 4 * (n / size)), (dst,
        n)] (n % size == 0 && size ≤ 4096) else 0x07;
      decide (st ≠ 0) &&
      let who := Agent.dma core d.id; decide ((s.endDma core d.id st).settledB who))) = true := by decide +kernel

theorem witness_DmaDescriptorsAndScrubs_24 :
    (let s : State := (dm1 k7); let core : Nat := 0; let d : DmaDesc := (dd k7);
    (decide (s.running = true ∧ (s.core core).dma.find? (fun d => (d.words.headD 0).toNat / 2 ^ 40 % 256 == 2 &&
        d.status.isNone && (· == 1) (dmaMode d.words)) = some d) &&
      let ws := d.words; decide (dmaWellFormed ws = true) &&
      let x := skewOf ws; decide (¬ (x.m = 0 ∨ x.k = 0)) &&
      let tower := coreTower core; let src := dmaSrc ws; let dst := dmaDst ws;
      let srcScale := s.ownAddr (tileField ws 4 47 0); let dstScale := s.ownAddr (tileField ws 5 47 0);
      let st := s.dmaChecks tower [(src, x.srcBytes), (dst, x.outBytes), (srcScale, x.srcScales), (dstScale,
        x.scaleBytes)] x.legal;
      decide (st ≠ 0) &&
      let who := Agent.dma core d.id; decide ((s.endDma core d.id st).settledB who))) = true := by decide +kernel

theorem witness_DmaDescriptorsAndScrubs_25 :
    (let s : State := (sbf (storeAddr 16 0x2000)); let ch : Nat := 0;
    (decide (s.running = true) &&
      let c := s.channel ch; match c.scrubs with
      | p :: rest => (decide ((p.stop ≤ p.next ∨ p.status ≠ 0) ∧ c.flight.any (·.scrub) = false ∧
          p.waiting.any (fun l => c.wbq.any (·.line == l)) = false) &&
        let whox := Agent.dma p.core p.desc;
        let (w, s1) := (s.setChannel ch { c with scrubs := rest }).writeRange p.summary (p.record ch) none whox;
        let t := s1.endDma p.core p.desc (if w = 0 then p.status else w); decide (t.awaitsB [whox]))
      | _ => false)) = true := by decide +kernel

theorem witness_DmaDescriptorsAndScrubs_26 :
    (let s : State := (served (nx (sbf (storeAddr 16 0x2000)) (.scrubComplete 0))); let ch : Nat := 0;
    (decide (s.running = true) &&
      let c := s.channel ch; match c.scrubs with
      | p :: rest => (decide ((p.stop ≤ p.next ∨ p.status ≠ 0) ∧ c.flight.any (·.scrub) = false ∧
          p.waiting.any (fun l => c.wbq.any (·.line == l)) = false) &&
        let whox := Agent.dma p.core p.desc;
        let (w, s1) := (s.setChannel ch { c with scrubs := rest }).writeRange p.summary (p.record ch) none whox;
        let t := s1.endDma p.core p.desc (if w = 0 then p.status else w); decide (t.settledB whox))
      | _ => false)) = true := by decide +kernel

theorem witness_RecoveryAndWriteBackControl_1 :
    (let s : State := rre; let line : Nat := lineA; let cluster : Nat := 0; let entry : Nat := 9; let t : Nat := 0;
      let ch : Nat := 3;
    (decide (s.mem.recoveries.any (fun r => r.line == line && r.kind == .refetch) = false)) &&
    (decide (s.mem.recoveries.any (fun r => r.kind == .rerun entry && r.deadline.isNone &&
        sramUnit r.line / 16 == cluster) = true) &&
      match s.rerunEntry cluster entry with
      | some e => (decide (e.running = false ∧ s.coreUp e.core = true) &&
        match s.launchEntry e.queue (e.words.getD 1 0) with
      | some (_, _) => (match (s.core e.core).freeCtx with
      | some _ => (true)
      | _ => false)
      | _ => false)
      | _ => false) &&
    (decide (s.steward.lost = false ∧ t < 8)) &&
    (decide ((s.channel ch).laneWindowAt + secCycles 1 ≤ s.now))) = true := by decide +kernel

theorem witness_RecoveryAndWriteBackControl_2 :
    (let s : State := wbs; let line : Nat := lineA; let t : Nat := 0; let bytes : List Byte := (List.replicate 160 0x81);
      let remote : Option (Status × List Byte) := Option.none;
    (decide (s.running = true ∧ s.mem.recoveries.any (fun r => r.line == line && r.kind == .refetch) = true) &&
      match (s.copyRecords line).find? (·.coversLine line) with
      | some r => (let (q, s1) := s.refetchLine line r remote; decide (q.waiting = true) &&
        let who := Agent.refetch line; decide (s1.awaitsB [who]))
      | _ => false) &&
    (decide (s.steward.lost = false ∧ t < 8 ∧ bytes.length = 160))) = true := by decide +kernel

theorem witness_RecoveryAndWriteBackControl_3 :
    (let s : State := { rcs with now := 0 }; let ch : Nat := 3;
    (decide (s.now < (s.channel ch).laneWindowAt + secCycles 1))) = true := by decide +kernel

theorem witness_RecoveryAndWriteBackControl_4 :
    (let s : State := { rre with run := 10, mem := { rre.mem with recoveries := [{ line := lineA, reader := .other, kind := .rerun 9, deadline := some 10 }] } };
      let entry : Nat := 9; 
    (decide (s.running = true ∧ s.mem.recoveries.any (fun r => r.kind == .rerun entry &&
        r.deadline.any fun t => decide (t ≤ s.run)) = true))) = true := by decide +kernel

theorem witness_RecoveryAndWriteBackControl_5 :
    (let s : State := rcq; let line : Nat := lineA; let remote : Option (Status × List Byte) := Option.none;
    (decide (s.running = true ∧ s.mem.recoveries.any (fun r => r.line == line && r.kind == .refetch) = true) &&
      match (s.copyRecords line).find? (·.coversLine line) with
      | some r => (let (q, s1) := s.refetchLine line r remote; decide (q.waiting = false ∧ q.status = 0) &&
        let who := Agent.refetch line;
        decide ((((s1.poke (line * 64) q.bytes).setCrc line 0).endRecovery line true 0).settledB who))
      | _ => false)) = true := by decide +kernel

theorem witness_RecoveryAndWriteBackControl_6 :
    (let s : State := { rcq with reqs := rcq.reqs.map fun r => { r with status := 3 } }; let line : Nat := lineA;
      let remote : Option (Status × List Byte) := Option.none;
    (decide (s.running = true ∧ s.mem.recoveries.any (fun r => r.line == line && r.kind == .refetch) = true) &&
      match (s.copyRecords line).find? (·.coversLine line) with
      | some r => (let (q, s1) := s.refetchLine line r remote; decide (q.waiting = false ∧ q.status ≠ 0) &&
        let who := Agent.refetch line; decide ((s1.endRecovery line false 0).settledB who))
      | _ => false)) = true := by decide +kernel

theorem witness_RecoveryAndWriteBackControl_7 :
    (let s : State := { rcf with cores := [] }; let line : Nat := lineA;
    (decide (s.running = true ∧ s.mem.recoveries.any (fun r => r.line == line &&
        r.kind == .refetch) = true ∧ (s.copyRecords line).find? (·.coversLine line) = none) &&
      let who := Agent.refetch line; decide ((s.endRecovery line (s.crcOk line) 0).settledB who))) = true := by decide +kernel

end Case14

namespace Case15

def gh : Group := { shape := 1, member := 0 }
def gm : Group := { shape := 1, member := 3 }
def gl (st : Nat) (k : LglPort) (l : List (Nat × Nat × Nat)) (mb : Nat := 3) : S := gsx { shape := 1, member := mb, ports := [(2, k)] } ((0x5201,3,st) :: l)
def fr (k : LglPort) (ty seq : Nat) : List Byte := k.frame ty seq [] []
def k0 : LglPort := {}

def bd : List Byte := natToBytes 8 1 ++ natToBytes 2 2 ++ [0,0,0,0,0,0]
def lw : List Word := [BitVec.ofNat 64 (2^48 + 3 * 2^32), 0, 0, 0, 0, 0, 0, 0]
def glx : S := { gsx { shape := 1, member := 0 } [] with leases := [(2, { state := 1, words := lw, slots := [0] })], slots := [(0, 3)] }

def flit1 (c : Nat) : Flit := { vc := 1, control := BitVec.ofNat 128 c, data := [1,2] }

theorem witness_GroupMembership_1 :
    (let s : State := (gsx { gh with asking := false, answers := [], askedAt := 0, published := true } [(0x5200,3,1),(0x5200,6,9)]);
      let device : Nat := 3; let id : Nat := 9;
    (decide (s.steward.lost = false)) &&
    (decide (s.steward.lost = false) && let g := s.group; decide (g.member = 0 ∧ g.shape ≠ 0)) &&
    (decide (s.steward.lost = false) && let g := s.group; decide (g.member = 0)) &&
    (let g := s.group; decide (g.shape ≠ 0 ∧ s.steward.lost = false ∧ g.member = 0 ∧ g.askedAt + msCycles 1 < s.now)) &&
    (let g := s.group;
      decide (g.member = 0 ∧ g.shape ≠ 0 ∧ s.reg 0x5200 3 = 1 ∧ g.asking = false ∧ s.steward.lost = false ∧
        g.askedAt + msCycles 100 ≤ s.now)) &&
    (let g := s.group;
      decide (g.member = 0 ∧ g.shape ≠ 0 ∧ device ≠ 0 ∧ device < 64 ∧ s.steward.lost = false ∧
        (s.reg 0x5200 6).testBit device = true ∧ Map.get 0 g.heard device + usCycles 100 ≤ s.now)) &&
    (match s.findReq id with
      | some r => (decide (s.isOwn (r.addr / 2 ^ 48 % 64) = false ∧ r.stage ≠ .done ∧
          r.sentAt + msCycles (s.reg 0x5200 9) ≤ s.now))
      | _ => false)) = true := by decide +kernel

theorem witness_GroupMembership_2 :
    (let s : State := (gsx gm []); let members : Nat := 15;
    (let g := s.group; decide (g.member ≠ 0)) &&
    (let g := s.group; decide (g.shape ≠ 0 ∧ s.steward.lost = false ∧ g.member ≠ 0)) &&
    (let g := s.group;
      decide (g.member ≠ 0 ∧ g.shape ≠ 0 ∧ members < 2 ^ 64 ∧ members.testBit g.member = true ∧ s.reg 0x5200 5 ≠ 4 ∧
        (∀ d ∈ List.range 64, (s.reg 0x5200 6).testBit d = true → members.testBit d = true)))) = true := by decide +kernel

theorem witness_GroupMembership_3 :
    (let s : State := (gsx { gh with asking := true, askedAt := 200000000 - msCycles 1 } []); let device : Nat := 5;
    (let g := s.group;
      decide (g.shape ≠ 0 ∧ s.steward.lost = false ∧ g.member = 0 ∧ g.asking = true ∧ s.now ≤ g.askedAt + msCycles 1 ∧
        0 < device ∧ device < shapeMembers g.shape)) &&
    (let g := s.group;
      decide (g.asking = true ∧ g.member = 0 ∧ s.steward.lost = false ∧
        g.askedAt + msCycles 1 ≤ s.now))) = true := by decide +kernel

theorem witness_GroupMembership_4 :
    (let s : State := { gsx { gh with published := true } [] with syncMsgs := [{ id := 4, op := .read, object := 2^13 * 5 + 5, value := 0, target := .wait 0 0 9 }] };
      let id : Nat := 4;
    (decide (s.findReq id = none) &&
      match s.syncMsgs.find? (·.id == id) with
      | some m => (decide (s.isOwn (m.object / 2 ^ 13) = false ∧ m.reply = none ∧ s.running = true ∧
          m.sentAt + msCycles (s.reg 0x5200 9) ≤ s.now))
      | _ => false)) = true := by decide +kernel

theorem witness_DeviceLinkPorts_1 :
    (let s : State := (gl 1 {} []); let p : Nat := 2; let device : Nat := 0; let shape : Nat := 1; let peer : Nat := 4;
      let d : Nat := 0;
    (decide (p < 12 ∧ s.portState p = 1)) &&
    (decide (p < 12 ∧ s.portState p ≠ 0 ∧ s.portState p ≠ 4 ∧ (portDirections s.group.shape)[p]? = some d ∧
        (device ≠ neighbour s.group.member d ∨ shape ≠ s.group.shape ∨ s.peerPort p ≠ some peer))) &&
    (decide (p < 12) && let up := s.portState p = 2; decide (¬ up)) &&
    (decide (p < 12 ∧ s.portState p = 1) && let k := s.port p; decide (k.fails < 2))) = true := by decide +kernel

theorem witness_DeviceLinkPorts_2 :
    (let s : State := (gl 2 { retry := [(0, fr k0 1 0)] } []); let p : Nat := 2; let device : Nat := 0; let shape : Nat := 1;
      let peer : Nat := 3; let d : Nat := 0;
    (decide (p < 12 ∧ s.portState p ≠ 0 ∧ s.portState p ≠ 4 ∧ (portDirections s.group.shape)[p]? = some d ∧
        device = neighbour s.group.member d ∧ shape = s.group.shape ∧ s.peerPort p = some peer)) &&
    (decide (p < 12) &&
      let up := s.portState p = 2; decide (up) &&
      let u := s.formPackets; let kx := (u.port p).freed u.running; let sent := kx.sendable 4;
      decide (sent.1 = [] ∨ 512 ≤ kx.retry.length)) &&
    (decide (p < 12) &&
      let up := s.portState p = 2; decide (up) &&
      let k := s.port p; decide (k.retry ≠ [] ∧ k.progressAt + usCycles 1 ≤ s.now)) &&
    (decide (p < 12) &&
      let k := s.port p;
      decide (k.retry ≠ [] ∧ (k.retry.map (·.1)).Nodup ∧
        (∀ e ∈ k.retry, Map.get 0 k.resent e.1 < 7)))) = true := by decide +kernel

theorem witness_DeviceLinkPorts_3 :
    (let s : State := (gl 1 { fails := 2 } []); let p : Nat := 2;
    (decide (p < 12 ∧ s.portState p = 1) && let k := s.port p; decide (2 ≤ k.fails))) = true := by decide +kernel

theorem witness_DeviceLinkPorts_4 :
    (let s : State := (gl 2 { rxNext := 4 } []); let p : Nat := 2;
    (decide (p < 12) &&
      let f := (flit1 (2^96 + 2^73 + 3 * 2^122) : Flit); let k := s.port p; decide ((Map.get {} k.incoming f.vc).left = 0) &&
      let c := f.control.toNat;
      decide (1 ≤ bitsOf c 101 96 ∧ bitsOf c 101 96 ≤ 0x10 ∧ bitsOf c 75 73 = 1 ∧
        bitsOf c 127 122 = s.group.member))) = true := by decide +kernel

theorem witness_DeviceLinkPorts_5 :
    (let s : State := (gl 2 { txq := [flit1 (2^96 + 2^73 + 5 * 2^122)] } []); let p : Nat := 2;
    (decide (p < 12) &&
      let up := s.portState p = 2; decide (up) &&
      let u := s.formPackets; let kx := (u.port p).freed u.running; let sent := kx.sendable 4;
      decide (sent.1 ≠ [] ∧ kx.retry.length < 512))) = true := by decide +kernel

theorem witness_GroupLeasesAndPaceLock_1 :
    (let s : State := (gsx { shape := 1, member := 3 } [(0x5200,5,2)]); let n : Nat := 2; let bytes : List Byte := bd;
    (let g := s.group; decide (32 ≤ n ∨ bytes.length ≠ 16 ∨ fieldAt bytes 11 5 ≠ 0 ∨ g.member ≠ 0)) &&
    (let g := s.group;
      decide (g.shape ≠ 0 ∧ g.member ≠ 0 ∧ s.steward.lost = false ∧ s.boot.inputLoss = false ∧
        (s.paceRequest ≠ g.sentRequest ∨ g.requestAt + usCycles 10 ≤ s.now))) &&
    (let g := s.group; decide (g.member ≠ 0 ∧ g.shape ≠ 0 ∧ g.targets = [])) &&
    (let g := s.group; decide (∀ e ∈ g.targets, s.reg 0x2210 5 < e.1)) &&
    (decide (s.reg 0x2210 6 ≠ 1) && let g := s.group; decide (g.gtickAt + usCycles 1 ≤ s.now)) &&
    (decide (s.reg 0x5200 5 = 2) && let g := s.group; decide (g.heardTarget + usCycles 100 ≤ s.now)) &&
    (let g := s.group; decide (g.shape ≠ 0 ∧ g.member ≠ 0))) = true := by decide +kernel

theorem witness_GroupLeasesAndPaceLock_2 :
    (let s : State := (gsx { shape := 1, member := 0, requests := [(5, 1400), (0, 1500)], targets := [(50, 1300)] } [(0x5200,6,33), (0x2210,5,50),(0x2210,4,3)]);
      let device : Nat := 5; let target : Nat := 1300; let apply : Nat := 50;
    (let g := s.group; decide (g.shape ≠ 0 ∧ g.member = 0 ∧ s.steward.lost = false ∧ s.boot.inputLoss = false)) &&
    (let g := s.group; decide (g.member = 0 ∧ g.shape ≠ 0 ∧ device < 64 ∧ (s.reg 0x5200 6).testBit device = true)) &&
    (decide (s.steward.lost = false ∧ s.boot.inputLoss = false) &&
      let g := s.group; decide (g.member = 0 ∧ g.shape ≠ 0) &&
      let low := s.lowestRequest; decide (low.1 < 1801 ∧ (low.1 ≠ g.sentTarget ∨ g.targetAt + usCycles 10 ≤ s.now))) &&
    (let g := s.group; decide (g.targets = [(apply, target)] ∧ apply ≤ s.reg 0x2210 5)) &&
    (let g := s.group; decide (g.shape ≠ 0 ∧ g.member = 0 ∧ s.reg 0x5200 8 ≠ 1))) = true := by decide +kernel

theorem witness_GroupLeasesAndPaceLock_3 :
    (let s : State := (gsx { shape := 1, member := 0 } []); let n : Nat := 2; let bytes : List Byte := (List.replicate 16 0);
    (decide (s.steward.lost = false ∧ n < 32 ∧ bytes.length = 16 ∧ fieldAt bytes 11 5 = 0 ∧ fieldAt bytes 0 8 = 0) &&
      let g := s.group; decide (g.member = 0) &&
      let gl := s.groupLease n; decide (gl.state = 0))) = true := by decide +kernel

theorem witness_GroupLeasesAndPaceLock_4 :
    (let s : State := glx; let n : Nat := 2; let bytes : List Byte := bd;
    (decide (s.steward.lost = false ∧ n < 32 ∧ bytes.length = 16 ∧ fieldAt bytes 11 5 = 0 ∧ fieldAt bytes 0 8 ≠ 0) &&
      let g := s.group; decide (g.member = 0) &&
      let gl := s.groupLease n; decide (gl.state = 0) &&
      let b : GroupLease := { mask := fieldAt bytes 0 8, lease := fieldAt bytes 8 2 % 2 ^ 11, root := fieldAt bytes 10 1 % 64 };
      decide (b.tree = [0] ∧ b.root = 0 ∧ (∀ d ∈ List.range 64, (b.inMask d = true ↔ d = 0)) ∧
        (s.reg 0x5200 6).testBit 0 = true) &&
      let held := s.lease b.lease; decide (held.state ≠ 0) &&
      let u := { s with groupLeaseEntries := Map.set 0 s.groupLeaseEntries n (bytesToNat bytes) }.sendMembers (s.reg 0x5200 6) 9 [n, bytesToNat bytes];
      match u.reserveSlots b.lease ((anchorPath held.words).filter fun r => !(held.slots.map (· / 4)).contains r) [] with
      | some (_, _) => (true)
      | _ => false)) = true := by decide +kernel

theorem witness_GroupLeasesAndPaceLock_5 :
    (let s : State := (gsx { shape := 0, member := 0 } []);
    (let g := s.group; decide (g.shape = 0))) = true := by decide +kernel

theorem witness_GroupLeasesAndPaceLock_6 :
    (let s : State := (gsx { shape := 1, member := 3, leases := [(2, { mask := 4, root := 0, lease := 7, state := 1, ports := [16] })] } [(0x5200,6,13)]);
      let n : Nat := 2; let value : Nat := 0;
    (let gl := s.groupLease n; decide (gl.state = 1 ∧ s.running = true) &&
      let g := s.group; decide (gl.inMask g.member = false ∧ g.member ≠ gl.root ∧ gl.round = false) &&
      match gl.children g.member with
      | [_] => (decide (nextDirection g.member gl.root = some value))
      | _ => false)) = true := by decide +kernel

theorem witness_GroupLeasesAndPaceLock_7 :
    (let s : State := (gsx { shape := 1, member := 0 } [(0x5200,6,63),(0x5200,8,1)]); let source : Nat := 1;
    (let g := s.group;
      decide (g.shape ≠ 0 ∧ g.member = 0 ∧ s.reg 0x5200 8 = 1 ∧ (s.reg 0x5200 6).testBit source = true ∧
        source ≠ 0))) = true := by decide +kernel

end Case15

namespace Case16

def bw (u at_ : Nat) : List Word := [2 <<< 40, BitVec.ofNat 64 (u * 2^62 + 9 * 2^48 + 3), BitVec.ofNat 64 at_]
def bop (u at_ : Nat) : BindOp := { core := 0, words := bw u at_, target := .counter 0 0 1 }
def bs0 (u at_ : Nat) (prod : Bool) : S := put { w0 [1] with queues := [(3, { producer := prod })], bindOps := [bop u at_] } (storeAddr 0 0x1000) (words [1 <<< 40, 7])
def sl (l : StreamLink) (rs : List (Nat × Nat × Nat)) : S := rs.foldl (fun s (a, b,
    c) => s.setReg a b c) { w0 [1] with now := 100000, run := 90000, stream := { links := [(1, l)], fallbacks := [(9, 77)] } }
def hdr (ty len st sq : Nat) : List Byte := let b := natToBytes 30 (ty + st * 2^8 + len * 2^32 + sq * 2^64);
    b ++ natToBytes 2 (crc16 b).toNat
def frm (ty st sq : Nat) (p : List Byte) : List Byte := hdr ty p.length st sq ++ p ++ natToBytes 4 (crc32 p).toNat
def decl : List Byte := natToBytes 4 1 ++ natToBytes 4 1000 ++ natToBytes 4 10 ++ natToBytes 4 64 ++ natToBytes 4 1024 ++
    natToBytes 12 0

def pl : List Byte := [1,2,3,4]
def lk : StreamLink := { state := 3, maxFrame := 1024, ringOff := 0x10000, ringBytes := 0x100000 }
def sb (l : StreamLink) : S := let s := sl l [(0x7001,2,1),(0x7000,2,1)]
  { s with stream := { s.stream with bindings := [(9, (4, words [1 <<< 40, 0,0,0,0,0,0,0] |>.map (fun b => (b.zeroExtend 64))))] } }
def fr0 : Frame := { seq := 3, stream := 9, length := 4, sourceTime := 0, payload := pl, arrival := 0, deadline := 0x100000000, queue := 3, template := [1 <<< 40, 0,0,0,0,0,0,0], fallback := 7, addr := storeAddr 0 0x8000, take := 128 }

def powered (s : S) : S := { s with fields := (List.range 160).map fun f => (f, { rail := .powered }) }
def crcd : Frame := { fr0 with crc := [(0, 5)] }
def sbq (fs : List Frame) : S := served (nextOf (sb { lk with slots := fs }) (execSlotWriteComplete 1 (sb { lk with slots := fs })))
def frz : Frame := { fr0 with addr := 0x1D0000000000 }
def fc : Frame := { fr0 with written := true, launch := some (3, 0), completed := some 0 }
def sv (f : Frame) : S := put (sb { lk with slots := [f] }) (storeAddr 0 0x803F) [0x80]
def svq (f : Frame) : S := served (nextOf (sv f) (execVerdict 1 (sv f)))
def ub : BindOp := { core := 0, words := [2 <<< 40, BitVec.ofNat 64 (1 * 2^62 + 9 * 2^48), 0], target := .counter 0 0 1 }

theorem witness_StreamLinksAndBindings_1 :
    (let s : State := (sl { state := 2 , ringOff := 5, switchAt := some 100000 } [(0x7001,2,1),(0x7003,2,0x100000)]);
      let n : Nat := 1; let t : Nat := 100000; let v : Byte := 1; let bs : List Byte := [];
    (decide (n < 8) && let l := s.link n; decide (l.state ≠ 0)) &&
    (decide (n < 8) && let l := s.link n; decide (l.state ≠ 1)) &&
    (decide (n < 8) && let l := s.link n; decide (2 ≤ l.state ∧ headerGood bs = false)) &&
    (decide (n < 8 ∧ s.steward.lost = false ∧ v = 1 ∧ s.linkEnabled n = false ∧ s.linkLegal n = true ∧ s.dm.towers = []) &&
      let l := s.link n; decide (l.ringOff ≠ s.reg 0x7002 (n + 1) ∨ l.ringBytes ≠ s.reg 0x7003 (n + 1))) &&
    (decide (n < 8) && let l := s.link n; decide (l.state ≠ 0)) &&
    (let l := s.link n; decide (l.switchAt = some t ∧ t ≤ s.now)) &&
    (decide (s.stream.timerAt + usCycles 1 ≤ s.now))) = true := by decide +kernel

theorem witness_StreamLinksAndBindings_2 :
    (let s : State := (bs0 0 0x1000 true); let n : Nat := 0; let b : BindOp := (bop 0 0x1000); let v : Byte := 0;
    (decide (s.bindOps.find? (fun b => (b.words.getD 1 0).toNat / 2 ^ 62 != 1) = some b ∧ s.running = true ∧
        bindWellFormed b.words = true) &&
      let w1 := (b.words.getD 1 0).toNat;
      decide (w1 / 2 ^ 62 = 0 ∧ coreExists (queueCore (w1 % 2 ^ 19)) = true ∧ s.inService (queueCore (w1 % 2 ^ 19)) = true) &&
      let at_ := (b.words.getD 2 0).toNat; decide (at_ % 64 = 0 ∧ (s.queue (w1 % 2 ^ 19)).producer = true) &&
      let a := storeAddr b.core at_; decide (s.lineOkB (a / 64) (.dispatcher b.core)) &&
      let words : List Word := (List.range 8).map fun j => BitVec.ofNat 64 (bytesToNat (s.bytes (a + 8 * j) 8));
      decide ((words.getD 0 0).toNat / 2 ^ 40 % 256 = 1)) &&
    (decide (n < 8) && let l := s.link n; decide (l.state = 0 ∧ s.linkLanes n ≠ 0)) &&
    (decide (n < 8 ∧ s.steward.lost = false ∧ v = 0)) &&
    (decide (n < 8) && let l := s.link n; decide (l.state = 0)) &&
    (decide (s.now < s.stream.timerAt + usCycles 1))) = true := by decide +kernel

theorem witness_StreamLinksAndBindings_3 :
    (let s : State := (bs0 0 0x1000 false); let b : BindOp := (bop 0 0x1000);
    (decide (s.bindOps.find? (fun b => (b.words.getD 1 0).toNat / 2 ^ 62 != 1) = some b ∧ s.running = true ∧
        bindWellFormed b.words = true) &&
      let w1 := (b.words.getD 1 0).toNat;
      decide (w1 / 2 ^ 62 = 0 ∧ coreExists (queueCore (w1 % 2 ^ 19)) = true ∧ s.inService (queueCore (w1 % 2 ^ 19)) = true) &&
      let at_ := (b.words.getD 2 0).toNat;
      decide (at_ % 64 ≠ 0 ∨ (s.queue (w1 % 2 ^ 19)).producer = false))) = true := by decide +kernel

theorem witness_StreamLinksAndBindings_4 :
    (let s : State := (sl { state := 1 } [(0x7001,2,1)]); let n : Nat := 1;
    (decide (n < 8) && let l := s.link n; decide (l.state = 1))) = true := by decide +kernel

theorem witness_StreamLinksAndBindings_5 :
    (let s : State := (sl { state := 2 } [(0x7001,2,1)]); let n : Nat := 1; let bs : List Byte := (frm 2 9 3 decl);
    (decide (n < 8) &&
      let l := s.link n; decide (2 ≤ l.state ∧ headerGood bs = true ∧ fieldAt bs 0 1 = 2 ∧ payloadGood bs = true) &&
      let u := s.noteSeq n (frameHeader bs).seq; decide (u.declareCause n bs ≠ 0))) = true := by decide +kernel

theorem witness_StreamLinksAndBindings_6 :
    (let s : State := (sl { state := 2 } [(0x7001,2,1),(0x7003,2,0x1000000)]); let n : Nat := 1;
      let bs : List Byte := (frm 2 9 3 decl);
    (decide (n < 8) &&
      let l := s.link n; decide (2 ≤ l.state ∧ headerGood bs = true ∧ fieldAt bs 0 1 = 2 ∧ payloadGood bs = true) &&
      let u := s.noteSeq n (frameHeader bs).seq; decide (u.declareCause n bs = 0))) = true := by decide +kernel

theorem witness_StreamLinksAndBindings_7 :
    (let s : State := (sl { state := 2 , ringOff := 5, switchAt := some 100001 } [(0x7001,2,1),(0x7003,2,0x1000)]);
      let n : Nat := 1; let v : Byte := 1;
    (decide (n < 8 ∧ s.steward.lost = false ∧ v = 1 ∧ s.linkEnabled n = false ∧
        s.linkLegal n = false))) = true := by decide +kernel

theorem witness_StreamLinksAndBindings_8 :
    (let s : State := (sl { state := 2 , ringOff := 5, switchAt := some 100001 } [(0x7001,2,1),(0x7003,2,0x100000)]);
      let n : Nat := 1; let t : Nat := 100001;
    (let l := s.link n; decide (l.switchAt = some t ∧ s.now < t))) = true := by decide +kernel

theorem witness_StreamLinksAndBindings_9 :
    (let s : State := (sl { state := 2 } [(0x7001,2,1)]); let n : Nat := 1; let bs : List Byte := ((frm 2 9 3 decl).set 33 5);
    (decide (n < 8) &&
      let l := s.link n;
      decide (2 ≤ l.state ∧ headerGood bs = true ∧ fieldAt bs 0 1 = 2 ∧ payloadGood bs = false))) = true := by decide +kernel

theorem witness_StreamLinksAndBindings_10 :
    (let s : State := { bs0 1 0 false with bindOps := [ub] }; let b : BindOp := ub;
    (decide (s.bindOps.find? (fun b => (b.words.getD 1 0).toNat / 2 ^ 62 == 1) = some b ∧ s.running = true ∧
        bindWellFormed b.words = true))) = true := by decide +kernel

theorem witness_StreamFramesAndVerdicts_1 :
    (let s : State := (sb { lk with state := 2 }); let n : Nat := 1; let bs : List Byte := (frm 1 9 3 pl); let f : Frame := crcd;
    (decide (n < 8) &&
      let l := s.link n; decide (2 ≤ l.state ∧ headerGood bs = true ∧ fieldAt bs 0 1 = 1 ∧ l.declared = false)) &&
    (decide (n < 8 ∧ (∃ e ∈ f.crc, e.2 ≠ 0)))) = true := by decide +kernel

theorem witness_StreamFramesAndVerdicts_2 :
    (let s : State := (sb { lk with ringBytes := 64 }); let n : Nat := 1; let bs : List Byte := []; let f : Frame := fr0;
    (decide (n < 8) && let l := s.link n; decide (2 ≤ l.state ∧ headerGood bs = false)) &&
    (decide (n < 8 ∧ f.crc = []) && let l := s.link n; decide (l.place (slotBytes f.length) = none))) = true := by decide +kernel

theorem witness_StreamFramesAndVerdicts_3 :
    (let s : State := (powered (sb lk)); let n : Nat := 1; let f : Frame := fr0;
    (decide (n < 8 ∧ f.crc = []) &&
      let l := s.link n; match l.place (slotBytes f.length) with
      | some (off, _) => (let a := towerAliasBase + linkTower n * dramTower + l.ringOff + off;
        decide (s.slotInReset a (slotBytes f.length) = false))
      | _ => false)) = true := by decide +kernel

theorem witness_StreamFramesAndVerdicts_4 :
    (let s : State := (sb lk); let n : Nat := 1; let bs : List Byte := (frm 1 8 3 pl);
    (decide (n < 8) &&
      let l := s.link n; decide (2 ≤ l.state ∧ headerGood bs = true ∧ fieldAt bs 0 1 = 1 ∧ l.declared = true) &&
      let h := frameHeader bs; decide (h.length ≤ l.maxFrame ∧ h.length ≤ 65536 ∧ payloadGood bs = true) &&
      let (p0, _) := Map.get (0, []) s.stream.bindings h.stream; decide (p0 = 0))) = true := by decide +kernel

theorem witness_StreamFramesAndVerdicts_5 :
    (let s : State := (sb { lk with maxFrame := 3 }); let n : Nat := 1; let bs : List Byte := (frm 1 9 3 pl);
    (decide (n < 8) &&
      let l := s.link n; decide (2 ≤ l.state ∧ headerGood bs = true ∧ fieldAt bs 0 1 = 1 ∧ l.declared = true) &&
      let h := frameHeader bs; decide (l.maxFrame < h.length ∨ 65536 < h.length))) = true := by decide +kernel

theorem witness_StreamFramesAndVerdicts_6 :
    (let s : State := (sb lk); let n : Nat := 1; let bs : List Byte := (hdr 1 4 9 3);
    (decide (n < 8) &&
      let l := s.link n; decide (2 ≤ l.state ∧ headerGood bs = true ∧ fieldAt bs 0 1 = 1 ∧ l.declared = true) &&
      let h := frameHeader bs;
      decide (h.length ≤ l.maxFrame ∧ h.length ≤ 65536 ∧ payloadGood bs = false))) = true := by decide +kernel

theorem witness_StreamFramesAndVerdicts_7 :
    (let s : State := (sb { lk with slots := [fr0] }); let n : Nat := 1; let f : Frame := fr0;
    (decide (s.running = true ∧ (s.link n).slots.find? (fun f => !f.written && !f.released) = some f) &&
      let who := Agent.frame n f.addr;
      let (w, s1) := s.writeRange f.addr (f.header n ++ f.payload ++
        List.replicate (slotBytes f.length - 64 - f.length) 0) none who;
      let t := if w = 0 then s1.updFrame n (· == f) fun x => { x with written := true } else ((s1.updFrame n (· == f) fun x => { x with released := true }).dropFrame n 0x09 f.stream f.seq f.fallback).freeRing n;
      decide (t.awaitsB [who]))) = true := by decide +kernel

theorem witness_StreamFramesAndVerdicts_8 :
    (let s : State := (sbq [fr0]); let n : Nat := 1; let f : Frame := fr0;
    (decide (s.running = true ∧ (s.link n).slots.find? (fun f => !f.written && !f.released) = some f) &&
      let who := Agent.frame n f.addr;
      let (w, s1) := s.writeRange f.addr (f.header n ++ f.payload ++
        List.replicate (slotBytes f.length - 64 - f.length) 0) none who;
      let t := if w = 0 then s1.updFrame n (· == f) fun x => { x with written := true } else ((s1.updFrame n (· == f) fun x => { x with released := true }).dropFrame n 0x09 f.stream f.seq f.fallback).freeRing n;
      decide (t.settledB who))) = true := by decide +kernel

theorem witness_StreamFramesAndVerdicts_9 :
    (let s : State := (sb { lk with slots := [fr0, { fr0 with seq := 4, triedAt := some 0, written := true }] });
      let n : Nat := 1;
    (decide (s.running = true ∧ (∃ x ∈ (s.link n).slots, x.launch = none ∧ x.released = false ∧ ((∃ t, x.triedAt = some t ∧
        t + usCycles 1 ≤ s.run) ∨ x.triedAt = none ∧ x.written = true))))) = true := by decide +kernel

theorem witness_StreamFramesAndVerdicts_10 :
    (let s : State := (sv fc); let n : Nat := 1; let f : Frame := fc;
    (decide (s.running = true ∧ (s.link n).completedFirst = some f ∧ f.answered = false) &&
      let who := Agent.frame n f.addr; let (r, s1) := s.readRange (f.addr + 56) 8 who;
      decide (r.waiting = true ∧ s1.awaitsB [who]))) = true := by decide +kernel

theorem witness_StreamFramesAndVerdicts_11 :
    (let s : State := (sv { fc with answered := true, late := true }); let n : Nat := 1;
      let f : Frame := { fc with answered := true, late := true };
    (decide (s.running = true ∧ (s.link n).completedFirst = some f ∧ f.answered = true) &&
      let st := f.completed.getD 0;
      let close (t : State) (late : Bool) : State := let u := (t.updFrame n (· == f) fun x => { x with answered := true, released := true }).freeRing n;
      (match f.launch with
      | some (q, i) => u.endRing q i (lateStatus late st)
      | none => u); let who := Agent.frame n f.addr; decide ((close s f.late).settledB who))) = true := by decide +kernel

theorem witness_StreamFramesAndVerdicts_bound :
    (let s : State := sb lk
     let bs : List Byte := frm 1 9 3 pl
     let h := frameHeader bs
     decide (2 ≤ (s.link 1).state ∧ headerGood bs = true ∧ fieldAt bs 0 1 = 1 ∧ (s.link 1).declared = true ∧
       h.length ≤ (s.link 1).maxFrame ∧ h.length ≤ 65536 ∧ payloadGood bs = true ∧ s.running = true ∧
       Map.get (0, []) s.stream.bindings h.stream = (3 + 1, (Map.get (0, []) s.stream.bindings h.stream).2) ∧
       Map.get [] s.stream.buffers (1 / 4) = [])) = true := by decide +kernel

/-- A frame's answer, with whether its deadline has passed as an argument. -/
def answerAs (late : Bool) (s : S) (n : Nat) (f : Frame) (st : Status) (r : ReadResult) : Bool × S :=
  let (k, s) := s.token
  let w := bytesToNat r.bytes
  let valid := r.status = 0 && 2 ^ 63 ≤ w
  if late then (true, s.sendFallback n f 0x10)
  else if valid && st = 0 then
    (false, (s.sendControl n { type := 0x13, stream := f.stream, seq := f.seq.toNat, verdict := w % 2 ^ 32 }).countStream f.stream 0)
  else if valid then (false, s.sendFallback n f 0x12)
  else if st = 0 then (false, s.sendFallback n f 0x11)
  else (false, s.sendFallback n f (if Config.freeBool k then 0x11 else 0x12))
theorem answerFrame_eq (s : S) (n : Nat) (f : Frame) (st : Status) (r : ReadResult) :
    s.answerFrame n f st r = answerAs (s.token.2.reached n f.deadline) s n f st r := rfl
def closeAs (t : S) (n : Nat) (f : Frame) (late : Bool) : S :=
  let u := (t.updFrame n (· == f) fun x => { x with answered := true, released := true }).freeRing n
  match f.launch with
  | some (q, i) => u.endRing q i (lateStatus late (f.completed.getD 0))
  | none => u
def readVerdict : ReadResult × S := (svq fc).readRange (fc.addr + 56) 8 (.frame 1 fc.addr)
theorem closed_settled (late : Bool) :
    (closeAs (answerAs late readVerdict.2 1 fc 0 readVerdict.1).2 1 fc (answerAs late readVerdict.2 1 fc 0 readVerdict.1).1).settledB
      (.frame 1 fc.addr) = true := by
  cases late <;> decide +kernel
theorem witness_StreamFramesAndVerdicts_close :
    ((svq fc).running = true ∧ ((svq fc).link 1).completedFirst = some fc ∧ fc.answered = false ∧ readVerdict.1.waiting = false) ∧
    (let (late, s2) := readVerdict.2.answerFrame 1 fc 0 readVerdict.1
     closeAs s2 1 fc late).Settled (.frame 1 fc.addr) := by
  refine ⟨by decide +kernel, State.settledB_sound ?_⟩
  rw [answerFrame_eq]
  exact closed_settled _

end Case16

namespace Case17

def fs (k : Field) (t : Map (List Nat)) (l : List (Nat × Nat × Nat)) : S := l.foldl (fun s (a, b,
    c) => s.setReg a b c) { w0 [1] with now := 500000, run := 400000, fields := [(0, { rail := .powered }), (2, k)], turnOns := t }

def nan8 : Map (Option Word32) := (List.range 8).map fun t => (t, some 0x7FC00000)
def ss (l : List (Nat × Nat × Nat)) : S := l.foldl (fun s (a, b,
    c) => s.setReg a b c) { fs {} [] [] with now := 9000000000, steward := { running := true }, thermal := { rth := nan8 } }

theorem witness_FieldSupplyAndCaps_1 :
    (let s : State := (fs {} [(0, [2, 3])] []); let f : Nat := 2; let t : Nat := 0; let p : Nat := 0; let v : BitVec 16 := 100;
    (decide (f < 64 ∧ thermalState s ≠ 4 ∧ s.boot.inputLoss = false ∧ (Map.get [] s.turnOns (f / 8)).head? = some f ∧
        (∀ j ∈ List.range 8, (s.field (f / 8 * 8 + j)).headers.turningOn = false)) &&
      let k := s.field f; decide (k.headers = .idle ∧ k.offDue = false ∧ s.neighbourAtPeak f = false)) &&
    (decide (s.turnsOn f = false)) &&
    (let k := s.field f; decide (k.offDue = false)) &&
    (let k := s.field f; decide (k.headers = .idle)) &&
    (decide (s.steward.lost = false)) &&
    (decide (s.steward.lost = false ∧ t < 8)) &&
    (decide (s.steward.lost = false ∧ f < 64)) &&
    (decide (s.steward.lost = false ∧ v.toNat < 128)) &&
    (decide (t < 8 ∧ p < 122 ∧ s.phaseFailed t p = false))) = true := by decide +kernel

theorem witness_FieldSupplyAndCaps_2 :
    (let s : State := (fs { headers := .stretched 498800, rail := .powered, offDue := true } [] []); let f : Nat := 2;
      let t : Nat := 498800; let v : BitVec 16 := 2000;
    (let k := s.field f; decide (k.offDue = true)) &&
    (let k := s.field f; decide (k.headers = .stretched t ∧ t + usCycles 1 ≤ s.now)) &&
    (decide (128 ≤ v.toNat))) = true := by decide +kernel

theorem witness_FieldSupplyAndCaps_3 :
    (let s : State := (fs { headers := .settling 1000 400000, rail := .turningOn } [] []); let f : Nat := 2;
      let t : Nat := 400000; let i : Nat := 1000;
    (let k := s.field f; decide (k.headers = .settling i t ∧ t + usCycles 20 < s.now)) &&
    (decide (s.turnsOn f = true) &&
      let k := s.field f; decide (k.headers = .settling i t ∧ t + usCycles 20 ≤ s.now))) = true := by decide +kernel

theorem witness_FieldSupplyAndCaps_4 :
    (let s : State := (fs { headers := .waiting 260000, rail := .turningOn } [] []); let f : Nat := 2; let t : Nat := 260000;
    (decide (s.turnsOn f = true) &&
      let k := s.field f; decide (k.headers = .waiting t ∧ t + usCycles 200 ≤ s.now))) = true := by decide +kernel

theorem witness_FieldSupplyAndCaps_5 :
    (let s : State := (fs { headers := .waiting 260001, rail := .turningOn } [] []); let f : Nat := 2; let t : Nat := 260001;
    (let k := s.field f; decide (k.headers = .waiting t ∧ s.now < t + usCycles 200))) = true := by decide +kernel

theorem witness_FieldSupplyAndCaps_6 :
    (let s : State := (fs { headers := .closing 7 1000 499000, rail := .turningOn } [] []); let f : Nat := 2;
      let t : Nat := 499000; let n : Nat := 7; let i : Nat := 1000;
    (decide (s.turnsOn f = true) &&
      let k := s.field f; decide (k.headers = .closing n i t ∧ t + i ≤ s.now))) = true := by decide +kernel

theorem witness_FieldSupplyAndCaps_7 :
    (let s : State := (fs { headers := .settling 1000 480000, rail := .turningOn } [] []); let f : Nat := 2;
      let t : Nat := 480000; let i : Nat := 1000;
    (decide (s.turnsOn f = true) &&
      let k := s.field f;
      decide (k.headers = .settling i t ∧ t + i + usCycles 2 ≤ s.now ∧ s.now ≤ t + usCycles 20))) = true := by decide +kernel

theorem witness_FieldSupplyAndCaps_8 :
    (let s : State := (fs { headers := .opening 400000, rail := .powered, offDue := true } [] []); let f : Nat := 2;
      let t : Nat := 400000;
    (let k := s.field f; decide (k.headers = .opening t ∧ t + stageInterval ≤ s.now))) = true := by decide +kernel

theorem witness_FieldSupplyAndCaps_9 :
    (let s : State := (fs { rail := .powered } [] [(0x2006, 1, 0x7F)]); let t : Nat := 3; let p : Nat := 5; let n : Nat := 4;
    (decide (t < 8 ∧ p < 122 ∧ 1 ≤ n ∧ n ≤ 4 ∧ s.phaseFailed t p = false ∧ phaseDomain p < 8 ∧
        s.failedPhases t (phaseDomain p) = 0))) = true := by decide +kernel

theorem witness_FieldSupplyAndCaps_10 :
    (let s : State := (let s := fs { rail := .powered } [] [(0x2006, 1, 0x7F)]; nextOf s (execPhaseFailure 3 5 4 s));
      let t : Nat := 3; let p : Nat := 5;
    (decide (s.phaseFailed t p = true))) = true := by decide +kernel

theorem witness_FieldSupplyAndCaps_11 :
    (let s : State := (let s := fs {} [(0, [2, 3])] [];
      { s with power := { s.power with currents := (domainPhases 0).map fun p => (p, 3000) } }); let f : Nat := 2;
    (decide (f < 64 ∧ thermalState s ≠ 4 ∧ s.boot.inputLoss = false ∧ (Map.get [] s.turnOns (f / 8)).head? = some f ∧
        (∀ j ∈ List.range 8, (s.field (f / 8 * 8 + j)).headers.turningOn = false)) &&
      let k := s.field f;
      decide (k.headers = .idle ∧ k.offDue = false ∧ s.neighbourAtPeak f = true))) = true := by decide +kernel

theorem witness_SensorsAndCoolant_1 :
    (let s : State := { ss [(0x3000,8,0x3FF)] with now := 1000 }; let v : Word32 := 0; let b : Byte := 1;
      let w : BitVec 16 := 1025;
    (decide (s.now < s.thermal.capAt + secCycles 1)) &&
    (decide (s.steward.lost = false ∧ trayValue v = true)) &&
    (decide (s.steward.lost = false ∧ trayValue v = true ∧ (s.writeTray 2 v).flow.map (·.isZero) = some true ∧
        thermalState s < 3)) &&
    (decide (s.trayStale = true)) &&
    (decide (b ≠ 1 ∨ thermalState s ≠ 3 ∨ s.mayResume = false)) &&
    (decide (1024 ≤ w.toNat))) = true := by decide +kernel

theorem witness_SensorsAndCoolant_2 :
    (let s : State := (ss []); let t : Nat := 2;
    (decide (s.boot.started = false ∨ s.now / usCycles 10 ≤ s.power.window)) &&
    (decide (s.boot.started = false ∨ s.now / usCycles 10 ≤ Map.get 0 s.thermal.windows t)) &&
    (decide (t < 8 ∧ Map.get 0 s.power.attributed t < s.now / msCycles 1)) &&
    (decide (t < 8) &&
      let k := Map.get {} s.thermal.sums t;
      decide (k.since + secCycles 1 ≤ s.now ∧ k.samples = 0))) = true := by decide +kernel

theorem witness_SensorsAndCoolant_3 :
    (let s : State := { ss [(0x3000,7,3), (0x3010,2,0x41A00000)] with thermal := { trayAt := some 8999999999, rth := nan8 } };
      let v : Word32 := 0xC0A00000; let w : BitVec 16 := 1023;
    (decide (trayValue v = false)) &&
    (decide (s.trayStale = false)) &&
    (decide (s.steward.lost = false ∧ thermalState s = 3 ∧ s.mayResume = true)) &&
    (decide (s.steward.lost = false ∧ w.toNat < 1024))) = true := by decide +kernel

theorem witness_SensorsAndCoolant_4 :
    (let s : State := { ss [] with boot := { started := true } }; let t : Nat := 2;
    (decide (s.boot.started = true ∧ s.power.window < s.now / usCycles 10 ∧
        (∀ k ∈ List.range 8, ∀ d ∈ List.range 12, 8 ≤ d → s.failedPhases k d ≤ phasesCarried d))) &&
    (decide (t < 8 ∧ s.boot.started = true ∧ Map.get 0 s.thermal.windows t < s.now / usCycles 10))) = true := by decide +kernel

theorem witness_SensorsAndCoolant_5 :
    (let s : State := { ss [] with thermal := { sums := [(2, { since := 8999999999 })] } }; let t : Nat := 2;
    (decide (s.now < (Map.get {} s.thermal.sums t).since + secCycles 1))) = true := by decide +kernel

theorem witness_SensorsAndCoolant_6 :
    (let s : State := { ss [] with power := { attributed := [(2, 7500)] } }; let t : Nat := 2;
    (decide (s.now / msCycles 1 ≤ Map.get 0 s.power.attributed t))) = true := by decide +kernel

theorem witness_SensorsAndCoolant_7 :
    (let s : State := (ss []); let v : Word32 := 0x41A00000;
    (decide (s.steward.lost = false ∧ trayValue v = true ∧ (s.writeTray 2 v).flowLow = false ∧
        (s.writeTray 2 v).flow.map (·.isZero) ≠ some true))) = true := by decide +kernel

end Case17

namespace Case18

def bs (b : Boot) (l : List (Nat × Nat × Nat)) : S := l.foldl (fun s (a, b,
    c) => s.setReg a b c) { put (w0 [1]) sliceBase [3] with now := 9000000000, boot := b, pins := { vaux := true } , repairs := [.bypass 7], nor := [(5, 3)] }
def st0 : SelfTest := { ringOk := true, sensors := [], phases := [], cores := [], slices := [], arrays := [] }
def ct0 : ChannelTest := ⟨[], [], [], []⟩
/-- A NOR device with an image of one byte in slot A and none in slot B. -/
def norImage : Map Nat :=
  let h := natToBytes 4 0x54384D4C ++ natToBytes 8 0 ++ natToBytes 4 1 ++ sha256 [7] ++ natToBytes 12 0
  let b := h ++ natToBytes 4 (crc32 h).toNat ++ [7]
  (List.range b.length).map (fun i => (i, 256 + (b.getD i 0).toNat)) ++ [(0x1000000, 256), (0x1000001, 256), (0x1000002, 256), (0x1000003, 256)]

def rs (f : Field) (l : List (Nat × Nat × Nat)) : S := l.foldl (fun s (a, b,
    c) => s.setReg a b c) { w0 [1] with now := 9000000000, fields := [(0, { rail := .powered }), (2, f)], dm := { published := true, cores := [5] }, repairs := [.bypass 5] }
def jr : RepairJob := ⟨.lane 3 4, false, 0⟩
def rb (ch l b row p : Nat) : List Byte := natToBytes 2 ch ++ natToBytes 1 l ++ natToBytes 1 b ++ natToBytes 2 row ++
    natToBytes 1 p ++ [0]

theorem witness_BootAndSupplyLands_1 :
    (let s : State := (let s := bs { started := true, rails := true, wave := 2, waveFields := [2, 10] } [(0x9002,1,4)];
      { s with steward := { running := true}, fields := [(0, {rail := .held}), (2, {})] }); let w : Nat := 2;
      let ns : Nat := 100000; let f : Nat := 0; let ch : ChannelTest := ct0;
    (let b := s.boot; decide (b.started = true)) &&
    (decide (s.steward.running = true)) &&
    (let b := s.boot;
      decide (b.rails = true ∧ b.channels = false ∧ b.inputLoss = false ∧ ch.channels = [] ∧ ch.hens = [] ∧ ch.towers = [])) &&
    (decide (w < 7) && let b := s.boot; decide (b.wave = w ∧ b.waveAt + w * usCycles 100 ≤ s.now ∧ b.inputLoss = false)) &&
    (decide (f < 64) &&
      let b := s.boot;
      decide (b.inputLoss = false ∧ s.dm.published = true ∧ (s.field f).rail = .held ∧ s.serviceState f = 4)) &&
    (let b := s.boot; decide (b.rails = true ∧ b.inputLoss = false)) &&
    (decide (s.pins.pwrGood = true)) &&
    (decide (s.pins.vaux = true)) &&
    (decide (100000 ≤ ns)) &&
    (decide (s.stopped = false))) = true := by decide +kernel

theorem witness_BootAndSupplyLands_2 :
    (let s : State := (let s := bs {} []; { s with dm := {} }); let w : Nat := 0; let ns : Nat := 10;
    (let b := s.boot; decide (b.started = false ∧ s.pins.vaux = true)) &&
    (let b := s.boot; decide (w ≠ b.wave)) &&
    (decide (ns < 1000)) &&
    (decide (s.stopped = true) &&
      let b := s.boot; decide (b.stopAt ≠ some s.now ∧ s.reg 0x2020 1 ≠ 4))) = true := by decide +kernel

theorem witness_BootAndSupplyLands_3 :
    (let s : State := (let s := bs { started := true, rails := true, wave := 8, tested := List.range 64 } [(0x9000,1,3)];
      { s with dm := {}, pins := { vaux := false, pwrGood := true } }); 
    (decide (s.dm.published = false) &&
      let b := s.boot;
      decide (b.inputLoss = false ∧ b.wave = 8 ∧ s.reg 0x9000 1 = 3 ∧
        (∀ f ∈ List.range 64, b.tested.contains f = true ∨ s.towerOut (f / 8) = true))) &&
    (decide (s.pins.vaux = false))) = true := by decide +kernel

theorem witness_BootAndSupplyLands_4 :
    (let s : State := (let s := bs { started := true, rails := true } []; { s with dm := {} });
    (let b := s.boot;
      decide (b.rails = true ∧ b.inputLoss = false ∧ s.steward.running = false ∧ s.reg 0x9000 1 = 0))) = true := by decide +kernel

theorem witness_BootAndSupplyLands_5 :
    (let s : State := (let s := bs {} []; { s with dm := {}, pins := { pwrGood := false } });
    (decide (s.pins.pwrGood = false))) = true := by decide +kernel

theorem witness_BootAndSupplyLands_6 :
    (let s : State := (bs { started := true, inputLoss := true, stopAt := some 9000000000 } [(0x2020,1,2)]);
    (decide (s.stopped = true) &&
      let b := s.boot; decide (b.stopAt = some s.now ∧ s.reg 0x2020 1 ≠ 4))) = true := by decide +kernel

theorem witness_BootAndSupplyLands_7 :
    (let s : State := (let s := bs { started := true } [(0x2020,1,4),(0x3000,7,4)];
      { s with fields := [(5, { rail := .off, offDue := true })] });
    (decide (s.stopped = true ∧ s.reg 0x2020 1 = 4 ∧ s.shuttingDown = true) &&
      let c := (2 : Nat); decide (c < 4))) = true := by decide +kernel

theorem witness_ResetServiceAndRepair_1 :
    (let s : State := (rs { rail := .held, tested := true } [(0x9002,3,2)]);
      let v : BitVec 16 := (BitVec.ofNat 16 (0x4000 + 2)); let c : BitVec 32 := 5; let f : Nat := 2;
      let bytes : List Byte := (rb 3 16 2 7 1);
    (decide (s.steward.lost = false ∧ resetScope v = 1 ∧ resetTest v ≠ 3 ∧ s.mayReset = true)) &&
    (decide (s.offHeld f = false)) &&
    (decide (s.isHead = true)) &&
    (decide (s.serviceState f ≠ 1)) &&
    (decide (s.steward.lost = false ∧ s.mayReset = true) &&
      let g := v.toNat % 64; decide (s.serviceState g = 2 ∧ s.inReset g = false ∧ serviceAction v = 4)) &&
    (decide (s.steward.lost = false) &&
      let core := c.toNat % 2 ^ 14;
      decide (coreExists core = true ∧ s.mayReset = true ∧ s.inService core = false ∧ c.getLsbD 31 = false)) &&
    (decide (s.steward.lost = false) && let core := c.toNat % 2 ^ 14; decide (coreExists core = true ∧ s.mayReset = true)) &&
    (decide (s.steward.lost = false ∧ bytes.length = 8) &&
      let b (i : Nat) : Nat := (bytes.getD i 0).toNat; decide (b 7 = 0 ∧ s.repairJob = none ∧ s.mayReset = true) &&
      let ch := (b 0 + 256 * b 1) % 2 ^ 14;
      decide (coreExists ch = true ∧ s.dm.channels.contains ch = false ∧ (16 ≤ b 2 ∨ 4 ≤ b 3))) &&
    (decide (s.steward.lost = false ∧ s.repairJob = none ∧ s.mayReset = true) &&
      let ch := c.toNat % 2 ^ 14; decide (coreExists ch = true ∧ s.dm.channels.contains ch = false ∧ s.inForce = []) &&
      let lane := c.toNat / 2 ^ 16 % 128; decide (lane ≤ 71)) &&
    (decide (s.repairJob = none)) &&
    (decide (thermalState s ≠ 4 ∨ s.mayResume = false ∨ s.boot.inputLoss = true))) = true := by decide +kernel

theorem witness_ResetServiceAndRepair_2 :
    (let s : State := (let s := rs { rail := .powered } [];
      {s with group := { member := 4 }, dm := { published := true, channels := [3]}});
      let v : BitVec 16 := (BitVec.ofNat 16 (0x1000 + 2)); let c : BitVec 32 := (5 + 72 * 65536);
      let bytes : List Byte := (rb 3 16 2 7 1);
    (decide (s.steward.lost = false ∧ resetScope v = 0 ∧ resetTest v ≠ 3 ∧ s.mayReset = true)) &&
    (decide (s.isHead = false)) &&
    (decide (s.steward.lost = false ∧ serviceAction v = 1 ∧ s.mayReset = true) &&
      let g := v.toNat % 64; decide (s.serviceState g = 0 ∧ s.fieldUp g = true)) &&
    (decide (s.steward.lost = false) &&
      let core := c.toNat % 2 ^ 14;
      decide (coreExists core = true ∧ s.mayReset = true ∧ s.inService core = true ∧ c.getLsbD 31 = false)) &&
    (decide (s.steward.lost = false ∧ bytes.length = 8) &&
      let b (i : Nat) : Nat := (bytes.getD i 0).toNat; decide (b 7 = 0 ∧ s.repairJob = none ∧ s.mayReset = true) &&
      let ch := (b 0 + 256 * b 1) % 2 ^ 14; decide (coreExists ch = true ∧ s.dm.channels.contains ch = true)) &&
    (decide (s.steward.lost = false ∧ s.repairJob = none ∧ s.mayReset = true) &&
      let ch := c.toNat % 2 ^ 14; decide (coreExists ch = true ∧ s.dm.channels.contains ch = false ∧ s.inForce = []) &&
      let lane := c.toNat / 2 ^ 16 % 128; decide (71 < lane))) = true := by decide +kernel

theorem witness_ResetServiceAndRepair_3 :
    (let s : State := (rs { rail := .off } [(0x9002,3,2),(0x3000,7,4)]); let v : BitVec 16 := (BitVec.ofNat 16 (0x3000 + 2));
      let bytes : List Byte := (rb 3 1 2 7 1);
    (decide (resetTest v = 3 ∨ resetScope v = 3 ∨ s.mayReset = false)) &&
    (decide (s.steward.lost = false ∧ s.mayReset = true) &&
      let g := v.toNat % 64;
      decide (s.serviceState g = 2 ∧ s.inReset g = false ∧ serviceAction v = 3 ∧ (s.field g).rail ≠ .held)) &&
    (decide (s.steward.lost = false ∧ bytes.length = 8) &&
      let b (i : Nat) : Nat := (bytes.getD i 0).toNat; decide (b 7 = 0 ∧ s.repairJob = none ∧ s.mayReset = true) &&
      let ch := (b 0 + 256 * b 1) % 2 ^ 14;
      decide (coreExists ch = true ∧ s.dm.channels.contains ch = false ∧ b 2 < 16 ∧ b 3 < 4 ∧ s.spareRows ch (b 2) (b 3) < 8)) &&
    (decide (s.steward.lost = false ∧ thermalState s = 4 ∧ s.mayResume = true ∧
        (∀ e ∈ s.thermal.layers, ∀ x ∈ e.2, x < 70 * degree) ∧ s.boot.inputLoss = false))) = true := by decide +kernel

theorem witness_ResetServiceAndRepair_4 :
    (let s : State := (let s := rs { rail := .powered, drainAt := some 7 } [(0x9002, 3, 1)]; {s with repairJob := some jr });
      let f : Nat := 2; let t0 : Nat := 7; let j : RepairJob := jr;
    (decide (f < 64 ∧ s.serviceState f = 1 ∧ s.fieldIdle f = true)) &&
    (decide (f < 64 ∧ s.serviceState f = 1) &&
      let k := s.field f; decide (k.drainAt = some t0 ∧ t0 + msCycles (s.reg 0x9001 3) ≤ s.now)) &&
    (decide (s.repairJob = some j) &&
      match j.repair with
      | .lane ch _ => (decide (j.persist = false ∧ s.repairable ch = true ∧ s.running = true))
      | _ => false)) = true := by decide +kernel

theorem witness_ResetServiceAndRepair_5 :
    (let s : State := (rs { rail := .held, tested := true } [(0x9002,3,2)]); let v : BitVec 16 := (BitVec.ofNat 16 (0x8000 + 2));
    (decide (s.steward.lost = false ∧ resetScope v = 2 ∧ resetTest v ≠ 3))) = true := by decide +kernel

theorem witness_ResetServiceAndRepair_6 :
    (let s : State := (rs { rail := .off, onAfterReset := true, offAt := some 5 } []); let f : Nat := 2;
    (decide (f < 64 ∧ s.offHeld f = true ∧ s.running = true) &&
      let k := s.field f;
      decide (k.byWave = false ∧ (∀ i, i < f % 8 → s.offHeld (f / 8 * 8 + i) = false)))) = true := by decide +kernel

theorem witness_ResetServiceAndRepair_7 :
    (let s : State := (let s := rs { rail := .powered, drainAt := some 7 } [(0x9002, 3, 1)];
      {s with repairJob := some jr, channels := [(3, { window := [{ reqs := [], line := 0, isRead := true, fromCore := true, spread := false, arrival := 0 }]})] });
      let j : RepairJob := jr;
    (decide (s.repairJob = some j ∧ j.since + msCycles 10 ≤ s.now ∧
        s.repairable j.repair.channel = false))) = true := by decide +kernel

theorem witness_ResetServiceAndRepair_8 :
    (let s : State := (rs { rail := .held } [(0x9002,3,2)]); let v : BitVec 16 := (BitVec.ofNat 16 (0x2000 + 2));
    (decide (s.steward.lost = false ∧ s.mayReset = true) &&
      let g := v.toNat % 64;
      decide (s.serviceState g = 2 ∧ s.inReset g = false ∧ serviceAction v = 2 ∧
        (s.field g).rail = .held))) = true := by decide +kernel

end Case18

namespace Case19

def z (l : List (Nat × Nat × Nat)) : S := l.foldl (fun s (a, b,
    c) => s.setReg a b c) { w0 [1] with now := 9000000, boot := { started := true }, pins := { resetN := true }, channels := [(3, {})], capture := { awake := [(3, 8900000), (4, 8999999)], address := 1 * 2^40 } }
def cr (s : S) (a n : Nat) := (s.captureRead a n)
def fz : S := z [(0xA001,3,2),(0xA001,4,2)]
def fq : S := { fz with regs := Map.set 0 fz.regs (0xA002 * 256 + 1) (2^40) }

theorem witness_FreezeAndCapture_1 :
    (let s : State := (z []); let ns : Nat := 200;
    (decide (s.steward.lost = false ∧ s.reg 0xA001 3 ≠ 2)) &&
    (decide (s.steward.lost = false ∧ s.dm.published = true ∧ s.running = true)) &&
    (decide (s.reg 0xA001 3 = 0)) &&
    (decide (200 ≤ ns ∧ s.pins.resetN = true ∧ s.boot.started = true)) &&
    (decide (s.reg 0xA001 3 ≠ 1))) = true := by decide +kernel

theorem witness_FreezeAndCapture_2 :
    (let s : State := fz; let s1 : State := (cr fz (2^40) 8).2.2; let offset : Nat := 0; let n : Nat := 0; let ch : Nat := 3;
      let a : BitVec 64 := 16; let bytes : List Byte := (cr fz (2^40) 8).2.1; let e : Nat × Nat := (3, 8900000);
    (decide (s.steward.lost = false ∧ (n = 0 ∨ 1024 < n ∨ 2 ^ 24 ≤ offset))) &&
    (decide (s.capture.awake.find? (fun e => e.1 == ch) = some e ∧ e.2 + usCycles 1 ≤ s.now)) &&
    (decide (a.toNat % 8 = 0)) &&
    (decide (s.captureRead s.capture.address 8 = (.ok, bytes, s1)))) = true := by decide +kernel

theorem witness_FreezeAndCapture_3 :
    (let s : State := (z [(0xA001,3,2),(0xA001,4,2)]); let ns : Nat := 100;
    (decide (s.reg 0xA001 3 = 2)) &&
    (decide (s.steward.lost = false ∧ s.reg 0xA001 3 = 2 ∧ s.reg 0xA001 4 = freezeSoftware)) &&
    (decide (ns ≤ 100))) = true := by decide +kernel

theorem witness_FreezeAndCapture_4 :
    (let s : State := fq; let s1 : State := (cr fq (2^40) 8).2.2; let offset : Nat := 0; let n : Nat := 8;
      let a : BitVec 64 := 17; let r : CaptureResult := (cr fq (2^40) 8).1; let bytes : List Byte := (cr fq (2^40) 8).2.1;
    (decide (s.steward.lost = false ∧ 0 < n ∧ n ≤ 1024 ∧ offset < 2 ^ 24 ∧
        s.captureRead (s.reg 0xA002 1 + offset) (min n (2 ^ 24 - offset)) = (r, bytes, s1))) &&
    (let core := (0 : Nat);
      decide (core < 16384 ∧ coreExists core = true ∧ s.reg 0xA001 3 = 2 ∧ s.inService core = true ∧
        s.fieldUp (core / 2048 * 8 + clusterField (core / 16 % 128)) = true ∧ 8 ≤ n ∧ n ≤ 64)) &&
    (decide (a.toNat % 8 ≠ 0))) = true := by decide +kernel

theorem witness_FreezeAndCapture_5 :
    (let s : State := (z []); let s1 : State := (cr (z []) (2^40) 8).2.2; let ch : Nat := 5;
      let bytes : List Byte := (cr (z []) (2^40) 8).2.1; 
    (decide (s.capture.awake.find? (fun e => e.1 == ch) = none)) &&
    (decide (s.captureRead s.capture.address 8 = (.notFrozen, bytes, s1)))) = true := by decide +kernel

theorem witness_FreezeAndCapture_6 :
    (let s : State := (z [(0xA001,3,1),(0xA001,4,2)]);
    (decide (s.reg 0xA001 3 = 1 ∧ (∀ e ∈ s.channels, e.2.underWay s.now = false) ∧
        s.reg 0xA001 4 ≠ 0))) = true := by decide +kernel

theorem witness_FreezeAndCapture_7 :
    (let s : State := { z [(0xA001,3,3)] with capture := { thawAt := 9000000 } };
    (decide (s.steward.lost = false ∧ s.reg 0xA001 3 = 3 ∧ s.capture.thawAt = s.now))) = true := by decide +kernel

theorem witness_FreezeAndCapture_8 :
    (let s : State := { z [(0xA001,3,1),(0xA001,4,2)] with channels := [(3, { flight := [{ line := 5, reqs := [7], prefetch := false, spread := false, due := 99999999999 }] })] };
    (decide (s.reg 0xA001 3 = 1 ∧ (∃ e ∈ s.channels, e.2.underWay s.now = true)))) = true := by decide +kernel

theorem witness_FreezeAndCapture_9 :
    (let s : State := { z [] with steward := { lost := true } };
    (decide (s.steward.lost = true))) = true := by decide +kernel

end Case19

namespace Case20

def hs (h : HostPort) (l : List (Nat × Nat × Nat)) : S := l.foldl (fun s (a, b,
    c) => s.setReg a b c) { w0 [1] with now := 9000000, host := { h with function := { memory := true, busMaster := true } }, boot := { rails := true } }
def op0 : HostOp := { id := 7, tag := 3, device := 0, kind := .failed 2, reqs := [] }
def up (s : S) : S := { s with steward := { running := true } }
def w1v : Word := 0x8000000000000000
def h5 : S := up (hs {linkUp := true, windows := [(0, w1v)]} [(0x5200,6,512)])
def sh (s : S) (n : Nat) := s.sendHost 3 ((pieces 0 n).map fun (a, k) => (a, .read k))
def sw (s : S) := s.sendHost 0 (cutBytes (pieces 0 2) [1,2])
def h6 : S := up (hs {linkUp := true, windows := [(0, BitVec.ofNat 64 (2^63 + storeAddr 0 0 / 2^32 * 2^32))]} [(0x5200,6,512)])
def off6 := storeAddr 0 0 % 2^32
def sa (s : S) := s.sendHost 3 [(storeAddr 0 0, .atomic .add 1 2)]
def hk (k : HostKind) : S := { hs {linkUp := true, ops := [{ op0 with kind := k, reqs := [5] }]} [] with reqs := [{ id := 5, src := .host 3, kind := .read 8, addr := 0, loc := 0, stage := .done, status := 0, data := [1,2,3] }]}

theorem witness_HostAccesses_1 :
    (let s : State := (h5); let bar : Nat := 4; let off : Nat := 0; let n : Nat := 6; let w : Nat := 1; let device : Nat := 0;
      let width : Nat := 1; let rate : Nat := 0; let bytes : List Byte := [1,2]; let op : AmoOp := .add;
    (decide (s.host.linkUp = true ∧ inPage off n = true ∧ bar = 4 ∧ s.barGate false = outcomeSuccess) &&
      match s.windowAddr off with
      | some g => (decide (s.nonMember (g / 2 ^ 48) = false ∧ s.isOwn (g / 2 ^ 48) = true ∧ registerOffset g = none) && true)
      | _ => false) &&
    (decide (s.host.linkUp = true ∧ inPage off bytes.length = true ∧ bar = 4 ∧ s.barGate false = outcomeSuccess) &&
      match s.windowAddr off with
      | some g => (decide (s.nonMember (g / 2 ^ 48) = false ∧ s.isOwn (g / 2 ^ 48) = true ∧ registerOffset g = none) && true)
      | _ => false) &&
    (decide (s.host.linkUp = true ∧ s.barGate false = outcomeSuccess ∧ bar = 4 ∧ atomicOpSupported op off n = false)) &&
    (decide (s.host.linkUp = true ∧ s.steward.running = true ∧ n ≤ 6)) &&
    (decide (s.host.linkUp = true ∧ s.steward.running = true)) &&
    (decide (s.host.linkUp = true ∧ s.barGate false = outcomeSuccess ∧ w < s.host.windowCount)) &&
    (decide (s.isOwn device = true)) &&
    (decide (width ∉ [1, 2, 4, 8, 16] ∨ rate = 0 ∨ 6 < rate))) = true := by decide +kernel

theorem witness_HostAccesses_2 :
    (let s : State := (hk (.failed 2)); let bar : Nat := 4; let off : Nat := 0; let n : Nat := 8; let id : Nat := 7;
      let bytes : List Byte := [1,2]; let o : HostOp := { op0 with kind := .failed 2, reqs := [5] };
    (decide (s.host.linkUp = true ∧ inPage off n = true ∧ bar = 4 ∧
        (s.host.function.decodes = false ∨ s.steward.running = false))) &&
    (decide (s.host.linkUp = true ∧ inPage off bytes.length = true ∧ bar = 4 ∧ s.host.function.decodes = true ∧
        s.steward.running = false)) &&
    (decide (s.host.ops.find? (·.id == id) = some o ∧ s.opBlocked o = false) &&
      match o.kind with
      | .failed _ => (true)
      | _ => false) &&
    (decide (s.host.linkUp = true ∧ s.steward.running = false))) = true := by decide +kernel

theorem witness_HostAccesses_3 :
    (let s : State := h6; let bar : Nat := 4; let off : Nat := off6; let n : Nat := 8; let device : Nat := 9;
      let op : AmoOp := .add;
    (decide (s.host.linkUp = true ∧ s.barGate false = outcomeSuccess ∧ bar = 4 ∧ atomicOpSupported op off n = true) &&
      match s.windowAddr off with
      | some g => (decide (s.nonMember (g / 2 ^ 48) = false ∧ s.isOwn (g / 2 ^ 48) = true) &&
        match placeOf (s.translate (g % 2 ^ 48)) with
      | .store _ _ => (true)
      | _ => false)
      | _ => false) &&
    (decide (s.isOwn device = false ∧ s.dm.published = true ∧ s.reg 0x3000 7 ≠ 4 ∧ s.nonMember device = false ∧
        s.isHead = true)) &&
    (decide (s.isHead = true ∧ s.isOwn device = false ∧ s.nonMember device = false ∧ device < 64))) = true := by decide +kernel

theorem witness_HostAccesses_4 :
    (let s : State := { up (hs {linkUp := true} []) with dm := {} }; let bar : Nat := 4; let off : Nat := 0; let n : Nat := 8;
      let width : Nat := 1; let rate : Nat := 1;
    (decide (s.host.linkUp = true ∧ inPage off n = true ∧ bar = 4 ∧ s.host.function.decodes = true ∧
        s.steward.running = true ∧ s.dm.published = false)) &&
    (decide (s.boot.rails = true ∧ s.boot.inputLoss = false ∧ width ∈ [1, 2, 4, 8, 16] ∧ 1 ≤ rate ∧
        rate ≤ 6))) = true := by decide +kernel

theorem witness_HostAccesses_5 :
    (let s : State := (hs {} []); let off : Nat := 0; let n : Nat := 8;
    (decide (s.host.linkUp = false ∨ inPage off n = false))) = true := by decide +kernel

theorem witness_HostAccesses_6 :
    (let s : State := (up (hs {linkUp := true} [])); let bar : Nat := 4; let off : Nat := 0; let n : Nat := 8;
    (decide (s.host.linkUp = true ∧ inPage off n = true ∧ bar = 4 ∧ s.barGate false = outcomeSuccess ∧
        s.windowAddr off = none))) = true := by decide +kernel

theorem witness_HostAccesses_7 :
    (let s : State := (hk (.ready [1,2])); let id : Nat := 7; let o : HostOp := { op0 with kind := .ready [1,2], reqs := [5] };
    (decide (s.host.ops.find? (·.id == id) = some o ∧ s.opBlocked o = false) &&
      match o.kind with
      | .ready _ => (true)
      | _ => false)) = true := by decide +kernel

theorem witness_HostAccesses_8 :
    (let s : State := (hk (.read 8)); let n : Nat := 8; let id : Nat := 7;
      let o : HostOp := { op0 with kind := .read 8, reqs := [5] };
    (decide (s.host.ops.find? (·.id == id) = some o ∧ s.opBlocked o = false ∧ o.kind = .read n) &&
      match s.opAnswer o none with
      | some (_, _) => (true)
      | _ => false)) = true := by decide +kernel

theorem witness_HostAccesses_9 :
    (let s : State := (hk .write); let id : Nat := 7; let o : HostOp := { op0 with kind := .write, reqs := [5] };
    (decide (s.host.ops.find? (·.id == id) = some o ∧ s.opBlocked o = false ∧ o.kind = .write) &&
      match s.opAnswer o none with
      | some (_, _) => (true)
      | _ => false)) = true := by decide +kernel

theorem witness_HostAccesses_10 :
    (let s : State := (let s := hs {linkUp := true} []; { s with host := { s.host with function := {} } });
      let bar : Nat := 4; let off : Nat := 0; let bytes : List Byte := [1,2];
    (decide (s.host.linkUp = true ∧ inPage off bytes.length = true ∧ bar < 8 ∧
        s.host.function.decodes = false))) = true := by decide +kernel

theorem witness_HostAccesses_11 :
    (let s : State := (h5); let bar : Nat := 8; let off : Nat := 0; let bytes : List Byte := [1,2];
    (decide (s.host.linkUp = true ∧ inPage off bytes.length = true ∧ 8 ≤ bar))) = true := by decide +kernel

theorem witness_HostAccesses_12 :
    (let s : State := (h5); let bar : Nat := 0; let off : Nat := 0x1000; let bytes : List Byte := [1,2];
    (decide (s.host.linkUp = true ∧ inPage off bytes.length = true ∧ bar = 0 ∧ off < windowBase ∧
        s.barGate (off / 4096 == mailboxPage) = outcomeSuccess))) = true := by decide +kernel

end Case20

namespace Case21

def hs (h : HostPort) (l : List (Nat × Nat × Nat)) : S := l.foldl (fun s (a, b,
    c) => s.setReg a b c) { w0 [1] with now := 9000000000, run := 5, host := { h with function := { memory := true, busMaster := true } }, boot := { rails := true, started := true } }
def op0 : HostOp := { id := 7, tag := 3, device := 0, kind := .failed 2, reqs := [] }
def up (s : S) : S := { s with steward := { running := true } }
def mh (mt dev seq idx sub off len ty : Nat) (d : List Byte) : List Byte :=
  sealed (0x4A50 * 2 ^ 176 + 1 * 2 ^ 172 + mt * 2 ^ 168 + dev * 2 ^ 162 + seq * 2 ^ 144 + sub * 2 ^ 128 + idx * 2 ^ 112 + len * 2 ^ 100 + off * 2 ^ 64 + ty * 2 ^ 40) d
def rq : List Byte := mh 1 0x3F 5 0x2000 1 0 0 2 []
def mb : Map Byte := ((List.range rq.length).map fun i => (i, rq.getD i 0)).filter fun e => e.2 ≠ 0
def ds (h : HostPort) (l : List (Nat × Nat × Nat)) : S := { up (hs h ((0x1030, 2, 1235) :: (0x5300,9,1) :: (0x5300,6,7) :: (0x9000,1,4) :: l)) with dict := { mailbox := { level := 2, last := 8999999999 } } }
def e0 : Entry := (findEntry 0x9001 3).getD ⟨0,0,0,0,.ro,0,0⟩
def w1 (s : S) : S := let u : S := { s with host := { s.host with mbBusy := true, mbDone := false } }
     if s.steward.lost then u else u.wrap64 0xB001 1 1
def d1 : S := ds { mbRequest := mb } []
def an (s : S) := (w1 s).answerRequest .mailbox (messageOf s.mailboxRequest)
def sn0 : Snapshot := ⟨0,0,0,[],0⟩
def d2 : S := ds { mbBusy := true } [(0x9020,1,0x1000),(0x9000,2,1)]
def ja (s : S) := (s.wrap64 0xB001 2 1).answerRequest (.jop 0xFFFF00000005 1000) (messageOf rq)
def d3 : S := { d2 with group := { member := 2 } }
def ha (s : S) := s.answerRequest (.head 2) (messageOf rq)
def es : Entry := (findEntry 0xA110 1).getD ⟨0,0,0,0,.ro,0,0⟩
def sn1 : Snapshot := ⟨5,0xA110,1,[1,2,3],8999999999⟩

theorem witness_DictionaryRequests_1 :
    (let s : State := { d2 with dict := { d2.dict with snaps := [sn1] } }; let who : Requester := .mailbox;
      let e : Entry := es; let idx : Nat := 0xA110; let sub : Nat := 1; let address : Nat := 5; let off : Nat := 0;
      let n : Nat := 64; let bytes : List Byte := rq; let v : BitVec 32 := 0x40000; let p : Snapshot := sn1;
    (decide (s.host.mbBusy = true)) &&
    (decide (v.getLsbD 18 = true)) &&
    (decide (s.receives (isMapped address) = true ∧ off ≠ 4810)) &&
    (decide (s.group.member = 0 ∧ s.host.mbSent = [])) &&
    (decide (s.steward.lost = false ∧ s.steward.running = true ∧ v.toNat ≠ s.stewardCode)) &&
    (decide (s.steward.lost = false ∧ s.steward.running = true)) &&
    (decide (s.steward.lost = false) &&
      let level := s.level who;
      decide (1 ≤ level ∧ 1 ≤ bytes.length ∧ bytes.length ≤ 1024 ∧ s.reg 0x9020 1 + bytes.length ≤ 0x2000000 ∧
        s.flashGuarded (s.reg 0x9020 1) bytes.length = false)) &&
    (decide (s.steward.lost = false) &&
      let level := s.level who; decide (1 ≤ level ∧ s.flashGuarded (s.reg 0x9020 1 / 65536 * 65536) 65536 = false)) &&
    (decide (s.steward.lost = false) && let level := s.level who; decide (1 ≤ level ∧ 1 ≤ n ∧ n ≤ 1024 ∧ off + n ≤ 0x4000000)) &&
    (decide (s.steward.lost = false) &&
      let level := s.level who;
      decide (s.accessCheck idx sub level false = (0, some e) ∧ s.liveSnaps.length < 16 ∧
        readLengthOk e sub off n true = true)) &&
    (decide (s.steward.lost = false) &&
      let level := s.level who;
      decide (s.accessCheck idx sub level false = (0, some e) ∧ readLengthOk e sub off n false = true ∧ address ≠ 0 ∧
        s.liveSnaps.find? (fun p => p.id == address && p.index == e.index && p.sub == sub) = some p))) = true := by decide +kernel

theorem witness_DictionaryRequests_2 :
    (let s : State := d1; let s1 : State := (an d1).2; let who : Requester := .mailbox; let a : Answer := (an d1).1;
      let e : Entry := e0; let idx : Nat := 0x9001; let sub : Nat := 3; let address : Nat := 0xFFFF00000005;
      let bytes : List Byte := [7,0]; let v : BitVec 32 := 1234;
    (decide (s.host.mbBusy = false) &&
      let u : State := { s with host := { s.host with mbBusy := true, mbDone := false } };
      let w := if s.steward.lost then u else u.wrap64 0xB001 1 1; let r := messageOf s.mailboxRequest;
      decide (w.forwards r = false ∧ w.answerRequest .mailbox r = (a, s1))) &&
    (decide (v.getLsbD 18 = false)) &&
    (decide (s.receives (isMapped address) = true) &&
      let m := messageOf bytes; decide (bytes.length < 24 ∨ (crc32 (bytes.drop 4)).toNat ≠ m.crc)) &&
    (decide (s.steward.lost = false ∧ plainEntry idx sub = true) &&
      let level := s.level who;
      decide (s.accessCheck idx sub level true = (0, some e) ∧ writeLengthOk e 0 bytes.length = true ∧ e.index ≠ 0x1030 ∧
        s.writeCheck e.index sub bytes = 0)) &&
    (decide (s.steward.lost = false ∧ s.steward.running = true ∧ v.toNat = s.stewardCode ∧
        s.dict.lockUntil = none))) = true := by decide +kernel

theorem witness_DictionaryRequests_3 :
    (let s : State := d2; let s1 : State := (ja d2).2; let a : Answer := (ja d2).1; let address : Nat := 0xFFFF00000005;
      let port : Nat := 1000; let bytes : List Byte := rq;
    (decide (s.receives (isMapped address) = true ∧ 24 ≤ bytes.length) &&
      let m := messageOf bytes;
      decide (bytes.length = m.bytes ∧ (crc32 (bytes.drop 4)).toNat = m.crc ∧ s.steward.lost = false ∧
        (s.wrap64 0xB001 2 1).answerRequest (.jop address port) m = (a, s1)))) = true := by decide +kernel

theorem witness_DictionaryRequests_4 :
    (let s : State := d3; let s1 : State := (ha d3).2; let a : Answer := (ha d3).1; let n : Nat := 2; let bytes : List Byte := rq;
    (decide (s.group.member ≠ 0) &&
      let m := messageOf bytes; decide (s.answerRequest (.head n) m = (a, s1)))) = true := by decide +kernel

theorem witness_DictionaryRequests_5 :
    (let s : State := d2; let who : Requester := .mailbox; let idx : Nat := 0x4200; let sub : Nat := 9;
      let n : Nat := (d2.accessCheck 0x4200 9 2 true).1;
    (decide (s.steward.lost = false ∧ plainEntry idx sub = true ∧ n ≠ 0) &&
      let level := s.level who; decide (s.accessCheck idx sub level true = (n, none)))) = true := by decide +kernel

end Case21

namespace Case22

def hs (l : List (Nat × Nat × Nat)) : S := l.foldl (fun s (a, b,
    c) => s.setReg a b c) { w0 [1] with now := 99000000000, run := 5, boot := { rails := true, started := true }, steward := { running := true } }
def kp (t : Nat) : Kept := { seq := 1, mtype := 1, index := 0, sub := 0, offset := 0, crc := 0, result := 0, snap := 0, bytes := [], job := none, at_ := t }
def dc (jobs : List Job) : Dict := { mailbox := { level := 2, last := 0, kept := [kp 0, kp 98999999999] }, snaps := [⟨5,0xA110,1,[1,2,3],98999999999⟩, ⟨5,0xA110,1,[1,2,3],0⟩], lockUntil := some 5, jop := [⟨3, 4, { level := 1 }⟩], jobs := jobs }
def a0 (l : List (Nat × Nat × Nat)) (jobs : List Job) : S := { hs l with dict := dc jobs }
def wb : Memory := { wbLog := [(1, { offset := 0x40, kind := 1, steward := true })] }
def e1 (p : Nat) : S := { a0 [(0x5300,9,1),(0x5300,6,7),(0x5300,10, p * 2^(16*8)+ 5)] [] with events := { unsent := [(0, [7, 8])] } }

theorem witness_DictionaryTimeAndSideband_1 :
    (let s : State := { a0 [(0x5300,9,1),(0x5300,2,1),(0x5300,6,7),(0xA200,5,0x80000003),(0xA200,3,0xff)] [⟨7, .program 16 [3,4]⟩] with events := { msixDue := true } };
      let t : Nat := 2; let id : Nat := 7; let address : Nat := 0xFFFF00000005; let bytes : List Byte := [3,4];
      let v : BitVec 64 := 0xE; let ip : BitVec 32 := 8; let target : BitVec 32 := 7;
    (match s.dict.jobs with | ⟨p0, .program _ p1⟩ :: _ => (decide (p0 = id ∧ p1 = bytes)) | _ => false) &&
    (decide (s.steward.lost = false ∧ s.group.member = 0 ∧ s.events.msixDue = true ∧ s.events.lastMsix = none ∧
        (s.reg 0xA200 5).testBit 31 = true)) &&
    (decide (s.steward.lost = false ∧ v &&& 0x7FFFFFFE = v)) &&
    (decide (s.steward.lost = false)) &&
    (decide (s.receives true = true ∧ target.toNat = s.reg 0x5300 6)) &&
    (decide (s.receives (isMapped address) = true)) &&
    (decide (s.receives false = true ∧ s.reg 0x5300 2 = 1)) &&
    (decide (s.receives false = true ∧ s.reg 0x5300 2 = 1 ∧ s.reg 0x5300 6 ≠ ip.toNat)) &&
    (decide (t ≤ 2 ∧ s.pins.vaux = true))) = true := by decide +kernel

theorem witness_DictionaryTimeAndSideband_2 :
    (let s : State := { a0 [(0x5300,9,1),(0x5300,2,0),(0x5300,6,7)] [] with events := { notifyDue := true }, group := {member := 3}, dict := { lockUntil := some 99000000001} };
      let t : Nat := 99000000001; let target : BitVec 32 := 8;
    (decide (s.dict.lockUntil = some t ∧ s.now < t)) &&
    (decide (s.dict.jobs = [])) &&
    (decide (s.steward.lost = false ∧ s.group.member ≠ 0 ∧ s.events.notifyDue = true)) &&
    (decide (target.toNat ≠ s.reg 0x5300 6)) &&
    (decide (s.reg 0x5300 2 ≠ 1)) &&
    (decide (2 < t))) = true := by decide +kernel

theorem witness_DictionaryTimeAndSideband_3 :
    (let s : State := (a0 [(0x5300,9,1),(0x5300,6,7),(0xA200,5,0x80000003),(0xA200,3,0xff)] [⟨7, .save 0x2000 1 [3,4]⟩]);
      let id : Nat := 7; let idx : Nat := 0x2000; let sub : Nat := 1; let bytes : List Byte := [3,4];
      let v : BitVec 64 := 0xF;
    (match s.dict.jobs with
      | ⟨p0, p1⟩ :: _ => (decide (p0 = id ∧ p1 = .save idx sub bytes ∧ idx ≠ 0x5300 ∧ s.steward.lost = false))
      | _ => false) &&
    (decide (v &&& 0x7FFFFFFE ≠ v))) = true := by decide +kernel

theorem witness_DictionaryTimeAndSideband_4 :
    (let s : State := (a0 [] []); let t : Nat := 5;
    (decide (s.dict.lockUntil = some t ∧ t ≤ s.now))) = true := by decide +kernel

theorem witness_DictionaryTimeAndSideband_5 :
    (let s : State := (e1 0); let t : Nat := 0;
    (decide (t < 4 ∧ Map.get [] s.events.unsent t ≠ [] ∧ s.steward.lost = false ∧
        (s.eventTarget t).2 = 0))) = true := by decide +kernel

theorem witness_DictionaryTimeAndSideband_6 :
    (let s : State := (e1 0x1234); let t : Nat := 0;
    (decide (t < 4 ∧ Map.get [] s.events.unsent t ≠ [] ∧ s.steward.lost = false ∧ (s.eventTarget t).2 ≠ 0 ∧
        Map.get 0 s.events.lastNotice t = 0))) = true := by decide +kernel

theorem witness_DictionaryTimeAndSideband_7 :
    (let s : State := { e1 0x1234 with steward := { lost := true } };
    (decide (s.steward.lost = true))) = true := by decide +kernel

theorem witness_IdleCycle_1 :
    (let s : State := { e1 5 with pending := [], mem := wb };
    (decide (s.pending = [] ∧ s.reg 0xA001 3 ≠ 3) &&
      let due := s.mem.wbLog.find? fun e => e.2.kind != 0 && e.2.steward && !e.2.rewritten; match due with
      | some (_, _) => (decide (s.running = true ∧ s.steward.running = true ∧ s.steward.lost = false))
      | _ => false)) = true := by decide +kernel

theorem witness_IdleCycle_2 :
    (let s : State := { e1 5 with pending := [] };
    (decide (s.pending = [] ∧ s.reg 0xA001 3 ≠ 3) &&
      let due := s.mem.wbLog.find? fun e => e.2.kind != 0 && e.2.steward && !e.2.rewritten;
      decide (due = none ∨ s.running = false ∨ s.steward.running = false ∨ s.steward.lost = true))) = true := by decide +kernel

end Case22

end Sys2Proof.Tests
end

section
/-! PROOFS. Integer immediate forms, products, quotients, remainders and bit counts (R97 to R100): each form is a register result, and its
value is the one that the rules give. -/
namespace Sys2Proof.Machine

/-! ### The shared form -/

/-- An instruction that `exec` performs as a register result retires with the value of its function at the issuing context. -/
theorem retires_of_exec_eq_result {s : State} {i : Issue} {cmd : Instr} {w : Word32} {xd : Reg} {f : Ctx → Word} {v : Word}
    (hexec : exec cmd s = .next (s.result i w xd f)) (hv : f ((s.at_ i).marked s i (s.wordAt i)) = v) (h : s.Performs i w) :
    Retires cmd s s i xd v := by
  subst hv
  exact ⟨_, hexec, State.result_issued h xd f⟩

/-! ### Comparisons (R98, R99) -/

theorem boolWord_slt (a b : Word) : boolWord (a.slt b) = if a.toInt < b.toInt then 1 else 0 := by
  simp [boolWord, BitVec.slt_iff_toInt_lt]

theorem boolWord_ult (a b : Word) : boolWord (a.ult b) = if a.toNat < b.toNat then 1 else 0 := by
  simp [boolWord, BitVec.ult_eq_decide]

/-! ### Products (R99) -/

theorem mul_eq_ofNat_mul_toNat (a b : Word) : a * b = BitVec.ofNat 64 (a.toNat * b.toNat) := by
  rw [BitVec.ofNat_mul, BitVec.ofNat_toNat, BitVec.ofNat_toNat, BitVec.setWidth_eq, BitVec.setWidth_eq]

/-- Bits 127:64 of an integer taken modulo 2^128 are the low 64 bits of its quotient by 2^64, rounded down. -/
theorem truncate_ofInt_shiftRight (z : Int) :
    (BitVec.ofInt 128 z >>> 64).truncate 64 = BitVec.ofInt 64 (z / 2 ^ 64) := by
  apply BitVec.eq_of_toNat_eq
  simp only [BitVec.truncate_eq_setWidth, BitVec.toNat_setWidth, BitVec.toNat_ushiftRight, BitVec.toNat_ofInt,
    Nat.shiftRight_eq_div_pow]
  omega

theorem mulHigh_eq (a b : Word) : mulHigh a b = BitVec.ofInt 64 (a.toInt * b.toInt / 2 ^ 64) := by
  have hprod : a.signExtend 128 * b.signExtend 128 = BitVec.ofInt 128 (a.toInt * b.toInt) := by
    rw [BitVec.ofInt_mul]; rfl
  rw [mulHigh, hprod, truncate_ofInt_shiftRight]

theorem mulHighUnsigned_eq (a b : Word) : mulHighUnsigned a b = BitVec.ofNat 64 (a.toNat * b.toNat / 2 ^ 64) := by
  have hprod : a.zeroExtend 128 * b.zeroExtend 128 = BitVec.ofInt 128 ((a.toNat * b.toNat : Nat) : Int) := by
    rw [BitVec.ofInt_natCast, BitVec.ofNat_mul, BitVec.ofNat_toNat, BitVec.ofNat_toNat]
  rw [mulHighUnsigned, hprod, truncate_ofInt_shiftRight, ← BitVec.ofInt_natCast, Int.natCast_ediv]
  rfl

/-! ### Quotients and remainders (R99, R100) -/

theorem divSigned_eq (a b : Word) :
    divSigned a b = if b = 0 then BitVec.allOnes 64 else BitVec.ofInt 64 (a.toInt.tdiv b.toInt) := by
  have hquot : a.sdiv b = BitVec.ofInt 64 (a.toInt.tdiv b.toInt) := by
    apply BitVec.eq_of_toInt_eq; rw [BitVec.toInt_sdiv, BitVec.toInt_ofInt]
  rw [divSigned, hquot]

theorem divUnsigned_eq (a b : Word) :
    divUnsigned a b = if b = 0 then BitVec.allOnes 64 else BitVec.ofNat 64 (a.toNat / b.toNat) := by
  rw [divUnsigned, BitVec.udiv_eq, BitVec.udiv_def]

theorem remSigned_eq (a b : Word) : remSigned a b = if b = 0 then a else BitVec.ofInt 64 (a.toInt.tmod b.toInt) := by
  rw [remSigned, ← BitVec.toInt_srem, BitVec.ofInt_toInt]

theorem remUnsigned_eq (a b : Word) : remUnsigned a b = if b = 0 then a else BitVec.ofNat 64 (a.toNat % b.toNat) := by
  rw [remUnsigned, BitVec.umod_eq, BitVec.umod_def]

/-! ### Bit counts (R99) -/

theorem onesCount_eq_countP (a : Word) : onesCount a = BitVec.ofNat 64 ((List.range 64).countP fun j => a.getLsbD j) := by
  rw [onesCount, List.countP_eq_length_filter]

/-! ### The statements -/

/-- Settles O3: every immediate form is a register result. -/
theorem integerImmediateForms : Obligations.IntegerImmediateForms := by
  intro s i xd xa m k
  refine ⟨?addi, ?andi, ?ori, ?xori, ?slti, ?sltiu, ?slli, ?srli, ?srai, ?lui, ?shlor⟩
  case slti => exact retires_of_exec_eq_result rfl (boolWord_slt ..)
  case sltiu => exact retires_of_exec_eq_result rfl (boolWord_ult ..)
  case addi | andi | ori | xori | slli | srli | srai | lui | shlor => exact retires_of_exec_eq_result rfl rfl

/-- Settles O5: every form is a register result, and the word operation of each equals the arithmetic of R99 and R100. -/
theorem multiplyDivideAndCountForms : Obligations.MultiplyDivideAndCountForms := by
  intro s i xd xa xb
  refine ⟨?mul, ?mulh, ?mulhu, ?div, ?divu, ?rem, ?remu, ?clz, ?ctz, ?popc⟩
  case mul => exact retires_of_exec_eq_result rfl (mul_eq_ofNat_mul_toNat ..)
  case mulh => exact retires_of_exec_eq_result rfl (mulHigh_eq ..)
  case mulhu => exact retires_of_exec_eq_result rfl (mulHighUnsigned_eq ..)
  case div => exact retires_of_exec_eq_result rfl (divSigned_eq ..)
  case divu => exact retires_of_exec_eq_result rfl (divUnsigned_eq ..)
  case rem => exact retires_of_exec_eq_result rfl (remSigned_eq ..)
  case remu => exact retires_of_exec_eq_result rfl (remUnsigned_eq ..)
  case popc => exact retires_of_exec_eq_result rfl (onesCount_eq_countP ..)
  case clz | ctz => exact retires_of_exec_eq_result rfl rfl

end Sys2Proof.Machine
end

section
/-! PROOFS. What every command keeps: the queue of commands, the time, and memory's canonical form. There is one lemma for each
function of the model that answers a state, in the order of their definitions; each cites the lemmas of the functions that it calls. -/
namespace Sys2Proof.Machine

/-- `t` has come from `b` with the queue of commands and the time as they were, and with memory in canonical form where it was. -/
structure Stays (b t : State) : Prop where
  pending : t.pending = b.pending
  now : t.now = b.now
  wf : b.mem.wf = true → t.mem.wf = true

/-- What a thermal sample leaves: its windows, the sensors and the temperatures before. -/
def State.sampled (s : State) : Map Nat × Map Sensor × Map (List (List Int)) :=
  (s.thermal.windows, s.thermal.sensors, s.thermal.history)

/-- So has `t`, and with what the thermal samples left. -/
structure Keeps (b t : State) : Prop extends Stays b t where
  sampled : t.sampled = b.sampled

variable {b s t : State}

theorem Stays.trans (h : Stays b s) (k : Stays s t) : Stays b t :=
  ⟨k.pending.trans h.pending, k.now.trans h.now, fun w => k.wf (h.wf w)⟩

theorem Keeps.refl (s : State) : Keeps s s := ⟨⟨rfl, rfl, id⟩, rfl⟩

/-- A change of tables beside memory, the queue of commands and the time. -/
theorem Keeps.same (h : Keeps b s) {run fresh regs dm fields links steward cores reqs channels hashWatch queues events group host
    stream power pins boot
    repairJob capture saved dict nor norSize turnOns repairs inForce defectLog laneSuspected syncMsgs syncObjs releases leases
    roundEnds slots routers shafts packets ports multicasts leaseOps bindOps bootSwitchWidth eclassPowers satTotal nanTotal faultLog
    faultBatch gooseLog gooseBatch kvLog heldAnswers groupLeaseEntries out} :
    Keeps b ⟨s.pending, s.now, run, fresh, regs, dm, fields, links, steward, cores, reqs, channels, hashWatch, queues, s.mem,
      events,
        group, host, stream, power, pins, s.thermal, boot, repairJob, capture, saved, dict, nor, norSize, turnOns, repairs, inForce,
        defectLog, laneSuspected, syncMsgs, syncObjs, releases, leases, roundEnds, slots, routers, shafts, packets, ports,
        multicasts, leaseOps, bindOps, bootSwitchWidth, eclassPowers, satTotal, nanTotal, faultLog, faultBatch, gooseLog,
        gooseBatch, kvLog, heldAnswers, groupLeaseEntries, out⟩ :=
  ⟨⟨h.pending, h.now, h.wf⟩, h.sampled⟩

/-- So is a change of the thermal control's beside what the samples left. -/
theorem Keeps.sameThermal (h : Keeps b s) {run fresh regs dm fields links steward cores reqs channels hashWatch queues events group host
    stream power pins thermal boot
    repairJob capture saved dict nor norSize turnOns repairs inForce defectLog laneSuspected syncMsgs syncObjs releases leases
    roundEnds slots routers shafts packets ports multicasts leaseOps bindOps bootSwitchWidth eclassPowers satTotal nanTotal faultLog
    faultBatch gooseLog gooseBatch kvLog heldAnswers groupLeaseEntries out}
    (hs : (thermal.windows, thermal.sensors, thermal.history) = s.sampled) :
    Keeps b ⟨s.pending, s.now, run, fresh, regs, dm, fields, links, steward, cores, reqs, channels, hashWatch, queues, s.mem,
      events,
        group, host, stream, power, pins, thermal, boot, repairJob, capture, saved, dict, nor, norSize, turnOns, repairs, inForce,
        defectLog, laneSuspected, syncMsgs, syncObjs, releases, leases, roundEnds, slots, routers, shafts, packets, ports,
        multicasts, leaseOps, bindOps, bootSwitchWidth, eclassPowers, satTotal, nanTotal, faultLog, faultBatch, gooseLog,
        gooseBatch, kvLog, heldAnswers, groupLeaseEntries, out⟩ :=
  ⟨⟨h.pending, h.now, h.wf⟩, hs.trans h.sampled⟩

/-- A change of tables and of memory, beside its bytes, check states and CRC states. -/
theorem Keeps.withMem (h : Keeps b s) {run fresh regs dm fields links steward cores reqs channels hashWatch queues events group
    host stream power pins boot
    repairJob capture saved dict nor norSize turnOns repairs inForce defectLog laneSuspected syncMsgs syncObjs releases leases
    roundEnds slots routers shafts packets ports multicasts leaseOps bindOps bootSwitchWidth eclassPowers satTotal nanTotal faultLog
    faultBatch gooseLog gooseBatch kvLog heldAnswers groupLeaseEntries out
    producer slices reruns recoveries sramLog wbLog wbFull wbClearedAt wbCleared sliceAccesses wbSuppress} :
    Keeps b ⟨s.pending, s.now, run, fresh, regs, dm, fields, links, steward, cores, reqs, channels, hashWatch, queues,
      ⟨s.mem.cells, s.mem.check, s.mem.crc, producer, slices, reruns, recoveries, sramLog, wbLog, wbFull, wbClearedAt, wbCleared,
        sliceAccesses, wbSuppress⟩,
      events, group, host, stream, power, pins, s.thermal, boot, repairJob, capture, saved, dict, nor, norSize, turnOns, repairs, inForce,
        defectLog, laneSuspected, syncMsgs, syncObjs, releases, leases, roundEnds, slots, routers, shafts, packets, ports,
        multicasts, leaseOps, bindOps, bootSwitchWidth, eclassPowers, satTotal, nanTotal, faultLog, faultBatch, gooseLog,
        gooseBatch, kvLog, heldAnswers, groupLeaseEntries, out⟩ :=
  ⟨⟨h.pending, h.now, h.wf⟩, h.sampled⟩

theorem Keeps.trans (h : Keeps b s) (k : Keeps s t) : Keeps b t :=
  ⟨h.toStays.trans k.toStays, k.sampled.trans h.sampled⟩

/-- The state among what a function answers. -/
theorem Keeps.snd {α : Type} {a : α} (h : Keeps b s) : Keeps b (a, s).2 := h

theorem Keeps.thd {α β : Type} {x : α} {y : β} (h : Keeps b s) : Keeps b (x, y, s).2.2 := h

theorem Keeps.fth {α β γ : Type} {x : α} {y : β} {z : γ} (h : Keeps b s) : Keeps b (x, y, z, s).2.2.2 := h

theorem Keeps.ite {c : Prop} [Decidable c] (hs : Keeps b s) (ht : Keeps b t) : Keeps b (if c then s else t) := by
  split <;> assumption

theorem Keeps.foldl {α : Type} {f : State → α → State} {l : List α} (h : Keeps b s) (hf : ∀ t a, Keeps b t → Keeps b (f t a)) :
    Keeps b (l.foldl f s) := by
  induction l generalizing s with
  | nil => exact h
  | cons a l ih => exact ih (hf s a h)

/-- A fold that carries a state among other values. -/
theorem Keeps.foldlOn {α β : Type} {f : β → α → β} {l : List α} {x : β} (g : β → State) (h : Keeps b (g x))
    (hf : ∀ y a, Keeps b (g y) → Keeps b (g (f y a))) : Keeps b (g (l.foldl f x)) := by
  induction l generalizing x with
  | nil => exact h
  | cons a l ih => exact ih (hf x a h)

theorem Keeps.of_snd {α : Type} {p : α × State} {a : α} (e : p = (a, t)) (h : Keeps b p.2) : Keeps b t := by
  rw [e] at h; exact h

theorem Keeps.of_thd {α β : Type} {p : α × β × State} {x : α} {y : β} (e : p = (x, y, t)) (h : Keeps b p.2.2) : Keeps b t := by
  rw [e] at h; exact h

theorem Keeps.of_fth {α β γ : Type} {p : α × β × γ × State} {x : α} {y : β} {z : γ} (e : p = (x, y, z, t)) (h : Keeps b p.2.2.2) :
    Keeps b t := by
  rw [e] at h; exact h

/-- The outcome is a next state, come from `b`. -/
def KeepsNext (b : State) (o : Host.Outcome State Fault Refusal) : Prop := ∃ t, o = .next t ∧ Keeps b t

/-- So has a next state, but for the thermal samples. -/
def StaysNext (b : State) (o : Host.Outcome State Fault Refusal) : Prop := ∃ t, o = .next t ∧ Stays b t

theorem StaysNext.next (h : Stays b t) : StaysNext b (.next t) := ⟨t, rfl, h⟩

theorem KeepsNext.stays {o} (h : KeepsNext b o) : StaysNext b o := by
  obtain ⟨t, e, h⟩ := h
  exact ⟨t, e, h.toStays⟩

/-- What changes the thermal samples, and then what does not. -/
theorem Stays.keep (h : Stays b s) (k : Keeps s s → Keeps s t) : Stays b t := h.trans (k (.refl s)).toStays

theorem Stays.ite {c : Prop} [Decidable c] (hs : Stays b s) (ht : Stays b t) : Stays b (if c then s else t) := by
  split <;> assumption

theorem Stays.foldl {α : Type} {f : State → α → State} {l : List α} (h : Stays b s) (hf : ∀ t a, Stays b t → Stays b (f t a)) :
    Stays b (l.foldl f s) := by
  induction l generalizing s with
  | nil => exact h
  | cons a l ih => exact ih (hf s a h)

theorem KeepsNext.next (h : Keeps b t) : KeepsNext b (.next t) := ⟨t, rfl, h⟩

theorem KeepsNext.ite {c : Prop} [Decidable c] {o p : Host.Outcome State Fault Refusal} (ho : KeepsNext b o) (hp : KeepsNext b p) :
    KeepsNext b (if c then o else p) := by
  split <;> assumption

theorem KeepsNext.of (h : Keeps b s) {o} (k : KeepsNext s o) : KeepsNext b o := by
  obtain ⟨t, e, k⟩ := k
  exact ⟨t, e, h.trans k⟩

theorem Keeps.setReg (h : Keeps b s) {idx sub v} : Keeps b (s.setReg idx sub v) := h.same

theorem Keeps.sat32 (h : Keeps b s) {idx sub n} : Keeps b (s.sat32 idx sub n) := h.setReg

theorem Keeps.towerSat (h : Keeps b s) {idx tower n} : Keeps b (s.towerSat idx tower n) := h.sat32

theorem Keeps.strayAnswer (h : Keeps b s) {region} : Keeps b (s.strayAnswer region) := h.towerSat

theorem Keeps.updReq (h : Keeps b s) {id g} : Keeps b (s.updReq id g) := h.same

theorem Keeps.setCore (h : Keeps b s) {c v} : Keeps b (s.setCore c v) := h.same

theorem Keeps.setBank (h : Keeps b s) {core b1 v} : Keeps b (s.setBank core b1 v) := h.setCore

theorem Keeps.charge (h : Keeps b s) {core queue kind n} : Keeps b (s.charge core queue kind n) := h.setCore

theorem Keeps.chargeReq (h : Keeps b s) {r kind n} : Keeps b (s.chargeReq r kind n) := by
  unfold State.chargeReq
  split
  · exact h.charge
  · exact h

theorem Keeps.dropRecovery (h : Keeps b s) {r} : Keeps b (s.dropRecovery r) := h.withMem

theorem Keeps.raise (h : Keeps b s) {code tower detail} : Keeps b (s.raise code tower detail) := .ite h h.same.setReg.setReg

theorem Keeps.sramRecord (h : Keeps b s) {line reader prodQueue outcome} : Keeps b (s.sramRecord line reader prodQueue outcome) :=
  .ite h.withMem.setReg.towerSat.raise h.withMem.setReg

theorem Keeps.wrap64 (h : Keeps b s) {idx sub n} : Keeps b (s.wrap64 idx sub n) := h.setReg

theorem Keeps.towerWrap (h : Keeps b s) {idx tower n} : Keeps b (s.towerWrap idx tower n) := h.wrap64

theorem Keeps.setCtx (h : Keeps b s) {core ctx v} : Keeps b (s.setCtx core ctx v) := h.setCore

theorem Keeps.restartReader (h : Keeps b s) {line reader e} : Keeps b (s.restartReader line reader e).2 := by
  cases reader <;> exact .snd h.setCtx.towerWrap.sramRecord

theorem Keeps.checkSram (h : Keeps b s) {line reader} : Keeps b (s.checkSram line reader).2 := by
  unfold State.checkSram
  extract_lets mine t add s1
  have hadd : ∀ {u}, Keeps b u → ∀ {k d}, Keeps b (add u k d) := fun hu => hu.withMem
  have hs1 : Keeps b s1 := h.towerWrap
  clear_value mine
  split
  · cases mine with
    | none => exact .snd h
    | some r => exact .snd (.ite h.dropRecovery h)
  · cases mine with
    | some r =>
      dsimp only
      split
      · exact .snd h.dropRecovery
      · exact .snd h.dropRecovery.towerWrap.sramRecord
      · exact .snd h
    | none =>
      dsimp only
      split
      · exact .snd (hadd h)
      · split
        · exact .snd (hadd hs1)
        · split
          · split
            · exact hs1.restartReader
            · exact .snd (hadd hs1)
          · exact .snd hs1.sramRecord

theorem Keeps.setCopyRecords (h : Keeps b s) {line rs} : Keeps b (s.setCopyRecords line rs) := .ite h.setCore h.withMem

theorem Keeps.sramWritten (h : Keeps b s) {line prod} : Keeps b (s.sramWritten line prod) := h.setCopyRecords.withMem

theorem Keeps.poke (h : Keeps b s) {a bs} : Keeps b (s.poke a bs) :=
  ⟨⟨h.pending, h.now, fun w => State.poke_mem_wf _ _ _ (h.wf w)⟩, h.sampled⟩

theorem Keeps.setCrc (h : Keeps b s) {line d} : Keeps b (s.setCrc line d) :=
  ⟨⟨h.pending, h.now, fun w => State.setCrc_mem_wf _ _ _ (h.wf w)⟩, h.sampled⟩

theorem Keeps.writeSram (h : Keeps b s) {a data prod} : Keeps b (s.writeSram a data prod) :=
  .ite h.poke.sramWritten.setCrc h.poke.sramWritten

theorem Keeps.serveLine (h : Keeps b s) {who r c off order} : Keeps b (s.serveLine who r c off order) := by
  unfold State.serveLine
  extract_lets done k served
  split
  · exact h.updReq
  · split
    · exact h
    · split
      · exact h.setBank
      · split
        · split
          · rename_i s1 e4
            have hs1 : Keeps b s1 := .of_snd e4 h.checkSram
            exact hs1.setBank.chargeReq.updReq
          · rename_i s1 e4
            have hs1 : Keeps b s1 := .of_snd e4 h.checkSram
            exact hs1
          · rename_i s1 e4
            have hs1 : Keeps b s1 := .of_snd e4 h.checkSram
            exact hs1.setBank.chargeReq.updReq
        · exact h.writeSram.setBank.chargeReq.updReq
        · exact h

theorem Keeps.serveBanks (h : Keeps b s) {core whos} : Keeps b (s.serveBanks core whos) := by
  unfold State.serveBanks
  exact h.foldl (fun u r1 hu => by
    split
    · exact .ite hu.serveLine hu
    · exact hu)

theorem Keeps.unitsFrom {core whos body} (hbody : ∀ u v, Keeps b u → body u = some v → Keeps b v) (h : Keeps b s) (n : Nat) :
    Keeps b (State.unitsFrom core whos body n s) := by
  induction n generalizing s with
  | zero =>
    rw [State.unitsFrom]
    split
    · exact h
    · rename_i t e
      exact .ite h.same (hbody s t h e).same
  | succ n ih =>
    rw [State.unitsFrom]
    split
    · exact h
    · rename_i t e
      exact .ite (.ite (ih h.same.serveBanks) h.same.serveBanks) (hbody s t h e).same

theorem Keeps.units (h : Keeps b s) {core whos body} (hbody : ∀ u v, Keeps b u → body u = some v → Keeps b v) :
    Keeps b (s.units core whos body) := .unitsFrom hbody h 4

theorem Keeps.unit (h : Keeps b s) {core who body} (hbody : ∀ u, Keeps b u → Keeps b (body u)) :
    Keeps b (s.unit core who body) :=
  h.units fun u v hu e => by cases e; exact hbody u hu

theorem Keeps.setChannel (h : Keeps b s) {c v} : Keeps b (s.setChannel c v) := h.same

theorem Keeps.rollLanes (h : Keeps b s) {ch} : Keeps b (s.rollLanes ch) := .ite h h.setChannel

theorem Keeps.countSymbol (h : Keeps b s) {ch sym} : Keeps b (s.countSymbol ch sym) :=
  .ite h.rollLanes.setChannel (.ite h.rollLanes.setChannel.setChannel.towerSat.raise
    h.rollLanes.setChannel.setChannel.towerSat.raise.same)

theorem Keeps.wbLog (h : Keeps b s) {ch off kind symbol} : Keeps b (s.wbLog ch off kind symbol) := by
  unfold State.wbLog
  extract_lets t entry __src put s1 __src1
  split
  · exact h.withMem
  · exact h.withMem
  · exact .ite h.towerSat h.towerSat.withMem.raise

theorem Keeps.enqueueWriteBack (h : Keeps b s) {ch off mode poison data} : Keeps b (s.enqueueWriteBack ch off mode poison data) :=
  .ite h (.ite h.setChannel h.setChannel)

theorem Keeps.readDramLine (h : Keeps b s) {ch off mode} : Keeps b (s.readDramLine ch off mode).2.2 := by
  unfold State.readDramLine
  extract_lets a stored c s1 s2 s3
  have hs3 : Keeps b s3 := .ite h.setChannel.raise.wbLog h.setChannel.raise.enqueueWriteBack
  split
  · exact .thd h
  · exact .thd h.setChannel
  · exact .thd (.ite h.countSymbol.wbLog h.countSymbol.enqueueWriteBack)
  · exact .thd hs3

theorem Keeps.countLine (h : Keeps b s) {ch off write spread} : Keeps b (s.countLine ch off write spread) := h.setChannel

theorem Keeps.readLines (h : Keeps b s) {ch l} : Keeps b (s.readLines ch l).2 := by
  induction l generalizing s with
  | nil => exact h
  | cons p rest ih =>
    rw [State.readLines]
    split
    · rename_i e
      exact .snd (ih (Keeps.countLine (.of_thd e h.readDramLine)))
    · rename_i e
      exact .snd (Keeps.countLine (.of_thd e h.readDramLine))

theorem Keeps.token (h : Keeps b s) : Keeps b (s.token).2 := .snd h.same

theorem Keeps.post (h : Keeps b s) {p} : Keeps b (s.post p) := .ite h h.same

theorem Keeps.postReq (h : Keeps b s) {r answer} : Keeps b (s.postReq r answer) := by
  unfold State.postReq
  split
  · exact .ite h (.ite h.post h.post)
  · exact h

theorem Keeps.send (h : Keeps b s) {o} : Keeps b (s.send o) := h.same

theorem Keeps.sendAbroad (h : Keeps b s) {r} : Keeps b (s.sendAbroad r) := by
  unfold State.sendAbroad
  extract_lets core r1 s1
  split
  · exact h.updReq
  · split
    · exact .ite h.updReq.send h.updReq.post
    · exact h.updReq.send

theorem Keeps.sendReq (h : Keeps b s) {src kind addr prod entry} : Keeps b (s.sendReq src kind addr prod entry).2 := by
  unfold State.sendReq
  split
  · rename_i s1 e
    have hs1 : Keeps b s1 := .of_snd e h.token
    exact .snd (.ite hs1.same.postReq hs1.same.sendAbroad)

theorem Keeps.ask (h : Keeps b s) {who kind a prod dev} : Keeps b (s.ask who kind a prod dev) := by
  unfold State.ask
  split
  · exact h
  · split
    · rename_i s1 e1
      have hs1 : Keeps b s1 := .of_snd e1 h.sendReq
      split
      · exact hs1.updReq
      · exact hs1.updReq
      · exact hs1

theorem Keeps.countSlice (h : Keeps b s) {pos} : Keeps b (s.countSlice pos) := h.withMem

theorem Keeps.readPlace (h : Keeps b s) {a n who spread} : Keeps b (s.readPlace a n who spread).2 := by
  unfold State.readPlace
  extract_lets sram
  have hsram : ∀ count, (∀ u, Keeps b u → Keeps b (count u)) → Keeps b (sram count).2 := by
    intro count hcount
    unfold sram
    split
    · rename_i s1 e
      exact .snd (hcount s1 (.of_snd e h.checkSram))
    · rename_i e
      exact .snd (.of_snd e h.checkSram)
    · rename_i e
      exact .snd (.of_snd e h.checkSram)
  split
  · split
    · exact .snd h.towerWrap
    · exact .snd h.readDramLine.countLine
  · exact hsram _ fun _ hu => hu.countSlice
  · exact hsram _ fun _ hu => hu
  · exact .snd h

theorem Keeps.readPiece (h : Keeps b s) {a0 n who dev} : Keeps b (s.readPiece a0 n who dev).2 := by
  unfold State.readPiece
  split
  · split
    · exact .snd h
    · exact .snd h.ask
  · extract_lets p st
    split
    · exact .snd h
    · exact h.readPlace

theorem Keeps.readPieces (h : Keeps b s) {who dev l} : Keeps b (s.readPieces who dev l).2 := by
  induction l generalizing s with
  | nil => exact h
  | cons p rest ih =>
    rw [State.readPieces]
    dsimp only
    split
    · exact .snd h.readPiece
    · exact .snd (ih h.readPiece)

theorem Keeps.askLines (h : Keeps b s) {who ps dev} : Keeps b (s.askLines who ps dev) :=
  .ite h (h.foldl (fun _ _ hu => .ite hu.ask hu))

theorem Keeps.readRange (h : Keeps b s) {a n who dev} : Keeps b (s.readRange a n who dev).2 := h.askLines.readPieces

theorem Keeps.readHome (h : Keeps b s) {a n who} : Keeps b (s.readHome a n who).2 := by
  unfold State.readHome
  extract_lets home
  split
  · split
    · exact h.readLines
    · exact h.readRange
  · exact h.readRange

theorem Keeps.readRegion (h : Keeps b s) {a who} : Keeps b (s.readRegion a who).2 := by
  unfold State.readRegion
  split
  · rename_i s1 e
    have hs1 : Keeps b s1 := .of_snd e h.readHome
    split
    · exact .snd hs1
    · extract_lets ws d
      split
      · exact .snd hs1
      · split
        · rename_i s2 e3
          have hs2 : Keeps b s2 := .of_snd e3 hs1.readHome
          split
          · exact .snd hs2
          · exact .snd hs2

theorem Keeps.readPaused (h : Keeps b s) {ch region} : Keeps b (s.readPaused ch region).2 := by
  unfold State.readPaused
  split
  · rename_i s1 e
    have hs1 : Keeps b s1 := .of_snd e h.readRegion
    exact .snd hs1
  · rename_i s1 e e1
    have hs1 : Keeps b s1 := .of_snd e1 h.readRegion
    exact .snd hs1
  · rename_i s1 e
    have hs1 : Keeps b s1 := .of_snd e h.readRegion
    exact .snd hs1

theorem Keeps.unpause (h : Keeps b s) {ch region} : Keeps b (s.unpause ch region) := h.setChannel.setReg

theorem Keeps.wbRewritten (h : Keeps b s) {ch off} : Keeps b (s.wbRewritten ch off) := h.withMem

theorem Keeps.setCheck (h : Keeps b s) {line d} : Keeps b (s.setCheck line d) :=
  ⟨⟨h.pending, h.now, fun w => State.setCheck_mem_wf _ _ _ (h.wf w)⟩, h.sampled⟩

theorem Keeps.newerWrite (h : Keeps b s) {ch off} : Keeps b (s.newerWrite ch off) := h.setChannel

theorem Keeps.putDramLine (h : Keeps b s) {ch off data} : Keeps b (s.putDramLine ch off data) :=
  h.newerWrite.poke.setCheck.wbRewritten

theorem Keeps.writeDramLine (h : Keeps b s) {ch off data spread} : Keeps b (s.writeDramLine ch off data spread) :=
  h.putDramLine.countLine

theorem Keeps.writeDram (h : Keeps b s) {ch off data spread} : Keeps b (s.writeDram ch off data spread).2 := by
  unfold State.writeDram
  split
  · exact .snd h.writeDramLine
  · split
    · rename_i s1 e1
      have hs1 : Keeps b s1 := .of_thd e1 h.readDramLine
      exact .snd hs1.countLine.writeDramLine
    · rename_i s1 e1 e2
      have hs1 : Keeps b s1 := .of_thd e2 h.readDramLine
      exact .snd hs1.countLine

theorem Keeps.writePlace (h : Keeps b s) {a data prod spread} : Keeps b (s.writePlace a data prod spread).2 := by
  unfold State.writePlace
  split
  · split
    · exact .snd h.towerWrap
    · exact h.writeDram
  · exact .snd h.writeSram.countSlice
  · exact .snd h.writeSram
  · exact .snd h

theorem Keeps.writePiece (h : Keeps b s) {a0 data prod who dev} : Keeps b (s.writePiece a0 data prod who dev).2 := by
  unfold State.writePiece
  split
  · split
    · exact .snd h
    · exact .snd h.ask
  · extract_lets p st
    split
    · exact .snd h
    · exact h.writePlace

theorem Keeps.writePieces (h : Keeps b s) {prod who dev l data} : Keeps b (s.writePieces prod who dev l data).2 := by
  induction l generalizing s data with
  | nil => exact h
  | cons p rest ih =>
    rw [State.writePieces]
    split
    · rename_i e
      exact ih (.of_snd e h.writePiece)
    · rename_i e
      exact .snd (.of_snd e h.writePiece)

theorem Keeps.askWrites (h : Keeps b s) {who prod dev l data} : Keeps b (s.askWrites who prod dev l data) := by
  induction l generalizing s data with
  | nil => exact h
  | cons p rest ih => exact ih (.ite h h.ask)

theorem Keeps.writeRange (h : Keeps b s) {a data prod who dev} : Keeps b (s.writeRange a data prod who dev).2 :=
  h.askWrites.writePieces

theorem Keeps.writeRegionWord (h : Keeps b s) {who region i w} : Keeps b (s.writeRegionWord who region i w).2 := by
  unfold State.writeRegionWord
  split
  · split
    · exact h.writeDram
    · exact h.writeRange
  · exact h.writeRange

theorem Keeps.endDma (h : Keeps b s) {core id st} : Keeps b (s.endDma core id st) := h.setCore

theorem Keeps.finishAppend (h : Keeps b s) {ch core desc st} : Keeps b (s.finishAppend ch core desc st) :=
  h.setChannel.endDma.towerWrap

theorem Keeps.setQueue (h : Keeps b s) {q v} : Keeps b (s.setQueue q v) := h.same

theorem Keeps.notifyFailure (h : Keeps b s) {q} : Keeps b (s.notifyFailure q) := h.towerSat.raise

theorem Keeps.updTaken (h : Keeps b s) {q i g} : Keeps b (s.updTaken q i g) := h.setQueue

theorem Keeps.syncAbroad (h : Keeps b s) {m} : Keeps b (s.syncAbroad m) := by
  unfold State.syncAbroad
  extract_lets core m1 put
  split
  · exact h.same
  · split
    · exact h.same.post
    · exact h.same.send

theorem Keeps.atEngine (h : Keeps b s) {id} : Keeps b (s.atEngine id) := h.same

theorem Keeps.postSync (h : Keeps b s) {id answer} : Keeps b (s.postSync id answer) := by
  unfold State.postSync
  split
  · exact h
  · extract_lets engine
    split
    · exact h.syncAbroad
    · split
      · exact h
      · split
        · exact .ite h.post (.ite h.atEngine h.post)
        · exact .ite h h.atEngine

theorem Keeps.sendSync (h : Keeps b s) {op object value target entry} : Keeps b (s.sendSync op object value target entry) :=
  h.same.same.postSync

theorem Keeps.sendMsix (h : Keeps b s) {v} : Keeps b (s.sendMsix v) := .ite h.same h.send

theorem Keeps.finishRing (h : Keeps b s) {q i} : Keeps b (s.finishRing q i) := by
  unfold State.finishRing
  extract_lets k host
  split
  · exact h
  · exact .setCore (.setQueue (.ite h.send (.ite h.sendMsix h)))

theorem Keeps.notifyObject (h : Keeps b s) {q i} : Keeps b (s.notifyObject q i) := .ite h.sendSync h.finishRing

theorem Keeps.notifyRecord (h : Keeps b s) {q i} : Keeps b (s.notifyRecord q i) := by
  unfold State.notifyRecord
  extract_lets k dst dev
  split
  · exact h
  · extract_lets w0 bytes
    split
    · exact h.notifyObject
    · split
      · exact .notifyObject (.ite h.send (.ite h h.send))
      · split
        · split
          · exact h.foldl (fun _ _ hu => hu.sendReq)
          · split
            · split
              · rename_i s1 e6
                have hs1 : Keeps b s1 := .of_snd e6 h.writeRange
                exact hs1.notifyObject
              · rename_i s1 e6 e7
                have hs1 : Keeps b s1 := .of_snd e7 h.writeRange
                exact hs1.notifyFailure.notifyObject
            · exact .ite h.notifyFailure.notifyObject h.sendReq
        · split
          · exact h.foldl (fun _ _ hu => hu.sendReq)
          · split
            · split
              · rename_i s1 e6
                have hs1 : Keeps b s1 := .of_snd e6 h.writeRange
                exact hs1.notifyObject
              · rename_i s1 e6 e7
                have hs1 : Keeps b s1 := .of_snd e7 h.writeRange
                exact hs1.notifyFailure.notifyObject
            · exact .ite h.notifyFailure.notifyObject h.sendReq

theorem Keeps.endRing (h : Keeps b s) {q i st} : Keeps b (s.endRing q i st) := by
  unfold State.endRing
  split
  · exact h
  · extract_lets bytes fails dram
    split
    · rename_i s1 e1
      have hs1 : Keeps b s1 := by
        refine .of_snd e1 ?_
        split
        · exact .snd h
        · exact h.writeRange
      exact .ite (.sendReq (.updTaken (.setQueue (.ite hs1 hs1.notifyFailure)))) (.notifyRecord (.updTaken (.setQueue (.ite hs1
        hs1.notifyFailure))))

theorem Keeps.setLink (h : Keeps b s) {n l} : Keeps b (s.setLink n l) := h.same

theorem Keeps.updFrame (h : Keeps b s) {n seek g} : Keeps b (s.updFrame n seek g) := h.setLink

theorem Keeps.noteFrame (h : Keeps b s) {n f st} : Keeps b (s.noteFrame n f st) := h.same.updFrame

theorem Keeps.completeRing (h : Keeps b s) {q i st} : Keeps b (s.completeRing q i st) := by
  unfold State.completeRing
  split
  · exact h.endRing
  · exact .ite h.noteFrame h.noteFrame.endRing

theorem Keeps.flushAll (h : Keeps b s) {q st n} : Keeps b (s.flushAll q st n) := by
  induction n generalizing s with
  | zero => exact h
  | succ n ih => exact .ite h (ih h.setQueue.completeRing)

theorem Keeps.drainSeq (h : Keeps b s) {r} : Keeps b (s.drainSeq r) := by
  unfold State.drainSeq
  split
  · exact h.flushAll
  · exact h.send

theorem Keeps.resumeSeq (h : Keeps b s) {r} : Keeps b (s.resumeSeq r) := by
  unfold State.resumeSeq
  split
  · exact h.setQueue
  · exact h.send

theorem Keeps.kvRecord (h : Keeps b s) {ch region kind ntok r} : Keeps b (s.kvRecord ch region kind ntok r) :=
  .ite h.same.setReg.raise (.ite h.same.setReg.raise h.same.setReg)

theorem Keeps.retire (h : Keeps b s) {who ch region kind op r ws paused} : Keeps b (s.retire who ch region kind op r ws paused) := by
  cases op with
  | none => exact .towerSat (.kvRecord (.ite h.writeRegionWord.drainSeq.resumeSeq h.writeRegionWord.drainSeq))
  | some o =>
    exact .towerSat (.kvRecord (.ite h.writeRegionWord.finishAppend.drainSeq.resumeSeq h.writeRegionWord.finishAppend.drainSeq))

theorem Keeps.answerRegion (h : Keeps b s) {ch primary cont} : Keeps b (s.answerRegion ch primary cont) := by
  unfold State.answerRegion
  extract_lets who op ntok
  split
  · rename_i s1 e
    have hs1 : Keeps b s1 := .of_snd e h.readPaused
    split
    · rename_i s2 e1
      have hs2 : Keeps b s2 := by
        refine .of_snd e1 ?_
        split
        · exact .snd hs1
        · exact hs1.readRegion
      split
      · exact hs2
      · extract_lets s3 ok
        split
        · exact hs2.unpause.retire
        · split
          · rename_i s4 e4
            have hs4 : Keeps b s4 := .of_snd e4 hs2.unpause.writeRegionWord
            split
            · rename_i s5 e5
              have hs5 : Keeps b s5 := .of_snd e5 hs4.writeRegionWord
              exact hs5.setChannel.resumeSeq.kvRecord.towerSat
  · rename_i s1 e e1
    have hs1 : Keeps b s1 := .of_snd e1 h.readPaused
    exact hs1.unpause.retire
  · rename_i s1 e
    have hs1 : Keeps b s1 := .of_snd e h.readPaused
    exact hs1

theorem Keeps.settleAnswers (h : Keeps b s) : Keeps b (s.settleAnswers) := by
  unfold State.settleAnswers
  exact h.same.foldl (fun u e1 hu => by
    split
    · exact hu.same
    · split
      · exact .ite (hu.unit (fun _ hu1 => hu1.answerRegion)).same (hu.unit (fun _ hu1 => hu1.answerRegion))
      · exact hu.strayAnswer)

theorem Keeps.takeAnswer (h : Keeps b s) {primary cont} : Keeps b (s.takeAnswer primary cont) := by
  unfold State.takeAnswer
  split
  · exact .ite h.strayAnswer h.same.settleAnswers
  · exact h.strayAnswer

theorem Keeps.thawBanks (h : Keeps b s) : Keeps b (s.thawBanks) := h.same

theorem Keeps.doorbellError (h : Keeps b s) {q event} : Keeps b (s.doorbellError q event) := .ite h.towerSat.raise h.towerSat

theorem Keeps.noteWord0 (h : Keeps b s) {q i} : Keeps b (s.noteWord0 q i) := by
  unfold State.noteWord0
  extract_lets a
  split
  · exact h.readDramLine.countLine
  · exact .ite h h.towerWrap

theorem Keeps.enterLedger (h : Keeps b s) {q n i} : Keeps b (s.enterLedger q n i) := by
  induction n generalizing s i with
  | zero => exact h
  | succ n ih => exact ih h.token.noteWord0.setCore

theorem Keeps.applyDoorbell (h : Keeps b s) {q new} : Keeps b (s.applyDoorbell q new) :=
  .ite h.doorbellError (.ite h.doorbellError (.ite h.doorbellError (.ite h (.ite h.doorbellError h.setQueue.enterLedger))))

theorem Keeps.hostWriteError (h : Keeps b s) : Keeps b (s.hostWriteError) := h.sat32

theorem Keeps.performDoorbell (h : Keeps b s) {device q bytes offset v} : Keeps b (s.performDoorbell device q bytes offset v) :=
  .ite h.applyDoorbell (.ite h.hostWriteError h.send)

theorem Keeps.dropOp (h : Keeps b s) {o} : Keeps b (s.dropOp o) := h.same

theorem Keeps.queueConfigError (h : Keeps b s) {q} : Keeps b (s.queueConfigError q) := h.towerSat

theorem Keeps.writeQcb0 (h : Keeps b s) {q v} : Keeps b (s.writeQcb0 q v) :=
  .ite (.ite h.setQueue h.queueConfigError.raise) h.setQueue

theorem Keeps.orphanFrames (h : Keeps b s) {q} : Keeps b (s.orphanFrames q) := h.foldl (fun _ _ hu => hu.updFrame)

theorem Keeps.resetIndices (h : Keeps b s) {q} : Keeps b (s.resetIndices q) :=
  .ite h.queueConfigError h.setQueue.orphanFrames.setCore

theorem Keeps.flush (h : Keeps b s) {q} : Keeps b (s.flush q) := by
  unfold State.flush
  extract_lets k s1 k1
  have hs1 : Keeps b s1 := by
    unfold s1
    split
    · exact h.same.completeRing
    · exact h
  exact .ite h.queueConfigError hs1.flushAll

theorem Keeps.writeQcbWord (h : Keeps b s) {q w v} : Keeps b (s.writeQcbWord q w v) := by
  unfold State.writeQcbWord
  extract_lets k
  split
  · exact h
  · split
    · exact h.writeQcb0
    · exact .ite h h.setQueue
    · exact .ite h h.setQueue
    · exact .ite h h.setQueue
    · exact .ite h (.ite h.resetIndices (.ite h.flush h.queueConfigError))
    · exact h

theorem Keeps.writeRegisterWord (h : Keeps b s) {off bytes w} : Keeps b (s.writeRegisterWord off bytes w) := .ite h.writeQcbWord h

theorem Keeps.writeRegisters (h : Keeps b s) {off bytes} : Keeps b (s.writeRegisters off bytes) :=
  h.foldl (fun _ _ hu => hu.writeRegisterWord)

theorem Keeps.readyOp (h : Keeps b s) {o bytes} : Keeps b (s.readyOp o bytes) := h.same

theorem Keeps.writeMailbox (h : Keeps b s) {off bytes} : Keeps b (s.writeMailbox off bytes) := h.same

theorem Keeps.writeMsix (h : Keeps b s) {v e} : Keeps b (s.writeMsix v e) := .ite h.same.same.sendMsix h.same

theorem Keeps.writeWindow (h : Keeps b s) {w v} : Keeps b (s.writeWindow w v) := .ite h.same h

theorem Keeps.writeBar0 (h : Keeps b s) {off bytes} : Keeps b (s.writeBar0 off bytes) :=
  .ite h.writeMailbox (.ite (h.foldl (fun _ _ hu => hu.writeMsix)) (.ite (h.foldl (fun _ _ hu => hu.writeWindow)) h))

theorem Keeps.performOp (h : Keeps b s) {o} : Keeps b (s.performOp o) := by
  unfold State.performOp
  split
  · exact h.dropOp.performDoorbell
  · exact h.dropOp.writeRegisters
  · exact h.readyOp
  · exact h.readyOp
  · exact .ite h.dropOp.writeBar0.same h.dropOp.writeBar0
  · exact h

theorem Keeps.settleFrom (h : Keeps b s) {n} : Keeps b (State.settleFrom n s) := by
  induction n generalizing s with
  | zero => exact h
  | succ n ih =>
    rw [State.settleFrom]
    split
    · exact ih h.performOp
    · exact h

theorem Keeps.settleHost (h : Keeps b s) : Keeps b (s.settleHost) := h.settleFrom

theorem Keeps.countRequest (h : Keeps b s) : Keeps b (s.countRequest).2 := by
  unfold State.countRequest
  extract_lets d d1
  split
  · exact .snd h.same
  · exact .snd h.same

theorem Keeps.setSession (h : Keeps b s) {who v} : Keeps b (s.setSession who v) := by
  unfold State.setSession
  split
  · exact h.same
  · exact h.same
  · exact h.same

theorem Keeps.touch (h : Keeps b s) {who} : Keeps b (s.touch who) := h.setSession

theorem Keeps.finishMailbox (h : Keeps b s) {seq response} : Keeps b (s.finishMailbox seq response) :=
  .ite (.sendMsix (.same (.ite h.same.send h.same))) (.same (.ite h.same.send h.same))

theorem Keeps.takeSnapshot (h : Keeps b s) {idx sub size n} : Keeps b (s.takeSnapshot idx sub size n).2 := by
  unfold State.takeSnapshot
  extract_lets live id bytes p __src
  split
  · exact .snd h
  · exact .snd h.same

theorem Keeps.readSnapshot (h : Keeps b s) {idx sub id off n} : Keeps b (s.readSnapshot idx sub id off n).2 := by
  unfold State.readSnapshot
  split
  · exact .snd h
  · exact .snd h.same

theorem Keeps.captureSram (h : Keeps b s) {a n capture} : Keeps b (s.captureSram a n capture).2.2 :=
  .thd (h.foldl (fun _ _ hu => hu.sat32.setReg))

theorem Keeps.captureDram (h : Keeps b s) {ch l} : Keeps b (s.captureDram ch l).2.2 := by
  induction l generalizing s with
  | nil => exact h
  | cons p rest ih => exact .thd (ih h.readDramLine)

theorem Keeps.captureRead (h : Keeps b s) {a n} : Keeps b (s.captureRead a n).2.2 := by
  unfold State.captureRead
  extract_lets p size core channelUnit faulted fieldUp served first recs __src s1 img
  split
  · exact .thd h
  · split
    · exact .thd h
    · split
      · exact .thd h
      · split
        · exact .thd h
        · split
          · exact .thd h
          · split
            · rename_i s2 e5
              have hs2 : Keeps b s2 := .of_thd e5 h.captureSram
              exact .thd hs2
          · split
            · rename_i s2 e5
              have hs2 : Keeps b s2 := .of_thd e5 h.captureSram
              exact .thd hs2
          · exact .thd h
          · split
            · rename_i s2 e5
              have hs2 : Keeps b s2 := .of_thd e5 h.same.captureDram
              exact .thd hs2
          · exact .thd h

theorem Keeps.readCapture (h : Keeps b s) {offset n} : Keeps b (s.readCapture offset n).2.2 := by
  unfold State.readCapture
  split
  · exact .thd h
  · extract_lets n1
    split
    · rename_i s1 e1
      have hs1 : Keeps b s1 := .of_thd e1 h.captureRead
      exact .thd hs1

theorem Keeps.readEntry (h : Keeps b s) {e sub off n level} : Keeps b (s.readEntry e sub off n level).2.2 := by
  unfold State.readEntry
  split
  · exact .thd h
  · split
    · exact .thd h
    · split
      · exact .thd h
      · split
        · exact h.readCapture
        · exact .thd h

theorem Keeps.readRequest (h : Keeps b s) {e sub off n level snap snapId} : Keeps b (s.readRequest e sub off n level snap snapId).2 := by
  unfold State.readRequest
  split
  · exact .snd h
  · split
    · exact h.takeSnapshot
    · split
      · exact h.readSnapshot
      · split
        · rename_i s1 e4
          have hs1 : Keeps b s1 := .of_thd e4 h.readEntry
          exact .snd hs1

theorem Keeps.unlock (h : Keeps b s) {v} : Keeps b (s.unlock v).2 := by
  unfold State.unlock
  extract_lets locked s1 fails __src
  split
  · exact .snd h
  · split
    · exact .snd h.sat32
    · split
      · exact .snd h.sat32.same
      · exact .snd h.sat32.same

theorem Keeps.after {o} (h : KeepsNext b o) : Keeps b (s.after o) := by
  obtain ⟨t, rfl, h⟩ := h
  exact h

theorem Keeps.written (h : Keeps b s) {after} (k : Keeps b after) : Keeps b (s.written after) := .ite h k

theorem Keeps.save (h : Keeps b s) {idx sub bytes} : Keeps b (s.save idx sub bytes) := h.same

theorem Keeps.writeCap (h : Keeps b s) {idx sub level v allow} : Keeps b (s.writeCap idx sub level v allow) := h.setReg.same

theorem keeps_execModuleCapWWrite (h : Keeps b s) {v} : KeepsNext b (execModuleCapWWrite v s) := .next (h.written h.writeCap.save)

theorem keeps_execTowerCapWWrite (h : Keeps b s) {t v} : KeepsNext b (execTowerCapWWrite t v s) :=
  .next (h.written (.ite h.writeCap.save h))

theorem keeps_execFieldCapMwWrite (h : Keeps b s) {f v} : KeepsNext b (execFieldCapMwWrite f v s) :=
  .next (h.written (.ite h.writeCap.save h))

theorem Keeps.clearFlags (h : Keeps b s) {idx sub written} : Keeps b (s.clearFlags idx sub written) := h.setReg

theorem keeps_execPowerFlagsWrite (h : Keeps b s) {v} : KeepsNext b (execPowerFlagsWrite v s) :=
  .next (h.written (.ite h h.clearFlags))

theorem keeps_execPaceHostTargetWrite (h : Keeps b s) {v} : KeepsNext b (execPaceHostTargetWrite v s) :=
  .next (h.written h.setReg.save)

theorem Keeps.refreshThermalState (h : Keeps b s) : Keeps b (s.refreshThermalState) := .ite h h.setReg

theorem Keeps.sendControl (h : Keeps b s) {n c} : Keeps b (s.sendControl n c) := h.send

theorem Keeps.refreshHold (h : Keeps b s) {n} : Keeps b (s.refreshHold n) :=
  .ite (.setLink (.ite h h.setLink.sendControl)) (.ite h h.setLink.sendControl)

theorem Keeps.refreshHolds (h : Keeps b s) : Keeps b (s.refreshHolds) := h.foldl (fun _ _ hu => hu.refreshHold)

theorem Keeps.setField (h : Keeps b s) {f v} : Keeps b (s.setField f v) := h.same

theorem Keeps.cutSegments (h : Keeps b s) {ch} : Keeps b (s.cutSegments ch) := h.setChannel

theorem Keeps.updateHalts (h : Keeps b s) : Keeps b (s.updateHalts) :=
  h.foldl (fun _ _ hu => .ite (.ite hu (hu.setField.foldl (fun _ _ hu1 => hu1.cutSegments))) (.ite hu.setField hu))

theorem keeps_execThermalResume (h : Keeps b s) {v} : KeepsNext b (execThermalResume v s) :=
  .next (h.written (.ite h (h.foldl (fun _ _ hu => hu.setLink)).setReg.setReg.updateHalts.refreshHolds.refreshThermalState))

theorem Keeps.setPortState (h : Keeps b s) {p v} : Keeps b (s.setPortState p v) := h.setReg

theorem Keeps.startWaves (h : Keeps b s) {fields} : Keeps b (s.startWaves fields) := h.same

theorem keeps_execShutdownRecover (h : Keeps b s) {v} : KeepsNext b (execShutdownRecover v s) :=
  .next (h.written (.ite h (((h.foldl (fun _ _ hu => .ite hu hu.setPortState)).foldl (fun _ _ hu => hu.setLink)).startWaves.foldl
    (fun _ _ hu => hu.same)).setReg.setReg.updateHalts.refreshHolds.refreshThermalState))

theorem keeps_execThermalFlagsWrite (h : Keeps b s) {v} : KeepsNext b (execThermalFlagsWrite v s) :=
  .next (h.written (.ite h h.clearFlags))

theorem Keeps.writeTray (h : Keeps b s) {sub v} : Keeps b (s.writeTray sub v) := h.setReg.sameThermal (by rfl)

theorem keeps_execTrayInletCWrite (h : Keeps b s) {v} : KeepsNext b (execTrayInletCWrite v s) :=
  .next (h.written (.ite h.writeTray h))

theorem Keeps.setFlags (h : Keeps b s) {idx sub bits} : Keeps b (s.setFlags idx sub bits) := h.setReg

theorem Keeps.coolantStop (h : Keeps b s) {t} : Keeps b (s.coolantStop t) :=
  .ite h ((h.foldl (fun _ _ hu => .ite hu.setField hu)).foldl (fun _ _ hu =>
    hu.setLink)).setReg.updateHalts.refreshHolds.setReg.setFlags.sat32.raise

theorem keeps_execTrayFlowLpmWrite (h : Keeps b s) {v} : KeepsNext b (execTrayFlowLpmWrite v s) :=
  .next (h.written (.ite h (.ite (.coolantStop (.ite h.writeTray.setFlags h.writeTray)) (.ite h.writeTray.setFlags h.writeTray))))

theorem keeps_execHashKeyWrite (h : Keeps b s) {sub v} : KeepsNext b (execHashKeyWrite sub v s) :=
  .next (h.written (.ite h.setReg h))

theorem keeps_execHenHaltWrite (h : Keeps b s) {v} : KeepsNext b (execHenHaltWrite v s) :=
  .next (h.written (.ite h h.setReg.updateHalts))

theorem keeps_execKvAnswer (h : Keeps b s) {primary cont} : KeepsNext b (execKvAnswer primary cont s) :=
  .next (h.written (.ite h.same h.takeAnswer))

theorem keeps_execWbSuppressWrite (h : Keeps b s) {t bytes} : KeepsNext b (execWbSuppressWrite t bytes s) :=
  .next (h.written (.ite h h.withMem))

theorem keeps_execWbLogClear (h : Keeps b s) {t v} : KeepsNext b (execWbLogClear t v s) := .next (h.written (.ite h h.withMem))

theorem Keeps.leaveReqs (h : Keeps b s) {mine} : Keeps b (s.leaveReqs mine) := h.same

theorem Keeps.reachEnds (h : Keeps b s) {l} : Keeps b (s.reachEnds l) :=
  h.foldl (fun _ _ hu => .ite hu (hu.foldl (fun _ _ hu1 => hu1.endDma)).same)

theorem Keeps.setLease (h : Keeps b s) {l v} : Keeps b (s.setLease l v) := h.same

theorem Keeps.endRound (h : Keeps b s) {l st} : Keeps b (s.endRound l st) := by
  unfold State.endRound
  split
  · exact h
  · exact h.same.post.same.leaveReqs.setLease.reachEnds

theorem Keeps.freeSlots (h : Keeps b s) {keys} : Keeps b (s.freeSlots keys) := h.same

theorem keeps_execLeaseForceRelease (h : Keeps b s) {v} : KeepsNext b (execLeaseForceRelease v s) :=
  .next (h.written (.ite h h.endRound.same.freeSlots.setLease))

theorem Keeps.setSyncObj (h : Keeps b s) {o v} : Keeps b (s.setSyncObj o v) := h.same

theorem Keeps.broadcast (h : Keeps b s) {o st} : Keeps b (s.broadcast o st) :=
  ((h.same.foldl (fun _ _ hu => hu.post)).foldl (fun _ _ hu => hu.send)).setSyncObj

theorem keeps_execSyncReset (h : Keeps b s) {v} : KeepsNext b (execSyncReset v s) :=
  .next (h.written (.ite h h.broadcast.setSyncObj))

theorem Keeps.askMembers (h : Keeps b s) {all} : Keeps b (s.askMembers all) := .ite h (h.foldl (fun _ _ hu => hu.send)).same

theorem keeps_execGroupEnable (h : Keeps b s) {v} : KeepsNext b (execGroupEnable v s) :=
  .next (h.written (.ite h (.ite h.setReg.askMembers h.setReg)))

theorem Keeps.reformGroup (h : Keeps b s) : Keeps b (s.reformGroup) := (h.same.foldl (fun _ _ hu => hu.setPortState)).setReg.setReg

theorem keeps_execGroupReform (h : Keeps b s) : KeepsNext b (execGroupReform s) :=
  .next (h.written (h.reformGroup.foldl (fun _ _ hu => .ite hu.sat32 hu)))

theorem Keeps.sendMembers (h : Keeps b s) {members kind fields} : Keeps b (s.sendMembers members kind fields) :=
  h.foldl (fun _ _ hu => .ite hu.send hu)

theorem Keeps.setGroupLease (h : Keeps b s) {n g} : Keeps b (s.setGroupLease n g) := h.same

theorem Keeps.unbindGroup (h : Keeps b s) {n} : Keeps b (s.unbindGroup n) := h.freeSlots.same.setGroupLease.setReg

theorem Keeps.reserveSlots (h : Keeps b s) {l rs got x} (e : s.reserveSlots l rs got = some (x, t)) : Keeps b t := by
  induction rs generalizing s got with
  | nil => cases e; exact h
  | cons r rs ih =>
    rw [State.reserveSlots] at e
    split at e
    · exact ih h.same e
    · cases e

theorem Keeps.bindGroup (h : Keeps b s) {n g} : Keeps b (s.bindGroup n g).2 := by
  unfold State.bindGroup
  extract_lets own lease tree path
  split
  · exact .snd h
  · split
    · exact .snd h
    · rename_i s1 e1
      have hs1 : Keeps b s1 := h.reserveSlots e1
      split
      · exact .snd hs1.setGroupLease
      · exact .snd h
      · split
        · exact .snd h
        · exact .snd hs1.same.setGroupLease

theorem keeps_execGroupLease (h : Keeps b s) {n bytes fromHead others} : KeepsNext b (execGroupLease n bytes fromHead others s) := by
  unfold execGroupLease
  refine .next ?_
  refine Keeps.written h ?_
  extract_lets mask g old head busy tell s1 s2 s3 outside s4
  have hs2 : Keeps b s2 := .ite h.same.sendMembers h.same
  have hs3 : Keeps b s3 := .ite h.same.unbindGroup h.same
  split
  · exact h
  · split
    · exact .ite hs2.setReg (.ite hs2.setGroupLease hs2.unbindGroup)
    · split
      · exact h.same
      · split
        · rename_i s5 e3
          have hs5 : Keeps b s5 := by
            refine .of_snd e3 ?_
            split
            · exact .snd (.ite hs3.sendMembers hs3)
            · split
              · exact .bindGroup (.ite hs3.sendMembers hs3)
              · exact .snd (.ite (.setGroupLease (.ite hs3.sendMembers hs3)) (.ite hs3.sendMembers hs3))
          exact .ite (.ite hs5.setReg (.setReg (.sendMembers (.setGroupLease (.ite hs3.sendMembers hs3))))) hs5.send

theorem Keeps.writeGroupLease (h : Keeps b s) {n bytes} : Keeps b (s.writeGroupLease n bytes) := by
  unfold State.writeGroupLease
  exact .after (keeps_execGroupLease h.same)

theorem keeps_execLinkEnableWrite (h : Keeps b s) {n v} : KeepsNext b (execLinkEnableWrite n v s) :=
  .next (h.written (.ite h (.ite h.setReg.refreshHold (.ite h (.ite h.sat32 (.refreshHold (.setReg (.ite h h.setLink))))))))

theorem keeps_execNumericClear (h : Keeps b s) {v} : KeepsNext b (execNumericClear v s) :=
  .next (h.written (.ite h.same (.ite h.setCore h)))

theorem keeps_execGooseSeedWrite (h : Keeps b s) {v} : KeepsNext b (execGooseSeedWrite v s) := .next (h.written h.same.setReg)

theorem Keeps.setServiceState (h : Keeps b s) {f v} : Keeps b (s.setServiceState f v) := h.setReg

theorem Keeps.completeIfRing (h : Keeps b s) {t st} : Keeps b (s.completeIfRing t st) := by
  unfold State.completeIfRing
  split
  · exact h.completeRing
  · exact h

theorem Keeps.endTaken (h : Keeps b s) {core} : Keeps b (s.endTaken core) := h.same.foldl (fun _ _ hu => hu.completeIfRing)

theorem Keeps.queueFix (h : Keeps b s) {ch w} : Keeps b (s.queueFix ch w) := .ite h (.ite h.setChannel h.setChannel)

theorem Keeps.countEvent (h : Keeps b s) {core e} : Keeps b (s.countEvent core e) := by
  unfold State.countEvent
  extract_lets up c
  split
  · exact h.setCore.same
  · exact h.setCore.same

theorem Keeps.countEvents (h : Keeps b s) {core es} : Keeps b (s.countEvents core es) := h.foldl (fun _ _ hu => hu.countEvent)

theorem Keeps.writeRows (h : Keeps b s) {ch h1 a w} : Keeps b (s.writeRows ch h1 a w) :=
  ((h.foldl (fun _ _ hu => hu.putDramLine)).foldl (fun _ _ hu => hu.queueFix)).countEvents

theorem Keeps.stampReady (h : Keeps b s) {ch} : Keeps b (s.stampReady ch) := h.setChannel

theorem Keeps.killSeq (h : Keeps b s) {ch desc} : Keeps b (s.killSeq ch desc) := by
  unfold State.killSeq
  extract_lets c running
  split
  · exact h
  · exact .stampReady (.setChannel (.ite (h.foldl (fun _ _ hu => .ite hu.writeRows hu)).leaveReqs (h.foldl (fun _ _ hu => .ite
      hu.writeRows hu))))

theorem Keeps.endDescriptors (h : Keeps b s) {core} : Keeps b (s.endDescriptors core) :=
  h.foldl (fun _ _ hu => .completeIfRing (.ite (hu.foldl (fun _ _ hu1 => hu1.killSeq)).same.leaveReqs.setCore.towerWrap (hu.foldl
    (fun _ _ hu1 => hu1.killSeq)).same.leaveReqs.setCore))

theorem Keeps.startThread (h : Keeps b s) {core k words q entry launch rerun} : Keeps b (s.startThread core k words q entry launch
    rerun) := h.writeSram.same.setCtx

theorem Keeps.updRerun (h : Keeps b s) {cluster id g} : Keeps b (s.updRerun cluster id g) := h.withMem

theorem Keeps.updCtx (h : Keeps b s) {core ctx g} : Keeps b (s.updCtx core ctx g) := h.setCtx

theorem Keeps.releaseReader (h : Keeps b s) {line a} : Keeps b (s.releaseReader line a) := by
  unfold State.releaseReader
  split
  · exact .ite h.updCtx h
  · exact .ite h.updCtx h
  · exact h

theorem Keeps.endRecovery (h : Keeps b s) {line ok outcome} : Keeps b (s.endRecovery line ok outcome) := by
  unfold State.endRecovery
  extract_lets mine
  clear_value mine
  cases mine with
  | nil => exact h
  | cons first rest =>
    exact Keeps.foldl (.withMem (.ite h.sramRecord.towerWrap h.sramRecord)) fun _ _ hu => hu.releaseReader

theorem Keeps.endRerun (h : Keeps b s) {entry ok} : Keeps b (s.endRerun entry ok) := h.foldl (fun _ _ hu => hu.endRecovery)

theorem Keeps.endTask (h : Keeps b s) {core k st} : Keeps b (s.endTask core k st) := by
  unfold State.endTask
  extract_lets c s1 cl s2
  have hs2 : Keeps b s2 := by
    unfold s2
    split
    · exact .ite h.setCtx.updRerun.endRerun h.setCtx.updRerun
    · exact h.setCtx
  split
  · split
    · exact h.setCtx.startThread.updRerun
    · exact h.setCtx
  · split
    · exact hs2.completeRing
    · exact hs2

theorem Keeps.endTasks (h : Keeps b s) {core} : Keeps b (s.endTasks core) := by
  unfold State.endTasks
  exact h.foldl (fun u k1 hu => by
    extract_lets c st
    split
    · exact hu
    · exact hu.setCtx.endTask
    · exact hu.setCtx.endTask)

theorem Keeps.coreDown (h : Keeps b s) {core} : Keeps b (s.coreDown core) :=
  h.endTasks.endDescriptors.endTaken.leaveReqs.towerWrap.setCore

theorem Keeps.failRounds (h : Keeps b s) {f} : Keeps b (s.failRounds f) := h.same

theorem Keeps.loseSram (h : Keeps b s) {f} : Keeps b (s.loseSram f) := by
  unfold State.loseSram
  extract_lets gone s1 m s2
  have hs1 : Keeps b s1 := h.foldl fun _ _ hu => hu.releaseReader
  have hs2 : Keeps b s2 := by
    refine ⟨⟨hs1.pending, hs1.now, fun w => ?_⟩, hs1.sampled⟩
    obtain ⟨hcells, hcheck, hcrc⟩ := (Memory.wf_iff _).mp (hs1.wf w)
    exact (Memory.wf_iff _).mpr ⟨Map.wf_filter _ _ _ hcells, hcheck, Map.wf_filter _ _ _ hcrc⟩
  exact hs2.leaveReqs

theorem Keeps.markLost (h : Keeps b s) {f} : Keeps b (s.markLost f) := h.same

theorem Keeps.combineAnswers (h : Keeps b s) {m} : Keeps b (s.combineAnswers m) := h.same.foldl (fun _ _ hu => hu.post)

theorem Keeps.combineAll (h : Keeps b s) : Keeps b (s.combineAll) := h.foldl (fun _ _ hu => hu.combineAnswers)

theorem Keeps.answerDevice (h : Keeps b s) {r} : Keeps b (s.answerDevice r) := by
  unfold State.answerDevice
  split
  · exact h.same.send
  · exact h

theorem Keeps.answerReq (h : Keeps b s) {id st data} : Keeps b (s.answerReq id st data) := by
  unfold State.answerReq
  split
  · exact h.same
  · extract_lets s1 s2
    have hs1 : Keeps b s1 := by
      unfold s1
      split
      · exact h.setChannel
      · exact h
    split
    · exact hs1.updReq.combineAll
    · exact .ite hs1.updReq.updReq.postReq hs1.updReq.updReq.postReq.answerDevice
    · exact hs1.updReq.postReq
  · exact h

theorem Keeps.channelDown (h : Keeps b s) {ch} : Keeps b (s.channelDown ch) := (h.foldl (fun _ _ hu => hu.answerReq)).setChannel

theorem Keeps.answerLine (h : Keeps b s) {id st line} : Keeps b (s.answerLine id st line) := by
  unfold State.answerLine
  split
  · split
    · exact h.answerReq
    · exact h
  · exact h

theorem Keeps.insertRead (h : Keeps b s) {ch r} (e : s.insertRead ch r = some t) : Keeps b t := by
  unfold State.insertRead at e
  extract_lets c line c1 at e
  split at e
  · cases e; exact h.setChannel.answerLine
  · split at e
    · cases e; exact h.setChannel.updReq
    · split at e
      · split at e
        · cases e
          exact .ite h.setChannel.updReq.towerWrap.towerWrap h.setChannel.updReq.towerWrap
        · cases e
      · cases e

theorem Keeps.appendEntry (h : Keeps b s) {ch r} (e : s.appendEntry ch r = some t) : Keeps b t := by
  unfold State.appendEntry at e
  extract_lets c above line at e
  split at e
  · cases e
  · cases e
    exact .ite h.setChannel.updReq.towerWrap h.setChannel.updReq

theorem Keeps.enterWindow (h : Keeps b s) {ch r} (e : s.enterWindow ch r = some t) : Keeps b t := by
  unfold State.enterWindow at e
  extract_lets off st at e
  split at e
  · cases e
  · split at e
    · cases e; exact h.answerReq
    · split at e
      · cases e; exact h.towerWrap.answerReq
      · split at e
        · cases hi : s.insertRead ch r with
          | some u => rw [hi] at e; cases e; exact h.insertRead hi
          | none => rw [hi] at e; exact h.appendEntry e
        · exact h.appendEntry e

theorem Keeps.drainFifo (h : Keeps b s) {ch n} : Keeps b (State.drainFifo ch n s) := by
  induction n generalizing s with
  | zero => exact h
  | succ n ih =>
    rw [State.drainFifo]
    split
    · exact h
    · extract_lets pop
      split
      · exact ih h.setChannel
      · split
        · rename_i e
          exact ih (h.enterWindow e).setChannel
        · exact h

theorem Keeps.settleFifo (h : Keeps b s) {ch} : Keeps b (s.settleFifo ch) := h.drainFifo

theorem Keeps.fieldDown (h : Keeps b s) {f rail atOnce} : Keeps b (s.fieldDown f rail atOnce) :=
  .ite h.setField (.refreshHolds (.updateHalts (.setReg (.foldl (.setField (.loseSram (.markLost (.foldl (.failRounds (.foldl (.ite
    h.setField h) (fun _ _ hu => hu.coreDown))) (fun _ _ hu => hu.channelDown))))) (fun _ _ hu => hu.settleFifo)))))

theorem Keeps.dropTurnOn (h : Keeps b s) {f} : Keeps b (s.dropTurnOn f) := h.same

theorem Keeps.askTurnOff (h : Keeps b s) {f} : Keeps b (s.askTurnOff f) := h.dropTurnOn.setField

theorem Keeps.takeOut (h : Keeps b s) {f} : Keeps b (s.takeOut f) :=
  .ite h.fieldDown.setServiceState.towerSat.setField h.fieldDown.setServiceState.towerSat.askTurnOff

theorem Keeps.resetField (h : Keeps b s) {f test byWave} : Keeps b (s.resetField f test byWave) :=
  .ite h.setField h.takeOut.setField

theorem keeps_execFieldReset (h : Keeps b s) {v} : KeepsNext b (execFieldReset v s) := .next (h.written (.ite h h.resetField))

theorem keeps_execTowerReset (h : Keeps b s) {v} : KeepsNext b (execTowerReset v s) :=
  .next (h.written (.ite h (h.foldl (fun _ _ hu => .ite hu hu.resetField))))

theorem Keeps.resetAll (h : Keeps b s) {test} : Keeps b (s.resetAll test) := .ite h (h.foldl (fun _ _ hu => hu.resetField))

theorem keeps_execComputeSideReset (h : Keeps b s) {v} : KeepsNext b (execComputeSideReset v s) :=
  .next (h.written (.ite h h.resetAll))

theorem keeps_execDrain (h : Keeps b s) {v} : KeepsNext b (execDrain v s) := .next (h.written (.ite h h.setField.setServiceState))

theorem Keeps.askTurnOn (h : Keeps b s) {f} : Keeps b (s.askTurnOn f) := .ite h h.same

theorem Keeps.serviceTest (h : Keeps b s) {action level v} : Keeps b (s.serviceTest action level v) :=
  .ite h (.ite h.setField.setServiceState h.setField.askTurnOn)

theorem keeps_execTestQuick (h : Keeps b s) {v} : KeepsNext b (execTestQuick v s) := .next (h.written h.serviceTest)

theorem keeps_execTestFull (h : Keeps b s) {v} : KeepsNext b (execTestFull v s) := .next (h.written h.serviceTest)

theorem Keeps.applyCap (h : Keeps b s) {f} : Keeps b (s.applyCap f) :=
  .ite h (.ite h.setField (h.setField.foldl (fun _ _ hu => hu.setCore)))

theorem Keeps.returnQueue (h : Keeps b s) {q} : Keeps b (s.returnQueue q) := by
  unfold State.returnQueue
  extract_lets k s1 c s2
  have hs1 : Keeps b s1 := by
    unfold s1
    split
    · exact h.towerSat.raise
    · exact h
  exact .ite h hs1.setCore.setQueue.orphanFrames

theorem Keeps.fieldReturn (h : Keeps b s) {f} : Keeps b (s.fieldReturn f) :=
  (h.setField.applyCap.foldl (fun _ _ hu => hu.returnQueue)).same.updateHalts.refreshHolds

theorem Keeps.refreshReplace (h : Keeps b s) : Keeps b (s.refreshReplace) := .ite h.setReg.raise h.setReg

theorem Keeps.noteDegraded (h : Keeps b s) : Keeps b (s.noteDegraded) := .ite h.setReg.setReg.raise h

theorem Keeps.capacityChanged (h : Keeps b s) : Keeps b (s.capacityChanged) := .ite h.setReg h

theorem Keeps.finishTest (h : Keeps b s) {f} : Keeps b (s.finishTest f) :=
  .ite h (.ite h.setField.setServiceState (.ite h.setField.fieldReturn.setServiceState.capacityChanged.noteDegraded.refreshReplace
    h.setField.fieldReturn.setServiceState))

theorem keeps_execReturnService (h : Keeps b s) {v} : KeepsNext b (execReturnService v s) :=
  .next (h.written (.ite h (.ite (.ite h.finishTest h.setField) (.ite h.setField h))))

theorem Keeps.serviceChanged (h : Keeps b s) : Keeps b (s.serviceChanged) := h.capacityChanged.noteDegraded.refreshReplace

theorem Keeps.logDefect (h : Keeps b s) {kind source action unit detail} : Keeps b (s.logDefect kind source action unit detail) :=
  h.same.setReg

theorem Keeps.markCore (h : Keeps b s) {core out} : Keeps b (s.markCore core out) := .ite h.setField.same h.setField.same

theorem Keeps.saveRepair (h : Keeps b s) {r} : Keeps b (s.saveRepair r).2 := by
  unfold State.saveRepair
  split
  · exact .snd h
  · split
    · exact .snd h
    · exact .snd h.same.setReg

theorem keeps_execCoreBypass (h : Keeps b s) {v} : KeepsNext b (execCoreBypass v s) := by
  unfold execCoreBypass
  refine .next ?_
  refine Keeps.written h ?_
  extract_lets core s1
  have hs1 : Keeps b s1 := .ite h.coreDown.markCore.logDefect.serviceChanged h
  split
  · exact h
  · split
    · exact hs1
    · split
      · rename_i s2 e2
        have hs2 : Keeps b s2 := .of_snd e2 hs1.saveRepair
        exact .refreshReplace (.ite hs2 hs2.logDefect)

theorem Keeps.removeRepair (h : Keeps b s) {r} : Keeps b (s.removeRepair r) := h.same.setReg

theorem keeps_execCoreRestore (h : Keeps b s) {v} : KeepsNext b (execCoreRestore v s) :=
  .next (h.written (.ite h h.removeRepair.refreshReplace))

theorem Keeps.setRepairStatus (h : Keeps b s) {st} : Keeps b (s.setRepairStatus st) := h.setReg

theorem Keeps.askRepair (h : Keeps b s) {r persist st} : Keeps b (s.askRepair r persist st) :=
  .ite h.setRepairStatus h.same.setRepairStatus

theorem keeps_execDramRowRepair (h : Keeps b s) {bytes} : KeepsNext b (execDramRowRepair bytes s) :=
  .next (h.written (.ite h h.askRepair))

theorem keeps_execLaneRepair (h : Keeps b s) {v} : KeepsNext b (execLaneRepair v s) := .next (h.written (.ite h h.askRepair))

theorem Keeps.acceptFlashData (h : Keeps b s) {bytes} : Keeps b (s.acceptFlashData bytes) := h.same.setReg

theorem Keeps.acceptFlashErase (h : Keeps b s) : Keeps b (s.acceptFlashErase) := h.same

theorem Keeps.beginFreeze (h : Keeps b s) : Keeps b (s.beginFreeze) := .ite h.setReg (.ite h.setReg.sat32.refreshHolds h)

theorem Keeps.forwardFreeze (h : Keeps b s) {source} : Keeps b (s.forwardFreeze source) :=
  .ite h (.ite h.send (.ite (h.foldl (fun _ _ hu => .ite hu.send hu)) h))

theorem Keeps.setFreezeSource (h : Keeps b s) {bit} : Keeps b (s.setFreezeSource bit) :=
  .ite h.setFlags.beginFreeze.forwardFreeze h.setFlags.beginFreeze

theorem keeps_execFreeze (h : Keeps b s) {x} : KeepsNext b (execFreeze x s) := .next (h.written (.ite h h.setFreezeSource))

theorem Keeps.beginThaw (h : Keeps b s) : Keeps b (s.beginThaw) := .ite h.same.setReg h

theorem Keeps.clearFreezeSource (h : Keeps b s) {bit} : Keeps b (s.clearFreezeSource bit) := h.clearFlags.beginThaw

theorem keeps_execThaw (h : Keeps b s) {x} : KeepsNext b (execThaw x s) := .next (h.written (.ite h h.clearFreezeSource))

theorem Keeps.releaseFaulted (h : Keeps b s) {core ctx} : Keeps b (s.releaseFaulted core ctx) := h.updCtx

theorem keeps_execContextRelease (h : Keeps b s) {v} : KeepsNext b (execContextRelease v s) :=
  .next (h.written (.ite h.releaseFaulted h))

theorem Keeps.logFault (h : Keeps b s) {core ctx beat r} : Keeps b (s.logFault core ctx beat r) := h.same.setReg.sat32

theorem Keeps.threadFault (h : Keeps b s) {core ctx cause status addr word} : Keeps b (s.threadFault core ctx cause status addr
    word) := h.logFault.setCtx

theorem Keeps.faultAt (h : Keeps b s) {core ctx cause status addr} : Keeps b (s.faultAt core ctx cause status addr) := h.threadFault

theorem keeps_execContextKill (h : Keeps b s) {v} : KeepsNext b (execContextKill v s) := by
  unfold execContextKill
  refine .next ?_
  refine Keeps.written h ?_
  extract_lets core ctx c
  split
  · exact h
  · split
    · exact h
    · split
      · exact h
      · exact h.threadFault
    · exact h.releaseFaulted
    · exact h.threadFault
    · exact h.faultAt

theorem Keeps.clearPending (h : Keeps b s) {sub v} : Keeps b (s.clearPending sub v) := h.clearFlags

theorem Keeps.writeRegister (h : Keeps b s) {idx sub bytes} : Keeps b (s.writeRegister idx sub bytes) := by
  unfold State.writeRegister
  extract_lets v __src
  split
  · exact .ite h.same h.setReg
  · exact .ite h.same h.same
  · exact .ite h h.setReg
  · exact .ite h h.setReg
  · exact .ite h h.setReg
  · exact h.setReg

theorem Keeps.applyWrite (h : Keeps b s) {idx sub bytes} : Keeps b (s.applyWrite idx sub bytes) := by
  unfold State.applyWrite
  extract_lets v b8 b16 b32
  split
  · exact .after (keeps_execModuleCapWWrite h)
  · exact .after (keeps_execTowerCapWWrite h)
  · exact .after (keeps_execFieldCapMwWrite h)
  · exact .after (keeps_execPowerFlagsWrite h)
  · exact .after (keeps_execPaceHostTargetWrite h)
  · exact .after (keeps_execThermalResume h)
  · exact .after (keeps_execShutdownRecover h)
  · exact .after (keeps_execThermalFlagsWrite h)
  · exact .after (keeps_execTrayInletCWrite h)
  · exact .after (keeps_execTrayFlowLpmWrite h)
  · exact .after (keeps_execHashKeyWrite h)
  · exact .after (keeps_execHenHaltWrite h)
  · exact .after (keeps_execKvAnswer h)
  · exact .after (keeps_execWbSuppressWrite h)
  · exact .after (keeps_execWbLogClear h)
  · exact .after (keeps_execLeaseForceRelease h)
  · exact .after (keeps_execSyncReset h)
  · exact .after (keeps_execGroupEnable h)
  · exact .after (keeps_execGroupReform h)
  · exact h.writeGroupLease
  · exact .after (keeps_execLinkEnableWrite h)
  · exact .after (keeps_execNumericClear h)
  · exact .after (keeps_execGooseSeedWrite h)
  · exact .ite (.after (keeps_execFieldReset h)) (.ite (.after (keeps_execTowerReset h)) (.after (keeps_execComputeSideReset h)))
  · split
    · exact .after (keeps_execDrain h)
    · exact .after (keeps_execTestQuick h)
    · exact .after (keeps_execTestFull h)
    · exact .after (keeps_execReturnService h)
  · exact .after (keeps_execCoreBypass h)
  · exact .after (keeps_execCoreRestore h)
  · exact .after (keeps_execDramRowRepair h)
  · exact .after (keeps_execLaneRepair h)
  · exact h.acceptFlashData
  · exact h.acceptFlashErase
  · exact .after (keeps_execFreeze h)
  · exact .after (keeps_execThaw h)
  · exact .after (keeps_execContextRelease h)
  · exact .after (keeps_execContextKill h)
  · exact h.clearPending
  · exact h.clearPending
  · split
    · exact .ite h.writeRegister.save h.writeRegister
    · exact h

theorem Keeps.writeRequest (h : Keeps b s) {e sub off bytes} : Keeps b (s.writeRequest e sub off bytes).2 := by
  unfold State.writeRequest
  split
  · exact .snd h
  · split
    · split
      · rename_i s1 e3
        have hs1 : Keeps b s1 := .of_snd e3 h.unlock
        exact .snd hs1
    · split
      · exact .snd h
      · extract_lets code s1
        split
        · exact .snd h
        · split
          · exact .snd h.applyWrite
          · exact .snd h.applyWrite

theorem Keeps.perform17 (h : Keeps b s) {m level} : Keeps b (s.perform17 m level).2 := by
  unfold State.perform17
  split
  · exact .snd h
  · split
    · exact .snd h
    · split
      · exact .snd h
      · split
        · exact .snd h
        · split
          · exact .snd h
          · split
            · exact h.readRequest
            · split
              · exact .snd h
              · exact h.writeRequest

theorem Keeps.setLevel (h : Keeps b s) {who level} : Keeps b (s.setLevel who level) := h.setSession

theorem Keeps.keep (h : Keeps b s) {who m a} : Keeps b (s.keep who m a) := h.setSession

theorem Keeps.answerRequest (h : Keeps b s) {who m} : Keeps b (s.answerRequest who m).2 := by
  unfold State.answerRequest
  split
  · exact h.perform17
  · extract_lets s1
    have hs1 : Keeps b s1 := h.touch
    clear_value s1
    cases s1.keptFor who m with
    | some k => exact .snd hs1.sat32
    | none =>
      have hs2 : Keeps b s1.countRequest.2 := hs1.countRequest
      generalize s1.countRequest = p at hs2
      obtain ⟨ok, s2⟩ := p
      cases ok
      · exact hs2.sat32
      · have hs3 : Keeps b (s2.perform17 m (s2.level who)).2 := hs2.perform17
        dsimp only
        generalize s2.perform17 m (s2.level who) = p at hs3
        obtain ⟨a, s3⟩ := p
        have hs4 : Keeps b (match a.level with
          | some l => s3.setLevel who l
          | none => s3) := by
          cases a.level
          · exact hs3
          · exact hs3.setLevel
        exact .snd (.ite hs4 hs4.keep)

theorem Keeps.mailboxDoorbell (h : Keeps b s) : Keeps b (s.mailboxDoorbell) := by
  unfold State.mailboxDoorbell
  have hs {v} : Keeps b (if ({ s with host := v } : State).steward.lost then { s with host := v }
      else ({ s with host := v } : State).wrap64 0xB001 1 1) := .ite h.same h.same.wrap64
  refine Keeps.ite h.same (Keeps.ite ?_ ?_)
  · generalize hp : (State.touch _ .mailbox).countRequest = p
    have hs3 : Keeps b p.2 := hp ▸ hs.touch.countRequest
    obtain ⟨ok, s3⟩ := p
    cases ok
    · exact .finishMailbox (.sat32 hs3)
    · exact .send (.same hs3)
  · generalize hp : State.answerRequest _ .mailbox _ = p
    have hs3 : Keeps b p.2 := hp ▸ hs.answerRequest
    exact .finishMailbox hs3

theorem Keeps.settleBarsFrom (h : Keeps b s) {n} : Keeps b (State.settleBarsFrom n s) := by
  induction n generalizing s with
  | zero => exact h
  | succ n ih => exact .ite (ih h.settleHost.same.mailboxDoorbell) h.settleHost

theorem Keeps.settleBars (h : Keeps b s) : Keeps b (s.settleBars) := h.settleBarsFrom

theorem Keeps.setArray (h : Keeps b s) {core a v} : Keeps b (s.setArray core a v) := h.setCore

theorem Keeps.settleRamp (h : Keeps b s) {f} : Keeps b (s.settleRamp f) := h.foldl (fun _ _ hu => .ite hu.setArray hu)

theorem Keeps.thawRamp (h : Keeps b s) {f} : Keeps b (s.thawRamp f) :=
  (h.setField.towerSat.foldl (fun _ _ hu => hu.foldl (fun _ _ hu1 => .ite hu1.setArray hu1))).settleRamp

theorem Keeps.countStream (h : Keeps b s) {stream i} : Keeps b (s.countStream stream i) := h.same

theorem Keeps.dropFrame (h : Keeps b s) {n cause stream seq fallback} : Keeps b (s.dropFrame n cause stream seq fallback) :=
  .ite h.sendControl.setLink.countStream h.sendControl.setLink.countStream.raise

theorem Keeps.bufferRecord (h : Keeps b s) {n} : Keeps b (s.bufferRecord n) := h.same.withMem.setReg.towerWrap.towerSat.raise

theorem Keeps.placeFrame (h : Keeps b s) {n f} : Keeps b (s.placeFrame n f) := by
  unfold State.placeFrame
  extract_lets drop l
  split
  · exact h.bufferRecord.dropFrame
  · split
    · exact h.dropFrame
    · exact .ite h.dropFrame h.setLink.refreshHold

theorem Keeps.unbufferFrames (h : Keeps b s) : Keeps b (s.unbufferFrames) :=
  h.foldl (fun _ _ hu => hu.same.foldl (fun _ _ hu1 => hu1.placeFrame))

theorem Keeps.endThaw (h : Keeps b s) : Keeps b (s.endThaw) :=
  .ite h ((h.setReg.same.foldl (fun _ _ hu => hu.takeAnswer)).settleBars.thawBanks.foldl (fun _ _ hu => .ite hu.thawRamp
    hu)).unbufferFrames.refreshHolds

theorem Keeps.stewardRewrites (h : Keeps b s) : Keeps b (s.stewardRewrites) := by
  unfold State.stewardRewrites
  split
  · exact h
  · split
    · exact h.writeDramLine
    · exact h

theorem Keeps.noteEligible (h : Keeps b s) : Keeps b (s.noteEligible) := h.same

theorem Keeps.countTick (h : Keeps b s) : Keeps b (s.countTick) := .ite h.wrap64 h

theorem keeps_execHeartbeat (h : Keeps b s) : KeepsNext b (execHeartbeat s) := .next (.ite h.same h)

theorem keeps_execStewardTakeover (h : Keeps b s) : KeepsNext b (execStewardTakeover s) :=
  .next (.ite h.same.setReg.sat32.setReg.raise (.ite h.setReg h))

theorem keeps_execStewardLost (h : Keeps b s) : KeepsNext b (execStewardLost s) := .next (.ite (.ite h.same h.same.finishMailbox) h)

theorem keeps_execMgmtRingSegmentFail (h : Keeps b s) {segment} : KeepsNext b (execMgmtRingSegmentFail segment s) :=
  .next (.ite h.setReg.raise h)

theorem keeps_execStretchRequest (h : Keeps b s) {core level value} : KeepsNext b (execStretchRequest core level value s) :=
  .next (.ite h h.setCore)

theorem Keeps.passBeats (h : Keeps b s) {core count} : Keeps b (s.passBeats core count) := .ite h h.setCore.towerWrap

theorem Keeps.idleLoop (h : Keeps b s) {f} : Keeps b (s.idleLoop f) := h.setField

theorem Keeps.ringFailed (h : Keeps b s) {f} : Keeps b (s.ringFailed f) := .setField (.ite h h.raise)

theorem Keeps.regulate (h : Keeps b s) {f meas} : Keeps b (s.regulate f meas) := .ite h.setField.sat32 h.setField

theorem Keeps.takeCount (h : Keeps b s) {field count} : Keeps b (s.takeCount field count) :=
  .ite h.idleLoop (.ite h.ringFailed h.regulate)

theorem keeps_execPaceWindow (h : Keeps b s) {field count} : KeepsNext b (execPaceWindow field count s) :=
  .next (.ite h (h.foldl (fun _ _ hu => hu.passBeats)).setField.takeCount.setField)

theorem keeps_execLinkPaceWindow (h : Keeps b s) {tower slowest} : KeepsNext b (execLinkPaceWindow tower slowest s) :=
  .next (.ite h h.same)

theorem Keeps.fetchLost (h : Keeps b s) {i} : Keeps b (s.fetchLost i) := h.setCore.towerWrap

theorem Keeps.account (h : Keeps b s) {i word} : Keeps b (s.account i word) := h.setCore.towerWrap.towerWrap

theorem Keeps.awaitLine (h : Keeps b s) {core ctx line} : Keeps b (s.awaitLine core ctx line) := h.updCtx

theorem Keeps.issue (h : Keeps b s) {i word body} (hbody : ∀ u, Keeps b u → Keeps b (body u)) : Keeps b (s.issue i word body) := by
  unfold State.issue
  extract_lets c fetched line
  split
  · exact h
  · split
    · exact h.fetchLost
    · split
      · exact h.account.threadFault
      · split
        · rename_i s1 e
          have hs1 : Keeps b s1 := .of_snd e h.checkSram
          exact hs1.account.awaitLine
        · rename_i s1 e
          have hs1 : Keeps b s1 := .of_snd e h.checkSram
          exact hs1.account.threadFault
        · rename_i s1 e
          have hs1 : Keeps b s1 := .of_snd e h.checkSram
          exact .ite hs1.account.faultAt (.ite (hbody _ hs1.account) hs1)

theorem Keeps.result (h : Keeps b s) {i word xd f} : Keeps b (s.result i word xd f) := h.issue (fun _ hu => hu.updCtx)

theorem keeps_execAddi (h : Keeps b s) {i xd xa imm} : KeepsNext b (execAddi i xd xa imm s) := .next h.result

theorem keeps_execAndi (h : Keeps b s) {i xd xa imm} : KeepsNext b (execAndi i xd xa imm s) := .next h.result

theorem keeps_execOri (h : Keeps b s) {i xd xa imm} : KeepsNext b (execOri i xd xa imm s) := .next h.result

theorem keeps_execXori (h : Keeps b s) {i xd xa imm} : KeepsNext b (execXori i xd xa imm s) := .next h.result

theorem keeps_execSlti (h : Keeps b s) {i xd xa imm} : KeepsNext b (execSlti i xd xa imm s) := .next h.result

theorem keeps_execSltiu (h : Keeps b s) {i xd xa imm} : KeepsNext b (execSltiu i xd xa imm s) := .next h.result

theorem keeps_execSlli (h : Keeps b s) {i xd xa imm} : KeepsNext b (execSlli i xd xa imm s) := .next h.result

theorem keeps_execSrli (h : Keeps b s) {i xd xa imm} : KeepsNext b (execSrli i xd xa imm s) := .next h.result

theorem keeps_execSrai (h : Keeps b s) {i xd xa imm} : KeepsNext b (execSrai i xd xa imm s) := .next h.result

theorem keeps_execLui (h : Keeps b s) {i xd imm} : KeepsNext b (execLui i xd imm s) := .next h.result

theorem keeps_execShlor (h : Keeps b s) {i xd xa imm} : KeepsNext b (execShlor i xd xa imm s) := .next h.result

theorem keeps_execAdd (h : Keeps b s) {i xd xa xb} : KeepsNext b (execAdd i xd xa xb s) := .next h.result

theorem keeps_execSub (h : Keeps b s) {i xd xa xb} : KeepsNext b (execSub i xd xa xb s) := .next h.result

theorem keeps_execAnd (h : Keeps b s) {i xd xa xb} : KeepsNext b (execAnd i xd xa xb s) := .next h.result

theorem keeps_execOr (h : Keeps b s) {i xd xa xb} : KeepsNext b (execOr i xd xa xb s) := .next h.result

theorem keeps_execXor (h : Keeps b s) {i xd xa xb} : KeepsNext b (execXor i xd xa xb s) := .next h.result

theorem keeps_execSll (h : Keeps b s) {i xd xa xb} : KeepsNext b (execSll i xd xa xb s) := .next h.result

theorem keeps_execSrl (h : Keeps b s) {i xd xa xb} : KeepsNext b (execSrl i xd xa xb s) := .next h.result

theorem keeps_execSra (h : Keeps b s) {i xd xa xb} : KeepsNext b (execSra i xd xa xb s) := .next h.result

theorem keeps_execSlt (h : Keeps b s) {i xd xa xb} : KeepsNext b (execSlt i xd xa xb s) := .next h.result

theorem keeps_execSltu (h : Keeps b s) {i xd xa xb} : KeepsNext b (execSltu i xd xa xb s) := .next h.result

theorem keeps_execMin (h : Keeps b s) {i xd xa xb} : KeepsNext b (execMin i xd xa xb s) := .next h.result

theorem keeps_execMax (h : Keeps b s) {i xd xa xb} : KeepsNext b (execMax i xd xa xb s) := .next h.result

theorem keeps_execMinu (h : Keeps b s) {i xd xa xb} : KeepsNext b (execMinu i xd xa xb s) := .next h.result

theorem keeps_execMaxu (h : Keeps b s) {i xd xa xb} : KeepsNext b (execMaxu i xd xa xb s) := .next h.result

theorem keeps_execMul (h : Keeps b s) {i xd xa xb} : KeepsNext b (execMul i xd xa xb s) := .next h.result

theorem keeps_execMulh (h : Keeps b s) {i xd xa xb} : KeepsNext b (execMulh i xd xa xb s) := .next h.result

theorem keeps_execMulhu (h : Keeps b s) {i xd xa xb} : KeepsNext b (execMulhu i xd xa xb s) := .next h.result

theorem keeps_execDiv (h : Keeps b s) {i xd xa xb} : KeepsNext b (execDiv i xd xa xb s) := .next h.result

theorem keeps_execDivu (h : Keeps b s) {i xd xa xb} : KeepsNext b (execDivu i xd xa xb s) := .next h.result

theorem keeps_execRem (h : Keeps b s) {i xd xa xb} : KeepsNext b (execRem i xd xa xb s) := .next h.result

theorem keeps_execRemu (h : Keeps b s) {i xd xa xb} : KeepsNext b (execRemu i xd xa xb s) := .next h.result

theorem keeps_execClz (h : Keeps b s) {i xd xa xb} : KeepsNext b (execClz i xd xa xb s) := .next h.result

theorem keeps_execCtz (h : Keeps b s) {i xd xa xb} : KeepsNext b (execCtz i xd xa xb s) := .next h.result

theorem keeps_execPopc (h : Keeps b s) {i xd xa xb} : KeepsNext b (execPopc i xd xa xb s) := .next h.result

theorem Keeps.resultCounted (h : Keeps b s) {i word xd f} : Keeps b (s.resultCounted i word xd f) :=
  h.issue (fun _ hu => hu.countEvents.updCtx)

theorem Keeps.floatOp (h : Keeps b s) {i xd xa xb fn f} : Keeps b (s.floatOp i xd xa xb fn f) := h.resultCounted

theorem keeps_execFadd (h : Keeps b s) {i xd xa xb} : KeepsNext b (execFadd i xd xa xb s) := .next h.floatOp

theorem keeps_execFsub (h : Keeps b s) {i xd xa xb} : KeepsNext b (execFsub i xd xa xb s) := .next h.floatOp

theorem keeps_execFmul (h : Keeps b s) {i xd xa xb} : KeepsNext b (execFmul i xd xa xb s) := .next h.floatOp

theorem keeps_execFmin (h : Keeps b s) {i xd xa xb} : KeepsNext b (execFmin i xd xa xb s) := .next h.floatOp

theorem keeps_execFmax (h : Keeps b s) {i xd xa xb} : KeepsNext b (execFmax i xd xa xb s) := .next h.floatOp

theorem keeps_execFlt (h : Keeps b s) {i xd xa xb} : KeepsNext b (execFlt i xd xa xb s) := .next h.floatOp

theorem keeps_execFle (h : Keeps b s) {i xd xa xb} : KeepsNext b (execFle i xd xa xb s) := .next h.floatOp

theorem keeps_execFeq (h : Keeps b s) {i xd xa xb} : KeepsNext b (execFeq i xd xa xb s) := .next h.floatOp

theorem keeps_execFabs (h : Keeps b s) {i xd xa xb} : KeepsNext b (execFabs i xd xa xb s) := .next h.floatOp

theorem keeps_execFneg (h : Keeps b s) {i xd xa xb} : KeepsNext b (execFneg i xd xa xb s) := .next h.floatOp

theorem keeps_execCvt (h : Keeps b s) {i xd xa fn} : KeepsNext b (execCvt i xd xa fn s) :=
  .ite (.next h.resultCounted) (.next (h.issue (fun _ hu => hu.faultAt)))

theorem Keeps.branch (h : Keeps b s) {i op xa xb off taken} : Keeps b (s.branch i op xa xb off taken) :=
  h.issue (fun _ hu => hu.updCtx)

theorem keeps_execBeq (h : Keeps b s) {i xa xb off} : KeepsNext b (execBeq i xa xb off s) := .next h.branch

theorem keeps_execBne (h : Keeps b s) {i xa xb off} : KeepsNext b (execBne i xa xb off s) := .next h.branch

theorem keeps_execBlt (h : Keeps b s) {i xa xb off} : KeepsNext b (execBlt i xa xb off s) := .next h.branch

theorem keeps_execBge (h : Keeps b s) {i xa xb off} : KeepsNext b (execBge i xa xb off s) := .next h.branch

theorem keeps_execBltu (h : Keeps b s) {i xa xb off} : KeepsNext b (execBltu i xa xb off s) := .next h.branch

theorem keeps_execBgeu (h : Keeps b s) {i xa xb off} : KeepsNext b (execBgeu i xa xb off s) := .next h.branch

theorem keeps_execJal (h : Keeps b s) {i xd imm} : KeepsNext b (execJal i xd imm s) := .next (h.issue (fun _ hu => hu.updCtx))

theorem keeps_execJalr (h : Keeps b s) {i xd xa imm} : KeepsNext b (execJalr i xd xa imm s) :=
  .next (h.issue (fun _ hu => .ite hu.faultAt hu.setCtx))

theorem Keeps.onBank (h : Keeps b s) {core off order body} (hbody : ∀ u, Keeps b u → Keeps b (body u)) :
    Keeps b (s.onBank core off order body) := .ite (hbody _ h.setBank) h.setBank

theorem Keeps.onIssueBank (h : Keeps b s) {i off body} (hbody : ∀ u, Keeps b u → Keeps b (body u)) :
    Keeps b (s.onIssueBank i off body) := .ite (h.charge.onBank hbody) (h.onBank hbody).updCtx

theorem Keeps.localAccess (h : Keeps b s) {i addr n body} (hbody : ∀ u, Keeps b u → Keeps b (body u)) :
    Keeps b (s.localAccess i addr n body) := by
  unfold State.localAccess
  split
  · exact h.faultAt
  · refine h.onIssueBank fun u hu => ?_
    dsimp only
    split
    · rename_i s1 e
      exact hbody s1 (.of_snd e hu.checkSram)
    · rename_i e
      exact Keeps.awaitLine (.of_snd e hu.checkSram)
    · rename_i e
      exact Keeps.faultAt (.of_snd e hu.checkSram)

theorem Keeps.localLoad (h : Keeps b s) {i op xd xa imm n signed} : Keeps b (s.localLoad i op xd xa imm n signed) :=
  h.issue (fun _ hu => hu.localAccess (fun _ hu1 => hu1.updCtx))

theorem keeps_execLbL (h : Keeps b s) {i xd xa imm} : KeepsNext b (execLbL i xd xa imm s) := .next h.localLoad

theorem keeps_execLbuL (h : Keeps b s) {i xd xa imm} : KeepsNext b (execLbuL i xd xa imm s) := .next h.localLoad

theorem keeps_execLhL (h : Keeps b s) {i xd xa imm} : KeepsNext b (execLhL i xd xa imm s) := .next h.localLoad

theorem keeps_execLhuL (h : Keeps b s) {i xd xa imm} : KeepsNext b (execLhuL i xd xa imm s) := .next h.localLoad

theorem keeps_execLwL (h : Keeps b s) {i xd xa imm} : KeepsNext b (execLwL i xd xa imm s) := .next h.localLoad

theorem keeps_execLwuL (h : Keeps b s) {i xd xa imm} : KeepsNext b (execLwuL i xd xa imm s) := .next h.localLoad

theorem keeps_execLdL (h : Keeps b s) {i xd xa imm} : KeepsNext b (execLdL i xd xa imm s) := .next h.localLoad

theorem Keeps.globalLoad (h : Keeps b s) {i op xd xa imm n signed} : Keeps b (s.globalLoad i op xd xa imm n signed) := by
  unfold State.globalLoad
  exact h.issue (fun u hu => by
    extract_lets addr
    split
    · exact hu.faultAt
    · exact .updCtx (.ite hu.same.same.postReq hu.same.same.sendAbroad))

theorem keeps_execLbG (h : Keeps b s) {i xd xa imm} : KeepsNext b (execLbG i xd xa imm s) := .next h.globalLoad

theorem keeps_execLbuG (h : Keeps b s) {i xd xa imm} : KeepsNext b (execLbuG i xd xa imm s) := .next h.globalLoad

theorem keeps_execLhG (h : Keeps b s) {i xd xa imm} : KeepsNext b (execLhG i xd xa imm s) := .next h.globalLoad

theorem keeps_execLhuG (h : Keeps b s) {i xd xa imm} : KeepsNext b (execLhuG i xd xa imm s) := .next h.globalLoad

theorem keeps_execLwG (h : Keeps b s) {i xd xa imm} : KeepsNext b (execLwG i xd xa imm s) := .next h.globalLoad

theorem keeps_execLwuG (h : Keeps b s) {i xd xa imm} : KeepsNext b (execLwuG i xd xa imm s) := .next h.globalLoad

theorem keeps_execLdG (h : Keeps b s) {i xd xa imm} : KeepsNext b (execLdG i xd xa imm s) := .next h.globalLoad

theorem Keeps.localStore (h : Keeps b s) {i op xd xa imm n} : Keeps b (s.localStore i op xd xa imm n) := by
  unfold State.localStore
  exact h.issue (fun u hu => by
    extract_lets c addr
    split
    · exact hu.faultAt
    · exact hu.onIssueBank (fun _ hu1 => hu1.writeSram.updCtx))

theorem keeps_execSbL (h : Keeps b s) {i xd xa imm} : KeepsNext b (execSbL i xd xa imm s) := .next h.localStore

theorem keeps_execShL (h : Keeps b s) {i xd xa imm} : KeepsNext b (execShL i xd xa imm s) := .next h.localStore

theorem keeps_execSwL (h : Keeps b s) {i xd xa imm} : KeepsNext b (execSwL i xd xa imm s) := .next h.localStore

theorem keeps_execSdL (h : Keeps b s) {i xd xa imm} : KeepsNext b (execSdL i xd xa imm s) := .next h.localStore

theorem Keeps.globalStore (h : Keeps b s) {i op xd xa imm n} : Keeps b (s.globalStore i op xd xa imm n) := by
  unfold State.globalStore
  exact h.issue (fun u hu => by
    extract_lets c addr
    split
    · exact hu.faultAt
    · exact hu.sendReq.updCtx)

theorem keeps_execSbG (h : Keeps b s) {i xd xa imm} : KeepsNext b (execSbG i xd xa imm s) := .next h.globalStore

theorem keeps_execShG (h : Keeps b s) {i xd xa imm} : KeepsNext b (execShG i xd xa imm s) := .next h.globalStore

theorem keeps_execSwG (h : Keeps b s) {i xd xa imm} : KeepsNext b (execSwG i xd xa imm s) := .next h.globalStore

theorem keeps_execSdG (h : Keeps b s) {i xd xa imm} : KeepsNext b (execSdG i xd xa imm s) := .next h.globalStore

theorem Keeps.localAtomic (h : Keeps b s) {i op xd xa xb} : Keeps b (s.localAtomic i op xd xa xb) :=
  h.issue (fun _ hu => hu.localAccess (fun _ hu1 => hu1.writeSram.updCtx))

theorem keeps_execAmoLAdd (h : Keeps b s) {i xd xa xb} : KeepsNext b (execAmoLAdd i xd xa xb s) := .next h.localAtomic

theorem keeps_execAmoLAnd (h : Keeps b s) {i xd xa xb} : KeepsNext b (execAmoLAnd i xd xa xb s) := .next h.localAtomic

theorem keeps_execAmoLOr (h : Keeps b s) {i xd xa xb} : KeepsNext b (execAmoLOr i xd xa xb s) := .next h.localAtomic

theorem keeps_execAmoLXor (h : Keeps b s) {i xd xa xb} : KeepsNext b (execAmoLXor i xd xa xb s) := .next h.localAtomic

theorem keeps_execAmoLSwap (h : Keeps b s) {i xd xa xb} : KeepsNext b (execAmoLSwap i xd xa xb s) := .next h.localAtomic

theorem keeps_execAmoLCas (h : Keeps b s) {i xd xa xb} : KeepsNext b (execAmoLCas i xd xa xb s) := .next h.localAtomic

theorem keeps_execAmoLMin (h : Keeps b s) {i xd xa xb} : KeepsNext b (execAmoLMin i xd xa xb s) := .next h.localAtomic

theorem keeps_execAmoLMax (h : Keeps b s) {i xd xa xb} : KeepsNext b (execAmoLMax i xd xa xb s) := .next h.localAtomic

theorem keeps_execAmoLMinu (h : Keeps b s) {i xd xa xb} : KeepsNext b (execAmoLMinu i xd xa xb s) := .next h.localAtomic

theorem keeps_execAmoLMaxu (h : Keeps b s) {i xd xa xb} : KeepsNext b (execAmoLMaxu i xd xa xb s) := .next h.localAtomic

theorem Keeps.globalAtomic (h : Keeps b s) {i op xd xa xb} : Keeps b (s.globalAtomic i op xd xa xb) := by
  unfold State.globalAtomic
  exact h.issue (fun u hu => by
    extract_lets c addr
    split
    · exact hu.faultAt
    · exact .updCtx (.ite hu.same.same.postReq hu.same.same.sendAbroad))

theorem keeps_execAmoGAdd (h : Keeps b s) {i xd xa xb} : KeepsNext b (execAmoGAdd i xd xa xb s) := .next h.globalAtomic

theorem keeps_execAmoGAnd (h : Keeps b s) {i xd xa xb} : KeepsNext b (execAmoGAnd i xd xa xb s) := .next h.globalAtomic

theorem keeps_execAmoGOr (h : Keeps b s) {i xd xa xb} : KeepsNext b (execAmoGOr i xd xa xb s) := .next h.globalAtomic

theorem keeps_execAmoGXor (h : Keeps b s) {i xd xa xb} : KeepsNext b (execAmoGXor i xd xa xb s) := .next h.globalAtomic

theorem keeps_execAmoGSwap (h : Keeps b s) {i xd xa xb} : KeepsNext b (execAmoGSwap i xd xa xb s) := .next h.globalAtomic

theorem keeps_execAmoGCas (h : Keeps b s) {i xd xa xb} : KeepsNext b (execAmoGCas i xd xa xb s) := .next h.globalAtomic

theorem keeps_execAmoGMin (h : Keeps b s) {i xd xa xb} : KeepsNext b (execAmoGMin i xd xa xb s) := .next h.globalAtomic

theorem keeps_execAmoGMax (h : Keeps b s) {i xd xa xb} : KeepsNext b (execAmoGMax i xd xa xb s) := .next h.globalAtomic

theorem keeps_execAmoGMinu (h : Keeps b s) {i xd xa xb} : KeepsNext b (execAmoGMinu i xd xa xb s) := .next h.globalAtomic

theorem keeps_execAmoGMaxu (h : Keeps b s) {i xd xa xb} : KeepsNext b (execAmoGMaxu i xd xa xb s) := .next h.globalAtomic

theorem Keeps.awaitUnit (h : Keeps b s) {core ctx u} : Keeps b (s.awaitUnit core ctx u) := h.updCtx

theorem Keeps.takeBanks (h : Keeps b s) {core order offs} : Keeps b (s.takeBanks core order offs).2 :=
  .snd (h.foldl (fun _ _ hu => .ite hu.setBank (.ite hu hu.setBank)))

theorem Keeps.bankAgain (h : Keeps b s) {core ctx} : Keeps b (s.bankAgain core ctx) := h.updCtx

theorem Keeps.checkBuffer (h : Keeps b s) {core addr who} : Keeps b (s.checkBuffer core addr who).2 := by
  unfold State.checkBuffer
  split
  · rename_i s1 e
    have hs1 : Keeps b s1 := .of_snd e h.checkSram
    split
    · exact .snd hs1
    · exact hs1.checkSram
  · exact h.checkSram

theorem Keeps.withDescriptor (h : Keeps b s) {core ctx addr body} (hbody : ∀ u ws, Keeps b u → Keeps b (body u ws)) :
    Keeps b (s.withDescriptor core ctx addr body) := by
  unfold State.withDescriptor
  split
  · exact h.faultAt
  · split
    · rename_i e
      exact Keeps.bankAgain (.of_snd e h.takeBanks)
    · rename_i s1 e
      have hs1 : Keeps b s1 := .of_snd e h.takeBanks
      split
      · rename_i e2
        exact hbody _ _ (Keeps.charge (.of_snd e2 hs1.checkBuffer))
      · rename_i e2
        exact Keeps.awaitLine (.of_snd e2 hs1.checkBuffer)
      · rename_i e2
        exact Keeps.faultAt (.of_snd e2 hs1.checkBuffer)

theorem Keeps.commandTaken (h : Keeps b s) {core ctx xd wc w} : Keeps b (s.commandTaken core ctx xd wc w).2 := by
  unfold State.commandTaken
  split
  · rename_i s1 e
    have hs1 : Keeps b s1 := .of_snd e h.token
    extract_lets c
    split
    · exact .snd hs1.setCtx
    · exact .snd hs1.setCtx

theorem Keeps.readRecord (h : Keeps b s) {a who} : Keeps b (s.readRecord a who).2.2 := by
  unfold State.readRecord
  split
  · rename_i s1 e
    have hs1 : Keeps b s1 := .of_snd e h.readRange
    exact .thd hs1

theorem Keeps.acceptRecord (h : Keeps b s) {a who} : Keeps b (s.acceptRecord a who).2 := by
  unfold State.acceptRecord
  split
  · exact .snd h
  · split
    · rename_i s1 e1
      have hs1 : Keeps b s1 := .of_thd e1 h.readRecord
      exact .snd hs1

theorem Keeps.acceptDma (h : Keeps b s) {core d} : Keeps b (s.acceptDma core d) := by
  unfold State.acceptDma
  extract_lets w multicast
  split
  · rename_i s1 e
    have hs1 : Keeps b s1 := by
      refine .of_snd e ?_
      split
      · exact h.acceptRecord
      · exact .snd h
    exact hs1.setCore

theorem Keeps.dmaCommand (h : Keeps b s) {core ctx xd xa wc w} : Keeps b (s.dmaCommand core ctx xd xa wc w) := by
  unfold State.dmaCommand
  exact .ite h.awaitUnit (h.withDescriptor (fun u words1 hu => by
    split
    · rename_i s1 e
      have hs1 : Keeps b s1 := .of_snd e hu.commandTaken
      exact hs1.same.acceptDma))

theorem keeps_execDma (h : Keeps b s) {i xd xa wc w} : KeepsNext b (execDma i xd xa wc w s) :=
  .next (h.issue (fun _ hu => hu.dmaCommand))

theorem Keeps.endFence (h : Keeps b s) {core ctx mask} : Keeps b (s.endFence core ctx mask) := .ite h.faultAt.updCtx h.setCtx

theorem Keeps.recheck (h : Keeps b s) {core ctx} : Keeps b (s.recheck core ctx) := by
  unfold State.recheck
  extract_lets c
  split
  · exact .ite h.setCtx h
  · exact .ite h.endFence h
  · exact h

theorem Keeps.complete (h : Keeps b s) {t st} : Keeps b (s.complete t st) := by
  unfold State.complete
  split
  · exact h
  · exact h.updCtx.recheck
  · extract_lets c
    split
    · exact .ite h.setCtx h
    · exact .ite h.setCtx h
    · exact .ite h.setCtx h
    · exact .ite h.setCtx h
    · exact h
  · exact h.completeRing
  · exact .finishRing (.ite h h.notifyFailure)
  · exact h.same
  · exact h.send

theorem Keeps.countTile (h : Keeps b s) {core} : Keeps b (s.countTile core) := h.towerWrap

theorem Keeps.tileCommand (h : Keeps b s) {core ctx xd xa xb wc w sub} : Keeps b (s.tileCommand core ctx xd xa xb wc w sub) := by
  unfold State.tileCommand
  extract_lets c key arr
  exact .ite h.awaitUnit (h.withDescriptor (fun u ws1 hu => by
    extract_lets request openIn
    split
    · split
      · rename_i s1 e1
        have hs1 : Keeps b s1 := .of_snd e1 hu.commandTaken
        exact hs1.countTile.complete
    · split
      · rename_i s1 e1
        have hs1 : Keeps b s1 := .of_snd e1 hu.commandTaken
        extract_lets u1
        split
        · exact hs1.setArray
        · exact hs1
    · unfold openIn
      split
      · rename_i s1 e1
        have hs1 : Keeps b s1 := .of_snd e1 hu.commandTaken
        exact hs1.setArray
    · exact hu.awaitUnit
    · extract_lets u1 u2 s1
      split
      · exact hu.setArray.awaitUnit
      · unfold openIn
        split
        · rename_i s2 e2
          have hs2 : Keeps b s2 := .of_snd e2 hu.setArray.commandTaken
          exact hs2.setArray))

theorem keeps_execTile (h : Keeps b s) {i xd xa xb wc w sub} : KeepsNext b (execTile i xd xa xb wc w sub s) :=
  .next (h.issue (fun _ hu => .ite hu.faultAt hu.tileCommand))

theorem Keeps.vecCommand (h : Keeps b s) {core ctx op xd xa xb xc} : Keeps b (s.vecCommand core ctx op xd xa xb xc) :=
  .ite h.awaitUnit h.same.setCore.setCtx

theorem Keeps.vecIssue (h : Keeps b s) {i op xd xa xb xc} : Keeps b (s.vecIssue i op xd xa xb xc) :=
  h.issue (fun _ hu => hu.vecCommand)

theorem keeps_execVadd (h : Keeps b s) {i xd xa xb} : KeepsNext b (execVadd i xd xa xb s) := .next h.vecIssue

theorem keeps_execVsub (h : Keeps b s) {i xd xa xb} : KeepsNext b (execVsub i xd xa xb s) := .next h.vecIssue

theorem keeps_execVmul (h : Keeps b s) {i xd xa xb} : KeepsNext b (execVmul i xd xa xb s) := .next h.vecIssue

theorem keeps_execVfma (h : Keeps b s) {i xd xa xb xc} : KeepsNext b (execVfma i xd xa xb xc s) := .next h.vecIssue

theorem keeps_execVmax (h : Keeps b s) {i xd xa xb} : KeepsNext b (execVmax i xd xa xb s) := .next h.vecIssue

theorem keeps_execVmin (h : Keeps b s) {i xd xa xb} : KeepsNext b (execVmin i xd xa xb s) := .next h.vecIssue

theorem keeps_execVabs (h : Keeps b s) {i xd xa} : KeepsNext b (execVabs i xd xa s) := .next h.vecIssue

theorem keeps_execVneg (h : Keeps b s) {i xd xa} : KeepsNext b (execVneg i xd xa s) := .next h.vecIssue

theorem keeps_execVscale (h : Keeps b s) {i xd xa xb} : KeepsNext b (execVscale i xd xa xb s) := .next h.vecIssue

theorem keeps_execVaxpy (h : Keeps b s) {i xd xa xb xc} : KeepsNext b (execVaxpy i xd xa xb xc s) := .next h.vecIssue

theorem keeps_execVexp (h : Keeps b s) {i xd xa} : KeepsNext b (execVexp i xd xa s) := .next h.vecIssue

theorem keeps_execVrecip (h : Keeps b s) {i xd xa} : KeepsNext b (execVrecip i xd xa s) := .next h.vecIssue

theorem keeps_execVrsqrt (h : Keeps b s) {i xd xa} : KeepsNext b (execVrsqrt i xd xa s) := .next h.vecIssue

theorem keeps_execVtanh (h : Keeps b s) {i xd xa} : KeepsNext b (execVtanh i xd xa s) := .next h.vecIssue

theorem keeps_execVsum (h : Keeps b s) {i xd xa} : KeepsNext b (execVsum i xd xa s) := .next h.vecIssue

theorem keeps_execVmaxr (h : Keeps b s) {i xd xa} : KeepsNext b (execVmaxr i xd xa s) := .next h.vecIssue

theorem keeps_execVdot (h : Keeps b s) {i xd xa xb} : KeepsNext b (execVdot i xd xa xb s) := .next h.vecIssue

theorem keeps_execVsoftmax (h : Keeps b s) {i xd xa} : KeepsNext b (execVsoftmax i xd xa s) := .next h.vecIssue

theorem keeps_execVcmplt (h : Keeps b s) {i xd xa xb} : KeepsNext b (execVcmplt i xd xa xb s) := .next h.vecIssue

theorem keeps_execVsel (h : Keeps b s) {i xd xa xb xc} : KeepsNext b (execVsel i xd xa xb xc s) := .next h.vecIssue

theorem keeps_execVcvt (h : Keeps b s) {i xd xa} : KeepsNext b (execVcvt i xd xa s) := .next h.vecIssue

theorem keeps_execVwupd (h : Keeps b s) {i xd xa xb xc} : KeepsNext b (execVwupd i xd xa xb xc s) := .next h.vecIssue

theorem keeps_execVcopy (h : Keeps b s) {i xd xa} : KeepsNext b (execVcopy i xd xa s) := .next h.vecIssue

theorem keeps_execVfill (h : Keeps b s) {i xd xb} : KeepsNext b (execVfill i xd xb s) := .next h.vecIssue

theorem Keeps.syncCommand (h : Keeps b s) {core ctx arm xd xa xb wc w} : Keeps b (s.syncCommand core ctx arm xd xa xb wc w) := by
  unfold State.syncCommand
  extract_lets c object value
  split
  · exact h.awaitUnit
  · split
    · rename_i s1 e1
      have hs1 : Keeps b s1 := .of_snd e1 h.commandTaken
      exact hs1.sendSync

theorem keeps_execSyncAdd (h : Keeps b s) {i xd xa xb wc w} : KeepsNext b (execSyncAdd i xd xa xb wc w s) :=
  .next (h.issue (fun _ hu => hu.syncCommand))

theorem keeps_execSyncWait (h : Keeps b s) {i xd xa} : KeepsNext b (execSyncWait i xd xa s) :=
  .next (h.issue (fun _ hu => hu.sendSync.updCtx))

theorem keeps_execSyncRead (h : Keeps b s) {i xd xa} : KeepsNext b (execSyncRead i xd xa s) :=
  .next (h.issue (fun _ hu => hu.sendSync.updCtx))

theorem keeps_execSyncArm (h : Keeps b s) {i xd xa xb wc w} : KeepsNext b (execSyncArm i xd xa xb wc w s) :=
  .next (h.issue (fun _ hu => hu.syncCommand))

theorem Keeps.pushQueue (h : Keeps b s) {q bytes} : Keeps b (s.pushQueue q bytes).2 := by
  unfold State.pushQueue
  extract_lets k core
  split
  · exact .snd h
  · split
    · exact .snd h
    · split
      · exact .snd h
      · split
        · exact .snd h
        · split
          · rename_i s1 e4
            have hs1 : Keeps b s1 := .of_snd e4 h.writeRange
            exact .snd hs1.setQueue.enterLedger
          · rename_i s1 e4 e5
            have hs1 : Keeps b s1 := .of_snd e5 h.writeRange
            exact .snd hs1

theorem keeps_execQuePush (h : Keeps b s) {i xd xa xb} : KeepsNext b (execQuePush i xd xa xb s) := by
  unfold execQuePush
  exact .next (h.issue (fun _ hu => hu.withDescriptor (fun u1 words1 hu1 => by
    extract_lets gq dev bytes
    split
    · split
      · rename_i s1 e1
        have hs1 : Keeps b s1 := .of_snd e1 hu1.pushQueue
        exact hs1.updCtx
    · exact .ite (.updCtx (.ite hu1.same.same.postReq hu1.same.same.sendAbroad)) (.ite hu1.updCtx (.updCtx (.ite
        hu1.same.same.postReq hu1.same.same.sendAbroad))))))

theorem keeps_execQueExit (h : Keeps b s) {i xb} : KeepsNext b (execQueExit i xb s) := .next (h.issue (fun _ hu => hu.updCtx))

theorem Keeps.awaitHere (h : Keeps b s) {i w} : Keeps b (s.awaitHere i w) := h.updCtx.recheck.updCtx

theorem keeps_execWaitc (h : Keeps b s) {i xd imm} : KeepsNext b (execWaitc i xd imm s) :=
  .next (h.issue (fun _ hu => hu.awaitHere))

theorem keeps_execFence (h : Keeps b s) {i imm} : KeepsNext b (execFence i imm s) := .next (h.issue (fun _ hu => hu.awaitHere))

theorem keeps_execCsrr (h : Keeps b s) {i xd imm} : KeepsNext b (execCsrr i xd imm s) := by
  unfold execCsrr
  exact .next (h.issue (fun u hu => by
    split
    · exact hu.updCtx
    · exact hu.faultAt))

theorem keeps_execCsrw (h : Keeps b s) {i xa imm} : KeepsNext b (execCsrw i xa imm s) :=
  .next (h.issue (fun _ hu => .ite hu.updCtx (.ite hu.updCtx hu.faultAt)))

theorem keeps_execBrk (h : Keeps b s) {i imm} : KeepsNext b (execBrk i imm s) := by
  unfold execBrk
  exact .next (h.issue (fun u hu => by
    split
    · exact hu.setFreezeSource
    · exact hu.updCtx
    · exact hu.faultAt))

theorem keeps_execWaitUnitRelease (h : Keeps b s) {core ctx} : KeepsNext b (execWaitUnitRelease core ctx s) := by
  unfold execWaitUnitRelease
  refine .next ?_
  split
  · exact h
  · split
    · exact h.dmaCommand
    · exact h.tileCommand
    · exact h.vecCommand
    · exact h.syncCommand
    · exact h

theorem Keeps.answerLoad (h : Keeps b s) {core ctx token addr st data} : Keeps b (s.answerLoad core ctx token addr st data) := by
  unfold State.answerLoad
  extract_lets c give
  split
  · exact .ite (.ite h.setCtx h.faultAt) h
  · exact .ite (.ite h.setCtx h.faultAt) h
  · exact .ite (.ite h.setCtx h.faultAt) h
  · exact .ite h.setCtx h
  · exact h

theorem Keeps.deliverSync (h : Keeps b s) {id} : Keeps b (s.deliverSync id) := by
  unfold State.deliverSync
  split
  · exact h
  · split
    · exact h
    · split
      · exact h
      · extract_lets s1
        split
        · exact h.same.answerLoad
        · exact h.same.complete

theorem Keeps.dropReq (h : Keeps b s) {id} : Keeps b (s.dropReq id) := h.same

theorem Keeps.unitAnswer (h : Keeps b s) {r remote} : Keeps b (s.unitAnswer r remote) := by
  unfold State.unitAnswer
  split
  · exact .ite h.updReq h
  · exact h

theorem Keeps.deliverValue (h : Keeps b s) {id remote} : Keeps b (s.deliverValue id remote) := by
  unfold State.deliverValue
  split
  · exact h
  · split
    · exact .ite h h.dropReq.answerLoad.recheck
    · exact h.unitAnswer
    · exact h

theorem keeps_execReadRsp (h : Keeps b s) {id remote} : KeepsNext b (execReadRsp id remote s) :=
  .next (.ite h.deliverSync h.deliverValue)

theorem keeps_execWriteAck (h : Keeps b s) {id remote} : KeepsNext b (execWriteAck id remote s) := by
  unfold execWriteAck
  refine .next ?_
  split
  · exact h
  · split
    · exact .ite h (.recheck (.ite h.dropReq.setCtx h.dropReq))
    · exact .ite h (.ite (.ite h.dropReq h.dropReq.notifyObject) h.same.notifyFailure.notifyObject)
    · exact .ite h (.notifyRecord (.ite h.dropReq h.dropReq.notifyFailure))
    · exact h.unitAnswer
    · exact h

theorem keeps_execAtomicRsp (h : Keeps b s) {id remote} : KeepsNext b (execAtomicRsp id remote s) := .next h.deliverValue

theorem keeps_execTaskComplete (h : Keeps b s) {core ctx} : KeepsNext b (execTaskComplete core ctx s) := .next (.ite h.endTask h)

theorem Keeps.setVecHead (h : Keeps b s) {core v} : Keeps b (s.setVecHead core v) := h.setCore

theorem Keeps.readEach (h : Keeps b s) {who l} : Keeps b (s.readEach who l).2.2 := by
  induction l generalizing s with
  | nil => exact h
  | cons p rest ih =>
    rw [State.readEach]
    dsimp only
    split
    · exact .thd h.readRange
    · exact .thd (ih h.readRange)

theorem Keeps.readSpans (h : Keeps b s) {who spans} : Keeps b (s.readSpans who spans).2.2 := h.askLines.readEach

theorem keeps_execVectorOpStart (h : Keeps b s) {core} : KeepsNext b (execVectorOpStart core s) := by
  unfold execVectorOpStart
  refine .next ?_
  split
  · exact h
  · split
    · exact h
    · split
      · exact h.setVecHead
      · exact h.unit (fun u hu => by
          split
          · rename_i s1 e3
            have hs1 : Keeps b s1 := .of_thd e3 hu.readSpans
            exact .ite hs1 (.ite hs1.setVecHead hs1.setVecHead.countEvents.charge))

theorem Keeps.writeLocal (h : Keeps b s) {core prod w} : Keeps b (s.writeLocal core prod w) := h.writeRange

theorem keeps_execVectorOpComplete (h : Keeps b s) {core} : KeepsNext b (execVectorOpComplete core s) := by
  unfold execVectorOpComplete
  refine .next ?_
  split
  · exact h
  · exact .ite h (h.unit (fun _ hu => (hu.foldl (fun _ _ hu1 => hu1.writeLocal)).setCore.complete.complete))

theorem keeps_execTileHoldEnd (h : Keeps b s) {core a} : KeepsNext b (execTileHoldEnd core a s) := by
  unfold execTileHoldEnd
  refine .next ?_
  extract_lets u
  split
  · exact .ite h.setArray h
  · exact h

theorem Keeps.tileUnits (h : Keeps b s) {core a body} (hbody : ∀ u v, Keeps b u → body u = some v → Keeps b v) :
    Keeps b (s.tileUnits core a body) := h.units hbody

theorem Keeps.loadHeld (h : Keeps b s) {core a ws p qs} : Keeps b (s.loadHeld core a ws p qs).2.2.2 := by
  induction qs generalizing s with
  | nil => exact h
  | cons q qs ih =>
    unfold State.loadHeld
    extract_lets next
    have hnext : ∀ u q l, Keeps b u → Keeps b (next u q l).2.2.2 := fun _ _ _ hu => .fth (ih hu)
    split
    · exact hnext _ _ _ h
    · split
      rename_i s1 e
      have hs1 : Keeps b s1 := .of_thd e h.readSpans
      split
      · exact .fth hs1
      · split
        · exact hnext _ _ _ hs1
        · exact hnext _ _ _ hs1

theorem Keeps.readOutputs (h : Keeps b s) {core a ws qs} : Keeps b (s.readOutputs core a ws qs).2.2.2 := by
  induction qs generalizing s with
  | nil => exact h
  | cons q qs ih =>
    unfold State.readOutputs
    extract_lets f rows
    split
    rename_i s1 e
    have hs1 : Keeps b s1 := by
      refine .of_thd e ?_
      split
      · exact h
      · exact h.readSpans
    split
    · exact .fth hs1
    · exact .fth (ih hs1)

theorem Keeps.beginRun (h : Keeps b s) {core a t} : Keeps b (s.beginRun core a t).2 := by
  unfold State.beginRun
  extract_lets ws
  split
  · rename_i s1 e
    have hs1 : Keeps b s1 := by
      refine .of_fth e ?_
      split
      · exact .fth h
      · exact h.loadHeld
    split
    · exact .snd hs1
    · extract_lets start
      split
      · split
        · rename_i s2 e3
          have hs2 : Keeps b s2 := .of_fth e3 hs1.readOutputs
          split
          · exact .snd hs2
          · exact .snd hs2
      · exact .snd hs1

theorem Keeps.markEarly (h : Keeps b s) {core a t} : Keeps b (s.markEarly core a t) := by
  unfold State.markEarly
  extract_lets u
  split
  · exact .ite h.setArray h
  · exact h

theorem Keeps.putRun (h : Keeps b s) {core a t ev} : Keeps b (s.putRun core a t ev) := h.setArray.countEvents.markEarly

theorem keeps_execTileStart (h : Keeps b s) {core a} : KeepsNext b (execTileStart core a s) := by
  refine .next ?_
  dsimp only
  split
  · rename_i e
    split
    · exact h
    · refine h.tileUnits fun u v hu e => ?_
      split at e
      · rename_i e1
        cases e
        exact .of_snd e1 hu.beginRun
      · rename_i t1 ev s1 e1
        cases e
        have hs1 : Keeps b (s1.putRun core a t1 ev) := Keeps.putRun (.of_snd e1 hu.beginRun)
        exact .settleRamp (.ite hs1.towerWrap (.ite hs1.towerWrap hs1))
  · exact h

theorem Keeps.runningTile (h : Keeps b s) {core a} : Keeps b (s.runningTile core a).2 := by
  unfold State.runningTile
  extract_lets u
  split
  · split
    · exact .snd h
    · split
      · exact .snd h
      · split
        · rename_i s1 e3
          have hs1 : Keeps b s1 := .of_snd e3 h.beginRun
          exact .snd hs1
        · rename_i s1 e3
          have hs1 : Keeps b s1 := .of_snd e3 h.beginRun
          exact .snd hs1.putRun
  · exact .snd h

theorem Keeps.readPass (h : Keeps b s) {core a t} : Keeps b (s.readPass core a t).2 := by
  unfold State.readPass
  split
  · rename_i s1 e
    have hs1 : Keeps b s1 := .of_thd e h.readSpans
    split
    · exact .snd hs1
    · split
      · exact .snd hs1
      · split
        · rename_i s2 e3
          have hs2 : Keeps b s2 := .of_fth e3 hs1.loadHeld
          exact .snd hs2

theorem Keeps.loadEarly (h : Keeps b s) {core a} : Keeps b (s.loadEarly core a) := by
  unfold State.loadEarly
  split
  · split
    · exact h
    · split
      · rename_i s1 e2
        have hs1 : Keeps b s1 := .of_fth e2 h.loadHeld
        exact .ite hs1 hs1.setArray
  · exact h

theorem Keeps.chargeTile (h : Keeps b s) {core t kind n} : Keeps b (s.chargeTile core t kind n) := by
  unfold State.chargeTile
  extract_lets l sum s1
  have hs1 : Keeps b s1 := h.foldl fun _ _ hu => hu.charge
  clear_value s1 l
  cases l with
  | nil => exact hs1
  | cons e l => exact hs1.charge

theorem Keeps.dropEarly (h : Keeps b s) {core a} : Keeps b (s.dropEarly core a) := by
  unfold State.dropEarly
  extract_lets u
  split
  · exact .ite h h.setArray
  · exact h

theorem Keeps.rerunTile (h : Keeps b s) {core a t} : Keeps b (s.rerunTile core a t) := by
  unfold State.rerunTile
  extract_lets t1 s1 t2
  split
  · rename_i s2 e
    have hs2 : Keeps b s2 := .of_snd e h.setArray.dropEarly.beginRun
    exact hs2
  · rename_i s2 e
    have hs2 : Keeps b s2 := .of_snd e h.setArray.dropEarly.beginRun
    exact hs2.putRun

theorem Keeps.markSuspect (h : Keeps b s) {core a} : Keeps b (s.markSuspect core a) :=
  h.setArray.towerSat.raise.foldl (fun _ _ hu => hu.countTile.foldl (fun _ _ hu1 => hu1.complete))

theorem Keeps.sampleTile (h : Keeps b s) {core a t} : Keeps b (s.sampleTile core a t).2 := by
  unfold State.sampleTile
  extract_lets ok x __src s1 y __src1 s2 m n i smp __src2
  split
  · exact .snd h
  · split
    · exact .snd h.setArray
    · split
      · exact .snd h.setArray.setArray.towerWrap
      · exact .snd h.setArray.setArray.setArray

theorem Keeps.reportTile (h : Keeps b s) {core t} : Keeps b (s.reportTile core t) := h.countTile.foldl (fun _ _ hu => hu.complete)

theorem Keeps.settleTiles (h : Keeps b s) {core a n} : Keeps b (s.settleTiles core a n) := by
  induction n generalizing s with
  | zero => exact h
  | succ n ih =>
    unfold State.settleTiles
    extract_lets u
    split
    · exact .ite h.sampleTile (ih h.sampleTile.setArray.reportTile)
    · exact h

theorem Keeps.finishTile (h : Keeps b s) {core a t st all} : Keeps b (s.finishTile core a t st all) :=
  h.setArray.settleTiles.settleRamp

theorem Keeps.passMismatch (h : Keeps b s) {core a t} : Keeps b (s.passMismatch core a t) :=
  .ite h.towerWrap.rerunTile h.towerWrap.finishTile.markSuspect

theorem Keeps.drainRows (h : Keeps b s) {core a q space l} : Keeps b (s.drainRows core a q space l).2 := by
  induction l generalizing s with
  | nil => exact h
  | cons p rest ih => exact .snd (ih h.writeRange)

theorem Keeps.drainTile (h : Keeps b s) {core a t c0 qs} : Keeps b (s.drainTile core a t c0 qs).2.2 := by
  induction qs generalizing s c0 with
  | nil => exact h
  | cons q qs ih =>
    unfold State.drainTile
    extract_lets ws f row rows
    split
    rename_i s1 e
    have hs1 : Keeps b s1 := by
      refine .of_thd e ?_
      split
      · exact h
      · split
        rename_i e2
        refine .thd (.of_snd e2 ?_)
        split
        · exact h.drainRows
        · exact h
    exact .thd (ih hs1)

theorem keeps_execTilePassEnd (h : Keeps b s) {core a faults} : KeepsNext b (execTilePassEnd core a faults s) := by
  refine .next (h.tileUnits fun u v hu e => ?_)
  split at e
  · rename_i e1
    cases e
    exact .of_snd e1 hu.runningTile
  · rename_i t s1 e1
    have hs1 : Keeps b s1 := .of_snd e1 hu.runningTile
    dsimp only at e
    have hs2 : Keeps b (s1.readPass core a t).2 := hs1.readPass
    split at e
    · cases e; exact hs2
    · split at e
      · cases e
      · split at e
        · cases e
          exact hs2.loadEarly.towerWrap.towerWrap.chargeTile.chargeTile.countEvents.passMismatch
        · split at e
          · cases e
            exact hs2.loadEarly.towerWrap.towerWrap.chargeTile.chargeTile.countEvents.setArray.markEarly
          · cases e
            exact hs2.loadEarly.towerWrap.towerWrap.chargeTile.chargeTile.countEvents.drainTile.countEvents.finishTile

theorem Keeps.failHeld (h : Keeps b s) {core a} : Keeps b (s.failHeld core a) := by
  unfold State.failHeld
  split
  · rename_i s1 e
    have hs1 : Keeps b s1 := .of_snd e h.runningTile
    exact h
  · rename_i s1 e
    have hs1 : Keeps b s1 := .of_snd e h.runningTile
    exact .ite h hs1.setArray

theorem keeps_execTileOperandFail (h : Keeps b s) {core a} : KeepsNext b (execTileOperandFail core a s) := by
  refine .next (h.tileUnits fun u v hu e => ?_).failHeld
  split at e
  · rename_i e1
    cases e
    exact .of_snd e1 hu.runningTile
  · rename_i s1 e1
    have hs1 : Keeps b s1 := .of_snd e1 hu.runningTile
    dsimp only at e
    split at e
    · cases e; exact hs1.readPass
    · split at e
      · cases e; exact hs1.readPass.finishTile
      · cases e

theorem keeps_execRampStep (h : Keeps b s) {field} : KeepsNext b (execRampStep field s) := by
  unfold execRampStep
  refine .next ?_
  extract_lets k
  split
  · exact .ite h h.setField.settleRamp
  · exact h

theorem Keeps.gooseRead (h : Keeps b s) {core a t smp n p} : Keeps b (s.gooseRead core a t smp n p).2.2 := by
  induction n generalizing s p with
  | zero => exact h
  | succ n ih =>
    unfold State.gooseRead
    extract_lets ws
    split
    · exact h
    · split
      rename_i s1 e
      have hs1 : Keeps b s1 := .of_thd e h.readSpans
      split
      · exact .thd hs1
      · split
        rename_i s2 e2
        have hs2 : Keeps b s2 := .of_thd e2 hs1.readSpans
        split
        · exact .thd hs2
        · exact .thd (ih hs2)

theorem Keeps.releaseSample (h : Keeps b s) {core a} : Keeps b (s.releaseSample core a) := by
  unfold State.releaseSample
  extract_lets u s1
  split
  · exact h.setArray.reportTile.settleTiles
  · exact h.setArray

theorem Keeps.gooseDisagree (h : Keeps b s) {core a rec} : Keeps b (s.gooseDisagree core a rec) :=
  .ite h.towerWrap.same.setReg.setArray.raise.markSuspect h.towerWrap.same.setReg.setArray.raise

theorem keeps_execGooseRecompute (h : Keeps b s) {core a} : KeepsNext b (execGooseRecompute core a s) := by
  unfold execGooseRecompute
  refine .next ?_
  extract_lets u tw
  split
  · exact .ite h (h.unit (fun u1 hu => by
      split
      · rename_i s1 e2
        have hs1 : Keeps b s1 := .of_thd e2 hu.gooseRead
        exact .ite hs1 (.ite hs1.towerWrap.releaseSample (.releaseSample (.ite hs1.towerWrap hs1.towerWrap.gooseDisagree)))))
  · exact h

theorem keeps_execGooseWaitExpiry (h : Keeps b s) {core a} : KeepsNext b (execGooseWaitExpiry core a s) := by
  unfold execGooseWaitExpiry
  refine .next ?_
  extract_lets u
  split
  · exact .ite h.setArray h
  · exact h

theorem keeps_execStandbyStewardFailed (h : Keeps b s) : KeepsNext b (execStandbyStewardFailed s) := .next h.setReg

theorem Keeps.addOp (h : Keeps b s) {tag device kind reqs} : Keeps b (s.addOp tag device kind reqs) := h.same.same

theorem Keeps.hostDoorbell (h : Keeps b s) {q bytes offset v} : Keeps b (s.hostDoorbell q bytes offset v) :=
  .ite h (.ite h.hostWriteError (.ite h.doorbellError h.addOp.settleHost))

theorem keeps_execDoorbell (h : Keeps b s) {q bytes offset v} : KeepsNext b (execDoorbell q bytes offset v s) :=
  .next h.hostDoorbell

theorem keeps_execQcbWrite (h : Keeps b s) {q w v low high} : KeepsNext b (execQcbWrite q w v low high s) :=
  .next (.ite h.writeQcbWord h)

theorem keeps_execResetIndices (h : Keeps b s) {q} : KeepsNext b (execResetIndices q s) := .next (.ite h.resetIndices h)

theorem keeps_execFlush (h : Keeps b s) {q} : KeepsNext b (execFlush q s) := .next (.ite h.flush h)

theorem Keeps.takeRerunEntry (h : Keeps b s) {core ctx q words} : Keeps b (s.takeRerunEntry core ctx q words).2 := by
  unfold State.takeRerunEntry
  extract_lets cl es
  split
  · rename_i s1 e
    have hs1 : Keeps b s1 := .of_snd e h.token
    extract_lets e1 __src put
    split
    · exact .snd hs1.withMem
    · split
      · exact .snd hs1.withMem.endRerun
      · exact .snd h

theorem Keeps.launchTask (h : Keeps b s) {q i words} : Keeps b (s.launchTask q i words) := by
  unfold State.launchTask
  extract_lets core w0 w1 bad
  split
  · exact h.completeRing
  · split
    · exact h.completeRing
    · exact h
    · split
      · rename_i s1 e3
        have hs1 : Keeps b s1 := by
          refine .of_snd e3 ?_
          split
          · exact h.takeRerunEntry
          · exact .snd h
        exact .ite hs1.startThread.towerWrap.towerWrap hs1.startThread.towerWrap

theorem Keeps.syncDescriptor (h : Keeps b s) {q i words} : Keeps b (s.syncDescriptor q i words) := by
  unfold State.syncDescriptor
  extract_lets w1 w2 w3 op lease others reserved target s1 __src
  split
  · exact h.completeRing
  · split
    · split
      · rename_i s2 e2
        have hs2 : Keeps b s2 := .of_snd e2 h.token
        split
        · rename_i s3 e3
          have hs3 : Keeps b s3 := by
            refine .of_snd e3 ?_
            split
            · exact hs2.acceptRecord
            · exact .snd hs2
          exact .same (.ite hs3.post hs3)
    · exact .ite h.sendSync.setQueue h.sendSync

theorem Keeps.perform (h : Keeps b s) {q i words} : Keeps b (s.perform q i words) := by
  unfold State.perform
  extract_lets w0 core
  split
  · exact h.towerSat.completeRing
  · split
    · exact h.completeRing
    · split
      · exact h.launchTask
      · exact h.syncDescriptor
      · exact h.same
      · exact h.same.acceptDma

theorem Keeps.takeHead (h : Keeps b s) {core lvl n} : Keeps b (s.takeHead core lvl n) := by
  unfold State.takeHead
  extract_lets q k i t
  split
  · rename_i s1 e
    have hs1 : Keeps b s1 := .of_snd e h.readRange
    exact .ite hs1 (.ite (.perform (.ite hs1.setQueue.setCore.towerWrap.towerWrap hs1.setQueue.setCore.towerWrap)) (.completeRing
      (.ite hs1.setQueue.setCore.towerWrap.towerWrap hs1.setQueue.setCore.towerWrap)))

theorem keeps_execDispatcherTake (h : Keeps b s) {core} : KeepsNext b (execDispatcherTake core s) := by
  unfold execDispatcherTake
  refine .next ?_
  split
  · exact h
  · split
    · exact h.unit (fun _ hu => hu.takeHead)
    · exact h

theorem keeps_execQueueAged (h : Keeps b s) {q} : KeepsNext b (execQueueAged q s) := by
  unfold execQueueAged
  refine .next ?_
  extract_lets k limit
  split
  · exact .ite h.setQueue h
  · exact h

theorem keeps_execFieldForecast (h : Keeps b s) {f} : KeepsNext b (execFieldForecast f s) := .next (.ite h (.ite h.setReg h.setReg))

theorem Keeps.grantPort (h : Keeps b s) {r} : Keeps b (s.grantPort r) := by
  unfold State.grantPort
  split
  · exact h
  · exact h.same.chargeReq

theorem keeps_execWindowInsert (h : Keeps b s) {id} : KeepsNext b (execWindowInsert id s) := by
  unfold execWindowInsert
  refine .next ?_
  split
  · exact h
  · split
    · exact h
    · split
      · exact .ite h (.ite h.setChannel.updReq.grantPort.settleFifo.setChannel h.setChannel.updReq.grantPort.settleFifo)
      · exact h

theorem Keeps.answerEach (h : Keeps b s) {ids answer} (hanswer : ∀ u i, Keeps b u → Keeps b (answer u i)) :
    Keeps b (s.answerEach ids answer).2 := by
  refine Keeps.foldlOn Prod.snd h fun p i hp => ?_
  extract_lets full
  clear_value full
  cases full
  · exact hanswer _ i hp
  · exact hp

theorem Keeps.markLanes (h : Keeps b s) {ch} : Keeps b (s.markLanes ch) := by
  unfold State.markLanes
  extract_lets c c1
  split
  · exact h.setChannel
  · exact h.setChannel

theorem Keeps.chargeEntry (h : Keeps b s) {e n} : Keeps b (s.chargeEntry e n) := by
  unfold State.chargeEntry
  split
  · exact h.chargeReq
  · exact h

theorem Keeps.columnWrite (h : Keeps b s) {ch r} : Keeps b (s.columnWrite ch r) := by
  unfold State.columnWrite
  split
  · split
    · rename_i s1 e1
      have hs1 : Keeps b s1 := .of_snd e1 h.writeDram
      exact hs1.answerReq
  · exact h

theorem Keeps.performWriteBack (h : Keeps b s) {ch w} : Keeps b (s.performWriteBack ch w) :=
  .ite h.setChannel.writeDramLine.setCheck h.setChannel.writeDramLine

theorem Keeps.updSeq (h : Keeps b s) {ch desc g} : Keeps b (s.updSeq ch desc g) := h.setChannel

theorem Keeps.startSegment (h : Keeps b s) {ch g} : Keeps b (s.startSegment ch g) := h.setChannel.updSeq.towerWrap

theorem Keeps.issueCommand (h : Keeps b s) {ch cmd} : Keeps b (s.issueCommand ch cmd) := by
  unfold State.issueCommand
  cases cmd with
  | none => exact h
  | quantum b1 => exact h.setChannel.setChannel.towerWrap.towerWrap
  | neighbour b1 => exact h.setChannel.setChannel.towerSat
  | precharge b1 => exact h.setChannel.setChannel
  | activate b1 row => exact h.setChannel.setChannel
  | column e =>
    have ht {c} := (h.setChannel (c := ch) (v := c)).answerEach (ids := e.reqs)
      (answer := fun t i => (t.towerWrap 0xB406 (coreTower ch) 1).answerReq i 0x0B []) fun _ _ hu => hu.towerWrap.answerReq
    have hm : ∀ {c d}, Keeps b (if !e.isRead && !e.full then
        (((s.setChannel ch c).setChannel ch d).markLanes ch).markLanes ch else ((s.setChannel ch c).setChannel ch d).markLanes ch)
          :=
      .ite h.setChannel.setChannel.markLanes.markLanes h.setChannel.setChannel.markLanes
    refine Keeps.ite ht.setChannel.settleFifo (.settleFifo (.ite ?_ ?_))
    · exact (hm.setChannel.foldl fun _ _ hu => hu.updReq).chargeEntry
    · refine hm.foldl fun u i hu => ?_
      split
      · exact hu.chargeReq.columnWrite
      · exact hu
  | writeBack w => exact h.setChannel.setChannel.markLanes.performWriteBack
  | segment g => exact h.setChannel.startSegment
  | transfer t => exact h.setChannel.setChannel.updSeq
  | scrub =>
    have hs {c} : Keeps b (s.setChannel ch c) := h.setChannel
    dsimp only
    split
    · exact hs
    · exact .ite hs.setChannel (.ite hs.setChannel hs.setChannel)
  | prefetch i line spread => exact h.setChannel.markLanes.setChannel

theorem keeps_execCommandChoose (h : Keeps b s) {ch} : KeepsNext b (execCommandChoose ch s) :=
  .next (.ite h h.setChannel.issueCommand)

theorem Keeps.disturb (h : Keeps b s) {ch off flips} : Keeps b (s.disturb ch off flips) :=
  h.foldl (fun _ _ hu => .ite hu.poke.setCheck (.ite hu.setCheck hu))

theorem Keeps.mergeLine (h : Keeps b s) {ch r} : Keeps b (s.mergeLine ch r) := by
  unfold State.mergeLine
  extract_lets off
  split
  · split
    · rename_i s1 e1
      have hs1 : Keeps b s1 := .of_snd e1 h.writeDram
      exact hs1.answerReq
  · split
    · rename_i s1 e1
      have hs1 : Keeps b s1 := .of_thd e1 h.readDramLine
      exact hs1.countLine.writeDramLine.answerReq
    · rename_i s1 e1 e2
      have hs1 : Keeps b s1 := .of_thd e2 h.readDramLine
      exact hs1.countLine.answerReq
  · exact h

theorem Keeps.noteScrub (h : Keeps b s) {ch line k logs} : Keeps b (s.noteScrub ch line k logs) := by
  unfold State.noteScrub
  extract_lets c queued found
  split
  · exact h
  · exact h.setChannel

theorem keeps_execDramReadData (h : Keeps b s) {ch flips} : KeepsNext b (execDramReadData ch flips s) := by
  unfold execDramReadData
  refine .next ?_
  extract_lets c answer
  split
  · exact h
  · split
    · exact h
    · split
      · exact h
      · split
        · unfold answer
          split
          · rename_i t e4
            have ht : Keeps b t := .of_snd e4 (h.setChannel.answerEach (fun _ _ hu => hu.answerLine))
            exact .ite ht ht.setChannel
        · extract_lets off s1 kind logs
          split
          · exact h.setChannel.disturb.foldl (fun u i1 hu => by
              split
              · exact hu.mergeLine
              · exact hu)
          · split
            · rename_i s2 e5
              have hs2 : Keeps b s2 := .of_thd e5 h.setChannel.disturb.readDramLine
              split
              · exact hs2.countLine.noteScrub
              · extract_lets s3 c1
                split
                · exact hs2.countLine.setChannel
                · unfold answer
                  split
                  · rename_i t e8
                    have ht : Keeps b t := .of_snd e8 (hs2.countLine.answerEach (fun _ _ hu => hu.answerLine))
                    exact .ite ht ht.setChannel

theorem Keeps.raiseImbalance (h : Keeps b s) {t} : Keeps b (s.raiseImbalance t) := h.same.setReg.towerSat.raise

theorem keeps_execHashImbalWindow (h : Keeps b s) {t} : KeepsNext b (execHashImbalWindow t s) :=
  .next (.ite h (.ite h.same.raiseImbalance h.same))

theorem keeps_execHashImbalRepeat (h : Keeps b s) {t} : KeepsNext b (execHashImbalRepeat t s) := .next (.ite h.raiseImbalance h)

theorem Keeps.sramReq (h : Keeps b s) {id body} (hbody : ∀ u r, Keeps b u → Keeps b (body u r)) : Keeps b (s.sramReq id body) := by
  unfold State.sramReq
  split
  · exact h
  · rename_i r e
    split
    · exact h
    · extract_lets arrive
      have harrive : ∀ {u}, Keeps b u → Keeps b (arrive u) := fun hu => .updReq (.ite hu.grantPort hu)
      split
      · exact h
      · extract_lets st
        split
        · exact (harrive h).answerReq
        · split
          · exact h.onBank fun u hu => hbody _ r (harrive hu)
          · exact hbody _ r (harrive h)

theorem Keeps.upsetSram (h : Keeps b s) {line flips} : Keeps b (s.upsetSram line flips) := h.poke.setCrc

theorem keeps_execReadPacket (h : Keeps b s) {read} : KeepsNext b (execReadPacket read s) := by
  unfold execReadPacket
  refine .next ?_
  split
  · exact h.answerReq
  · exact h.sramReq (fun u r1 hu => by
      split
      · extract_lets s1
        split
        · rename_i s2 e2
          have hs2 : Keeps b s2 := .of_snd e2 (.readPlace (.ite hu hu.upsetSram))
          exact .ite hs2 hs2.answerReq
      · exact hu)

theorem Keeps.withPush (h : Keeps b s) {q bytes body} (hbody : ∀ u r, Keeps b u → Keeps b (body u r)) :
    Keeps b (s.withPush q bytes body) :=
  .ite h (h.unit fun _ hu => hbody _ _ hu.pushQueue)

theorem Keeps.writeCopy (h : Keeps b s) {r desc position bytes} : Keeps b (s.writeCopy r desc position bytes) :=
  .ite h (.ite h.answerReq (h.unit (fun _ hu => hu.askWrites.writePieces.answerReq)))

theorem Keeps.writePacket (h : Keeps b s) {id} : Keeps b (s.writePacket id) := by
  unfold State.writePacket
  exact h.sramReq (fun u r1 hu => by
    split
    · split
      · rename_i s1 e1
        have hs1 : Keeps b s1 := .of_snd e1 hu.writePlace
        exact hs1.answerReq
    · exact hu)

theorem keeps_execWritePacket (h : Keeps b s) {id} : KeepsNext b (execWritePacket id s) := by
  unfold execWritePacket
  refine .next ?_
  split
  · exact h.withPush (fun _ _ hu => hu.answerReq)
  · exact .ite h.writeRegisters.answerReq h.answerReq
  · split
    · exact h.writeCopy
    · exact h.writePacket
  · exact h

theorem keeps_execAtomicPacket (h : Keeps b s) {id} : KeepsNext b (execAtomicPacket id s) := by
  unfold execAtomicPacket
  exact .next (h.sramReq (fun u r1 hu => by
    split
    · split
      · rename_i s1 e1
        have hs1 : Keeps b s1 := .of_snd e1 hu.readPlace
        split
        · exact hs1
        · split
          · exact hs1.answerReq
          · extract_lets new
            split
            · rename_i s2 e4
              have hs2 : Keeps b s2 := .of_snd e4 hs1.writePlace
              exact hs2.answerReq
    · exact hu))

theorem keeps_execRefreshOwed (h : Keeps b s) {f layer} : KeepsNext b (execRefreshOwed f layer s) :=
  .next (.ite h (h.setField.foldl (fun _ _ hu => hu.setChannel)))

theorem Keeps.settleSeq (h : Keeps b s) {ch desc} : Keeps b (s.settleSeq ch desc) := by
  unfold State.settleSeq
  extract_lets c
  split
  · exact h
  · exact .ite h.setChannel.endDma.stampReady h.setChannel.stampReady

theorem Keeps.dropFenced (h : Keeps b s) {ch} : Keeps b (s.dropFenced ch) := h.setChannel

theorem Keeps.acceptHens (h : Keeps b s) {core d} : Keeps b (s.acceptHens core d) :=
  .ite h.endDma (.ite h.endDma (.ite h.endDma (.ite h.endDma (.ite h.endDma (.ite h.askLines.readPieces (.ite
    h.askLines.readPieces.endDma (.ite h.askLines.readPieces.endDma (.ite h.askLines.readPieces.endDma (.ite h.askLines.readPieces
    h.askLines.readPieces.setChannel.dropFenced.settleSeq)))))))))

theorem keeps_execHenSeq (h : Keeps b s) {core} : KeepsNext b (execHenSeq core s) := by
  unfold execHenSeq
  refine .next ?_
  extract_lets taken
  split
  · exact .ite (h.unit (fun _ hu => hu.acceptHens)) h
  · exact h

theorem Keeps.finishHen (h : Keeps b s) {ch desc k h1} : Keeps b (s.finishHen ch desc k h1) := h.updSeq.settleSeq

theorem Keeps.failCmd (h : Keeps b s) {ch desc k st} : Keeps b (s.failCmd ch desc k st) := h.updSeq

theorem Keeps.setHenBuf (h : Keeps b s) {ch h1 b1} : Keeps b (s.setHenBuf ch h1 b1) := h.setChannel

theorem Keeps.endVload (h : Keeps b s) {ch t q a} : Keeps b (s.endVload ch t q a) :=
  .ite h.askLines.readPieces (.ite h.askLines.readPieces.setChannel.failCmd.finishHen (h.askLines.readPieces.setChannel.foldl (fun
    _ _ hu => hu.setHenBuf)).finishHen)

theorem keeps_execVload (h : Keeps b s) {ch} : KeepsNext b (execVload ch s) := by
  unfold execVload
  refine .next ?_
  split
  · exact .ite (h.unit (fun _ hu => hu.endVload)) h
  · exact h

theorem Keeps.markComputed (h : Keeps b s) {ch desc k h1} : Keeps b (s.markComputed ch desc k h1) := h.updSeq

theorem Keeps.freeSums (h : Keeps b s) {ch h1 n} : Keeps b (s.freeSums ch h1 n) := h.setHenBuf.same

theorem Keeps.endFailedChain (h : Keeps b s) {ch desc k} : Keeps b (s.endFailedChain ch desc k) := by
  unfold State.endFailedChain
  split
  · exact .ite h.finishHen h
  · exact h

theorem Keeps.beginChain (h : Keeps b s) {ch desc k cmd h1} : Keeps b (s.beginChain ch desc k cmd h1) := .ite h h.updSeq.countEvents

theorem Keeps.computeWork (h : Keeps b s) {ch q k cmd w} : Keeps b (s.computeWork ch q k cmd w) := by
  unfold State.computeWork
  extract_lets a h1 buf s1 s2 bad s3
  have hs3 : Keeps b s3 := .ite h.markComputed.failCmd h.markComputed
  split
  · exact .ite (.ite h.markComputed.freeSums.endFailedChain h.markComputed.freeSums.finishHen) (.ite
      h.markComputed.setHenBuf.countEvents.beginChain.endFailedChain (.ite h.markComputed.setHenBuf.countEvents
      h.markComputed.setHenBuf.countEvents.finishHen))
  · exact .ite (.ite h.markComputed.freeSums.endFailedChain h.markComputed.freeSums.finishHen) (.ite
      h.markComputed.setHenBuf.countEvents.beginChain.endFailedChain (.ite h.markComputed.setHenBuf.countEvents
      h.markComputed.setHenBuf.countEvents.finishHen))
  · exact .ite (.ite h.markComputed.freeSums.endFailedChain h.markComputed.freeSums.finishHen) (.ite
      h.markComputed.setHenBuf.countEvents.beginChain.endFailedChain (.ite h.markComputed.setHenBuf.countEvents
      h.markComputed.setHenBuf.countEvents.finishHen))
  · exact h.markComputed.writeRows.finishHen
  · exact h.markComputed.writeRows.finishHen
  · exact .ite hs3.finishHen hs3
  · exact h.markComputed

theorem Keeps.henOperation (h : Keeps b s) {ch op} : Keeps b (s.henOperation ch op) := by
  unfold State.henOperation
  split
  · exact h
  · split
    · exact h.computeWork
    · exact h

theorem keeps_execDot (h : Keeps b s) {ch} : KeepsNext b (execDot ch s) := .next h.henOperation

theorem keeps_execKvscore (h : Keeps b s) {ch} : KeepsNext b (execKvscore ch s) := .next h.henOperation

theorem keeps_execKvmix (h : Keeps b s) {ch} : KeepsNext b (execKvmix ch s) := .next h.henOperation

theorem keeps_execChainsum (h : Keeps b s) {ch} : KeepsNext b (execChainsum ch s) := by
  unfold execChainsum
  refine .next ?_
  split
  · exact h
  · split
    · exact h
    · extract_lets s1
      have hs1 : Keeps b s1 := h.foldl (fun _ _ hu => hu.markComputed)
      split
      · exact hs1.beginChain
      · exact hs1

theorem keeps_execRowscale (h : Keeps b s) {ch} : KeepsNext b (execRowscale ch s) := .next h.henOperation

theorem keeps_execRowaxpy (h : Keeps b s) {ch} : KeepsNext b (execRowaxpy ch s) := .next h.henOperation

theorem keeps_execRowgather (h : Keeps b s) {ch} : KeepsNext b (execRowgather ch s) := .next h.henOperation

theorem Keeps.closeSegment (h : Keeps b s) {ch g a vs} : Keeps b (s.closeSegment ch g a vs) := by
  unfold State.closeSegment
  extract_lets c c1 mark c2 longest c3 t lines fl s1 s2 s3
  have hs2 : Keeps b s2 := h.setChannel.setField.towerWrap.towerWrap
  split
  · exact hs2.setReg
  · split
    · exact hs2.setReg
    · exact hs2.setReg.charge

theorem Keeps.readVisit (h : Keeps b s) {ch h1 mode l} : Keeps b (s.readVisit ch h1 mode l).2.2.2 := by
  induction l generalizing s with
  | nil => exact h
  | cons p rest ih =>
    unfold State.readVisit
    extract_lets off fix
    split
    · rename_i e
      exact .fth (ih (.of_thd e h.readDramLine))
    · rename_i e
      exact .fth (.of_thd e h.readDramLine)

theorem Keeps.readVisits (h : Keeps b s) {ch a w l} : Keeps b (s.readVisits ch a w l).2 := by
  induction l generalizing s w with
  | nil => exact h
  | cons v vs ih =>
    unfold State.readVisits
    extract_lets mode
    split
    rename_i s1 e
    have hs1 : Keeps b s1 := .of_fth e h.readVisit
    extract_lets w1
    split
    · exact .snd hs1
    · exact ih hs1

theorem Keeps.endSegment (h : Keeps b s) {ch g} : Keeps b (s.endSegment ch g) := by
  unfold State.endSegment
  split
  · exact h.closeSegment
  · split
    · exact h.closeSegment
    · extract_lets a vs
      split
      · exact h.closeSegment
      · exact .ite (.ite (.ite h.readVisits.closeSegment.updSeq.writeRows h.readVisits.closeSegment.updSeq) (.stampReady
          (.setChannel (.ite h.readVisits.closeSegment.updSeq.writeRows h.readVisits.closeSegment.updSeq)))) (.ite
          h.readVisits.closeSegment.updSeq.failCmd h.readVisits.closeSegment.updSeq)

theorem keeps_execHenSegmentEnd (h : Keeps b s) {ch} : KeepsNext b (execHenSegmentEnd ch s) := by
  unfold execHenSegmentEnd
  refine .next ?_
  split
  · exact h.endSegment
  · exact h

theorem keeps_execChainHop (h : Keeps b s) {ch} : KeepsNext b (execChainHop ch s) := by
  unfold execChainHop
  refine .next ?_
  extract_lets ready
  split
  · exact h.updSeq.countEvents
  · exact h

theorem Keeps.writeDelivery (h : Keeps b s) {ch core space prod l} : Keeps b (s.writeDelivery ch core space prod l).2 := by
  induction l generalizing s with
  | nil => exact h
  | cons p rest ih =>
    unfold State.writeDelivery
    split
    rename_i s1 e
    have hs1 : Keeps b s1 := by
      refine .of_snd e ?_
      split
      · refine .snd (Keeps.foldlOn (fun x : Status × State × List Byte => x.2.1) h fun y a hy => ?_)
        by_cases hst : y.1 ≠ 0
        · rw [if_pos hst]; exact hy
        · rw [if_neg hst]; exact hy.writeDram
      · exact h.writeRange
    split
    · exact .snd hs1
    · exact ih hs1

theorem keeps_execDelivery (h : Keeps b s) {ch} : KeepsNext b (execDelivery ch s) := by
  unfold execDelivery
  refine .next ?_
  split
  · exact h
  · exact .ite h (h.unit (fun _ hu => .finishHen (.ite hu.setChannel.countEvents.writeDelivery.failCmd
      hu.setChannel.countEvents.writeDelivery)))

theorem keeps_execThrottledTimeout (h : Keeps b s) {ch} : KeepsNext b (execThrottledTimeout ch s) := by
  unfold execThrottledTimeout
  refine .next ?_
  extract_lets c
  split
  · exact h
  · extract_lets waits
    split
    · exact h.killSeq.endDma.towerSat
    · exact h

theorem keeps_execLayerDutyWindow (h : Keeps b s) {f} : KeepsNext b (execLayerDutyWindow f s) := .next (.ite h h.setField.towerSat)

theorem Keeps.pauseSeq (h : Keeps b s) {r} : Keeps b (s.pauseSeq r) := by
  unfold State.pauseSeq
  split
  · exact h.setQueue
  · exact h.send

theorem Keeps.pastEnd (h : Keeps b s) {ch op r ws} : Keeps b (s.pastEnd ch op r ws) := by
  unfold State.pastEnd
  extract_lets s1 who
  split
  · exact h.towerSat.retire
  · split
    · rename_i s2 e1
      have hs2 : Keeps b s2 := .of_snd e1 h.towerSat.writeRegionWord
      exact hs2.setChannel.pauseSeq.setReg.kvRecord
    · rename_i s2 e1 e2
      have hs2 : Keeps b s2 := .of_snd e2 h.towerSat.writeRegionWord
      exact hs2.finishAppend

theorem Keeps.readGroup (h : Keeps b s) {a n who remote} : Keeps b (s.readGroup a n who remote).2 := by
  unfold State.readGroup
  split
  · exact h.readRange
  · split
    · exact .snd h
    · exact h.readRange

theorem Keeps.updAppend (h : Keeps b s) {ch desc g} : Keeps b (s.updAppend ch desc g) := h.setChannel

theorem Keeps.readAppend (h : Keeps b s) {ch op remote} : Keeps b (s.readAppend ch op remote) := by
  unfold State.readAppend
  extract_lets w3 src first npairs ntok who fail
  have hfail : ∀ {u st}, Keeps b u → Keeps b (fail u st) := fun hu => hu.finishAppend
  split
  · rename_i e
    exact .of_snd e h.readRegion
  · rename_i r ws s1 e
    have hs1 : Keeps b s1 := .of_snd e h.readRegion
    extract_lets read outside
    have hcont : Keeps b (if r.cont = 0 then (none, s1) else s1.readRegion r.cont who).2 := by
      split
      · exact hs1
      · exact hs1.readRegion
    refine .ite (hfail hs1) (.ite (hfail hs1) (.ite (hfail hs1) (.ite (hfail hs1) (.ite (hfail hs1) (.ite hs1 ?_)))))
    generalize (if r.cont = 0 then (none, s1) else s1.readRegion r.cont who) = p at hcont
    obtain ⟨cont, s2⟩ := p
    have hs2 : Keeps b s2 := hcont
    exact .ite hs2 (.ite (hfail hs2) (.ite (hfail hs2) (.ite (hfail hs2) (.ite hs2.pastEnd
      (.ite hs2.readGroup hs2.readGroup.updAppend)))))

theorem Keeps.writeHenBytes (h : Keeps b s) {who ch h1 l data} : Keeps b (s.writeHenBytes who ch h1 l data).2 := by
  induction l generalizing s data with
  | nil => exact h
  | cons p rest ih =>
    rw [State.writeHenBytes]
    split
    · rename_i e
      exact ih (.of_snd e h.writePiece)
    · rename_i e
      exact .snd (.of_snd e h.writePiece)

theorem Keeps.writeAppendRow (h : Keeps b s) {ch op row} : Keeps b (s.writeAppendRow ch op row) := by
  unfold State.writeAppendRow
  split
  · extract_lets r n region first ended
    split
    · split
      · extract_lets s1
        split
        · exact h.countEvents.updAppend
        · split
          · rename_i s2 e4
            have hs2 : Keeps b s2 := .of_snd e4 h.countEvents.writeHenBytes
            exact hs2.towerWrap.updAppend
          · rename_i s2 e4
            have hs2 : Keeps b s2 := .of_snd e4 h.countEvents.writeHenBytes
            exact hs2.updAppend
          · rename_i s2 e5 e6 e7
            have hs2 : Keeps b s2 := .of_snd e7 h.countEvents.writeHenBytes
            exact hs2.updAppend

theorem Keeps.writeAppendRows (h : Keeps b s) {ch desc n} : Keeps b (State.writeAppendRows ch desc n s) := by
  induction n generalizing s with
  | zero => exact h
  | succ n ih =>
    rw [State.writeAppendRows]
    split
    · exact h
    · rename_i op _
      split
      · exact h
      · split
        · exact h.updAppend
        · rename_i row _
          have hu : Keeps b (s.unit op.core (.append ch desc) fun s => s.writeAppendRow ch op row) := h.unit fun _ hu =>
            hu.writeAppendRow
          exact .ite hu (ih hu)

theorem Keeps.performAppend (h : Keeps b s) {ch op remote} : Keeps b (s.performAppend ch op remote) :=
  .writeAppendRows (.ite h (h.unit (fun _ hu => hu.readAppend)))

theorem Keeps.acceptAppend (h : Keeps b s) {core d remote} : Keeps b (s.acceptAppend core d remote) := by
  unfold State.acceptAppend
  extract_lets w1 w2 w3 region fail op
  split
  · exact h.endDma.towerWrap
  · split
    · exact h.endDma.towerWrap
    · split
      · exact h.endDma.towerWrap
      · split
        · exact .ite h.endDma.towerWrap (.ite h.endDma.towerWrap (.ite h.endDma.towerWrap (.ite h.endDma.towerWrap (.ite h
            h.setChannel.performAppend))))
        · exact h.endDma.towerWrap

theorem keeps_execKvAppend (h : Keeps b s) {core remote} : KeepsNext b (execKvAppend core remote s) := by
  refine .next ?_
  have hs : Keeps b s.settleAnswers := h.settleAnswers
  dsimp only
  split
  · exact h
  · split
    · exact hs.performAppend
    · split
      · exact hs.acceptAppend
      · exact hs

theorem keeps_execKvAppendComplete (h : Keeps b s) {ch} : KeepsNext b (execKvAppendComplete ch s) := by
  unfold execKvAppendComplete
  refine .next ?_
  split
  · exact h
  · extract_lets st w3
    exact .ite (h.unit (fun u hu => by
      split
      · rename_i s1 e1
        have hs1 : Keeps b s1 := .of_snd e1 hu.readHome
        split
        · exact hs1
        · split
          · exact hs1.finishAppend
          · extract_lets w
            split
            · rename_i s2 e4
              have hs2 : Keeps b s2 := .of_snd e4 hs1.writeRegionWord
              exact hs2.finishAppend)) h.finishAppend

theorem keeps_execKvAnswerTimeout (h : Keeps b s) {ch} : KeepsNext b (execKvAnswerTimeout ch s) := by
  unfold execKvAnswerTimeout
  refine .next ?_
  split
  · exact h
  · split
    · exact h
    · exact h.unit (fun u hu => by
        extract_lets op
        split
        · rename_i s1 e2
          have hs1 : Keeps b s1 := .of_snd e2 hu.readPaused
          exact hs1.unpause.retire
        · rename_i s1 e2
          have hs1 : Keeps b s1 := .of_snd e2 hu.readPaused
          exact hs1)

theorem Keeps.setRouter (h : Keeps b s) {r v} : Keeps b (s.setRouter r v) := h.same

theorem Keeps.setShaft (h : Keeps b s) {r v} : Keeps b (s.setShaft r v) := h.same

theorem Keeps.enterRouter (h : Keeps b s) {r} : Keeps b (s.enterRouter r) := by
  unfold State.enterRouter
  extract_lets k t
  split
  · exact .ite h.setShaft.setRouter h
  · exact h

theorem Keeps.sentFlit (h : Keeps b s) {p} : Keeps b (s.sentFlit p) := h.same

theorem Keeps.fillShaft (h : Keeps b s) {r} : Keeps b (s.fillShaft r) := by
  unfold State.fillShaft
  extract_lets k
  split
  · exact h
  · split
    · exact h.setShaft.setShaft
    · split
      · exact h.setShaft.sentFlit
      · exact h

theorem Keeps.packetCame (h : Keeps b s) {f at_} : Keeps b (s.packetCame f at_) := by
  unfold State.packetCame
  split
  · split
    · exact h.send
    · exact h.send
    · exact h
  · split
    · exact h.same
    · split
      · split
        · exact h.answerDevice
        · exact h
      · exact h

theorem Keeps.landed (h : Keeps b s) {f at_} : Keeps b (s.landed f at_) := .ite h.same.packetCame h

theorem Keeps.leaveShaft (h : Keeps b s) {r} : Keeps b (s.leaveShaft r) := by
  unfold State.leaveShaft
  extract_lets k
  split
  · exact .ite h.setShaft h.setShaft.landed
  · exact h

theorem Keeps.carry (h : Keeps b s) {n} : Keeps b (s.carry n) := by
  induction n generalizing s with
  | zero => exact h
  | succ n ih =>
    have hstep : Keeps b (s.shaftsUsed.foldl (fun (s : State) r => ((s.leaveShaft r).fillShaft r).enterRouter r) s) :=
      h.foldl fun _ _ hu => hu.leaveShaft.fillShaft.enterRouter
    exact .ite h (ih hstep)

theorem Keeps.injectFlit (h : Keeps b s) {r p} : Keeps b (s.injectFlit r p) := h.setRouter.sentFlit

theorem Keeps.injectOwn (h : Keeps b s) {r} : Keeps b (s.injectOwn r) := by
  unfold State.injectOwn
  split
  · exact h.injectFlit
  · exact h

theorem Keeps.grantRouter (h : Keeps b s) {r} : Keeps b (s.grantRouter r) := by
  unfold State.grantRouter
  extract_lets port
  split
  · exact h
  · split
    · exact h.same.injectFlit
    · exact h

theorem Keeps.inject (h : Keeps b s) {r} : Keeps b (s.inject r) := h.grantRouter.foldl (fun _ _ hu => hu.injectOwn)

theorem Keeps.moveFlit (h : Keeps b s) {r out ch i} : Keeps b (s.moveFlit r out ch i) := by
  unfold State.moveFlit
  extract_lets k n
  split
  · exact h
  · exact .ite h.setRouter.setRouter (.ite h.setRouter.setShaft h.setRouter.landed)

theorem keeps_execFlitForward (h : Keeps b s) {router out carried} : KeepsNext b (execFlitForward router out carried s) := by
  unfold execFlitForward
  refine .next ?_
  split
  · exact h
  · extract_lets t
    split
    · exact h.combineAll.inject.carry.setRouter.moveFlit.carry.towerWrap
    · exact h

theorem Keeps.multicast (h : Keeps b s) {core d remote} : Keeps b (s.multicast core d remote) := by
  unfold State.multicast
  extract_lets ws n set size fail
  have hfail : ∀ {u st}, Keeps b u → Keeps b (fail u st) := fun hu => hu.endDma
  refine .ite (hfail h) (.ite (hfail h) (.ite (hfail h) (.ite (hfail h) ?_)))
  have hrec : Keeps b (if d.record.isSome then (d.record, s) else s.acceptRecord set (.dma core d.id)).2 := by
    split
    · exact h
    · exact h.acceptRecord
  generalize (if d.record.isSome then (d.record, s) else s.acceptRecord set (.dma core d.id)) = p at hrec
  obtain ⟨r, s1⟩ := p
  have hs1 : Keeps b s1 := hrec
  exact .ite hs1 (.ite (hfail hs1) (.ite (hfail hs1) (.ite (hfail hs1) (.ite hs1.readGroup
    (hs1.readGroup.same.post.foldl fun _ _ hu => hu.token.same)))))

theorem keeps_execMulticast (h : Keeps b s) {core remote} : KeepsNext b (execMulticast core remote s) := by
  unfold execMulticast
  refine .next ?_
  split
  · exact h
  · split
    · exact h.unit (fun _ hu => hu.multicast)
    · exact h

theorem keeps_execMulticastComplete (h : Keeps b s) {core} : KeepsNext b (execMulticastComplete core s) := by
  unfold execMulticastComplete
  refine .next ?_
  extract_lets s1 copies
  have hs1 : Keeps b s1 := .ite h.combineAll h
  split
  · exact hs1
  · exact hs1.same.endDma.towerWrap

theorem Keeps.dropLeaseOp (h : Keeps b s) {id} : Keeps b (s.dropLeaseOp id) := h.same

theorem Keeps.takeLeaseReply (h : Keeps b s) {id} : Keeps b (s.takeLeaseReply id) := by
  unfold State.takeLeaseReply
  split
  · exact .ite h h.dropLeaseOp.complete
  · exact h

theorem Keeps.replyLease (h : Keeps b s) {op st} : Keeps b (s.replyLease op st) := h.same.post.takeLeaseReply

theorem Keeps.acquireLease (h : Keeps b s) {op rec} : Keeps b (s.acquireLease op rec).2 := by
  unfold State.acquireLease
  extract_lets l s1
  split
  · exact .snd h
  · split
    · exact .snd h
    · split
      · split
        · exact .snd h.setLease
        · exact .snd h
      · split
        · rename_i s2 e3
          have hs2 : Keeps b s2 := h.reserveSlots e3
          exact .snd hs2.setLease
        · split
          · exact .snd h.towerSat.setLease
          · exact .snd h.towerSat

theorem keeps_execLeaseAcquire (h : Keeps b s) {id} : KeepsNext b (execLeaseAcquire id s) := by
  unfold execLeaseAcquire
  refine .next ?_
  split
  · exact h
  · exact .ite h (.ite h.takeLeaseReply (.ite h.dropLeaseOp.complete (.ite h.dropLeaseOp.complete (.ite h (h.unit (fun u hu => by
      split
      · rename_i s1 e1
        have hs1 : Keeps b s1 := by
          refine .of_snd e1 ?_
          split
          · exact .snd hu
          · exact hu.acceptRecord
        split
        · split
          · exact hs1
          · split
            · exact hs1.replyLease
            · split
              · rename_i s2 e5
                have hs2 : Keeps b s2 := .of_snd e5 hs1.acquireLease
                exact hs2.replyLease))))))

theorem keeps_execLeaseRelease (h : Keeps b s) {id} : KeepsNext b (execLeaseRelease id s) := by
  unfold execLeaseRelease
  refine .next ?_
  split
  · exact h
  · exact .ite h (.ite h.takeLeaseReply (.ite h.dropLeaseOp.complete (.ite h h.freeSlots.setLease.replyLease)))

theorem Keeps.joinRound (h : Keeps b s) {l c bad} : Keeps b (s.joinRound l c bad) := h.same.setLease

theorem Keeps.reduce (h : Keeps b s) {core d remote} : Keeps b (s.reduce core d remote) := by
  unfold State.reduce
  extract_lets ws l lease n fail
  have hfail : ∀ {u st}, Keeps b u → Keeps b (fail u st) := fun hu => hu.endDma
  refine .ite (hfail h) (.ite (hfail h) (.ite (hfail h) (.ite (hfail h) (.ite (hfail h) ?_))))
  exact .ite (.ite h (hfail h)) (.ite h (.ite h.joinRound (.ite (hfail h) (.ite h.readGroup (.ite h.readGroup.joinRound
    (.ite h.readGroup.writeRange.joinRound h.readGroup.joinRound))))))

theorem keeps_execReduce (h : Keeps b s) {core remote} : KeepsNext b (execReduce core remote s) := by
  unfold execReduce
  refine .next ?_
  split
  · exact h
  · extract_lets under busy
    split
    · exact h.unit (fun _ hu => hu.reduce)
    · exact h

theorem Keeps.deliverRound (h : Keeps b s) {ws c result token prod who} : Keeps b (s.deliverRound ws c result token prod who).2 := by
  unfold State.deliverRound
  extract_lets root a inRoot
  split
  · split
    · exact .snd h.sendSync
    · exact .snd h
  · split
    · exact .snd h
    · split
      · exact .snd h
      · split
        · rename_i s1 e3
          have hs1 : Keeps b s1 := .of_snd e3 h.writeRange
          exact .snd hs1

theorem Keeps.finishRound (h : Keeps b s) {l r c p who} : Keeps b (s.finishRound l r c p who) := by
  unfold State.finishRound
  extract_lets lease root prod
  split
  · exact h.setLease
  · split
    · rename_i s1 e1
      have hs1 : Keeps b s1 := .of_snd e1 h.deliverRound
      exact hs1.setLease

theorem Keeps.postPartial (h : Keeps b s) {lease router serial n} : Keeps b (s.postPartial lease router serial n) := by
  unfold State.postPartial
  split
  · exact h
  · exact h.post

theorem keeps_execRedPartial (h : Keeps b s) {l router} : KeepsNext b (execRedPartial l router s) := by
  unfold execRedPartial
  refine .next ?_
  extract_lets lease
  split
  · exact h
  · split
    · exact h
    · split
      · exact h
      · split
        · exact h
        · exact .ite (h.unit (fun _ hu => hu.towerWrap.finishRound)) h.towerWrap.setLease.postPartial

theorem keeps_execFallbackMerge (h : Keeps b s) {l} : KeepsNext b (execFallbackMerge l s) := by
  unfold execFallbackMerge
  refine .next ?_
  extract_lets lease root merger engine
  split
  · exact h
  · split
    · exact h
    · exact .ite h (h.unit (fun u hu => by
        split
        · rename_i s1 e2
          have hs1 : Keeps b s1 := .of_thd e2 hu.readSpans
          exact .ite hs1 (.ite hs1.setLease hs1.towerWrap.towerWrap.finishRound)))

theorem Keeps.endForward (h : Keeps b s) {l} : Keeps b (s.endForward l) :=
  h.foldl (fun _ _ hu => .ite (.ite hu.unbindGroup hu.setGroupLease) hu)

theorem Keeps.tellGroup (h : Keeps b s) {l st} : Keeps b (s.tellGroup l st) := by
  unfold State.tellGroup
  split
  · exact .ite (h.foldl (fun _ _ hu => .ite hu hu.send)) h
  · exact h

theorem Keeps.settleGroup (h : Keeps b s) {l} : Keeps b (s.settleGroup l) := by
  unfold State.settleGroup
  split
  · exact .ite h.unbindGroup h
  · exact h

theorem keeps_execRedDone (h : Keeps b s) {l remote} : KeepsNext b (execRedDone l remote s) := by
  unfold execRedDone
  refine .next ?_
  extract_lets s1 lease
  split
  · exact .ite h.reachEnds.endForward h.reachEnds
  · split
    · exact h.reachEnds
    · exact .ite h.reachEnds (.ite h.reachEnds.tellGroup.endRound.settleGroup.towerWrap h.reachEnds.tellGroup.endRound.settleGroup)

theorem keeps_execRoundTimeout (h : Keeps b s) {l} : KeepsNext b (execRoundTimeout l s) := by
  unfold execRoundTimeout
  refine .next ?_
  split
  · exact h
  · exact .ite h h.tellGroup.endRound.settleGroup.towerSat

theorem Keeps.releaseObj (h : Keeps b s) {o} : Keeps b (s.releaseObj o) := h.broadcast.towerWrap

theorem Keeps.replySync (h : Keeps b s) {id reply} : Keeps b (s.replySync id reply) := h.same.postSync

theorem keeps_execObjectAdd (h : Keeps b s) {id} : KeepsNext b (execObjectAdd id s) := by
  unfold execObjectAdd
  refine .next ?_
  split
  · exact h
  · exact .replySync (.ite (.releaseObj (.setSyncObj (.ite h.towerSat h))) (.setSyncObj (.ite h.towerSat h)))

theorem keeps_execObjectWait (h : Keeps b s) {id} : KeepsNext b (execObjectWait id s) := by
  unfold execObjectWait
  refine .next ?_
  split
  · exact h
  · exact .ite h.replySync h.setSyncObj.replySync

theorem keeps_execObjectRead (h : Keeps b s) {id} : KeepsNext b (execObjectRead id s) := by
  unfold execObjectRead
  refine .next ?_
  split
  · exact h
  · exact h.replySync

theorem keeps_execObjectArm (h : Keeps b s) {id} : KeepsNext b (execObjectArm id s) := by
  unfold execObjectArm
  refine .next ?_
  split
  · exact h
  · exact .replySync (.ite h.setSyncObj.releaseObj h.setSyncObj)

theorem Keeps.dropSync (h : Keeps b s) {id} : Keeps b (s.dropSync id) := h.same

theorem Keeps.giveSync (h : Keeps b s) {m st v} : Keeps b (s.giveSync m st v) := by
  unfold State.giveSync
  extract_lets s1
  split
  · exact h.dropSync.send
  · exact h.dropSync.answerLoad
  · exact .ite h.dropSync h.dropSync.complete
  · exact h.dropSync.complete

theorem keeps_execSyncRsp (h : Keeps b s) {id remote} : KeepsNext b (execSyncRsp id remote s) := by
  unfold execSyncRsp
  refine .next ?_
  split
  · exact h
  · split
    · exact h
    · split
      · exact h.giveSync
      · split
        · exact .ite h.giveSync h
        · split
          · exact h.giveSync
          · split
            · exact h.giveSync
            · exact h

theorem Keeps.releaseAll (h : Keeps b s) {object st} : Keeps b (s.releaseAll object st) := h.same

theorem Keeps.startRamp (h : Keeps b s) {f} : Keeps b (s.startRamp f) := .ite h h.setField.towerSat

theorem Keeps.wakeCluster (h : Keeps b s) {cluster object st} : Keeps b (s.wakeCluster cluster object st) := by
  unfold State.wakeCluster
  exact (h.foldl (fun _ _ hu => hu.foldl (fun u1 x hu1 => by
    split
    · split
      · exact .ite hu1.complete hu1
      · exact hu1))).foldl (fun u e1 hu => by
    split
    · exact hu.completeRing
    · exact hu)

theorem keeps_execRelease (h : Keeps b s) {cluster object remote} : KeepsNext b (execRelease cluster object remote s) := by
  unfold execRelease
  refine .next ?_
  split
  · exact h
  · split
    · exact .ite h h.releaseAll
    · split
      · exact h
      · exact .ite h h.same.wakeCluster.startRamp

theorem Keeps.runDma (h : Keeps b s) {core mode work} (hwork : ∀ u d, Keeps b u → Keeps b (work u d)) :
    Keeps b (s.runDma core mode work) := by
  unfold State.runDma
  split
  · exact h
  · split
    · rename_i d _
      refine h.units fun u v hu e => ?_
      dsimp only at e
      split at e
      · cases e; exact hwork u d hu
      · cases e
    · exact h

theorem Keeps.addCopyRecord (h : Keeps b s) {r} : Keeps b (s.addCopyRecord r) := h.setCopyRecords

theorem Keeps.noteCopy (h : Keeps b s) {dst len src pattern} : Keeps b (s.noteCopy dst len src pattern) := by
  unfold State.noteCopy
  extract_lets a
  split
  · exact .ite h.addCopyRecord h
  · exact .ite h.addCopyRecord h
  · exact h

theorem Keeps.advance (h : Keeps b s) {who prod dst reads r used} : Keeps b (s.advance who prod dst reads r used).2 := by
  unfold State.advance
  extract_lets lines s1
  split
  · split
    · exact .snd h
    · exact .snd (.ite (h.askWrites.foldl (fun _ _ hu => hu.ask)) h.askWrites)

theorem Keeps.writeGroup (h : Keeps b s) {a bytes prod ack who} : Keeps b (s.writeGroup a bytes prod ack who).2 := by
  unfold State.writeGroup
  extract_lets dev asked
  split
  · exact .snd h
  · split
    · exact h.writeRange
    · split
      · exact .snd (.ite h h.send)
      · exact h.writeRange

theorem Keeps.copyWork (h : Keeps b s) {core remote ack d} : Keeps b (s.copyWork core remote ack d) := by
  unfold State.copyWork
  extract_lets ws n src dst st who ended reads used
  split
  · exact h.endDma
  · split
    · exact h.endDma
    · split
      · exact h.endDma
      · split
        · split
          · rename_i s1 e4
            have hs1 : Keeps b s1 := .of_snd e4 h.advance
            exact .ite hs1 (.endDma (.ite hs1.noteCopy hs1))
        · split
          · rename_i s1 e4
            have hs1 : Keeps b s1 := .of_snd e4 h.readGroup
            split
            · exact hs1
            · split
              · rename_i s2 e6
                have hs2 : Keeps b s2 := .of_snd e6 hs1.writeGroup
                exact .ite hs2 (.endDma (.ite hs2.noteCopy hs2))

theorem keeps_execCopy (h : Keeps b s) {core remote ack} : KeepsNext b (execCopy core remote ack s) :=
  .next (h.runDma (fun _ _ hu => hu.copyWork))

theorem Keeps.writeSome (h : Keeps b s) {who free a prod ack data taint} : Keeps b (s.writeSome who free a prod ack data taint) :=
  h.foldl (fun _ _ hu => .ite hu.writeGroup hu)

theorem Keeps.skewWork (h : Keeps b s) {core remote ack d} : Keeps b (s.skewWork core remote ack d) := by
  unfold State.skewWork
  extract_lets ws x src dst srcScale dstScale who st mask el
  split
  · exact h.endDma
  · split
    · exact h.endDma
    · split
      · exact h.endDma
      · split
        · rename_i s1 e3
          have hs1 : Keeps b s1 := by
            refine .of_snd e3 ?_
            split
            · exact .snd h
            · exact h.readGroup
          split
          · exact hs1
          · split
            · rename_i s2 e5
              have hs2 : Keeps b s2 := by
                refine .of_snd e5 ?_
                split
                · exact .snd hs1
                · exact hs1.readRange
              split
              · exact hs2
              · split
                · split
                  · rename_i s3 e8
                    have hs3 : Keeps b s3 := .of_snd e8 hs2.writeGroup
                    split
                    · rename_i s4 e9
                      have hs4 : Keeps b s4 := by
                        refine .of_snd e9 ?_
                        split
                        · exact hs3.writeRange
                        · exact .snd hs3
                      exact .ite hs4 hs4.endDma
                · exact hs2.writeSome.writeSome.endDma

theorem keeps_execSkew (h : Keeps b s) {core remote ack} : KeepsNext b (execSkew core remote ack s) :=
  .next (h.runDma (fun _ _ hu => hu.skewWork))

theorem Keeps.fillWork (h : Keeps b s) {core ack d} : Keeps b (s.fillWork core ack d) := by
  unfold State.fillWork
  extract_lets ws n dst st
  split
  · exact h.endDma
  · split
    · exact h.endDma
    · split
      · exact h.endDma
      · split
        · rename_i s1 e3
          have hs1 : Keeps b s1 := .of_snd e3 h.writeGroup
          exact .ite hs1 (.endDma (.ite hs1.noteCopy hs1))

theorem keeps_execFill (h : Keeps b s) {core ack} : KeepsNext b (execFill core ack s) :=
  .next (h.runDma (fun _ _ hu => hu.fillWork))

theorem Keeps.gatherWork (h : Keeps b s) {core remote ack d} : Keeps b (s.gatherWork core remote ack d) := by
  unfold State.gatherWork
  extract_lets ws n size base who count dst st g used reads __src t
  split
  · exact h.endDma
  · split
    · exact h.endDma
    · split
      · exact h.endDma
      · split
        · exact h.endDma
        · split
          · split
            · rename_i s1 e5
              have hs1 : Keeps b s1 := .of_snd e5 h.advance
              exact .ite hs1 hs1.endDma
          · split
            · exact h.advance
            · split
              · rename_i s1 e6
                have hs1 : Keeps b s1 := .of_snd e6 h.advance.writeGroup
                exact hs1.endDma

theorem keeps_execGather (h : Keeps b s) {core remote ack} : KeepsNext b (execGather core remote ack s) :=
  .next (h.runDma (fun _ _ hu => hu.gatherWork))

theorem keeps_execDmaComplete (h : Keeps b s) {core} : KeepsNext b (execDmaComplete core s) := by
  unfold execDmaComplete
  refine .next ?_
  split
  · exact h
  · split
    · exact h.setCore.complete
    · exact h

theorem Keeps.scrubWork (h : Keeps b s) {core d} : Keeps b (s.scrubWork core d) :=
  .ite h.endDma (.ite h.endDma (.ite h.endDma (.ite h.endDma h.setChannel)))

theorem keeps_execScrub (h : Keeps b s) {core} : KeepsNext b (execScrub core s) := by
  unfold execScrub
  refine .next ?_
  extract_lets taken
  split
  · exact .ite h.scrubWork h
  · exact h

theorem keeps_execScrubComplete (h : Keeps b s) {ch} : KeepsNext b (execScrubComplete ch s) := by
  unfold execScrubComplete
  refine .next ?_
  extract_lets c
  split
  · exact .ite h (h.unit (fun u hu => by
      split
      · rename_i s1 e1
        have hs1 : Keeps b s1 := .of_snd e1 hu.setChannel.writeRange
        exact hs1.endDma))
  · exact h

theorem Keeps.refetchLine (h : Keeps b s) {line r remote} : Keeps b (s.refetchLine line r remote).2 := by
  unfold State.refetchLine
  split
  · exact .snd h
  · exact h.readGroup

theorem keeps_execRefetchComplete (h : Keeps b s) {refetch} : KeepsNext b (execRefetchComplete refetch s) := by
  unfold execRefetchComplete
  exact .next (.ite h (h.unit (fun u hu => by
    split
    · exact hu.endRecovery
    · split
      · rename_i s1 e1
        have hs1 : Keeps b s1 := .of_snd e1 hu.refetchLine
        exact .ite hs1 (.ite hs1.endRecovery hs1.poke.setCrc.endRecovery))))

theorem keeps_execSramRerunStart (h : Keeps b s) {cluster entry} : KeepsNext b (execSramRerunStart cluster entry s) := by
  unfold execSramRerunStart
  refine .next ?_
  extract_lets waiting
  split
  · exact h
  · split
    · exact h
    · split
      · exact h.startThread.updRerun.withMem
      · exact h

theorem keeps_execRerunTimeout (h : Keeps b s) {entry} : KeepsNext b (execRerunTimeout entry s) := .next (.ite h.endRerun h)

theorem keeps_execLaneSuspectWindow (h : Keeps b s) {ch} : KeepsNext b (execLaneSuspectWindow ch s) :=
  .next (.ite h h.rollLanes.refreshReplace)

theorem Keeps.membership (h : Keeps b s) {device} : Keeps b (s.membership device) := .ite h (.ite h.send (.ite h.same h))

theorem keeps_execMembership (h : Keeps b s) {device} : KeepsNext b (execMembership device s) := .next h.membership

theorem Keeps.publishMembers (h : Keeps b s) {members} : Keeps b (s.publishMembers members) := h.setReg.setReg.same.sendMembers

theorem keeps_execMembershipWindowEnd (h : Keeps b s) : KeepsNext b (execMembershipWindowEnd s) :=
  .next (.ite h (.ite h.same.publishMembers h.same))

theorem keeps_execMembershipRetry (h : Keeps b s) : KeepsNext b (execMembershipRetry s) := .next (.ite h h.askMembers)

theorem Keeps.endSyncs (h : Keeps b s) {which st} : Keeps b (s.endSyncs which st) := h.same

theorem Keeps.breakGroups (h : Keeps b s) {removed} : Keeps b (s.breakGroups removed) :=
  h.foldl (fun _ _ hu => .ite (.ite (.unbindGroup (.ite hu.setGroupLease.setReg.endRound hu.setGroupLease.setReg)) (.ite
    hu.setGroupLease.setReg.endRound hu.setGroupLease.setReg)) hu)

theorem Keeps.removeDevices (h : Keeps b s) {removed} : Keeps b (s.removeDevices removed) :=
  .breakGroups (.ite (.foldl (.ite (h.same.endSyncs.foldl (fun _ _ hu => hu.giveSync)) h.same.endSyncs.endSyncs) (fun _ _ hu =>
    hu.wakeCluster)) (.same (.ite (h.same.endSyncs.foldl (fun _ _ hu => hu.giveSync)) h.same.endSyncs.endSyncs)))

theorem Keeps.memberBitmap (h : Keeps b s) {members} : Keeps b (s.memberBitmap members) :=
  .ite h (.removeDevices (.ite h.setReg (.ite h.setReg.setReg.same h.setReg.setReg)))

theorem keeps_execMemberBitmap (h : Keeps b s) {members} : KeepsNext b (execMemberBitmap members s) := .next h.memberBitmap

theorem keeps_execMemberTimeout (h : Keeps b s) {device} : KeepsNext b (execMemberTimeout device s) :=
  .next (.ite h h.same.publishMembers.raise.sat32.removeDevices)

theorem keeps_execLglReqTimeout (h : Keeps b s) {id} : KeepsNext b (execLglReqTimeout id s) := by
  unfold execLglReqTimeout
  refine .next ?_
  extract_lets limit
  split
  · exact .ite h h.updReq.sat32
  · split
    · exact .ite h (.ite h.giveSync.sat32 h.endSyncs.sat32)
    · exact h

theorem Keeps.sendFrame (h : Keeps b s) {p frame} : Keeps b (s.sendFrame p frame) := h.send

theorem Keeps.sendIdentity (h : Keeps b s) {p} : Keeps b (s.sendIdentity p) := h.sendFrame

theorem Keeps.setPort (h : Keeps b s) {p v} : Keeps b (s.setPort p v) := h.same

theorem Keeps.portTrained (h : Keeps b s) {p} : Keeps b (s.portTrained p) := h.setPort.sendIdentity

theorem keeps_execPortTrained (h : Keeps b s) {p} : KeepsNext b (execPortTrained p s) := .next (.ite h h.portTrained)

theorem keeps_execIdentityFrame (h : Keeps b s) {p device shape peer} : KeepsNext b (execIdentityFrame p device shape peer s) := by
  unfold execIdentityFrame
  refine .next ?_
  split
  · exact h
  · split
    · exact h
    · exact .ite h.setPortState h.setPortState.raise

theorem Keeps.passFlit (h : Keeps b s) {port f} : Keeps b (s.passFlit port f) := h.setPort

theorem Keeps.beginRetrain (h : Keeps b s) {p} : Keeps b (s.beginRetrain p) := by
  unfold State.beginRetrain
  extract_lets k s1 dir
  have hs1 : Keeps b s1 := h.setPortState.sat32
  clear_value s1
  split
  · exact hs1.setPort
  · exact Keeps.foldl (Keeps.foldlOn Prod.fst (hs1.setPort.foldl fun _ _ hu => hu.setPort) fun _ _ hy => hy.passFlit)
      fun _ _ hu => hu.setPort

theorem Keeps.replay (h : Keeps b s) {p} : Keeps b (s.replay p) :=
  .ite h (.ite (h.foldl (fun _ _ hu => hu.sendFrame)).setPort.sat32.beginRetrain (h.foldl (fun _ _ hu =>
    hu.sendFrame)).setPort.sat32)

theorem Keeps.takeAck (h : Keeps b s) {p frame} : Keeps b (s.takeAck p frame) := .ite h.setPort.replay h.setPort

theorem Keeps.creditSlot (h : Keeps b s) {p vc waits} : Keeps b (s.creditSlot p vc waits) := h.setPort

theorem Keeps.linkAnswer (h : Keeps b s) {entry dev core tag st data} : Keeps b (s.linkAnswer entry dev core tag st data) := by
  unfold State.linkAnswer
  split
  · exact h
  · extract_lets n s1
    split
    · exact h.updReq.post
    · exact h.updReq

theorem Keeps.linkSyncAnswer (h : Keeps b s) {entry dev core tag st v} : Keeps b (s.linkSyncAnswer entry dev core tag st v) := by
  unfold State.linkSyncAnswer
  split
  · exact h
  · extract_lets put s1
    split
    · exact h.same.post
    · exact h.same

theorem Keeps.groupRelease (h : Keeps b s) {object st} : Keeps b (s.groupRelease object st) := .ite h h.releaseAll

theorem Keeps.holdRequest (h : Keeps b s) {device value} : Keeps b (s.holdRequest device value) := .ite h h.same

theorem Keeps.applyTargets (h : Keeps b s) : Keeps b (s.applyTargets) := by
  unfold State.applyTargets
  extract_lets tick __src
  split
  · exact h
  · exact h.same.setReg

theorem Keeps.holdTarget (h : Keeps b s) {target tick apply} : Keeps b (s.holdTarget target tick apply) :=
  .ite h (.applyTargets (.ite h.setReg.same.setReg h.setReg.same))

theorem Keeps.notice (h : Keeps b s) {device n} : Keeps b (s.notice device n) := by
  unfold State.notice
  split
  · exact h
  · cases n with
    | completion record vector =>
      cases record <;> cases vector
      · exact h
      · exact h.sendMsix
      · exact h.send
      · exact h.send.sendMsix
    | event => exact h.setFlags.same

theorem Keeps.groupFreeze (h : Keeps b s) {source} : Keeps b (s.groupFreeze source) :=
  .ite h (.ite h.setFlags.beginFreeze (.ite h.setFlags.beginFreeze.forwardFreeze h))

theorem Keeps.acceptPacket (h : Keeps b s) {p c data} : Keeps b (s.acceptPacket p c data) := by
  unfold State.acceptPacket
  extract_lets dev core aux addr st tag door enter kind
  have henter : ∀ {k}, Keeps b (enter k) := h.sendReq
  clear_value kind
  split
  · exact h
  · split
    · exact henter
    · exact .ite henter henter
    · split
      · exact henter
      · exact h.send
    · exact h.sendSync
    · exact h.linkAnswer
    · exact h.linkAnswer
    · exact h.linkAnswer
    · exact h.linkSyncAnswer
    · exact h.groupRelease
    · exact h.holdRequest
    · exact h.holdTarget
    · exact .ite h.memberBitmap h.membership
    · exact .ite h.notice h.notice
    · exact h.groupFreeze
    · exact h

theorem Keeps.takeFlit (h : Keeps b s) {p f} : Keeps b (s.takeFlit p f).2 := by
  unfold State.takeFlit
  extract_lets inc c put here s1 kind n s2 tag s3
  split
  · split
    · exact .snd h.creditSlot.setPort
    · split
      · exact .snd h.creditSlot
      · split
        · exact .snd (.ite h.creditSlot.acceptPacket h.creditSlot.setPort)
        · split
          · exact .snd h.creditSlot.setPort.passFlit
          · exact .snd (.ite h.creditSlot.setPort.send (.ite h.creditSlot.setPort.send h.creditSlot.setPort))
  · dsimp only
    split
    · exact .ite h.creditSlot.setPort.passFlit h.creditSlot.setPort
    · exact .ite h.creditSlot.setPort.acceptPacket h.creditSlot.setPort

theorem keeps_execLglDataFrame (h : Keeps b s) {p frame} : KeepsNext b (execLglDataFrame p frame s) := by
  refine .next (.ite h (.ite (.setPort (.ite h h.sat32)) ?_))
  have hs {k} : Keeps b ((frameSlots frame).foldl (fun (a : Bool × State) f => (a.1 || (a.2.takeFlit p f).1, (a.2.takeFlit p f).2))
      (false, (s.setPort p k).takeAck p frame)).2 :=
    .foldlOn Prod.snd h.setPort.takeAck fun _ _ hy => .snd hy.takeFlit
  exact .ite hs.sat32 hs

theorem keeps_execLglIdleFrame (h : Keeps b s) {p frame} : KeepsNext b (execLglIdleFrame p frame s) :=
  .next (.ite h (.ite h.sat32 h.takeAck))

theorem Keeps.sendPacket (h : Keeps b s) {m} : Keeps b (s.sendPacket m) := by
  unfold State.sendPacket
  split
  · exact h.foldl (fun _ _ hu => hu.passFlit)
  · exact .ite h.linkSyncAnswer (.ite h.linkAnswer h)

theorem Keeps.formPackets (h : Keeps b s) : Keeps b (s.formPackets) := by
  unfold State.formPackets
  exact h.same.foldl (fun u o1 hu => by
    split
    · exact hu.foldl (fun _ _ hu1 => hu1.sendPacket)
    · exact hu)

theorem keeps_execAckReport (h : Keeps b s) {p own} : KeepsNext b (execAckReport p own s) :=
  .next (.ite h (.ite h.formPackets.sendFrame.setPort h.formPackets.sendFrame.setPort.wrap64))

theorem keeps_execLglReplayTimer (h : Keeps b s) {p} : KeepsNext b (execLglReplayTimer p s) := .next (.ite h h.replay)

theorem keeps_execLglRetrain (h : Keeps b s) {p trained} : KeepsNext b (execLglRetrain p trained s) :=
  .next (.ite h (.ite h.portTrained (.ite h.setPort.setPortState.raise h.setPort)))

theorem keeps_execGroupMerge (h : Keeps b s) {n children} : KeepsNext b (execGroupMerge n children s) := by
  unfold execGroupMerge
  refine .next ?_
  extract_lets g own lease kids isLocal rootKey round first localPart sent parts bad types sizes agree st
  split
  · exact h
  · split
    · exact .ite h.tellGroup h
    · split
      · extract_lets s1 upd s2
        have hs2 : Keeps b s2 := by
          unfold s2
          split
          · exact h.towerWrap.setLease
          · exact h.towerWrap.setGroupLease
        split
        · exact hs2
        · split
          · exact hs2.send
          · exact hs2

theorem keeps_execPaceRequestSend (h : Keeps b s) : KeepsNext b (execPaceRequestSend s) :=
  .next (.ite h.setReg (.ite h.setReg.same (.ite h.setReg h.setReg.same.send)))

theorem keeps_execPaceRequest (h : Keeps b s) {device value} : KeepsNext b (execPaceRequest device value s) := .next h.holdRequest

theorem keeps_execBellwetherWindow (h : Keeps b s) : KeepsNext b (execBellwetherWindow s) :=
  .next (.ite h (.ite h.setReg h.setReg.same.sendMembers))

theorem keeps_execPaceTarget (h : Keeps b s) {target tick apply} : KeepsNext b (execPaceTarget target tick apply s) :=
  .next h.holdTarget

theorem keeps_execApplyTick (h : Keeps b s) : KeepsNext b (execApplyTick s) := .next h.applyTargets

theorem keeps_execGtickEdge (h : Keeps b s) : KeepsNext b (execGtickEdge s) := .next h.same.wrap64.setReg

theorem keeps_execGtickLoss (h : Keeps b s) : KeepsNext b (execGtickLoss s) := .next (.ite h h.setReg.raise)

theorem keeps_execOrphanTimeout (h : Keeps b s) : KeepsNext b (execOrphanTimeout s) := .next (.ite h h.setReg.raise)

theorem keeps_execFreezePacket (h : Keeps b s) {source} : KeepsNext b (execFreezePacket source s) := .next h.groupFreeze

theorem Keeps.runBind (h : Keeps b s) {action work} (hwork : ∀ u d, Keeps b u → Keeps b (work u d).2) :
    Keeps b (s.runBind action work) := by
  unfold State.runBind
  split
  · rename_i d _
    split
    · exact h
    · split
      · rename_i e
        exact Keeps.complete (.same (.of_snd e (hwork s d h)))
      · rename_i e
        exact .of_snd e (hwork s d h)
  · exact h

theorem Keeps.bindWork (h : Keeps b s) {b1} : Keeps b (s.bindWork b1).2 := by
  unfold State.bindWork
  extract_lets w1 q at_ a
  split
  · exact .snd h
  · split
    · exact .snd h
    · split
      · exact .snd h
      · split
        · exact .snd h
        · split
          · rename_i s1 e4
            have hs1 : Keeps b s1 := .of_snd e4 h.checkSram
            exact .snd hs1
          · rename_i s1 e4
            have hs1 : Keeps b s1 := .of_snd e4 h.checkSram
            exact .snd hs1
          · rename_i s1 e4
            have hs1 : Keeps b s1 := .of_snd e4 h.checkSram
            extract_lets words __src
            split
            · exact .snd hs1
            · exact .snd hs1.same

theorem keeps_execStreamBind (h : Keeps b s) : KeepsNext b (execStreamBind s) := .next (h.runBind fun _ _ hu => hu.bindWork)

theorem Keeps.unbindWork (h : Keeps b s) {b1} : Keeps b (s.unbindWork b1).2 := by
  unfold State.unbindWork
  split
  · exact .snd h
  · exact .snd h.same

theorem keeps_execStreamUnbind (h : Keeps b s) : KeepsNext b (execStreamUnbind s) := .next (h.runBind fun _ _ hu => hu.unbindWork)

theorem keeps_execLaneLock (h : Keeps b s) {n} : KeepsNext b (execLaneLock n s) := .next (.ite h.setLink h)

theorem keeps_execLinkDeskewed (h : Keeps b s) {n} : KeepsNext b (execLinkDeskewed n s) := .next (.ite h.setLink h)

theorem Keeps.noteSeq (h : Keeps b s) {n seq} : Keeps b (s.noteSeq n seq) := h.setLink.foldl (fun _ _ hu => hu.sendControl)

theorem keeps_execDeclare (h : Keeps b s) {n bs} : KeepsNext b (execDeclare n bs s) :=
  .next (.ite h (.ite h.setLink (.ite h (.ite h.noteSeq (.sendControl (.refreshHold (.ite h.noteSeq.setLink h.noteSeq.setLink)))))))

theorem keeps_execHreqSwitch (h : Keeps b s) {n} : KeepsNext b (execHreqSwitch n s) := by
  unfold execHreqSwitch
  refine .next ?_
  extract_lets l
  split
  · exact .ite h.setLink h
  · exact h

theorem keeps_execLaneLockLoss (h : Keeps b s) {n frame} : KeepsNext b (execLaneLockLoss n frame s) := by
  refine .next ?_
  cases frame with
  | none => exact .ite h h.setLink.refreshHold
  | some f => exact .ite h h.noteSeq.dropFrame.setLink.refreshHold

theorem Keeps.arrive (h : Keeps b s) {n h1 payload spoiled} : Keeps b (s.arrive n h1 payload spoiled) := by
  unfold State.arrive
  extract_lets fallback now
  split
  · split
    · rename_i s1 e1
      have hs1 : Keeps b s1 := by
        refine .of_snd e1 ?_
        split
        · exact h.token
        · exact .snd h
      exact .ite hs1.dropFrame (.ite hs1.placeFrame (.ite hs1.dropFrame hs1.same))

theorem keeps_execDataFrame (h : Keeps b s) {n bs spoiled} : KeepsNext b (execDataFrame n bs spoiled s) :=
  .next (.ite h (.ite h.setLink (.ite h (.ite h.noteSeq.setLink.dropFrame (.ite h.noteSeq.setLink.dropFrame (.ite
    h.noteSeq.setLink.dropFrame h.noteSeq.setLink.arrive))))))

theorem Keeps.freeRing (h : Keeps b s) {n} : Keeps b (s.freeRing n) := h.setLink.refreshHold

theorem Keeps.pushFrames (h : Keeps b s) {n fuel} : Keeps b (s.pushFrames n fuel) := by
  induction fuel generalizing s with
  | zero => exact h
  | succ fuel ih =>
    unfold State.pushFrames
    split
    · exact h
    · rename_i f _
      split
      · exact h
      · extract_lets t
        have ht : Keeps b t := h.withPush fun u r hu => by
          have hu1 : Keeps b (if f.triedAt.isSome then u.wrap64 0xB902 1 1 else u) := .ite hu.wrap64 hu
          exact .ite hu1.updFrame (.ite hu1.updFrame.dropFrame.freeRing hu1.updFrame)
        exact .ite ht (ih ht)

theorem keeps_execSlotWriteComplete (h : Keeps b s) {n} : KeepsNext b (execSlotWriteComplete n s) := by
  unfold execSlotWriteComplete
  refine .next ?_
  split
  · exact h
  · split
    · exact h
    · extract_lets bytes waits t
      have ht : Keeps b t := h.unit (fun u hu => by
          split
          · rename_i s1 e2
            have hs1 : Keeps b s1 := .of_snd e2 hu.writeRange
            exact hs1.updFrame
          · rename_i s1 e2 e3
            have hs1 : Keeps b s1 := .of_snd e3 hu.writeRange
            exact hs1.updFrame.dropFrame.freeRing)
      exact .ite ht ht.pushFrames

theorem keeps_execPushRetry (h : Keeps b s) {n} : KeepsNext b (execPushRetry n s) := .next (.ite h.pushFrames h)

theorem Keeps.sendFallback (h : Keeps b s) {n f cause} : Keeps b (s.sendFallback n f cause) := h.sendControl.countStream

theorem Keeps.answerFrame (h : Keeps b s) {n f st r} : Keeps b (s.answerFrame n f st r).2 := by
  unfold State.answerFrame
  split
  · rename_i s1 e
    have hs1 : Keeps b s1 := .of_snd e h.token
    extract_lets w valid
    split
    · exact .snd hs1.sendFallback
    · split
      · exact .snd hs1.sendControl.countStream
      · split
        · exact .snd hs1.sendFallback
        · split
          · exact .snd hs1.sendFallback
          · exact .snd hs1.sendFallback

theorem keeps_execVerdict (h : Keeps b s) {n} : KeepsNext b (execVerdict n s) := by
  unfold execVerdict
  refine .next ?_
  split
  · exact h
  · split
    · exact h
    · extract_lets st
      exact h.unit (fun u hu => by
        split
        · rename_i s1 e2
          have hs1 : Keeps b s1 := by
            refine .of_snd e2 ?_
            split
            · exact .snd hu
            · exact hu.readRange
          split
          · exact hs1
          · split
            · rename_i s2 e4
              have hs2 : Keeps b s2 := by
                refine .of_snd e4 ?_
                split
                · exact .snd hs1
                · exact hs1.answerFrame
              extract_lets s3
              split
              · exact hs2.updFrame.freeRing.endRing
              · exact hs2.updFrame.freeRing)

theorem keeps_execDeadlineExpiry (h : Keeps b s) {n} : KeepsNext b (execDeadlineExpiry n s) := by
  unfold execDeadlineExpiry
  refine .next ?_
  extract_lets due held __src
  split
  · exact h.updFrame.sendFallback
  · split
    · exact h.same.sendFallback
    · exact h

theorem keeps_execHoldStateTimer (h : Keeps b s) : KeepsNext b (execHoldStateTimer s) :=
  .next (.ite h (h.same.foldl (fun _ _ hu => .ite hu.sendControl hu)))

theorem Keeps.setPhaseState (h : Keeps b s) {t p v} : Keeps b (s.setPhaseState t p v) := h.same

theorem Keeps.notePhases (h : Keeps b s) {t samples} : Keeps b (s.notePhases t samples) :=
  h.foldl (fun _ _ hu => .ite hu.same (.ite hu.setPhaseState.same.setReg hu.setPhaseState.same))

theorem Keeps.storeTower (h : Keeps b s) {t p} : Keeps b (s.storeTower t p) :=
  ((h.foldl (fun _ _ hu => hu.setReg.same)).same.foldl (fun _ _ hu => hu.same)).setReg.same

theorem Keeps.runCap (h : Keeps b s) {level i} : Keeps b (s.runCap level i) :=
  .ite (.raise (.ite (.setReg (.ite (.sat32 (.ite (.setReg (.ite h.setReg.same.towerWrap h.setReg.same)) (.ite
    h.setReg.same.towerWrap h.setReg.same))) (.ite (.setReg (.ite h.setReg.same.towerWrap h.setReg.same)) (.ite
    h.setReg.same.towerWrap h.setReg.same)))) (.ite (.sat32 (.ite (.setReg (.ite h.setReg.same.towerWrap h.setReg.same)) (.ite
    h.setReg.same.towerWrap h.setReg.same))) (.ite (.setReg (.ite h.setReg.same.towerWrap h.setReg.same)) (.ite
    h.setReg.same.towerWrap h.setReg.same))))) (.ite (.setReg (.ite (.sat32 (.ite (.setReg (.ite h.setReg.same.towerWrap
    h.setReg.same)) (.ite h.setReg.same.towerWrap h.setReg.same))) (.ite (.setReg (.ite h.setReg.same.towerWrap h.setReg.same))
    (.ite h.setReg.same.towerWrap h.setReg.same)))) (.ite (.sat32 (.ite (.setReg (.ite h.setReg.same.towerWrap h.setReg.same))
    (.ite h.setReg.same.towerWrap h.setReg.same))) (.ite (.setReg (.ite h.setReg.same.towerWrap h.setReg.same)) (.ite
    h.setReg.same.towerWrap h.setReg.same))))

theorem Keeps.runCaps (h : Keeps b s) {i} : Keeps b (s.runCaps i) :=
  .foldl (.foldl (.ite (.ite h.setReg h) (.runCap (.ite h.setReg h))) (fun _ _ hu => hu.runCap)) (fun _ _ hu => .ite hu.setReg
    hu.setReg.runCap)

theorem Keeps.setHeaders (h : Keeps b s) {f h1} : Keeps b (s.setHeaders f h1) := h.setField

theorem Keeps.closeFirst (h : Keeps b s) {f interval} : Keeps b (s.closeFirst f interval) := h.setHeaders

theorem Keeps.stepTurnOn (h : Keeps b s) {before f} : Keeps b (s.stepTurnOn before f) := by
  unfold State.stepTurnOn
  split
  · exact .ite h.closeFirst (.ite h h.closeFirst)
  · exact .ite h.setHeaders h
  · exact h

theorem Keeps.dropLinkRails (h : Keeps b s) {holds} : Keeps b (s.dropLinkRails holds) := h.foldl (fun _ _ hu => hu.same)

theorem Keeps.linksDown (h : Keeps b s) : Keeps b (s.linksDown) :=
  ((h.foldl (fun _ _ hu => .ite hu hu.setPortState)).same.foldl (fun _ _ hu => hu.setLink)).refreshHolds

theorem Keeps.allFieldsOff (h : Keeps b s) : Keeps b (s.allFieldsOff) :=
  h.same.foldl (fun _ _ hu => .ite hu hu.setField.fieldDown.setServiceState.askTurnOff)

theorem Keeps.noteStop (h : Keeps b s) {old cause} : Keeps b (s.noteStop old cause) := .ite h.setReg.same h.setReg

theorem Keeps.controlledShutdown (h : Keeps b s) {tower detail} : Keeps b (s.controlledShutdown tower detail) :=
  .ite h (h.foldl (fun _ _ hu => hu.cutSegments)).allFieldsOff.linksDown.dropLinkRails.setReg.setReg.sat32.noteStop.raise

theorem Keeps.checkShared (h : Keeps b s) : Keeps b (s.checkShared) := h.foldl (fun _ _ hu => .ite hu.controlledShutdown hu)

theorem keeps_execPowerSample (h : Keeps b s) {samples i} : KeepsNext b (execPowerSample samples i s) := by
  refine .next (.ite h ?_)
  extract_lets peak p1 p2 s1 ofTower s2 ps s3 total out s4 p3 s5 s6 s7 s8 s9 p4 s10 s11 s12
  have hs1 : Keeps b s1 := h.same
  clear_value s1
  have hs2 : Keeps b s2 := hs1.foldl fun _ _ hu => hu.notePhases
  have hs3 : Keeps b s3 := hs2.foldl fun _ _ hu => hu.storeTower
  clear_value s3
  have hs9 : Keeps b s9 := (hs3.setReg.same.setReg.setReg.runCaps.foldl fun _ _ hu => hu.applyCap).foldl fun _ _ hu => hu.stepTurnOn
  clear_value s9
  exact hs9.same.checkShared.setReg.setReg

theorem Keeps.clearAccounts (h : Keeps b s) {t} : Keeps b (s.clearAccounts t) := h.same

theorem Keeps.attributeField (h : Keeps b s) {f accounts leak} : Keeps b (s.attributeField f accounts leak).2 := by
  unfold State.attributeField
  extract_lets v mine es idle model meas __src
  split
  · exact .snd h.setReg.same

theorem keeps_execAttribution (h : Keeps b s) {t accounts leak background} : KeepsNext b (execAttribution t accounts leak background s) := by
  refine .next (.ite h ?_)
  -- the kernel would count the unit's literal out
  obtain ⟨million, hm⟩ : ∃ n : Nat, 10 ^ 6 = n := ⟨_, rfl⟩
  rw [hm]
  extract_lets pw s1 mine s2
  have hs2 : Keeps b s2 := h.same.clearAccounts
  clear_value s2
  split
  rename_i s3 e
  have hs3 : Keeps b s3 := .of_snd e (Keeps.foldlOn Prod.snd hs2 fun y f hy => hy.attributeField)
  exact hs3.same

theorem keeps_execFieldTurnOn (h : Keeps b s) {f} : KeepsNext b (execFieldTurnOn f s) :=
  .next (.ite h (.ite (h.dropTurnOn.setField.foldl (fun _ _ hu => hu.setPhaseState)).setServiceState.setHeaders.setReg.towerSat
    (h.dropTurnOn.setField.foldl (fun _ _ hu => hu.setPhaseState)).setServiceState.closeFirst))

theorem keeps_execNeighbourWaitEnd (h : Keeps b s) {f} : KeepsNext b (execNeighbourWaitEnd f s) := by
  unfold execNeighbourWaitEnd
  refine .next ?_
  split
  · exact .ite h.closeFirst h
  · exact h

theorem keeps_execHeaderGroupClose (h : Keeps b s) {f} : KeepsNext b (execHeaderGroupClose f s) := by
  unfold execHeaderGroupClose
  refine .next ?_
  split
  · exact .ite h (.ite h.setHeaders h.setHeaders)
  · exact h

theorem keeps_execTurnOnSettled (h : Keeps b s) {f} : KeepsNext b (execTurnOnSettled f s) := by
  unfold execTurnOnSettled
  refine .next ?_
  split
  · exact .ite h h.setField.same.setReg.setServiceState
  · exact h

theorem Keeps.fieldDark (h : Keeps b s) {f} : Keeps b (s.fieldDark f) :=
  .ite h h.fieldDown.setServiceState.askTurnOff.setField.setReg.towerSat.raise.capacityChanged.noteDegraded.refreshReplace

theorem keeps_execTurnOnFail (h : Keeps b s) {f} : KeepsNext b (execTurnOnFail f s) := by
  unfold execTurnOnFail
  refine .next ?_
  split
  · exact .ite h h.setHeaders.fieldDark
  · exact h

theorem keeps_execFieldTurnOff (h : Keeps b s) {f} : KeepsNext b (execFieldTurnOff f s) := .next (.ite h.setField h)

theorem keeps_execHeaderOpen (h : Keeps b s) {f} : KeepsNext b (execHeaderOpen f s) := by
  unfold execHeaderOpen
  refine .next ?_
  split
  · exact .ite h h.setHeaders
  · exact .ite h h.setField
  · exact h

theorem Keeps.failPhase (h : Keeps b s) {t p code} : Keeps b (s.failPhase t p code) :=
  .ite h (.ite (.ite h.setPhaseState.towerSat.setReg.raise.refreshReplace.fieldDark
    h.setPhaseState.towerSat.setReg.raise.refreshReplace) (.ite
    h.setPhaseState.towerSat.setReg.raise.refreshReplace.controlledShutdown h.setPhaseState.towerSat.setReg.raise.refreshReplace))

theorem keeps_execPhaseFailure (h : Keeps b s) {t p code} : KeepsNext b (execPhaseFailure t p code s) := .next h.failPhase

theorem keeps_execCurrentLimitEntry (h : Keeps b s) {t p} : KeepsNext b (execCurrentLimitEntry t p s) := .next (.ite h.towerSat h)

theorem Stays.setSensor (h : Stays b s) {t n v} : Stays b (s.setSensor t n v) := ⟨h.pending, h.now, h.wf⟩

theorem Stays.sampleSensor (h : Stays b s) {t n r} : Stays b (s.sampleSensor t n r) :=
  .ite (h.setSensor.keep fun k => k.towerSat.setFlags.raise) h.setSensor

theorem Keeps.watchPair (h : Keeps b s) {t p} : Keeps b (s.watchPair t p) :=
  .ite (h.sameThermal (by rfl)).setFlags.raise (h.sameThermal (by rfl))

theorem Keeps.setLayers (h : Keeps b s) {f k} : Keeps b (s.setLayers f k) :=
  .ite (h.setField.sameThermal (by rfl)).setFlags (h.setField.sameThermal (by rfl))

theorem Keeps.thermalStep (h : Keeps b s) {f k temps} : Keeps b (s.thermalStep f k temps) :=
  .setReg (.ite (.setFlags (.ite (.setFlags (.ite h.setField.towerWrap h.setField)) (.ite h.setField.towerWrap h.setField))) (.ite
    (.setFlags (.ite h.setField.towerWrap h.setField)) (.ite h.setField.towerWrap h.setField)))

theorem Keeps.thermalField (h : Keeps b s) {f counts} : Keeps b (s.thermalField f counts) :=
  .setReg (.ite h.setLayers.setReg.setReg.thermalStep h.setLayers.setReg.setReg)

theorem stays_execThermalStep (h : Stays b s) {t readings counts coolantLow} :
    StaysNext b (execThermalStep t readings counts coolantLow s) := by
  refine .next (.ite h ?_)
  extract_lets th0 s1 s2 s3 now hist sum th s4 s5 th5 s6 rise th6 s7 s8 s9
  have hs1 : Stays b s1 := ⟨h.pending, h.now, h.wf⟩
  have hs2 : Stays b s2 := hs1.foldl fun _ _ hu => hu.sampleSensor
  have hs3 : Stays b s3 := hs2.keep fun k => k.foldl fun _ _ hu => hu.watchPair
  clear_value s3
  have hs4 : Stays b s4 := ⟨hs3.pending, hs3.now, hs3.wf⟩
  refine hs4.keep fun k => ?_
  clear_value s4
  have hs5 : Keeps s4 s5 := k.foldl fun _ _ hu => hu.thermalField
  clear_value s5
  have hs7 : Keeps s4 s7 := .ite ((hs5.sameThermal (by rfl)).sameThermal (by rfl)) (hs5.sameThermal (by rfl))
  have hs8 : Keeps s4 s8 := .ite hs7.coolantStop hs7
  clear_value s8
  have hs9 : Keeps s4 s9 := by
    unfold s9
    split
    · exact hs8.controlledShutdown
    · exact hs8
  exact hs9.updateHalts.refreshThermalState.setFlags

theorem keeps_execRthEstimate (h : Keeps b s) {t} : KeepsNext b (execRthEstimate t s) := 
  .next (.ite h (.ite (h.sameThermal (by rfl)) ((h.sameThermal (by rfl)).sameThermal (by rfl))))

theorem keeps_execThermalCapUpdate (h : Keeps b s) : KeepsNext b (execThermalCapUpdate s) :=
  .next (.ite h (.refreshThermalState (.ite (.ite ((h.sameThermal (by rfl)).setReg.sameThermal (by rfl)).setFlags.raise
    ((h.sameThermal (by rfl)).setReg.sameThermal (by rfl))) (.ite (h.sameThermal (by rfl)) ((h.sameThermal (by rfl)).setReg.sameThermal (by rfl))))))

theorem keeps_execTrayStale (h : Keeps b s) : KeepsNext b (execTrayStale s) := .next (.ite h.setFlags h)

theorem keeps_execColdBoot (h : Keeps b s) {tableOk} : KeepsNext b (execColdBoot tableOk s) :=
  .next (.ite h (.ite h.same.setReg h.same.setReg.setFlags))

theorem Keeps.loadSaved (h : Keeps b s) {v} : Keeps b (s.loadSaved v) := (h.foldl (fun _ _ hu => hu.setReg)).same.same

theorem Keeps.setStaticAddress (h : Keeps b s) : Keeps b (s.setStaticAddress) := .ite h.setReg h

theorem Keeps.bootWaves (h : Keeps b s) : Keeps b (s.bootWaves) := .ite h.startWaves.setReg h

theorem keeps_execImageLoad (h : Keeps b s) {savedOk} : KeepsNext b (execImageLoad savedOk s) := by
  refine .next ?_
  refine .ite h ?_
  extract_lets saved s1 flags found
  have hs1 : Keeps b s1 := h.same
  clear_value s1 found
  split
  · exact hs1.setReg.setReg
  · exact hs1.setReg.setReg.setReg.setReg.loadSaved.setStaticAddress.same.reformGroup.bootWaves

theorem Keeps.loseDram (h : Keeps b s) : Keeps b (s.loseDram) := by
  refine ⟨⟨h.pending, h.now, fun w => ?_⟩, h.sampled⟩
  obtain ⟨hcells, _, hcrc⟩ := (Memory.wf_iff _).mp (h.wf w)
  exact (Memory.wf_iff _).mpr ⟨Map.wf_filter _ _ _ hcells, rfl, hcrc⟩

theorem Keeps.countFailure (h : Keeps b s) {t} : Keeps b (s.countFailure t) := h.towerSat

theorem keeps_execChannelInitComplete (h : Keeps b s) {r} : KeepsNext b (execChannelInitComplete r s) :=
  .next (.ite h ((((h.loseDram.same.foldl (fun _ _ hu => .ite hu.countFailure hu.countFailure.logDefect)).foldl (fun _ _ hu => .ite
    hu.countFailure hu.countFailure.logDefect)).foldl (fun _ _ hu => .ite hu.countFailure hu.countFailure.logDefect)).foldl (fun _
    _ hu => hu.setField.setServiceState)).bootWaves)

theorem keeps_execFieldWave (h : Keeps b s) {w} : KeepsNext b (execFieldWave w s) :=
  .next (.ite h (.ite (h.foldl (fun _ _ hu => .ite hu.askTurnOn hu)).same.setReg (h.foldl (fun _ _ hu => .ite hu.askTurnOn
    hu)).same))

theorem Stays.testSensor (h : Stays b s) {source t n fails} : Stays b (s.testSensor source t n fails) :=
  have hfails := h.keep fun k => k.countFailure
  .ite (.ite hfails (hfails.setSensor.keep fun k => k.towerSat.setFlags.raise.logDefect)) (.ite (h.setSensor.keep fun k => k.logDefect) h)

theorem Keeps.testPhase (h : Keeps b s) {source t p} : Keeps b (s.testPhase source t p) :=
  .ite h.countFailure h.countFailure.failPhase.logDefect

theorem Stays.testSupplies (h : Stays b s) {f source r} : Stays b (s.testSupplies f source r) :=
  (h.foldl fun _ _ hu => hu.testSensor).keep fun k => k.foldl (fun _ _ hu => hu.testPhase)

theorem Keeps.testCore (h : Keeps b s) {source core} : Keeps b (s.testCore source core) :=
  .ite h.countFailure h.countFailure.markCore.logDefect

theorem Keeps.markSlice (h : Keeps b s) {pos out} : Keeps b (s.markSlice pos out) := .ite h.same h.same

theorem Keeps.testSlice (h : Keeps b s) {source pos} : Keeps b (s.testSlice source pos) :=
  .ite h.countFailure h.countFailure.markSlice.logDefect

theorem Keeps.setSuspect (h : Keeps b s) {core a v} : Keeps b (s.setSuspect core a v) := h.setCore

theorem Keeps.testArray (h : Keeps b s) {source x} : Keeps b (s.testArray source x) := by
  unfold State.testArray
  extract_lets s1 w one log out v
  split
  · split
    · rename_i s2 e1
      have hs2 : Keeps b s2 := .of_snd e1 h.countFailure.saveRepair
      exact .ite (.setSuspect (.ite hs2 hs2.logDefect)) (.ite (.ite (.markCore (.setSuspect (.ite hs2 hs2.logDefect))) (.logDefect
        (.markCore (.setSuspect (.ite hs2 hs2.logDefect))))) (.markCore (.setSuspect (.ite hs2 hs2.logDefect))))
  · exact .ite (.ite h.countFailure.setSuspect.markCore h.countFailure.setSuspect.markCore.logDefect)
      h.countFailure.setSuspect.markCore

theorem Keeps.returnUnits (h : Keeps b s) {f source r} : Keeps b (s.returnUnits f source r) :=
  h.foldl (fun _ _ hu => .ite (.logDefect (.markSlice (.ite (hu.foldl (fun _ _ hu1 => .ite hu1.setSuspect.logDefect
    hu1)).markCore.logDefect (hu.foldl (fun _ _ hu1 => .ite hu1.setSuspect.logDefect hu1))))) (.ite (hu.foldl (fun _ _ hu1 => .ite
    hu1.setSuspect.logDefect hu1)).markCore.logDefect (hu.foldl (fun _ _ hu1 => .ite hu1.setSuspect.logDefect hu1))))

theorem Stays.applyTest (h : Stays b s) {f level source r} : Stays b (s.applyTest f level source r) := by
  unfold State.applyTest
  extract_lets mine __src s1 s2 before s3 s4 s5 s6
  have hs1 : Stays b s1 := h.keep fun k => .ite k.setField k.countFailure.ringFailed
  have hs2 : Stays b s2 := hs1.testSupplies
  have hs6 : Keeps s2 s2 → Keeps s2 s6 := fun k => ((((k.foldl (fun _ _ hu => hu.testCore)).foldl
    (fun _ _ hu => hu.testSlice)).foldl (fun _ _ hu => hu.testArray)).returnUnits)
  exact .ite hs1 (.ite hs2 (.ite (hs2.keep hs6) (hs2.keep fun k => (hs6 k).capacityChanged.noteDegraded.refreshReplace)))

theorem stays_execSelfTestComplete (h : Stays b s) {f r} : StaysNext b (execSelfTestComplete f r s) := by
  have hdone {t : State} (ht : Stays b t) : Stays b (if !s.dm.published && !t.boot.tested.contains f then
      { t with boot := { t.boot with tested := t.boot.tested ++ [f] } } else t) := .ite (ht.keep fun k => k.same) ht
  exact .next (.ite h (.ite (hdone (h.applyTest.keep fun k => k.finishTest)) (.ite (hdone h.testSupplies) h)))

theorem keeps_execDefectMapPublish (h : Keeps b s) : KeepsNext b (execDefectMapPublish s) :=
  .next (.ite h h.same.setReg.setReg.setReg.setReg.noteDegraded.refreshReplace.beginFreeze.refreshHolds)

theorem keeps_execResetOffHold (h : Keeps b s) {f} : KeepsNext b (execResetOffHold f s) :=
  .next (.ite h (.ite (.ite h (h.foldl (fun _ _ hu => hu.setField)).startWaves) (.ite h h.setField.askTurnOn)))

theorem keeps_execDrainEnd (h : Keeps b s) {f} : KeepsNext b (execDrainEnd f s) := .next (.ite h.takeOut h)

theorem keeps_execDrainTimeout (h : Keeps b s) {f} : KeepsNext b (execDrainTimeout f s) := by
  unfold execDrainTimeout
  refine .next ?_
  split
  · exact .ite h.takeOut h
  · exact h

theorem Keeps.copyRow (h : Keeps b s) {ch layer bank row} : Keeps b (s.copyRow ch layer bank row) := by
  unfold State.copyRow
  exact h.foldl (fun u i1 hu => by
    extract_lets off line
    split
    · rename_i s1 e
      have hs1 : Keeps b s1 := .of_thd e hu.readDramLine
      exact hs1.poke.setCheck
    · rename_i s1 e e1
      have hs1 : Keeps b s1 := .of_thd e1 hu.readDramLine
      exact hs1.poke.setCheck)

theorem keeps_execRepairStart (h : Keeps b s) : KeepsNext b (execRepairStart s) := by
  unfold execRepairStart
  refine .next ?_
  split
  · exact h
  · extract_lets ch s1
    split
    · exact h
    · split
      · rename_i s2 e2
        have hs2 : Keeps b s2 := by
          refine .of_snd e2 ?_
          split
          · exact h.same.saveRepair
          · exact .snd h.same
        extract_lets source s3
        have hs3 : Keeps b s3 := by
          unfold s3
          split
          · exact hs2.copyRow.logDefect
          · exact hs2.logDefect
          · exact hs2
        exact hs3.setRepairStatus.refreshReplace

theorem keeps_execRepairTimeout (h : Keeps b s) : KeepsNext b (execRepairTimeout s) := by
  unfold execRepairTimeout
  refine .next ?_
  split
  · exact h
  · exact .ite h h.same.setRepairStatus

theorem Keeps.functionReset (h : Keeps b s) : Keeps b (s.functionReset) := .ite h.same h.same.same.resetAll

theorem keeps_execFunctionLevelReset (h : Keeps b s) : KeepsNext b (execFunctionLevelReset s) := .next h.functionReset

theorem keeps_execHotReset (h : Keeps b s) : KeepsNext b (execHotReset s) := .next h.functionReset

theorem keeps_execPcieLinkDown (h : Keeps b s) : KeepsNext b (execPcieLinkDown s) := .next h.same.setReg.functionReset

theorem keeps_execPwrGoodRise (h : Keeps b s) : KeepsNext b (execPwrGoodRise s) := .next (.ite h.same.same h.same)

theorem Keeps.inputLoss (h : Keeps b s) : Keeps b (s.inputLoss) :=
  .ite h h.allFieldsOff.linksDown.dropLinkRails.loseDram.same.setReg.noteStop

theorem keeps_execPwrGoodFall (h : Keeps b s) : KeepsNext b (execPwrGoodFall s) := .next h.same.inputLoss

theorem keeps_execVin1v8Low (h : Keeps b s) : KeepsNext b (execVin1v8Low s) := .next (.ite h.inputLoss h)

theorem Stays.wiped (h : Stays b s) : Stays b s.wiped := ⟨h.pending, h.now, fun _ => rfl⟩

theorem stays_execVauxLoss (h : Stays b s) : StaysNext b (execVauxLoss s) := .next (h.wiped.keep fun k => k.same)

theorem keeps_execVauxRise (h : Keeps b s) : KeepsNext b (execVauxRise s) := .next (.ite h h.same.setReg)

theorem stays_execResetNLow (h : Stays b s) {ns} : StaysNext b (execResetNLow ns s) :=
  have hcount := h.keep fun k => (k.same : Keeps s { s with fresh := s.fresh + 1 })
  .next (.ite hcount (hcount.wiped.keep fun k => k.same.setReg))

theorem keeps_execFreezeNLow (h : Keeps b s) {ns} : KeepsNext b (execFreezeNLow ns s) :=
  .next (.ite h.same (.ite h.same.same.setFreezeSource h.same.same))

theorem keeps_execFreezeNHigh (h : Keeps b s) : KeepsNext b (execFreezeNHigh s) := .next h.same.clearFreezeSource

theorem keeps_execFreezeComplete (h : Keeps b s) : KeepsNext b (execFreezeComplete s) :=
  .next (.ite h (h.foldl (fun _ _ hu => .ite hu.setField hu)).setReg.setReg.beginThaw)

theorem keeps_execCaptureData (h : Keeps b s) {offset n} : KeepsNext b (execCaptureData offset n s) := by
  unfold execCaptureData
  refine .next ?_
  split
  · exact h.send
  · split
    · rename_i s1 e1
      have hs1 : Keeps b s1 := .of_thd e1 h.readCapture
      exact hs1.send

theorem keeps_execCaptureIdleExpiry (h : Keeps b s) {ch} : KeepsNext b (execCaptureIdleExpiry ch s) := by
  unfold execCaptureIdleExpiry
  refine .next ?_
  split
  · exact .ite h.same h
  · exact h

theorem Keeps.tap (h : Keeps b s) {ir out} : Keeps b (s.tap ir out) := h.same.send

theorem keeps_execExtest (h : Keeps b s) {bits} : KeepsNext b (execExtest bits s) := .next h.tap.same

theorem keeps_execSamplePreload (h : Keeps b s) {bits} : KeepsNext b (execSamplePreload bits s) := .next h.tap.same

theorem keeps_execIdcode (h : Keeps b s) : KeepsNext b (execIdcode s) := .next h.tap

theorem keeps_execCapaddr (h : Keeps b s) {a} : KeepsNext b (execCapaddr a s) := .next (.ite h.tap.same h.tap)

theorem keeps_execCapdata (h : Keeps b s) : KeepsNext b (execCapdata s) := by
  unfold execCapdata
  refine .next ?_
  extract_lets a
  split
  · rename_i s1 e
    have hs1 : Keeps b s1 := .of_thd e h.captureRead
    exact .ite hs1.tap hs1.tap.same

theorem keeps_execBypass (h : Keeps b s) : KeepsNext b (execBypass s) := .next h.tap

theorem keeps_execMbDoorbell (h : Keeps b s) : KeepsNext b (execMbDoorbell s) := .next h.mailboxDoorbell

theorem keeps_execMbStatusWrite (h : Keeps b s) {v} : KeepsNext b (execMbStatusWrite v s) := .next (.ite h.same h)

theorem keeps_execJopDatagram (h : Keeps b s) {address port dst bytes} : KeepsNext b (execJopDatagram address port dst bytes s) := by
  unfold execJopDatagram
  refine .next ?_
  extract_lets m s1
  have hs1 : Keeps b s1 := .ite h h.wrap64
  split
  · exact h
  · split
    · exact h.sat32
    · split
      · exact h.sat32
      · split
        · rename_i s2 e3
          have hs2 : Keeps b s2 := .of_snd e3 hs1.answerRequest
          exact hs2.send

theorem keeps_execForwardedRequest (h : Keeps b s) {level bytes} : KeepsNext b (execForwardedRequest level bytes s) := by
  unfold execForwardedRequest
  refine .next ?_
  split
  · extract_lets m
    split
    · rename_i s1 e1
      have hs1 : Keeps b s1 := .of_snd e1 h.answerRequest
      exact hs1.send
  · exact .ite h (.ite (.ite h h.finishMailbox) (.finishMailbox (.ite (.ite (.ite h.setLevel (.ite h.setLevel h)) h) (.keep (.ite
      (.ite h.setLevel (.ite h.setLevel h)) h)))))

theorem keeps_execSnapshotRead (h : Keeps b s) {who idx sub snapId offset n} : KeepsNext b (execSnapshotRead who idx sub snapId
    offset n s) := by
  unfold execSnapshotRead
  refine .next ?_
  split
  · exact h.send
  · split
    · rename_i s1 e1
      have hs1 : Keeps b s1 := by
        refine .of_snd e1 ?_
        split
        · exact .snd h
        · exact h.readRequest
      exact hs1.touch.send

theorem keeps_execSnapshotDiscard (h : Keeps b s) : KeepsNext b (execSnapshotDiscard s) := .next h.same

theorem Keeps.entryWrite (h : Keeps b s) {who idx sub bytes} : Keeps b (s.entryWrite who idx sub bytes) := by
  unfold State.entryWrite
  split
  · exact h.send
  · split
    · rename_i s1 e1
      have hs1 : Keeps b s1 := by
        refine .of_snd e1 ?_
        split
        · exact .snd h
        · exact h.writeRequest
      extract_lets s2
      have hs2 : Keeps b s2 := by
        unfold s2
        split
        · exact hs1.setLevel
        · exact hs1.touch
      exact hs2.send

theorem keeps_execRegisterWrite (h : Keeps b s) {who idx sub bytes} : KeepsNext b (execRegisterWrite who idx sub bytes s) :=
  .next (.ite h.entryWrite h)

theorem Keeps.storeSaved (h : Keeps b s) {idx sub bytes} : Keeps b (s.storeSaved idx sub bytes) := h.same

theorem Keeps.mapSessions (h : Keeps b s) {g} : Keeps b (s.mapSessions g) := h.same

theorem Keeps.endJob (h : Keeps b s) {id result} : Keeps b (s.endJob id result) := by
  unfold State.endJob
  exact h.same.mapSessions

theorem Keeps.applySideband (h : Keeps b s) {sub} : Keeps b (s.applySideband sub) :=
  .ite (.same (.ite h.setStaticAddress.setReg h.setStaticAddress)) (.ite h.setStaticAddress.setReg h.setStaticAddress)

theorem keeps_execRwsSaveDone (h : Keeps b s) : KeepsNext b (execRwsSaveDone s) := by
  unfold execRwsSaveDone
  refine .next ?_
  split
  · exact h
  · split
    · exact h
    · exact .ite h.endJob.storeSaved.applySideband h.endJob.storeSaved

theorem keeps_execFlashData (h : Keeps b s) {who bytes} : KeepsNext b (execFlashData who bytes s) := .next h.entryWrite

theorem keeps_execFlashErase (h : Keeps b s) {who v} : KeepsNext b (execFlashErase who v s) := .next h.entryWrite

theorem keeps_execFlashContent (h : Keeps b s) {who offset n} : KeepsNext b (execFlashContent who offset n s) := by
  unfold execFlashContent
  refine .next ?_
  split
  · exact h.send
  · split
    · rename_i s1 e1
      have hs1 : Keeps b s1 := by
        refine .of_snd e1 ?_
        split
        · exact .snd h
        · exact h.readRequest
      exact hs1.touch.send

theorem Keeps.setNor (h : Keeps b s) {a v} : Keeps b (s.setNor a v) := h.same

theorem keeps_execFlashDone (h : Keeps b s) {ok} : KeepsNext b (execFlashDone ok s) := by
  unfold execFlashDone
  refine .next ?_
  split
  · exact h
  · exact (h.same.foldl (fun _ _ hu => hu.setNor)).endJob

theorem keeps_execPrivUnlock (h : Keeps b s) {who v} : KeepsNext b (execPrivUnlock who v s) := .next h.entryWrite

theorem keeps_execPrivLock (h : Keeps b s) {who v} : KeepsNext b (execPrivLock who v s) := .next h.entryWrite

theorem keeps_execPrivTimeout (h : Keeps b s) : KeepsNext b (execPrivTimeout s) := .next h.mapSessions

theorem keeps_execUnlockLockoutEnd (h : Keeps b s) : KeepsNext b (execUnlockLockoutEnd s) := by
  unfold execUnlockLockoutEnd
  refine .next ?_
  split
  · exact .ite h.same h
  · exact h

theorem keeps_execReplayExpiry (h : Keeps b s) : KeepsNext b (execReplayExpiry s) := .next h.mapSessions

theorem keeps_execEventMsixSend (h : Keeps b s) : KeepsNext b (execEventMsixSend s) :=
  .next (.ite h (.ite (.ite h.same.send h) (.ite h (.ite h.same.same.sendMsix h.same))))

theorem keeps_execEventNoticeSend (h : Keeps b s) {t} : KeepsNext b (execEventNoticeSend t s) :=
  .next (.ite h (.ite h.same (.ite h h.same.sat32.send)))

theorem keeps_execEventPendingWrite (h : Keeps b s) {v} : KeepsNext b (execEventPendingWrite v s) :=
  .next (h.written (.ite h.clearPending h))

theorem keeps_execGroupEventPendingWrite (h : Keeps b s) {v} : KeepsNext b (execGroupEventPendingWrite v s) :=
  .next (h.written h.clearPending)

theorem keeps_execArpRequest (h : Keeps b s) {senderMac senderIp targetIp} : KeepsNext b (execArpRequest senderMac senderIp
    targetIp s) := .next (.ite h h.send)

theorem keeps_execIcmpEcho (h : Keeps b s) {address bytes} : KeepsNext b (execIcmpEcho address bytes s) := .next (.ite h.send h)

theorem keeps_execNdpSolicitation (h : Keeps b s) {source target} : KeepsNext b (execNdpSolicitation source target s) :=
  .next (.ite h h.send)

theorem keeps_execDhcpv4Message (h : Keeps b s) {type address} : KeepsNext b (execDhcpv4Message type address s) :=
  .next (.ite h (.ite h.send (.ite (.ite h h.same.setReg) (.ite (.ite h h.same.setReg) h))))

theorem keeps_execSbLinkChange (h : Keeps b s) {v} : KeepsNext b (execSbLinkChange v s) := .next (.ite h h.setReg)

theorem Keeps.groupDoorbell (h : Keeps b s) {device q bytes offset v} : Keeps b (s.groupDoorbell device q bytes offset v) :=
  .ite h.hostDoorbell (.ite h.doorbellError (.ite h.hostWriteError (.ite h h.addOp.settleBars)))

theorem keeps_execGroupDoorbell (h : Keeps b s) {device q bytes offset v} : KeepsNext b (execGroupDoorbell device q bytes offset v
    s) := .next h.groupDoorbell

theorem Keeps.sendHost (h : Keeps b s) {tag l} : Keeps b (s.sendHost tag l).2 := by
  induction l generalizing s with
  | nil => exact h
  | cons p rest ih => exact .snd (ih h.sendReq)

theorem Keeps.addMemory (h : Keeps b s) {tag g n kind whole cut} : Keeps b (s.addMemory tag g n kind whole cut) := h.sendHost.addOp

theorem Keeps.hostRead (h : Keeps b s) {bar off n tag} : Keeps b (s.hostRead bar off n tag) := by
  unfold State.hostRead
  extract_lets own gate s1
  have hs1 : Keeps b s1 := by
    unfold s1
    split
    · exact h.addOp
    · split
      · exact h.addOp
      · split
        · exact h.addOp
        · split
          · exact h.addOp
          · exact h.addMemory
  exact hs1.settleBars

theorem keeps_execHostRead (h : Keeps b s) {bar off n tag} : KeepsNext b (execHostRead bar off n tag s) := .next (.ite h.hostRead h)

theorem Keeps.aerError (h : Keeps b s) {bit} : Keeps b (s.aerError bit) := h.same

theorem Keeps.hostMemoryWrite (h : Keeps b s) {g bytes} : Keeps b (s.hostMemoryWrite g bytes) := by
  unfold State.hostMemoryWrite
  split
  · exact .ite h.hostWriteError (.ite h.addOp h.addMemory)
  · exact h.addMemory

theorem Keeps.hostWrite (h : Keeps b s) {bar off bytes} : Keeps b (s.hostWrite bar off bytes) := by
  unfold State.hostWrite
  extract_lets n v
  split
  · exact h.aerError.hostWriteError
  · split
    · exact h.aerError.hostWriteError
    · split
      · exact h.hostDoorbell
      · split
        · exact h.groupDoorbell
        · split
          · exact h.hostWriteError
          · split
            · exact .ite h.writeBar0 h.addOp.settleBars
            · split
              · exact h.aerError.hostWriteError
              · exact h.hostMemoryWrite.settleBars

theorem keeps_execHostWrite (h : Keeps b s) {bar off bytes} : KeepsNext b (execHostWrite bar off bytes s) :=
  .next (.ite h.hostWrite h)

theorem keeps_execHostAtomic (h : Keeps b s) {bar off bytes op operand compare tag} : KeepsNext b (execHostAtomic bar off bytes op
    operand compare tag s) := by
  unfold execHostAtomic
  refine .next ?_
  split
  · exact h
  · extract_lets own gate kind s1
    have hs1 : Keeps b s1 := by
      unfold s1
      split
      · exact h.addOp
      · split
        · exact h.addOp
        · split
          · exact h.addOp
          · split
            · exact h.addOp
            · exact h.addOp
            · exact h.addMemory
    exact hs1.settleBars

theorem Keeps.finishOp (h : Keeps b s) {o} : Keeps b (s.finishOp o) := h.dropOp.same.settleBars

theorem Keeps.completeRead (h : Keeps b s) {o outcome bytes} : Keeps b (s.completeRead o outcome bytes) :=
  .finishOp (.ite (.send (.ite h.aerError (.ite h.aerError h))) (.ite h.aerError (.ite h.aerError h)))

theorem Keeps.completeStatus (h : Keeps b s) {o st data n} : Keeps b (s.completeStatus o st data n) := by
  unfold State.completeStatus
  split
  · exact h.completeRead
  · exact h.completeRead
  · exact h.completeRead
  · exact h.same.completeRead

theorem keeps_execHostCompletion (h : Keeps b s) {id remote} : KeepsNext b (execHostCompletion id remote s) := by
  unfold execHostCompletion
  refine .next ?_
  split
  · exact h
  · split
    · exact h
    · split
      · exact h.completeRead
      · exact h.completeRead
      · split
        · exact h.completeStatus
        · exact h
      · split
        · exact h.completeStatus
        · exact h
      · split
        · exact .finishOp (.ite h h.hostWriteError)
        · exact h
      · exact h

theorem Keeps.flushMsix (h : Keeps b s) : Keeps b (s.flushMsix) := h.foldl (fun _ _ hu => .ite hu.same.sendMsix hu)

theorem Keeps.setFunction (h : Keeps b s) {f} : Keeps b (s.setFunction f) := h.same.flushMsix

theorem keeps_execConfigRequest (h : Keeps b s) {tag c} : KeepsNext b (execConfigRequest tag c s) := by
  unfold execConfigRequest
  refine .next ?_
  split
  · exact h
  · split
    · exact h.send
    · split
      · exact h.same.send
      · exact h.send
      · exact .send (.ite h.same h)
      · exact h.setFunction.send
      · exact h.setFunction.send
      · exact h.setFunction.send
      · exact h.setFunction.send

theorem keeps_execWinWrite (h : Keeps b s) {w v} : KeepsNext b (execWinWrite w v s) :=
  .next (.ite h (.ite h.hostWriteError h.writeWindow))

theorem keeps_execNotify (h : Keeps b s) {device n} : KeepsNext b (execNotify device n s) := .next h.notice

theorem keeps_execPcieLinkTrained (h : Keeps b s) {width rate} : KeepsNext b (execPcieLinkTrained width rate s) :=
  .next (.ite h h.same.setReg)

/-- Every command answers a next state that keeps these. -/
theorem stays_exec (h : Keeps b s) (c : Instr) : StaysNext b (exec c s) := by
  cases c with
  | heartbeat => exact (keeps_execHeartbeat h).stays
  | stewardTakeover => exact (keeps_execStewardTakeover h).stays
  | stewardLost => exact (keeps_execStewardLost h).stays
  | mgmtRingSegmentFail => exact (keeps_execMgmtRingSegmentFail h).stays
  | stretchRequest => exact (keeps_execStretchRequest h).stays
  | paceWindow => exact (keeps_execPaceWindow h).stays
  | linkPaceWindow => exact (keeps_execLinkPaceWindow h).stays
  | paceHostTargetWrite => exact (keeps_execPaceHostTargetWrite h).stays
  | addi => exact (keeps_execAddi h).stays
  | andi => exact (keeps_execAndi h).stays
  | ori => exact (keeps_execOri h).stays
  | xori => exact (keeps_execXori h).stays
  | slti => exact (keeps_execSlti h).stays
  | sltiu => exact (keeps_execSltiu h).stays
  | slli => exact (keeps_execSlli h).stays
  | srli => exact (keeps_execSrli h).stays
  | srai => exact (keeps_execSrai h).stays
  | lui => exact (keeps_execLui h).stays
  | shlor => exact (keeps_execShlor h).stays
  | add => exact (keeps_execAdd h).stays
  | sub => exact (keeps_execSub h).stays
  | and => exact (keeps_execAnd h).stays
  | or => exact (keeps_execOr h).stays
  | xor => exact (keeps_execXor h).stays
  | sll => exact (keeps_execSll h).stays
  | srl => exact (keeps_execSrl h).stays
  | sra => exact (keeps_execSra h).stays
  | slt => exact (keeps_execSlt h).stays
  | sltu => exact (keeps_execSltu h).stays
  | min => exact (keeps_execMin h).stays
  | max => exact (keeps_execMax h).stays
  | minu => exact (keeps_execMinu h).stays
  | maxu => exact (keeps_execMaxu h).stays
  | mul => exact (keeps_execMul h).stays
  | mulh => exact (keeps_execMulh h).stays
  | mulhu => exact (keeps_execMulhu h).stays
  | div => exact (keeps_execDiv h).stays
  | divu => exact (keeps_execDivu h).stays
  | rem => exact (keeps_execRem h).stays
  | remu => exact (keeps_execRemu h).stays
  | clz => exact (keeps_execClz h).stays
  | ctz => exact (keeps_execCtz h).stays
  | popc => exact (keeps_execPopc h).stays
  | fadd => exact (keeps_execFadd h).stays
  | fsub => exact (keeps_execFsub h).stays
  | fmul => exact (keeps_execFmul h).stays
  | fmin => exact (keeps_execFmin h).stays
  | fmax => exact (keeps_execFmax h).stays
  | flt => exact (keeps_execFlt h).stays
  | fle => exact (keeps_execFle h).stays
  | feq => exact (keeps_execFeq h).stays
  | fabs => exact (keeps_execFabs h).stays
  | fneg => exact (keeps_execFneg h).stays
  | cvt => exact (keeps_execCvt h).stays
  | beq => exact (keeps_execBeq h).stays
  | bne => exact (keeps_execBne h).stays
  | blt => exact (keeps_execBlt h).stays
  | bge => exact (keeps_execBge h).stays
  | bltu => exact (keeps_execBltu h).stays
  | bgeu => exact (keeps_execBgeu h).stays
  | jal => exact (keeps_execJal h).stays
  | jalr => exact (keeps_execJalr h).stays
  | lbL => exact (keeps_execLbL h).stays
  | lbuL => exact (keeps_execLbuL h).stays
  | lhL => exact (keeps_execLhL h).stays
  | lhuL => exact (keeps_execLhuL h).stays
  | lwL => exact (keeps_execLwL h).stays
  | lwuL => exact (keeps_execLwuL h).stays
  | ldL => exact (keeps_execLdL h).stays
  | lbG => exact (keeps_execLbG h).stays
  | lbuG => exact (keeps_execLbuG h).stays
  | lhG => exact (keeps_execLhG h).stays
  | lhuG => exact (keeps_execLhuG h).stays
  | lwG => exact (keeps_execLwG h).stays
  | lwuG => exact (keeps_execLwuG h).stays
  | ldG => exact (keeps_execLdG h).stays
  | sbL => exact (keeps_execSbL h).stays
  | shL => exact (keeps_execShL h).stays
  | swL => exact (keeps_execSwL h).stays
  | sdL => exact (keeps_execSdL h).stays
  | sbG => exact (keeps_execSbG h).stays
  | shG => exact (keeps_execShG h).stays
  | swG => exact (keeps_execSwG h).stays
  | sdG => exact (keeps_execSdG h).stays
  | amoLAdd => exact (keeps_execAmoLAdd h).stays
  | amoLAnd => exact (keeps_execAmoLAnd h).stays
  | amoLOr => exact (keeps_execAmoLOr h).stays
  | amoLXor => exact (keeps_execAmoLXor h).stays
  | amoLSwap => exact (keeps_execAmoLSwap h).stays
  | amoLCas => exact (keeps_execAmoLCas h).stays
  | amoLMin => exact (keeps_execAmoLMin h).stays
  | amoLMax => exact (keeps_execAmoLMax h).stays
  | amoLMinu => exact (keeps_execAmoLMinu h).stays
  | amoLMaxu => exact (keeps_execAmoLMaxu h).stays
  | amoGAdd => exact (keeps_execAmoGAdd h).stays
  | amoGAnd => exact (keeps_execAmoGAnd h).stays
  | amoGOr => exact (keeps_execAmoGOr h).stays
  | amoGXor => exact (keeps_execAmoGXor h).stays
  | amoGSwap => exact (keeps_execAmoGSwap h).stays
  | amoGCas => exact (keeps_execAmoGCas h).stays
  | amoGMin => exact (keeps_execAmoGMin h).stays
  | amoGMax => exact (keeps_execAmoGMax h).stays
  | amoGMinu => exact (keeps_execAmoGMinu h).stays
  | amoGMaxu => exact (keeps_execAmoGMaxu h).stays
  | dma => exact (keeps_execDma h).stays
  | tile => exact (keeps_execTile h).stays
  | vadd => exact (keeps_execVadd h).stays
  | vsub => exact (keeps_execVsub h).stays
  | vmul => exact (keeps_execVmul h).stays
  | vfma => exact (keeps_execVfma h).stays
  | vmax => exact (keeps_execVmax h).stays
  | vmin => exact (keeps_execVmin h).stays
  | vabs => exact (keeps_execVabs h).stays
  | vneg => exact (keeps_execVneg h).stays
  | vscale => exact (keeps_execVscale h).stays
  | vaxpy => exact (keeps_execVaxpy h).stays
  | vexp => exact (keeps_execVexp h).stays
  | vrecip => exact (keeps_execVrecip h).stays
  | vrsqrt => exact (keeps_execVrsqrt h).stays
  | vtanh => exact (keeps_execVtanh h).stays
  | vsum => exact (keeps_execVsum h).stays
  | vmaxr => exact (keeps_execVmaxr h).stays
  | vdot => exact (keeps_execVdot h).stays
  | vsoftmax => exact (keeps_execVsoftmax h).stays
  | vcmplt => exact (keeps_execVcmplt h).stays
  | vsel => exact (keeps_execVsel h).stays
  | vcvt => exact (keeps_execVcvt h).stays
  | vwupd => exact (keeps_execVwupd h).stays
  | vcopy => exact (keeps_execVcopy h).stays
  | vfill => exact (keeps_execVfill h).stays
  | syncAdd => exact (keeps_execSyncAdd h).stays
  | syncWait => exact (keeps_execSyncWait h).stays
  | syncRead => exact (keeps_execSyncRead h).stays
  | syncArm => exact (keeps_execSyncArm h).stays
  | quePush => exact (keeps_execQuePush h).stays
  | queExit => exact (keeps_execQueExit h).stays
  | waitc => exact (keeps_execWaitc h).stays
  | fence => exact (keeps_execFence h).stays
  | csrr => exact (keeps_execCsrr h).stays
  | csrw => exact (keeps_execCsrw h).stays
  | brk => exact (keeps_execBrk h).stays
  | waitUnitRelease => exact (keeps_execWaitUnitRelease h).stays
  | readRsp => exact (keeps_execReadRsp h).stays
  | writeAck => exact (keeps_execWriteAck h).stays
  | atomicRsp => exact (keeps_execAtomicRsp h).stays
  | taskComplete => exact (keeps_execTaskComplete h).stays
  | contextRelease => exact (keeps_execContextRelease h).stays
  | contextKill => exact (keeps_execContextKill h).stays
  | vectorOpStart => exact (keeps_execVectorOpStart h).stays
  | vectorOpComplete => exact (keeps_execVectorOpComplete h).stays
  | tileHoldEnd => exact (keeps_execTileHoldEnd h).stays
  | tileStart => exact (keeps_execTileStart h).stays
  | tilePassEnd => exact (keeps_execTilePassEnd h).stays
  | tileOperandFail => exact (keeps_execTileOperandFail h).stays
  | rampStep => exact (keeps_execRampStep h).stays
  | gooseRecompute => exact (keeps_execGooseRecompute h).stays
  | gooseWaitExpiry => exact (keeps_execGooseWaitExpiry h).stays
  | gooseSeedWrite => exact (keeps_execGooseSeedWrite h).stays
  | numericClear => exact (keeps_execNumericClear h).stays
  | standbyStewardFailed => exact (keeps_execStandbyStewardFailed h).stays
  | doorbell => exact (keeps_execDoorbell h).stays
  | qcbWrite => exact (keeps_execQcbWrite h).stays
  | resetIndices => exact (keeps_execResetIndices h).stays
  | flush => exact (keeps_execFlush h).stays
  | dispatcherTake => exact (keeps_execDispatcherTake h).stays
  | queueAged => exact (keeps_execQueueAged h).stays
  | fieldForecast => exact (keeps_execFieldForecast h).stays
  | windowInsert => exact (keeps_execWindowInsert h).stays
  | commandChoose => exact (keeps_execCommandChoose h).stays
  | dramReadData => exact (keeps_execDramReadData h).stays
  | hashImbalWindow => exact (keeps_execHashImbalWindow h).stays
  | hashImbalRepeat => exact (keeps_execHashImbalRepeat h).stays
  | hashKeyWrite => exact (keeps_execHashKeyWrite h).stays
  | readPacket => exact (keeps_execReadPacket h).stays
  | writePacket => exact (keeps_execWritePacket h).stays
  | atomicPacket => exact (keeps_execAtomicPacket h).stays
  | refreshOwed => exact (keeps_execRefreshOwed h).stays
  | henSeq => exact (keeps_execHenSeq h).stays
  | vload => exact (keeps_execVload h).stays
  | dot => exact (keeps_execDot h).stays
  | kvscore => exact (keeps_execKvscore h).stays
  | kvmix => exact (keeps_execKvmix h).stays
  | chainsum => exact (keeps_execChainsum h).stays
  | rowscale => exact (keeps_execRowscale h).stays
  | rowaxpy => exact (keeps_execRowaxpy h).stays
  | rowgather => exact (keeps_execRowgather h).stays
  | henSegmentEnd => exact (keeps_execHenSegmentEnd h).stays
  | chainHop => exact (keeps_execChainHop h).stays
  | delivery => exact (keeps_execDelivery h).stays
  | throttledTimeout => exact (keeps_execThrottledTimeout h).stays
  | layerDutyWindow => exact (keeps_execLayerDutyWindow h).stays
  | henHaltWrite => exact (keeps_execHenHaltWrite h).stays
  | kvAppend => exact (keeps_execKvAppend h).stays
  | kvAppendComplete => exact (keeps_execKvAppendComplete h).stays
  | kvAnswer => exact (keeps_execKvAnswer h).stays
  | kvAnswerTimeout => exact (keeps_execKvAnswerTimeout h).stays
  | flitForward => exact (keeps_execFlitForward h).stays
  | multicast => exact (keeps_execMulticast h).stays
  | multicastComplete => exact (keeps_execMulticastComplete h).stays
  | leaseAcquire => exact (keeps_execLeaseAcquire h).stays
  | leaseRelease => exact (keeps_execLeaseRelease h).stays
  | leaseForceRelease => exact (keeps_execLeaseForceRelease h).stays
  | reduce => exact (keeps_execReduce h).stays
  | redPartial => exact (keeps_execRedPartial h).stays
  | fallbackMerge => exact (keeps_execFallbackMerge h).stays
  | redDone => exact (keeps_execRedDone h).stays
  | roundTimeout => exact (keeps_execRoundTimeout h).stays
  | objectAdd => exact (keeps_execObjectAdd h).stays
  | objectWait => exact (keeps_execObjectWait h).stays
  | objectRead => exact (keeps_execObjectRead h).stays
  | objectArm => exact (keeps_execObjectArm h).stays
  | syncRsp => exact (keeps_execSyncRsp h).stays
  | release => exact (keeps_execRelease h).stays
  | syncReset => exact (keeps_execSyncReset h).stays
  | copy => exact (keeps_execCopy h).stays
  | skew => exact (keeps_execSkew h).stays
  | fill => exact (keeps_execFill h).stays
  | gather => exact (keeps_execGather h).stays
  | dmaComplete => exact (keeps_execDmaComplete h).stays
  | scrub => exact (keeps_execScrub h).stays
  | scrubComplete => exact (keeps_execScrubComplete h).stays
  | refetchComplete => exact (keeps_execRefetchComplete h).stays
  | sramRerunStart => exact (keeps_execSramRerunStart h).stays
  | rerunTimeout => exact (keeps_execRerunTimeout h).stays
  | wbSuppressWrite => exact (keeps_execWbSuppressWrite h).stays
  | wbLogClear => exact (keeps_execWbLogClear h).stays
  | laneSuspectWindow => exact (keeps_execLaneSuspectWindow h).stays
  | groupReform => exact (keeps_execGroupReform h).stays
  | groupEnable => exact (keeps_execGroupEnable h).stays
  | membership => exact (keeps_execMembership h).stays
  | membershipWindowEnd => exact (keeps_execMembershipWindowEnd h).stays
  | membershipRetry => exact (keeps_execMembershipRetry h).stays
  | memberBitmap => exact (keeps_execMemberBitmap h).stays
  | memberTimeout => exact (keeps_execMemberTimeout h).stays
  | lglReqTimeout => exact (keeps_execLglReqTimeout h).stays
  | portTrained => exact (keeps_execPortTrained h).stays
  | identityFrame => exact (keeps_execIdentityFrame h).stays
  | lglDataFrame => exact (keeps_execLglDataFrame h).stays
  | lglIdleFrame => exact (keeps_execLglIdleFrame h).stays
  | ackReport => exact (keeps_execAckReport h).stays
  | lglReplayTimer => exact (keeps_execLglReplayTimer h).stays
  | lglRetrain => exact (keeps_execLglRetrain h).stays
  | groupLease => exact (keeps_execGroupLease h).stays
  | groupMerge => exact (keeps_execGroupMerge h).stays
  | paceRequestSend => exact (keeps_execPaceRequestSend h).stays
  | paceRequest => exact (keeps_execPaceRequest h).stays
  | bellwetherWindow => exact (keeps_execBellwetherWindow h).stays
  | paceTarget => exact (keeps_execPaceTarget h).stays
  | applyTick => exact (keeps_execApplyTick h).stays
  | gtickEdge => exact (keeps_execGtickEdge h).stays
  | gtickLoss => exact (keeps_execGtickLoss h).stays
  | orphanTimeout => exact (keeps_execOrphanTimeout h).stays
  | freezePacket => exact (keeps_execFreezePacket h).stays
  | streamBind => exact (keeps_execStreamBind h).stays
  | streamUnbind => exact (keeps_execStreamUnbind h).stays
  | laneLock => exact (keeps_execLaneLock h).stays
  | linkDeskewed => exact (keeps_execLinkDeskewed h).stays
  | declare => exact (keeps_execDeclare h).stays
  | hreqSwitch => exact (keeps_execHreqSwitch h).stays
  | laneLockLoss => exact (keeps_execLaneLockLoss h).stays
  | linkEnableWrite => exact (keeps_execLinkEnableWrite h).stays
  | dataFrame => exact (keeps_execDataFrame h).stays
  | slotWriteComplete => exact (keeps_execSlotWriteComplete h).stays
  | pushRetry => exact (keeps_execPushRetry h).stays
  | verdict => exact (keeps_execVerdict h).stays
  | deadlineExpiry => exact (keeps_execDeadlineExpiry h).stays
  | holdStateTimer => exact (keeps_execHoldStateTimer h).stays
  | powerSample => exact (keeps_execPowerSample h).stays
  | attribution => exact (keeps_execAttribution h).stays
  | moduleCapWWrite => exact (keeps_execModuleCapWWrite h).stays
  | towerCapWWrite => exact (keeps_execTowerCapWWrite h).stays
  | fieldCapMwWrite => exact (keeps_execFieldCapMwWrite h).stays
  | fieldTurnOn => exact (keeps_execFieldTurnOn h).stays
  | neighbourWaitEnd => exact (keeps_execNeighbourWaitEnd h).stays
  | headerGroupClose => exact (keeps_execHeaderGroupClose h).stays
  | turnOnSettled => exact (keeps_execTurnOnSettled h).stays
  | turnOnFail => exact (keeps_execTurnOnFail h).stays
  | fieldTurnOff => exact (keeps_execFieldTurnOff h).stays
  | headerOpen => exact (keeps_execHeaderOpen h).stays
  | phaseFailure => exact (keeps_execPhaseFailure h).stays
  | currentLimitEntry => exact (keeps_execCurrentLimitEntry h).stays
  | powerFlagsWrite => exact (keeps_execPowerFlagsWrite h).stays
  | thermalStep t readings counts coolantLow =>
    exact stays_execThermalStep (t := t) (readings := readings) (counts := counts) (coolantLow := coolantLow) h.toStays
  | rthEstimate => exact (keeps_execRthEstimate h).stays
  | thermalCapUpdate => exact (keeps_execThermalCapUpdate h).stays
  | trayInletCWrite => exact (keeps_execTrayInletCWrite h).stays
  | trayFlowLpmWrite => exact (keeps_execTrayFlowLpmWrite h).stays
  | trayStale => exact (keeps_execTrayStale h).stays
  | thermalResume => exact (keeps_execThermalResume h).stays
  | shutdownRecover => exact (keeps_execShutdownRecover h).stays
  | thermalFlagsWrite => exact (keeps_execThermalFlagsWrite h).stays
  | coldBoot => exact (keeps_execColdBoot h).stays
  | imageLoad => exact (keeps_execImageLoad h).stays
  | channelInitComplete => exact (keeps_execChannelInitComplete h).stays
  | fieldWave => exact (keeps_execFieldWave h).stays
  | selfTestComplete => exact stays_execSelfTestComplete h.toStays
  | defectMapPublish => exact (keeps_execDefectMapPublish h).stays
  | fieldReset => exact (keeps_execFieldReset h).stays
  | towerReset => exact (keeps_execTowerReset h).stays
  | computeSideReset => exact (keeps_execComputeSideReset h).stays
  | resetOffHold => exact (keeps_execResetOffHold h).stays
  | drain => exact (keeps_execDrain h).stays
  | drainEnd => exact (keeps_execDrainEnd h).stays
  | drainTimeout => exact (keeps_execDrainTimeout h).stays
  | testQuick => exact (keeps_execTestQuick h).stays
  | testFull => exact (keeps_execTestFull h).stays
  | returnService => exact (keeps_execReturnService h).stays
  | coreBypass => exact (keeps_execCoreBypass h).stays
  | coreRestore => exact (keeps_execCoreRestore h).stays
  | dramRowRepair => exact (keeps_execDramRowRepair h).stays
  | laneRepair => exact (keeps_execLaneRepair h).stays
  | repairStart => exact (keeps_execRepairStart h).stays
  | repairTimeout => exact (keeps_execRepairTimeout h).stays
  | functionLevelReset => exact (keeps_execFunctionLevelReset h).stays
  | hotReset => exact (keeps_execHotReset h).stays
  | pcieLinkDown => exact (keeps_execPcieLinkDown h).stays
  | pwrGoodRise => exact (keeps_execPwrGoodRise h).stays
  | pwrGoodFall => exact (keeps_execPwrGoodFall h).stays
  | vin1v8Low => exact (keeps_execVin1v8Low h).stays
  | vauxLoss => exact stays_execVauxLoss h.toStays
  | vauxRise => exact (keeps_execVauxRise h).stays
  | resetNLow => exact stays_execResetNLow h.toStays
  | freeze v => exact (keeps_execFreeze h (x := v)).stays
  | thaw v => exact (keeps_execThaw h (x := v)).stays
  | freezeNLow => exact (keeps_execFreezeNLow h).stays
  | freezeNHigh => exact (keeps_execFreezeNHigh h).stays
  | freezeComplete => exact (keeps_execFreezeComplete h).stays
  | captureData => exact (keeps_execCaptureData h).stays
  | captureIdleExpiry => exact (keeps_execCaptureIdleExpiry h).stays
  | extest => exact (keeps_execExtest h).stays
  | samplePreload => exact (keeps_execSamplePreload h).stays
  | idcode => exact (keeps_execIdcode h).stays
  | capaddr => exact (keeps_execCapaddr h).stays
  | capdata => exact (keeps_execCapdata h).stays
  | bypass => exact (keeps_execBypass h).stays
  | mbDoorbell => exact (keeps_execMbDoorbell h).stays
  | mbStatusWrite => exact (keeps_execMbStatusWrite h).stays
  | jopDatagram => exact (keeps_execJopDatagram h).stays
  | forwardedRequest => exact (keeps_execForwardedRequest h).stays
  | snapshotRead => exact (keeps_execSnapshotRead h).stays
  | snapshotDiscard => exact (keeps_execSnapshotDiscard h).stays
  | registerWrite => exact (keeps_execRegisterWrite h).stays
  | rwsSaveDone => exact (keeps_execRwsSaveDone h).stays
  | flashData => exact (keeps_execFlashData h).stays
  | flashErase => exact (keeps_execFlashErase h).stays
  | flashContent => exact (keeps_execFlashContent h).stays
  | flashDone => exact (keeps_execFlashDone h).stays
  | privUnlock => exact (keeps_execPrivUnlock h).stays
  | privLock => exact (keeps_execPrivLock h).stays
  | privTimeout => exact (keeps_execPrivTimeout h).stays
  | unlockLockoutEnd => exact (keeps_execUnlockLockoutEnd h).stays
  | replayExpiry => exact (keeps_execReplayExpiry h).stays
  | eventMsixSend => exact (keeps_execEventMsixSend h).stays
  | eventNoticeSend => exact (keeps_execEventNoticeSend h).stays
  | eventPendingWrite => exact (keeps_execEventPendingWrite h).stays
  | groupEventPendingWrite => exact (keeps_execGroupEventPendingWrite h).stays
  | arpRequest => exact (keeps_execArpRequest h).stays
  | icmpEcho => exact (keeps_execIcmpEcho h).stays
  | ndpSolicitation => exact (keeps_execNdpSolicitation h).stays
  | dhcpv4Message => exact (keeps_execDhcpv4Message h).stays
  | sbLinkChange => exact (keeps_execSbLinkChange h).stays
  | groupDoorbell => exact (keeps_execGroupDoorbell h).stays
  | hostRead => exact (keeps_execHostRead h).stays
  | hostWrite => exact (keeps_execHostWrite h).stays
  | hostAtomic => exact (keeps_execHostAtomic h).stays
  | hostCompletion => exact (keeps_execHostCompletion h).stays
  | configRequest => exact (keeps_execConfigRequest h).stays
  | winWrite => exact (keeps_execWinWrite h).stays
  | notify => exact (keeps_execNotify h).stays
  | pcieLinkTrained => exact (keeps_execPcieLinkTrained h).stays

/-! ### The statements -/

/-- Settles O59. -/
theorem everyCommandAnswers : Obligations.EveryCommandAnswers := by
  intro c s
  obtain ⟨t, e, k⟩ := stays_exec (.refl s) c
  exact ⟨t, e, k.pending, k.now⟩

/-- The cycle that passes on an empty queue, from the state in which the reference has counted it. -/
theorem tick_mem_wf (w : s.mem.wf = true) : s.tick.mem.wf = true := by
  have h := Keeps.refl { s with now := s.now + 1, run := if s.running then s.run + 1 else s.run }
  exact h.countTick.noteEligible.stewardRewrites.endThaw.wf w

/-- Settles O60: a step is a command, which keeps memory's form, or the cycle that passes on an empty queue. -/
theorem memoryStaysCanonical : Obligations.MemoryStaysCanonical := by
  intro s t w e
  rw [step] at e
  split at e
  · cases e
    exact tick_mem_wf w
  · rename_i c rest _
    obtain ⟨u, eu, k⟩ := stays_exec (.refl { s with pending := rest }) c
    cases eu.symm.trans e
    exact k.wf w

end Sys2Proof.Machine
end

section
/-! PROOFS. The step and the registers, register forms, branches and jumps, scalar float forms (R85, R97, R99, R101, R102): what an issue
does to its own context, and that faults, events and counts pass beside it. -/
namespace Sys2Proof.Machine

/-- Settles O1. -/
theorem stepRunsTheFrontCommand : Obligations.StepRunsTheFrontCommand := fun _ _ _ => rfl

/-- Settles O2. -/
theorem registerZeroIsHardWired : Obligations.RegisterZeroIsHardWired := fun c r q v =>
  ⟨c.x_zero, c.setX_zero v, c.x_setX r q v⟩

/-! ### Integer register forms (R97, R99) -/

theorem slt_ite_eq (a b x y : Word) : (if a.slt b then x else y) = if a.toInt < b.toInt then x else y := by
  simp only [BitVec.slt_iff_toInt_lt]

theorem ult_ite_eq (a b x y : Word) : (if a.ult b then x else y) = if a.toNat < b.toNat then x else y := by
  simp only [BitVec.ult_eq_decide, decide_eq_true_eq]

/-- Settles O4: every form is a register result. -/
theorem integerRegisterForms : Obligations.IntegerRegisterForms := by
  intro s i xd xa xb
  refine ⟨?add, ?sub, ?and, ?or, ?xor, ?sll, ?srl, ?sra, ?slt, ?sltu, ?min, ?max, ?minu, ?maxu⟩
  case slt => exact retires_of_exec_eq_result rfl (boolWord_slt ..)
  case sltu => exact retires_of_exec_eq_result rfl (boolWord_ult ..)
  case min | max => exact retires_of_exec_eq_result rfl (slt_ite_eq ..)
  case minu | maxu => exact retires_of_exec_eq_result rfl (ult_ite_eq ..)
  case add | sub | and | or | xor | sll | srl | sra => exact retires_of_exec_eq_result rfl rfl

/-! ### Branches and jumps (R102) -/

variable {s t u : State} {i : Issue} {c : Ctx}

theorem shiftLeft_two_eq_mul_four (a : Word) : a <<< 2 = a * 4 := by bv_omega

theorem branchOffset_eq (off : BitVec 16) : branchOffset off = off.signExtend 64 * 4 := shiftLeft_two_eq_mul_four _

theorem jumpOffset_eq (k : BitVec 21) : jumpOffset k = k.signExtend 64 * 4 := shiftLeft_two_eq_mul_four _

/-- The address of the next instruction, as a word. -/
theorem ofNat_pc_add_four (pc : BitVec 18) : BitVec.ofNat 64 (pc.toNat + 4) = pc.zeroExtend 64 + 4 := by bv_omega

/-- A conditional branch jumps where it is taken and goes on where it is not. -/
theorem branch_completes {cmd : Instr} {op : Nat} {xa xb : Reg} {off : BitVec 16} {f : Word → Word → Bool} {taken : Prop}
    (hexec : exec cmd s = .next (s.branch i op xa xb off f)) (hf : f ((s.at_ i).x xa) ((s.at_ i).x xb) = true ↔ taken)
    (h : s.Performs i (wordB op xa xb off)) :
    (taken → Completes cmd s fun t => Issued s t i
      ((s.at_ i).jumped s i (s.wordAt i) 0 0 ((s.at_ i).pc.zeroExtend 64 + off.signExtend 64 * 4))) ∧
    (¬ taken → Retires cmd s s i 0 0) := by
  have hi := State.branch_issued h f
  constructor
  · intro ht
    rw [if_pos (hf.mpr ht), branchOffset_eq] at hi
    exact ⟨_, hexec, hi⟩
  · intro ht
    rw [if_neg fun e => ht (hf.mp e)] at hi
    exact ⟨_, hexec, hi⟩

/-- An issue whose body gives the issuing context what `g` makes of it. -/
theorem issue_updCtx_issued {w : Word32} (h : s.Performs i w) (g : Ctx → Ctx) :
    Issued s (s.issue i w fun s => s.updCtx i.core i.ctx g) i (g ((s.at_ i).marked s i (s.wordAt i))) := by
  rw [State.issue_of_performs h, State.updCtx, State.account_ctx]
  exact issued_account h.selected _ _

/-! ### Faults (R131 to R134) -/

theorem State.logFault_reg_eq (s : State) (core ctx beat : Nat) (r : BitVec 256) {idx sub : Nat} (h : sub < 256) :
    (s.logFault core ctx beat r).reg idx sub =
      if idx = 0xA110 ∧ sub = 3 then min (s.reg 0xA110 3 + 1) 0xFFFFFFFF
      else if idx = 0xA110 ∧ sub = 2 then (s.reg 0xA110 2 + 1) % 64 else s.reg idx sub := by
  simp only [State.logFault, State.sat32]
  rw [State.reg_setReg _ _ (show 3 < 256 by omega) h, State.reg_setReg _ _ (show 2 < 256 by omega) h,
    State.reg_setReg _ _ (show 2 < 256 by omega) (show 3 < 256 by omega), if_neg (show ¬ (0xA110 = 0xA110 ∧ 3 = 2) by omega)]
  rfl

/-- A fault record entered on both sides of an issue (R133, R134). -/
theorem Issued.logFault (h : Issued s t i c) (hs : s.selects i = true) (core ctx beat : Nat) (r : BitVec 256) :
    Issued (s.logFault core ctx beat r) (t.logFault core ctx beat r) i c := by
  have hc := State.selects_core hs
  have ht : coreTower i.core < 8 := by unfold coreTower; omega
  obtain ⟨C, R, rfl⟩ : ∃ C R, t = { s with cores := C, regs := R } := ⟨_, _, h.rest⟩
  have hr : ∀ sub, sub < 256 → State.reg { s with cores := C, regs := R } 0xA110 sub = s.reg 0xA110 sub := fun sub hsub =>
    h.regs 0xA110 sub hsub (by omega) (by omega)
  refine ⟨h.context, h.contexts, h.core, h.cores, ?_, ?_, ?_, ?_⟩
  · rw [State.logFault_reg_eq _ _ _ _ _ (by omega), State.logFault_reg_eq _ _ _ _ _ (by omega), if_neg (by omega),
      if_neg (by omega), if_neg (by omega), if_neg (by omega)]
    exact h.issued
  · rw [State.logFault_reg_eq _ _ _ _ _ (by omega), State.logFault_reg_eq _ _ _ _ _ (by omega), if_neg (by omega),
      if_neg (by omega), if_neg (by omega), if_neg (by omega)]
    exact h.idle
  · intro idx sub hsub h1 h2
    rw [State.logFault_reg_eq _ _ _ _ _ hsub, State.logFault_reg_eq _ _ _ _ _ hsub, hr 3 (by omega), hr 2 (by omega),
      h.regs idx sub hsub h1 h2]
  · simp only [State.logFault, hr 2 (by omega)]
    rfl

/-- The context of the issuing thread replaced. -/
theorem Issued.setCtx (h : Issued s t i c) (d : Ctx) : Issued s (t.setCtx i.core i.ctx d) i d := by
  refine ⟨State.ctx_setCtx_same .., fun k hk => ?_, ?_, fun k hk => ?_, h.issued, h.idle, h.regs, ?_⟩
  · rw [State.ctx_setCtx_of_ne _ _ hk, h.contexts k hk]
  · rw [State.core_setCtx_same, h.core]
  · rw [State.core_setCtx_of_ne _ _ hk, h.cores k hk]
  · exact congrArg (fun v : State => { v with cores := (t.setCtx i.core i.ctx d).cores }) h.rest

theorem Issued.beats (h : Issued s t i c) : (t.core i.core).beats = i.beat := by rw [h.core]

theorem Issued.refTime (h : Issued s t i c) (k : Nat) : t.refTime k = s.refTime k := by rw [h.rest]; rfl

/-- A fault of the issuing thread, whose word, PC and queue its context holds (R131 to R133). -/
theorem Issued.faultAt (h : Issued s t i c) (hs : s.selects i = true) (hpc : c.pc = (s.at_ i).pc)
    (hq : c.taskQueue = (s.at_ i).taskQueue) (cause : Nat) (st : Status) (addr : Nat) :
    Issued (s.faultLogged i.core i.ctx i.beat cause st addr c.word) (t.faultAt i.core i.ctx cause st addr) i
      (c.stopped (s.reg 0xA111 1 == 1) st) := by
  have hctx : t.ctx i.core i.ctx = c := h.context
  have hhold : t.reg 0xA111 1 = s.reg 0xA111 1 := h.regs _ _ (by omega) (by omega) (by omega)
  have hlog : t.faultLogged i.core i.ctx i.beat cause st addr c.word = t.logFault i.core i.ctx i.beat
      (faultRecord (s.refTime (coreTower i.core)) addr c.word (s.at_ i).pc (s.at_ i).taskQueue i.ctx st cause) := by
    rw [State.faultLogged, hctx, h.refTime, hpc, hq]
  rw [State.faultAt, State.threadFault_eq, hctx, h.beats, hhold, hlog]
  exact (h.logFault hs _ _ _ _).setCtx _

/-! ### Writing an entry twice -/

theorem Map.erase_erase {α : Type} (m : Map α) (k : Nat) : Map.erase (Map.erase m k) k = Map.erase m k := by
  induction m with
  | nil => rfl
  | cons e m ih =>
    obtain ⟨j, v⟩ := e
    by_cases h : j = k <;> simp [Map.erase, h, ih]

theorem Map.erase_insert_erase {α : Type} (m : Map α) (k : Nat) (v : α) :
    Map.erase (Map.insert (Map.erase m k) k v) k = Map.erase m k := by
  induction m with
  | nil => simp [Map.erase, Map.insert]
  | cons e m ih =>
    obtain ⟨j, w⟩ := e
    by_cases h : j = k
    · simpa [Map.erase, h] using ih
    · by_cases hk : k < j <;> simp [Map.erase, Map.insert, h, hk, ih, Map.erase_erase]

theorem Map.erase_set_same {α : Type} [DecidableEq α] (d : α) (m : Map α) (k : Nat) (v : α) :
    Map.erase (Map.set d m k v) k = Map.erase m k := by
  by_cases h : v = d
  · simp [Map.set, h, Map.erase_erase]
  · simp [Map.set, h, Map.erase_insert_erase]

/-- The later of two writes of an entry stands alone. -/
@[simp] theorem Map.set_set_same {α : Type} [DecidableEq α] (d : α) (m : Map α) (k : Nat) (v w : α) :
    Map.set d (Map.set d m k v) k w = Map.set d m k w := by
  rw [Map.set.eq_def, Map.erase_set_same]; rfl

theorem State.setCore_setCore_same (s : State) (k : Nat) (c d : Core) : (s.setCore k c).setCore k d = s.setCore k d := by
  simp [State.setCore]

theorem State.account_setCtx_same (s : State) (i : Issue) (w : Word32) :
    (s.account i w).setCtx i.core i.ctx ((s.account i w).ctx i.core i.ctx) = s.account i w := by
  rw [State.account_ctx]
  simp [State.account, State.setCtx, State.towerWrap, State.wrap64, State.setCore, State.setReg, State.core, State.at_, Ctx.marked,
    State.reg, State.ctx]

/-- The issuing thread once its issue is counted. -/
theorem State.Performs.issued {w : Word32} (h : s.Performs i w) :
    Issued s (s.account i (s.wordAt i)) i ((s.at_ i).marked s i (s.wordAt i)) := by
  have hi := issued_account h.selected (s.wordAt i) ((s.account i (s.wordAt i)).ctx i.core i.ctx)
  rwa [State.account_setCtx_same, State.account_ctx] at hi

/-- An issue whose body faults the thread. -/
theorem issue_faultAt_issued {w : Word32} (h : s.Performs i w) (cause : Nat) (st : Status) (addr : Nat) :
    Issued (s.faultLogged i.core i.ctx i.beat cause st addr (s.wordAt i))
      ((s.account i (s.wordAt i)).faultAt i.core i.ctx cause st addr) i
      (((s.at_ i).marked s i (s.wordAt i)).stopped (s.reg 0xA111 1 == 1) st) :=
  h.issued.faultAt h.selected rfl rfl cause st addr

/-- A marked context that writes the link and jumps (R102). -/
theorem marked_jump (c : Ctx) (s : State) (i : Issue) (w : Word32) (xd : Reg) (a : Word) :
    ((c.marked s i w).setX xd (BitVec.ofNat 64 ((c.marked s i w).pc.toNat + 4))).goto a =
      c.jumped s i w xd (c.pc.zeroExtend 64 + 4) a := by
  rw [ofNat_pc_add_four, Ctx.jumped_eq]; rfl

/-- Settles O6: a branch is an issue that jumps where it is taken, and a jump one that writes the link and jumps, or faults. -/
theorem branchesAndJumps : Obligations.BranchesAndJumps := by
  intro s i xd xa xb off m k
  refine ⟨?beq, ?bne, ?blt, ?bge, ?bltu, ?bgeu, ?jal, ?jalr⟩
  case beq => exact branch_completes rfl beq_iff_eq
  case bne => exact branch_completes rfl bne_iff_ne
  case blt => exact branch_completes rfl BitVec.slt_iff_toInt_lt
  case bge => exact branch_completes rfl (by simp [BitVec.slt_eq_decide])
  case bltu => exact branch_completes rfl BitVec.ult_iff_lt
  case bgeu => exact branch_completes rfl (by simp [BitVec.ult_eq_decide])
  case jal =>
    intro h
    refine ⟨_, rfl, ?_⟩
    rw [← jumpOffset_eq]
    exact marked_jump (s.at_ i) s i _ xd _ ▸ issue_updCtx_issued h fun c =>
      (c.setX xd (BitVec.ofNat 64 (c.pc.toNat + 4))).goto (c.pc.zeroExtend 64 + jumpOffset k)
  case jalr =>
    intro target h
    have htarget : ((s.at_ i).marked s i (s.wordAt i)).x xa + sext16 m = target := rfl
    constructor
    · intro ht
      refine ⟨_, rfl, ?_⟩
      rw [State.issue_of_performs h]
      dsimp only
      rw [State.account_ctx, htarget, if_neg (not_not.mpr ht), marked_jump]
      exact issued_account h.selected _ _
    · intro ht
      refine ⟨_, rfl, ?_⟩
      rw [State.issue_of_performs h]
      dsimp only
      rw [State.account_ctx, htarget, if_pos ht]
      exact issue_faultAt_issued h ..

/-! ### Scalar float (R101, R126, R210) -/

/-- A change of tables beside the cores and the dictionary's entries, on both sides of an issue. -/
theorem Issued.beside (h : Issued s t i c) (hc : u.cores = s.cores) (hr : u.regs = s.regs) :
    Issued u { u with cores := t.cores, regs := t.regs } i c := by
  have hcore : ∀ k, u.core k = s.core k := fun k => by rw [State.core, hc]; rfl
  have hctx : ∀ k n, u.ctx k n = s.ctx k n := fun k n => by rw [State.ctx, hcore]; rfl
  have hat : u.at_ i = s.at_ i := hctx ..
  have hreg : ∀ idx sub, u.reg idx sub = s.reg idx sub := fun idx sub => by rw [State.reg, hr]; rfl
  refine ⟨h.context, fun k hk => ?_, ?_, fun k hk => ?_, ?_, ?_, fun idx sub hs h1 h2 => ?_, rfl⟩
  · rw [hctx]; exact h.contexts k hk
  · rw [hcore, hat]; exact h.core
  · rw [hcore]; exact h.cores k hk
  · rw [hreg, hat]; exact h.issued
  · rw [hreg, hcore]; exact h.idle
  · rw [hreg]; exact h.regs idx sub hs h1 h2

/-- A change of a core that leaves alone what an issue writes there. -/
def BesideIssue (f : Core → Core) : Prop :=
  ∀ (c : Core) ctxs beats last0 last1 ready divider banks activity spent,
    f { c with ctxs := ctxs, beats := beats, last0 := last0, last1 := last1, readyAtIssue := ready, divider := divider, banks := banks,
               activity := activity, spent := spent } =
      { f c with ctxs := ctxs, beats := beats, last0 := last0, last1 := last1, readyAtIssue := ready, divider := divider, banks := banks,
                 activity := activity, spent := spent }

theorem BesideIssue.eq {f : Core → Core} (hf : BesideIssue f) (c : Core) :
    f c = { f c with ctxs := c.ctxs, beats := c.beats, last0 := c.last0, last1 := c.last1, readyAtIssue := c.readyAtIssue } :=
  congrArg (fun d : Core => { f c with ctxs := d.ctxs, beats := d.beats, last0 := d.last0, last1 := d.last1,
                                       readyAtIssue := d.readyAtIssue })
    (hf c c.ctxs c.beats c.last0 c.last1 c.readyAtIssue c.divider c.banks c.activity c.spent)

/-- Such a change of the issuing core on both sides of an issue. -/
theorem Issued.updCore (h : Issued s t i c) {f : Core → Core} (hf : BesideIssue f) :
    Issued (s.setCore i.core (f (s.core i.core))) (t.setCore i.core (f (t.core i.core))) i c := by
  have hctx : ∀ (v : State) n, (v.setCore i.core (f (v.core i.core))).ctx i.core n = v.ctx i.core n := fun v n => by
    rw [State.ctx, State.core_setCore_same, hf.eq]; rfl
  have hat : (s.setCore i.core (f (s.core i.core))).at_ i = s.at_ i := hctx s i.ctx
  refine ⟨(hctx t i.ctx).trans h.context, fun k hk => ?_, ?_, fun k hk => ?_, ?_, ?_, h.regs, ?_⟩
  · rw [hctx, hctx, h.contexts k hk]
  · rw [State.core_setCore_same, State.core_setCore_same, hat, h.core, hf, hf.eq (s.core i.core)]
  · rw [State.core_setCore_of_ne _ _ hk, State.core_setCore_of_ne _ _ hk, h.cores k hk]
  · rw [hat]; exact h.issued
  · rw [State.core_setCore_same, show (f (s.core i.core)).beats = (s.core i.core).beats by rw [hf.eq]]; exact h.idle
  · exact congrArg (fun v : State => { v with cores := (t.setCore i.core (f (t.core i.core))).cores }) h.rest

/-- An event counted in a core (R210). -/
def Core.counting (now : Nat) (e : NumEvent) (c : Core) : Core :=
  let up (v : BitVec 32) : BitVec 32 := if v = 0xFFFFFFFF then v else v + 1
  let c := c.inCycle now
  match e with
  | .sat f => { c with sats := Map.upd 0 c.sats f.code up, cycleSats := Map.upd 0 c.cycleSats f.code up }
  | .nan f => { c with nans := Map.upd 0 c.nans f.code up, cycleNans := Map.upd 0 c.cycleNans f.code up }

theorem Core.besideIssue_counting (now : Nat) (e : NumEvent) : BesideIssue (Core.counting now e) := by
  unfold BesideIssue
  intros
  cases e <;> simp only [Core.counting, Core.inCycle] <;> split <;> rfl

/-- An event counted on both sides of an issue (R210). -/
theorem Issued.countEvent (h : Issued s t i c) (e : NumEvent) : Issued (s.countEvent i.core e) (t.countEvent i.core e) i c := by
  have hb := (h.updCore (Core.besideIssue_counting s.now e)).beside (u := s.countEvent i.core e)
  obtain ⟨C, R, rfl⟩ : ∃ C R, t = { s with cores := C, regs := R } := ⟨_, _, h.rest⟩
  cases e <;> exact hb rfl rfl

theorem Issued.countEvents (h : Issued s t i c) (es : List NumEvent) :
    Issued (s.countEvents i.core es) (t.countEvents i.core es) i c := by
  induction es generalizing s t with
  | nil => exact h
  | cons e es ih => exact ih (h.countEvent e)

/-- A result with its events counted (R101, R210). -/
theorem State.resultCounted_issued {w : Word32} (h : s.Performs i w) (xd : Reg) (f : Ctx → Word × List NumEvent)
    {r : Word × List NumEvent} (hr : f ((s.at_ i).marked s i (s.wordAt i)) = r) :
    Issued (s.countEvents i.core r.2) (s.resultCounted i w xd f) i ((s.at_ i).retired s i (s.wordAt i) xd r.1) := by
  have hi := h.issued.countEvents r.2
  have hctx : ((s.account i (s.wordAt i)).countEvents i.core r.2).ctx i.core i.ctx = (s.at_ i).marked s i (s.wordAt i) := hi.context
  rw [State.resultCounted, State.issue_of_performs h]
  dsimp only
  rw [State.account_ctx, hr, State.updCtx, hctx, Ctx.retired_eq]
  exact hi.setCtx _

/-- A scalar float operation retires with its zero-extended result and its events counted. -/
theorem floatOp_retires {cmd : Instr} {fn : BitVec 11} {xd xa xb : Reg} {f : Word32 → Word32 → Word32 × List NumEvent}
    (hexec : exec cmd s = .next (s.floatOp i xd xa xb fn f)) (h : s.Performs i (wordR 0x0D xd xa xb fn)) :
    let r := f (((s.at_ i).x xa).truncate 32) (((s.at_ i).x xb).truncate 32)
    Retires cmd s (s.countEvents i.core r.2) i xd (r.1.zeroExtend 64) :=
  ⟨_, hexec, State.resultCounted_issued h xd (fun c =>
    let r := f ((c.x xa).truncate 32) ((c.x xb).truncate 32)
    (r.1.zeroExtend 64, r.2)) rfl⟩

/-- Settles O7: every operation is a result with its events counted; CVT of another format faults as illegal. -/
theorem scalarFloatForms : Obligations.ScalarFloatForms := by
  intro s i xd xa xb fn
  refine ⟨?fadd, ?fsub, ?fmul, ?fmin, ?fmax, ?flt, ?fle, ?feq, ?fabs, ?fneg, ?cvt⟩
  case cvt =>
    intro ok r h
    constructor
    · intro hok
      exact ⟨_, if_pos hok, State.resultCounted_issued h xd _ rfl⟩
    · intro hok
      have hexec : exec (.cvt i xd xa fn) s = .next _ := if_neg (Bool.eq_false_iff.mp hok)
      rw [State.issue_of_performs h] at hexec
      exact ⟨_, hexec, issue_faultAt_issued h ..⟩
  case fabs => exact floatOp_retires (f := fun a _ => (f32Abs a, [])) rfl
  case fneg => exact floatOp_retires (f := fun a _ => (f32Neg a, [])) rfl
  case fadd | fsub | fmul | fmin | fmax | flt | fle | feq => exact floatOp_retires rfl

end Sys2Proof.Machine
end

section
/-! PROOFS. Local loads (R104, R106, R107, R238): the bank of an access, its line, and the bytes read. -/
namespace Sys2Proof.Machine
variable {s t u : State} {i : Issue} {c : Ctx}

/-- A change of the issuing core that touches only what an issue leaves open: the divider's time, its banks and its counts. -/
theorem Issued.updOpen (h : Issued s t i c) {f : Core → Core}
    (hf : ∀ k, f k = { k with divider := (f k).divider, banks := (f k).banks, activity := (f k).activity, spent := (f k).spent }) :
    Issued s (t.setCore i.core (f (t.core i.core))) i c := by
  have hctx : ∀ n, (t.setCore i.core (f (t.core i.core))).ctx i.core n = t.ctx i.core n := fun n => by
    rw [State.ctx, State.core_setCore_same, hf]; rfl
  refine ⟨(hctx i.ctx).trans h.context, fun k hk => ?_, ?_, fun k hk => ?_, h.issued, h.idle, h.regs, ?_⟩
  · rw [hctx, h.contexts k hk]
  · rw [State.core_setCore_same, hf, h.core]
  · rw [State.core_setCore_of_ne _ _ hk, h.cores k hk]
  · exact congrArg (fun v : State => { v with cores := (t.setCore i.core (f (t.core i.core))).cores }) h.rest

theorem Issued.setBank (h : Issued s t i c) (b : Nat) (v : StoreBank) : Issued s (t.setBank i.core b v) i c :=
  h.updOpen (f := fun k => { k with banks := Map.set {} k.banks b v }) fun _ => rfl

theorem Issued.charge (h : Issued s t i c) (queue kind n : Nat) : Issued s (t.charge i.core queue kind n) i c :=
  h.updOpen (f := fun k => { k with
    activity := Map.upd 0 k.activity (8 * queue + kind) (· + n)
    spent := Map.upd 0 k.spent kind (· + n) }) fun _ => rfl

theorem Issued.updCtx (h : Issued s t i c) (g : Ctx → Ctx) : Issued s (t.updCtx i.core i.ctx g) i (g c) := by
  have hc : t.ctx i.core i.ctx = c := h.context
  rw [State.updCtx, hc]; exact h.setCtx _

theorem Issued.mem (h : Issued s t i c) : t.mem = s.mem := by rw [h.rest]

theorem State.bytes_congr (h : t.mem = s.mem) (a n : Nat) : t.bytes a n = s.bytes a n := by
  induction n generalizing a with
  | zero => rfl
  | succ n ih => simp only [State.bytes, ih, State.byte, h]

theorem State.LineOk.congr {line : Nat} {who : Agent} (h : s.LineOk line who) (hm : t.mem = s.mem) : t.LineOk line who := by
  unfold State.LineOk State.crcOk at *; rwa [hm]

/-! ### The bank of a local access (R238, R239) -/

theorem State.bank_charge (s : State) (core q k n b : Nat) : (s.charge core q k n).bank core b = s.bank core b := by
  simp [State.charge, State.bank]

/-- An access whose bank is granted goes on with the beat taken. -/
theorem onIssueBank_of_granted {w : Word32} (h : s.Performs i w) {a : Word} (hg : s.BankGranted i a) (body : State → State) :
    ∃ v, Issued s v i ((s.at_ i).marked s i (s.wordAt i)) ∧ (s.account i (s.wordAt i)).onIssueBank i a.toNat body = body v := by
  have hg' : ((s.account i (s.wordAt i)).bank i.core (storeBank a.toNat)).wins 0 (s.account i (s.wordAt i)).now = true := hg
  refine ⟨((s.account i (s.wordAt i)).charge i.core ((s.account i (s.wordAt i)).ctx i.core i.ctx).taskQueue.toNat 4 1).setBank i.core
    (storeBank a.toNat) (((s.account i (s.wordAt i)).bank i.core (storeBank a.toNat)).serve 0 (s.account i (s.wordAt i)).now),
    (h.issued.charge _ 4 1).setBank (storeBank a.toNat) _, ?_⟩
  rw [State.onIssueBank, if_pos hg', State.onBank, State.bank_charge]
  exact if_pos hg'

/-- One whose bank is not granted has been issued, and comes again. -/
theorem onIssueBank_of_not_granted {w : Word32} (h : s.Performs i w) {a : Word} (hg : ¬ s.BankGranted i a) (body : State → State) :
    Issued s ((s.account i (s.wordAt i)).onIssueBank i a.toNat body) i
      { (s.at_ i).marked s i (s.wordAt i) with nextBeat := i.beat + 1, counted := true } := by
  have hg' : ¬ ((s.account i (s.wordAt i)).bank i.core (storeBank a.toNat)).wins 0 (s.account i (s.wordAt i)).now = true := hg
  rw [State.onIssueBank, if_neg hg', State.onBank, if_neg hg']
  exact (h.issued.setBank (storeBank a.toNat) _).updCtx _

theorem localFault_eq_none {a : Word} {n : Nat} (h1 : a.toNat % n = 0) (h2 : a.toNat + n ≤ 0x40000) : localFault a n = none := by
  rw [localFault, if_neg (by omega), if_neg (by omega)]

/-- A local access that meets no check goes on with its bank's beat taken. -/
theorem localAccess_of_ok {w : Word32} (h : s.Performs i w) {a : Word} {n : Nat} (ho : s.LocalOk i a n) (body : State → State) :
    ∃ v, Issued s v i ((s.at_ i).marked s i (s.wordAt i)) ∧ (s.account i (s.wordAt i)).localAccess i a n body = body v := by
  obtain ⟨hal, hin, hg, hl⟩ := ho
  rw [State.localAccess, localFault_eq_none hal hin]
  dsimp only
  obtain ⟨v, hv, e⟩ := onIssueBank_of_granted h hg _
  exact ⟨v, hv, by rw [e, State.checkSram_of_ok (hl.congr hv.mem)]⟩

theorem localAccess_of_not_granted {w : Word32} (h : s.Performs i w) {a : Word} {n : Nat} (h1 : a.toNat % n = 0)
    (h2 : a.toNat + n ≤ 0x40000) (hg : ¬ s.BankGranted i a) (body : State → State) :
    Issued s ((s.account i (s.wordAt i)).localAccess i a n body) i
      { (s.at_ i).marked s i (s.wordAt i) with nextBeat := i.beat + 1, counted := true } := by
  rw [State.localAccess, localFault_eq_none h1 h2]
  exact onIssueBank_of_not_granted h hg _

/-! ### Local loads (R104, R106, R107) -/

/-- A local load retires with the extended bytes, or comes again where its bank is not granted. -/
theorem localLoad_completes {cmd : Instr} {op n : Nat} {xd xa : Reg} {m : BitVec 16} {signed : Bool} {r : Word}
    (hexec : exec cmd s = .next (s.localLoad i op xd xa m n signed))
    (hr : extendLoad (s.bytes (storeAddr i.core ((s.at_ i).x xa + m.signExtend 64).toNat) n) signed = r)
    (h : s.Performs i (wordI op xd xa m)) :
    (s.LocalOk i ((s.at_ i).x xa + m.signExtend 64) n → Retires cmd s s i xd r) ∧
    (((s.at_ i).x xa + m.signExtend 64).toNat % n = 0 → ((s.at_ i).x xa + m.signExtend 64).toNat + n ≤ 0x40000 →
      ¬ s.BankGranted i ((s.at_ i).x xa + m.signExtend 64) → Completes cmd s fun t =>
        Issued s t i { (s.at_ i).marked s i (s.wordAt i) with nextBeat := i.beat + 1, counted := true }) := by
  have haddr : ((s.account i (s.wordAt i)).ctx i.core i.ctx).x xa + sext16 m = (s.at_ i).x xa + m.signExtend 64 := by
    rw [State.account_ctx]; rfl
  rw [State.localLoad, State.issue_of_performs h] at hexec
  dsimp only at hexec
  rw [haddr] at hexec
  constructor
  · intro ho
    refine ⟨_, hexec, ?_⟩
    obtain ⟨v, hv, e⟩ := localAccess_of_ok h ho fun v => v.updCtx i.core i.ctx fun c => (c.setX xd (extendLoad (v.bytes (storeAddr
      i.core ((s.at_ i).x xa + m.signExtend 64).toNat) n) signed)).advance
    rw [e, State.bytes_congr hv.mem, hr, ← Ctx.retired_eq]
    exact hv.updCtx _
  · exact fun h1 h2 hg => ⟨_, hexec, localAccess_of_not_granted h h1 h2 hg _⟩

theorem signedOf_eq_toInt {n : Nat} (h : 0 < n) (v : Nat) : signedOf n v = (BitVec.ofNat n v).toInt := by
  obtain ⟨k, rfl⟩ : ∃ k, n = k + 1 := ⟨n - 1, by omega⟩
  have hk : 2 ^ (k + 1) = 2 * 2 ^ k := by omega
  rw [signedOf, BitVec.toInt_eq_toNat_cond, BitVec.toNat_ofNat, Nat.add_sub_cancel, hk]
  split <;> rename_i h1
  · rw [if_pos (by omega)]
  · rw [if_neg (by omega)]; push_cast; ring

/-- The bytes of a signed load, sign-extended. -/
theorem extendLoad_signed {bs : List Byte} (h : 0 < bs.length) :
    extendLoad bs true = (BitVec.ofNat (8 * bs.length) (bytesToNat bs)).signExtend 64 := by
  rw [extendLoad, if_pos rfl, signedOf_eq_toInt (by omega)]; rfl

/-- Settles O8. -/
theorem localLoads : Obligations.LocalLoads := by
  intro s i xd xa m
  have hs : ∀ a n, extendLoad (s.bytes a (n + 1)) true =
      (BitVec.ofNat (8 * (n + 1)) (bytesToNat (s.bytes a (n + 1)))).signExtend 64 := fun a n => by
    have e := extendLoad_signed (bs := s.bytes a (n + 1)) (Nat.succ_pos _)
    rwa [State.bytes_length] at e
  refine ⟨?lb, ?lbu, ?lh, ?lhu, ?lw, ?lwu, ?ld⟩
  case lb => exact localLoad_completes rfl (hs _ 0)
  case lh => exact localLoad_completes rfl (hs _ 1)
  case lw => exact localLoad_completes rfl (hs _ 3)
  case lbu | lhu | lwu | ld => exact localLoad_completes rfl rfl

end Sys2Proof.Machine
end

section
/-! PROOFS. Local stores and atomics (R104, R107, R110): a store into SRAM beside an issue, the bytes written and the bytes left. -/
namespace Sys2Proof.Machine
variable {s t u : State} {i : Issue} {c : Ctx}

/-- A change of a core that leaves alone what an issue writes there, on both sides of an issue. -/
theorem Issued.updAnyCore (h : Issued s t i c) {f : Core → Core} (hf : BesideIssue f) (k : Nat) :
    Issued (s.setCore k (f (s.core k))) (t.setCore k (f (t.core k))) i c := by
  by_cases hk : k = i.core
  · subst hk; exact h.updCore hf
  have hcore : ∀ (v : State) d, (v.setCore k d).core i.core = v.core i.core := fun v d => v.core_setCore_of_ne d (Ne.symm hk)
  have hctx : ∀ (v : State) d n, (v.setCore k d).ctx i.core n = v.ctx i.core n := fun v d n => by rw [State.ctx, hcore]; rfl
  have hat : (s.setCore k (f (s.core k))).at_ i = s.at_ i := hctx ..
  refine ⟨(hctx ..).trans h.context, fun n hn => ?_, ?_, fun j hj => ?_, ?_, ?_, h.regs, ?_⟩
  · rw [hctx, hctx, h.contexts n hn]
  · rw [hcore, hcore, hat, h.core]
  · by_cases hjk : j = k
    · subst hjk; rw [State.core_setCore_same, State.core_setCore_same, h.cores j hj]
    · rw [State.core_setCore_of_ne _ _ hjk, State.core_setCore_of_ne _ _ hjk, h.cores j hj]
  · rw [hat]; exact h.issued
  · rw [hcore]; exact h.idle
  · exact congrArg (fun v : State => { v with cores := (t.setCore k (f (t.core k))).cores }) h.rest

/-! ### A store into SRAM beside an issue -/

theorem Issued.poke (h : Issued s t i c) (a : Nat) (bs : List Byte) : Issued (s.poke a bs) (t.poke a bs) i c := by
  obtain ⟨C, R, rfl⟩ : ∃ C R, t = { s with cores := C, regs := R } := ⟨_, _, h.rest⟩
  exact h.beside rfl rfl

theorem Issued.setCrc (h : Issued s t i c) (l : Nat) (d : BitVec 16) : Issued (s.setCrc l d) (t.setCrc l d) i c := by
  obtain ⟨C, R, rfl⟩ : ∃ C R, t = { s with cores := C, regs := R } := ⟨_, _, h.rest⟩
  exact h.beside rfl rfl

/-- The records of copies of a line, mapped on both sides of an issue. -/
theorem Issued.mapCopyRecords (h : Issued s t i c) (line : Nat) (g : List CopyRecord → List CopyRecord) :
    Issued (s.setCopyRecords line (g (s.copyRecords line))) (t.setCopyRecords line (g (t.copyRecords line))) i c := by
  simp only [State.setCopyRecords, State.copyRecords]
  split
  · exact h.updAnyCore (f := fun k => { k with copies := g k.copies }) (fun _ _ _ _ _ _ _ _ _ _ => rfl) _
  · obtain ⟨C, R, rfl⟩ : ∃ C R, t = { s with cores := C, regs := R } := ⟨_, _, h.rest⟩
    exact h.beside rfl rfl

theorem Issued.sramWritten (h : Issued s t i c) (line : Nat) (prod : Option Nat) :
    Issued (s.sramWritten line prod) (t.sramWritten line prod) i c := by
  have hm := h.mapCopyRecords line fun rs => rs.map fun r =>
    if r.dst < r.lineAddr line + 64 && r.lineAddr line < r.dst + r.len && !r.ended.contains line then { r with ended := line :: r.ended }
    else r
  simp only [State.sramWritten]
  generalize s.setCopyRecords line _ = s' at hm ⊢
  generalize t.setCopyRecords line _ = t' at hm ⊢
  obtain ⟨C, R, rfl⟩ : ∃ C R, t' = { s' with cores := C, regs := R } := ⟨_, _, hm.rest⟩
  exact hm.beside rfl rfl

/-- A store into SRAM on both sides of an issue (R449, R453). -/
theorem Issued.writeSram (h : Issued s t i c) (a : Nat) (bs : List Byte) (prod : Option Nat) :
    Issued (s.writeSram a bs prod) (t.writeSram a bs prod) i c := by
  have hw := (h.poke a bs).sramWritten (a / 64) prod
  simp only [State.writeSram]
  split
  · exact hw.setCrc ..
  · exact hw

theorem Issued.byte (h : Issued s t i c) (a : Nat) : t.byte a = s.byte a := by rw [State.byte, h.mem]; rfl

theorem State.setCopyRecords_byte (s : State) (line : Nat) (rs : List CopyRecord) (a : Nat) :
    (s.setCopyRecords line rs).byte a = s.byte a := by
  unfold State.setCopyRecords; split <;> rfl

theorem State.writeSram_byte (s : State) (a : Nat) (bs : List Byte) (prod : Option Nat) (b : Nat) :
    (s.writeSram a bs prod).byte b = (s.poke a bs).byte b := by
  have h : ((s.poke a bs).sramWritten (a / 64) prod).byte b = (s.poke a bs).byte b := State.setCopyRecords_byte ..
  unfold State.writeSram
  dsimp only
  split
  · exact h
  · exact h

theorem State.bytes_congr_byte {s t : State} (h : ∀ a, t.byte a = s.byte a) (a n : Nat) : t.bytes a n = s.bytes a n := by
  induction n generalizing a with
  | zero => rfl
  | succ n ih => rw [State.bytes, State.bytes, ih, h]

theorem natToBytes_length (n v : Nat) : (natToBytes n v).length = n := by
  induction n generalizing v with
  | zero => rfl
  | succ n ih => simp [natToBytes, ih]

/-- An issue that stores `n` bytes and goes on with `d`: the store of R107 and nothing else. -/
theorem storedAndIssued (h : Issued s t i c) (a n v : Nat) (prod : Option Nat) (g : Ctx → Ctx) :
    let u := (t.writeSram a (natToBytes n v) prod).updCtx i.core i.ctx g
    Issued (s.writeSram a (natToBytes n v) prod) u i (g c) ∧ SameBytesBut s u a n ∧ u.bytes a n = natToBytes n v := by
  have hi := (h.writeSram a (natToBytes n v) prod).updCtx g
  have hb := fun b => (hi.byte b).trans (s.writeSram_byte a (natToBytes n v) prod b)
  refine ⟨hi, fun b hout => ?_, ?_⟩
  · rw [hb, State.byte_poke_of_outside]
    rwa [natToBytes_length]
  · rw [State.bytes_congr_byte hb]
    conv_lhs => arg 3; rw [← natToBytes_length n v]
    exact State.bytes_poke ..

/-! ### Local stores and atomics (R104, R106, R107, R110) -/

/-- A local store that meets no check and has its bank writes the low bytes of XD and goes on. -/
theorem localStore_completes {cmd : Instr} {op n : Nat} {xd xa : Reg} {m : BitVec 16}
    (hexec : exec cmd s = .next (s.localStore i op xd xa m n)) (h : s.Performs i (wordI op xd xa m))
    (hal : ((s.at_ i).x xa + m.signExtend 64).toNat % n = 0) (hin : ((s.at_ i).x xa + m.signExtend 64).toNat + n ≤ 0x40000)
    (hg : s.BankGranted i ((s.at_ i).x xa + m.signExtend 64)) :
    Completes cmd s fun t =>
      Issued (s.writeSram (storeAddr i.core ((s.at_ i).x xa + m.signExtend 64).toNat) (natToBytes n ((s.at_ i).x xd).toNat)
        (s.at_ i).rerun) t i ((s.at_ i).retired s i (s.wordAt i) 0 0) ∧
      SameBytesBut s t (storeAddr i.core ((s.at_ i).x xa + m.signExtend 64).toNat) n ∧
      t.bytes (storeAddr i.core ((s.at_ i).x xa + m.signExtend 64).toNat) n = natToBytes n ((s.at_ i).x xd).toNat := by
  refine ⟨_, hexec, ?_⟩
  rw [State.localStore, State.issue_of_performs h]
  dsimp only
  rw [State.account_ctx, show ((s.at_ i).marked s i (s.wordAt i)).x xa + sext16 m = (s.at_ i).x xa + m.signExtend 64 from rfl,
    localFault_eq_none hal hin, ← Ctx.retired_zero]
  obtain ⟨v, hv, e⟩ := onIssueBank_of_granted h hg _
  dsimp only
  rw [e, State.producing, show v.ctx i.core i.ctx = _ from hv.context]
  exact storedAndIssued hv ..

/-- Settles O9. -/
theorem localStores : Obligations.LocalStores := by
  intro s i xd xa m
  refine ⟨?sb, ?sh, ?sw, ?sd⟩
  case sb | sh | sw | sd => exact localStore_completes rfl

/-- A local atomic writes what its operation makes of the doubleword and returns the old one. -/
theorem localAtomic_completes {cmd : Instr} {op : AmoOp} {xd xa xb : Reg} {fn : BitVec 11} {new : Word}
    (hexec : exec cmd s = .next (s.localAtomic i op xd xa xb)) (hfn : amoFn op = fn) (ho : s.LocalOk i ((s.at_ i).x xa) 8)
    (hnew : amoApply op (BitVec.ofNat 64 (bytesToNat (s.bytes (storeAddr i.core ((s.at_ i).x xa).toNat) 8))) ((s.at_ i).x xb)
      ((s.at_ i).x xd) = new) (h : s.Performs i (wordR 0x27 xd xa xb fn)) :
    Completes cmd s fun t =>
      Issued (s.writeSram (storeAddr i.core ((s.at_ i).x xa).toNat) (natToBytes 8 new.toNat) (s.at_ i).rerun) t i
        ((s.at_ i).retired s i (s.wordAt i) xd (BitVec.ofNat 64 (bytesToNat (s.bytes (storeAddr i.core ((s.at_ i).x xa).toNat) 8)))) ∧
      SameBytesBut s t (storeAddr i.core ((s.at_ i).x xa).toNat) 8 ∧
      t.bytes (storeAddr i.core ((s.at_ i).x xa).toNat) 8 = natToBytes 8 new.toNat := by
  subst hfn hnew
  refine ⟨_, hexec, ?_⟩
  rw [State.localAtomic, State.issue_of_performs h]
  dsimp only
  rw [State.account_ctx, Ctx.marked_x, Ctx.marked_x, Ctx.marked_x, ← Ctx.retired_eq]
  obtain ⟨v, hv, e⟩ := localAccess_of_ok h ho _
  rw [e, State.producing, show v.ctx i.core i.ctx = _ from hv.context, State.bytes_congr hv.mem]
  exact storedAndIssued hv _ _ _ _ fun c => (c.setX xd _).advance

/-- Settles O10. -/
theorem localAtomics : Obligations.LocalAtomics := by
  intro s i xd xa xb ho
  refine ⟨?add, ?and, ?or, ?xor, ?swap, ?cas, ?min, ?max, ?minu, ?maxu⟩
  case min | max => exact localAtomic_completes rfl rfl ho (slt_ite_eq ..)
  case minu | maxu => exact localAtomic_completes rfl rfl ho (ult_ite_eq ..)
  case add | and | or | xor | swap | cas => exact localAtomic_completes rfl rfl ho rfl

end Sys2Proof.Machine
end

section
/-! PROOFS. Global accesses and the checks of accesses (R104 to R107, R110, R131 to R134): requests and sync operations pass beside an
issue. -/
namespace Sys2Proof.Machine
variable {s t u : State} {i : Issue} {c : Ctx} {C : Map Core} {R : Map Nat}

/-! ### What passes beside an issue

A request or a sync operation is made from tables that an issue leaves alone: no core, and of the dictionary no count of issues. -/

/-- The entries of another dictionary read as those of the state, but for the counts of issues and idle beats (R129, R141). -/
def State.SameEntries (s : State) (R : Map Nat) : Prop :=
  ∀ idx sub, sub < 256 → idx ≠ 0xB010 → idx ≠ 0xB011 → State.reg { s with regs := R } idx sub = s.reg idx sub

/-- A change that neither reads nor writes a core or a count of issues. -/
def BesideCores (f : State → State) : Prop :=
  ∀ (s : State) C R, s.SameEntries R → f { s with cores := C, regs := R } = { f s with cores := C, regs := R }

theorem BesideCores.same {f : State → State} (hf : BesideCores f) (s : State) : f s = { f s with cores := s.cores, regs := s.regs } :=
  hf s s.cores s.regs fun _ _ _ _ _ => rfl

theorem Issued.sameEntries (h : Issued s t i c) : s.SameEntries t.regs := fun idx sub hs h1 h2 =>
  h.regs idx sub hs (fun e => h1 e.1) (fun e => h2 e.1)

/-- Such a change on both sides of an issue. -/
theorem Issued.besideCores (h : Issued s t i c) {f : State → State} (hf : BesideCores f) : Issued (f s) (f t) i c := by
  have ht : f t = { f s with cores := t.cores, regs := t.regs } := by
    conv_lhs => rw [h.rest]
    exact hf s t.cores t.regs h.sameEntries
  rw [ht]
  refine h.beside ?_ ?_
  · rw [hf.same]
  · rw [hf.same]

theorem State.SameEntries.hashKey (h : s.SameEntries R) {sub : Nat} (hs : sub < 256) :
    State.hashKey { s with cores := C, regs := R } sub = s.hashKey sub :=
  congrArg (BitVec.ofNat 64) (h 0x4100 sub hs (by omega) (by omega))

theorem State.SameEntries.translate (h : s.SameEntries R) (a : Nat) :
    State.translate { s with cores := C, regs := R } a = s.translate a := by
  unfold State.translate
  split
  · rename_i hin
    have ht : (a - towerAliasBase) / dramTower + 1 < 256 := by
      simp only [Bool.and_eq_true, decide_eq_true_eq] at hin
      have hd : 0 < dramTower := by decide
      have : (a - towerAliasBase) / dramTower < 8 := by rw [Nat.div_lt_iff_lt_mul hd]; omega
      omega
    simp only [State.towerSpread, h.hashKey ht]
  · split
    · simp only [State.moduleSpread, h.hashKey (show 9 < 256 by omega)]
    · rfl

theorem State.SameEntries.upPorts (h : s.SameEntries R) (d : Nat) :
    State.upPorts { s with cores := C, regs := R } d = s.upPorts d := by
  refine List.filter_congr fun p hp => ?_
  have hp : p < 12 := List.mem_range.mp (List.mem_filter.mp hp).1
  exact congrArg (· == 2) (h 0x5201 (p + 1) (by omega) (by omega) (by omega))

theorem State.SameEntries.portFor (h : s.SameEntries R) (core dst : Nat) :
    State.portFor { s with cores := C, regs := R } core dst = s.portFor core dst := by
  simp only [State.portFor, h.upPorts]

theorem State.SameEntries.nonMember (h : s.SameEntries R) (dev : Nat) :
    State.nonMember { s with cores := C, regs := R } dev = s.nonMember dev :=
  congrArg (fun n : Nat => !s.isOwn dev && !n.testBit dev) (h 0x5200 6 (by omega) (by omega) (by omega))

theorem State.SameEntries.exitNode (h : s.SameEntries R) (src : Option Nat) (core dev : Nat) :
    State.exitNode { s with cores := C, regs := R } src core dev = s.exitNode src core dev := by
  simp only [State.exitNode, h.nonMember, h.portFor]; rfl

theorem State.post_beside (s : State) (p : Packet) :
    State.post { s with cores := C, regs := R } p = { s.post p with cores := C, regs := R } := by
  unfold State.post; dsimp only; split <;> rfl

theorem State.postReq_beside (s : State) (r : Req) (answer : Bool) :
    State.postReq { s with cores := C, regs := R } r answer = { s.postReq r answer with cores := C, regs := R } := by
  have hm : ∀ a b, State.meshReaches { s with cores := C, regs := R } a b = s.meshReaches a b := fun _ _ => rfl
  unfold State.postReq
  split
  · rw [hm]
    split
    · rfl
    · split <;> exact State.post_beside ..
  · rfl

theorem State.sendAbroad_beside (h : s.SameEntries R) (r : Req) :
    State.sendAbroad { s with cores := C, regs := R } r = { s.sendAbroad r with cores := C, regs := R } := by
  have hf : ∀ a b, State.freeTag { s with cores := C, regs := R } a b = s.freeTag a b := fun _ _ => rfl
  unfold State.sendAbroad
  dsimp only
  rw [h.exitNode, hf]
  split
  · rfl
  · split
    · split
      · rfl
      · exact State.post_beside (State.updReq s r.id _) _
    · rfl

theorem BesideCores.sendReq (src : Source) (kind : ReqKind) (addr : Nat) (prod entry : Option Nat) :
    BesideCores fun s => (s.sendReq src kind addr prod entry).2 := by
  intro s C R h
  have ht : State.translate { s with fresh := s.fresh + 1, cores := C, regs := R } (addr % 2 ^ 48) =
      State.translate { s with fresh := s.fresh + 1 } (addr % 2 ^ 48) :=
    State.SameEntries.translate (s := { s with fresh := s.fresh + 1 }) h _
  simp only [State.sendReq, State.token, ht]
  generalize ({ id := s.fresh, src := src, kind := kind, addr := addr, loc := _, spread := _, sentAt := _, prod := prod,
                entry := entry } : Req) = r
  by_cases ho : s.isOwn (addr / 2 ^ 48 % 64) = true
  · exact ((if_pos ho).trans (State.postReq_beside { s with fresh := s.fresh + 1, reqs := s.reqs ++ [r] } r false)).trans
      (congrArg (fun v : State => { v with cores := C, regs := R }) (if_pos ho).symm)
  · exact ((if_neg ho).trans (State.sendAbroad_beside (s := { s with fresh := s.fresh + 1, reqs := s.reqs ++ [r] }) h r)).trans
      (congrArg (fun v : State => { v with cores := C, regs := R }) (if_neg ho).symm)

theorem State.syncAbroad_beside (h : s.SameEntries R) (m : SyncMsg) :
    State.syncAbroad { s with cores := C, regs := R } m = { s.syncAbroad m with cores := C, regs := R } := by
  have hf : ∀ a b, State.freeTag { s with cores := C, regs := R } a b = s.freeTag a b := fun _ _ => rfl
  unfold State.syncAbroad
  dsimp only
  rw [h.exitNode, hf]
  split
  · rfl
  · split
    · exact State.post_beside { s with syncMsgs := s.syncMsgs.map fun x =>
        if x.id = m.id then { m with tag := s.freeTag m.target.linkCore m.id } else x } _
    · rfl

theorem State.postSync_beside (h : s.SameEntries R) (id : Nat) (answer : Bool) :
    State.postSync { s with cores := C, regs := R } id answer = { s.postSync id answer with cores := C, regs := R } := by
  unfold State.postSync
  dsimp only
  split
  · rfl
  · rename_i m _
    by_cases ha : s.abroadSync m = true
    · exact ((if_pos ha).trans (State.syncAbroad_beside h m)).trans
        (congrArg (fun v : State => { v with cores := C, regs := R }) (if_pos ha).symm)
    · have ha' : ¬ State.abroadSync { s with cores := C, regs := R } m = true := ha
      have hr : State.syncReaches { s with cores := C, regs := R } m = s.syncReaches m := rfl
      rw [if_neg ha, if_neg ha', hr]
      split
      · rfl
      · split
        · split
          · exact State.post_beside ..
          · split
            · rfl
            · exact State.post_beside ..
        · split <;> rfl

theorem BesideCores.sendSync (op : SyncOp) (object : Nat) (value : Word32) (target : Target) (entry : Option Nat) :
    BesideCores fun s => s.sendSync op object value target entry := fun s C R h =>
  State.postSync_beside (s := { s with
    fresh := s.fresh + 1
    syncMsgs := s.syncMsgs ++ [{ id := s.fresh, op := op, object := object, value := value, target := target, sentAt := s.now,
                                 entry := entry }] }) (C := C) (R := R) h s.fresh false

/-! ### Global accesses (R105 to R107, R110) -/

theorem State.SameEntries.mappedAddr (h : s.SameEntries R) (a : Word) :
    State.mappedAddr { s with cores := C, regs := R } a = s.mappedAddr a := by
  simp only [State.mappedAddr, h.translate]

theorem Issued.mappedAddr (h : Issued s t i c) (a : Word) : t.mappedAddr a = s.mappedAddr a := by
  rw [h.rest]; exact h.sameEntries.mappedAddr a

theorem Issued.fresh (h : Issued s t i c) : t.fresh = s.fresh := by rw [h.rest]

theorem Issued.globalFault_eq_none (h : Issued s t i c) {a : Word} {n : Nat} (hal : a.toNat % n = 0) (hm : s.mappedAddr a = true) :
    t.globalFault a n = none := by
  rw [State.globalFault, if_neg (not_not.mpr hal), h.mappedAddr, hm]; rfl

theorem Issued.threadSource (h : Issued s t i c) : t.threadSource i.core i.ctx = .thread i.core i.ctx c.serial :=
  congrArg (Source.thread i.core i.ctx) (congrArg Ctx.serial h.context)

/-- A request made on both sides of an issue, the thread's context then given what `g` makes of it. -/
theorem Issued.sendReq (h : Issued s t i c) (kind : ReqKind) (addr : Nat) (g : Ctx → Ctx) :
    Issued (s.sendReq (.thread i.core i.ctx c.serial) kind addr).2
      ((t.sendReq (t.threadSource i.core i.ctx) kind addr).2.updCtx i.core i.ctx g) i (g c) := by
  rw [h.threadSource]
  exact (h.besideCores (.sendReq _ kind addr none none)).updCtx g

/-- A global load sends its request and its thread waits in WAIT_MEM. -/
theorem globalLoad_completes {cmd : Instr} {op n : Nat} {xd xa : Reg} {m : BitVec 16} {signed : Bool}
    (hexec : exec cmd s = .next (s.globalLoad i op xd xa m n signed)) (h : s.Performs i (wordI op xd xa m))
    (hok : ((s.at_ i).x xa + m.signExtend 64).toNat % n = 0 ∧ s.mappedAddr ((s.at_ i).x xa + m.signExtend 64) = true) :
    Completes cmd s fun t =>
      Issued (s.sendReq (s.threadSource i.core i.ctx) (.read n) ((s.at_ i).x xa + m.signExtend 64).toNat).2 t i
        (((s.at_ i).marked s i (s.wordAt i)).block .waitMem (.load s.fresh xd n signed)) := by
  refine ⟨_, hexec, ?_⟩
  rw [State.globalLoad, State.issue_of_performs h]
  dsimp only
  rw [State.account_ctx, show ((s.at_ i).marked s i (s.wordAt i)).x xa + sext16 m = (s.at_ i).x xa + m.signExtend 64 from rfl,
    h.issued.globalFault_eq_none hok.1 hok.2]
  exact h.issued.sendReq (.read n) _ fun c => c.block .waitMem (.load s.fresh xd n signed)

/-- A global store sends its request and its thread goes on. -/
theorem globalStore_retires {cmd : Instr} {op n : Nat} {xd xa : Reg} {m : BitVec 16}
    (hexec : exec cmd s = .next (s.globalStore i op xd xa m n)) (h : s.Performs i (wordI op xd xa m))
    (hok : ((s.at_ i).x xa + m.signExtend 64).toNat % n = 0 ∧ s.mappedAddr ((s.at_ i).x xa + m.signExtend 64) = true) :
    Retires cmd s (s.sendReq (s.threadSource i.core i.ctx) (.write (natToBytes n ((s.at_ i).x xd).toNat))
      ((s.at_ i).x xa + m.signExtend 64).toNat).2 i 0 0 := by
  refine ⟨_, hexec, ?_⟩
  rw [State.globalStore, State.issue_of_performs h]
  dsimp only
  rw [State.account_ctx, show ((s.at_ i).marked s i (s.wordAt i)).x xa + sext16 m = (s.at_ i).x xa + m.signExtend 64 from rfl,
    h.issued.globalFault_eq_none hok.1 hok.2, ← Ctx.retired_zero]
  exact h.issued.sendReq _ _ Ctx.advance

/-- Settles O11. -/
theorem globalLoadsAndStores : Obligations.GlobalLoadsAndStores := by
  intro s i xd xa m
  refine ⟨?lb, ?lbu, ?lh, ?lhu, ?lw, ?lwu, ?ld, ?sb, ?sh, ?sw, ?sd⟩
  case lb | lbu | lh | lhu | lw | lwu | ld => exact globalLoad_completes rfl
  case sb | sh | sw | sd => exact globalStore_retires rfl

/-- A global atomic sends its operation and its thread waits in WAIT_MEM. -/
theorem globalAtomic_completes {cmd : Instr} {op : AmoOp} {xd xa xb : Reg} {fn : BitVec 11}
    (hexec : exec cmd s = .next (s.globalAtomic i op xd xa xb)) (hfn : amoFn op = fn) (hal : ((s.at_ i).x xa).toNat % 8 = 0)
    (hm : s.mappedAddr ((s.at_ i).x xa) = true) (h : s.Performs i (wordR 0x1F xd xa xb fn)) :
    Completes cmd s fun t =>
      Issued (s.sendReq (s.threadSource i.core i.ctx) (.atomic op ((s.at_ i).x xb) ((s.at_ i).x xd)) ((s.at_ i).x xa).toNat).2 t i
        (((s.at_ i).marked s i (s.wordAt i)).block .waitMem (.atomic s.fresh xd)) := by
  subst hfn
  refine ⟨_, hexec, ?_⟩
  rw [State.globalAtomic, State.issue_of_performs h]
  dsimp only
  rw [State.account_ctx, Ctx.marked_x, Ctx.marked_x, Ctx.marked_x, h.issued.globalFault_eq_none hal hm]
  exact h.issued.sendReq _ _ fun c => c.block .waitMem (.atomic s.fresh xd)

/-- Settles O12. -/
theorem globalAtomics : Obligations.GlobalAtomics := by
  intro s i xd xa xb _ hal hm
  refine ⟨?add, ?and, ?or, ?xor, ?swap, ?cas, ?min, ?max, ?minu, ?maxu⟩
  case add | and | or | xor | swap | cas | min | max | minu | maxu => exact globalAtomic_completes rfl rfl hal hm

/-! ### Accesses that meet a check (R104 to R106, R131 to R134) -/

theorem localAccess_of_fault {w : Word32} (h : s.Performs i w) {a : Word} {n cause : Nat} {st : Status}
    (hf : localFault a n = some (cause, st)) (body : State → State) :
    Issued (s.faultLogged i.core i.ctx i.beat cause st a.toNat (s.wordAt i)) ((s.account i (s.wordAt i)).localAccess i a n body) i
      (((s.at_ i).marked s i (s.wordAt i)).stopped (s.reg 0xA111 1 == 1) st) := by
  rw [State.localAccess, hf]
  exact issue_faultAt_issued h ..

theorem localLoad_faults {cmd : Instr} {op n cause : Nat} {st : Status} {xd xa : Reg} {m : BitVec 16} {signed : Bool}
    (hexec : exec cmd s = .next (s.localLoad i op xd xa m n signed))
    (hf : localFault ((s.at_ i).x xa + m.signExtend 64) n = some (cause, st)) (h : s.Performs i (wordI op xd xa m)) :
    FaultsWith cmd s i cause st ((s.at_ i).x xa + m.signExtend 64).toNat := by
  refine ⟨_, hexec, ?_⟩
  rw [State.localLoad, State.issue_of_performs h]
  dsimp only
  rw [State.account_ctx]
  exact localAccess_of_fault h hf _

theorem localStore_faults {cmd : Instr} {op n cause : Nat} {st : Status} {xd xa : Reg} {m : BitVec 16}
    (hexec : exec cmd s = .next (s.localStore i op xd xa m n))
    (hf : localFault ((s.at_ i).x xa + m.signExtend 64) n = some (cause, st)) (h : s.Performs i (wordI op xd xa m)) :
    FaultsWith cmd s i cause st ((s.at_ i).x xa + m.signExtend 64).toNat := by
  refine ⟨_, hexec, ?_⟩
  rw [State.localStore, State.issue_of_performs h]
  dsimp only
  rw [State.account_ctx, show ((s.at_ i).marked s i (s.wordAt i)).x xa + sext16 m = (s.at_ i).x xa + m.signExtend 64 from rfl, hf]
  exact issue_faultAt_issued h ..

theorem globalLoad_faults {cmd : Instr} {op n cause : Nat} {st : Status} {xd xa : Reg} {m : BitVec 16} {signed : Bool}
    (hexec : exec cmd s = .next (s.globalLoad i op xd xa m n signed))
    (hf : s.globalFault ((s.at_ i).x xa + m.signExtend 64) n = some (cause, st)) (h : s.Performs i (wordI op xd xa m)) :
    FaultsWith cmd s i cause st ((s.at_ i).x xa + m.signExtend 64).toNat := by
  refine ⟨_, hexec, ?_⟩
  have hf' : (s.account i (s.wordAt i)).globalFault ((s.at_ i).x xa + m.signExtend 64) n = some (cause, st) := by
    rw [State.globalFault, h.issued.mappedAddr]; exact hf
  rw [State.globalLoad, State.issue_of_performs h]
  dsimp only
  rw [State.account_ctx, show ((s.at_ i).marked s i (s.wordAt i)).x xa + sext16 m = (s.at_ i).x xa + m.signExtend 64 from rfl, hf']
  exact issue_faultAt_issued h ..

/-- An address from 2^54 up is mapped to nothing. -/
theorem State.mappedAddr_of_le {a : Word} (h : 2 ^ 54 ≤ a.toNat) : s.mappedAddr a = false := by
  rw [State.mappedAddr, decide_eq_false (by omega)]; rfl

/-- A record that is alone in its cycle enters the log at its head (R133, R134). -/
theorem State.logFault_alone (hb : s.faultBatch.at_ ≠ s.now) (core ctx beat : Nat) (r : BitVec 256) :
    (s.logFault core ctx beat r).faultLog = Map.set 0 s.faultLog (s.reg 0xA110 2 % 64) r := by
  have hadd : s.faultBatch.add s.now (faultKey core beat ctx) r = { at_ := s.now, items := [(faultKey core beat ctx, r)] } := by
    rw [Batch.add, if_neg hb]; rfl
  have hslot : (s.reg 0xA110 2 + 1 + 64 * 1 - 1 + 0) % 64 = s.reg 0xA110 2 % 64 := by omega
  calc (s.logFault core ctx beat r).faultLog
      = (s.faultBatch.add s.now (faultKey core beat ctx) r).write 64 (s.reg 0xA110 2 + 1) s.faultLog := rfl
    _ = Map.set 0 s.faultLog ((s.reg 0xA110 2 + 1 + 64 * 1 - 1 + 0) % 64) r := by rw [hadd]; rfl
    _ = _ := by rw [hslot]

/-- Settles O13. -/
theorem accessChecksFault : Obligations.AccessChecksFault := by
  intro s i xd xa m
  refine ⟨fun hmis => ?misaligned, fun hal hrange => ?range, fun hal hun => ?unmapped, fun core ctx beat cause st addr w hb => ?log⟩
  case misaligned =>
    have hl : localFault ((s.at_ i).x xa + m.signExtend 64) 8 = some (causeMisaligned, 0x08) := if_pos hmis
    exact ⟨localLoad_faults rfl hl, localStore_faults rfl hl, globalLoad_faults rfl (if_pos hmis)⟩
  case range =>
    have hl : localFault ((s.at_ i).x xa + m.signExtend 64) 8 = some (causeLocalRange, 0x02) :=
      (if_neg (not_not.mpr hal)).trans (if_pos hrange)
    exact ⟨localLoad_faults rfl hl, localStore_faults rfl hl⟩
  case unmapped =>
    refine globalLoad_faults rfl ?_
    rw [State.globalFault, if_neg (not_not.mpr hal), State.mappedAddr_of_le hun]; rfl
  case log =>
    refine ⟨State.logFault_alone hb .., ?_, ?_, rfl⟩
    · rw [State.faultLogged, State.logFault_reg_eq _ _ _ _ _ (by omega), if_neg (by omega), if_pos ⟨rfl, rfl⟩]
    · rw [State.faultLogged, State.logFault_reg_eq _ _ _ _ _ (by omega), if_pos ⟨rfl, rfl⟩]

end Sys2Proof.Machine
end

section
/-! PROOFS. Commands to the DMA engine, to sync objects and to the vector unit (R111 to R117, R121, R125): the thread's side of a command,
its descriptor, and what each unit takes. -/
namespace Sys2Proof.Machine
variable {s t u : State} {i : Issue} {c : Ctx}

/-! ### The thread's side of a command (R111 to R114) -/

theorem State.selects_ready (h : s.selects i = true) : (s.at_ i).state = .ready := by
  simp only [State.selects, State.qualifies, Bool.and_eq_true, beq_iff_eq] at h
  exact h.1.2.1

theorem BesideCores.withTokens (n : Nat) : BesideCores fun s => s.withTokens n := fun _ _ _ _ => rfl

/-- What `State.commandTaken` makes of the context: it counts and goes on with 0 in XD, or waits. -/
def Ctx.taken (c : Ctx) (token : Nat) (xd : Reg) (wc : BitVec 2) (wait : Bool) : Ctx :=
  if wait then c.block .waitCmd (.command token xd) else ((c.setCounter wc (c.counter wc + 1)).setX xd 0).wake.advance

theorem Ctx.wake_setX (c : Ctx) (r : Reg) (v : Word) : (c.setX r v).wake = c.wake.setX r v := by
  unfold Ctx.setX; split <;> rfl

theorem Ctx.taken_marked (c : Ctx) (s : State) (i : Issue) (w : Word32) (token : Nat) (xd : Reg) (wc : BitVec 2) (wait : Bool) :
    (c.marked s i w).taken token xd wc wait = c.afterCommand s i w token xd wc wait := by
  unfold Ctx.taken Ctx.afterCommand
  split
  · rfl
  · rw [Ctx.wake_setX, ← Ctx.retired_eq]; rfl

/-- The thread's side of a command on an issue. -/
theorem Issued.commandTaken (h : Issued s t i c) (xd : Reg) (wc : BitVec 2) (wait : Bool) :
    ∃ v, t.commandTaken i.core i.ctx xd wc wait = (commandTarget i s.fresh wc wait, v) ∧
      Issued (s.withTokens 1) v i (c.taken s.fresh xd wc wait) := by
  have ht : Issued (s.withTokens 1) (t.withTokens 1) i c := h.besideCores (.withTokens 1)
  have hctx : (t.withTokens 1).ctx i.core i.ctx = c := ht.context
  refine ⟨(t.withTokens 1).setCtx i.core i.ctx (c.taken s.fresh xd wc wait), ?_, ht.setCtx _⟩
  rw [← h.fresh, ← hctx]
  cases wait <;> rfl

theorem Issued.core_dma (h : Issued s t i c) : (t.core i.core).dma = (s.core i.core).dma := by rw [h.core]

theorem Issued.awaitUnit (h : Issued s t i c) (u : UnitCmd) :
    Issued s (t.awaitUnit i.core i.ctx u) i (c.block .waitUnit (.unit u)) := h.updCtx _

/-! ### A command's descriptor (R114, R238) -/

theorem Issued.takeBanks (h : Issued s t i c) (order : Nat) (offs : List Nat) : Issued s (t.takeBanks i.core order offs).2 i c := by
  unfold State.takeBanks
  dsimp only
  generalize (offs.map storeBank).eraseDups = bs
  generalize bs.all _ = all
  suffices hf : ∀ (l : List Nat) (v : State), Issued s v i c → Issued s (l.foldl (fun (v : State) b =>
      if all then v.setBank i.core b ((t.bank i.core b).serve order t.now)
      else if (t.bank i.core b).wins order t.now then v else v.setBank i.core b ((t.bank i.core b).lose order t.now)) v) i c from hf bs t h
  intro l
  induction l with
  | nil => exact fun _ hv => hv
  | cons b l ih =>
    intro v hv
    refine ih _ ?_
    dsimp only
    split
    · exact hv.setBank _ _
    · split
      · exact hv
      · exact hv.setBank _ _

/-- The lines of a descriptor in order are read as they stand. -/
theorem State.checkBuffer_of_ok {core addr : Nat} {who : Agent} (h1 : s.LineOk (storeAddr core addr / 64) who)
    (h2 : addr % 64 = 0 ∨ s.LineOk (storeAddr core (addr + 63) / 64) who) : s.checkBuffer core addr who = (.ok, s) := by
  rw [State.checkBuffer, State.checkSram_of_ok h1]
  dsimp only
  split
  · rfl
  · rename_i hn; exact State.checkSram_of_ok (h2.resolve_left hn)

theorem Issued.words8 (h : Issued s t i c) (a : Nat) : t.words8 a = s.words8 a := by
  simp only [State.words8, State.bytes_congr h.mem]

/-- A command whose descriptor can be read goes on with its words. -/
theorem withDescriptor_of_ok {w : Word32} (h : s.Performs i w) {a : Word} (hd : s.DescriptorOk i a)
    (body : State → List Word → State) :
    ∃ v, Issued s v i ((s.at_ i).marked s i (s.wordAt i)) ∧
      (s.account i (s.wordAt i)).withDescriptor i.core i.ctx a body = body v (s.words8 (storeAddr i.core a.toNat)) := by
  obtain ⟨hin, hg, h1, h2⟩ := hd
  have ht := h.issued.takeBanks 0 [a.toNat, a.toNat + 63]
  have hb := State.checkBuffer_of_ok (h1.congr ht.mem) (h2.imp_right fun e => e.congr ht.mem)
  have hg' : ((s.account i (s.wordAt i)).takeBanks i.core 0 [a.toNat, a.toNat + 63]).1 = true := hg
  rw [State.withDescriptor, if_neg (by omega)]
  generalize (s.account i (s.wordAt i)).takeBanks i.core 0 [a.toNat, a.toNat + 63] = p at ht hb hg'
  obtain ⟨all, v⟩ := p
  subst hg'
  dsimp only at ht hb ⊢
  rw [hb]
  exact ⟨_, ht.charge _ _ _, by dsimp only; rw [ht.words8]⟩

/-- One that loses a bank has been issued, and comes again. -/
theorem withDescriptor_of_not_granted {w : Word32} (h : s.Performs i w) {a : Word} (hin : a.toNat + 64 ≤ 0x40000)
    (hg : ¬ s.DescriptorGranted i a) (body : State → List Word → State) :
    Issued s ((s.account i (s.wordAt i)).withDescriptor i.core i.ctx a body) i
      { (s.at_ i).marked s i (s.wordAt i) with nextBeat := i.beat + 1, counted := true } := by
  have ht := h.issued.takeBanks 0 [a.toNat, a.toNat + 63]
  have hg' : ((s.account i (s.wordAt i)).takeBanks i.core 0 [a.toNat, a.toNat + 63]).1 = false := Bool.eq_false_iff.mpr hg
  rw [State.withDescriptor, if_neg (by omega)]
  generalize (s.account i (s.wordAt i)).takeBanks i.core 0 [a.toNat, a.toNat + 63] = p at ht hg'
  obtain ⟨all, v⟩ := p
  subst hg'
  have hr : ((s.at_ i).marked s i (s.wordAt i)).state = .ready := State.selects_ready h.selected
  have hu := ht.updCtx fun c => if c.state = .ready then { c with nextBeat := c.nextBeat - 3, counted := true } else c
  rw [if_pos hr] at hu
  exact hu

/-! ### The DMA command (R115) -/

theorem BesideIssue.dma (d : DmaDesc) : BesideIssue fun k => { k with dma := k.dma ++ [d] } := fun _ _ _ _ _ _ _ _ _ _ => rfl

/-- A multicast to a set whose record is read at its acceptance (R368). -/
def readsRecord (words : List Word) : Prop :=
  (words.getD 0 0).toNat / 2 ^ 40 % 256 = 2 ∧ (words.getD 1 0).toNat / 2 ^ 60 = 4 ∧ (words.getD 3 0).toNat / 2 ^ 32 ≠ 0

theorem State.acceptDma_of_not_readsRecord (s : State) (core : Nat) {d : DmaDesc} (h : ¬ readsRecord d.words)
    (hr : d.record = none) : s.acceptDma core d = s.setCore core { s.core core with dma := (s.core core).dma ++ [d] } := by
  obtain ⟨⟩ := d
  subst hr
  unfold State.acceptDma
  dsimp only
  rw [if_neg]
  simp only [Bool.and_eq_true, decide_eq_true_eq]
  exact fun e => h ⟨e.1.1.1, e.1.1.2, e.1.2⟩

theorem State.acceptDma_of_readsRecord {core : Nat} {d : DmaDesc} (h : readsRecord d.words) (hs : d.status = none)
    {r : Option (Status × List Word)} (hr : s.acceptRecord ((d.words.getD 4 0).toNat % 2 ^ 48) (.dma core d.id) = (r, u)) :
    s.acceptDma core d = u.setCore core { u.core core with dma := (u.core core).dma ++ [{ d with record := r }] } := by
  obtain ⟨h1, h2, h3⟩ := h
  unfold State.acceptDma
  dsimp only
  rw [if_pos, hr]
  simp only [Bool.and_eq_true, decide_eq_true_eq, hs]
  exact ⟨⟨⟨h1, h2⟩, h3⟩, rfl⟩

/-- The descriptor that a DMA command puts into the engine (R115). -/
def dmaDesc (s : State) (i : Issue) (words : List Word) (wc : BitVec 2) (wait : Bool) : DmaDesc :=
  { id := s.fresh + 1, words := words, target := commandTarget i s.fresh wc wait, ctx := some i.ctx, serial := (s.at_ i).serial,
    status := if (words.getD 0 0).toNat / 2 ^ 40 % 256 ∈ [2, 3, 5, 7] then none else some 0x02, rerun := (s.at_ i).rerun }

theorem status_of_type (type : Nat) : (if (type == 2 || type == 3 || type == 5 || type == 7) = true then none else some (0x02 : Status)) =
    if type ∈ [2, 3, 5, 7] then none else some 0x02 := by
  simp [or_assoc]

theorem Ctx.taken_serial (c : Ctx) (token : Nat) (xd : Reg) (wc : BitVec 2) (wait : Bool) :
    (c.taken token xd wc wait).serial = c.serial := by
  unfold Ctx.taken; split
  · rfl
  · rw [Ctx.wake_setX]; simp only [Ctx.setX]; split <;> rfl

theorem Ctx.taken_rerun (c : Ctx) (token : Nat) (xd : Reg) (wc : BitVec 2) (wait : Bool) :
    (c.taken token xd wc wait).rerun = c.rerun := by
  unfold Ctx.taken; split
  · rfl
  · rw [Ctx.wake_setX]; simp only [Ctx.setX]; split <;> rfl

/-- A DMA command with room and a readable descriptor hands it to the engine and takes the command. -/
theorem dma_accepts {xd xa : Reg} {wc : BitVec 2} {w : Bool} (h : s.Performs i (wordC 0x30 xd xa 0 wc w 0))
    (hd : s.DescriptorOk i ((s.at_ i).x xa)) (hroom : (s.at_ i).counterRoom wc w = true) (hlen : (s.core i.core).dma.length < 32) :
    ∃ v, Issued (s.withTokens 2) v i ((s.at_ i).afterCommand s i (s.wordAt i) s.fresh xd wc w) ∧
      exec (.dma i xd xa wc w) s =
        .next (v.acceptDma i.core (dmaDesc s i (s.words8 (storeAddr i.core ((s.at_ i).x xa).toNat)) wc w)) := by
  have hl : ¬ 32 ≤ ((s.account i (s.wordAt i)).core i.core).dma.length := by rw [h.issued.core_dma]; omega
  have hr : ((s.at_ i).marked s i (s.wordAt i)).counterRoom wc w = true := hroom
  obtain ⟨v, hv, e⟩ := withDescriptor_of_ok h hd fun s words =>
    let (target, s) := s.commandTaken i.core i.ctx xd wc w
    let (id, s) := s.token
    let type := (words.headD 0).toNat / 2 ^ 40 % 256
    let accepted := type == 2 || type == 3 || type == 5 || type == 7
    s.acceptDma i.core { id := id, words := words, target := target, ctx := some i.ctx, serial := (s.ctx i.core i.ctx).serial,
                         status := if accepted then none else some 0x02, rerun := (s.ctx i.core i.ctx).rerun }
  obtain ⟨u, hu, hi⟩ := hv.commandTaken xd wc w
  have hi2 := hi.besideCores (.withTokens 1)
  rw [Ctx.taken_marked] at hi2
  refine ⟨u.withTokens 1, hi2, ?_⟩
  have hctx : (u.withTokens 1).ctx i.core i.ctx = _ := hi2.context
  rw [← Ctx.taken_marked] at hctx
  show Host.Outcome.next (s.issue i _ _) = _
  rw [State.issue_of_performs h, State.dmaCommand, State.account_ctx, hr, Ctx.marked_x]
  simp only [Bool.not_true, Bool.false_or, decide_eq_true_eq, if_neg hl]
  rw [e, hu]
  have hfresh : u.fresh = s.fresh + 1 := hi.fresh
  have hserial : ((u.withTokens 1).ctx i.core i.ctx).serial = (s.at_ i).serial := by rw [hctx, Ctx.taken_serial]; rfl
  have hrerun : ((u.withTokens 1).ctx i.core i.ctx).rerun = (s.at_ i).rerun := by rw [hctx, Ctx.taken_rerun]; rfl
  dsimp only
  rw [status_of_type, List.headD_eq_getD, dmaDesc, ← hserial, ← hrerun, ← hfresh]
  rfl

theorem dmaDesc_status {words : List Word} (h : readsRecord words) (wc : BitVec 2) (wait : Bool) :
    (dmaDesc s i words wc wait).status = none := by
  rw [dmaDesc, h.1]; rfl

/-- Settles O14: with room and a readable descriptor the engine takes it, which a set's record is read for; without room the thread waits. -/
theorem dmaCommand : Obligations.DmaCommand := by
  intro s i xd xa wc w h c word k words q type set d next
  refine ⟨fun hd hroom hlen => ?takes, fun hin hg hroom hlen => ?lost, fun hfull => ?waits⟩
  case takes =>
    obtain ⟨v, hv, e⟩ := dma_accepts h hd hroom hlen
    constructor
    · intro hset
      have hset : ¬ readsRecord words := hset
      rw [State.acceptDma_of_not_readsRecord v i.core (d := dmaDesc s i words wc w) hset rfl] at e
      exact ⟨_, e, hv.updCore (.dma d)⟩
    · intro hset
      have hset : readsRecord words := hset
      rcases hp : v.acceptRecord (q 4 % 2 ^ 48) (.dma i.core d.id) with ⟨r, u⟩
      rw [State.acceptDma_of_readsRecord (d := dmaDesc s i words wc w) hset (dmaDesc_status hset wc w) hp] at e
      refine ⟨_, e, v, hv, ?_⟩
      dsimp only
      rw [hp]
      rfl
  case lost =>
    have hl : ¬ 32 ≤ ((s.account i (s.wordAt i)).core i.core).dma.length := by rw [h.issued.core_dma]; exact Nat.not_le.mpr hlen
    refine ⟨_, rfl, ?_⟩
    rw [State.issue_of_performs h, State.dmaCommand, State.account_ctx,
      show ((s.at_ i).marked s i (s.wordAt i)).counterRoom wc w = true from hroom, Ctx.marked_x]
    simp only [Bool.not_true, Bool.false_or, decide_eq_true_eq, if_neg hl]
    exact withDescriptor_of_not_granted h hin hg _
  case waits =>
    refine ⟨_, rfl, ?_⟩
    rw [State.issue_of_performs h, State.dmaCommand, State.account_ctx, h.issued.core_dma, if_pos]
    · exact h.issued.awaitUnit _
    · rw [Bool.or_eq_true, decide_eq_true_eq]
      exact hfull.imp (fun e => congrArg (! ·) e) id

/-! ### The sync commands (R117) -/

theorem Issued.sendSync (h : Issued s t i c) (op : SyncOp) (object : Nat) (value : Word32) (target : Target) :
    Issued (s.sendSync op object value target) (t.sendSync op object value target) i c :=
  h.besideCores (.sendSync op object value target none)

/-- ADD and ARM with counter room send their operation; without it they wait in WAIT_UNIT. -/
theorem syncCommand_completes {cmd : Instr} {sub : BitVec 8} {arm w : Bool} {xd xa xb : Reg} {wc : BitVec 2}
    (hexec : exec cmd s = .next (s.issue i (wordC 0x33 xd xa xb wc w sub) fun s => s.syncCommand i.core i.ctx arm xd xa xb wc w))
    (h : s.Performs i (wordC 0x33 xd xa xb wc w sub)) :
    ((s.at_ i).counterRoom wc w = true → Completes cmd s fun t =>
      Issued ((s.withTokens 1).sendSync (if arm then .arm else .add) (((s.at_ i).x xa).toNat % 2 ^ 19) (((s.at_ i).x xb).truncate 32)
        (commandTarget i s.fresh wc w)) t i ((s.at_ i).afterCommand s i (s.wordAt i) s.fresh xd wc w)) ∧
    ((s.at_ i).counterRoom wc w = false → Completes cmd s fun t =>
      Issued s t i (((s.at_ i).marked s i (s.wordAt i)).block .waitUnit (.unit (.sync arm xd xa xb wc w)))) := by
  rw [State.issue_of_performs h, State.syncCommand, State.account_ctx] at hexec
  dsimp only at hexec
  constructor
  · intro hroom
    rw [show ((s.at_ i).marked s i (s.wordAt i)).counterRoom wc w = true from hroom] at hexec
    obtain ⟨v, e, hv⟩ := h.issued.commandTaken xd wc w
    rw [Ctx.taken_marked] at hv
    rw [e] at hexec
    exact ⟨_, hexec, hv.sendSync ..⟩
  · intro hroom
    rw [show ((s.at_ i).marked s i (s.wordAt i)).counterRoom wc w = false from hroom] at hexec
    exact ⟨_, hexec, h.issued.awaitUnit _⟩

/-- WAIT and READ send their operation and wait. -/
theorem syncWait_completes {cmd : Instr} {op : SyncOp} {xa : Reg} {st : CtxState} {g : Nat → Nat → Wait}
    {word : Word32}
    (hexec : exec cmd s = .next (s.issue i word fun s =>
      let object := ((s.ctx i.core i.ctx).x xa).toNat % 2 ^ 19
      let n := s.fresh
      let s := s.sendSync op object 0 (.wait i.core i.ctx n)
      s.updCtx i.core i.ctx (·.block st (g n object))))
    (h : s.Performs i word) :
    Completes cmd s fun t =>
      Issued (s.sendSync op (((s.at_ i).x xa).toNat % 2 ^ 19) 0 (.wait i.core i.ctx s.fresh)) t i
        (((s.at_ i).marked s i (s.wordAt i)).block st (g s.fresh (((s.at_ i).x xa).toNat % 2 ^ 19))) := by
  rw [State.issue_of_performs h, State.account_ctx] at hexec
  exact ⟨_, hexec, (h.issued.sendSync ..).updCtx _⟩

/-- Settles O16. -/
theorem syncCommands : Obligations.SyncCommands := by
  intro s i xd xa xb wc w
  refine ⟨?add, ?arm, ?wait, ?read⟩
  case add => exact syncCommand_completes (arm := false) rfl
  case arm => exact syncCommand_completes (arm := true) rfl
  case wait => exact syncWait_completes (g := fun n o => .syncWait n xd o) rfl
  case read => exact syncWait_completes (g := fun n _ => .syncRead n xd) rfl

/-! ### The VEC command (R121, R125) -/

theorem Issued.core_vec (h : Issued s t i c) : (t.core i.core).vec = (s.core i.core).vec := by rw [h.core]

theorem BesideIssue.vec (v : VecOp) : BesideIssue fun k => { k with vec := k.vec ++ [v] } := fun _ _ _ _ _ _ _ _ _ _ => rfl

/-- The operation that a VEC puts into the vector unit's input. -/
def vecOp (s : State) (i : Issue) (op : VOp) (xd xa xb xc : Reg) : VecOp :=
  { op := op, ctx := i.ctx, vcfg := (s.at_ i).vcfg, xd := (s.at_ i).x xd, xa := (s.at_ i).x xa, xb := (s.at_ i).x xb,
    xc := (s.at_ i).x xc, token := s.fresh, word := s.wordAt i }

/-- A VEC with room enters the unit's input; without it the thread waits in WAIT_UNIT. -/
theorem vecIssue_completes {cmd : Instr} {op : VOp} {xd xa xb xc : Reg} (hexec : exec cmd s = .next (s.vecIssue i op xd xa xb xc))
    (h : s.Performs i (wordV 0x32 xd xa xb xc op.code)) :
    ((s.at_ i).counter (((s.at_ i).vcfg >>> 25).truncate 2) ≠ 63 → (s.core i.core).vec.length < 8 → Completes cmd s fun t =>
      Issued ((s.withTokens 1).setCore i.core
        { s.core i.core with vec := (s.core i.core).vec ++ [vecOp s i op xd xa xb xc] }) t i
        (if (s.at_ i).vcfg.getLsbD 27 then
          (((s.at_ i).setCounter (((s.at_ i).vcfg >>> 25).truncate 2)
            ((s.at_ i).counter (((s.at_ i).vcfg >>> 25).truncate 2) + 1)).marked s i (s.wordAt i)).block .waitCmd (.vector s.fresh)
        else ((s.at_ i).setCounter (((s.at_ i).vcfg >>> 25).truncate 2)
            ((s.at_ i).counter (((s.at_ i).vcfg >>> 25).truncate 2) + 1)).wake.retired s i (s.wordAt i) 0 0)) ∧
    ((s.at_ i).counter (((s.at_ i).vcfg >>> 25).truncate 2) = 63 ∨ 8 ≤ (s.core i.core).vec.length → Completes cmd s fun t =>
      Issued s t i (((s.at_ i).marked s i (s.wordAt i)).block .waitUnit (.unit (.vec op xd xa xb xc)))) := by
  rw [State.vecIssue, State.issue_of_performs h, State.vecCommand, State.account_ctx, h.issued.core_vec] at hexec
  constructor
  · intro hroom hlen
    have hroom' : ¬ (!((s.at_ i).marked s i (s.wordAt i)).counterRoom (((s.at_ i).vcfg >>> 25).truncate 2) false ||
        decide (8 ≤ (s.core i.core).vec.length)) = true := by
      have hc : ((s.at_ i).marked s i (s.wordAt i)).counterRoom (((s.at_ i).vcfg >>> 25).truncate 2) false = true := decide_eq_true hroom
      rw [hc, decide_eq_false (by omega)]; decide
    have hv := ((h.issued.besideCores (.withTokens 1)).updCore (.vec (vecOp s i op xd xa xb xc))).setCtx
      (if (s.at_ i).vcfg.getLsbD 27 then
        (((s.at_ i).setCounter (((s.at_ i).vcfg >>> 25).truncate 2)
          ((s.at_ i).counter (((s.at_ i).vcfg >>> 25).truncate 2) + 1)).marked s i (s.wordAt i)).block .waitCmd (.vector s.fresh)
      else ((s.at_ i).setCounter (((s.at_ i).vcfg >>> 25).truncate 2)
          ((s.at_ i).counter (((s.at_ i).vcfg >>> 25).truncate 2) + 1)).wake.retired s i (s.wordAt i) 0 0)
    rw [← Ctx.retired_zero]
    refine ⟨_, hexec.trans (congrArg Host.Outcome.next (if_neg hroom')), ?_⟩
    rw [← Ctx.retired_zero] at hv
    exact hv
  · intro hfull
    refine ⟨_, hexec, ?_⟩
    rw [if_pos]
    · exact h.issued.awaitUnit _
    · rw [Bool.or_eq_true, decide_eq_true_eq]
      refine hfull.imp (fun e => ?_) id
      have hc : ((s.at_ i).marked s i (s.wordAt i)).counterRoom (((s.at_ i).vcfg >>> 25).truncate 2) false = false :=
        decide_eq_false (not_not.mpr e)
      exact congrArg (! ·) hc


/-- Settles O17. -/
theorem vectorCommands : Obligations.VectorCommands := by
  intro s i xd xa xb xc
  refine ⟨?_, ?_, ?_, ?_, ?_, ?_, ?_, ?_, ?_, ?_, ?_, ?_, ?_, ?_, ?_, ?_, ?_, ?_, ?_, ?_, ?_, ?_, ?_, ?_⟩
  all_goals exact vecIssue_completes rfl

end Sys2Proof.Machine
end

section
/-! PROOFS. The TILE command (R116, R175 to R180): its outcome is looked at on the issue, where it reads what it read before. -/
namespace Sys2Proof.Machine
variable {s t u v b : State} {i : Issue} {c : Ctx} {C : Map Core} {R : Map Nat}

/-! ### The TILE command (R116, R175 to R180) -/

theorem Issued.array (h : Issued s t i c) (a : Nat) : t.array i.core a = s.array i.core a := by
  rw [State.array, h.core]; rfl

theorem Issued.setArray (h : Issued s t i c) (a : Nat) (u : ArrayUnit) :
    Issued (s.setArray i.core a u) (t.setArray i.core a u) i c :=
  h.updCore (f := fun k => { k with arrays := Map.set {} k.arrays a u }) fun _ _ _ _ _ _ _ _ _ _ => rfl

theorem State.array_setArray_same (s : State) (core a : Nat) (u : ArrayUnit) : (s.setArray core a u).array core a = u := by
  simp [State.array, State.setArray]

theorem State.setArray_setArray_same (s : State) (core a : Nat) (u u' : ArrayUnit) :
    (s.setArray core a u).setArray core a u' = s.setArray core a u' := by
  simp [State.setArray, State.setCore_setCore_same]

theorem State.SameEntries.tileAbsent (h : s.SameEntries R) (core : Nat) (ws : List Word) :
    State.tileAbsent { s with cores := C, regs := R } core ws = s.tileAbsent core ws := by
  simp only [State.tileAbsent, h.translate]; rfl

theorem Issued.tileOutcome (h : Issued s t i c) (arr : Nat) (key : Word) (ws : List Word) :
    t.tileOutcome i.core arr key ws = s.tileOutcome i.core arr key ws := by
  have ha : t.tileAbsent i.core ws = s.tileAbsent i.core ws := by rw [h.rest]; exact h.sameEntries.tileAbsent _ _
  simp only [State.tileOutcome, State.chooseArray, h.array, ha]

theorem Issued.reg_of_ne (h : Issued s t i c) {idx sub : Nat} (hs : sub < 256) (h1 : idx ≠ 0xB010) (h2 : idx ≠ 0xB011) :
    t.reg idx sub = s.reg idx sub := h.sameEntries idx sub hs h1 h2

theorem Issued.holdCycles (h : Issued s t i c) (ws : List Word) : t.holdCycles ws = s.holdCycles ws := by
  rw [State.holdCycles, h.reg_of_ne (by omega) (by omega) (by omega)]; rfl

theorem Issued.run (h : Issued s t i c) : t.run = s.run := by rw [h.rest]

/-- The request of a TILE command (R176). -/
def tileReq (ws : List Word) (rerun : Option Nat) (target : Target) : TileReq :=
  { n := tileN ws, held := tileHAddr ws, heldScale := tileHScale ws, out := tileOutAddr ws, target := target, rerun := rerun }

/-- The tile that a request opens: closed at once where it is full or its key is 0 (R178). -/
def tileOpened (s : State) (ws : List Word) (key : Word) (r : TileReq) : Tile :=
  let n : Tile := { words := ws, key := key, reqs := [r], opened := true, holdEnd := s.run + s.holdCycles ws }
  if n.isFull then { n with opened := false, closedBy := .full } else if key = 0 then { n with opened := false } else n

theorem Issued.tileOpened_eq (h : Issued s t i c) (ws : List Word) (key : Word) (r : TileReq) :
    tileOpened t ws key r = tileOpened s ws key r := by
  simp only [tileOpened, h.run, h.holdCycles]

/-- A request joined to a tile, which closes where it is then full (R178). -/
def Tile.joined (o : Tile) (r : TileReq) : Tile :=
  let o := { o with reqs := o.reqs ++ [r] }
  if o.isFull then { o with opened := false, closedBy := .full } else o

/-- A tile opened in an array on an issue, its command taken. -/
theorem Issued.openTile (h : Issued b v i c) (xd : Reg) (wc : BitVec 2) (w : Bool) (a : Nat) (ws : List Word) (key : Word)
    (rerun : Option Nat) :
    Issued ((b.withTokens 1).setArray i.core a { b.array i.core a with
        tiles := (b.array i.core a).tiles ++ [tileOpened b ws key (tileReq ws rerun (commandTarget i b.fresh wc w))] })
      (let (target, s) := v.commandTaken i.core i.ctx xd wc w
       s.setArray i.core a { s.array i.core a with
        tiles := (s.array i.core a).tiles ++ [tileOpened s ws key (tileReq ws rerun target)] }) i (c.taken b.fresh xd wc w) := by
  obtain ⟨u, e, hu⟩ := h.commandTaken xd wc w
  rw [e]
  dsimp only
  rw [hu.tileOpened_eq, hu.array]
  exact hu.setArray _ _

/-- What the TILE command comes to where it has counter room and a readable descriptor, before the outcome is looked at. -/
theorem tile_runs {xd xa xb : Reg} {wc : BitVec 2} {w : Bool} {sub : BitVec 8}
    (h : s.Performs i (wordC 0x31 xd xa xb wc w sub)) (harr : sub.toNat % 8 < 5) (hd : s.DescriptorOk i ((s.at_ i).x xa))
    (hroom : (s.at_ i).counterRoom wc w = true) :
    ∃ v, Issued s v i ((s.at_ i).marked s i (s.wordAt i)) ∧ ∀ o,
      s.tileOutcome i.core (sub.toNat % 8) ((s.at_ i).x xb) (s.words8 (storeAddr i.core ((s.at_ i).x xa).toNat)) = o →
      exec (.tile i xd xa xb wc w sub) s = .next
        (let ws := s.words8 (storeAddr i.core ((s.at_ i).x xa).toNat)
         let openIn (s' : State) (a : Nat) : State :=
           let (target, s') := s'.commandTaken i.core i.ctx xd wc w
           s'.setArray i.core a { s'.array i.core a with
             tiles := (s'.array i.core a).tiles ++ [tileOpened s' ws ((s.at_ i).x xb) (tileReq ws (s.at_ i).rerun target)] }
         match o with
         | .done st =>
           let (target, s') := v.commandTaken i.core i.ctx xd wc w
           (s'.countTile i.core).complete target st
         | .join a j =>
           let (target, s') := v.commandTaken i.core i.ctx xd wc w
           match (s'.array i.core a).tiles[j]? with
           | some t => s'.setArray i.core a ((s'.array i.core a).setTile j (t.joined (tileReq ws (s.at_ i).rerun target)))
           | none => s'
         | .open_ a => openIn v a
         | .wait none => v.awaitUnit i.core i.ctx (.tile xd xa xb wc w sub)
         | .wait (some (a, j)) =>
           let k := match (v.array i.core a).tiles[j]? with
             | some t => (v.array i.core a).setTile j { t with opened := false }
             | none => v.array i.core a
           let s' := v.setArray i.core a k
           if k.isFull then s'.awaitUnit i.core i.ctx (.tile xd xa xb wc w sub) else openIn s' a) := by
  obtain ⟨v, hv, e⟩ := withDescriptor_of_ok h hd _
  refine ⟨v, hv, fun o ho => ?_⟩
  show Host.Outcome.next (s.issue i _ _) = _
  rw [State.issue_of_performs h, if_neg (by omega), State.tileCommand, State.account_ctx,
    show ((s.at_ i).marked s i (s.wordAt i)).counterRoom wc w = true from hroom, Ctx.marked_x, Ctx.marked_x]
  simp only [Bool.not_true, Bool.false_eq_true, if_false]
  rw [e, hv.tileOutcome, ho]
  rfl

theorem ArrayUnit.isFull_setTile (k : ArrayUnit) (j : Nat) (o : Tile) : (k.setTile j o).isFull = k.isFull := by
  simp [ArrayUnit.isFull, ArrayUnit.setTile]

/-- An array below 4 that is in order, has room and holds no open tile of the key opens the tile (R176, R177). -/
theorem State.tileOutcome_opens {core arr : Nat} {key : Word} {ws : List Word} (harr : arr < 4) (hm : tileM ws ≠ 0) (hn : tileN ws ≠ 0)
    (hk : tileK ws ≠ 0) (hl : tileLegal core ws = true) (hs : (s.array core arr).suspect = false)
    (ha : s.tileAbsent core ws = false) (ho : (s.array core arr).openTile key = none) (hf : (s.array core arr).isFull = false) :
    s.tileOutcome core arr key ws = .open_ arr := by
  simp [State.tileOutcome, hm, hn, hk, hl, if_pos harr, hs, ha, ho, hf]

/-- Settles O15: without counter room the command waits, and with it, it does what the outcome of R176 and R177 says. -/
theorem tileCommand : Obligations.TileCommand := by
  intro s i xd xa xb wc w sub h c word cmd arr ws key outcome next held req n1 n given
  have hnext : ((s.at_ i).marked s i (s.wordAt i)).taken s.fresh xd wc w = next := Ctx.taken_marked ..
  refine ⟨fun harr => ?illegal, fun harr hroom => ?noRoom, fun harr hd hroom => ?does, State.tileOutcome_opens⟩
  case illegal =>
    refine ⟨_, rfl, ?_⟩
    rw [State.issue_of_performs h, if_pos harr]
    exact issue_faultAt_issued h ..
  case noRoom =>
    refine ⟨_, rfl, ?_⟩
    rw [State.issue_of_performs h, if_neg (Nat.not_le.mpr harr), State.tileCommand, State.account_ctx,
      show ((s.at_ i).marked s i (s.wordAt i)).counterRoom wc w = false from hroom]
    exact h.issued.awaitUnit _
  case does =>
    obtain ⟨v, hv, hrun⟩ := tile_runs h harr hd hroom
    refine ⟨fun st ho => ?done, fun a j o ho hj => ?join, fun a ho => ?open_, fun ho => ?wait, fun a j o ho hj => ?close⟩
    case done =>
      obtain ⟨u, e, hu⟩ := hv.commandTaken xd wc w
      have hx := hrun _ ho
      rw [e] at hx
      exact ⟨_, hx, u, hnext ▸ hu, rfl⟩
    case join =>
      obtain ⟨u, e, hu⟩ := hv.commandTaken xd wc w
      have hx := hrun _ ho
      have hj' : (u.array i.core a).tiles[j]? = some o := by rw [hu.array]; exact hj
      rw [e] at hx
      dsimp only at hx
      rw [hj', hu.array] at hx
      exact ⟨_, hx, hnext ▸ hu.setArray _ _⟩
    case open_ => exact ⟨_, hrun _ ho, hnext ▸ hv.openTile ..⟩
    case wait => exact ⟨_, hrun _ ho, hv.awaitUnit _⟩
    case close =>
      have hx := hrun _ ho
      have hj' : (v.array i.core a).tiles[j]? = some o := by rw [hv.array]; exact hj
      dsimp only at hx
      rw [hj'] at hx
      dsimp only at hx
      rw [ArrayUnit.isFull_setTile, hv.array] at hx
      have hs := hv.setArray a ((s.array i.core a).setTile j { o with opened := false })
      constructor
      · intro hf
        rw [hf] at hx
        exact ⟨_, hx, hs.awaitUnit _⟩
      · intro hf
        rw [hf] at hx
        refine ⟨_, hx, ?_⟩
        have ho := hs.openTile xd wc w a ws key (s.at_ i).rerun
        have hb : ∀ x, ((s.setArray i.core a ((s.array i.core a).setTile j { o with opened := false })).withTokens 1).setArray i.core a x =
          (s.withTokens 1).setArray i.core a x := fun x => State.setArray_setArray_same (s.withTokens 1) ..
        rw [State.array_setArray_same, hb] at ho
        exact hnext ▸ ho

end Sys2Proof.Machine
end

section
/-! PROOFS. Pushes, counters, fences, special registers and BRK (R92, R118, R119, R121, R127 to R129, R140). -/
namespace Sys2Proof.Machine
variable {s t u v b : State} {i : Issue} {c : Ctx}

/-! ### PUSH and EXIT (R92, R118) -/

theorem Issued.isOwn (h : Issued s t i c) (dev : Nat) : t.isOwn dev = s.isOwn dev := by rw [h.rest]; rfl

theorem Issued.queue (h : Issued s t i c) (q : Nat) : t.queue q = s.queue q := by rw [h.rest]; rfl

theorem Issued.coreStatus (h : Issued s t i c) (k : Nat) : t.coreStatus k = s.coreStatus k := by rw [h.rest]; rfl

theorem Issued.nonMember (h : Issued s t i c) (dev : Nat) : t.nonMember dev = s.nonMember dev := by
  rw [State.nonMember, h.isOwn, h.reg_of_ne (by omega) (by omega) (by omega)]; rfl

/-- A push to a ring that has no free slot changes nothing (R412). -/
theorem State.pushQueue_of_full {q : Nat} (bytes : List Byte) (hq : queueExists q = true) (hc : s.coreStatus (queueCore q) = 0)
    (hp : (s.queue q).producer = true) (hv : (s.queue q).ringValid q = true) (hf : (s.queue q).full = true) :
    s.pushQueue q bytes = (0x100, s) := by
  simp [State.pushQueue, hq, hc, hp, hv, hf]

/-- A push to a ring in SRAM that has a free slot, its entry written (R412). -/
theorem State.pushQueue_of_room {q : Nat} (bytes : List Byte) (hr : (s.queue q).ringSpace ≠ 2) (hq : queueExists q = true)
    (hc : s.coreStatus (queueCore q) = 0) (hp : (s.queue q).producer = true) (hv : (s.queue q).ringValid q = true)
    (hf : (s.queue q).full = false)
    (hw : s.writeRange (s.slotAddr q (s.queue q).pi.toNat) (pushBytes bytes) none .other = (0, u)) :
    s.pushQueue q bytes = (0, (u.setQueue q { u.queue q with pi := (s.queue q).pi + 1 }).enterLedger q 1 (s.queue q).pi) := by
  simp only [State.pushQueue, hq, hc, hp, hv, hf, if_neg hr, hw, Bool.not_true, Bool.false_eq_true, if_false, ne_eq,
    not_true_eq_false, Bool.or_false]
  rfl

/-- What a PUSH whose descriptor is readable comes to. -/
theorem push_runs {xd xa xb : Reg} (h : s.Performs i (wordC 0x34 xd xa xb 0 false 0x00)) (hd : s.DescriptorOk i ((s.at_ i).x xa)) :
    ∃ v, Issued s v i ((s.at_ i).marked s i (s.wordAt i)) ∧ exec (.quePush i xd xa xb) s = .next
      (let gq := ((s.at_ i).x xb).toNat % 2 ^ 25
       let dev := gq / 2 ^ 19
       let bytes := (s.words8 (storeAddr i.core ((s.at_ i).x xa).toNat)).flatMap fun w => natToBytes 8 w.toNat
       let sent (addr : Nat) : State :=
         (v.sendReq (v.threadSource i.core i.ctx) (.push (gq % 2 ^ 19) bytes) addr).2.updCtx i.core i.ctx
           (·.block .waitCmd (.push s.fresh xd))
       if s.isOwn dev && (s.queue (gq % 2 ^ 19)).ringSpace != 2 then
         let (r, u) := v.pushQueue (gq % 2 ^ 19) bytes
         u.updCtx i.core i.ctx fun c => (c.setX xd r).advance
       else if s.isOwn dev then sent (dev * 2 ^ 48 + registerBase)
       else if s.nonMember dev then v.updCtx i.core i.ctx fun c => (c.setX xd 0x07).advance
       else sent (dev * 2 ^ 48)) := by
  obtain ⟨v, hv, e⟩ := withDescriptor_of_ok h hd _
  refine ⟨v, hv, ?_⟩
  show Host.Outcome.next (s.issue i _ _) = _
  rw [State.issue_of_performs h, State.account_ctx]
  dsimp only
  rw [Ctx.marked_x, Ctx.marked_x, e, hv.isOwn, hv.queue, hv.nonMember, ← hv.fresh]
  rfl

/-! ### WAITC and FENCE (R88, R119, R127, R128) -/

theorem Issued.fenceHolds (h : Issued s t i c) (hs : c.serial = (s.at_ i).serial) (hw : c.wc = (s.at_ i).wc) (mask : BitVec 4) :
    t.fenceHolds i.core i.ctx mask = s.fenceHolds i.core i.ctx mask := by
  have hserial : (t.ctx i.core i.ctx).serial = (s.ctx i.core i.ctx).serial := (congrArg Ctx.serial h.context).trans hs
  have hidle : (t.ctx i.core i.ctx).idle = (s.ctx i.core i.ctx).idle := by
    have hwc : (t.ctx i.core i.ctx).wc = (s.ctx i.core i.ctx).wc := (congrArg Ctx.wc h.context).trans hw
    simp only [Ctx.idle, Ctx.counter, hwc]
  have hreqs : t.reqs = s.reqs := by rw [h.rest]
  simp only [State.fenceHolds, State.storesDone, State.hensDone, h.core_dma, hserial, hidle, hreqs]

/-- A condition that does not hold yet leaves its thread waiting. -/
theorem Issued.awaitHere_of_not (h : Issued s t i c) {w : Wait}
    (hw : (t.updCtx i.core i.ctx (·.block .waitCmd w)).recheck i.core i.ctx = t.updCtx i.core i.ctx (·.block .waitCmd w)) :
    Issued s (t.awaitHere i w) i (c.block .waitCmd w) := by
  have hb := h.updCtx (·.block .waitCmd w)
  rw [State.awaitHere, hw]
  exact hb.updCtx fun c => if c.state == .ready then { c with waited := false } else c

/-- One that holds at once lets it go on, and it has not waited. -/
theorem Issued.awaitHere_of_holds (h : Issued s t i c) {w : Wait} {d : Ctx}
    (hw : (t.updCtx i.core i.ctx (·.block .waitCmd w)).recheck i.core i.ctx =
      (t.updCtx i.core i.ctx (·.block .waitCmd w)).setCtx i.core i.ctx d) (hd : d.state = .ready) :
    Issued s (t.awaitHere i w) i { d with waited := false } := by
  have hb := ((h.updCtx (·.block .waitCmd w)).setCtx d).updCtx fun c => if c.state == .ready then { c with waited := false } else c
  rw [if_pos (by rw [hd]; rfl)] at hb
  rw [State.awaitHere, hw]
  exact hb

theorem State.recheck_counter {core ctx : Nat} {n : BitVec 2} {limit : Nat} {xd : Reg} (h : (s.ctx core ctx).wait = .counter n limit xd) :
    s.recheck core ctx = if ((s.ctx core ctx).counter n).toNat ≤ limit then s.setCtx core ctx ((s.ctx core ctx).collect n xd) else s := by
  rw [State.recheck, h]

theorem State.recheck_fence {core ctx : Nat} {mask : BitVec 4} (h : (s.ctx core ctx).wait = .fence mask) :
    s.recheck core ctx = if s.fenceHolds core ctx mask then s.endFence core ctx mask else s := by
  rw [State.recheck, h]

theorem Ctx.setX_block (c : Ctx) (r : Reg) (x : Word) (st : CtxState) (w : Wait) :
    (c.block st w).setX r x = (c.setX r x).block st w := by
  unfold Ctx.setX; split <;> rfl

/-- A collected status on an issue is a retirement with the status read and cleared (R119). -/
theorem Ctx.collect_block (c : Ctx) (s : State) (i : Issue) (w : Word32) (n : BitVec 2) (limit : Nat) (xd : Reg) :
    { ((c.marked s i w).block .waitCmd (.counter n limit xd)).collect n xd with waited := false } =
      (c.setAsync n 0).wake.retired s i w xd ((c.asyncStatus n).zeroExtend 64) := by
  rw [← Ctx.retired_eq, Ctx.collect, Ctx.setX_block]
  unfold Ctx.setX
  split <;> rfl

/-- A WAITC collects its status where its counter is at or below the threshold, and waits otherwise (R119). -/
theorem waitc_completes {xd : Reg} {m : BitVec 16} (h : s.Performs i (wordI 0x35 xd 0 m)) :
    (((s.at_ i).counter (m.truncate 2)).toNat ≤ m.toNat / 4 % 64 → Completes (.waitc i xd m) s fun t =>
      Issued s t i (((s.at_ i).setAsync (m.truncate 2) 0).wake.retired s i (s.wordAt i) xd
        (((s.at_ i).asyncStatus (m.truncate 2)).zeroExtend 64))) ∧
    (m.toNat / 4 % 64 < ((s.at_ i).counter (m.truncate 2)).toNat → Completes (.waitc i xd m) s fun t =>
      Issued s t i (((s.at_ i).marked s i (s.wordAt i)).block .waitCmd (.counter (m.truncate 2) (m.toNat / 4 % 64) xd))) := by
  have hexec : exec (.waitc i xd m) s =
      .next ((s.account i (s.wordAt i)).awaitHere i (.counter (m.truncate 2) (m.toNat / 4 % 64) xd)) := by
    show Host.Outcome.next (s.issue i _ _) = _
    rw [State.issue_of_performs h]
  have hctx : ((s.account i (s.wordAt i)).updCtx i.core i.ctx (·.block .waitCmd (.counter (m.truncate 2) (m.toNat / 4 % 64) xd))).ctx
      i.core i.ctx = ((s.at_ i).marked s i (s.wordAt i)).block .waitCmd (.counter (m.truncate 2) (m.toNat / 4 % 64) xd) :=
    (h.issued.updCtx _).context
  have hre := State.recheck_counter (congrArg Ctx.wait hctx)
  rw [hctx] at hre
  constructor
  · intro hle
    refine ⟨_, hexec, ?_⟩
    rw [← Ctx.collect_block (limit := m.toNat / 4 % 64)]
    exact h.issued.awaitHere_of_holds (hre.trans (if_pos hle)) rfl
  · intro hlt
    exact ⟨_, hexec, h.issued.awaitHere_of_not (hre.trans (if_neg (Nat.not_le.mpr hlt)))⟩

theorem State.endFence_of_ok {core ctx : Nat} {mask : BitVec 4} (h : mask.getLsbD 1 = true → (s.ctx core ctx).storeStatus = 0) :
    s.endFence core ctx mask = s.setCtx core ctx (s.ctx core ctx).wake.advance := by
  rw [State.endFence]
  exact if_neg (by simpa using h)

theorem State.endFence_of_failed {core ctx : Nat} {mask : BitVec 4} (hg : mask.getLsbD 1 = true)
    (hb : (s.ctx core ctx).storeStatus ≠ 0) :
    s.endFence core ctx mask = (s.faultAt core ctx causeStoreFailed (s.ctx core ctx).storeStatus 0).updCtx core ctx fun c =>
      { c with storeStatus := 0 } := by
  rw [State.endFence]
  exact if_pos (by simpa using ⟨hg, hb⟩)

/-- A context that a check has stopped does not go on. -/
theorem stopped_not_ready (hold : Bool) : (if hold then CtxState.faulted else .exiting) ≠ .ready := by
  cases hold <;> decide

/-- What is done to a context that goes on is not done to another. -/
theorem Issued.unlessReady (h : Issued s t i c) (hc : c.state ≠ .ready) (g : Ctx → Ctx) :
    Issued s (t.updCtx i.core i.ctx fun c => if c.state == .ready then g c else c) i c := by
  have hu := h.updCtx fun c => if c.state == .ready then g c else c
  rwa [if_neg (by simpa using hc)] at hu

/-- A FENCE goes on, faults or waits (R127, R128). -/
theorem fence_completes {m : BitVec 16} (h : s.Performs i (wordI 0x36 0 0 m)) :
    (s.fenceHolds i.core i.ctx (m.truncate 4) = true → (m.getLsbD 1 = true → (s.at_ i).storeStatus = 0) →
      Completes (.fence i m) s fun t => Issued s t i ((s.at_ i).wake.retired s i (s.wordAt i) 0 0)) ∧
    (s.fenceHolds i.core i.ctx (m.truncate 4) = true → m.getLsbD 1 = true → (s.at_ i).storeStatus ≠ 0 →
      Completes (.fence i m) s fun t =>
        Issued (s.faultLogged i.core i.ctx i.beat causeStoreFailed (s.at_ i).storeStatus 0 (s.wordAt i)) t i
          { ((s.at_ i).marked s i (s.wordAt i)).stopped (s.reg 0xA111 1 == 1) (s.at_ i).storeStatus with
            storeStatus := 0, waited := true }) ∧
    (s.fenceHolds i.core i.ctx (m.truncate 4) = false → Completes (.fence i m) s fun t =>
      Issued s t i (((s.at_ i).marked s i (s.wordAt i)).block .waitCmd (.fence (m.truncate 4)))) := by
  have hexec : exec (.fence i m) s = .next ((s.account i (s.wordAt i)).awaitHere i (.fence (m.truncate 4))) := by
    show Host.Outcome.next (s.issue i _ _) = _
    rw [State.issue_of_performs h]
  have hb := h.issued.updCtx (·.block .waitCmd (.fence (m.truncate 4)))
  have hctx : ((s.account i (s.wordAt i)).updCtx i.core i.ctx (·.block .waitCmd (.fence (m.truncate 4)))).ctx i.core i.ctx =
      ((s.at_ i).marked s i (s.wordAt i)).block .waitCmd (.fence (m.truncate 4)) := hb.context
  have hre := State.recheck_fence (congrArg Ctx.wait hctx)
  rw [hb.fenceHolds rfl rfl] at hre
  have hglobal : (m.truncate 4).getLsbD 1 = m.getLsbD 1 := by simp
  refine ⟨fun hf hok => ?_, fun hf hg hbad => ?_, fun hf => ?_⟩
  · rw [if_pos hf, State.endFence_of_ok (by rw [hglobal, hctx]; exact hok), hctx] at hre
    refine ⟨_, hexec, ?_⟩
    rw [← Ctx.retired_zero]
    exact h.issued.awaitHere_of_holds hre rfl
  · rw [if_pos hf, State.endFence_of_failed (hglobal.trans hg) (by rw [hctx]; exact hbad), hctx] at hre
    have hfault := (hb.faultAt h.selected rfl rfl causeStoreFailed (s.at_ i).storeStatus 0).updCtx fun c => { c with storeStatus := 0 }
    refine ⟨_, hexec, ?_⟩
    rw [State.awaitHere, hre]
    exact hfault.unlessReady (stopped_not_ready _) fun c => { c with waited := false }
  · rw [if_neg (by rw [hf]; decide)] at hre
    exact ⟨_, hexec, h.issued.awaitHere_of_not hre⟩

/-- Settles O18: each command on the state with its issue counted. -/
theorem queueCounterAndFenceCommands : Obligations.QueueCounterAndFenceCommands := by
  intro s i xd xa xb m c word gq n limit mask q k bytes
  refine ⟨fun h hd => ?push, fun h => ?exit, waitc_completes, fence_completes⟩
  case push =>
    obtain ⟨v, hv, hexec⟩ := push_runs h hd
    have hsent : ∀ addr, Issued (s.sendReq (.thread i.core i.ctx c.serial) (.push q bytes) addr).2
        ((v.sendReq (v.threadSource i.core i.ctx) (.push q bytes) addr).2.updCtx i.core i.ctx (·.block .waitCmd (.push s.fresh xd))) i
        ((c.marked s i word).block .waitCmd (.push s.fresh xd)) := fun addr => hv.sendReq (.push q bytes) addr _
    have hsram : s.isOwn (gq / 2 ^ 19) = true → k.ringSpace ≠ 2 → (s.isOwn (gq / 2 ^ 19) && k.ringSpace != 2) = true :=
      fun ho hr => Bool.and_eq_true_iff.mpr ⟨ho, bne_iff_ne.mpr hr⟩
    have hdram : k.ringSpace = 2 → ¬ (s.isOwn (gq / 2 ^ 19) && k.ringSpace != 2) = true :=
      fun hr e => absurd hr (bne_iff_ne.mp (Bool.and_eq_true_iff.mp e).2)
    have hother : s.isOwn (gq / 2 ^ 19) = false → ¬ (s.isOwn (gq / 2 ^ 19) && k.ringSpace != 2) = true :=
      fun ho e => Bool.false_ne_true (ho.symm.trans (Bool.and_eq_true_iff.mp e).1)
    refine ⟨fun ho hr => ?here, fun ho hr hq hc hp hval hf => ?full, fun u hr hq hc hp hval hf hw => ?room, fun ho hr => ?dram,
      fun ho hn => ?gone, fun ho hn => ?abroad⟩
    case here => exact ⟨_, hexec.trans (congrArg Host.Outcome.next (if_pos (hsram ho hr))), v, hv, rfl⟩
    case full =>
      have hx := hexec.trans (congrArg Host.Outcome.next (if_pos (hsram ho hr)))
      rw [State.pushQueue_of_full (q := q) bytes hq (by rw [hv.coreStatus]; exact hc) (by rw [hv.queue]; exact hp)
        (by rw [hv.queue]; exact hval) (by rw [hv.queue]; exact hf)] at hx
      refine ⟨_, hx, ?_⟩
      rw [← Ctx.retired_eq]
      exact hv.updCtx fun c => (c.setX xd 0x100).advance
    case room => exact State.pushQueue_of_room bytes hr hq hc hp hval hf hw
    case dram => exact ⟨_, hexec.trans (congrArg Host.Outcome.next ((if_neg (hdram hr)).trans (if_pos ho))), hsent _⟩
    case gone =>
      refine ⟨_, hexec.trans (congrArg Host.Outcome.next
        ((if_neg (hother ho)).trans ((if_neg (by rw [ho]; decide)).trans (if_pos hn)))), ?_⟩
      rw [← Ctx.retired_eq]
      exact hv.updCtx fun c => (c.setX xd 0x07).advance
    case abroad =>
      exact ⟨_, hexec.trans (congrArg Host.Outcome.next
        ((if_neg (hother ho)).trans ((if_neg (by rw [ho]; decide)).trans (if_neg (by rw [hn]; decide))))), hsent _⟩
  case exit =>
    refine ⟨_, rfl, ?_⟩
    exact issue_updCtx_issued h fun c => { c with state := .exiting, ending := .exit ((c.x xb).truncate 8) }

/-! ### Special registers and BRK (R121, R129, R140) -/

/-- The special registers as they read on an issue (R129). -/
def specialRegisters (s : State) (i : Issue) : List (BitVec 16 × Word) :=
  let c := s.at_ i
  [(0x000, BitVec.ofNat 64 i.ctx), (0x001, BitVec.ofNat 64 (s.group.member * 2 ^ 14 + i.core)), (0x002, c.taskQueue.zeroExtend 64),
   (0x003, BitVec.ofNat 64 (0x3C000 + i.ctx * 0x40)), (0x004, c.vcfg), (0x005, if c.issueClass then 1 else 0),
   (0x006, BitVec.ofNat 64 ((c.counter 0).toNat + (c.counter 1).toNat * 2 ^ 8 + (c.counter 2).toNat * 2 ^ 16 +
     (c.counter 3).toNat * 2 ^ 24)), (0x007, BitVec.ofNat 64 i.beat), (0x008, s.refTime (coreTower i.core)),
   (0x009, BitVec.ofNat 64 (s.field (coreField i.core)).meas), (0x00A, BitVec.ofNat 64 (s.appliedStretch i.core)),
   (0x010, (c.asyncStatus 0).zeroExtend 64), (0x011, (c.asyncStatus 1).zeroExtend 64), (0x012, (c.asyncStatus 2).zeroExtend 64),
   (0x013, (c.asyncStatus 3).zeroExtend 64), (0x014, c.storeStatus.zeroExtend 64)]

theorem Issued.appliedStretch (h : Issued s t i c) : t.appliedStretch i.core = s.appliedStretch i.core := by
  have hs : (t.core i.core).stretch = (s.core i.core).stretch := by rw [h.core]
  have hf : t.field (coreField i.core) = s.field (coreField i.core) := by rw [h.rest]; rfl
  rw [State.appliedStretch, hs, hf]; rfl

/-- A listed special register reads on an issue as said. -/
theorem Issued.readSpecial_listed {w : Word32} (h : Issued s t i ((s.at_ i).marked s i w)) {m : BitVec 16} {x : Word}
    (hx : (m, x) ∈ specialRegisters s i) : t.readSpecial i.core i.ctx m.toNat = some x := by
  have hctx : t.ctx i.core i.ctx = (s.at_ i).marked s i w := h.context
  have hgroup : t.group = s.group := by rw [h.rest]
  have hfield : t.field (coreField i.core) = s.field (coreField i.core) := by rw [h.rest]; rfl
  simp only [specialRegisters, List.mem_cons, Prod.mk.injEq, List.not_mem_nil, or_false] at hx
  rcases hx with ⟨rfl, rfl⟩ | ⟨rfl, rfl⟩ | ⟨rfl, rfl⟩ | ⟨rfl, rfl⟩ | ⟨rfl, rfl⟩ | ⟨rfl, rfl⟩ | ⟨rfl, rfl⟩ | ⟨rfl, rfl⟩ | ⟨rfl, rfl⟩ |
    ⟨rfl, rfl⟩ | ⟨rfl, rfl⟩ | ⟨rfl, rfl⟩ | ⟨rfl, rfl⟩ | ⟨rfl, rfl⟩ | ⟨rfl, rfl⟩ | ⟨rfl, rfl⟩
  all_goals
    simp only [State.readSpecial, hctx, hgroup, hfield, h.beats, h.refTime, h.appliedStretch]
    rfl

/-- Any other number is not listed. -/
theorem State.readSpecial_unlisted (s : State) (core ctx : Nat) {m : BitVec 16}
    (hm : m ∉ ([0x000, 0x001, 0x002, 0x003, 0x004, 0x005, 0x006, 0x007, 0x008, 0x009, 0x00A, 0x010, 0x011, 0x012, 0x013, 0x014] :
      List (BitVec 16))) : s.readSpecial core ctx m.toNat = none := by
  simp only [List.mem_cons, List.not_mem_nil, or_false, not_or] at hm
  unfold State.readSpecial
  split
  case h_17 => rfl
  all_goals exfalso; bv_omega

/-- Settles O19: CSRR and CSRW by number, BRK by its action. -/
theorem specialRegistersAndBreak : Obligations.SpecialRegistersAndBreak := by
  intro s i xd xa m k c word
  refine ⟨fun h => ⟨fun v hv => ?csrr, fun hm => ?unlisted⟩, fun h => ⟨fun hm => ?vcfg, fun hm => ?issueClass, fun h4 h5 => ?other⟩,
    fun h => ⟨fun hb => ?nothing, fun hb => ?fault, fun hb => ?freeze⟩⟩
  case csrr =>
    have hexec : exec (.csrr i xd m) s = .next (match (s.account i word).readSpecial i.core i.ctx m.toNat with
        | some v => (s.account i word).updCtx i.core i.ctx fun c => (c.setX xd v).advance
        | none => (s.account i word).faultAt i.core i.ctx causeIllegal 0x08 0) :=
      congrArg Host.Outcome.next (State.issue_of_performs h _)
    rw [h.issued.readSpecial_listed hv] at hexec
    refine ⟨_, hexec, ?_⟩
    rw [← Ctx.retired_eq]
    exact h.issued.updCtx fun c => (c.setX xd v).advance
  case unlisted =>
    have hexec : exec (.csrr i xd m) s = .next (match (s.account i word).readSpecial i.core i.ctx m.toNat with
        | some v => (s.account i word).updCtx i.core i.ctx fun c => (c.setX xd v).advance
        | none => (s.account i word).faultAt i.core i.ctx causeIllegal 0x08 0) :=
      congrArg Host.Outcome.next (State.issue_of_performs h _)
    rw [State.readSpecial_unlisted _ _ _ hm] at hexec
    exact ⟨_, hexec, issue_faultAt_issued h ..⟩
  case vcfg =>
    refine ⟨_, rfl, ?_⟩
    rw [State.issue_of_performs h, if_pos hm, ← Ctx.retired_zero]
    exact h.issued.updCtx fun c => { c with vcfg := c.x xa &&& vcfgMask }.advance
  case issueClass =>
    refine ⟨_, rfl, ?_⟩
    rw [State.issue_of_performs h, if_neg (by rw [hm]; decide), if_pos hm, ← Ctx.retired_zero]
    exact h.issued.updCtx fun c => { c with issueClass := (c.x xa).getLsbD 0 }.advance
  case other =>
    refine ⟨_, rfl, ?_⟩
    rw [State.issue_of_performs h, if_neg h4, if_neg h5]
    exact issue_faultAt_issued h ..
  case nothing =>
    refine ⟨_, rfl, ?_⟩
    rw [State.issue_of_performs h, h.issued.reg_of_ne (by omega) (by omega) (by omega), hb, ← Ctx.retired_zero]
    exact h.issued.updCtx Ctx.advance
  case fault =>
    refine ⟨_, rfl, ?_⟩
    rw [State.issue_of_performs h, h.issued.reg_of_ne (by omega) (by omega) (by omega), hb]
    exact issue_faultAt_issued h ..
  case freeze =>
    refine ⟨_, rfl, ?_⟩
    rw [State.issue_of_performs h, h.issued.reg_of_ne (by omega) (by omega) (by omega), hb]
    rfl

end Sys2Proof.Machine
end

section
/-! PROOFS. A cycle of the reference on an empty queue, and the machine at reset (R17, R70, R71, R442). -/
namespace Sys2Proof.Machine
variable {s t u v : State}

/-! ### A cycle of the reference (R17, R70, R71, R442; assumption 68) -/

/-- The time counted, and nothing else. -/
def State.clocked (s : State) : State := { s with now := s.now + 1, run := if s.running then s.run + 1 else s.run }

theorem State.countTick_eq (s : State) : s.countTick = { s with regs := s.countTick.regs } := by
  unfold State.countTick; split <;> rfl

theorem State.countTick_regs (h : s.reg 0x2210 6 ≠ 1) : s.countTick.regs = s.regs := by
  rw [State.countTick, if_neg]; simp [h]

theorem State.countTick_freezeState (s : State) : s.countTick.reg 0xA001 3 = s.reg 0xA001 3 := by
  unfold State.countTick; split
  · exact State.reg_setReg_of_ne _ _ (by omega)
  · rfl

/-- The queues' eligibility and the group's tick, which come before the steward's rewriting. -/
theorem State.countTick_noteEligible_eq (s : State) :
    s.countTick.noteEligible = { s with queues := s.countTick.noteEligible.queues, regs := s.countTick.regs } := by
  conv_lhs => rw [State.countTick_eq s]
  rw [State.countTick_eq s]; rfl

theorem State.endThaw_of_not_thawing (h : s.reg 0xA001 3 ≠ 3) : s.endThaw = s := by
  rw [State.endThaw, if_pos]; simp [h]

theorem State.stewardRewrites_of_none
    (h : (s.mem.wbLog.find? fun e => e.2.kind != 0 && e.2.steward && !e.2.rewritten) = none ∨ s.running = false ∨
      s.steward.running = false ∨ s.steward.lost = true) : s.stewardRewrites = s := by
  unfold State.stewardRewrites
  split
  · rfl
  · rename_i hn
    simp only [Bool.or_eq_true, Bool.not_eq_true', not_or, Bool.not_eq_true, Bool.not_eq_false] at hn
    obtain ⟨⟨hr, hs⟩, hl⟩ := hn
    rcases h with h | h | h | h
    · rw [h]
    · rw [hr] at h; cases h
    · rw [hs] at h; cases h
    · rw [hl] at h; cases h

theorem State.stewardRewrites_of_some {k : Nat} {e : WbEntry}
    (h : (s.mem.wbLog.find? fun e => e.2.kind != 0 && e.2.steward && !e.2.rewritten) = some (k, e)) (hr : s.running = true)
    (hs : s.steward.running = true) (hl : s.steward.lost = false) :
    s.stewardRewrites = s.writeDramLine (k / 64 * 2048 + e.channel.toNat) e.offset.toNat
      (s.imageLine (k / 64 * 2048 + e.channel.toNat) e.offset.toNat) false := by
  rw [State.stewardRewrites, hr, hs, hl]
  simp only [Bool.not_true, Bool.or_false, Bool.false_eq_true, if_false, h]

theorem State.writeDramLine_regs (s : State) (ch off : Nat) (data : List Byte) (spread : Bool) :
    (s.writeDramLine ch off data spread).regs = s.regs := by
  have hw : ∀ v : State, (v.wbRewritten ch off).regs = v.regs := fun _ => rfl
  have hc : ∀ v : State, (v.countLine ch off true spread).regs = v.regs := fun _ => rfl
  rw [State.writeDramLine, hc, State.putDramLine, hw]; rfl

theorem State.stewardRewrites_regs (s : State) : s.stewardRewrites.regs = s.regs := by
  unfold State.stewardRewrites
  split
  · rfl
  · split
    · exact State.writeDramLine_regs ..
    · rfl

theorem State.stewardRewrites_reg (s : State) (idx sub : Nat) : s.stewardRewrites.reg idx sub = s.reg idx sub := by
  rw [State.reg, State.stewardRewrites_regs]; rfl

/-- A tick outside a thaw is the time, the queues' eligibility and the group's tick, then the steward's rewriting. -/
theorem State.tick_of_not_thawing (h : s.reg 0xA001 3 ≠ 3) :
    ∃ Q R, (s.reg 0x2210 6 ≠ 1 → R = s.regs) ∧ State.running { s.clocked with queues := Q, regs := R } = s.running ∧
      s.tick = State.stewardRewrites { s.clocked with queues := Q, regs := R } := by
  have hfreeze : s.clocked.countTick.noteEligible.reg 0xA001 3 = s.reg 0xA001 3 := s.clocked.countTick_freezeState
  have htick : s.tick = s.clocked.countTick.noteEligible.stewardRewrites :=
    State.endThaw_of_not_thawing fun e => h (hfreeze.symm.trans ((State.stewardRewrites_reg ..).symm.trans e))
  have hrun : s.clocked.countTick.noteEligible.running = s.running := congrArg (· == 0) hfreeze
  rw [State.countTick_noteEligible_eq] at htick hrun
  exact ⟨_, _, State.countTick_regs (s := s.clocked), hrun, htick⟩

/-- Settles O57: the tick in its parts, of which the steward's rewriting is none or one line's. -/
theorem idleCycle : Obligations.IdleCycle := by
  intro s hp hthaw due
  have hstep : step s = .next s.tick := by rw [step, hp]
  obtain ⟨Q, R, hregs, hrun, htick⟩ := State.tick_of_not_thawing hthaw
  constructor
  · intro h
    have ht := htick.trans (State.stewardRewrites_of_none (s := { s.clocked with queues := Q, regs := R })
      (h.imp_right (Or.imp_left hrun.trans)))
    refine ⟨_, hstep, ?_⟩
    rw [ht]
    exact ⟨rfl, hp, rfl, rfl, rfl, rfl, hregs, rfl⟩
  · intro k e hdue hr hs hl u ch
    have ht := htick.trans (State.stewardRewrites_of_some (s := { s.clocked with queues := Q, regs := R }) hdue (hrun.trans hr) hs hl)
    have hu : s.clocked = u := by rw [State.clocked, hr]; rfl
    refine ⟨_, hstep, ?_⟩
    rw [ht, hu]
    exact ⟨rfl, rfl⟩

/-- Settles O58. -/
theorem resetState : Obligations.ResetState :=
  ⟨rfl, rfl, rfl, rfl, rfl, rfl, rfl, rfl, fun _ => rfl, fun _ _ => rfl, fun _ => rfl, fun _ => rfl, fun _ => rfl, rfl, rfl⟩

end Sys2Proof.Machine
end

section
/-! PROOFS. Answers that reach a thread, and the end of tasks (R92, R107, R110, R117, R128, R131, R132, R135, R137, R142). -/
namespace Sys2Proof.Machine
variable {s t u : State} {core ctx : Nat}

/-! ### Answers that reach a thread (R107, R110, R117, R128, R131) -/

theorem State.recheck_of_wait_none (h : (s.ctx core ctx).wait = .none) : s.recheck core ctx = s := by
  rw [State.recheck, h]

theorem State.recheck_setCtx_of_wait_none {c : Ctx} (h : c.wait = .none) : (s.setCtx core ctx c).recheck core ctx = s.setCtx core ctx c :=
  State.recheck_of_wait_none (by rw [State.ctx_setCtx_same]; exact h)

/-- What an answer makes of its thread: the value, or the fault of its status (R107, R131). -/
def State.answered (s : State) (core ctx : Nat) (xd : Reg) (v : Word) (addr : Nat) (st : Status) : State :=
  if st = 0 then s.setCtx core ctx ((s.ctx core ctx).setX xd v).wake.advance
  else (s.faultLogged core ctx (s.core core).beats (loadCause st) st addr (s.ctx core ctx).word).setCtx core ctx
    ((s.ctx core ctx).stopped (s.reg 0xA111 1 == 1) st)

theorem State.answered_eq (s : State) (core ctx : Nat) (xd : Reg) (v : Word) (addr : Nat) (st : Status) :
    (if st = 0 then s.setCtx core ctx ((s.ctx core ctx).setX xd v).wake.advance else s.faultAt core ctx (loadCause st) st addr) =
      s.answered core ctx xd v addr st := by
  rw [State.faultAt, State.threadFault_eq]; rfl

theorem State.recheck_answered (s : State) (core ctx : Nat) (xd : Reg) (v : Word) (addr : Nat) (st : Status) :
    (s.answered core ctx xd v addr st).recheck core ctx = s.answered core ctx xd v addr st := by
  unfold State.answered
  split <;> exact State.recheck_setCtx_of_wait_none rfl

theorem State.answerLoad_of_load {id addr n : Nat} {xd : Reg} {signed : Bool} (st : Status) (data : List Byte)
    (h : (s.ctx core ctx).wait = .load id xd n signed) :
    s.answerLoad core ctx id addr st data = s.answered core ctx xd (extendLoad data signed) addr st := by
  rw [State.answerLoad, h, ← State.answered_eq]; exact if_pos rfl

theorem State.answerLoad_of_atomic {id addr : Nat} {xd : Reg} (st : Status) (data : List Byte)
    (h : (s.ctx core ctx).wait = .atomic id xd) :
    s.answerLoad core ctx id addr st data = s.answered core ctx xd (extendLoad data false) addr st := by
  rw [State.answerLoad, h, ← State.answered_eq]; exact if_pos rfl

theorem State.answerLoad_of_syncRead {id addr : Nat} {xd : Reg} (st : Status) (data : List Byte)
    (h : (s.ctx core ctx).wait = .syncRead id xd) :
    s.answerLoad core ctx id addr st data = s.answered core ctx xd (extendLoad data false) addr st := by
  rw [State.answerLoad, h, ← State.answered_eq]; exact if_pos rfl

theorem State.answerLoad_of_push {id addr : Nat} {xd : Reg} (st : Status) (data : List Byte)
    (h : (s.ctx core ctx).wait = .push id xd) :
    s.answerLoad core ctx id addr st data =
      s.setCtx core ctx ((s.ctx core ctx).setX xd (if data = [1] then 0x100 else st.zeroExtend 64)).wake.advance := by
  rw [State.answerLoad, h]; exact if_pos rfl

/-- The answer of a thread's request that has come back is delivered with its request gone. -/
theorem State.deliverValue_of_answer {id serial : Nat} {remote : Option (Status × List Byte)} {r : Req} {st : Status} {data : List Byte}
    (hrun : s.running = true) (hr : s.reqs.find? (·.id == id) = some r) (hsrc : r.src = .thread core ctx serial)
    (hheld : s.answerHeld r = false) (ha : s.answerOf r remote = some (st, data)) :
    s.deliverValue id remote = ((s.dropReq id).answerLoad core ctx id r.addr st data).recheck core ctx := by
  simp only [State.deliverValue, hr, hsrc, ha, hrun, hheld, Bool.not_true, Bool.or_false, Bool.false_eq_true, if_false]

theorem State.execReadRsp_of_no_sync {id : Nat} (remote : Option (Status × List Byte)) (h : ∀ m ∈ s.syncMsgs, m.id ≠ id) :
    exec (.readRsp id remote) s = .next (s.deliverValue id remote) := by
  refine congrArg Host.Outcome.next (if_neg ?_)
  simp only [List.any_eq_true, Bool.and_eq_true, beq_iff_eq, not_exists, not_and]
  exact fun m hm e => absurd e (h m hm)

/-- Settles O20. -/
theorem answersReachTheirThread : Obligations.AnswersReachTheirThread := by
  intro s id core ctx serial n xd signed st data hrun c give fault u
  refine ⟨fun r remote hr hsrc hheld ha hsync => ?value, fun r remote hr hsrc hheld ha hw => ?store,
    fun m v hm hop hreply htarget hbehind hw => ?sync⟩
  case value =>
    have hd := State.deliverValue_of_answer hrun hr hsrc hheld ha
    refine ⟨fun hw => ?_, fun hw => ?_, fun hw => ?_⟩
    · rw [State.execReadRsp_of_no_sync remote hsync, hd, State.answerLoad_of_load (s := s.dropReq id) st data hw,
        State.recheck_answered]; rfl
    · show Host.Outcome.next (s.deliverValue id remote) = _
      rw [hd, State.answerLoad_of_atomic (s := s.dropReq id) st data hw, State.recheck_answered]; rfl
    · rw [State.execReadRsp_of_no_sync remote hsync, hd, State.answerLoad_of_push (s := s.dropReq id) st data hw,
        State.recheck_setCtx_of_wait_none rfl]; rfl
  case store =>
    show Host.Outcome.next _ = _
    rw [hr]
    dsimp only
    rw [hsrc, ha]
    dsimp only
    rw [hrun, hheld]
    simp only [Bool.not_true, Bool.or_false, Bool.false_eq_true, if_false, Bool.and_eq_true, decide_eq_true_eq]
    have hcond : (((s.dropReq id).ctx core ctx).serial = serial ∧ ((s.dropReq id).ctx core ctx).storeStatus = 0) ↔
      (c.serial = serial ∧ c.storeStatus = 0) := Iff.rfl
    by_cases hc : c.serial = serial ∧ c.storeStatus = 0
    · rw [if_pos hc, if_pos (hcond.mpr hc)]
      exact congrArg Host.Outcome.next (State.recheck_setCtx_of_wait_none (c := { c with storeStatus := st }) hw)
    · rw [if_neg hc, if_neg (mt hcond.mp hc)]
      exact congrArg Host.Outcome.next (State.recheck_of_wait_none (s := s.dropReq id) hw)
  case sync =>
    have hany : (s.syncMsgs.any fun m => m.id == id && m.op == .read) = true := by
      have hmem := List.mem_of_find?_eq_some hm
      have hid := List.find?_some hm
      exact List.any_eq_true.mpr ⟨m, hmem, by rw [hop]; simpa using hid⟩
    have hd : exec (.readRsp id none) s = .next (s.deliverSync id) := congrArg Host.Outcome.next (if_pos hany)
    rw [hd]
    simp only [State.deliverSync, hm, hreply, hrun, hbehind, hop, htarget, Bool.not_true, Bool.or_false, Bool.false_eq_true, if_false]
    exact congrArg Host.Outcome.next (State.answerLoad_of_syncRead (s := { s with syncMsgs := s.syncMsgs.filter (·.id != id) }) st _ hw)

/-! ### The end of tasks (R92, R132, R135, R137, R142) -/

/-- CONTEXT_KILL of a context of a core in service, by the context's state (R137, R142). -/
theorem contextKill_of_inService {v : BitVec 32} (hcore : v.toNat / 2 ^ 8 % 2 ^ 14 = core) (hctx : v.toNat % 2 ^ 8 = ctx)
    (hl : s.steward.lost = false) (hin : s.inService core = true) :
    exec (.contextKill v) s = .next (
      match (s.ctx core ctx).state with
      | .free => s
      | .exiting =>
        match (s.ctx core ctx).ending with
        | .fault _ => s
        | _ => s.threadFault core ctx causeKilled 0x08 0 0
      | .faulted => s.releaseFaulted core ctx
      | .ready => s.threadFault core ctx causeKilled 0x08 0 0
      | _ => s.faultAt core ctx causeKilled 0x08 0) := by
  subst hcore hctx
  refine congrArg Host.Outcome.next ?_
  rw [State.written, hl]
  dsimp only
  rw [hin]
  rfl

theorem contextRelease_of_inService {v : BitVec 32} (hcore : v.toNat / 2 ^ 8 % 2 ^ 14 = core) (hctx : v.toNat % 2 ^ 8 = ctx)
    (hl : s.steward.lost = false) (hin : s.inService core = true) :
    exec (.contextRelease v) s = .next (if (s.ctx core ctx).state == .faulted then s.releaseFaulted core ctx else s) := by
  subst hcore hctx
  refine congrArg Host.Outcome.next ?_
  rw [State.written, hl]
  dsimp only
  rw [hin]
  rfl

theorem contextEntries_of_not_inService {v : BitVec 32} (hcore : v.toNat / 2 ^ 8 % 2 ^ 14 = core) (hl : s.steward.lost = false)
    (hin : s.inService core = false) : exec (.contextKill v) s = .next s ∧ exec (.contextRelease v) s = .next s := by
  subst hcore
  constructor
  · refine congrArg Host.Outcome.next ?_
    rw [State.written, hl]
    dsimp only
    rw [hin]
    rfl
  · refine congrArg Host.Outcome.next ?_
    rw [State.written, hl]
    dsimp only
    rw [hin]
    rfl

theorem State.endTask_of_launch {st : Status} {i : Nat} (hre : (s.ctx core ctx).restart = false) (hrr : (s.ctx core ctx).rerun = none)
    (hl : (s.ctx core ctx).launch = some i) :
    s.endTask core ctx st = (s.setCtx core ctx { s.ctx core ctx with state := .free, wait := .none, ending := .none }).completeRing
      (s.ctx core ctx).taskQueue.toNat i st := by
  rw [State.endTask]
  simp only [hre, hrr, hl, Bool.false_eq_true, if_false]

/-- Settles O21: each entry by the context's state. -/
theorem taskEndReleaseAndKill : Obligations.TaskEndReleaseAndKill := by
  intro s core ctx hctx hcore c v killed
  have hv : v.toNat = core * 2 ^ 8 + ctx := by rw [BitVec.toNat_ofNat]; omega
  have hvcore : v.toNat / 2 ^ 8 % 2 ^ 14 = core := by omega
  have hvctx : v.toNat % 2 ^ 8 = ctx := by omega
  have hkilled : ∀ w, s.threadFault core ctx causeKilled 0x08 0 w = killed w := fun w => s.threadFault_eq core ctx causeKilled 0x08 0 w
  refine ⟨fun hup hex hidle => ?ends, fun hl hin => ?inService, fun hl hno => ?nothing⟩
  case ends =>
    have hend : exec (.taskComplete core ctx) s = .next (s.endTask core ctx c.finalStatus) :=
      congrArg Host.Outcome.next (if_pos (by rw [hup, hex, hidle]; rfl))
    exact ⟨hend, fun i hre hrr hlaunch => hend.trans (congrArg Host.Outcome.next (State.endTask_of_launch hre hrr hlaunch))⟩
  case inService =>
    have hk := contextKill_of_inService hvcore hvctx hl hin
    have hr := contextRelease_of_inService hvcore hvctx hl hin
    refine ⟨fun hf => ?faulted, fun hf => ?released, fun hready => ?ready, fun hwait => ?waits, fun hex hnf => ?exiting,
      fun st hex hfault => ?afterFault⟩
    case faulted =>
      rw [show (s.ctx core ctx).state = .faulted from hf] at hk hr
      exact ⟨hr, hk⟩
    case released =>
      rw [if_neg (by simpa using hf)] at hr
      exact hr
    case ready =>
      rw [show (s.ctx core ctx).state = .ready from hready] at hk
      exact hk.trans (congrArg Host.Outcome.next (hkilled 0))
    case waits =>
      have hfault : exec (.contextKill v) s = .next (s.faultAt core ctx causeKilled 0x08 0) := by
        simp only [List.mem_cons, List.not_mem_nil, or_false] at hwait
        rcases hwait with hw | hw | hw | hw
        all_goals
          rw [show (s.ctx core ctx).state = _ from hw] at hk
          exact hk
      exact hfault.trans (congrArg Host.Outcome.next (hkilled c.word))
    case exiting =>
      rw [show (s.ctx core ctx).state = .exiting from hex] at hk
      dsimp only at hk
      split at hk
      · rename_i st e; exact absurd e (hnf st)
      · exact hk.trans (congrArg Host.Outcome.next (hkilled 0))
    case afterFault =>
      rw [show (s.ctx core ctx).state = .exiting from hex, show (s.ctx core ctx).ending = .fault st from hfault] at hk
      exact hk
  case nothing =>
    by_cases hin : s.inService core = true
    · have hfree := hno.resolve_left (by rw [hin]; decide)
      have hk := contextKill_of_inService hvcore hvctx hl hin
      have hr := contextRelease_of_inService hvcore hvctx hl hin
      rw [show (s.ctx core ctx).state = .free from hfree] at hk hr
      exact ⟨hk, hr⟩
    · exact contextEntries_of_not_inService hvcore hl (Bool.eq_false_iff.mpr hin)

end Sys2Proof.Machine
end

section
/-! PROOFS. Requests for lines, and the vector unit (R111, R113, R121, R123, R125, R453, R705). -/
namespace Sys2Proof.Machine
variable {s t u b : State}

/-! ### What only asks for lines (R453, R705) -/

/-- `t` is `b` with requests made: nothing but the requests, the tokens, the packets and what is sent has changed. -/
def Asked (b t : State) : Prop := ∃ R F P O, t = { b with reqs := R, fresh := F, packets := P, out := O }

theorem Asked.refl (s : State) : Asked s s := ⟨_, _, _, _, rfl⟩

theorem Asked.trans (h1 : Asked b s) (h2 : Asked s t) : Asked b t := by
  obtain ⟨_, _, _, _, rfl⟩ := h1
  obtain ⟨_, _, _, _, rfl⟩ := h2
  exact ⟨_, _, _, _, rfl⟩

theorem Asked.withReqs (s : State) (R : List Req) (F : Nat) : Asked s { s with reqs := R, fresh := F } := ⟨_, _, _, _, rfl⟩

theorem Asked.core (h : Asked b t) (k : Nat) : t.core k = b.core k := by obtain ⟨_, _, _, _, rfl⟩ := h; rfl

theorem Asked.ctx (h : Asked b t) (k n : Nat) : t.ctx k n = b.ctx k n := by obtain ⟨_, _, _, _, rfl⟩ := h; rfl

theorem Asked.post (s : State) (p : Packet) : Asked s (s.post p) := ⟨_, _, _, _, s.post_eq p⟩

theorem Asked.send (s : State) (o : Output) : Asked s (s.send o) := ⟨_, _, _, _, rfl⟩

theorem Asked.updReq (s : State) (id : Nat) (g : Req → Req) : Asked s (s.updReq id g) := ⟨_, _, _, _, rfl⟩

theorem Asked.postReq (s : State) (r : Req) (answer : Bool) : Asked s (s.postReq r answer) := by
  unfold State.postReq
  split
  · split
    · exact .refl _
    · split <;> exact .post ..
  · exact .refl _

theorem Asked.sendAbroad (s : State) (r : Req) : Asked s (s.sendAbroad r) := by
  unfold State.sendAbroad
  dsimp only
  split
  · exact .updReq ..
  · split
    · split
      · exact (Asked.updReq ..).trans (.send ..)
      · exact (Asked.updReq ..).trans (.post ..)
    · exact (Asked.updReq ..).trans (.send ..)

theorem Asked.sendReq (s : State) (src : Source) (kind : ReqKind) (addr : Nat) (prod entry : Option Nat) :
    Asked s (s.sendReq src kind addr prod entry).2 := by
  unfold State.sendReq
  dsimp only [State.token]
  split
  · exact (Asked.withReqs ..).trans (.postReq ..)
  · exact (Asked.withReqs ..).trans (.sendAbroad ..)

theorem Asked.ask (s : State) (who : Agent) (kind : ReqKind) (a : Nat) (prod : Option Nat) (dev : Nat) :
    Asked s (s.ask who kind a prod dev) := by
  unfold State.ask
  split
  · exact .refl _
  · dsimp only
    split
    · exact (Asked.sendReq ..).trans (.updReq ..)
    · exact (Asked.sendReq ..).trans (.updReq ..)
    · exact .sendReq ..

theorem Asked.foldl {α : Type} {l : List α} {f : State → α → State} (hf : ∀ u e, Asked u (f u e)) (s : State) :
    Asked s (l.foldl f s) := by
  induction l generalizing s with
  | nil => exact .refl _
  | cons e l ih => exact (hf s e).trans (ih _)

theorem Asked.askLines (s : State) (who : Agent) (ps : List (Nat × Nat)) (dev : Nat) : Asked s (s.askLines who ps dev) := by
  unfold State.askLines
  split
  · exact .refl _
  · refine .foldl (fun u e => ?_) s
    split
    · exact .ask ..
    · exact .refl _

theorem Asked.askWrites (s : State) (who : Agent) (prod : Option Nat) (dev : Nat) (ps : List (Nat × Nat)) (data : List Byte) :
    Asked s (s.askWrites who prod dev ps data) := by
  induction ps generalizing s data with
  | nil => exact .refl _
  | cons p ps ih =>
    unfold State.askWrites
    refine Asked.trans ?_ (ih ..)
    split
    · exact .refl _
    · exact .ask ..

/-- What a unit that makes requests reads only asks for lines. -/
theorem Asked.readPiece {who : Agent} (hw : who.asks = true) (s : State) (a n dev : Nat) : Asked s (s.readPiece a n who dev).2 := by
  unfold State.readPiece
  rw [if_pos hw]
  split
  · exact .refl _
  · exact .ask ..

theorem Asked.readPieces {who : Agent} (hw : who.asks = true) (s : State) (dev : Nat) (l : List (Nat × Nat)) :
    Asked s (s.readPieces who dev l).2 := by
  induction l generalizing s with
  | nil => exact .refl _
  | cons p l ih =>
    rw [State.readPieces]
    dsimp only
    split
    · exact .readPiece hw ..
    · exact (Asked.readPiece hw ..).trans (ih _)

theorem Asked.readRange {who : Agent} (hw : who.asks = true) (s : State) (a n dev : Nat) : Asked s (s.readRange a n who dev).2 :=
  (Asked.askLines ..).trans (.readPieces hw ..)

theorem Asked.readRecord {who : Agent} (hw : who.asks = true) (s : State) (a : Nat) : Asked s (s.readRecord a who).2.2 :=
  Asked.readRange hw s a 64 s.group.member

theorem Asked.readEach {who : Agent} (hw : who.asks = true) (s : State) (l : List (Nat × Nat)) : Asked s (s.readEach who l).2.2 := by
  induction l generalizing s with
  | nil => exact .refl _
  | cons p l ih =>
    rw [State.readEach]
    dsimp only
    split
    · exact .readRange hw ..
    · exact (Asked.readRange hw ..).trans (ih _)

theorem Asked.readSpans {who : Agent} (hw : who.asks = true) (s : State) (l : List (Nat × Nat)) : Asked s (s.readSpans who l).2.2 :=
  (Asked.askLines ..).trans (.readEach hw ..)

theorem Asked.writePiece {who : Agent} (hw : who.asks = true) (s : State) (a : Nat) (data : List Byte) (prod : Option Nat) (dev : Nat) :
    Asked s (s.writePiece a data prod who dev).2 := by
  unfold State.writePiece
  rw [if_pos hw]
  split
  · exact .refl _
  · exact .ask ..

theorem Asked.writePieces {who : Agent} (hw : who.asks = true) (s : State) (prod : Option Nat) (dev : Nat) (l : List (Nat × Nat))
    (data : List Byte) : Asked s (s.writePieces prod who dev l data).2 := by
  induction l generalizing s data with
  | nil => exact .refl _
  | cons p l ih =>
    have hp := Asked.writePiece hw s p.1 (data.take p.2) prod dev
    rw [State.writePieces]
    split
    · rename_i v e; rw [e] at hp; exact hp.trans (ih ..)
    · rename_i v e; rw [e] at hp; exact hp

theorem Asked.writeRange {who : Agent} (hw : who.asks = true) (s : State) (a : Nat) (data : List Byte) (prod : Option Nat) (dev : Nat) :
    Asked s (s.writeRange a data prod who dev).2 := (Asked.askWrites ..).trans (.writePieces hw ..)

/-- What a unit does that has no line under way is done. -/
theorem State.unit_of_body {core : Nat} {who : Agent} {body : State → State} (h : body s = t) (hs : t.Settled who) :
    s.unit core who body = t.linesTaken who := by
  subst h; exact State.unit_of_settled hs

/-! ### The vector unit (R111, R113, R121, R123, R125, R551) -/

theorem State.setVecHead_of_cons {core : Nat} {v w : VecOp} {rest : List VecOp} (h : (s.core core).vec = v :: rest) :
    s.setVecHead core w = s.setCore core { s.core core with vec := w :: rest } := by
  rw [State.setVecHead, h]; rfl

theorem State.countEvents_ctx (s : State) (core : Nat) (es : List NumEvent) (k n : Nat) : (s.countEvents core es).ctx k n = s.ctx k n := by
  induction es generalizing s with
  | nil => rfl
  | cons e es ih =>
    refine (ih _).trans ?_
    have hcore : ∀ c : Core, (c.inCycle s.now).ctxs = c.ctxs := fun c => by unfold Core.inCycle; split <;> rfl
    by_cases h : k = core
    · subst h; cases e <;> simp [State.countEvent, State.ctx, State.core, State.setCore, hcore]
    · cases e <;> simp [State.countEvent, State.ctx, State.core, State.setCore, Map.get_set_of_ne _ _ _ h]

theorem State.setVecHead_ctx (s : State) (core : Nat) (v : VecOp) (k n : Nat) : (s.setVecHead core v).ctx k n = s.ctx k n := by
  by_cases h : k = core
  · subst h; simp [State.setVecHead, State.ctx]
  · simp [State.setVecHead, State.ctx, State.core_setCore_of_ne _ _ h]

/-- The start of the oldest vector operation, by its check and its sources. -/
theorem vectorOpStart_of_check {core : Nat} {v : VecOp} {rest : List VecOp} {st : Status} (hup : s.coreUp core = true)
    (hv : (s.core core).vec = v :: rest) (hr : v.running = false) (hg : s.gooseFirst core = false) (hc : v.check = some st) :
    exec (.vectorOpStart core) s = .next (s.setVecHead core { v with running := true, status := st }) := by
  refine congrArg Host.Outcome.next ?_
  rw [hv]
  dsimp only
  rw [if_neg (by simp [hr, hup, hg]), hc]

/-- What a vector operation whose checks pass makes of the state once its sources are read. -/
def State.vecStarted (s : State) (core queue : Nat) (v : VecOp) (r : ReadResult) (data : List (List Byte)) : State :=
  let head (v : VecOp) : State := s.setVecHead core { v with running := true }
  if r.status ≠ 0 then head { v with status := r.status }
  else ((head { v with writes := (v.compute data).1 }).countEvents core (v.compute data).2).charge core queue 3 v.len

theorem vectorOpStart_of_read {core : Nat} {v : VecOp} {rest : List VecOp} {r : ReadResult} {data : List (List Byte)}
    (hup : s.coreUp core = true) (hv : (s.core core).vec = v :: rest) (hr : v.running = false) (hg : s.gooseFirst core = false)
    (hc : v.check = none) (hread : s.readSpans (.vector core) (v.sources.map fun (a, n) => (storeAddr core a, n)) = (r, data, u))
    (hw : r.waiting = false)
    (hs : (u.vecStarted core (s.ctx core v.ctx).taskQueue.toNat v r data).Settled (.vector core)) :
    exec (.vectorOpStart core) s = .next ((u.vecStarted core (s.ctx core v.ctx).taskQueue.toNat v r data).linesTaken (.vector core)) := by
  have hu : Asked s u := by
    have h := Asked.readSpans (who := .vector core) rfl s (v.sources.map fun (a, n) => (storeAddr core a, n))
    rwa [hread] at h
  refine congrArg Host.Outcome.next ?_
  rw [hv]
  dsimp only
  rw [if_neg (by simp [hr, hup, hg]), hc]
  refine State.unit_of_body ?_ hs
  rw [hread]
  dsimp only
  rw [if_neg (by simp [hw])]
  unfold State.vecStarted
  split
  · rfl
  · rw [State.countEvents_ctx, State.setVecHead_ctx, hu.ctx]

/-- What the completion of the running operation makes of the state. -/
def State.vecEnded (s : State) (core : Nat) (v : VecOp) (rest : List VecOp) : State :=
  let u := v.writes.foldl (fun s w => s.writeLocal core (s.producing core v.ctx) w) s
  let u := u.setCore core { u.core core with vec := rest }
  (u.complete (.counter core v.ctx v.counter) v.status).complete (.wait core v.ctx v.token) v.status

theorem vectorOpComplete_of_settled {core : Nat} {v : VecOp} {rest : List VecOp} (hup : s.coreUp core = true)
    (hv : (s.core core).vec = v :: rest) (hr : v.running = true) (hs : (s.vecEnded core v rest).Settled (.vector core)) :
    exec (.vectorOpComplete core) s = .next ((s.vecEnded core v rest).linesTaken (.vector core)) := by
  refine congrArg Host.Outcome.next ?_
  rw [hv]
  dsimp only
  rw [if_neg (by simp [hr, hup])]
  exact State.unit_of_body rfl hs

theorem Ctx.countDown_wait (c : Ctx) (i : BitVec 2) (st : Status) : (c.countDown i st).wait = c.wait := by
  have h : ∀ v, (c.setCounter i v).wait = c.wait := fun _ => rfl
  unfold Ctx.countDown
  generalize (if c.counter i = 0 then 0 else c.counter i - 1) = v
  dsimp only
  split
  · exact h v
  · split
    · rfl
    · exact h v

/-- A completion to a counter of a thread that waits for nothing, and that no other waits for, is the counter's fall alone. -/
theorem State.complete_counter_of_wait_none {core ctx : Nat} {n : BitVec 2} {token : Nat} {st : Status}
    (h : (s.ctx core ctx).wait = .none) :
    (s.complete (.counter core ctx n) st).complete (.wait core ctx token) st =
      s.setCtx core ctx ((s.ctx core ctx).countDown n st) := by
  have hw : ((s.ctx core ctx).countDown n st).wait = .none := (Ctx.countDown_wait ..).trans h
  have h1 : s.complete (.counter core ctx n) st = s.setCtx core ctx ((s.ctx core ctx).countDown n st) :=
    State.recheck_setCtx_of_wait_none hw
  rw [h1]
  simp only [State.complete, State.ctx_setCtx_same, hw]

/-- WAIT_UNIT_RELEASE tries the held command again. -/
theorem waitUnitRelease_eq {core : Nat} (hup : s.coreUp core = true) (ctx : Nat) :
    exec (.waitUnitRelease core ctx) s = .next (match (s.ctx core ctx).wait with
      | .unit (.dma xd xa wc w) => s.dmaCommand core ctx xd xa wc w
      | .unit (.tile xd xa xb wc w sub) => s.tileCommand core ctx xd xa xb wc w sub
      | .unit (.vec op xd xa xb xc) => s.vecCommand core ctx op xd xa xb xc
      | .unit (.sync arm xd xa xb wc w) => s.syncCommand core ctx arm xd xa xb wc w
      | _ => s) :=
  congrArg Host.Outcome.next (if_neg (by rw [hup]; decide))

/-- A vector operation with room enters the unit's input, and its thread waits for room no longer. -/
theorem State.vecCommand_of_room {core ctx : Nat} (op : VOp) (xd xa xb xc : Reg)
    (hroom : (s.ctx core ctx).counter (((s.ctx core ctx).vcfg >>> 25).truncate 2) ≠ 63) (hlen : (s.core core).vec.length < 8) :
    ∃ (n : VecOp) (d : Ctx), n.op = op ∧ n.token = s.fresh ∧ n.ctx = ctx ∧ d.state ≠ .waitUnit ∧
      s.vecCommand core ctx op xd xa xb xc =
        ((s.withTokens 1).setCore core { s.core core with vec := (s.core core).vec ++ [n] }).setCtx core ctx d := by
  refine ⟨_, _, rfl, rfl, rfl, ?_, if_neg ?_⟩
  · split <;> simp [Ctx.block, Ctx.wake, Ctx.advance, Ctx.goto]
  · have hc : (s.ctx core ctx).counterRoom (((s.ctx core ctx).vcfg >>> 25).truncate 2) false = true := decide_eq_true hroom
    rw [hc, decide_eq_false (by omega)]; decide

/-- Settles O22. -/
theorem vectorUnitWorksInOrder : Obligations.VectorUnitWorksInOrder := by
  intro s core v rest hup k c who head
  refine ⟨fun hv hr hg => ⟨fun st hc => ?checked, fun r data u hc hread hw hs => vectorOpStart_of_read hup hv hr hg hc hread hw hs⟩,
    fun hv hr hs => vectorOpComplete_of_settled hup hv hr hs, fun hw hc => ?counter,
    fun ctx xd xa xb xc wc w sub arm op => ?again⟩
  case checked =>
    rw [vectorOpStart_of_check hup hv hr hg hc, State.setVecHead_of_cons hv]
  case counter =>
    have hctx : (s.setCore core { k with vec := rest }).ctx core v.ctx = c := by rw [State.ctx, State.core_setCore_same]; rfl
    rw [State.complete_counter_of_wait_none (by rw [hctx]; exact hc), hctx]
  case again =>
    have hrun := waitUnitRelease_eq hup ctx
    refine ⟨fun h => hrun.trans (by rw [h]), fun h => hrun.trans (by rw [h]), fun h => hrun.trans (by rw [h]), fun h hroom hlen => ?_⟩
    obtain ⟨n, d, hop, htoken, hctx, hstate, e⟩ := State.vecCommand_of_room op xd xa xb xc hroom hlen
    refine ⟨_, hrun.trans (by rw [h]), n, hop, htoken, hctx, ?_, ?_, ?_⟩
    all_goals dsimp only; rw [e]
    · rw [State.core_setCtx_same, State.core_setCore_same]
    · rw [State.ctx_setCtx_same]; exact hstate
    · rfl

end Sys2Proof.Machine
end

section
/-! PROOFS. Tiles close and start (R162, R164, R178, R179, R182, R183). -/
namespace Sys2Proof.Machine
variable {s u w : State}

/-! ### The feeders and the drain of an array (R162, R453, R708) -/

/-- What they do that have no line under way is done, and they take their lines. -/
theorem State.tileUnits_of_settled {core a : Nat} {body : State → Option State} (h : body s = some w) (hs : w.TileSettled core a) :
    s.tileUnits core a body = w.tileLinesTaken core a := by
  rw [State.tileUnits, State.units_of_settled h]
  · rfl
  · intro who hwho
    rcases List.mem_pair.mp hwho with rfl | rfl
    · exact hs.1
    · exact hs.2

/-- What they do whose lines are under way from elsewhere only makes their requests. -/
theorem State.tileUnits_of_awaits {core a : Nat} {body : State → Option State} (h : body s = some w)
    (ha : w.Awaits [.array core a, .held core a]) : s.tileUnits core a body = s.asking w := State.units_of_awaits h ha

/-! ### Tiles close and start (R162, R164, R178, R179, R182, R183) -/

/-- The state of a started tile: its run in the array, its start counted, and the ramp looked at. -/
def State.tileStarted (s : State) (core a : Nat) (t : Tile) (ev : List NumEvent) : State :=
  let v := s.putRun core a t ev
  (match t.closedBy with
    | .other => v
    | .full => if t.key = 0 then v else v.towerWrap 0xB105 (coreTower core) 1
    | .expired => v.towerWrap 0xB106 (coreTower core) 1).settleRamp (coreField core)

theorem tileStart_eq {core a : Nat} {t : Tile} {rest : List Tile} (hup : s.coreUp core = true) (ha : a < 4)
    (hu : (s.array core a).tiles = t :: rest) (ho : t.opened = false) (hr : t.running = false)
    (hsus : (s.array core a).suspect = false) (hramp : s.rampAdmits core a = true) :
    exec (.tileStart core a) s = .next (s.tileUnits core a fun s =>
      match s.beginRun core a t with
      | (none, s) => some s
      | (some (t, ev), s) => some (s.tileStarted core a t ev)) := by
  have hst : (s.array core a).startable s.run = true := by simp [ArrayUnit.startable, hu, hr, ho, hsus]
  refine congrArg Host.Outcome.next ?_
  dsimp only
  rw [hu]
  dsimp only
  rw [if_neg (by simp [hup, ha, ho, hst, hramp])]
  refine congrArg (s.tileUnits core a) (funext fun s => ?_)
  rcases s.beginRun core a t with ⟨_ | ⟨n, ev⟩, v⟩
  · rfl
  · simp only [State.tileStarted]
    cases hn : n.closedBy with
    | other => simp
    | full => by_cases hk : n.key = 0 <;> simp [hk]
    | expired => simp

/-- A run with no rows loaded early and ACC clear has the rows that the feeders load and accumulators of +0.0. -/
theorem State.beginRun_of_loaded {core a : Nat} {t : Tile} {reqs : List TileReq} {held : HeldRows} (hh : t.held = none)
    (hl : s.loadHeld core a t.words 0 t.reqs = (false, reqs, held, u)) (ha : tileAcc t.words = false) :
    s.beginRun core a t = (some ({ t with
      reqs := reqs, running := true, begun := true, held := some held, pass := 0,
      acc := List.replicate (tileM t.words * t.columns) 0, y0 := List.replicate (tileM t.words * t.columns) 0 }, []), u) := by
  simp only [State.beginRun, hh, hl, ha, Bool.false_eq_true, if_false]

/-- Settles O23. -/
theorem tilesCloseAndStart : Obligations.TilesCloseAndStart := by
  intro s core a field step due t rest hup ha u zero
  refine ⟨fun hu ho hr hh hramp => ?holdEnd, fun hu ho hr hsus hramp => ⟨fun v hb hw => ?awaits, fun n ev v hb hs => ?starts⟩,
    fun reqs held v hh hl hacc => State.beginRun_of_loaded hh hl hacc, fun hf hrun hdue => ?ramp⟩
  case holdEnd =>
    refine congrArg Host.Outcome.next ?_
    dsimp only
    rw [show (s.array core a).tiles = t :: rest from hu]
    dsimp only
    rw [if_pos (by simp [hup, ho, hr, hh, hramp]), ArrayUnit.setTile, show (s.array core a).tiles = t :: rest from hu]
    rfl
  case awaits =>
    rw [tileStart_eq hup ha hu ho hr hsus hramp]
    exact congrArg Host.Outcome.next (State.tileUnits_of_awaits (by rw [hb]) hw)
  case starts =>
    rw [tileStart_eq hup ha hu ho hr hsus hramp]
    exact congrArg Host.Outcome.next (State.tileUnits_of_settled (w := v.tileStarted core a n ev) (by rw [hb]) hs)
  case ramp =>
    refine congrArg Host.Outcome.next ?_
    dsimp only
    rw [hf]
    dsimp only
    rw [if_neg (by simp [hrun, hdue])]
    rfl

end Sys2Proof.Machine
end

section
/-! PROOFS. What a completion leaves of the units of a core (R92, R421). -/
namespace Sys2Proof.Machine
variable {s t u b v w : State}

/-! ### What a completion leaves of the units of a core -/

/-- The units of every core stand as they did: only contexts, records of copies and ledgers have changed. -/
structure SameUnits (b t : State) : Prop where
  cores : ∀ k, ∃ X C L, t.core k = { b.core k with ctxs := X, copies := C, ledger := L }

theorem SameUnits.refl (s : State) : SameUnits s s := ⟨fun _ => ⟨_, _, _, rfl⟩⟩

theorem SameUnits.same (h : SameUnits b s) (e : t.cores = s.cores) : SameUnits b t := ⟨fun k => by
  rw [State.core, e]; exact h.cores k⟩

theorem SameUnits.setCore (h : SameUnits b s) {k : Nat} {X : Map Ctx} {C : List CopyRecord} {L : List LedgerEntry} :
    SameUnits b (s.setCore k { s.core k with ctxs := X, copies := C, ledger := L }) := ⟨fun j => by
  obtain ⟨_, _, _, e⟩ := h.cores j
  by_cases hj : j = k
  · subst hj; exact ⟨X, C, L, by rw [State.core_setCore_same, e]⟩
  · exact ⟨_, _, _, by rw [State.core_setCore_of_ne _ _ hj, e]⟩⟩

theorem SameUnits.array (h : SameUnits b t) (core a : Nat) : t.array core a = b.array core a := by
  obtain ⟨_, _, _, e⟩ := h.cores core
  rw [State.array, e]; rfl

theorem SameUnits.ite {c : Prop} [Decidable c] (ht : SameUnits b t) (hu : SameUnits b u) : SameUnits b (if c then t else u) := by
  split
  · exact ht
  · exact hu

theorem SameUnits.foldl {α : Type} {l : List α} {f : State → α → State} (h : SameUnits b s)
    (hf : ∀ u e, SameUnits b u → SameUnits b (f u e)) : SameUnits b (l.foldl f s) := by
  induction l generalizing s with
  | nil => exact h
  | cons e l ih => exact ih (hf s e h)

theorem SameUnits.setCtx (h : SameUnits b s) {core ctx : Nat} {c : Ctx} : SameUnits b (s.setCtx core ctx c) := h.setCore

theorem SameUnits.asked (h : SameUnits b s) (e : Asked s t) : SameUnits b t := by
  obtain ⟨_, _, _, _, rfl⟩ := e; exact h.same rfl

theorem SameUnits.withMem (h : SameUnits b s) {m : Memory} : SameUnits b { s with mem := m } := h.same rfl

theorem SameUnits.withLanes (h : SameUnits b s) {l : List Nat} : SameUnits b { s with laneSuspected := l } := h.same rfl

theorem SameUnits.of_snd {α : Type} {x : α × State} {r : α} (e : x = (r, t)) (h : SameUnits b x.2) : SameUnits b t := by
  rw [e] at h; exact h

theorem SameUnits.raise (h : SameUnits b s) {code tower detail : Nat} : SameUnits b (s.raise code tower detail) :=
  h.same (by unfold State.raise; dsimp only; split <;> rfl)

theorem SameUnits.towerSat (h : SameUnits b s) {idx tower n : Nat} : SameUnits b (s.towerSat idx tower n) := h.same rfl

theorem SameUnits.setChannel (h : SameUnits b s) {ch : Nat} {c : Channel} : SameUnits b (s.setChannel ch c) := h.same rfl

theorem SameUnits.setQueue (h : SameUnits b s) {q : Nat} {k : Queue} : SameUnits b (s.setQueue q k) := h.same rfl

theorem SameUnits.sendReq (h : SameUnits b s) {src : Source} {kind : ReqKind} {addr : Nat} {prod entry : Option Nat} :
    SameUnits b (s.sendReq src kind addr prod entry).2 := h.asked (.sendReq ..)

theorem SameUnits.sendSync (h : SameUnits b s) {op : SyncOp} {object : Nat} {value : Word32} {target : Target} {entry : Option Nat} :
    SameUnits b (s.sendSync op object value target entry) :=
  h.same (by rw [(BesideCores.sendSync op object value target entry).same s])

theorem SameUnits.notifyFailure (h : SameUnits b s) {q : Nat} : SameUnits b (s.notifyFailure q) := h.towerSat.raise

/-! A store on behalf of a completion. -/

theorem SameUnits.sramWritten (h : SameUnits b s) {line : Nat} {prod : Option Nat} : SameUnits b (s.sramWritten line prod) := by
  unfold State.sramWritten State.setCopyRecords
  dsimp only
  split
  · exact h.setCore.same rfl
  · exact h.same rfl

theorem SameUnits.writeSram (h : SameUnits b s) {a : Nat} {data : List Byte} {prod : Option Nat} :
    SameUnits b (s.writeSram a data prod) := by
  have h1 : SameUnits b ((s.poke a data).sramWritten (a / 64) prod) := (h.same (t := s.poke a data) rfl).sramWritten
  exact .ite (h1.same rfl) h1

theorem State.writeDramLine_cores (s : State) (ch off : Nat) (data : List Byte) (spread : Bool) :
    (s.writeDramLine ch off data spread).cores = s.cores := by
  have hw : ∀ v : State, (v.wbRewritten ch off).cores = v.cores := fun _ => rfl
  have hc : ∀ v : State, (v.countLine ch off true spread).cores = v.cores := fun _ => rfl
  rw [State.writeDramLine, hc, State.putDramLine, hw]; rfl

theorem SameUnits.writeDramLine (h : SameUnits b s) {ch off : Nat} {data : List Byte} {spread : Bool} :
    SameUnits b (s.writeDramLine ch off data spread) := h.same (State.writeDramLine_cores ..)

theorem SameUnits.rollLanes (h : SameUnits b s) {ch : Nat} : SameUnits b (s.rollLanes ch) := by
  unfold State.rollLanes
  generalize secCycles 1 = n
  exact .ite h h.setChannel

theorem SameUnits.countSymbol (h : SameUnits b s) {ch sym : Nat} : SameUnits b (s.countSymbol ch sym) :=
  .ite h.rollLanes.setChannel (.ite h.rollLanes.setChannel.setChannel.towerSat.raise
    h.rollLanes.setChannel.setChannel.towerSat.raise.withLanes)

theorem SameUnits.wbLog (h : SameUnits b s) {ch off symbol : Nat} {kind : BitVec 2} : SameUnits b (s.wbLog ch off kind symbol) := by
  unfold State.wbLog
  extract_lets t entry __src put s1 __src1
  split
  · exact h.withMem
  · exact h.withMem
  · exact .ite h.towerSat h.towerSat.withMem.raise

theorem SameUnits.enqueueWriteBack (h : SameUnits b s) {ch off : Nat} {mode : Rewrite} {poison : Bool} {data : List Byte} :
    SameUnits b (s.enqueueWriteBack ch off mode poison data) := .ite h (.ite h.setChannel h.setChannel)

theorem SameUnits.readDramLine (h : SameUnits b s) {ch off : Nat} {mode : Rewrite} : SameUnits b (s.readDramLine ch off mode).2.2 := by
  unfold State.readDramLine
  dsimp only
  split
  · exact h
  · exact h.setChannel
  · exact .ite h.countSymbol.wbLog h.countSymbol.enqueueWriteBack
  · exact .ite h.setChannel.raise.wbLog h.setChannel.raise.enqueueWriteBack

theorem SameUnits.countLine (h : SameUnits b s) {ch off : Nat} {write spread : Bool} : SameUnits b (s.countLine ch off write spread) :=
  h.setChannel

theorem SameUnits.writeDram (h : SameUnits b s) {ch off : Nat} {data : List Byte} {spread : Bool} :
    SameUnits b (s.writeDram ch off data spread).2 := by
  have hr := h.readDramLine (ch := ch) (off := off) (mode := .queue)
  unfold State.writeDram
  split
  · exact h.writeDramLine
  · split
    · rename_i e; rw [e] at hr; exact hr.countLine.writeDramLine
    · rename_i e; rw [e] at hr; exact hr.countLine

theorem SameUnits.writePlace (h : SameUnits b s) {a : Nat} {data : List Byte} {prod : Option Nat} {spread : Bool} :
    SameUnits b (s.writePlace a data prod spread).2 := by
  unfold State.writePlace
  split
  · split
    · exact h.same rfl
    · exact h.writeDram
  · exact h.writeSram.same rfl
  · exact h.writeSram
  · exact h

theorem SameUnits.writePiece (h : SameUnits b s) {a dev : Nat} {data : List Byte} {prod : Option Nat} {who : Agent} :
    SameUnits b (s.writePiece a data prod who dev).2 := by
  unfold State.writePiece
  split
  · split
    · exact h
    · exact h.asked (.ask ..)
  · dsimp only
    split
    · exact h
    · exact h.writePlace

theorem SameUnits.writePieces (h : SameUnits b s) {prod : Option Nat} {who : Agent} {dev : Nat} {l : List (Nat × Nat)}
    {data : List Byte} : SameUnits b (s.writePieces prod who dev l data).2 := by
  induction l generalizing s data with
  | nil => exact h
  | cons p l ih =>
    have hp := h.writePiece (a := p.1) (data := data.take p.2) (prod := prod) (who := who) (dev := dev)
    rw [State.writePieces]
    split
    · rename_i e; rw [e] at hp; exact ih hp
    · rename_i e; rw [e] at hp; exact hp

theorem SameUnits.writeRange (h : SameUnits b s) {a dev : Nat} {data : List Byte} {prod : Option Nat} {who : Agent} :
    SameUnits b (s.writeRange a data prod who dev).2 := SameUnits.writePieces (h.asked (.askWrites ..))

/-! The steps of a ring's completion (R421). -/

theorem SameUnits.sendMsix (h : SameUnits b s) {n : Nat} : SameUnits b (s.sendMsix n) :=
  h.same (by unfold State.sendMsix; dsimp only; split <;> rfl)

theorem SameUnits.finishRing (h : SameUnits b s) {q i : Nat} : SameUnits b (s.finishRing q i) := by
  have hsend : ∀ o, SameUnits b (s.send o) := fun o => h.same rfl
  unfold State.finishRing
  extract_lets k host
  split
  · exact h
  · exact .setCore (.setQueue (.ite (hsend _) (.ite h.sendMsix h)))

theorem SameUnits.notifyObject (h : SameUnits b s) {q i : Nat} : SameUnits b (s.notifyObject q i) := .ite h.sendSync h.finishRing

theorem SameUnits.notifyRecord (h : SameUnits b s) {q i : Nat} : SameUnits b (s.notifyRecord q i) := by
  have hsend : ∀ o, SameUnits b (s.send o) := fun o => h.same rfl
  unfold State.notifyRecord
  extract_lets k dst dev
  split
  · exact h
  · extract_lets w0 bytes
    split
    · exact h.notifyObject
    · split
      · exact .notifyObject (.ite (hsend _) (.ite h (hsend _)))
      · refine .ite (h.foldl fun _ _ hu => hu.sendReq) (.ite ?_ (.ite h.notifyFailure.notifyObject h.sendReq))
        split
        · rename_i e
          exact SameUnits.notifyObject (.of_snd e h.writeRange)
        · rename_i e
          exact SameUnits.notifyObject (.notifyFailure (.of_snd e h.writeRange))

theorem SameUnits.endRing (h : SameUnits b s) {q i : Nat} {st : Status} : SameUnits b (s.endRing q i st) := by
  unfold State.endRing
  split
  · exact h
  · extract_lets bytes fails dram
    split
    · rename_i s1 e1
      have hs1 : SameUnits b s1 := by
        refine .of_snd e1 ?_
        split
        · exact h
        · exact h.writeRange
      exact .ite (.sendReq (.setQueue (.setQueue (.ite hs1 hs1.notifyFailure))))
        (.notifyRecord (.setQueue (.setQueue (.ite hs1 hs1.notifyFailure))))

theorem SameUnits.completeRing (h : SameUnits b s) {q i : Nat} {st : Status} : SameUnits b (s.completeRing q i st) := by
  unfold State.completeRing
  split
  · exact h.endRing
  · have hn : ∀ n f, SameUnits b (s.noteFrame n f st) := fun n f => h.same rfl
    exact .ite (hn ..) (hn ..).endRing

/-! Completions. -/

theorem SameUnits.faultAt (h : SameUnits b s) {core ctx cause addr : Nat} {st : Status} :
    SameUnits b (s.faultAt core ctx cause st addr) := by
  rw [State.faultAt, State.threadFault_eq]
  exact SameUnits.setCtx (h.same (t := s.faultLogged ..) rfl)

theorem SameUnits.recheck (h : SameUnits b s) {core ctx : Nat} : SameUnits b (s.recheck core ctx) := by
  unfold State.recheck
  dsimp only
  split
  · exact .ite h.setCtx h
  · exact .ite (.ite h.faultAt.setCtx h.setCtx) h
  · exact h

/-- A completion leaves the units of every core as they are. -/
theorem SameUnits.complete (h : SameUnits b s) {target : Target} {st : Status} : SameUnits b (s.complete target st) := by
  unfold State.complete
  split
  · exact h
  · exact h.setCtx.recheck
  · dsimp only
    split
    · exact .ite h.setCtx h
    · exact .ite h.setCtx h
    · exact .ite h.setCtx h
    · exact .ite h.setCtx h
    · exact h
  · exact h.completeRing
  · exact .finishRing (.ite h h.notifyFailure)
  · exact h.same rfl
  · exact h.same rfl

end Sys2Proof.Machine
end

section
/-! PROOFS. Tile passes (R150, R151, R162, R163, R168, R169, R187). -/
namespace Sys2Proof.Machine
variable {s t u v w : State}

/-! ### The pass of a running tile (R150, R151, R162, R163, R168, R169, R187) -/

/-- An array runs the tile at its head whose run has begun. -/
theorem State.runningTile_of_begun {core a : Nat} {t : Tile} {rest : List Tile} (hup : s.coreUp core = true)
    (ht : (s.array core a).tiles = t :: rest) (hr : t.running = true) (hb : t.begun = true) (hh : (s.array core a).halted = false) :
    s.runningTile core a = (some t, s) := by
  simp only [State.runningTile, ht, hr, hb, hup, hh, Bool.and_true, Bool.not_false, Bool.not_true, Bool.false_eq_true, if_false, if_true]

/-- An array whose head does not run has no running tile. -/
theorem State.runningTile_of_idle {core a : Nat} (h : ∀ x ∈ (s.array core a).tiles, x.running = false) :
    s.runningTile core a = (none, s) := by
  unfold State.runningTile
  dsimp only
  split
  · rename_i x l e
    rw [if_pos (by simp [h x (by rw [e]; exact List.mem_cons_self ..)])]
  · rfl

/-- What the feeders and the drain do that comes to nothing changes nothing. -/
theorem State.tileUnits_of_none {core a : Nat} {body : State → Option State} (h : body s = none) : s.tileUnits core a body = s := by
  rw [State.tileUnits, State.units, State.unitsFrom]
  simp only [h]

/-! What the completion of a tile leaves of its array's input. -/

theorem State.array_setArray_of_ne (s : State) {c1 a1 c2 a2 : Nat} (h : ¬ (c1 = c2 ∧ a1 = a2)) (x : ArrayUnit) :
    (s.setArray c1 a1 x).array c2 a2 = s.array c2 a2 := by
  unfold State.array State.setArray
  dsimp only
  by_cases hc : c2 = c1
  · subst hc
    rw [State.core_setCore_same]
    exact Map.get_set_of_ne _ _ _ fun e => h ⟨rfl, e.symm⟩
  · rw [State.core_setCore_of_ne _ _ hc]

/-- The tiles in the input of an array stand as they did. -/
theorem State.setArray_tiles (s : State) (c1 a1 c2 a2 : Nat) {x : ArrayUnit} (hx : x.tiles = (s.array c1 a1).tiles) :
    ((s.setArray c1 a1 x).array c2 a2).tiles = (s.array c2 a2).tiles := by
  by_cases h : c1 = c2 ∧ a1 = a2
  · obtain ⟨rfl, rfl⟩ := h
    rw [State.array_setArray_same, hx]
  · rw [State.array_setArray_of_ne s h]

theorem State.sampleTile_tiles (s : State) (core a : Nat) (t : Tile) :
    ((s.sampleTile core a t).2.array core a).tiles = (s.array core a).tiles := by
  have hset : ∀ (v : State) x, ((v.setArray core a { v.array core a with lfsr := x }).array core a).tiles = (v.array core a).tiles :=
    fun v x => v.setArray_tiles core a core a rfl
  unfold State.sampleTile
  extract_lets ok x __src s1 y __src1 s2 m n i smp
  split
  · rfl
  · split
    · exact hset _ _
    · split
      · exact (congrArg _ (SameUnits.array (SameUnits.same (.refl _) rfl) ..)).trans ((hset _ _).trans (hset _ _))
      · exact (s2.setArray_tiles core a core a (x := { s2.array core a with sample := some smp }) rfl).trans ((hset s1 y).trans (hset s x))

theorem SameUnits.reportTile (h : SameUnits u s) {core : Nat} {t : Tile} : SameUnits u (s.reportTile core t) :=
  (h.same (t := s.countTile core) rfl).foldl fun _ _ hv => hv.complete

theorem State.settleTiles_tiles (s : State) (core a fuel : Nat) :
    ((s.settleTiles core a fuel).array core a).tiles = (s.array core a).tiles := by
  induction fuel generalizing s with
  | zero => rfl
  | succ fuel ih =>
    unfold State.settleTiles
    dsimp only
    split
    · rename_i t rest _ _
      have hs := s.sampleTile_tiles core a t
      split
      · exact hs
      · rw [ih, (SameUnits.refl _).reportTile.array]
        exact (State.setArray_tiles _ core a core a (x := { (s.sampleTile core a t).2.array core a with done := rest }) rfl).trans hs
    · rfl

theorem State.settleRamp_tiles (s : State) (f core a : Nat) : ((s.settleRamp f).array core a).tiles = (s.array core a).tiles := by
  unfold State.settleRamp
  dsimp only
  generalize List.flatMap _ _ = l
  induction l generalizing s with
  | nil => rfl
  | cons e l ih =>
    rw [List.foldl_cons, ih]
    split
    · exact State.setArray_tiles _ e.1 e.2 core a rfl
    · rfl

/-- A finished tile leaves the input of its array. -/
theorem State.finishTile_tiles (s : State) (core a : Nat) (t : Tile) (st : Status) (all : Bool) :
    ((s.finishTile core a t st all).array core a).tiles = (s.array core a).tiles.drop 1 := by
  unfold State.finishTile
  dsimp only
  rw [State.settleRamp_tiles, State.settleTiles_tiles, State.array_setArray_same]

/-- A read of the streamed operand that fails has read nothing else. -/
theorem SameUnits.readPass_of_failed {core a : Nat} {t : Tile} {d : PassData} (h : s.readPass core a t = (d, u))
    (hs : d.result.status ≠ 0) : SameUnits s u := by
  have hr := (SameUnits.refl s).asked (.readSpans (who := .array core a) rfl s (streamSpans core t.words t.pass))
  unfold State.readPass at h
  dsimp only at h
  split at h
  · obtain ⟨-, rfl⟩ := Prod.mk.inj h
    exact hr
  · split at h
    · obtain ⟨-, rfl⟩ := Prod.mk.inj h
      exact hr
    · obtain ⟨rfl, -⟩ := Prod.mk.inj h
      exact absurd rfl hs

theorem not_false_of_eq {x : Bool} (h : x = true) : ¬ (!x) = true := by simp [h]

/-- Settles O24. -/
theorem tilePassesAccumulate : Obligations.TilePassesAccumulate := by
  intro s s1 core a faults t rest d hup ht hr hb hh hd ws tw stream held blocks sum ev n products gated v0 v ok ends
  have hrun := State.runningTile_of_begun hup ht hr hb hh
  refine ⟨fun hw hs => ?waits, fun hw hs hq => ⟨?goesOn, ?finishes, ?reruns, ?failsChecks, ?nothing⟩, fun hw hs => ⟨?fails, ?noEnd⟩,
    fun hw hs hq => ⟨?held, ?noEnd2⟩⟩
  case waits =>
    refine congrArg Host.Outcome.next (State.tileUnits_of_awaits (w := s1) ?_ hs)
    rw [hrun]
    dsimp only
    rw [hd]
    exact if_pos hw
  case goesOn =>
    intro hok hn hu
    refine congrArg Host.Outcome.next (State.tileUnits_of_settled ?_ hu)
    rw [hrun]
    dsimp only
    rw [hd]
    refine (if_neg (by simp [hw])).trans ((if_neg (by simp [hs, hq])).trans ?_)
    exact (if_neg (not_false_of_eq hok)).trans (if_pos hn)
  case finishes =>
    intro reqs e w hok hn hdr hu
    refine congrArg Host.Outcome.next (State.tileUnits_of_settled ?_ hu)
    rw [hrun]
    dsimp only
    rw [hd]
    refine (if_neg (by simp [hw])).trans ((if_neg (by simp [hs, hq])).trans ?_)
    refine (if_neg (not_false_of_eq hok)).trans ((if_neg (Nat.not_lt.mpr hn)).trans ?_)
    exact congrArg (fun x : List TileReq × List NumEvent × State => some ((x.2.2.countEvents core x.2.1).finishTile core a
      { n with reqs := x.1, counted := n.counted || !x.2.1.isEmpty } 0 false)) hdr
  case reruns =>
    intro hok hat hu
    refine congrArg Host.Outcome.next (State.tileUnits_of_settled ?_ hu)
    rw [hrun]
    dsimp only
    rw [hd]
    refine (if_neg (by simp [hw])).trans ((if_neg (by simp [hs, hq])).trans ?_)
    exact (if_pos (congrArg (!·) hok)).trans (congrArg some (if_pos hat))
  case failsChecks =>
    intro hok hat hu
    refine congrArg Host.Outcome.next (State.tileUnits_of_settled ?_ hu)
    rw [hrun]
    dsimp only
    rw [hd]
    refine (if_neg (by simp [hw])).trans ((if_neg (by simp [hs, hq])).trans ?_)
    exact (if_pos (congrArg (!·) hok)).trans (congrArg some (if_neg hat))
  case nothing =>
    refine congrArg Host.Outcome.next ?_
    rw [State.tileUnits_of_none, State.failHeld, hrun]
    · dsimp only
      rw [hd]
      exact if_pos (by simp [hq])
    · dsimp only
      rw [hrun]
      dsimp only
      rw [hd]
      exact (if_neg (by simp [hw])).trans (if_neg (by simp [hs]))
  case fails =>
    intro u hrest hu
    refine congrArg Host.Outcome.next ?_
    rw [State.tileUnits_of_settled (w := s1.finishTile core a t d.result.status true) _ hu]
    · have hidle : ((s1.finishTile core a t d.result.status true).tileLinesTaken core a).runningTile core a =
          (none, (s1.finishTile core a t d.result.status true).tileLinesTaken core a) := by
        refine State.runningTile_of_idle fun x hx => hrest x ?_
        have e := s1.finishTile_tiles core a t d.result.status true
        rw [(SameUnits.readPass_of_failed hd hs).array, ht] at e
        exact (congrArg (x ∈ ·) e).mp hx
      rw [State.failHeld, hidle]
    · dsimp only
      rw [hrun]
      dsimp only
      rw [hd]
      exact (if_neg (by simp [hw])).trans (if_pos hs)
  case noEnd =>
    refine congrArg Host.Outcome.next (State.tileUnits_of_none ?_)
    rw [hrun]
    dsimp only
    rw [hd]
    exact (if_neg (by simp [hw])).trans (if_pos (Bool.or_eq_true_iff.mpr (.inl (decide_eq_true hs))))
  case held =>
    refine congrArg Host.Outcome.next ?_
    rw [State.tileUnits_of_none, State.failHeld, hrun]
    · dsimp only
      rw [hd]
      exact if_neg (by simp [hw, hs, hq])
    · dsimp only
      rw [hrun]
      dsimp only
      rw [hd]
      exact (if_neg (by simp [hw])).trans (if_neg (by simp [hs]))
  case noEnd2 =>
    refine congrArg Host.Outcome.next (State.tileUnits_of_none ?_)
    rw [hrun]
    dsimp only
    rw [hd]
    exact (if_neg (by simp [hw])).trans (if_pos (by simp [hq]))

end Sys2Proof.Machine
end

section
/-! PROOFS. The goose and the numeric counters (R211, R222 to R227). -/
namespace Sys2Proof.Machine
variable {s t u v w : State}

/-! ### Writes of entries while the steward is there (R39) -/

/-- A write that a steward makes is made. -/
theorem State.written_of_steward (h : s.steward.lost = false) : s.written t = t := by
  rw [State.written, h]; exact if_neg (by decide)

theorem State.asking_eq_of_unit {core : Nat} {who : Agent} {body : State → State} {t : State} (h : body s = t) (ha : t.Awaits [who]) :
    s.unit core who body = s.asking t := State.units_of_awaits (body := fun s => some (body s)) (congrArg some h) ha

/-! ### Maps -/

/-- Every entry of a mapped map comes from an entry of the map. -/
theorem Map.mem_mapVals {α : Type} [DecidableEq α] {d : α} {m : Map α} {g : Nat → α → α} {e : Nat × α}
    (h : e ∈ Map.mapVals d m g) : ∃ f ∈ m, e = (f.1, g f.1 f.2) := by
  obtain ⟨f, hf, rfl⟩ := List.mem_map.mp (List.mem_of_mem_filter h)
  exact ⟨f, hf, rfl⟩

/-! ### The goose (R222 to R227) and the numeric counters (R211) -/

/-- The goose serves a sample whose tile waits when it has the vector unit. -/
theorem gooseRecompute_eq {core a : Nat} {smp : Sample} {t : Tile} {rest : List Tile} (hs : (s.array core a).sample = some smp)
    (hd : (s.array core a).done = t :: rest) (hup : s.coreUp core = true) (hm : s.gooseMay core a smp = true) :
    exec (.gooseRecompute core a) s = .next (s.unit core (.goose core a) fun s =>
      let (r, pairs, s) := s.gooseRead core a t smp (tilePasses t.words) 0
      let tw := coreTower core
      if r.waiting then s
      else if r.status ≠ 0 then (s.towerWrap 0xB212 tw 1).releaseSample core a
      else
        let (ref, abs) := gooseSum smp.y0 (f32Abs smp.y0) pairs
        let s := s.towerWrap 0xB210 tw 1
        let s := if gooseAgrees (tileO t.words) smp.tol smp.yOut ref abs then s
          else s.gooseDisagree core a (gooseRecord (s.refTime tw) ref smp.yOut abs core a smp t.words)
        s.releaseSample core a) := by
  refine congrArg Host.Outcome.next ?_
  dsimp only
  rw [hs, hd]
  exact if_neg (by simp [hup, hm])

theorem State.unit_of_settled_eq {core : Nat} {who : Agent} {body : State → State} (h : body s = w) (hs : w.Settled who) :
    s.unit core who body = w.linesTaken who := by
  subst h; exact State.unit_of_settled hs

/-- A core whose sampling registers are to be seeded again (R222). -/
def Core.reseeded (c : Core) : Core := { c with arrays := Map.mapVals {} c.arrays fun _ u => { u with lfsr := 0 } }

/-- A core whose counters are cleared keeps the events of this reference cycle (R211, R236). -/
def Core.wiped (n : Nat) (c : Core) : Core := { c.inCycle n with sats := (c.inCycle n).cycleSats, nans := (c.inCycle n).cycleNans }

theorem Core.wiped_of_other {c : Core} {n : Nat} (h : c.cycleAt ≠ n) :
    c.wiped n = { c with sats := [], nans := [], cycleAt := n, cycleSats := [], cycleNans := [] } := by
  rw [Core.wiped, Core.inCycle, if_neg h]

theorem Core.wiped_of_same {c : Core} {n : Nat} (h : c.cycleAt = n) :
    c.wiped n = { c with sats := c.cycleSats, nans := c.cycleNans } := by
  rw [Core.wiped, Core.inCycle, if_pos h]

/-- Settles O25. -/
theorem gooseAndNumericCounters : Obligations.GooseAndNumericCounters := by
  intro s core a smp v u who tw
  refine ⟨?sample, ?expiry, fun hl => ⟨?seed, ?clearOne, ?clearAll⟩⟩
  case sample =>
    intro t rest r pairs s1 hs hd hup hm hread sum s2 w
    refine ⟨fun hw ha => ?_, fun hw ha => ?_⟩
    · rw [gooseRecompute_eq hs hd hup hm]
      refine congrArg Host.Outcome.next (State.asking_eq_of_unit ?_ ha)
      dsimp only
      rw [hread]
      exact if_pos hw
    · rw [gooseRecompute_eq hs hd hup hm]
      refine congrArg Host.Outcome.next (State.unit_of_settled_eq ?_ ha)
      dsimp only
      rw [hread]
      refine (if_neg (by simp [hw])).trans ?_
      by_cases hst : r.status ≠ 0
      · exact (if_pos hst).trans (if_pos hst).symm
      · refine (if_neg hst).trans (Eq.trans ?_ (if_neg hst).symm)
        by_cases hag : gooseAgrees (tileO t.words) smp.tol smp.yOut sum.1 sum.2 = true
        · exact (congrArg (State.releaseSample · core a) (if_pos hag)).trans (if_pos hag).symm
        · exact (congrArg (State.releaseSample · core a) (if_neg hag)).trans (if_neg hag).symm
  case expiry =>
    intro hs hup hdue
    refine congrArg Host.Outcome.next ?_
    dsimp only
    rw [show (s.array core a).sample = some smp from hs]
    exact if_pos (by simp [hup, hdue])
  case seed =>
    refine ⟨_, congrArg Host.Outcome.next (State.written_of_steward hl), State.reg_setReg_same .., rfl, fun c hc e he => ?_⟩
    obtain ⟨f, -, rfl⟩ := Map.mem_mapVals (d := {}) (m := s.cores) (g := fun _ c => c.reseeded) hc
    obtain ⟨g, -, rfl⟩ := Map.mem_mapVals (d := {}) (m := f.2.arrays) (g := fun _ u => { u with lfsr := 0 }) he
    rfl
  case clearOne =>
    intro n c h31 hn
    have hone : exec (.numericClear v) s = .next (s.setCore n (c.wiped s.now)) :=
      congrArg Host.Outcome.next ((State.written_of_steward hl).trans ((if_neg (ne_true_of_eq_false h31)).trans (if_pos hn)))
    exact ⟨fun h => hone.trans (by rw [Core.wiped_of_other h]), fun h => hone.trans (by rw [Core.wiped_of_same h])⟩
  case clearAll =>
    intro h31
    refine ⟨_, congrArg Host.Outcome.next ((State.written_of_steward hl).trans (if_pos h31)), fun e he => ?_, rfl⟩
    obtain ⟨f, hf, rfl⟩ := Map.mem_mapVals (d := {}) (m := s.cores) (g := fun _ c => c.wiped s.now) he
    refine ⟨f, hf, rfl, ?_⟩
    by_cases h : f.2.cycleAt = s.now
    · rw [Core.wiped_of_same h, if_pos h, if_pos h]; exact ⟨rfl, rfl⟩
    · rw [Core.wiped_of_other h, if_neg h, if_neg h]; exact ⟨rfl, rfl⟩

end Sys2Proof.Machine
end

section
/-! PROOFS. Events and the steward (R32, R36 to R39, R656). -/
namespace Sys2Proof.Machine
variable {s t u v w : State}

/-! ### Events (R656) -/

/-- What an event changes: the log and the entries of the dictionary. -/
theorem State.raise_eq (s : State) (code tower detail : Nat) :
    s.raise code tower detail =
      { s with events := (s.raise code tower detail).events, regs := (s.raise code tower detail).regs } := by
  unfold State.raise
  split <;> rfl

theorem State.reg_withEvents (s : State) (e : Events) (idx sub : Nat) : ({ s with events := e } : State).reg idx sub = s.reg idx sub := rfl

/-- An event sets its bit and moves the head; no other entry changes. -/
theorem State.reg_raise_of_ne (s : State) (code tower detail : Nat) {idx sub : Nat} (h2 : idx * 256 + sub ≠ 0xA200 * 256 + 2)
    (h3 : idx * 256 + sub ≠ 0xA200 * 256 + 3) : (s.raise code tower detail).reg idx sub = s.reg idx sub := by
  unfold State.raise
  split
  · rfl
  · dsimp only
    rw [State.reg_setReg_of_ne _ _ h3, State.reg_setReg_of_ne _ _ h2, State.reg_withEvents]

theorem State.raise_of_lost (h : s.steward.lost = true) (code tower detail : Nat) : s.raise code tower detail = s := if_pos h

theorem State.raise_head (h : s.steward.lost = false) (code tower detail : Nat) :
    (s.raise code tower detail).reg 0xA200 2 = (s.reg 0xA200 2 + 1) % 256 := by
  rw [State.raise, if_neg (ne_true_of_eq_false h)]
  dsimp only
  rw [State.reg_setReg_of_ne _ _ (by decide), State.reg_setReg_same]

theorem State.raise_pending (h : s.steward.lost = false) (code tower detail : Nat) :
    (s.raise code tower detail).reg 0xA200 3 = s.reg 0xA200 3 ||| 2 ^ code := by
  rw [State.raise, if_neg (ne_true_of_eq_false h)]
  dsimp only
  rw [State.reg_setReg_same]

theorem State.raise_counts (h : s.steward.lost = false) (code tower detail : Nat) :
    (s.raise code tower detail).events.counts = Map.upd 0 s.events.counts code (addSat · 1) := by
  rw [State.raise, if_neg (ne_true_of_eq_false h)]; rfl

/-- The record of an event in EVENT_LOG. -/
def State.eventEntry (s : State) (code tower detail : Nat) : BitVec 128 :=
  BitVec.ofNat 128 ((s.refTime tower).toNat * 2 ^ 64 + code % 256 * 2 ^ 56 + tower % 8 * 2 ^ 53 + detail % 2 ^ 32)

theorem State.raise_log (h : s.steward.lost = false) (code tower detail : Nat) :
    (s.raise code tower detail).events.log = Map.set 0 s.events.log (s.reg 0xA200 2) (s.eventEntry code tower detail) := by
  rw [State.raise, if_neg (ne_true_of_eq_false h)]; rfl

/-- The steward that was standing by has taken over (R36, R38). -/
def State.takenOver (s : State) : State :=
  { s with steward := { s.steward with lastHeartbeat := s.now }
           dict := { s.dict with snaps := [] }
           host := { s.host with mbBusy := false, mbSent := [] } }

theorem State.sat32_eq (s : State) (idx sub n : Nat) : s.sat32 idx sub n = s.setReg idx sub (min (s.reg idx sub + n) 0xFFFFFFFF) := rfl

theorem takeover_of_standby (hr : s.steward.running = true) (h3 : s.reg 0x9010 3 = 1)
    (hd : s.steward.lastHeartbeat + msCycles 5 ≤ s.now) : exec .stewardTakeover s =
      .next ((((s.takenOver.setReg 0x9010 1 1).sat32 0x9010 2 1).setReg 0x9010 3 0).raise 0x02 0 1) :=
  congrArg Host.Outcome.next (if_pos (by simp [hr, h3, hd]))

/-- Settles O26. -/
theorem eventsAndTheSteward : Obligations.EventsAndTheSteward := by
  refine ⟨fun s code tower detail => ⟨fun h => State.raise_of_lost h .., fun h => ⟨State.raise_head h .., State.raise_pending h .., ?counts,
    ?entry, fun i hi => ?others, State.raise_eq ..⟩⟩, fun s segment => ⟨fun h1 h2 => ?heartbeat, fun hr h3 hd hl => ?standby,
      fun hr hb hi h0 hd => ?failed, fun hr h3 hd => ?lost, ⟨_, rfl, State.reg_setReg_same .., rfl⟩, fun hs hl => ?segment⟩⟩
  case counts => rw [State.raise_counts h, Map.upd, Map.get_set_same]; rfl
  case entry => rw [State.raise_log h, Map.get_set_same]; rfl
  case others => rw [State.raise_log h, Map.get_set_of_ne _ _ _ hi]
  case heartbeat =>
    refine congrArg Host.Outcome.next (if_pos ?_)
    rcases h1 with h1 | h1 <;> simp [h1, h2]
  case standby =>
    have hl2 : (((s.takenOver.setReg 0x9010 1 1).sat32 0x9010 2 1).setReg 0x9010 3 0).steward.lost = false := hl
    refine ⟨_, takeover_of_standby hr h3 hd, ?_, ?_, ?_, ?_, ?_⟩
    · rw [State.reg_raise_of_ne _ _ _ _ (by decide) (by decide), State.reg_setReg_of_ne _ _ (by decide), State.sat32_eq,
        State.reg_setReg_of_ne _ _ (by decide), State.reg_setReg_same]
    · rw [State.reg_raise_of_ne _ _ _ _ (by decide) (by decide), State.reg_setReg_same]
    · rw [State.reg_raise_of_ne _ _ _ _ (by decide) (by decide), State.reg_setReg_of_ne _ _ (by decide), State.sat32_eq,
        State.reg_setReg_same, State.reg_setReg_of_ne _ _ (by decide)]
      rfl
    · rw [State.raise_pending hl2, State.reg_setReg_of_ne _ _ (by decide), State.sat32_eq,
        State.reg_setReg_of_ne _ _ (by decide), State.reg_setReg_of_ne _ _ (by decide)]
      rfl
    · rw [State.raise_eq]
      exact ⟨rfl, rfl, rfl, rfl, rfl, rfl, rfl⟩
  case failed =>
    refine congrArg Host.Outcome.next ((if_neg (by simp [hr])).trans (if_pos (by simp [hr, hb, hi, h0, hd])))
  case lost =>
    refine congrArg Host.Outcome.next ((if_pos (by simp [hr, h3, hd])).trans ?_)
    cases s.host.mbSent <;> rfl
  case segment =>
    have hl2 : (s.setReg 0x9010 4 (s.reg 0x9010 4 ||| 2 ^ segment)).steward.lost = false := hl
    refine ⟨_, congrArg Host.Outcome.next (if_pos hs), ?_, ?_, ?_⟩
    · rw [State.reg_raise_of_ne _ _ _ _ (by decide) (by decide), State.reg_setReg_same]
      simp
    · rw [State.raise_pending hl2, State.reg_setReg_of_ne _ _ (by decide)]
    · rw [State.raise_eq]
      rfl

end Sys2Proof.Machine
end

section
/-! PROOFS. The pace loops (R53 to R57, R61, R63, R77, R78). -/
namespace Sys2Proof.Machine
variable {s t u v w : State}

/-! ### The pace loops (R53 to R57, R61, R63, R77, R78) -/

/-- A running maximum is at least its start and at least each value. -/
theorem le_foldl_max {α : Type} (f : α → Nat) (l : List α) (n : Nat) :
    n ≤ l.foldl (fun m e => max m (f e)) n ∧ ∀ e ∈ l, f e ≤ l.foldl (fun m e => max m (f e)) n := by
  induction l generalizing n with
  | nil => exact ⟨Nat.le_refl n, by simp⟩
  | cons x l ih =>
    obtain ⟨h1, h2⟩ := ih (max n (f x))
    refine ⟨(Nat.le_max_left ..).trans h1, fun e he => ?_⟩
    rcases List.mem_cons.mp he with rfl | he
    · exact (Nat.le_max_right ..).trans h1
    · exact h2 e he

/-- The step of the loop, written out (R57). -/
theorem loopStep_eq (meas target setpoint : Nat) :
    loopStep meas target setpoint =
      (let e := max meas target - min meas target
       if e * 200 ≤ target then setpoint
       else if meas < target then min 680 (setpoint + if e * 100 ≤ 3 * target then 2 else 4)
       else max 480 (setpoint - if e * 100 ≤ 3 * target then 2 else 4)) := by
  simp only [loopStep, inDeadBand, decide_eq_true_eq]

/-- The limits of a field's pace read the field's caps, two targets and the lock alone (R55). -/
theorem State.paceLimits_congr {f : Nat} (hr : ∀ idx sub, idx * 256 + sub < 0xA200 * 256 → t.reg idx sub = s.reg idx sub)
    (hc : (t.field f).capLimit = (s.field f).capLimit) (ht : (t.field f).thermalLimit = (s.field f).thermalLimit) :
    t.paceLimits f = s.paceLimits f := by
  have hl : t.paceLocked = s.paceLocked := by rw [State.paceLocked, hr 0x5200 5 (by decide)]; rfl
  rw [State.paceLimits, State.paceLimits, hc, ht, hl, hr 0x2200 1 (by decide), hr 0x2210 1 (by decide)]

/-- An idle core's beats are counted in its core and in the totals (R61). -/
theorem State.passBeats_rest (s : State) (core n : Nat) :
    s.passBeats core n = { s with cores := (s.passBeats core n).cores, regs := (s.passBeats core n).regs } := by
  unfold State.passBeats
  split <;> rfl

theorem State.passBeats_reg (s : State) (core n : Nat) {idx sub : Nat} (h : idx * 256 + sub < 0xA200 * 256) :
    (s.passBeats core n).reg idx sub = s.reg idx sub := by
  unfold State.passBeats
  split
  · rfl
  · exact (State.reg_setReg_of_ne _ _ (by omega)).trans rfl

/-- The beats of a window that passed on the cores of a field. -/
def State.beatsPassed (s : State) (f count : Nat) : State := (fieldCores f).foldl (fun (s : State) c => s.passBeats c count) s

theorem State.beatsPassed_rest (s : State) (f count : Nat) : ∃ C R, s.beatsPassed f count = { s with cores := C, regs := R } := by
  unfold State.beatsPassed
  induction fieldCores f generalizing s with
  | nil => exact ⟨_, _, rfl⟩
  | cons c l ih =>
    obtain ⟨C, R, e⟩ := ih (s.passBeats c count)
    rw [List.foldl_cons, e, State.passBeats_rest]
    exact ⟨_, _, rfl⟩

theorem State.beatsPassed_reg (s : State) (f count : Nat) {idx sub : Nat} (h : idx * 256 + sub < 0xA200 * 256) :
    (s.beatsPassed f count).reg idx sub = s.reg idx sub := by
  unfold State.beatsPassed
  induction fieldCores f generalizing s with
  | nil => rfl
  | cons c l ih => rw [List.foldl_cons, ih, State.passBeats_reg _ _ _ h]

/-- A field whose window has ended, before its loop looks at the count. -/
def State.windowEnded (s : State) (f count : Nat) : State :=
  (s.beatsPassed f count).setField f { s.field f with windowAt := (s.field f).windowAt + usCycles 1 }

theorem State.windowEnded_rest (s : State) (f count : Nat) :
    ∃ F C R, s.windowEnded f count = { s with fields := F, cores := C, regs := R } := by
  obtain ⟨C, R, e⟩ := s.beatsPassed_rest f count
  rw [State.windowEnded, e]
  exact ⟨_, _, _, rfl⟩

theorem State.windowEnded_field (s : State) (f count : Nat) :
    (s.windowEnded f count).field f = { s.field f with windowAt := (s.field f).windowAt + usCycles 1 } := by
  rw [State.windowEnded, State.field_setField_same]

theorem State.windowEnded_field_of_ne (s : State) {f g : Nat} (count : Nat) (h : g ≠ f) :
    (s.windowEnded f count).field g = s.field g := by
  obtain ⟨C, R, e⟩ := s.beatsPassed_rest f count
  rw [State.windowEnded, State.field_setField_of_ne _ _ h, e]
  rfl

theorem State.windowEnded_paceLimits (s : State) (f count : Nat) : (s.windowEnded f count).paceLimits f = s.paceLimits f :=
  State.paceLimits_congr (fun _ _ h => (State.setField_reg ..).trans (State.beatsPassed_reg _ _ _ h))
    (by rw [State.windowEnded_field]) (by rw [State.windowEnded_field])

theorem State.windowEnded_lowestLimit (s : State) (f count : Nat) : (s.windowEnded f count).lowestLimit f = s.lowestLimit f := by
  rw [State.lowestLimit, State.windowEnded_paceLimits]; rfl

theorem State.limiterBits_congr {f : Nat} (h : t.paceLimits f = s.paceLimits f) (c : Bool) :
    t.limiterBits f c = s.limiterBits f c := by
  unfold State.limiterBits State.lowestLimit
  rw [h]

theorem State.windowEnded_limiterBits (s : State) (f count : Nat) (c : Bool) :
    (s.windowEnded f count).limiterBits f c = s.limiterBits f c := State.limiterBits_congr (s.windowEnded_paceLimits f count) c

theorem State.windowEnded_fieldUp (s : State) (f count : Nat) : (s.windowEnded f count).fieldUp f = s.fieldUp f := by
  rw [State.fieldUp, State.windowEnded_field]; rfl

theorem paceWindow_eq {f count : Nat} (hf : f < 64) (hw : (s.field f).windowAt + usCycles 1 ≤ s.now) :
    exec (.paceWindow f count) s =
      .next (let v := (s.windowEnded f count).takeCount f count
             v.setField f { v.field f with shownSetpoint := (v.field f).setpoint }) :=
  congrArg Host.Outcome.next (if_neg (by simp [hf, hw]))

/-- A field whose loop has made its step and begun no transition. -/
def Field.stepped (k : Field) (meas : Nat) (limiter : BitVec 8) (held : Map Nat) : Field :=
  { k with meas := meas, limiter := limiter, transition := 0, setpoint := loopStep meas k.target k.setpoint, held := held }

theorem Field.withFalling_none {k : Field} (h : k.falling = none) : ({ k with falling := none } : Field) = k := by
  rw [← h]

theorem Field.withSlope_of_none {k : Field} (h : k.since = none) (meas : Nat) : k.withSlope meas = k := by
  rw [Field.withSlope, h]

/-- A loop with nothing changed makes its step and begins no transition. -/
theorem State.regulate_steady {f meas : Nat} (hs : (s.field f).since = none) (hf : (s.field f).falling = none)
    (ht : (s.field f).target = max 1000 (s.lowestLimit f)) :
    ∃ (limiter : BitVec 8) (held : Map Nat) (ceiling : Bool),
      s.regulate f meas = if ceiling then (s.setField f ((s.field f).stepped meas limiter held)).sat32 0x2205 (f + 1) 1
        else s.setField f ((s.field f).stepped meas limiter held) := by
  unfold State.regulate
  extract_lets k target ceiling k1 k2 settled k3 k4 k5 k6 k7 v
  have ht' : k.target = target := ht
  have h1 : k1 = k := (if_neg (by omega)).trans (if_neg (by omega))
  have h2 : k2 = { k with meas := meas, limiter := s.limiterBits f ceiling, transition := 0 } := by
    simp only [k2, h1, ← ht']
    rw [show k.since = none from hs]
    rfl
  have hf2 : k2.falling = none := by rw [h2]; exact hf
  have h3 : k3 = k2 := by
    simp only [k3, Field.withFalling_none hf2, ite_self]
  have h4 : k4 = { k2 with setpoint := loopStep meas target k2.setpoint } := by
    simp only [k4, h3, hf2]
  have hf4 : k4.falling = none := by rw [h4]; exact hf2
  have h5 : k5 = k4 := by simp only [k5, hf4]
  have hs5 : k5.since = none := by rw [h5, h4, h2]; exact hs
  have h6 : k6 = k4 := by
    by_cases h : settled = true
    · exact (if_pos h).trans ((Field.withSlope_of_none hs5 meas).trans h5)
    · exact (if_neg h).trans h5
  have h4' : k4 = k.stepped meas (s.limiterBits f ceiling) k.held := by rw [h4, h2, ← ht']; rfl
  by_cases hk : (k6.setpoint == (s.field f).setpoint && k6.falling.isNone) = true
  · refine ⟨s.limiterBits f ceiling, Map.set 0 k6.held target k6.setpoint, ceiling, ?_⟩
    have h7 : k7 = k.stepped meas (s.limiterBits f ceiling) (Map.set 0 k6.held target k6.setpoint) := by
      refine (if_pos (by simpa using hk)).trans ?_
      rw [h6, h4']; rfl
    rw [show v = s.setField f _ from congrArg (s.setField f) h7]
  · refine ⟨s.limiterBits f ceiling, k.held, ceiling, ?_⟩
    have h7 : k7 = k.stepped meas (s.limiterBits f ceiling) k.held :=
      (if_neg (by simpa using hk)).trans (h6.trans h4')
    rw [show v = s.setField f _ from congrArg (s.setField f) h7]

/-- A failed ring is marked, its event is raised the first time, and its field goes to the lowest setpoint (R77). -/
theorem State.ringFailed_eq (s : State) (f : Nat) :
    ∃ E R, s.ringFailed f = ({ s with events := E, regs := R } : State).setField f { s.field f with
      ringFault := true, meas := 0, transition := 2, falling := none, since := none, target := max 1000 (s.lowestLimit f),
      limiter := s.limiterBits f false ||| 0x80, setpoint := max 480 ((s.field f).setpoint - 4) } := by
  unfold State.ringFailed
  dsimp only
  split
  · exact ⟨_, _, rfl⟩
  · have hp : (s.raise 0x03 (f / 8) f).paceLimits f = s.paceLimits f :=
      State.paceLimits_congr (fun _ _ h => State.reg_raise_of_ne _ _ _ _ (by omega) (by omega))
        (by rw [State.raise_eq]; rfl) (by rw [State.raise_eq]; rfl)
    rw [show (s.raise 0x03 (f / 8) f).lowestLimit f = s.lowestLimit f by rw [State.lowestLimit, hp]; rfl,
      State.limiterBits_congr hp, State.raise_eq]
    exact ⟨_, _, rfl⟩

theorem State.windowEnded_events (s : State) (f count : Nat) : (s.windowEnded f count).events = s.events := by
  obtain ⟨F, C, R, e⟩ := s.windowEnded_rest f count
  rw [e]

/-- What the end of a window leaves of the other fields and of the rest, where the loop changes its own field and entries alone. -/
theorem State.windowEnded_shown {f count : Nat} {E : Events} {R : Map Nat} {k : Field}
    (h : (s.windowEnded f count).takeCount f count =
      ({ s.windowEnded f count with events := E, regs := R } : State).setField f k) :
    ∃ F C, (let v := (s.windowEnded f count).takeCount f count
            v.setField f { v.field f with shownSetpoint := (v.field f).setpoint }) =
      { s with fields := F, cores := C, regs := R, events := E } ∧
      Map.get {} F f = { k with shownSetpoint := k.setpoint } ∧ ∀ g, g ≠ f → Map.get {} F g = s.field g := by
  obtain ⟨F, C, R', e⟩ := s.windowEnded_rest f count
  have hg : ∀ g, g ≠ f → Map.get {} F g = s.field g := fun g hne => by
    rw [← s.windowEnded_field_of_ne count hne, e]; rfl
  rw [h]
  dsimp only
  rw [State.field_setField_same, e]
  refine ⟨_, _, rfl, Map.get_set_same .., fun g hne => ?_⟩
  rw [Map.get_set_of_ne _ _ _ hne]
  exact (Map.get_set_of_ne _ _ _ hne).trans (hg g hne)

/-- Settles O27. -/
theorem paceLoops : Obligations.PaceLoops := by
  refine ⟨fun s core level value tower slowest v => ⟨fun hc hf hl => ?stretch, ?applied, fun ht hw => ?links, fun hw => ?linksEarly,
    fun hl => congrArg Host.Outcome.next (State.written_of_steward hl)⟩,
    fun s f count hw => congrArg Host.Outcome.next (if_pos (by simp [hw])), ?powered, ?idle⟩
  case stretch => exact congrArg Host.Outcome.next (if_neg (by simp [hc, hf, hl]))
  case applied =>
    obtain ⟨h1, h2⟩ := le_foldl_max (fun e : Nat × Nat => e.2) (s.core core).stretch
      (max (s.field (coreField core)).transition (Map.get 0 (s.field (coreField core)).thermal core))
    refine ⟨Nat.min_le_left .., fun e he => min_le_min_left _ (h2 e he), min_le_min_left _ ?_, min_le_min_left _ ?_⟩
    · exact (Nat.le_max_left ..).trans h1
    · exact (Nat.le_max_right ..).trans h1
  case links =>
    have hget : ∀ (l : Links) k, ({ s with links := Map.set {} s.links tower l } : State).linksRail k =
        if k = tower then l else s.linksRail k := fun l k => Map.get_set ..
    refine ⟨_, congrArg Host.Outcome.next (if_neg (by simp [ht, hw])), ?_, ?_, ?_, ?_, ?_, fun k hk => ?_, rfl⟩
    all_goals rw [hget]
    · rw [if_pos rfl]
    · rw [if_pos rfl]; simp
    · rw [if_pos rfl]
      dsimp only
      cases hr : s.railsCut
      · simp only [Bool.false_and, Bool.false_eq_true, if_false, loopStep_eq]
      · rfl
    · rw [if_pos rfl]
    · rw [if_pos rfl]
    · rw [if_neg hk]
  case linksEarly => exact congrArg Host.Outcome.next (if_pos (by simp [hw]))
  case powered =>
    intro s f count hf hup hw k e
    refine ⟨fun hr h1 h2 hs hfa ht => ?_, fun hr => ?_⟩
    · obtain ⟨limiter, held, ceiling, he⟩ := State.regulate_steady (s := s.windowEnded f count) (f := f) (meas := count)
        (by rw [State.windowEnded_field]; exact hs) (by rw [State.windowEnded_field]; exact hfa)
        (by rw [State.windowEnded_field, State.windowEnded_lowestLimit]; exact ht)
      have hcount : (s.windowEnded f count).takeCount f count = (s.windowEnded f count).regulate f count := by
        rw [State.takeCount, State.windowEnded_fieldUp, State.windowEnded_field, hup]
        refine (if_neg (by decide)).trans (if_neg ?_)
        have hk : (s.field f).ringFault = false := hr
        simp only [hk, Bool.false_or, Bool.or_eq_true, decide_eq_true_eq]
        omega
      have hstep : ∃ R, (s.windowEnded f count).takeCount f count =
          ({ s.windowEnded f count with events := s.events, regs := R } : State).setField f
            (((s.windowEnded f count).field f).stepped count limiter held) := by
        rw [hcount, he, ← s.windowEnded_events f count]
        generalize s.windowEnded f count = v
        cases ceiling <;> exact ⟨_, rfl⟩
      obtain ⟨R, hstep⟩ := hstep
      obtain ⟨F, C, ht, hf1, hg⟩ := State.windowEnded_shown hstep
      refine ⟨_, (paceWindow_eq hf hw).trans (congrArg Host.Outcome.next ht), ?_⟩
      rw [State.windowEnded_field] at hf1
      have hfield : ({ s with fields := F, cores := C, regs := R, events := s.events } : State).field f = _ := hf1
      rw [hfield]
      exact ⟨rfl, rfl, rfl, rfl, loopStep_eq .., rfl, rfl, hg, rfl⟩
    · have hcount : (s.windowEnded f count).takeCount f count = (s.windowEnded f count).ringFailed f := by
        rw [State.takeCount, State.windowEnded_fieldUp, State.windowEnded_field, hup]
        refine (if_neg (by decide)).trans (if_pos ?_)
        simp only [Bool.or_eq_true, decide_eq_true_eq, or_assoc]
        exact hr
      obtain ⟨E, R, he⟩ := (s.windowEnded f count).ringFailed_eq f
      obtain ⟨F, C, ht, hf1, hg⟩ := State.windowEnded_shown (hcount.trans he)
      rw [State.windowEnded_field, State.windowEnded_lowestLimit, State.windowEnded_limiterBits] at hf1
      exact ⟨_, (paceWindow_eq hf hw).trans (congrArg Host.Outcome.next ht), hf1, hg, rfl⟩
  case idle =>
    intro s f count hf hup hw k
    have hcount : (s.windowEnded f count).takeCount f count = (s.windowEnded f count).idleLoop f := by
      rw [State.takeCount, State.windowEnded_fieldUp, hup]
      exact if_pos rfl
    have hidle : ∃ R, (s.windowEnded f count).takeCount f count =
        ({ s.windowEnded f count with events := s.events, regs := R } : State).setField f
          { (s.windowEnded f count).field f with
            meas := 0, target := max 1000 ((s.windowEnded f count).lowestLimit f),
            limiter := (s.windowEnded f count).limiterBits f false |||
              (if ((s.windowEnded f count).field f).ringFault then 0x80 else 0) } := by
      rw [hcount, ← s.windowEnded_events f count]
      generalize s.windowEnded f count = v
      exact ⟨_, rfl⟩
    obtain ⟨R, hidle⟩ := hidle
    obtain ⟨F, C, ht, hf1, hg⟩ := State.windowEnded_shown hidle
    rw [State.windowEnded_field, State.windowEnded_lowestLimit, State.windowEnded_limiterBits] at hf1
    exact ⟨_, (paceWindow_eq hf hw).trans (congrArg Host.Outcome.next ht), hf1, hg, rfl⟩

end Sys2Proof.Machine
end

section
/-! PROOFS. Doorbells (R409, R411). -/
namespace Sys2Proof.Machine
variable {s t u v w : State}

/-! ### Doorbells (R409, R411) -/

theorem State.isOwn_member (s : State) : s.isOwn s.group.member = true := by simp [State.isOwn]

/-- A host request accepted as the only one. -/
def State.withOp (s : State) (o : HostOp) : State := { s with fresh := s.fresh + 1, host := { s.host with ops := [o] } }

theorem State.opReady_withOp {o : HostOp} (hm : s.host.mbRung = false) (hr : s.running = true)
    (hk : ∃ q bytes offset v, o.kind = .doorbell q bytes offset v) : (s.withOp o).opReady o = true := by
  obtain ⟨q, bytes, offset, v, hk⟩ := hk
  have hops : (s.withOp o).host.ops = [o] := rfl
  have hb : (s.withOp o).opBlocked o = false := by simp [State.opBlocked, hops]
  have hm' : (s.withOp o).host.mbRung = false := hm
  have hr' : (s.withOp o).running = true := hr
  rw [State.opReady, hb, hm', hr', hk]
  rfl

theorem State.dropOp_withOp {o : HostOp} (ho : s.host.ops = []) : (s.withOp o).dropOp o = s.withTokens 1 := by
  have hops : (s.withOp o).host.ops.filter (·.id != o.id) = s.host.ops := by rw [ho]; simp [State.withOp]
  rw [State.dropOp, hops]
  rfl

/-- A doorbell that nothing holds is applied at once. -/
theorem State.hostDoorbell_of_idle {q : Nat} {v : BitVec 64} (ho : s.host.ops = []) (hm : s.host.mbRung = false)
    (hr : s.running = true) (hp : s.dm.published = true) (h7 : s.reg 0x3000 7 ≠ 4) (hq : queueExists q = true) :
    s.hostDoorbell q 8 0 v = (s.withTokens 1).applyDoorbell q (v.truncate 32) := by
  let o : HostOp := ⟨s.fresh, 0, s.group.member, .doorbell q 8 0 v, [], !s.running⟩
  have hadd : s.addOp 0 s.group.member (.doorbell q 8 0 v) [] = s.withOp o := by
    simp only [State.addOp, State.token, ho, List.nil_append]
    rfl
  have hfind : (s.withOp o).host.ops.find? (s.withOp o).opReady = some o := by
    rw [show (s.withOp o).host.ops = [o] from rfl, List.find?_cons, State.opReady_withOp hm hr ⟨q, 8, 0, v, rfl⟩]
  have hown : (s.withTokens 1).isOwn o.device = true := (s.withTokens 1).isOwn_member
  rw [State.hostDoorbell, if_neg (by simp [hq]), if_neg (by simp [h7]), if_neg (by simp [hp]), hadd, State.settleHost,
    show (s.withOp o).host.ops.length = 1 from rfl, State.settleFrom, hfind]
  dsimp only [State.settleFrom]
  rw [State.performOp]
  dsimp only [o]
  rw [State.dropOp_withOp ho, State.performDoorbell]
  exact if_pos hown

/-- An error of a doorbell is counted, and raised as an event (R411). -/
theorem State.doorbellError_spec (hl : s.steward.lost = false) (q : Nat) :
    (s.doorbellError q true).reg 0xB704 (q / 2 ^ 16 + 1) = min (s.reg 0xB704 (q / 2 ^ 16 + 1) + 1) 0xFFFFFFFF ∧
    (s.doorbellError q true).reg 0xA200 3 = s.reg 0xA200 3 ||| 2 ^ 9 ∧
    ∃ R E, s.doorbellError q true = { s with regs := R, events := E } := by
  have e : s.doorbellError q true = (s.towerSat 0xB704 (q / 2 ^ 16) 1).raise 0x09 (q / 2 ^ 16) q := rfl
  rw [e]
  refine ⟨?_, ?_, ?_⟩
  · rw [State.reg_raise_of_ne _ _ _ _ (by omega) (by omega), State.towerSat, State.sat32_eq, State.reg_setReg_same]
  · rw [State.raise_pending (s := s.towerSat 0xB704 (q / 2 ^ 16) 1) hl, State.towerSat, State.sat32_eq,
      State.reg_setReg_of_ne _ _ (by omega)]
  · rw [State.raise_eq]; exact ⟨_, _, rfl⟩

/-- Settles O28. -/
theorem doorbellSetsTheProducerIndex : Obligations.DoorbellSetsTheProducerIndex := by
  intro s q v ho hm hr hp h7 hq hin hprod hring k new fills
  have hexec : exec (.doorbell q 8 0 v) s = .next ((s.withTokens 1).applyDoorbell q new) :=
    congrArg Host.Outcome.next (State.hostDoorbell_of_idle ho hm hr hp h7 hq)
  have happly : (s.withTokens 1).applyDoorbell q new =
      if fills > 2 ^ k.ringLog2.toNat then (s.withTokens 1).doorbellError q true
      else if new = k.pi then s.withTokens 1
      else if fills < (k.pi - k.ci).toNat then (s.withTokens 1).doorbellError q true
      else ((s.withTokens 1).setQueue q { k with pi := new }).enterLedger q (new - k.pi).toNat k.pi := by
    have hin' : (s.withTokens 1).inService (queueCore q) = true := hin
    have hk : (s.withTokens 1).queue q = k := rfl
    rw [State.applyDoorbell, hk]
    rw [if_neg (by simp [hin', show k.producer = false from hprod]), if_neg (by simp [show k.ringValid q = true from hring])]
  rw [hexec, happly]
  refine ⟨fun hne hb hf => ?sets, fun he hf => ?same, fun hbad hl => ?bad⟩
  case sets => rw [if_neg (Nat.not_lt.mpr hf), if_neg hne, if_neg (Nat.not_lt.mpr hb)]
  case same => rw [if_neg (Nat.not_lt.mpr hf), if_pos he]
  case bad =>
    have herr : exec (.doorbell q 8 0 v) s = .next ((s.withTokens 1).doorbellError q true) := by
      rw [hexec, happly]
      by_cases hbig : fills > 2 ^ k.ringLog2.toNat
      · rw [if_pos hbig]
      · have hb : fills < (k.pi - k.ci).toNat := hbad.resolve_right hbig
        have hne : new ≠ k.pi := fun e => absurd hb (by simp only [fills, e, Nat.lt_irrefl, not_false_eq_true])
        rw [if_neg hbig, if_neg hne, if_pos hb]
    obtain ⟨h1, h2, R, E, h3⟩ := State.doorbellError_spec (s := s.withTokens 1) hl q
    refine ⟨_, herr, h1, h2, ?_⟩
    rw [h3]; rfl

end Sys2Proof.Machine
end

section
/-! PROOFS. Control blocks and completions of rings (R407, R408, R421 to R423, R432). -/
namespace Sys2Proof.Machine
variable {s t u v w : State}

/-! ### Control blocks (R407, R408, R432) -/

/-- A write of both halves is a write of the word. -/
theorem mergeHalves_both (old v : Word) : mergeHalves old v true true = v := by
  simp only [mergeHalves, if_true]
  ext i hi
  rw [BitVec.getElem_append]
  split
  · simpa using BitVec.getLsbD_eq_getElem hi
  · simp only [BitVec.truncate_eq_setWidth, BitVec.getElem_setWidth, BitVec.getLsbD_ushiftRight,
      show 32 + (i - 32) = i by omega, BitVec.getLsbD_eq_getElem hi]

theorem qcbWrite_eq (hr : s.running = true) (q n : Nat) (v : BitVec 64) :
    exec (.qcbWrite q n v true true) s = .next (s.writeQcbWord q n v) :=
  congrArg Host.Outcome.next ((if_pos hr).trans (by rw [mergeHalves_both]))

theorem resetIndices_eq {q : Nat} (hq : queueExists q = true) (hr : s.running = true) :
    exec (.resetIndices q) s = .next (s.resetIndices q) := congrArg Host.Outcome.next (if_pos (by simp [hq, hr]))

theorem flush_eq {q : Nat} (hq : queueExists q = true) (hr : s.running = true) :
    exec (.flush q) s = .next (s.flush q) := congrArg Host.Outcome.next (if_pos (by simp [hq, hr]))

theorem State.queueConfigError_reg (s : State) (q : Nat) :
    (s.queueConfigError q).reg 0xB706 (q / 2 ^ 16 + 1) = min (s.reg 0xB706 (q / 2 ^ 16 + 1) + 1) 0xFFFFFFFF :=
  State.reg_setReg_same ..

/-- Nothing between CI and PI is left to flush. -/
theorem State.flushAll_of_empty {q : Nat} {st : Status} (h : (s.queue q).ci = (s.queue q).pi) (n : Nat) : s.flushAll q st n = s := by
  cases n with
  | zero => rfl
  | succ n => rw [State.flushAll]; exact if_pos h

/-- A flush of a disabled queue with nothing taken completes what lies between CI and PI. -/
theorem flushNone {q : Nat} (he : (s.queue q).enable = false) (ht : (s.queue q).taken = []) (hn : (s.queue q).waiting = none) :
    s.flush q = s.flushAll q 0x08 ((s.queue q).pi - (s.queue q).ci).toNat := by
  rw [State.flush]
  dsimp only
  rw [hn, if_neg (by rw [he, ht]; decide)]

/-! ### The completion of a descriptor of a ring (R421 to R423) -/

theorem State.setQueue_setQueue_same (s : State) (q : Nat) (k k' : Queue) : (s.setQueue q k).setQueue q k' = s.setQueue q k' := by
  simp only [State.setQueue, Map.set_set_same]

/-- Taken descriptors of other slots stand as they did. -/
theorem filter_map_taken (l : List Taken) (i : Nat) (st : Status) :
    (l.map fun x => if x.index = i then { x with ending := some st } else x).filter (·.index != i) = l.filter (·.index != i) := by
  induction l with
  | nil => rfl
  | cons x l ih =>
    by_cases hx : x.index = i
    · simp [hx, ih]
    · simp [hx, ih]

/-- The queue of a descriptor whose status has been stored and that waits for its notifications. -/
def Queue.ended (k : Queue) (i : Nat) (st : Status) : Queue :=
  { k with taken := k.taken.map fun x => if x.index = i then { x with ending := some st } else x
           waiting := if k.waiting = some i then none else k.waiting }

theorem Queue.ended_find {k : Queue} {i : Nat} {d : Taken} (st : Status)
    (h : k.taken.find? (fun t => t.index == i && t.ending.isNone) = some d) : ∃ e, (k.ended i st).taken.find? (·.index == i) = some e := by
  obtain ⟨hd, -⟩ := Bool.and_eq_true_iff.mp (List.find?_some (p := fun t : Taken => t.index == i && t.ending.isNone) h)
  refine Option.isSome_iff_exists.mp (List.find?_isSome.mpr ?_)
  exact ⟨{ d with ending := some st }, List.mem_map.mpr ⟨d, List.mem_of_find?_eq_some h, if_pos (beq_iff_eq.mp hd)⟩, hd⟩

/-- A descriptor of a ring in SRAM with no record to write has its status stored, and its sync object is told or its slot freed. -/
theorem State.completeRing_eq {q i : Nat} {st : Status} {d : Taken}
    (hd : (s.queue q).taken.find? (fun t => t.index == i && t.ending.isNone) = some d) (hf : s.frameOf q i = none)
    (hs : (s.queue q).ringSpace ≠ 2) (hok : s.slotFails (s.slotAddr q i) = false) (hn : (s.queue q).notifyRecord = false)
    (hq : u.queue q = s.queue q)
    (hw : s.writeRange (s.slotAddr q i + 6) [BitVec.ofNat 8 (128 + d.word0.toNat / 2 ^ 48 % 128), BitVec.ofNat 8 st.toNat] none = (0, u)) :
    s.completeRing q i st = (u.setQueue q ((s.queue q).ended i st)).notifyObject q i := by
  obtain ⟨e, he⟩ := Queue.ended_find st hd
  have hupd : (u.setQueue q { s.queue q with
      waiting := if (s.queue q).waiting = some i then none else (s.queue q).waiting }).updTaken q i
        (fun t => { t with ending := some st }) = u.setQueue q ((s.queue q).ended i st) := by
    rw [State.updTaken, State.queue_setQueue_same, State.setQueue_setQueue_same]; rfl
  rw [State.completeRing, hf]
  dsimp only
  rw [State.endRing, hd]
  dsimp only
  rw [beq_eq_false_iff_ne.mpr hs]
  simp only [Bool.false_eq_true, if_false]
  rw [hw]
  simp only [hok, Bool.not_false, Bool.and_true, decide_true, if_true, hq]
  rw [hupd, State.notifyRecord, State.queue_setQueue_same, he]
  exact if_pos (by simp [Queue.ended, hn])

/-- A slot freed with no message to send: COMPLETED goes on by one (R423). -/
theorem State.finishRing_eq {q i : Nat} {e : Taken} (he : (s.queue q).taken.find? (·.index == i) = some e)
    (hm : (s.queue q).notifyMsix = false) :
    ∃ C, s.finishRing q i = { s.setQueue q { s.queue q with
      completed := (s.queue q).completed + 1, taken := (s.queue q).taken.filter (·.index != i) } with cores := C } := by
  have hv : s.viaHead (s.queue q) = false := by simp [State.viaHead, hm]
  rw [State.finishRing]
  dsimp only
  rw [he]
  dsimp only
  rw [hv]
  simp only [hm, Bool.false_eq_true, if_false]
  exact ⟨_, rfl⟩

/-- Settles O29. -/
theorem queueControlBlocks : Obligations.QueueControlBlocks := by
  refine ⟨fun s q v hq hr => ?control, fun s q n v hr => ⟨congrArg _ (if_neg (by simp [hr])), congrArg _ (if_neg (by simp [hr])),
    congrArg _ (if_neg (by simp [hr]))⟩, fun s s1 q i st d => ?completion⟩
  case control =>
    intro k w
    have hw : ∀ n v, w n v = .next (s.writeQcbWord q n v) := fun n v => qcbWrite_eq hr q n v
    have hw0 : ∀ v, w 0 v = .next (s.writeQcb0 q v) := fun v =>
      (hw 0 v).trans (congrArg _ (if_neg (by simp [hq])))
    refine ⟨fun he => ⟨?_, ?_, ?_⟩, fun he => ⟨?_, ?_, ?_⟩, ?word0, fun he => ?_, fun he ht => ?_, fun he => ?_, fun he ht hn hp => ?_,
      fun he ht hn hp => ?_⟩
    · exact (hw 1 v).trans (congrArg _ ((if_neg (by simp [hq])).trans (if_pos he)))
    · exact (hw 2 v).trans (congrArg _ ((if_neg (by simp [hq])).trans (if_pos he)))
    · exact (hw 3 v).trans (congrArg _ ((if_neg (by simp [hq])).trans (if_pos he)))
    · exact (hw 1 v).trans (congrArg _ ((if_neg (by simp [hq])).trans (if_neg (by simp [show (s.queue q).enable = false from he]))))
    · exact (hw 2 v).trans (congrArg _ ((if_neg (by simp [hq])).trans (if_neg (by simp [show (s.queue q).enable = false from he]))))
    · exact (hw 3 v).trans (congrArg _ ((if_neg (by simp [hq])).trans (if_neg (by simp [show (s.queue q).enable = false from he]))))
    case word0 =>
      intro n kept new legal
      have hdis : (v.getLsbD 63 = false → w 0 v = .next (s.setQueue q
          { (if k.enable then kept else new) with enable := false, eligibleSince := none })) := fun h63 =>
        (hw0 v).trans (congrArg _ (if_neg (ne_true_of_eq_false h63)))
      have hset : (v.getLsbD 63 = true → w 0 v = .next (if k.enable || ((if k.enable then kept else new).ringValid q && n % 2 ^ 30 == 0 &&
          !v.getLsbD 41 && s.inService (queueCore q)) then s.setQueue q { (if k.enable then kept else new) with enable := true }
          else (s.queueConfigError q).raise 0x09 (q / 2 ^ 16) q)) := fun h63 =>
        (hw0 v).trans (congrArg _ (if_pos h63))
      refine ⟨fun h63 he => ?_, fun h63 he => ?_, fun h63 he => ?_, fun h63 he hlegal => ?_, fun h63 he hlegal hl => ?_⟩
      · rw [hdis h63, he, if_neg Bool.false_ne_true]
      · rw [hdis h63, he, if_pos rfl]
      · rw [hset h63, he, if_pos rfl, Bool.true_or, if_pos rfl]
      · obtain ⟨h1, h2, h3, h4⟩ := hlegal
        have h2' : n % 2 ^ 30 = 0 := h2
        rw [hset h63, he, if_neg Bool.false_ne_true, h1, h2', h3, h4]
        rfl
      · have hbad : (new.ringValid q && n % 2 ^ 30 == 0 && !v.getLsbD 41 && s.inService (queueCore q)) = false := by
          rw [Bool.eq_false_iff]
          intro h
          simp only [Bool.and_eq_true, beq_iff_eq, Bool.not_eq_true', and_assoc] at h
          exact hlegal h
        refine ⟨(s.queueConfigError q).raise 0x09 (q / 2 ^ 16) q, ?_, ?_, ?_, ?_⟩
        · rw [show exec (.qcbWrite q 0 v true true) s = _ from hset h63, he, if_neg Bool.false_ne_true, hbad, Bool.false_or,
            if_neg Bool.false_ne_true]
        · rw [State.reg_raise_of_ne _ _ _ _ (by omega) (by omega), State.queueConfigError_reg]
        · rw [State.raise_pending (s := s.queueConfigError q) hl, State.queueConfigError, State.towerSat, State.sat32_eq,
            State.reg_setReg_of_ne _ _ (by omega)]
        · rw [State.raise_eq]; rfl
    · exact ⟨_, (resetIndices_eq hq hr).trans (congrArg _ (if_pos (by rw [show (s.queue q).enable = true from he]; rfl))),
        s.queueConfigError_reg q, rfl⟩
    · exact (resetIndices_eq hq hr).trans (congrArg _ (if_neg (by
        rw [show (s.queue q).enable = false from he, show (s.queue q).taken = [] from ht]; decide)))
    · exact ⟨_, (flush_eq hq hr).trans (congrArg _ (if_pos (by rw [show (s.queue q).enable = true from he]; rfl))),
        s.queueConfigError_reg q, rfl⟩
    · refine (flush_eq hq hr).trans (congrArg _ ?_)
      rw [flushNone he ht hn]
      exact State.flushAll_of_empty hp.symm _
    · refine (flush_eq hq hr).trans (congrArg _ ?_)
      rw [flushNone he ht hn]
      have h1 : ((s.queue q).pi - (s.queue q).ci).toNat = 1 := by
        rw [show (s.queue q).pi = (s.queue q).ci + 1 from hp, show (s.queue q).ci + 1 - (s.queue q).ci = 1 by bv_omega]; rfl
      have hne : ¬ (s.queue q).ci = (s.queue q).pi := by
        rw [show (s.queue q).pi = (s.queue q).ci + 1 from hp]
        simp
      rw [h1, State.flushAll]
      refine (if_neg hne).trans ?_
      rw [show (s.queue q).taken = [] from ht]
      rfl
  case completion =>
    intro k hd hf hs hok hn hq hw t
    have ht : t = (s1.setQueue q (k.ended i st)).notifyObject q i := State.completeRing_eq hd hf hs hok hn hq hw
    refine ⟨fun hsy hm => ?_, fun hsy => ?_⟩
    · obtain ⟨e, he⟩ := Queue.ended_find st hd
      have hno : t = (s1.setQueue q (k.ended i st)).finishRing q i := by
        rw [ht, State.notifyObject, State.queue_setQueue_same]
        exact if_neg (ne_true_of_eq_false hsy)
      obtain ⟨C, hC⟩ := State.finishRing_eq (s := s1.setQueue q (k.ended i st)) (q := q) (i := i) (e := e)
        (by rw [State.queue_setQueue_same]; exact he) (by rw [State.queue_setQueue_same]; exact hm)
      rw [State.queue_setQueue_same, State.setQueue_setQueue_same] at hC
      rw [hno, hC]
      refine ⟨?_, fun j hj => State.queue_setQueue_of_ne _ _ hj, rfl⟩
      refine (State.queue_setQueue_same ..).trans ?_
      rw [Queue.ended, filter_map_taken]
    · rw [ht, State.notifyObject, State.queue_setQueue_same]
      exact if_pos hsy

end Sys2Proof.Machine
end

section
/-! PROOFS. The dispatcher and the forecast (R424 to R427, R432). -/
namespace Sys2Proof.Machine
variable {s t u v w : State}

/-! ### The dispatcher (R424 to R427) -/

/-- The queue that a level gives is one of the core's, eligible, and of that level. -/
theorem State.pickLevel_some {core lvl n : Nat} (h : s.pickLevel core lvl = some n) :
    n < 32 ∧ s.eligible (core * 32 + n) = true ∧ (s.queue (core * 32 + n)).level = lvl := by
  have hp := List.find?_some h
  have hm := List.mem_of_find?_eq_some h
  obtain ⟨i, -, rfl⟩ := List.mem_map.mp hm
  rw [Bool.and_eq_true, beq_iff_eq] at hp
  exact ⟨Nat.mod_lt _ (by decide), hp⟩

/-- A level gives a queue where one of the core's is eligible and of it. -/
theorem State.pickLevel_none {core lvl m : Nat} (h : s.pickLevel core lvl = none) (hm : m < 32)
    (he : s.eligible (core * 32 + m) = true) : (s.queue (core * 32 + m)).level ≠ lvl := by
  intro hl
  refine List.find?_eq_none.mp h m (List.mem_map.mpr ?_) (by rw [Bool.and_eq_true, beq_iff_eq]; exact ⟨he, hl⟩)
  generalize Map.get 31 (s.core core).lastTaken lvl = last
  exact ⟨(m + 32 - (last + 1) % 32) % 32, List.mem_range.mpr (Nat.mod_lt _ (by decide)), by omega⟩

/-- Of falling levels the first that gives a queue is picked. -/
theorem State.pickFrom_some {core lvl n : Nat} {l : List Nat} (hl : l.Pairwise (· > ·))
    (h : (l.findSome? fun lvl => (s.pickLevel core lvl).map fun n => (lvl, n)) = some (lvl, n)) :
    s.pickLevel core lvl = some n ∧ ∀ m, m < 32 → s.eligible (core * 32 + m) = true → (s.queue (core * 32 + m)).level ∈ l →
      (s.queue (core * 32 + m)).level ≤ lvl := by
  induction l with
  | nil => cases h
  | cons a l ih =>
    obtain ⟨ha, hl⟩ := List.pairwise_cons.mp hl
    rw [List.findSome?_cons] at h
    cases hp : s.pickLevel core a with
    | some k =>
      rw [hp] at h
      obtain ⟨rfl, rfl⟩ := Prod.mk.inj (Option.some.inj h)
      refine ⟨hp, fun m hm he hmem => ?_⟩
      rcases List.mem_cons.mp hmem with e | hmem
      · exact e.le
      · exact (ha _ hmem).le
    | none =>
      rw [hp] at h
      obtain ⟨h1, h2⟩ := ih hl h
      refine ⟨h1, fun m hm he hmem => h2 m hm he ?_⟩
      exact (List.mem_cons.mp hmem).resolve_left (State.pickLevel_none hp hm he)

theorem Queue.level_mem (k : Queue) : k.level ∈ [4, 3, 2, 1, 0] := by
  have hb : k.priority.toNat < 4 := k.priority.isLt
  have h : k.level < 5 := by unfold Queue.level; split <;> omega
  simp only [List.mem_cons, List.not_mem_nil, or_false]
  omega

theorem State.pick_some {core lvl n : Nat} (h : s.pick core = some (lvl, n)) :
    n < 32 ∧ s.eligible (core * 32 + n) = true ∧ (s.queue (core * 32 + n)).level = lvl ∧
      ∀ m, m < 32 → s.eligible (core * 32 + m) = true → (s.queue (core * 32 + m)).level ≤ lvl := by
  obtain ⟨h1, h2⟩ := State.pickFrom_some (by decide) h
  obtain ⟨hn, he, hl⟩ := State.pickLevel_some h1
  exact ⟨hn, he, hl, fun m hm hem => h2 m hm hem (Queue.level_mem _)⟩

theorem State.pick_of_eligible {core m : Nat} (hm : m < 32) (he : s.eligible (core * 32 + m) = true) : s.pick core ≠ none := by
  intro h
  have hp := List.findSome?_eq_none_iff.mp h _ (Queue.level_mem (s.queue (core * 32 + m)))
  exact State.pickLevel_none (Option.map_eq_none_iff.mp hp) hm he rfl

/-- Settles O30. -/
theorem dispatcherTakesByLevel : Obligations.DispatcherTakesByLevel := by
  refine ⟨fun s core => ⟨fun lvl n h => State.pick_some h, fun m hm he => State.pick_of_eligible hm he, fun h => ?none, ?take⟩,
    fun s q f t0 => ⟨fun h hl hd => ?aged, fun h hl => ?notAged, fun hf hr => ?forecast, fun hr => ?frozen⟩⟩
  case none =>
    refine congrArg Host.Outcome.next ?_
    by_cases hc : (!s.coreUp core || s.doorbellHeld || s.rerunWaits core) = true
    · exact if_pos hc
    · refine (if_neg hc).trans ?_
      simp only [Bool.or_eq_true, Bool.not_eq_true', not_or, Bool.not_eq_false, Bool.not_eq_true] at hc
      obtain ⟨⟨hup, hheld⟩, hw⟩ := hc
      have hp : s.pick core = none := by simpa [hup, hheld, hw] using h
      rw [hp]
  case take =>
    intro lvl n r v hup hheld hw hp q i who hread hwait words u u1 u2 u3 t hs
    refine congrArg Host.Outcome.next ((if_neg (by simp [hup, hheld, hw])).trans ?_)
    rw [hp]
    refine State.unit_of_settled_eq ?_ hs
    rw [State.takeHead]
    dsimp only
    rw [hread]
    exact if_neg (ne_true_of_eq_false hwait)
  case aged =>
    refine congrArg Host.Outcome.next ?_
    dsimp only
    rw [h]
    exact if_pos (by simp [hl, usCycles, hd])
  case notAged =>
    refine congrArg Host.Outcome.next ?_
    dsimp only
    rw [h]
    refine if_neg ?_
    rcases hl with hl | hl
    · simp [hl]
    · exact ne_true_of_eq_false (Bool.and_eq_false_iff.mpr (.inr (decide_eq_false (Nat.not_le.mpr hl))))
  case forecast =>
    have hreg : ∀ (x idx sub : Nat), sub < 256 → ¬ (idx = 0x6001 ∧ sub = f + 1) →
        (s.setReg 0x6001 (f + 1) x).reg idx sub = s.reg idx sub := fun x idx sub hs hn =>
      State.reg_setReg_of_ne _ _ (by omega)
    cases hup : s.fieldUp f
    · exact ⟨_, congrArg Host.Outcome.next ((if_neg (by simp [hr, hf])).trans (if_pos (by rw [hup]; rfl))), State.reg_setReg_same ..,
        hreg _, rfl⟩
    · exact ⟨_, congrArg Host.Outcome.next ((if_neg (by simp [hr, hf])).trans (if_neg (by rw [hup]; decide))),
        State.reg_setReg_same .., hreg _, rfl⟩
  case frozen => exact congrArg Host.Outcome.next (if_pos (by simp [hr]))

end Sys2Proof.Machine
end

section
/-! PROOFS. The window of a channel and its commands (R67, R70, R254, R272, R275, R276, R321, R437). -/
namespace Sys2Proof.Machine
variable {s t u v w : State}

/-! ### The window of a channel (R67, R70, R254, R272, R275, R276, R321) -/

theorem State.setChannel_setChannel_same (s : State) (k : Nat) (c c' : Channel) :
    (s.setChannel k c).setChannel k c' = s.setChannel k c' := by
  simp only [State.setChannel, Map.set_set_same]

/-- A request whose turn its port gives enters the FIFO of its channel. -/
theorem windowInsert_of_turn {id ch off : Nat} {r : Req} (hrun : s.running = true) (hf : s.findReq id = some r) (hst : r.stage = .sent)
    (hown : s.isOwn (r.addr / 2 ^ 48 % 64) = true) (hb : s.behindSameLine r = false) (hp : placeOf r.loc = .dram ch off)
    (hroom : (s.channel ch).fifo.length < 16) (ht : s.portTurn r = true) :
    exec (.windowInsert id) s = .next
      (let t := (((s.setChannel ch ((s.channel ch).enqueue id (s.fromAbove ch r) s.now)).updReq id fun q =>
         { q with stage := .arrived }).grantPort r).settleFifo ch
       if s.fromAbove ch r then t.setChannel ch ((t.channel ch).coreFirst id s.now) else t) := by
  refine congrArg Host.Outcome.next ?_
  rw [hf]
  dsimp only
  rw [if_neg (by rw [hst, hown, hb, hrun]; decide), hp]
  dsimp only
  rw [if_neg (by simp [hroom, ht])]
  rfl

/-- Without room in the FIFO or a turn at the port nothing happens. -/
theorem windowInsert_of_noTurn {id ch off : Nat} {r : Req} (hf : s.findReq id = some r) (hp : placeOf r.loc = .dram ch off)
    (h : 16 ≤ (s.channel ch).fifo.length ∨ s.portTurn r = false) : exec (.windowInsert id) s = .next s := by
  refine congrArg Host.Outcome.next ?_
  rw [hf]
  dsimp only
  split
  · rfl
  · rw [hp]
    exact if_pos (by simpa using h)

/-- The FIFO of a channel after a request has come, which the core's precede those of the crossbar in one cycle (R276). -/
theorem Channel.enqueue_fifo (c : Channel) (id : Nat) (above : Bool) (now : Nat) :
    (c.enqueue id above now).fifo = if above = true ∧ c.crossAt = now + 1 ∧ c.fifo.getLast? = some c.crossId
      then c.fifo.dropLast ++ [id, c.crossId] else c.fifo ++ [id] := by
  simp only [Channel.enqueue, Bool.and_eq_true, beq_iff_eq, and_assoc]

/-- A FIFO of one request hands it on where the controller takes it. -/
theorem State.settleFifo_one {id ch : Nat} {r : Req} (hf : (s.channel ch).fifo = [id]) (hr : s.findReq id = some r) :
    s.settleFifo ch = match s.enterWindow ch r with
      | some t => t.setChannel ch { t.channel ch with fifo := [] }
      | none => s := by
  rw [State.settleFifo, hf, List.length_singleton, State.drainFifo, hf]
  dsimp only
  rw [hr]
  dsimp only
  cases s.enterWindow ch r <;> rfl

theorem State.enterWindow_eq {ch : Nat} {r : Req} (hup : s.upChannel r = none ∨ s.upFull ch = false)
    (hst : s.reachStatus (r.src.tower.getD (coreTower ch)) (.dram ch (r.loc % channelBytes)) = 0) :
    s.enterWindow ch r = if s.henFenced ch (r.loc % channelBytes) r.isRead then some ((s.towerWrap 0xB406 (coreTower ch) 1).answerReq r.id 0x0B [])
      else if r.isRead then (s.insertRead ch r).orElse fun _ => s.appendEntry ch r
      else s.appendEntry ch r := by
  rw [State.enterWindow, if_neg]
  · exact if_neg (not_not.mpr hst)
  · rcases hup with h | h <;> simp [h]

/-- A window with no room, or none for the source, takes no write. -/
theorem State.appendEntry_of_full {ch : Nat} {r : Req} (h : 64 ≤ (s.channel ch).window.length ∨
    56 ≤ ((s.channel ch).window.filter fun e => e.fromCore == s.fromAbove ch r).length) : s.appendEntry ch r = none :=
  if_pos (by simpa using h)

/-- A write of a whole line (R254). -/
def Req.wholeLine (r : Req) : Bool := match r.kind with
  | .write bytes => bytes.length == 64 && r.loc % 64 == 0
  | _ => false

/-- A write that no hen segment holds is the last entry of a window with room. -/
theorem State.appendEntry_of_write {ch : Nat} {r : Req} (hw : r.isRead = false) (h1 : (s.channel ch).window.length < 64)
    (h2 : ((s.channel ch).window.filter fun e => e.fromCore == s.fromAbove ch r).length < 56)
    (hh : (s.channel ch).held (lineBank (r.loc % channelBytes / 64)) = false) :
    ∃ e : WinEntry, e.reqs = [r.id] ∧ e.line = r.loc % channelBytes / 64 ∧ e.isRead = false ∧ e.arrival = s.run ∧ e.heldAt = none ∧
      e.fromCore = s.fromAbove ch r ∧
      s.appendEntry ch r = some ((s.setChannel ch { (s.channel ch).writeArrives (r.loc % channelBytes / 64) with
        window := (s.channel ch).window ++ [e] }).updReq r.id fun q => { q with stage := .window }) := by
  have hheld : ((s.channel ch).writeArrives (r.loc % channelBytes / 64)).held (lineBank (r.loc % channelBytes / 64)) = false := hh
  refine ⟨{ reqs := [r.id], line := r.loc % channelBytes / 64, isRead := r.isRead, full := r.wholeLine, fromCore := s.fromAbove ch r,
            spread := r.spread, arrival := s.run, heldAt := none, wasHeld := false },
    rfl, rfl, hw, rfl, rfl, rfl, (if_neg (by simp; omega)).trans ?_⟩
  simp only [hw, Bool.false_eq_true, if_false, hheld]
  rfl

/-! Reads of the DRAM line code (R437, R441). -/

theorem State.readDramLine_of_clean {ch line : Nat} (h : s.checkOf (dramAddr ch (line * 64) / 64) = 0) (mode : Rewrite) :
    s.readDramLine ch (line * 64) mode = (0, s.bytes (dramAddr ch (line * 64)) 64, s) := by
  rw [State.readDramLine, Nat.mul_div_cancel _ (by decide : 0 < 64)]
  dsimp only
  rw [h]
  rfl

theorem State.readDramLine_of_poison {ch line : Nat} (h : s.checkOf (dramAddr ch (line * 64) / 64) = poisonDiff) (mode : Rewrite) :
    s.readDramLine ch (line * 64) mode =
      (1, [], s.setChannel ch { s.channel ch with poisonReads := addSat (s.channel ch).poisonReads 1 }) := by
  rw [State.readDramLine, Nat.mul_div_cancel _ (by decide : 0 < 64)]
  dsimp only
  rw [h]
  rfl

/-! Answers that wait for room in the FIFO to the core (R70). -/

/-- The answers of a request that has room, or needs none, are given. -/
theorem State.answerEach_one {i : Nat} {g : State → Nat → State}
    (h : ∀ r, s.findReq i = some r → ∀ k, s.upChannel r = some k → s.upFull k = false) : s.answerEach [i] g = ([], g s i) := by
  have hfull : (match (s.findReq i).bind s.upChannel with
      | some ch => s.upFull ch
      | none => false) = false := by
    split
    · rename_i k e
      obtain ⟨r, hr, hk⟩ := Option.bind_eq_some_iff.mp e
      exact h r hr k hk
    · rfl
  simp only [State.answerEach, List.foldl_cons, List.foldl_nil]
  exact if_neg (ne_true_of_eq_false hfull)

/-- A channel whose FIFO to the core stands has the room that it had. -/
theorem State.upFull_setChannel (s : State) (ch : Nat) (c : Channel) (hc : c.up = (s.channel ch).up) (k : Nat) :
    (s.setChannel ch c).upFull k = s.upFull k := by
  have hup : ((s.setChannel ch c).channel k).up = (s.channel k).up := by
    by_cases hk : k = ch
    · subst hk; rw [State.channel_setChannel_same, hc]
    · rw [State.channel_setChannel_of_ne _ _ hk]
  rw [State.upFull, State.upEntries, hup]
  rfl

theorem State.disturb_nil (s : State) (ch off : Nat) : s.disturb ch off [] = s := rfl

/-- A demand read that has returned its line: what answers its requests, and the requests that wait for room (R70). -/
def State.lineAnswered (s : State) (ch : Nat) (f : InFlight) (rest : List InFlight) : State :=
  let (st, data, t) := (s.setChannel ch { s.channel ch with flight := rest }).readDramLine ch (f.line * 64) .queue
  let (left, t) := (t.countLine ch (f.line * 64) false f.spread).answerEach f.reqs fun t i => t.answerLine i st data
  if left.isEmpty then t
  else t.setChannel ch { t.channel ch with flight := { f with reqs := left, got := some (st, data) } :: (t.channel ch).flight }

theorem dramReadData_of_demand {ch : Nat} {f : InFlight} {rest : List InFlight} (hfl : (s.channel ch).flight = f :: rest)
    (hdue : f.due ≤ s.run) (hgot : f.got = none) (hrmw : f.rmw = false) (hsc : f.scrub = false) (hpf : f.prefetch = false) :
    exec (.dramReadData ch []) s = .next (s.lineAnswered ch f rest) := by
  refine congrArg Host.Outcome.next ?_
  dsimp only
  rw [hfl]
  dsimp only
  rw [if_neg (by simp [hdue]), if_neg (by simp [hrmw]), hgot]
  refine (if_neg (ne_true_of_eq_false hrmw)).trans ?_
  have hspread : (f.spread && !(f.prefetch && f.reqs.isEmpty)) = f.spread := by simp [hpf]
  have hdemand : ¬ (f.prefetch && f.reqs.isEmpty) = true := by simp [hpf]
  simp only [State.disturb_nil, State.lineAnswered]
  refine (if_neg (ne_true_of_eq_false hsc)).trans ((if_neg hdemand).trans ?_)
  rw [hspread]
  rfl

theorem State.upFull_countLine (s : State) (ch off k : Nat) (write spread : Bool) :
    (s.countLine ch off write spread).upFull k = s.upFull k := by
  unfold State.countLine
  extract_lets c
  refine s.upFull_setChannel ch _ ?_ k
  rfl

theorem State.countLine_rest (s : State) (ch off : Nat) (write spread : Bool) :
    s.countLine ch off write spread = { s with channels := (s.countLine ch off write spread).channels } := rfl

theorem State.countLine_poisonReads (s : State) (ch off : Nat) (write spread : Bool) :
    ((s.countLine ch off write spread).channel ch).poisonReads = (s.channel ch).poisonReads := by
  unfold State.countLine
  extract_lets c
  rw [State.channel_setChannel_same]

theorem State.poisonReads_withFlight (s : State) (ch : Nat) (l : List InFlight) :
    ((s.setChannel ch { s.channel ch with flight := l }).channel ch).poisonReads = (s.channel ch).poisonReads := by
  rw [State.channel_setChannel_same]

/-- A poisoned line read is counted (R440). -/
def State.poisonCounted (s : State) (ch : Nat) : State :=
  s.setChannel ch { s.channel ch with poisonReads := addSat (s.channel ch).poisonReads 1 }

theorem State.poisonCounted_poisonReads (s : State) (ch : Nat) :
    ((s.poisonCounted ch).channel ch).poisonReads = addSat (s.channel ch).poisonReads 1 := by
  rw [State.poisonCounted, State.channel_setChannel_same]

theorem State.upFull_poisonCounted (s : State) (ch k : Nat) : (s.poisonCounted ch).upFull k = s.upFull k :=
  s.upFull_setChannel ch { s.channel ch with poisonReads := addSat (s.channel ch).poisonReads 1 } rfl k

theorem State.upFull_withFlight (s : State) (ch k : Nat) (l : List InFlight) :
    (s.setChannel ch { s.channel ch with flight := l }).upFull k = s.upFull k :=
  s.upFull_setChannel ch { s.channel ch with flight := l } rfl k

/-- A clean line answers its request from the stored bytes. -/
theorem State.lineAnswered_of_clean {ch i : Nat} {f : InFlight} {rest : List InFlight}
    (hck : s.checkOf (dramAddr ch (f.line * 64) / 64) = 0) (hreq : f.reqs = [i])
    (hroom : ∀ r, s.findReq i = some r → ∀ k, s.upChannel r = some k → s.upFull k = false) :
    s.lineAnswered ch f rest = ((s.setChannel ch { s.channel ch with flight := rest }).countLine ch (f.line * 64) false f.spread).answerLine i 0
      (s.bytes (dramAddr ch (f.line * 64)) 64) := by
  rw [State.lineAnswered, State.readDramLine_of_clean (s := s.setChannel ch { s.channel ch with flight := rest }) hck]
  dsimp only
  rw [hreq, State.answerEach_one]
  · rfl
  · intro q hq k hk
    rw [State.upFull_countLine, State.upFull_withFlight]
    exact hroom q hq k hk

/-- A poisoned line answers its request with POISON and no data. -/
theorem State.lineAnswered_of_poison {ch i : Nat} {f : InFlight} {rest : List InFlight}
    (hck : s.checkOf (dramAddr ch (f.line * 64) / 64) = poisonDiff) (hreq : f.reqs = [i])
    (hroom : ∀ r, s.findReq i = some r → ∀ k, s.upChannel r = some k → s.upFull k = false) :
    s.lineAnswered ch f rest = (((s.setChannel ch { s.channel ch with flight := rest }).poisonCounted ch).countLine ch (f.line * 64) false
      f.spread).answerLine i 0x01 [] := by
  rw [State.lineAnswered, State.readDramLine_of_poison (s := s.setChannel ch { s.channel ch with flight := rest }) hck,
    ← State.poisonCounted]
  dsimp only
  rw [hreq, State.answerEach_one]
  · rfl
  · intro q hq k hk
    rw [State.upFull_countLine, State.upFull_poisonCounted, State.upFull_withFlight]
    exact hroom q hq k hk

/-- Settles O31. -/
theorem channelWindowAndCommands : Obligations.ChannelWindowAndCommands := by
  refine ⟨fun s id ch off i r f rest hrun => ?_, fun s ch hch => ?_⟩
  · intro c a
    refine ⟨fun hf hst hown hb hp => ⟨fun hroom ht => ⟨windowInsert_of_turn hrun hf hst hown hb hp hroom ht, Channel.enqueue_fifo ..⟩,
      windowInsert_of_noTurn hf hp⟩, fun hq hr => ?fifo, fun hup hst => ⟨fun hfen => ?fenced, fun hfen hw => ⟨fun h => ?full, fun h1 h2 hh =>
        ?taken⟩⟩, fun hfl hdue hgot hroom => ⟨fun hrmw => ?rmw, fun hrmw hsc hpf hreq hline => ⟨fun hck => ?clean, fun hck => ?poison⟩⟩⟩
    case fifo =>
      rw [State.settleFifo_one hq hr]
      exact ⟨fun h => by rw [h], fun t h => by rw [h]⟩
    case fenced => rw [State.enterWindow_eq hup hst, if_pos hfen]; rfl
    case full =>
      rw [State.enterWindow_eq hup hst, hw, if_neg (by rw [← hw, hfen]; decide), if_neg Bool.false_ne_true]
      exact State.appendEntry_of_full h
    case taken =>
      rw [State.enterWindow_eq hup hst, hw, if_neg (by rw [← hw, hfen]; decide), if_neg Bool.false_ne_true]
      exact State.appendEntry_of_write hw h1 h2 hh
    case rmw =>
      refine congrArg Host.Outcome.next ?_
      dsimp only
      rw [show (s.channel ch).flight = f :: rest from hfl]
      dsimp only
      rw [if_neg (by simp [hdue]), if_neg, hgot]
      · exact if_pos hrmw
      · simp only [hrmw, Bool.true_and, List.any_eq_true, not_exists, not_and, Bool.not_eq_true, Option.any_eq_false, Option.bind_eq_some_iff]
        rintro i hi k ⟨q, hq, hk⟩
        exact hroom i hi q hq k hk
    case clean =>
      have hread : exec (.dramReadData ch []) s = .next (s.lineAnswered ch f rest) := dramReadData_of_demand hfl hdue hgot hrmw hsc hpf
      rw [hread, State.lineAnswered_of_clean hck hreq]
      exact fun q hq k hk => hroom i (by rw [hreq]; exact List.mem_singleton.mpr rfl) q hq k hk
    case poison =>
      have hread : exec (.dramReadData ch []) s = .next (s.lineAnswered ch f rest) := dramReadData_of_demand hfl hdue hgot hrmw hsc hpf
      refine ⟨_, hread.trans (congrArg Host.Outcome.next (State.lineAnswered_of_poison hck hreq fun q hq k hk => ?_)), _, rfl, ?_, ?_⟩
      · exact hroom i (by rw [hreq]; exact List.mem_singleton.mpr rfl) q hq k hk
      · rw [State.countLine_poisonReads, State.poisonCounted_poisonReads, State.poisonReads_withFlight]
        rfl
      · exact State.countLine_rest ..
  · intro c u at_ free
    refine ⟨fun h => ?held, fun hrun hfree => ⟨?issued, rfl, fun b => ?precharge, fun b row => ?activate⟩⟩
    case held =>
      refine congrArg Host.Outcome.next (if_pos ?_)
      rcases h with h | ⟨n, hn, hd⟩ | h
      · simp [h]
      · simp [hn, hd]
      · simp [h]
    case issued =>
      refine congrArg Host.Outcome.next (if_neg ?_)
      obtain ⟨h1, h2⟩ := hfree
      have h3 : (s.channel ch).commandAt.any (s.run ≤ ·) = false := by
        rw [Option.any_eq_false]
        intro n hn
        exact decide_eq_false (Nat.not_le.mpr (h1 n hn))
      have h4 : (s.channel ch).slots.contains s.run = false := by simpa using h2
      rw [hch, hrun, h3, h4]
      decide
    case precharge =>
      simp only [State.issueCommand, State.channel_setChannel_same, State.setChannel_setChannel_same]
      rfl
    case activate =>
      simp only [State.issueCommand, State.channel_setChannel_same, State.setChannel_setChannel_same]
      rfl

end Sys2Proof.Machine
end

section
/-! PROOFS. Packets at a slice or a core store (R107, R110, R238, R242, R243, R450). -/
namespace Sys2Proof.Machine
variable {s t u v w : State}

/-! ### Packets at a slice or a core store (R107, R110, R238, R242, R243, R450) -/

/-- A beat of a port counts at the port and in the account of the request's core alone. -/
theorem State.grantPort_eq (s : State) (r : Req) :
    ∃ P C, s.grantPort r = { s with ports := P, cores := C } ∧ ∀ k n, (s.grantPort r).ctx k n = s.ctx k n := by
  unfold State.grantPort
  split
  · exact ⟨_, _, rfl, fun _ _ => rfl⟩
  · rename_i p _
    have hc : ∀ (v : State) core q kind k n, (v.charge core q kind 1).ctx k n = v.ctx k n := fun v core q kind k n => by
      unfold State.ctx State.charge
      by_cases hk : k = core
      · subst hk; rw [State.core_setCore_same]
      · rw [State.core_setCore_of_ne _ _ hk]
    unfold State.chargeReq
    split
    · exact ⟨_, _, rfl, fun k n => hc ..⟩
    · exact ⟨_, _, rfl, fun _ _ => rfl⟩

/-- A request served at its port. -/
def State.portServed (s : State) (r : Req) (id : Nat) : State := (s.grantPort r).updReq id fun q => { q with stage := .arrived }

theorem State.portServed_mem (s : State) (r : Req) (id : Nat) : (s.portServed r id).mem = s.mem := by
  obtain ⟨P, C, e, -⟩ := s.grantPort_eq r
  rw [State.portServed, e]; rfl

theorem State.portServed_reqProducer (s : State) (r q : Req) (id : Nat) : (s.portServed r id).reqProducer q = s.reqProducer q := by
  obtain ⟨P, C, e, hc⟩ := s.grantPort_eq r
  have h : ∀ k n, (s.portServed r id).ctx k n = s.ctx k n := hc
  unfold State.reqProducer State.producing
  split
  · rw [h]
  · rfl

theorem State.portServed_findReq {r : Req} {id : Nat} (hf : s.findReq id = some r) (hid : r.id = id) :
    (s.portServed r id).findReq id = some { r with stage := .arrived } := by
  obtain ⟨P, C, e, -⟩ := s.grantPort_eq r
  have h : (s.portServed r id).reqs = s.reqs.map fun q => if q.id = id then { q with stage := .arrived } else q := by
    rw [State.portServed, e]; rfl
  have hcomp : ((fun q : Req => q.id == id) ∘ fun q : Req => if q.id = id then { q with stage := .arrived } else q) = fun q => q.id == id := by
    funext q
    by_cases hq : q.id = id <;> simp [hq]
  rw [State.findReq, h, List.find?_map, hcomp, show s.reqs.find? (fun q => q.id == id) = some r from hf]
  simp [hid]

/-- The answer of a thread's request changes no memory. -/
theorem State.answerReq_mem {id : Nat} {r : Req} {core ctx n : Nat} (hf : s.findReq id = some r) (hs : r.src = .thread core ctx n)
    (st : Status) (data : List Byte) : (s.answerReq id st data).mem = s.mem := by
  have hpost : ∀ (v : State) q b, (v.postReq q b).mem = v.mem := fun v q b => by
    unfold State.postReq
    split
    · split
      · rfl
      · split <;> rw [State.post_eq]
    · rfl
  unfold State.answerReq
  rw [hf]
  obtain ⟨⟩ := r
  subst hs
  dsimp only
  rw [hpost]
  split <;> rfl

theorem State.writeSram_reqs (s : State) (a : Nat) (bs : List Byte) (prod : Option Nat) : (s.writeSram a bs prod).reqs = s.reqs := by
  have h : ((s.poke a bs).sramWritten (a / 64) prod).reqs = s.reqs := by
    unfold State.sramWritten State.setCopyRecords
    dsimp only
    split <;> rfl
  unfold State.writeSram
  dsimp only
  split
  · exact h
  · exact h

/-- What a store into SRAM leaves, and what is then read there. -/
theorem stored_bytes {a : Nat} {bs : List Byte} {prod : Option Nat} (hu : u.mem = s.mem) (ht : t.mem.cells = (u.writeSram a bs prod).mem.cells) :
    SameBytesBut s t a bs.length ∧ t.bytes a bs.length = bs := by
  have hb : ∀ b, t.byte b = (u.poke a bs).byte b := fun b => by
    rw [State.byte, ht]; exact u.writeSram_byte a bs prod b
  refine ⟨fun b hout => ?_, ?_⟩
  · rw [hb, State.byte_poke_of_outside _ _ _ _ hout, State.byte, hu]; rfl
  · rw [State.bytes_congr_byte hb]
    exact State.bytes_poke ..

/-- A thread's request that has come to its target on this device and has the turn of its port, while the device runs. -/
structure State.AtTarget (s : State) (id core ctx serial : Nat) (r : Req) : Prop where
  run : s.running = true
  found : s.findReq id = some r
  idEq : r.id = id
  sent : r.stage = .sent
  src : r.src = .thread core ctx serial
  own : s.isOwn (r.addr / 2 ^ 48 % 64) = true
  ordered : s.behindSameLine r = false
  come : s.reqTravels r = false
  turn : s.portTurn r = true

section
variable {id core ctx serial c off : Nat} {r : Req}

theorem State.AtTarget.sramReq (h : s.AtTarget id core ctx serial r) (body : State → Req → State) :
    s.sramReq id body = match placeOf r.loc with
      | .dram _ _ => s
      | p =>
        if s.reachStatus (r.src.tower.getD p.tower) p ≠ 0 then
          (s.portServed r id).answerReq id (s.reachStatus (r.src.tower.getD p.tower) p) []
        else
          match p with
          | .store c off => s.onBank c off 15 fun s => body (s.portServed r id) r
          | _ => body (s.portServed r id) r := by
  have hb : r.bankPlace.isSome = false := by rw [Req.bankPlace, h.src]; rfl
  rw [State.sramReq, h.found]
  dsimp only
  rw [if_neg (by rw [h.sent, h.turn, h.come, h.own, h.ordered, h.run, hb]; decide)]
  simp only [if_pos h.sent]
  rfl

theorem State.AtTarget.sramReq_store (h : s.AtTarget id core ctx serial r) (hp : placeOf r.loc = .store c off)
    (hr : s.reachStatus (coreTower core) (.store c off) = 0) (body : State → Req → State) :
    s.sramReq id body = s.onBank c off 15 fun s => body (s.portServed r id) r := by
  rw [h.sramReq, hp, h.src]
  exact if_neg (not_not.mpr hr)

theorem State.AtTarget.sramReq_slice (h : s.AtTarget id core ctx serial r) (hp : placeOf r.loc = .slice c off)
    (hr : s.reachStatus (coreTower core) (.slice c off) = 0) (body : State → Req → State) :
    s.sramReq id body = body (s.portServed r id) r := by
  rw [h.sramReq, hp, h.src]
  exact if_neg (not_not.mpr hr)

theorem State.AtTarget.sramReq_unreachable (h : s.AtTarget id core ctx serial r)
    (hp : placeOf r.loc = .store c off ∨ placeOf r.loc = .slice c off) (hr : s.reachStatus (coreTower core) (placeOf r.loc) ≠ 0)
    (body : State → Req → State) :
    s.sramReq id body = (s.portServed r id).answerReq id (s.reachStatus (coreTower core) (placeOf r.loc)) [] := by
  rw [h.sramReq, h.src]
  rcases hp with hp | hp
  · rw [hp] at hr ⊢; exact if_pos hr
  · rw [hp] at hr ⊢; exact if_pos hr

/-- No register of a control block is asked for. -/
theorem State.AtTarget.registerReq (h : s.AtTarget id core ctx serial r)
    (hp : placeOf r.loc = .store c off ∨ placeOf r.loc = .slice c off) : s.registerReq id = none := by
  rw [State.registerReq, h.found]
  dsimp only
  rw [h.src]
  rcases hp with hp | hp <;> rw [hp]

/-- What a read of SRAM does. -/
def readBody (id : Nat) (flips : List (Nat × Byte)) (s : State) (r : Req) : State :=
  match r.kind with
  | .read n =>
    let s := if flips.isEmpty then s else s.upsetSram (r.loc / 64) flips
    let (q, s) := s.readPlace r.loc n r.agent r.spread
    if q.waiting then s else s.answerReq id q.status q.bytes
  | _ => s

theorem State.AtTarget.readPacket (h : s.AtTarget id core ctx serial r)
    (hp : placeOf r.loc = .store c off ∨ placeOf r.loc = .slice c off) (flips : List (Nat × Byte)) :
    exec (.readPacket ⟨id, flips⟩) s = .next (s.sramReq id (readBody id flips)) := by
  refine congrArg Host.Outcome.next ?_
  dsimp only
  rw [h.registerReq hp]
  rfl

theorem State.AtTarget.writePacket (h : s.AtTarget id core ctx serial r)
    (hp : placeOf r.loc = .store c off ∨ placeOf r.loc = .slice c off) : exec (.writePacket id) s = .next (s.writePacket id) := by
  refine congrArg Host.Outcome.next ?_
  rw [h.registerReq hp, h.found]
  dsimp only
  rw [h.src]

/-- A read of a core store whose line passes its check. -/
theorem State.readPlace_store {a n : Nat} {who : Agent} (hl : s.LineOk (a / 64) who) (hp : placeOf a = .store c off) (spread : Bool) :
    s.readPlace a n who spread = ({ bytes := s.bytes a n }, s) := by
  rw [State.readPlace, hp]
  dsimp only
  rw [State.checkSram_of_ok hl]
  rfl

/-- A read of a slice whose line passes its check, which is counted. -/
theorem State.readPlace_slice {a n : Nat} {who : Agent} (hl : s.LineOk (a / 64) who) (hp : placeOf a = .slice c off) (spread : Bool) :
    s.readPlace a n who spread = ({ bytes := s.bytes a n }, s.countSlice c) := by
  rw [State.readPlace, hp]
  dsimp only
  rw [State.checkSram_of_ok hl]

theorem Req.agent_of_thread (hs : r.src = .thread core ctx serial) : r.agent = .thread core ctx := by rw [Req.agent, hs]

/-- A read answers what the place gives. -/
theorem readBody_of_place {n : Nat} {q : ReadResult} (hk : r.kind = .read n) (hs : r.src = .thread core ctx serial)
    (hq : s.readPlace r.loc n (.thread core ctx) r.spread = (q, v)) :
    readBody id [] s r = if q.waiting then v else v.answerReq id q.status q.bytes := by
  rw [readBody, hk]
  simp only [List.isEmpty_nil, if_true, Req.agent_of_thread hs, hq]

theorem readBody_of_flips {n : Nat} {q : ReadResult} {flip : Nat × Byte} {flips : List (Nat × Byte)} (hk : r.kind = .read n)
    (hs : r.src = .thread core ctx serial)
    (hq : (s.upsetSram (r.loc / 64) (flip :: flips)).readPlace r.loc n (.thread core ctx) r.spread = (q, v)) :
    readBody id (flip :: flips) s r = if q.waiting then v else v.answerReq id q.status q.bytes := by
  rw [readBody, hk]
  simp only [List.isEmpty_cons, Bool.false_eq_true, if_false, Req.agent_of_thread hs, hq]

/-- A write of a thread to a core store, once it is served. -/
theorem State.writePlace_store {a : Nat} {data : List Byte} {prod : Option Nat} {spread : Bool} (hp : placeOf a = .store c off) :
    s.writePlace a data prod spread = (0, s.writeSram a data prod) := by
  rw [State.writePlace, hp]

theorem State.writePlace_slice {a : Nat} {data : List Byte} {prod : Option Nat} {spread : Bool} (hp : placeOf a = .slice c off) :
    s.writePlace a data prod spread = (0, (s.writeSram a data prod).countSlice c) := by
  rw [State.writePlace, hp]

/-- What the answer of a write leaves: its own bytes are stored and no other changes. -/
theorem answered_bytes {a : Nat} {bs data : List Byte} {prod : Option Nat} (hu : u.mem = s.mem)
    (hf : u.findReq id = some r) (hs : r.src = .thread core ctx serial) (hr : t.reqs = u.reqs)
    (ht : t.mem.cells = (u.writeSram a bs prod).mem.cells) :
    SameBytesBut s (t.answerReq id 0 data) a bs.length ∧ (t.answerReq id 0 data).bytes a bs.length = bs := by
  have hft : t.findReq id = some r := by rw [State.findReq, hr]; exact hf
  exact stored_bytes hu (by rw [State.answerReq_mem hft hs]; exact ht)

end

/-- Settles O32. -/
theorem packetsServedAtACoreStore : Obligations.PacketsServedAtACoreStore := by
  intro s id core ctx serial c off r hrun hf hid hst hsrc hown hb htr hturn served b k
  have h : s.AtTarget id core ctx serial r := ⟨hrun, hf, hid, hst, hsrc, hown, hb, htr, hturn⟩
  have hline : ∀ {u : State} {l : Nat}, u.mem = s.mem → s.LineOk l (.thread core ctx) → u.LineOk l (.thread core ctx) := by
    intro u l hu hl
    exact ⟨by rw [State.crcOk, hu]; exact hl.1, by rw [hu]; exact hl.2⟩
  have hbytes : ∀ {u : State} (a n : Nat), u.mem = s.mem → u.bytes a n = s.bytes a n := fun a n hu =>
    State.bytes_congr_byte (fun x => by rw [State.byte, hu]; rfl) a n
  refine ⟨fun hp hr hwins => ?store, fun hp hr hwins => ?loses, fun hp hr => ?slice, fun hp hr => ?unreachable⟩
  case store =>
    intro u
    have hmem : u.mem = s.mem := State.portServed_mem ..
    have hbank : ∀ body : State → State, s.onBank c off 15 body = body (s.setBank c (storeBank off) (b.serve 15 s.now)) :=
      fun body => if_pos hwins
    have hfound : u.findReq id = some { r with stage := .arrived } := State.portServed_findReq (s := s.setBank c (storeBank off) _) hf hid
    have hprod : u.reqProducer r = k := by
      refine (State.portServed_reqProducer ..).trans ?_
      simp only [State.reqProducer, State.producing, State.setBank_ctx, k]
    refine ⟨fun n hk hl => ?_, fun n flip flips q v hk hq => ?_, fun bytes hk => ?_, fun op x y hk hl => ?_⟩
    · rw [h.readPacket (.inl hp), h.sramReq_store hp hr, hbank]
      refine congrArg Host.Outcome.next ((readBody_of_place (s := u) hk hsrc (State.readPlace_store (hline hmem hl) hp _)).trans ?_)
      rw [hbytes _ _ hmem]
      rfl
    · rw [h.readPacket (.inl hp), h.sramReq_store hp hr, hbank]
      exact congrArg Host.Outcome.next (readBody_of_flips (s := u) hk hsrc hq)
    · refine ⟨(u.writeSram r.loc bytes k).answerReq id 0 [], ?_, rfl, answered_bytes hmem hfound hsrc (State.writeSram_reqs ..) rfl⟩
      rw [h.writePacket (.inl hp), State.writePacket, h.sramReq_store hp hr, hbank, hk]
      refine congrArg Host.Outcome.next ?_
      dsimp only
      rw [State.writePlace_store hp, show State.reqProducer (State.portServed _ _ _) _ = _ from hprod]
      rfl
    · have hnew := natToBytes_length 8 (amoApply op (BitVec.ofNat 64 (bytesToNat (s.bytes r.loc 8))) x y).toNat
      have ha := answered_bytes (a := r.loc) (bs := natToBytes 8 (amoApply op (BitVec.ofNat 64 (bytesToNat (s.bytes r.loc 8))) x y).toNat)
        (data := s.bytes r.loc 8) (prod := k) hmem hfound hsrc (State.writeSram_reqs ..) rfl
      rw [hnew] at ha
      refine ⟨_, ?_, rfl, ha⟩
      refine congrArg Host.Outcome.next ((h.sramReq_store hp hr _).trans ((hbank _).trans ?_))
      dsimp only
      rw [hk]
      dsimp only
      rw [Req.agent_of_thread hsrc, show State.readPlace (State.portServed _ _ _) _ _ _ _ = _ from
        State.readPlace_store (s := u) (hline hmem hl) hp _]
      simp only [Bool.false_eq_true, if_false, ne_eq, not_true_eq_false]
      rw [State.writePlace_store (s := u) hp, hprod, hbytes _ _ hmem]
  case loses =>
    intro u
    have hbank : ∀ body : State → State, s.onBank c off 15 body = u := fun body => if_neg (ne_true_of_eq_false hwins)
    refine ⟨?_, ?_, ?_⟩
    · rw [h.readPacket (.inl hp), h.sramReq_store hp hr, hbank]
    · exact congrArg Host.Outcome.next ((h.sramReq_store hp hr _).trans (hbank _))
    · rw [h.writePacket (.inl hp)]
      exact congrArg Host.Outcome.next ((h.sramReq_store hp hr _).trans (hbank _))
  case slice =>
    intro seen
    let u := s.portServed r id
    have hmem : u.mem = s.mem := State.portServed_mem ..
    have hfound : u.findReq id = some { r with stage := .arrived } := State.portServed_findReq hf hid
    refine ⟨fun n hk hl => ?_, fun bytes hk => ?_⟩
    · rw [h.readPacket (.inr hp), h.sramReq_slice hp hr]
      refine congrArg Host.Outcome.next ((readBody_of_place (s := u) hk hsrc (State.readPlace_slice (hline hmem hl) hp _)).trans ?_)
      rw [hbytes _ _ hmem]
      rfl
    · refine ⟨(seen (u.writeSram r.loc bytes k)).answerReq id 0 [], ?_, rfl,
        answered_bytes hmem hfound hsrc (State.writeSram_reqs ..) rfl⟩
      rw [h.writePacket (.inr hp), State.writePacket, h.sramReq_slice hp hr, hk]
      refine congrArg Host.Outcome.next ?_
      dsimp only
      rw [State.writePlace_slice hp, State.portServed_reqProducer]
      rfl
  case unreachable =>
    refine ⟨?_, ?_, ?_⟩
    · rw [h.readPacket hp, h.sramReq_unreachable hp hr]; rfl
    · exact congrArg Host.Outcome.next (h.sramReq_unreachable hp hr _)
    · rw [h.writePacket hp]
      exact congrArg Host.Outcome.next (h.sramReq_unreachable hp hr _)

end Sys2Proof.Machine
end

section
/-! PROOFS. The spread hash and its watch (R266 to R268). -/
namespace Sys2Proof.Machine
variable {s t u v w : State}

/-! ### The spread hash and its watch (R266 to R268) -/

/-- A mapped table reads as the mapped value, where the rest value is mapped to itself. -/
theorem Map.get_mapValsFrom {α : Type} [DecidableEq α] (d : α) (m : Map α) (g : Nat → α → α) (lo i : Nat) (hw : Map.wfFrom d lo m = true)
    (hg : g i d = d) : Map.get d (Map.mapVals d m g) i = g i (Map.get d m i) := by
  induction m generalizing lo with
  | nil => exact hg.symm
  | cons e m ih =>
    obtain ⟨k, v⟩ := e
    simp only [Map.wfFrom, Bool.and_eq_true, decide_eq_true_eq] at hw
    obtain ⟨-, hw⟩ := hw
    have ih := ih (k + 1) hw
    by_cases hk : k = i
    · subst hk
      have hrest : Map.get d m k = d := Map.get_below d m k (k + 1) (Nat.lt_succ_self k) hw
      rw [hrest, hg] at ih
      rw [Map.get, if_pos rfl]
      by_cases hd : g k v = d
      · rw [hd]
        rw [Map.mapVals, List.map_cons, List.filter_cons_of_neg (by simp [hd])]
        exact ih
      · rw [Map.mapVals, List.map_cons, List.filter_cons_of_pos (by simp [hd]), Map.get, if_pos rfl]
    · rw [show Map.get d ((k, v) :: m) i = Map.get d m i from if_neg hk]
      by_cases hd : g k v = d
      · rw [Map.mapVals, List.map_cons, List.filter_cons_of_neg (by simp [hd])]
        exact ih
      · rw [Map.mapVals, List.map_cons, List.filter_cons_of_pos (by simp [hd]), Map.get, if_neg hk]
        exact ih

theorem Map.get_mapVals {α : Type} [DecidableEq α] (d : α) (m : Map α) (g : Nat → α → α) (i : Nat) (hw : Map.wf d m = true)
    (hg : g i d = d) : Map.get d (Map.mapVals d m g) i = g i (Map.get d m i) := Map.get_mapValsFrom d m g 0 i hw hg

/-- The event of an imbalance: its time, its record, its count and its bit (R268). -/
theorem State.raiseImbalance_spec {k : Nat} (hl : s.steward.lost = false) :
    Map.get {} (s.raiseImbalance k).hashWatch k = { Map.get {} s.hashWatch k with raisedAt := s.now } ∧
    (s.raiseImbalance k).channels = s.channels ∧ (s.raiseImbalance k).reg 0x4103 4 = (Map.get {} s.hashWatch k).last ∧
    (s.raiseImbalance k).reg 0xB305 (k + 1) = min (s.reg 0xB305 (k + 1) + 1) 0xFFFFFFFF ∧
    (s.raiseImbalance k).reg 0xA200 3 = s.reg 0xA200 3 ||| 2 ^ 6 := by
  let w := Map.get {} s.hashWatch k
  let v : State := { s with hashWatch := Map.set {} s.hashWatch k { w with raisedAt := s.now } }
  have hreg : ∀ i j, v.reg i j = s.reg i j := fun _ _ => rfl
  have e : s.raiseImbalance k = ((v.setReg 0x4103 4 w.last).towerSat 0xB305 k 1).raise 0x06 k w.last := rfl
  rw [e, State.towerSat, State.sat32_eq]
  refine ⟨?_, ?_, ?_, ?_, ?_⟩
  · rw [State.raise_eq]
    exact Map.get_set_same ..
  · rw [State.raise_eq]; rfl
  · rw [State.reg_raise_of_ne _ _ _ _ (by omega) (by omega), State.reg_setReg_of_ne _ _ (by omega), State.reg_setReg_same]
  · rw [State.reg_raise_of_ne _ _ _ _ (by omega) (by omega), State.reg_setReg_same, State.reg_setReg_of_ne _ _ (by omega), hreg]
  · rw [State.raise_pending (show (State.setReg (v.setReg 0x4103 4 w.last) 0xB305 (k + 1) _).steward.lost = false from hl),
      State.reg_setReg_of_ne _ _ (by omega), State.reg_setReg_of_ne _ _ (by omega),
      hreg]

/-- A channel of a tower starts a new count. -/
def Channel.countsAnew (t ch : Nat) (c : Channel) : Channel := if coreTower ch = t then { c with spreadAtWindow := c.spreadLines } else c

/-- A tower's window ended: its watch, and its channels' new counts. -/
def State.watched (s : State) (t : Nat) (w : HashWatch) : State :=
  { s with
    hashWatch := Map.set {} s.hashWatch t w
    channels := Map.mapVals {} s.channels (Channel.countsAnew t) }

theorem State.watched_counts {t : Nat} {w : HashWatch} (hw : Map.wf {} s.channels = true) (hu : u.channels = (s.watched t w).channels)
    (ch : Nat) : (coreTower ch = t → (u.channel ch).spreadAtWindow = (s.channel ch).spreadLines) ∧
      (coreTower ch ≠ t → u.channel ch = s.channel ch) := by
  have h : u.channel ch = if coreTower ch = t then { s.channel ch with spreadAtWindow := (s.channel ch).spreadLines } else s.channel ch := by
    rw [State.channel, hu]
    refine Map.get_mapVals {} s.channels (Channel.countsAnew t) ch hw ?_
    unfold Channel.countsAnew
    split <;> rfl
  exact ⟨fun ht => by rw [h, if_pos ht], fun ht => by rw [h, if_neg ht]⟩

/-- Settles O33. -/
theorem spreadHashAndItsWatch : Obligations.SpreadHashAndItsWatch := by
  intro s sub t v ht w moved total top bad counts
  have hrun : ∀ n x, w.windowAt + msCycles 1 ≤ s.now → (decide (65536 ≤ total) && decide (s.reg 0x4103 1 * total < top.2 * 16 * 1280)) = x →
      n = (if x then w.consecutive + 1 else 0) →
      exec (.hashImbalWindow t) s = .next (
        let u := s.watched t { w with windowAt := s.now, consecutive := n,
                                      last := if x then (if total = 0 then 0 else min 0xFFFF (top.2 * 16 * 1280 / total)) * 2 ^ 16 + t * 2 ^ 11 + top.1
                                        else w.last }
        if x && n == s.reg 0x4103 2 then u.raiseImbalance t else u) := by
    rintro n x hw rfl rfl
    exact congrArg Host.Outcome.next (if_neg (by simp [ht, show (Map.get {} s.hashWatch t).windowAt + msCycles 1 ≤ s.now from hw]))
  refine ⟨fun hl h1 h9 => ?key, fun hw hb => ?calm, fun hw hb hn => ?counted, fun hw hb hn hl => ?raised, fun hw => ?early,
    fun h1 h2 h3 hl => ?again⟩
  case key =>
    refine ⟨s.setReg 0x4100 sub v.toNat, congrArg Host.Outcome.next ((State.written_of_steward hl).trans (if_pos (by simp [h1, h9]))),
      ?_, fun k hk hne => ?_, rfl⟩
    · rw [State.hashKey, State.reg_setReg_same, BitVec.ofNat_toNat, BitVec.setWidth_eq]
    · rw [State.hashKey, State.reg_setReg_of_ne _ _ (by omega)]; rfl
  case calm =>
    have hx : (decide (65536 ≤ total) && decide (s.reg 0x4103 1 * total < top.2 * 16 * 1280)) = false := by
      rw [← Bool.decide_and]; exact decide_eq_false hb
    refine ⟨_, hrun 0 false hw hx rfl, Map.get_set_same .., fun hwf => State.watched_counts hwf rfl, fun k hk => ?_, rfl⟩
    exact Map.get_set_of_ne _ _ _ hk
  case counted =>
    have hx : (decide (65536 ≤ total) && decide (s.reg 0x4103 1 * total < top.2 * 16 * 1280)) = true := by
      rw [← Bool.decide_and]; exact decide_eq_true hb
    have hpos : ¬ total = 0 := fun e => absurd hb.1 (by rw [e]; decide)
    have hne : ((w.consecutive + 1 == s.reg 0x4103 2) = false) := beq_eq_false_iff_ne.mpr hn
    have h := hrun (w.consecutive + 1) true hw hx rfl
    rw [hne] at h
    refine ⟨_, h, ?_, fun hwf => State.watched_counts hwf rfl, ?_⟩
    · exact congrArg HashWatch.consecutive (Map.get_set_same ..)
    · refine (congrArg HashWatch.last (Map.get_set_same ..)).trans ?_
      rw [if_pos rfl, if_neg hpos]
  case raised =>
    have hpos : ¬ total = 0 := fun e => absurd hb.1 (by rw [e]; decide)
    have hx : (decide (65536 ≤ total) && decide (s.reg 0x4103 1 * total < top.2 * 16 * 1280)) = true := by
      rw [← Bool.decide_and]; exact decide_eq_true hb
    have h := hrun (w.consecutive + 1) true hw hx rfl
    rw [hn, beq_self_eq_true, ← hn] at h
    have hget := fun w' : HashWatch => Map.get_set_same {} s.hashWatch t w'
    obtain ⟨h1, h2, h3, h4, h5⟩ := State.raiseImbalance_spec (k := t) (s := s.watched t _) hl
    refine ⟨_, h, ?_, fun hwf => State.watched_counts hwf h2, ?_, ?_, h4, h5⟩
    · exact (congrArg HashWatch.raisedAt h1).trans rfl
    · exact (congrArg HashWatch.consecutive h1).trans (congrArg HashWatch.consecutive (hget _))
    · refine h3.trans ((congrArg HashWatch.last (hget _)).trans ?_)
      rw [if_pos rfl, if_neg hpos]
  case early => exact congrArg Host.Outcome.next (if_pos (by simp [show s.now < (Map.get {} s.hashWatch t).windowAt + msCycles 1 from hw]))
  case again =>
    obtain ⟨e1, -, e3, e4, e5⟩ := State.raiseImbalance_spec (k := t) hl
    refine ⟨s.raiseImbalance t, congrArg Host.Outcome.next (if_pos ?_), congrArg HashWatch.raisedAt e1, e3, e4, e5⟩
    simp only [Bool.and_eq_true, decide_eq_true_eq]
    exact ⟨⟨⟨ht, h1⟩, h2⟩, h3⟩

end Sys2Proof.Machine
end

section
/-! PROOFS. Hen sequences and transfers (R295, R296, R299, R303 to R305, R320). -/
namespace Sys2Proof.Machine
variable {s t u v w : State}

/-! ### Hen sequences (R295, R296, R320) -/

/-- A running sum is a sum. -/
theorem foldl_add_sum {α : Type} (f : α → Nat) (l : List α) (n : Nat) : l.foldl (fun m x => m + f x) n = n + (l.map f).sum := by
  induction l generalizing n with
  | nil => simp
  | cons x l ih => simp [ih, Nat.add_assoc]

/-- The reserved bits of a hen sequence's descriptor are zero. -/
def DmaDesc.henZero (d : DmaDesc) : Prop :=
  word0Status (d.words.getD 0 0) = 0 ∧ bitsOf (d.words.getD 1 0).toNat 54 32 = 0 ∧ (d.words.drop 2).all (· == 0) = true

theorem DmaDesc.henZero_iff (d : DmaDesc) : d.henZero ↔
    (word0Status (d.words.getD 0 0) ≠ 0 || bitsOf (d.words.getD 1 0).toNat 54 32 ≠ 0 || (d.words.drop 2).any (· ≠ 0)) = false := by
  simp [DmaDesc.henZero, and_assoc]

theorem State.acceptHens_of_reserved {core : Nat} {d : DmaDesc} (h : ¬ d.henZero) : s.acceptHens core d = s.endDma core d.id 0x02 := by
  rw [DmaDesc.henZero_iff, Bool.not_eq_false] at h
  exact if_pos h

theorem State.acceptHens_of_none {core : Nat} {d : DmaDesc} (h : d.henZero) (hn : bitsOf (d.words.getD 1 0).toNat 63 55 = 0) :
    s.acceptHens core d = s.endDma core d.id 0 := by
  rw [DmaDesc.henZero_iff] at h
  exact (if_neg (ne_true_of_eq_false h)).trans (if_pos hn)

/-- The commands of a hen sequence's list. -/
def henCommands (n : Nat) (bytes : List Byte) : List (List Word) :=
  (List.range n).map fun i => (List.range 4).map fun j => BitVec.ofNat 64 (bytesToNat (cut bytes (32 * i + 8 * j) 8))

/-- Commands as a channel takes them, with the work of each hen of their mask. -/
def madeCommands (cmds : List (List Word)) : List HenCmd :=
  cmds.map fun ws => { words := ws, works := if (henArgs ws).empty then [] else (henArgs ws).hens.map fun h => { hen := h } }

/-- No command of a list fails its checks. -/
theorem henStatus_of_ok {core at_ : Nat} {cmds : List (List Word)} (h : ∀ ws ∈ cmds, u.henCmdStatus core at_ (henArgs ws) = 0) :
    ((cmds.map fun ws => u.henCmdStatus core at_ (henArgs ws)).find? (· ≠ 0)).getD 0 = 0 := by
  have hnone : (cmds.map fun ws => u.henCmdStatus core at_ (henArgs ws)).find? (· ≠ 0) = none := by
    refine List.find?_eq_none.mpr fun st hst => ?_
    obtain ⟨ws, hws, rfl⟩ := List.mem_map.mp hst
    simp [h ws hws]
  rw [hnone]; rfl

/-- A sequence whose list is read, whose commands pass their checks, and for which the channel has room, is the channel's. -/
theorem State.acceptHens_of_ok {core : Nat} {d : DmaDesc} {r : ReadResult} (hz : d.henZero)
    (hn : 0 < bitsOf (d.words.getD 1 0).toNat 63 55) (hn' : bitsOf (d.words.getD 1 0).toNat 63 55 ≤ 256)
    (hal : bitsOf (d.words.getD 1 0).toNat 17 0 % 32 = 0)
    (hin : bitsOf (d.words.getD 1 0).toNat 17 0 + 32 * bitsOf (d.words.getD 1 0).toNat 63 55 ≤ 0x40000)
    (hex : coreExists (bitsOf (d.words.getD 1 0).toNat 31 18) = true) (hiss : s.issuer (bitsOf (d.words.getD 1 0).toNat 31 18) = some core)
    (hread : s.readRange (storeAddr core (bitsOf (d.words.getD 1 0).toNat 17 0)) (32 * bitsOf (d.words.getD 1 0).toNat 63 55)
      (.dma core d.id) = (r, u)) (hw : r.waiting = false) (hst : r.status = 0)
    (hok : ∀ ws ∈ henCommands (bitsOf (d.words.getD 1 0).toNat 63 55) r.bytes,
      u.henCmdStatus core (bitsOf (d.words.getD 1 0).toNat 31 18) (henArgs ws) = 0)
    (hup : u.fieldUp (coreField (bitsOf (d.words.getD 1 0).toNat 31 18)) = true)
    (hroom : ((madeCommands (henCommands (bitsOf (d.words.getD 1 0).toNat 63 55) r.bytes)).map HenCmd.rangeCount).sum +
      ((u.channel (bitsOf (d.words.getD 1 0).toNat 31 18)).seqs.map fun q => (q.cmds.map HenCmd.rangeCount).sum).sum ≤ 512) :
    s.acceptHens core d =
      (let n := bitsOf (d.words.getD 1 0).toNat 63 55
       let ch := bitsOf (d.words.getD 1 0).toNat 31 18
       let made := madeCommands (henCommands n r.bytes)
       let c := u.channel ch
       ((u.setChannel ch { c with
          seqs := c.seqs ++ [{ core := core, desc := d.id, cmds := made }]
          ranges := c.ranges ++ (List.zip (List.range n) made).flatMap fun (k, cmd) => cmd.ranges d.id k }).dropFenced ch).settleSeq ch d.id) := by
  rw [DmaDesc.henZero_iff] at hz
  generalize hnn : bitsOf (d.words.getD 1 0).toNat 63 55 = n at *
  generalize hch : bitsOf (d.words.getD 1 0).toNat 31 18 = ch at *
  generalize hll : bitsOf (d.words.getD 1 0).toNat 17 0 = list at *
  rw [State.acceptHens]
  dsimp only
  rw [hnn, hch, hll, if_neg (ne_true_of_eq_false hz), if_neg (Nat.pos_iff_ne_zero.mp hn), if_neg (by rw [hex]; decide),
    if_neg (by rw [hiss]; exact Bool.false_ne_true), if_neg (by rw [hiss]; simp [hal]; omega), hread]
  dsimp only
  rw [if_neg (ne_true_of_eq_false hw), if_neg (not_not.mpr hst)]
  refine (if_neg (not_not.mpr (henStatus_of_ok hok))).trans ((if_neg (by rw [hup]; decide)).trans ((if_neg ?_).trans ?_))
  · have hused : (u.channel ch).seqs.foldl (fun n q => q.cmds.foldl (fun m x => m + x.rangeCount) n) 0 =
        ((u.channel ch).seqs.map fun q => (q.cmds.map HenCmd.rangeCount).sum).sum := by
      simp only [foldl_add_sum HenCmd.rangeCount]
      rw [foldl_add_sum (fun q : HenSeq => (q.cmds.map HenCmd.rangeCount).sum), Nat.zero_add]
    rw [hused, foldl_add_sum HenCmd.rangeCount]
    exact Nat.not_lt.mpr ((Nat.add_comm ..).trans_le hroom)
  · simp only [List.length_map, List.length_range]
    rfl

theorem henSeq_eq {core : Nat} {d : DmaDesc} (hr : s.running = true)
    (hd : ((s.core core).dma.find? fun d => (d.words.headD 0).toNat / 2 ^ 40 % 256 == 3 && d.status.isNone &&
      !(s.channels.any fun e => e.2.seqs.any fun q => q.desc == d.id)) = some d) :
    exec (.henSeq core) s = .next (s.unit core (.dma core d.id) fun u => u.acceptHens core d) := by
  refine congrArg Host.Outcome.next ?_
  dsimp only
  rw [hd]
  exact if_pos hr

/-- Settles O34. -/
theorem henSequencesAndTransfers : Obligations.HenSequencesAndTransfers := by
  intro s core ch
  refine ⟨fun d hr hd => ?seq, fun t q cmd r v he => ?load, fun t q cmd st v he => ?delivery⟩
  case seq =>
    intro w1 n at_ list who t zero
    refine ⟨fun hs => (henSeq_eq hr hd).trans (congrArg _ (State.unit_of_settled hs)), fun _ => henSeq_eq hr hd,
      State.acceptHens_of_reserved, State.acceptHens_of_none, ?_⟩
    intro r u hz hn hn' hal hin hex hiss hread hw hst cmds made c hok hup hroom
    exact State.acceptHens_of_ok hz hn hn' hal hin hex hiss hread hw hst hok hup hroom
  case load =>
    intro a who hop hread u w
    have hexec : exec (.vload ch) s = .next (s.unit q.core (.hen ch) fun s => s.endVload ch t q (henArgs cmd.words)) := by
      refine congrArg Host.Outcome.next ?_
      rw [he]
      exact if_pos hop
    refine ⟨fun hw ha => hexec.trans (congrArg _ (State.asking_eq_of_unit ?_ ha)),
      fun hw ha => hexec.trans (congrArg _ (State.unit_of_settled_eq ?_ ha))⟩
    · rw [State.endVload, hread]
      exact if_pos hw
    · rw [State.endVload, hread]
      refine (if_neg (ne_true_of_eq_false hw)).trans ?_
      by_cases hst : r.status = 0
      · exact (if_neg (not_not.mpr hst)).trans (if_pos hst).symm
      · exact (if_pos hst).trans (if_neg hst).symm
  case delivery =>
    intro a who u rows u' hop hwr w
    have hexec : exec (.delivery ch) s = .next (s.unit q.core (.hen ch) fun s =>
        let c := s.channel ch
        let s := s.setChannel ch { c with transfer := none, otherRun := c.otherRun + (t.lines - t.counted) }
        let (rows, ev) := s.deliveryRows ch a cmd t.hen
        let s := s.countEvents ch ev
        let (st, s) := s.writeDelivery ch q.core a.space (s.descRerun q.core t.desc) rows
        let s := if st ≠ 0 then s.failCmd ch t.desc t.cmd st else s
        s.finishHen ch t.desc t.cmd t.hen) := by
      refine congrArg Host.Outcome.next ?_
      rw [he]
      exact if_neg hop
    have hbody : (let c := s.channel ch
        let s := s.setChannel ch { c with transfer := none, otherRun := c.otherRun + (t.lines - t.counted) }
        let (rows, ev) := s.deliveryRows ch a cmd t.hen
        let s := s.countEvents ch ev
        let (st, s) := s.writeDelivery ch q.core a.space (s.descRerun q.core t.desc) rows
        let s := if st ≠ 0 then s.failCmd ch t.desc t.cmd st else s
        s.finishHen ch t.desc t.cmd t.hen) = w :=
      congrArg (fun x : Status × State => (if x.1 ≠ 0 then x.2.failCmd ch t.desc t.cmd x.1 else x.2).finishHen ch t.desc t.cmd t.hen) hwr
    exact ⟨fun ha => hexec.trans (congrArg _ (State.asking_eq_of_unit hbody ha)),
      fun ha => hexec.trans (congrArg _ (State.unit_of_settled_eq hbody ha))⟩

end Sys2Proof.Machine
end

section
/-! PROOFS. The operations of hens (R218, R299, R300, R302, R307, R324). -/
namespace Sys2Proof.Machine
variable {s t u v : State} {ch k : Nat} {q : HenSeq} {cmd : HenCmd} {w : HenWork}

/-! ### The operations of hens (R299, R300, R302, R307) -/

/-- The first hen that has ended its bank accesses works on a command of the operation. -/
theorem State.nextCompute_op {op : HenOp} (h : s.nextCompute ch op = some (q, k, cmd, w)) : (henArgs cmd.words).op = some op := by
  have hp := List.find?_some h
  simp only [Bool.and_eq_true, beq_iff_eq, and_assoc] at hp
  exact hp.1

theorem State.henOperation_eq {op : HenOp} (hr : s.running = true) (h : s.nextCompute ch op = some (q, k, cmd, w)) :
    s.henOperation ch op = s.computeWork ch q k cmd w := by
  rw [State.henOperation, if_neg (by rw [hr]; decide), h]

/-- The state in which a hen's sums are in its PB. -/
def State.summedHen (s : State) (ch k : Nat) (q : HenSeq) (cmd : HenCmd) (w : HenWork) : State :=
  let a := henArgs cmd.words
  let buf := s.henBuf ch w.hen
  let sums := a.sums w.hen buf.vbBytes w.data buf.pbEntry
  ((s.markComputed ch q.desc k w.hen).setHenBuf ch w.hen (buf.setPb sums.1)).countEvents ch sums.2

theorem State.computeWork_of_sums {op : HenOp} (hop : (henArgs cmd.words).op = some op) (hs : op = .dot ∨ op = .kvscore ∨ op = .kvmix)
    (hw : w.status = 0) : s.computeWork ch q k cmd w =
      if (henArgs cmd.words).chained then ((s.summedHen ch k q cmd w).beginChain ch q.desc k cmd w.hen).endFailedChain ch q.desc k
      else if (henArgs cmd.words).op = some .kvscore && cmd.status = 0 then s.summedHen ch k q cmd w
      else (s.summedHen ch k q cmd w).finishHen ch q.desc k (some w.hen) := by
  rw [State.computeWork]
  dsimp only
  rw [hop]
  rcases hs with rfl | rfl | rfl
  · exact if_neg (not_not.mpr hw)
  · exact if_neg (not_not.mpr hw)
  · exact if_neg (not_not.mpr hw)

theorem State.computeWork_of_failed {op : HenOp} (hop : (henArgs cmd.words).op = some op) (hs : op = .dot ∨ op = .kvscore ∨ op = .kvmix)
    (hw : w.status ≠ 0) : s.computeWork ch q k cmd w =
      let u := (s.markComputed ch q.desc k w.hen).freeSums ch w.hen ((henArgs cmd.words).width * (henArgs cmd.words).vecs)
      if (henArgs cmd.words).chained then u.endFailedChain ch q.desc k else u.finishHen ch q.desc k (some w.hen) := by
  rw [State.computeWork]
  dsimp only
  rw [hop]
  rcases hs with rfl | rfl | rfl
  · exact if_pos hw
  · exact if_pos hw
  · exact if_pos hw

theorem State.computeWork_of_rows {op : HenOp} (hop : (henArgs cmd.words).op = some op) (hs : op = .rowscale ∨ op = .rowaxpy) :
    s.computeWork ch q k cmd w =
      ((s.markComputed ch q.desc k w.hen).writeRows ch w.hen (henArgs cmd.words) w).finishHen ch q.desc k (some w.hen) := by
  rw [State.computeWork]
  dsimp only
  rw [hop]
  rcases hs with rfl | rfl <;> rfl

theorem State.computeWork_of_gather (hop : (henArgs cmd.words).op = some .rowgather) :
    s.computeWork ch q k cmd w =
      let u := s.markComputed ch q.desc k w.hen
      let u := if ((henArgs cmd.words).gatherRows ch (s.henBuf ch w.hen).vbBytes).2 = true ∧ w.status = 0 then u.failCmd ch q.desc k 0x02 else u
      if w.rows = [] then u.finishHen ch q.desc k (some w.hen) else u := by
  rw [State.computeWork]
  dsimp only
  rw [hop]
  dsimp only
  simp only [Bool.and_eq_true, decide_eq_true_eq, List.isEmpty_iff, and_comm]

/-- Settles O35. -/
theorem henOperations : Obligations.HenOperations := by
  intro s ch k q cmd w hr a buf u sums summed sum rows hops
  have hsum : ∀ c op, exec c s = .next (s.henOperation ch op) → op = .dot ∨ op = .kvmix → sum c op := by
    intro c op he hs hn
    have hop := State.nextCompute_op hn
    have hs' : op = .dot ∨ op = .kvscore ∨ op = .kvmix := hs.elim .inl fun h => .inr (.inr h)
    have hk : ((henArgs cmd.words).op = some .kvscore && decide (cmd.status = 0)) = false := by
      rw [hop]; rcases hs with rfl | rfl <;> rfl
    have he' := he.trans (congrArg _ (State.henOperation_eq hr hn))
    refine ⟨fun hw => ?_, fun hw => ?_⟩
    · refine he'.trans (congrArg _ ((State.computeWork_of_sums hop hs' hw).trans ?_))
      rw [hk]
      rfl
    · exact he'.trans (congrArg _ (State.computeWork_of_failed hop hs' hw))
  have hrows : ∀ c op, exec c s = .next (s.henOperation ch op) → op = .rowscale ∨ op = .rowaxpy → rows c op := fun c op he hs hn =>
    he.trans (congrArg _ ((State.henOperation_eq hr hn).trans (State.computeWork_of_rows (State.nextCompute_op hn) hs)))
  refine ⟨hsum _ _ rfl (.inl rfl), hsum _ _ rfl (.inr rfl), fun hn hw hc hst => ?score, fun hn hw hc => ?scoreFailed,
    hrows _ _ rfl (.inl rfl), hrows _ _ rfl (.inr rfl), fun hn => ?gather, fun h hs hf hh => ?chain, fun hf => ?hop⟩
  case score =>
    have hop := State.nextCompute_op hn
    refine congrArg Host.Outcome.next ((State.henOperation_eq hr hn).trans ((State.computeWork_of_sums hop (.inr (.inl rfl)) hw).trans ?_))
    exact (if_neg (ne_true_of_eq_false hc)).trans (if_pos (by rw [hop, hst]; rfl))
  case scoreFailed =>
    have hop := State.nextCompute_op hn
    refine congrArg Host.Outcome.next ((State.henOperation_eq hr hn).trans ((State.computeWork_of_failed hop (.inr (.inl rfl)) hw).trans ?_))
    exact if_neg (ne_true_of_eq_false hc)
  case gather =>
    exact congrArg Host.Outcome.next ((State.henOperation_eq hr hn).trans (State.computeWork_of_gather (State.nextCompute_op hn)))
  case chain =>
    refine congrArg Host.Outcome.next ((if_neg (by rw [hr]; decide)).trans ?_)
    rw [hf]
    dsimp only
    rw [hh]
  case hop =>
    refine congrArg Host.Outcome.next ?_
    dsimp only
    split
    next hfind =>
      cases hfind.symm.trans hf
      rfl
    next hfind => cases hfind.symm.trans hf

end Sys2Proof.Machine
end

section
/-! PROOFS. Refresh, duty and halts of hens (R310 to R313, R317 to R319, R328). -/
namespace Sys2Proof.Machine
variable {s t u v w : State}

/-! ### Refresh, duty and halts of hens (R310 to R313, R317 to R319, R328) -/

/-- What updates of distinct entries, one after another, leave. -/
theorem get_foldl_update {σ α : Type} (get : σ → Nat → α) (upd : σ → Nat → σ) (g : Nat → α → α)
    (hsame : ∀ s i, get (upd s i) i = g i (get s i)) (hne : ∀ s i j, j ≠ i → get (upd s i) j = get s j)
    {l : List Nat} (hl : l.Nodup) (s : σ) (k : Nat) :
    get (l.foldl upd s) k = if k ∈ l then g k (get s k) else get s k := by
  induction l generalizing s with
  | nil => simp
  | cons i l ih =>
    obtain ⟨hi, hl⟩ := List.nodup_cons.mp hl
    rw [List.foldl_cons, ih hl]
    by_cases hk : k = i
    · subst hk
      rw [if_neg hi, if_pos (List.mem_cons_self ..), hsame]
    · rw [hne _ _ _ hk]
      simp [hk]

/-- The channels of a field have distinct numbers. -/
theorem fieldChannels_nodup (f : Nat) : (fieldChannels f).Nodup := by
  unfold fieldChannels fieldCores
  refine List.nodup_flatMap.mpr ⟨fun i _ => ?_, ?_⟩
  · refine List.Nodup.map (fun x y h => ?_) List.nodup_range
    omega
  · refine List.Pairwise.imp_of_mem (R := fun i j => i < j) (fun {i j} hi hj hij => ?_) List.pairwise_lt_range
    intro n hn hm
    obtain ⟨x, hx, rfl⟩ := List.mem_map.mp hn
    obtain ⟨y, hy, h⟩ := List.mem_map.mp hm
    simp only [List.mem_range] at hi hj hx hy
    omega

/-- A bank that owes one more refresh quantum, four at most. -/
def Channel.owesMore (c : Channel) (b : Nat) : Channel := c.setBank b { c.bank b with owed := min 4 ((c.bank b).owed + 1) }

theorem Channel.bank_setBank_same (c : Channel) (b : Nat) (x : BankTiming) : (c.setBank b x).bank b = x := Map.get_set_same ..

theorem Channel.bank_setBank_of_ne (c : Channel) {b d : Nat} (x : BankTiming) (h : d ≠ b) : (c.setBank b x).bank d = c.bank d :=
  Map.get_set_of_ne _ _ _ h

/-- A layer's four banks owe one more. -/
def Channel.layerOwes (layer : Nat) (c : Channel) : Channel := (List.range 4).foldl (fun (c : Channel) k => c.owesMore (4 * layer + k)) c

theorem Channel.layerOwes_owed (layer : Nat) (c : Channel) (b : Nat) :
    ((c.layerOwes layer).bank b).owed = if b / 4 = layer then min 4 ((c.bank b).owed + 1) else (c.bank b).owed := by
  have h := get_foldl_update (fun (c : Channel) b => (c.bank b).owed) Channel.owesMore (fun _ n => min 4 (n + 1))
    (fun c b => by rw [Channel.owesMore, Channel.bank_setBank_same]) (fun c b d hd => by rw [Channel.owesMore, Channel.bank_setBank_of_ne _ _ hd])
    (l := (List.range 4).map (4 * layer + ·)) (List.Nodup.map (fun x y h => by simpa using h) List.nodup_range) c b
  rw [List.foldl_map] at h
  rw [Channel.layerOwes, h]
  refine if_congr ?_ rfl rfl
  simp only [List.mem_map, List.mem_range]
  exact ⟨fun ⟨x, hx, e⟩ => by omega, fun e => ⟨b % 4, Nat.mod_lt _ (by decide), by omega⟩⟩

/-- The channels of a field owe a quantum of a layer. -/
def State.fieldOwes (s : State) (f layer : Nat) : State :=
  (fieldChannels f).foldl (fun s ch => s.setChannel ch ((s.channel ch).layerOwes layer)) s

theorem State.fieldOwes_channel (s : State) (f layer k : Nat) :
    (s.fieldOwes f layer).channel k = if k ∈ fieldChannels f then (s.channel k).layerOwes layer else s.channel k :=
  get_foldl_update State.channel (fun s ch => s.setChannel ch ((s.channel ch).layerOwes layer)) (fun _ c => c.layerOwes layer)
    (fun _ _ => State.channel_setChannel_same ..) (fun _ _ _ h => State.channel_setChannel_of_ne _ _ h) (fieldChannels_nodup f) s k

theorem State.fieldOwes_rest (s : State) (f layer : Nat) : ∃ C, s.fieldOwes f layer = { s with channels := C } := by
  unfold State.fieldOwes
  induction fieldChannels f generalizing s with
  | nil => exact ⟨_, rfl⟩
  | cons c l ih =>
    obtain ⟨C, e⟩ := ih (s.setChannel c ((s.channel c).layerOwes layer))
    rw [List.foldl_cons, e]
    exact ⟨_, rfl⟩

/-- A bank marked precharged when the segment of its pair has been closed. -/
def Channel.marked (c : Channel) (b now : Nat) : Channel :=
  c.setBank b { c.bank b with open_ := none, busyUntil := max (c.bank b).busyUntil now, prechargedAt := now - tRP }

theorem Channel.bank_marked (c : Channel) (b now d : Nat) :
    (c.marked b now).bank d = if d = b then { c.bank b with
      open_ := none, busyUntil := max (c.bank b).busyUntil now, prechargedAt := now - tRP } else c.bank d := by
  by_cases h : d = b
  · subst h; rw [if_pos rfl, Channel.marked, Channel.bank_setBank_same]
  · rw [if_neg h, Channel.marked, Channel.bank_setBank_of_ne _ _ h]

/-- Both banks of a pair are precharged once both are marked. -/
theorem Channel.bank_marked_pair (c : Channel) {p b now : Nat} (h : b / 2 = p) :
    (((c.marked (2 * p) now).marked (2 * p + 1) now).bank b).open_ = none ∧
      now ≤ (((c.marked (2 * p) now).marked (2 * p + 1) now).bank b).busyUntil := by
  rw [Channel.bank_marked]
  split
  · exact ⟨rfl, Nat.le_max_right ..⟩
  · rw [Channel.bank_marked, if_pos (by omega)]
    exact ⟨rfl, Nat.le_max_right ..⟩

/-- The channel whose segment has been closed, but for its counts and its window. -/
def State.closedChannel (s : State) (ch : Nat) (g : Segment) (vs : List Visit) : Channel :=
  ((vs.foldl (fun c v => c.setBank (v.bank g.hen) ((c.bank (v.bank g.hen)).noteActivate v.row s.run)) (s.channel ch)).marked
    (2 * g.hen) s.run).marked (2 * g.hen + 1) s.run

theorem State.closedChannel_segments (s : State) (ch : Nat) (g : Segment) (vs : List Visit) :
    (s.closedChannel ch g vs).segments = (s.channel ch).segments := by
  have h : ∀ c : Channel, (vs.foldl (fun c v => c.setBank (v.bank g.hen) ((c.bank (v.bank g.hen)).noteActivate v.row s.run)) c).segments =
      c.segments := fun c => by
    induction vs generalizing c with
    | nil => rfl
    | cons v vs ih => rw [List.foldl_cons, ih]; rfl
  exact h _

theorem State.closeSegment_channel (s : State) (ch : Nat) (g : Segment) (a : HenArgs) (vs : List Visit) :
    ∃ A W, (s.closeSegment ch g a vs).channel ch = { s.closedChannel ch g vs with
      segments := (s.closedChannel ch g vs).segments.filter (· != g), activates := A,
      boundary := Map.set 0 (s.closedChannel ch g vs).boundary g.hen (s.reg 0x4200 4 + 1), window := W } := by
  unfold State.closeSegment
  extract_lets c c1 mark c2 longest c3 tw lines fl s1 s2 s3
  have hs3 : s3.channels = (s.setChannel ch c3).channels := rfl
  have h : s3.channel ch = c3 := by
    unfold State.channel
    rw [hs3]
    exact Map.get_set_same _ _ _ _
  have hc2 : c2 = s.closedChannel ch g vs := rfl
  refine ⟨c3.activates, c3.window, ?_⟩
  rw [← hc2]
  change _ = c3
  rw [← h]
  split
  · rfl
  · split <;> rfl

/-- Settles O36. -/
theorem henRefreshDutyAndHalts : Obligations.HenRefreshDutyAndHalts := by
  intro s f layer ch v fl p c
  refine ⟨fun hf hl hr hd => ?owed, fun hf hd => ?duty, fun hl hv => ?halt, fun hv => ?noHalt, fun g hg => ?segment, fun g a vs => ?close,
    fun from_ q k cmd w hh => ?throttled⟩
  case owed =>
    obtain ⟨C, hC⟩ := State.fieldOwes_rest (s.setField f { fl with
      refresh := Map.set (0, 0) fl.refresh layer (p.1 + bandInterval p.2, Map.get 0 fl.bands layer) }) f layer
    have hch := State.fieldOwes_channel (s.setField f { fl with
      refresh := Map.set (0, 0) fl.refresh layer (p.1 + bandInterval p.2, Map.get 0 fl.bands layer) }) f layer
    have hexec : exec (.refreshOwed f layer) s = .next ((s.setField f { fl with
        refresh := Map.set (0, 0) fl.refresh layer (p.1 + bandInterval p.2, Map.get 0 fl.bands layer) }).fieldOwes f layer) :=
      congrArg Host.Outcome.next (if_neg (by
        simp only [hf.not_ge, hl.not_ge, hr, decide_false, Bool.not_true, Bool.or_false, Bool.false_or, decide_eq_true_eq]
        exact Nat.not_lt.mpr hd))
    refine ⟨_, hexec, ?_, fun k hk b => ?_, fun k hk => ?_, fun g hg => ?_, ?_⟩
    · rw [hC]
      refine (congrArg (fun x : Field => Map.get (0, 0) x.refresh layer) (State.field_setField_same ..)).trans ?_
      exact Map.get_set_same ..
    · rw [hch, if_pos hk, Channel.layerOwes_owed]
      rfl
    · rw [hch, if_neg hk]
      rfl
    · rw [hC]
      exact State.field_setField_of_ne _ _ hg
    · rw [hC]
      rfl
  case duty =>
    let running := (s.channels.filter fun e => coreField e.1 == f).flatMap fun e => e.2.segments
    let active (l : Nat) : Nat := Map.get 0 fl.duty l + ((running.filter fun g => g.hen / 2 == l).map fun g => s.now - max g.start fl.dutyAt).sum
    let hot := (List.range 16).filter fun l => decide (s.reg 0x4200 3 < 100) && decide (s.reg 0x4200 3 * usCycles 100 * 320 < active l * 100)
    let last := (List.range 16).foldl (fun m l => Map.set 0 m l (active l)) []
    have hsum : ∀ l : List Nat, l.foldl (· + ·) 0 = l.sum := fun l => by simpa using foldl_add_sum id l 0
    have hexec : exec (.layerDutyWindow f) s = .next ((s.setField f
        { fl with dutyAt := s.now, duty := [], lastDuty := last, restricted := hot }).towerSat 0xB408 (f / 8) hot.length) := by
      refine congrArg Host.Outcome.next ((if_neg ?_).trans ?_)
      · simp only [hf.not_ge, decide_false, Bool.false_or, decide_eq_true_eq]
        exact Nat.not_lt.mpr hd
      · simp only [hsum]
        rfl
    have hfield : ((s.setField f { fl with dutyAt := s.now, duty := [], lastDuty := last, restricted := hot }).towerSat 0xB408 (f / 8)
        hot.length).field f = { fl with dutyAt := s.now, duty := [], lastDuty := last, restricted := hot } := State.field_setField_same ..
    refine ⟨_, hexec, ?_, fun l hl => ?_, fun g hg => State.field_setField_of_ne _ _ hg, rfl⟩
    · rw [hfield]
    · rw [hfield]
      refine ⟨?_, ?_⟩
      · have h := get_foldl_update (fun (m : Map Nat) l => Map.get 0 m l) (fun m l => Map.set 0 m l (active l)) (fun l _ => active l)
          (fun _ _ => Map.get_set_same ..) (fun _ _ _ h => Map.get_set_of_ne _ _ _ h) (l := List.range 16) List.nodup_range [] l
        exact h.trans (if_pos (List.mem_range.mpr hl))
      · simp only [hot, List.mem_filter, List.mem_range, hl, true_and, Bool.and_eq_true, decide_eq_true_eq]
        exact Iff.rfl
  case halt => exact congrArg Host.Outcome.next ((State.written_of_steward hl).trans (if_neg (Nat.not_lt.mpr hv)))
  case noHalt =>
    refine congrArg Host.Outcome.next ?_
    rw [if_pos hv, State.written, ite_self]
  case segment =>
    refine congrArg Host.Outcome.next ?_
    rw [hg]
  case close =>
    obtain ⟨A, W, e⟩ := s.closeSegment_channel ch g a vs
    intro u
    have hu : u = _ := e
    rw [hu]
    refine ⟨?_, ?_, fun b hb => ?_⟩
    · exact congrArg (List.filter (· != g)) (s.closedChannel_segments ch g vs)
    · dsimp only
      rw [Map.get_set_same]
    · exact Channel.bank_marked_pair _ hb
  case throttled =>
    intro waits hf
    refine congrArg Host.Outcome.next ?_
    dsimp only
    rw [hh]
    dsimp only
    split
    next hfind =>
      cases hfind.symm.trans hf
      rfl
    next hfind => cases hfind.symm.trans hf

end Sys2Proof.Machine
end

section
/-! PROOFS. Appends and answers (R338 to R343, R350, R354, R358, R360). -/
namespace Sys2Proof.Machine
variable {s t u v w s1 s2 s3 s4 : State}

/-! ### Appends (R338 to R343, R358, R360) -/

theorem State.settleAnswers_of_none (h : s.heldAnswers = []) : s.settleAnswers = s := by
  rw [State.settleAnswers, h]
  show ({ s with heldAnswers := [] } : State) = s
  rw [← h]

/-- The accepted append of a core that its home unit goes on with. -/
def State.nextAppend (s : State) (core : Nat) : Option (Nat × AppendOp) :=
  s.channels.findSome? fun e =>
    (e.2.appends.find? fun o => o.core == core && !o.paused && o.written.isNone && !e.2.pausedRegions.any (·.1 == o.region)).map
      fun o => (e.1, o)

theorem State.nextAppend_written {core ch : Nat} {op : AppendOp} (h : s.nextAppend core = some (ch, op)) : op.written = none := by
  obtain ⟨e, -, he⟩ := List.exists_of_findSome?_eq_some h
  obtain ⟨o, ho, heq⟩ := Option.map_eq_some_iff.mp he
  obtain ⟨-, rfl⟩ := Prod.mk.inj heq
  have hp := List.find?_some (p := fun o : AppendOp =>
    o.core == core && !o.paused && o.written.isNone && !e.2.pausedRegions.any (·.1 == o.region)) ho
  simp only [Bool.and_eq_true, Option.isNone_iff_eq_none] at hp
  exact hp.1.2

theorem State.nextAppend_none {core : Nat} (h : ∀ e ∈ s.channels, ∀ o ∈ e.2.appends, o.core = core → o.paused = true ∨ o.written.isSome = true ∨
    (e.2.pausedRegions.any (·.1 == o.region)) = true) : s.nextAppend core = none := by
  refine List.findSome?_eq_none_iff.mpr fun e he => Option.map_eq_none_iff.mpr (List.find?_eq_none.mpr fun o ho hp => ?_)
  simp only [Bool.and_eq_true, beq_iff_eq, Bool.not_eq_true', Option.isNone_iff_eq_none] at hp
  obtain ⟨⟨⟨hc, hpa⟩, hwr⟩, hre⟩ := hp
  rcases h e he o ho hc with h | h | h
  · rw [hpa] at h; cases h
  · rw [hwr] at h; cases h
  · rw [hre] at h; cases h

theorem kvAppend_of_next {core ch : Nat} {op : AppendOp} {remote : Option (Status × List Byte)} (hr : s.running = true)
    (hh : s.heldAnswers = []) (h : s.nextAppend core = some (ch, op)) :
    exec (.kvAppend core remote) s = .next (s.performAppend ch op remote) := by
  refine congrArg Host.Outcome.next ((if_neg (by rw [hr]; decide)).trans ?_)
  rw [State.settleAnswers_of_none hh]
  dsimp only
  rw [show List.findSome? _ s.channels = some (ch, op) from h]

/-- Rows are written only of an append whose source is read. -/
theorem State.writeAppendRows_of_unread {ch desc n : Nat} {op : AppendOp} (h : (s.channel ch).appends.find? (·.desc == desc) = some op)
    (hs : op.source = none) : State.writeAppendRows ch desc (n + 1) s = s := by
  rw [State.writeAppendRows, h]
  exact if_pos (by rw [hs]; simp)

/-- After the last row the append has its status. -/
theorem State.writeAppendRows_of_done {ch desc n : Nat} {op : AppendOp} {st : Status} {bytes : List Byte}
    (h : (s.channel ch).appends.find? (·.desc == desc) = some op) (hw : op.written = none) (hs : op.source = some (st, bytes))
    (hn : op.rows.length ≤ op.next) : State.writeAppendRows ch desc (n + 1) s =
      s.updAppend ch desc fun o => { o with written := some (if o.status = 0 then st else o.status) } := by
  rw [State.writeAppendRows, h]
  dsimp only
  rw [if_neg (by rw [hs, hw]; exact Bool.false_ne_true), List.getElem?_eq_none hn, hs]
  rfl

theorem State.performAppend_of_unread {ch : Nat} {op : AppendOp} {remote : Option (Status × List Byte)} (hs : op.source = none)
    (hf : (s.channel ch).appends.find? (·.desc == op.desc) = some op) :
    let t := s.readAppend ch op remote
    let u := t.linesTaken (.append ch op.desc)
    (t.Awaits [.append ch op.desc] → s.performAppend ch op remote = s.asking t) ∧
    (t.Settled (.append ch op.desc) → s.performAppend ch op remote = State.writeAppendRows ch op.desc
      (((u.channel ch).appends.find? (·.desc == op.desc)).elim 0 (·.rows.length) + 1) u) := by
  intro t u
  have hp : s.performAppend ch op remote =
      (fun v : State => State.writeAppendRows ch op.desc (((v.channel ch).appends.find? (·.desc == op.desc)).elim 0 (·.rows.length) + 1) v)
        (s.unit op.core (.append ch op.desc) fun s => s.readAppend ch op remote) := by
    rw [State.performAppend, hs]; rfl
  refine ⟨fun ha => ?_, fun ha => ?_⟩
  · rw [hp, State.asking_eq_of_unit rfl ha]
    exact State.writeAppendRows_of_unread hf hs
  · rw [hp, State.unit_of_settled_eq rfl ha]

theorem State.performAppend_of_read {ch : Nat} {op : AppendOp} {remote : Option (Status × List Byte)} (hs : op.source ≠ none)
    (hf : (s.channel ch).appends.find? (·.desc == op.desc) = some op) :
    s.performAppend ch op remote = State.writeAppendRows ch op.desc (op.rows.length + 1) s := by
  rw [State.performAppend, if_pos (Option.isSome_iff_ne_none.mpr hs), hf]
  rfl

/-- Rows judged after a part of them is left out. -/
theorem State.memberAbsent_filter {r : Region} {c : Option Region} {rows : List (Nat × Nat × Bool)} (p : Nat × Nat × Bool → Bool)
    (h : s.memberAbsent r c rows = false) : s.memberAbsent r c (rows.filter p) = false := by
  rw [State.memberAbsent, List.any_eq_false] at *
  exact fun x hx => h x (List.mem_of_mem_filter hx)

/-- The source of an append whose region takes it, without a continuation. -/
theorem State.readAppend_of_ok {ch : Nat} {op : AppendOp} {remote : Option (Status × List Byte)} {r : Region} {ws : List Word}
    {data : ReadResult}
    (hread : s.readRegion op.region (.append ch op.desc) = (some (0, r, ws), s1)) (hstate : r.state = 0) (hvalid : r.valid ch = true)
    (hcont : r.cont = 0) (hpairs : bitsOf (op.words.getD 3 0).toNat 63 51 + bitsOf (op.words.getD 3 0).toNat 50 38 ≤ r.pairs)
    (hmax : r.len + bitsOf (op.words.getD 3 0).toNat 37 22 ≤ r.tmax) (hlen : r.len + bitsOf (op.words.getD 3 0).toNat 37 22 ≤ 0xFFFFFFFF)
    (habs : s1.sourceAbsent op.core (bitsOf (op.words.getD 2 0).toNat 53 0)
      (bitsOf (op.words.getD 3 0).toNat 37 22 * bitsOf (op.words.getD 3 0).toNat 50 38 * 4 * r.dh) = false)
    (hmem : s1.memberAbsent r none (appendRows r.len (bitsOf (op.words.getD 3 0).toNat 37 22) (bitsOf (op.words.getD 3 0).toNat 63 51)
      (bitsOf (op.words.getD 3 0).toNat 50 38)) = false)
    (hsrc : s1.isOwn (bitsOf (op.words.getD 2 0).toNat 53 0 / 2 ^ 48 % 64) = true → s1.rangesStatus (coreTower ch)
      [(bitsOf (op.words.getD 2 0).toNat 53 0 % 2 ^ 48,
        bitsOf (op.words.getD 3 0).toNat 37 22 * bitsOf (op.words.getD 3 0).toNat 50 38 * 4 * r.dh)] = 0)
    (hdata : s1.readGroup (bitsOf (op.words.getD 2 0).toNat 53 0)
      (bitsOf (op.words.getD 3 0).toNat 37 22 * bitsOf (op.words.getD 3 0).toNat 50 38 * 4 * r.dh) (.append ch op.desc) remote = (data, s2))
    (hwait : data.waiting = false) :
    s.readAppend ch op remote = s2.updAppend ch op.desc fun o => { o with
      source := some (data.status, data.bytes), primary := (ws, r.members), cont := none } := by
  generalize hw3 : (op.words.getD 3 0).toNat = w3 at *
  generalize hw2 : bitsOf (op.words.getD 2 0).toNat 53 0 = src at *
  have hwords : r.wordsValid ch = true := by
    rw [Region.valid] at hvalid
    simp only [Bool.and_eq_true] at hvalid
    exact hvalid.1.1.1
  have hout : (decide (r.pairs < bitsOf w3 63 51 + bitsOf w3 50 38) || decide (0xFFFFFFFF < r.len + bitsOf w3 37 22)) = false := by
    rw [decide_eq_false (Nat.not_lt.mpr hpairs), decide_eq_false (Nat.not_lt.mpr hlen)]; rfl
  rw [State.readAppend]
  dsimp only
  rw [hread, hw3, hw2]
  dsimp only
  rw [if_neg (by rw [hstate]; simp), if_neg (by rw [hwords]; simp), if_neg (not_not.mpr rfl), if_neg (ne_true_of_eq_false habs),
    if_neg (by rw [hvalid]; decide), if_neg (by rw [hstate]; simp), if_pos hcont]
  dsimp only
  rw [hout]
  refine (if_neg (by rw [hcont]; decide)).trans ((if_neg ?_).trans ((if_neg (by rw [hcont]; decide)).trans ((if_neg ?_).trans
    ((if_neg (by rw [Nat.add_zero]; exact Nat.not_lt.mpr hmax)).trans ?_))))
  · rw [show (none : Option (Status × Region × List Word)).map (fun c => c.2.1) = none from rfl, State.memberAbsent_filter _ hmem]
    exact Bool.false_ne_true
  · intro h
    rw [Bool.and_eq_true, decide_eq_true_eq] at h
    exact h.2 (hsrc h.1)
  · rw [hdata]
    exact if_neg (ne_true_of_eq_false hwait)

/-! The engine's oldest append whose region is free (R338, R419). -/

/-- The reserved bits of an append's descriptor are zero. -/
def DmaDesc.appendZero (d : DmaDesc) : Prop :=
  word0Status (d.words.getD 0 0) = 0 ∧ bitsOf (d.words.getD 1 0).toNat 63 48 = 0 ∧ bitsOf (d.words.getD 2 0).toNat 63 54 = 0 ∧
    bitsOf (d.words.getD 3 0).toNat 20 0 = 0 ∧ (d.words.drop 4).all (· == 0) = true

theorem DmaDesc.appendZero_iff (d : DmaDesc) : d.appendZero ↔
    (word0Status (d.words.getD 0 0) ≠ 0 || bitsOf (d.words.getD 1 0).toNat 63 48 ≠ 0 || bitsOf (d.words.getD 2 0).toNat 63 54 ≠ 0 ||
      bitsOf (d.words.getD 3 0).toNat 20 0 ≠ 0 || (d.words.drop 4).any (· ≠ 0)) = false := by
  simp [DmaDesc.appendZero, and_assoc]

/-- An append ended by the engine, which is counted. -/
def State.appendEnded (s : State) (core : Nat) (d : DmaDesc) (st : Status) : State :=
  (s.endDma core d.id st).towerWrap 0xB500 (coreTower core) 1

theorem State.acceptAppend_of_reserved {core : Nat} {d : DmaDesc} (remote : Option (Status × List Byte)) (h : ¬ d.appendZero) :
    s.acceptAppend core d remote = s.appendEnded core d 0x02 := by
  rw [DmaDesc.appendZero_iff, Bool.not_eq_false] at h
  exact if_pos h

theorem State.acceptAppend_of_none {core : Nat} {d : DmaDesc} (remote : Option (Status × List Byte)) (h : d.appendZero)
    (hn : bitsOf (d.words.getD 3 0).toNat 37 22 = 0 ∨ bitsOf (d.words.getD 3 0).toNat 50 38 = 0) :
    s.acceptAppend core d remote = s.appendEnded core d 0 := by
  rw [DmaDesc.appendZero_iff] at h
  exact (if_neg (ne_true_of_eq_false h)).trans (if_pos (by simpa using hn))

theorem State.acceptAppend_of_ok {core ch off : Nat} {d : DmaDesc} (remote : Option (Status × List Byte)) (h : d.appendZero)
    (hn1 : bitsOf (d.words.getD 3 0).toNat 37 22 ≠ 0) (hn2 : bitsOf (d.words.getD 3 0).toNat 50 38 ≠ 0)
    (hdev : s.memberDevice (bitsOf (d.words.getD 2 0).toNat 53 48) = true)
    (habs : s.sourceAbsent core (bitsOf (d.words.getD 2 0).toNat 53 0) 1 = false)
    (hin : bitsOf (d.words.getD 1 0).toNat 47 0 < 8 * dramTower) (hp : localPlace (bitsOf (d.words.getD 1 0).toNat 47 0) = .dram ch off)
    (hex : coreExists ch = true) (hiss : s.issuer ch = some core) (hal : bitsOf (d.words.getD 1 0).toNat 47 0 % 64 = 0)
    (hup : s.fieldUp (coreField ch) = true) (hfree : s.appendBlocked d = false) :
    s.acceptAppend core d remote =
      (let op : AppendOp := { core := core, desc := d.id, region := bitsOf (d.words.getD 1 0).toNat 47 0, words := d.words }
       (s.setChannel ch { s.channel ch with appends := (s.channel ch).appends ++ [op] }).performAppend ch op remote) := by
  rw [DmaDesc.appendZero_iff] at h
  have hblock : ((s.channel ch).appends.any (·.region == bitsOf (d.words.getD 1 0).toNat 47 0) ||
      (s.channel ch).pausedRegions.any (·.1 == bitsOf (d.words.getD 1 0).toNat 47 0)) = false := by
    rw [State.appendBlocked] at hfree
    rwa [if_pos hin, hp] at hfree
  refine (if_neg (ne_true_of_eq_false h)).trans ((if_neg (by rw [decide_eq_false hn1, decide_eq_false hn2]; decide)).trans ((if_neg (by rw [hdev, habs]; decide)).trans ?_))
  dsimp only
  rw [if_pos hin, hp]
  dsimp only
  rw [if_neg (by rw [hex]; decide), if_neg (by rw [hiss]; exact Bool.false_ne_true), if_neg (by rw [hiss, hal]; simp),
    if_neg (by rw [hup]; decide), if_neg (ne_true_of_eq_false hblock)]

theorem kvAppend_of_engine {core : Nat} {d : DmaDesc} {remote : Option (Status × List Byte)} (hr : s.running = true)
    (hh : s.heldAnswers = []) (hnone : s.nextAppend core = none)
    (hd : ((s.core core).dma.find? fun d => (d.words.headD 0).toNat / 2 ^ 40 % 256 == 5 && d.status.isNone &&
      !(s.channels.any fun e => e.2.appends.any (·.desc == d.id)) && !s.appendBlocked d) = some d) :
    exec (.kvAppend core remote) s = .next (s.acceptAppend core d remote) := by
  refine congrArg Host.Outcome.next ((if_neg (by rw [hr]; decide)).trans ?_)
  rw [State.settleAnswers_of_none hh]
  dsimp only
  rw [show List.findSome? _ s.channels = none from hnone]
  dsimp only
  rw [hd]

/-- The next row of an append, written whole. -/
theorem State.writeAppendRow_of_ok {ch p x : Nat} {value : Bool} {op : AppendOp} (v : State) :
    let r := regionOf op.primary.1 op.primary.2
    let n := 2 * r.dh
    let at_ := (if x < r.tmax then r else (op.cont.map fun c => regionOf c.1 c.2).getD r).place x p value
    let row := quantiseRow r.srcFmt (if value then r.vfmt else r.kfmt) r.dh (((op.source.elim [] (·.2)).drop (op.next * n)).take n)
    at_.2.2 + row.1.length ≤ 0x200000 →
    (s.countEvents ch row.2).writeHenBytes (.append ch op.desc) at_.1 at_.2.1 (pieces at_.2.2 row.1.length) row.1 = (0, v) →
    s.writeAppendRow ch op (x, p, value) =
      (v.towerWrap 0xB501 (coreTower ch) 1).updAppend ch op.desc fun o => { o with next := o.next + 1 } := by
  intro r n at_ row hin hw
  rw [State.writeAppendRow]
  dsimp only
  rw [if_neg (Nat.not_lt.mpr hin), hw]
  rfl

/-! The end of an append (R340, R343, R358). -/

theorem kvAppendComplete_of_status {ch : Nat} {op : AppendOp} {x : Status} (hr : s.running = true)
    (hf : (s.channel ch).appends.find? (·.written.isSome) = some op) (hw : op.written = some x)
    (h : x ≠ 0 ∨ bitsOf (op.words.getD 3 0).toNat 21 21 = 0) :
    exec (.kvAppendComplete ch) s = .next (s.finishAppend ch op.core op.desc x) := by
  refine congrArg Host.Outcome.next ?_
  rw [if_pos hr, hf]
  dsimp only
  rw [hw]
  refine if_neg fun hb => ?_
  rw [Bool.and_eq_true, decide_eq_true_eq, decide_eq_true_eq] at hb
  rcases h with h | h
  · exact h hb.1
  · rw [h] at hb
    exact absurd hb.2 (by decide)

theorem kvAppendComplete_of_commit {ch : Nat} {op : AppendOp} (hr : s.running = true)
    (hf : (s.channel ch).appends.find? (·.written.isSome) = some op) (hw : op.written = some 0)
    (h : bitsOf (op.words.getD 3 0).toNat 21 21 = 1) :
    exec (.kvAppendComplete ch) s = .next (s.unit op.core (.append ch op.desc) fun s =>
      match s.readHome (op.region + 8) 8 (.append ch op.desc) with
      | (r, s) =>
        if r.waiting then s
        else if r.status ≠ 0 then s.finishAppend ch op.core op.desc r.status
        else
          let w := BitVec.ofNat 64 (bytesToNat r.bytes + bitsOf (op.words.getD 3 0).toNat 37 22)
          let (e, s) := s.writeRegionWord (.append ch op.desc) op.region 1 w
          s.finishAppend ch op.core op.desc e) := by
  refine congrArg Host.Outcome.next ?_
  rw [if_pos hr, hf]
  dsimp only
  rw [hw]
  exact if_pos (by rw [h]; rfl)

/-! ### Answers for paused regions (R350, R354) -/

theorem regionHome_eq {region ch off : Nat} (h : region < 8 * dramTower) (hp : localPlace region = .dram ch off) :
    regionHome region = some ch := by
  rw [regionHome, if_pos h, hp]

theorem kvAnswer_eq {region : Nat} {cont : BitVec 64} (hr : s.running = true) (hl : s.steward.lost = false)
    (h : region < 8 * dramTower) :
    exec (.kvAnswer (BitVec.ofNat 64 region) cont) s = .next (s.takeAnswer region cont.toNat) := by
  have hn : (BitVec.ofNat 64 region).toNat = region := by
    rw [BitVec.toNat_ofNat, Nat.mod_eq_of_lt (h.trans (by decide))]
  refine congrArg Host.Outcome.next ((State.written_of_steward hl).trans ((if_neg (by rw [hr]; decide)).trans ?_))
  rw [hn]

section
variable {ch region deadline off : Nat}

theorem State.pausedUntil_eq (h : regionHome region = some ch) :
    s.pausedUntil region = ((s.channel ch).pausedRegions.find? (·.1 == region)).map (·.2) := by
  rw [State.pausedUntil, h]; rfl

/-- An answer for a region that is not paused, or whose time is over, is stray. -/
theorem State.takeAnswer_of_stray {cont : Nat} (h : regionHome region = some ch)
    (hf : (s.channel ch).pausedRegions.find? (·.1 == region) = none ∨
      (s.channel ch).pausedRegions.find? (·.1 == region) = some (region, deadline) ∧ deadline ≤ s.run) :
    s.takeAnswer region cont = s.towerSat 0xB505 (coreTower ch) 1 := by
  have hs : s.strayAnswer region = s.towerSat 0xB505 (coreTower ch) 1 := by rw [State.strayAnswer, h]; rfl
  rw [State.takeAnswer, State.pausedUntil_eq h]
  rcases hf with hf | ⟨hf, hd⟩
  · rw [hf]; exact hs
  · rw [hf]; exact (if_pos hd).trans hs

/-- An answer in time is applied, or kept while lines for it are under way. -/
theorem State.takeAnswer_of_paused {cont : Nat} (h : regionHome region = some ch) (hh : s.heldAnswers = [])
    (hf : (s.channel ch).pausedRegions.find? (·.1 == region) = some (region, deadline)) (hd : s.run < deadline) :
    s.takeAnswer region cont =
      (let u := s.unit ch (.region ch region) fun s => s.answerRegion ch region cont
       if (u.pausedUntil region).isSome then { u with heldAnswers := u.heldAnswers ++ [(region, cont)] } else u) := by
  have hs : ({ s with heldAnswers := [] } : State) = s := by rw [← hh]
  have hp : s.pausedUntil region = some deadline := by rw [State.pausedUntil_eq h, hf]; rfl
  rw [State.takeAnswer, hp]
  refine (if_neg (Nat.not_le.mpr hd)).trans ?_
  have hfold : ({ s with heldAnswers := s.heldAnswers ++ [(region, cont)] } : State).settleAnswers =
      (fun t : State => if t.heldAnswers.any fun x => x.1 == region then { t with heldAnswers := t.heldAnswers ++ [(region, cont)] }
        else match regionHome region, t.pausedUntil region with
          | some ch, some _ =>
            let u := t.unit ch (.region ch region) fun s => s.answerRegion ch region cont
            if (u.pausedUntil region).isSome then { u with heldAnswers := u.heldAnswers ++ [(region, cont)] } else u
          | _, _ => t.strayAnswer region) { s with heldAnswers := [] } := by
    rw [State.settleAnswers, hh]
    rfl
  rw [hfold, hs, h]
  dsimp only
  rw [hp, hh]
  rfl

end

/-- A region's answer names no continuation, or one that is not valid: the region retires. -/
theorem State.answerRegion_of_retired {ch region cont : Nat} {r : Region} {ws : List Word}
    (hread : s.readPaused ch region = (some (0, r, ws), s1))
    (h : cont = 0 ∧ s2 = s1 ∨ cont ≠ 0 ∧ ∃ st c cw, s1.readRegion cont (.region ch region) = (some (st, c, cw), s2) ∧
      (st ≠ 0 ∨ c.continues cw r ch cont = false)) :
    s.answerRegion ch region cont =
      (s2.unpause ch region).retire (.region ch region) ch region 3 (s.pausedAppend ch region) r ws true := by
  rw [State.answerRegion, hread]
  simp only [BitVec.ofNat_eq_ofNat]
  rcases h with ⟨hc, rfl⟩ | ⟨hc, st, c, cw, hc2, hbad⟩
  · rw [if_pos hc, if_neg (by rw [hc]; exact Bool.false_ne_true)]
    exact if_pos rfl
  · rw [if_neg hc, hc2]
    dsimp only
    rw [if_neg (by simp)]
    refine if_pos ?_
    split
    · rename_i e
      obtain ⟨rfl, rfl, rfl⟩ : st = 0 ∧ c = _ ∧ cw = _ := by simpa using e
      rw [hbad.resolve_left (not_not.mpr rfl)]; rfl
    · rfl

/-- A region whose continuation is valid runs on. -/
theorem State.answerRegion_of_continued {ch region : Nat} {cont : BitVec 64} {r c : Region} {ws cw : List Word} {e5 e0 : Status}
    (hread : s.readPaused ch region = (some (0, r, ws), s1)) (hc : cont ≠ 0)
    (hcont : s1.readRegion cont.toNat (.region ch region) = (some (0, c, cw), s2)) (hok : c.continues cw r ch cont.toNat = true)
    (h5 : (s2.unpause ch region).writeRegionWord (.region ch region) region 5 cont = (e5, s3))
    (h0 : s3.writeRegionWord (.region ch region) region 0 (withRegionState (ws.getD 0 0) 0 true) = (e0, s4)) :
    s.answerRegion ch region cont.toNat =
      (((s4.setChannel ch { s4.channel ch with appends := (s4.channel ch).appends.map fun o =>
        if o.region = region then { o with paused := false } else o }).resumeSeq r).kvRecord ch region 2
          (((s.pausedAppend ch region).map fun o => bitsOf (o.words.getD 3 0).toNat 37 22).getD 0) r).towerSat 0xB503 (coreTower ch) 1 := by
  have hne : ¬ cont.toNat = 0 := fun e => hc (BitVec.eq_of_toNat_eq e)
  rw [State.answerRegion, hread]
  simp only [BitVec.ofNat_eq_ofNat]
  rw [if_neg hne, hcont]
  dsimp only
  simp only [BitVec.ofNat_eq_ofNat] at h0 ⊢
  rw [if_neg (by simp), hok]
  refine (if_neg (by decide)).trans ?_
  rw [BitVec.ofNat_toNat, BitVec.setWidth_eq, h5]
  dsimp only
  rw [h0]
  dsimp only
  cases s.pausedAppend ch region <;> rfl

/-- Settles O37. -/
theorem appendsAndAnswers : Obligations.AppendsAndAnswers := by
  refine ⟨?perform, ?engine, fun s v ch t p value op => State.writeAppendRow_of_ok v, ?complete, ?frozen, ?answer, ?timeout⟩
  case perform =>
    intro s s1 s2 core ch op r ws data remote w3 ntok npairs src size who hr hh hn hf
    have hexec := kvAppend_of_next (remote := remote) hr hh hn
    refine ⟨fun hs => ?_, fun hs => hexec.trans (congrArg _ (State.performAppend_of_read hs hf)), fun st bytes hs hlen => ?_⟩
    · intro t u
      obtain ⟨h1, h2⟩ := State.performAppend_of_unread (remote := remote) hs hf
      exact ⟨fun ha => hexec.trans (congrArg _ (h1 ha)), fun ha => hexec.trans (congrArg _ (h2 ha)), State.readAppend_of_ok⟩
    · have hne : op.source ≠ none := by rw [hs]; exact Option.some_ne_none _
      exact hexec.trans (congrArg _ ((State.performAppend_of_read hne hf).trans
        (State.writeAppendRows_of_done hf (State.nextAppend_written hn) hs hlen)))
  case engine =>
    intro s core d remote w1 w2 w3 zero ends hr hh hnone hd
    have hexec := kvAppend_of_engine (remote := remote) hr hh (State.nextAppend_none hnone) hd
    refine ⟨fun hz => hexec.trans (congrArg _ (State.acceptAppend_of_reserved remote hz)),
      fun hz hn => hexec.trans (congrArg _ (State.acceptAppend_of_none remote hz hn)), ?_⟩
    intro ch off hz hn1 hn2 hdev habs hin hp hex hiss hal hup op c
    have hfree : s.appendBlocked d = false := by
      have h := List.find?_some hd
      simp only [Bool.and_eq_true, Bool.not_eq_true'] at h
      exact h.2
    exact hexec.trans (congrArg _ (State.acceptAppend_of_ok remote hz hn1 hn2 hdev habs hin hp hex hiss hal hup hfree))
  case complete =>
    intro s s1 s2 ch op data w e w3 who run hr hf hw
    refine ⟨fun h => kvAppendComplete_of_status hr hf hw h, fun hw0 hc hread => ?_⟩
    subst hw0
    have hexec := kvAppendComplete_of_commit hr hf hw hc
    refine ⟨fun hwait ha => hexec.trans (congrArg _ (State.asking_eq_of_unit ?_ ha)), fun hwait hst => ?_, fun hwait hst hwr => ?_⟩
    · rw [hread]
      exact if_pos hwait
    · intro u ha
      refine hexec.trans (congrArg _ (State.unit_of_settled_eq ?_ ha))
      rw [hread]
      exact (if_neg (ne_true_of_eq_false hwait)).trans (if_pos hst)
    · intro u
      have hbody : (match s.readHome (op.region + 8) 8 (.append ch op.desc) with
          | (r, s) =>
            if r.waiting then s
            else if r.status ≠ 0 then s.finishAppend ch op.core op.desc r.status
            else
              let w := BitVec.ofNat 64 (bytesToNat r.bytes + bitsOf (op.words.getD 3 0).toNat 37 22)
              let (e, s) := s.writeRegionWord (.append ch op.desc) op.region 1 w
              s.finishAppend ch op.core op.desc e) = u := by
        rw [hread]
        refine (if_neg (ne_true_of_eq_false hwait)).trans ((if_neg (not_not.mpr hst)).trans ?_)
        exact congrArg (fun x : Status × State => x.2.finishAppend ch op.core op.desc x.1) hwr
      exact ⟨fun ha => hexec.trans (congrArg _ (State.asking_eq_of_unit hbody ha)),
        fun ha => hexec.trans (congrArg _ (State.unit_of_settled_eq hbody ha))⟩
  case frozen =>
    intro s core ch a cont remote hr
    refine ⟨congrArg Host.Outcome.next (if_pos (by rw [hr]; rfl)), congrArg Host.Outcome.next ?_,
      congrArg Host.Outcome.next (if_pos (by rw [hr]; rfl)), fun hl => congrArg Host.Outcome.next ((State.written_of_steward hl).trans (if_pos (by rw [hr]; rfl)))⟩
    rw [if_neg (by rw [hr]; decide)]
  case answer =>
    intro s s1 s2 s3 s4 ch region deadline off cont r c ws cw st e5 e0 who run paused t u found hr hl hh hin hp
    have hhome := regionHome_eq hin hp
    have hexec := kvAnswer_eq (cont := cont) hr hl hin
    refine ⟨fun hf => hexec.trans (congrArg _ (State.takeAnswer_of_stray (deadline := 0) hhome (.inl hf))),
      fun hf hd => hexec.trans (congrArg _ (State.takeAnswer_of_stray hhome (.inr ⟨hf, hd⟩))), fun hf hd => ?_⟩
    have htake := hexec.trans (congrArg _ (State.takeAnswer_of_paused hhome hh hf hd))
    refine ⟨fun ha => htake.trans (congrArg _ ?_), fun ha => htake.trans (congrArg _ ?_), fun hread => ⟨fun hc => ?_, fun hc hcont => ⟨fun hbad => ?_,
      fun hst hok h5 h0 => ?_⟩⟩⟩
    · rw [State.asking_eq_of_unit rfl ha]
      refine (if_pos ?_).trans ?_
      · rw [State.pausedUntil_eq hhome]
        exact (congrArg (fun x => (Option.map Prod.snd x).isSome) hf).trans rfl
      · rw [show (s.asking (s.answerRegion ch region cont.toNat)).heldAnswers = [] from hh]
        rfl
    · rw [State.unit_of_settled_eq rfl ha]
    · exact State.answerRegion_of_retired hread (.inl ⟨by rw [hc]; rfl, rfl⟩)
    · exact State.answerRegion_of_retired hread (.inr ⟨fun e => hc (BitVec.eq_of_toNat_eq e), st, c, cw, hcont, hbad⟩)
    · subst hst
      exact State.answerRegion_of_continued hread hc hcont hok h5 h0
  case timeout =>
    intro s s1 ch region deadline r ws w hr hf who
    have hexec : exec (.kvAnswerTimeout ch) s = .next (s.unit ch (.region ch region) fun s =>
        let op := s.pausedAppend ch region
        match s.readPaused ch region with
        | (some (_, r, ws), s) => (s.unpause ch region).retire (.region ch region) ch region 4 op r ws true
        | (none, s) => s) := by
      refine congrArg Host.Outcome.next ((if_neg (by rw [hr]; decide)).trans ?_)
      rw [hf] <;> rfl
    refine ⟨fun hread ha => hexec.trans (congrArg _ (State.asking_eq_of_unit ?_ ha)), fun hread => ?_⟩
    · dsimp only
      rw [hread]
    · intro t
      have hbody : (let op := s.pausedAppend ch region
          match s.readPaused ch region with
          | (some (_, r, ws), s) => (s.unpause ch region).retire (.region ch region) ch region 4 op r ws true
          | (none, s) => s) = t := by
        dsimp only
        rw [hread]
      exact ⟨fun ha => hexec.trans (congrArg _ (State.asking_eq_of_unit hbody ha)),
        fun ha => hexec.trans (congrArg _ (State.unit_of_settled_eq hbody ha))⟩

end Sys2Proof.Machine
end

section
/-! PROOFS. Routers and multicast (R363, R364, R368, R372, R373). -/
namespace Sys2Proof.Machine
variable {s t u v w : State}

/-! ### Routers and multicast (R363, R364, R368, R372, R373) -/

/-- A router serves a flit that waits for the output. -/
theorem Router.serve_mem {r k : Router} {out ch i : Nat} {ready : List (Nat × Nat × Bool)} (h : r.serve out ready = some (ch, i, k)) :
    ∃ tail, (ch, i, tail) ∈ ready := by
  have found {p : Nat} {x : Nat × Bool}
      (hx : ((ready.find? fun f => f.1 == ch && f.2.1 == p).map fun f => (p, f.2.2)) = some x) : (ch, x.1, x.2) ∈ ready := by
    obtain ⟨f, hf, rfl⟩ := Option.map_eq_some_iff.mp hx
    have hok := List.find?_some hf
    simp only [Bool.and_eq_true, beq_iff_eq] at hok
    obtain ⟨hch, hp⟩ := hok
    have hmem := List.mem_of_find?_eq_some hf
    rwa [show f = (ch, p, f.2.2) from Prod.ext hch (Prod.ext hp rfl)] at hmem
  unfold Router.serve at h
  dsimp only at h
  obtain ⟨c, -, h⟩ := Option.bind_eq_some_iff.mp h
  obtain ⟨x, hx, hout⟩ := Option.map_eq_some_iff.mp h
  obtain ⟨j, tail⟩ := x
  obtain ⟨rfl, hjk⟩ := Prod.mk.inj hout
  obtain ⟨rfl, -⟩ := Prod.mk.inj hjk
  refine ⟨tail, ?_⟩
  split at hx
  · obtain ⟨p, -, hx⟩ := Option.bind_eq_some_iff.mp hx
    exact found hx
  · exact found hx

theorem flitForward_eq {router : Nat} (out carried : Nat) (h1 : router < 1024) (h2 : router % 128 < 80)
    (h3 : s.dm.towers.contains (router / 128) = false) (hr : s.running = true) :
    exec (.flitForward router out carried) s = .next (
      match (((s.combineAll.inject router).carry carried).router router).serve out
        (((s.combineAll.inject router).carry carried).readyFlits router out) with
      | some (ch, i, k) => (((((s.combineAll.inject router).carry carried).setRouter router k).moveFlit router out ch i).carry
          carried).towerWrap 0xB600 (router / 128) 1
      | none => s) := by
  refine congrArg Host.Outcome.next (if_neg ?_)
  rw [h3, hr, decide_eq_false (Nat.not_le.mpr h1), decide_eq_false (Nat.not_le.mpr h2)]
  decide

/-- The copies of a multicast, one request for each position of its set (R372). -/
def State.sendCopies (s : State) (id kind off : Nat) (bytes : List Byte) (ps : List Nat) : State :=
  ps.foldl (fun s p =>
    let (n, s) := s.token
    let a := copyAddr kind p off
    { s with reqs := s.reqs ++
      [{ id := n, src := .copy id p, kind := .write bytes, addr := s.group.member * 2 ^ 48 + a, loc := a }] }) s

theorem State.sendCopies_eq (id kind off : Nat) (bytes : List Byte) (ps : List Nat) (s : State) :
    ∃ sent : List Req, s.sendCopies id kind off bytes ps = { s with reqs := s.reqs ++ sent, fresh := s.fresh + ps.length } ∧
      sent.map (fun q => (q.src, q.kind, q.loc, q.addr)) = ps.map fun p =>
        (Source.copy id p, ReqKind.write bytes, copyAddr kind p off, s.group.member * 2 ^ 48 + copyAddr kind p off) := by
  induction ps generalizing s with
  | nil => exact ⟨[], by rw [List.append_nil]; rfl, rfl⟩
  | cons p ps ih =>
    let r : Req :=
      { id := s.fresh, src := .copy id p, kind := .write bytes, addr := s.group.member * 2 ^ 48 + copyAddr kind p off,
        loc := copyAddr kind p off }
    obtain ⟨sent, hs, hsent⟩ := ih { s with reqs := s.reqs ++ [r], fresh := s.fresh + 1 }
    refine ⟨r :: sent, hs.trans ?_, congrArg (_ :: ·) hsent⟩
    dsimp only
    rw [List.append_assoc, List.length_cons, Nat.add_assoc, Nat.add_comm 1]
    rfl

/-- A multicast whose checks pass and whose source is read sends its copies (R373). -/
theorem State.multicast_of_read {core n : Nat} {d : DmaDesc} {rec : List Word} {data : ReadResult}
    {remote : Option (Status × List Byte)} (hwf : dmaWellFormed d.words = true) (hn : n ≠ 0) (hlen : dmaLen d.words = n)
    (hg : s.groupRanges (coreTower core) [(dmaSrc d.words, n)] = 0) (hset : tileField d.words 4 47 0 % 64 = 0)
    (hrec : d.record = some (0, rec)) (hv : setValid rec = true)
    (hsz : dmaDst d.words + n ≤ (if dmaKind d.words = 2 then channelBytes else 0x40000))
    (hread : s.readGroup (dmaSrc d.words) n (.dma core d.id) remote = (data, u)) (hw : data.waiting = false) {copies nodes : List Nat}
    (hc : copies = if data.bytes = [] then [] else setMembers rec)
    (hnodes : nodes = (copies.map clusterId).eraseDups.filter (u.meshReaches (clusterId core))) :
    s.multicast core d remote =
      (State.post { u with multicasts := u.multicasts ++
          [{ core := core, desc := d.id, status := data.status, nodes := nodes.filter (· != clusterId core) }] }
        { id := d.id, channel := 0, src := clusterId core, tree := true, dsts := nodes, flits := (data.bytes.length + 63) / 64,
          core := some core }).sendCopies d.id (dmaKind d.words) (dmaDst d.words) data.bytes copies := by
  subst hlen hnodes
  unfold State.multicast
  rw [hrec]
  refine (if_neg (by rw [hwf]; decide)).trans ((if_neg hn).trans ((if_neg (by rw [hg]; decide)).trans
    ((if_neg (not_not.mpr hset)).trans ((if_neg Bool.false_ne_true).trans ((if_neg (not_not.mpr rfl)).trans ((if_neg ?_).trans
    ((if_neg (not_not.mpr hg)).trans ?_)))))))
  · simp only [hv, Bool.not_true, Bool.false_or, decide_eq_true_eq]
    omega
  · rw [hread]
    refine (if_neg (ne_true_of_eq_false hw)).trans ?_
    have hcopies : (if data.bytes.isEmpty = true then [] else setMembers rec) = copies := by
      rw [hc]; simp only [List.isEmpty_iff]
    change State.sendCopies _ _ _ _ _ (if data.bytes.isEmpty = true then [] else setMembers rec) = _
    rw [hcopies]

/-- What the multicasts are does not matter to a packet. -/
theorem State.post_multicasts (s : State) (ms : List Multicast) (p : Packet) :
    State.post { s with multicasts := ms } p = { s with multicasts := ms, packets := (s.post p).packets } := by
  unfold State.post
  dsimp only
  split <;> rfl

theorem State.post_running (s : State) (p : Packet) : (s.post p).running = s.running := by rw [State.post_eq]; rfl

theorem State.combineAnswers_running (s : State) (m : Multicast) : (s.combineAnswers m).running = s.running := by
  have posts (l : List Nat) (f : Nat → Packet) (t : State) : (l.foldl (fun t n => t.post (f n)) t).running = t.running := by
    induction l generalizing t with
    | nil => rfl
    | cons n l ih => exact (ih _).trans (t.post_running _)
  exact (posts _ _ _).trans rfl

theorem State.combineAll_running (s : State) : s.combineAll.running = s.running := by
  unfold State.combineAll
  induction s.multicasts generalizing s with
  | nil => rfl
  | cons m ms ih => exact (ih _).trans (s.combineAnswers_running m)

/-- Settles O38. -/
theorem routersAndMulticast : Obligations.RoutersAndMulticast := by
  unfold Obligations.RoutersAndMulticast
  refine ⟨?flit, ?frozen, ?multicast, ?complete⟩
  case flit =>
    intro s router out carried ch i k h1 h2 h3 hr t ready
    refine ⟨fun h => ⟨Router.serve_mem h, ?_⟩, fun h => ?_⟩
    · rw [flitForward_eq out carried h1 h2 h3 hr, h]
    · rw [flitForward_eq out carried h1 h2 h3 hr, h]
  case frozen =>
    intro s router out carried core remote hr
    refine ⟨congrArg Host.Outcome.next (if_pos (by rw [hr, Bool.not_false, Bool.or_true])),
      congrArg Host.Outcome.next (if_pos (by rw [hr]; rfl)), congrArg Host.Outcome.next ?_⟩
    have hs : (if s.running then s.combineAll else s) = s := if_neg (by rw [hr]; decide)
    dsimp only
    rw [hs, if_neg (by rw [hr]; decide)]
  case multicast =>
    intro s s2 core d rec data remote ws n who t hr hd
    have hexec : exec (.multicast core remote) s = .next (s.unit core who fun s => s.multicast core d remote) := by
      refine congrArg Host.Outcome.next ((if_neg (by rw [hr]; decide)).trans ?_)
      rw [hd]
    refine ⟨fun h => hexec.trans (congrArg _ (State.unit_of_settled_eq rfl h)),
      fun h => hexec.trans (congrArg _ (State.asking_eq_of_unit rfl h)), fun h => if_pos (by rw [h]; rfl),
      fun h h0 => (if_neg (by rw [h]; decide)).trans (if_pos h0), fun hwf hn hg hset hrec hv hsz hread hw => ?_⟩
    intro copies nodes
    have ht : t = _ := State.multicast_of_read hwf hn rfl hg hset hrec hv hsz hread hw rfl rfl
    obtain ⟨sent, hs, hsent⟩ := State.sendCopies_eq d.id (dmaKind ws) (dmaDst ws) data.bytes copies
      (State.post { s2 with multicasts := s2.multicasts ++
          [{ core := core, desc := d.id, status := data.status, nodes := nodes.filter (· != clusterId core) }] }
        { id := d.id, channel := 0, src := clusterId core, tree := true, dsts := nodes, flits := (data.bytes.length + 63) / 64,
          core := some core })
    have ht := ht.trans hs
    rw [State.post_multicasts] at ht hsent
    rw [ht]
    exact ⟨rfl, rfl, ⟨sent, rfl, hsent⟩, rfl⟩
  case complete =>
    intro s core m hr u copies ended
    have hs : (if s.running then s.combineAll else s) = u := if_pos hr
    have hu : u.running = true := s.combineAll_running.trans hr
    refine ⟨fun hf => congrArg Host.Outcome.next ?_, fun hf => congrArg Host.Outcome.next ?_⟩
    · dsimp only
      rw [hs, if_pos hu]
      split
      next => rfl
      next hfind => cases hfind.symm.trans hf
    · dsimp only
      rw [hs, if_pos hu]
      split
      next hfind => cases hfind.symm.trans hf
      next hfind =>
        cases hfind.symm.trans hf
        rfl

end Sys2Proof.Machine
end

section
/-! PROOFS. Leases (R363, R382 to R384, R398). -/
namespace Sys2Proof.Machine
variable {s t u v w : State}

/-! ### Leases (R382 to R384, R398) -/

/-- The first element of a kind is the first of a narrower kind to which it belongs. -/
theorem find?_and_of_find? {α : Type} {p q : α → Bool} {l : List α} {a : α} (h : l.find? p = some a) (hq : q a = true) :
    l.find? (fun x => p x && q x) = some a := by
  obtain ⟨ha, as, bs, hl, hbefore⟩ := List.find?_eq_some_iff_append.mp h
  refine List.find?_eq_some_iff_append.mpr ⟨by rw [ha, hq]; rfl, as, bs, hl, fun x hx => ?_⟩
  rw [Bool.not_and, hbefore x hx, Bool.true_or]

/-- What the object of a lease does with an operation that has come to it. -/
def State.atLease (s : State) (op : LeaseOp) : State :=
  let (r, s) := if op.record.isSome then (op.record, s) else s.acceptRecord op.setAddr (.dma op.core op.id)
  let (status, rec) := r.getD (0, [])
  if r.isNone then s
  else if status ≠ 0 then s.replyLease op status
  else
    let (st, s) := s.acquireLease op rec
    s.replyLease op st

theorem leaseAcquire_eq {id : Nat} {op : LeaseOp} (hf : s.leaseOps.find? (·.id == id) = some op) (ha : op.acquire = true) :
    exec (.leaseAcquire id) s = .next (
      if !s.running then s
      else if op.reply.isSome then s.takeLeaseReply id
      else if s.leaseCut op then (s.dropLeaseOp id).complete op.target 0x07
      else if op.setAddr % 64 ≠ 0 then (s.dropLeaseOp id).complete op.target 0x02
      else if s.leaseTravels op then s
      else s.unit op.core (.dma op.core op.id) fun s => s.atLease op) := by
  have hf : (s.leaseOps.find? fun o => o.id == id && o.acquire) = some op := find?_and_of_find? hf ha
  refine congrArg Host.Outcome.next ?_
  rw [hf]
  rfl

theorem leaseRelease_eq {id : Nat} {op : LeaseOp} (hf : s.leaseOps.find? (·.id == id) = some op) (ha : op.acquire = false) :
    exec (.leaseRelease id) s = .next (
      if !s.running then s
      else if op.reply.isSome then s.takeLeaseReply id
      else if s.leaseCut op then (s.dropLeaseOp id).complete op.target 0x07
      else if s.leaseTravels op || (s.lease op.lease).round.isSome then s
      else ((s.freeSlots (s.lease op.lease).slots).setLease op.lease {}).replyLease op 0) := by
  have hf : (s.leaseOps.find? fun o => o.id == id && !o.acquire) = some op := find?_and_of_find? hf (by rw [ha]; rfl)
  refine congrArg Host.Outcome.next ?_
  rw [hf]

theorem State.atLease_of_none {op : LeaseOp}
    (h : (if op.record.isSome then (op.record, s) else s.acceptRecord op.setAddr (.dma op.core op.id)) = (none, t)) :
    s.atLease op = t := by
  unfold State.atLease
  rw [h]
  rfl

theorem State.atLease_of_read {op : LeaseOp} {st : Status} {rec : List Word}
    (h : (if op.record.isSome then (op.record, s) else s.acceptRecord op.setAddr (.dma op.core op.id)) = (some (st, rec), t)) :
    s.atLease op = if st ≠ 0 then t.replyLease op st else (t.acquireLease op rec).2.replyLease op (t.acquireLease op rec).1 := by
  unfold State.atLease
  rw [h]
  rfl

/-- An operation that has no answer yet and can reach its lease. -/
theorem leaseAcquire_atLease {id : Nat} {op : LeaseOp} (hf : s.leaseOps.find? (·.id == id) = some op) (ha : op.acquire = true)
    (hr : s.running = true) (hno : op.reply = none) (hcut : s.leaseCut op = false) :
    exec (.leaseAcquire id) s = .next (
      if op.setAddr % 64 ≠ 0 then (s.dropLeaseOp id).complete op.target 0x02
      else if s.leaseTravels op then s
      else s.unit op.core (.dma op.core op.id) fun s => s.atLease op) := by
  refine (leaseAcquire_eq hf ha).trans (congrArg _ ?_)
  exact (if_neg (by rw [hr]; decide)).trans ((if_neg (by rw [hno]; exact Bool.false_ne_true)).trans
    (if_neg (ne_true_of_eq_false hcut)))

/-- An operation whose answer has come back completes. -/
theorem State.takeLeaseReply_of_back {id : Nat} {op : LeaseOp} {st : Status} (hf : s.leaseOps.find? (·.id == id) = some op)
    (hr : op.reply = some st) (hb : s.inTransit id 2 (clusterId op.core) = false) :
    s.takeLeaseReply id = (s.dropLeaseOp id).complete op.target st := by
  unfold State.takeLeaseReply
  rw [hf]
  obtain ⟨⟩ := op
  dsimp only at hr hb
  subst hr
  exact if_neg (ne_true_of_eq_false hb)

/-- The lease of an operation is free, and its record is a valid one of its tower. -/
def State.leaseFits (s : State) (op : LeaseOp) (rec : List Word) : Prop :=
  (s.lease op.lease).state = 0 ∧ setValid rec = true ∧ setRootTower rec = op.lease / 256

theorem State.acquireLease_of_not_fits {op : LeaseOp} {rec : List Word} (ht : s.dm.towers = []) (h : ¬ s.leaseFits op rec) :
    s.acquireLease op rec = (0x02, s) := by
  refine (if_neg (by rw [ht]; exact Bool.false_ne_true)).trans (if_pos ?_)
  simp only [Bool.or_eq_true, decide_eq_true_eq, Bool.not_eq_true']
  by_contra hno
  simp only [not_or, not_not, Bool.not_eq_false] at hno
  obtain ⟨⟨h1, h2⟩, h3⟩ := hno
  exact h ⟨h1, h2, h3⟩

theorem State.acquireLease_of_fits {op : LeaseOp} {rec : List Word} (ht : s.dm.towers = []) (h : s.leaseFits op rec) :
    s.acquireLease op rec =
      match s.reserveSlots op.lease (treeRouters rec) [] with
      | some (got, t) => (0, t.setLease op.lease { s.lease op.lease with state := 1, words := rec, slots := got })
      | none =>
        if setFallback rec then
          (0, (s.towerSat 0xB604 (op.lease / 256) 1).setLease op.lease { s.lease op.lease with state := 2, words := rec, slots := [] })
        else (0x09, s.towerSat 0xB604 (op.lease / 256) 1) := by
  obtain ⟨h1, h2, h3⟩ := h
  have hout (x : Nat) : s.dm.towers.contains x = false := by rw [ht]; rfl
  have htree : ((treeRouters rec).any fun r => s.dm.towers.contains (r / 128)) = false := List.any_eq_false.mpr fun r _ => by
    rw [hout]; exact Bool.false_ne_true
  have hok : (decide ((s.lease op.lease).state ≠ 0) || !setValid rec || decide (setRootTower rec ≠ op.lease / 256)) = false := by
    rw [h1, h2, h3]; simp
  unfold State.acquireLease
  dsimp only
  rw [if_neg (ne_true_of_eq_false (hout _)), if_neg (ne_true_of_eq_false hok), if_neg (ne_true_of_eq_false htree)]
    <;> cases s.reserveSlots op.lease (treeRouters rec) [] <;> rfl

/-- Settles O39. -/
theorem leasesTakeAndFreeSlots : Obligations.LeasesTakeAndFreeSlots := by
  unfold Obligations.LeasesTakeAndFreeSlots
  intro s s1 s2 id op rec st got v l who run ended
  have hacq (ha : op.acquire = true) : run = exec (.leaseAcquire id) s := congrArg (exec · s) (if_pos ha)
  have hrel (ha : op.acquire = false) : run = exec (.leaseRelease id) s := congrArg (exec · s) (if_neg (ne_true_of_eq_false ha))
  refine ⟨fun hf => ⟨fun hr => ?frozen, fun hr hst hback => ?answered, fun hr hno hcut =>
    ⟨fun ha hal => ?unaligned, fun htr ha hal => ?travels, fun htr ha => ?release, fun htr ha hal ht => ?acquire⟩⟩,
    fun hl => ?force⟩
  case force =>
    intro k waits u
    refine ⟨fun h => congrArg Host.Outcome.next ((State.written_of_steward hl).trans (if_pos (by rw [h]; rfl))),
      fun h ht => congrArg Host.Outcome.next ((State.written_of_steward hl).trans (if_neg ?_))⟩
    rw [ht, decide_eq_false h]
    exact Bool.false_ne_true
  case frozen =>
    cases ha : op.acquire with
    | true => exact (hacq ha).trans ((leaseAcquire_eq hf ha).trans (congrArg _ (if_pos (by rw [hr]; rfl))))
    | false => exact (hrel ha).trans ((leaseRelease_eq hf ha).trans (congrArg _ (if_pos (by rw [hr]; rfl))))
  case answered =>
    have hback := State.takeLeaseReply_of_back hf hst hback
    have hrun : ¬ (!s.running) = true := by rw [hr]; exact Bool.false_ne_true
    have hans : op.reply.isSome = true := by rw [hst]; rfl
    cases ha : op.acquire with
    | true =>
      refine (hacq ha).trans ((leaseAcquire_eq hf ha).trans (congrArg _ ?_))
      exact (if_neg hrun).trans ((if_pos hans).trans hback)
    | false =>
      refine (hrel ha).trans ((leaseRelease_eq hf ha).trans (congrArg _ ?_))
      exact (if_neg hrun).trans ((if_pos hans).trans hback)
  case unaligned =>
    refine (hacq ha).trans ((leaseAcquire_atLease hf ha hr hno hcut).trans (congrArg _ (if_pos hal)))
  case travels =>
    refine (hacq ha).trans ((leaseAcquire_atLease hf ha hr hno hcut).trans (congrArg _ ?_))
    exact (if_neg (not_not.mpr hal)).trans (if_pos htr)
  case release =>
    have hrun : ¬ (!s.running) = true := by rw [hr]; exact Bool.false_ne_true
    have hans : ¬ op.reply.isSome = true := by rw [hno]; exact Bool.false_ne_true
    have hrelease := (hrel ha).trans ((leaseRelease_eq hf ha).trans (congrArg _ ((if_neg hrun).trans ((if_neg hans).trans
      (if_neg (ne_true_of_eq_false hcut))))))
    refine ⟨fun h => hrelease.trans (congrArg _ (if_pos (by rw [h, Bool.or_true]))),
      fun h => hrelease.trans (congrArg _ (if_neg ?_))⟩
    rw [htr, h]
    exact Bool.false_ne_true
  case acquire =>
    have hexec : run = .next (s.unit op.core who fun s => s.atLease op) :=
      (hacq ha).trans ((leaseAcquire_atLease hf ha hr hno hcut).trans (congrArg _
        ((if_neg (not_not.mpr hal)).trans (if_neg (ne_true_of_eq_false htr)))))
    intro ends read
    have hends {t : State} (h : s.atLease op = t) : ends t := fun hs => hexec.trans (congrArg _ (State.unit_of_settled_eq h hs))
    refine ⟨fun h hs => hexec.trans (congrArg _ (State.asking_eq_of_unit (State.atLease_of_none h) hs)), fun h ht1 => ?_⟩
    intro free fits short
    refine ⟨fun hst => hends ((State.atLease_of_read h).trans (if_pos hst)), fun hst hno => hends ?_, fun hst hfits hgot => hends ?_,
      fun hst hfits hgot hfall => hends ?_, fun hst hfits hgot hfall => hends ?_⟩
    · rw [State.atLease_of_read h, if_neg (not_not.mpr hst), State.acquireLease_of_not_fits ht1 hno]
    · rw [State.atLease_of_read h, if_neg (not_not.mpr hst), State.acquireLease_of_fits ht1 hfits, hgot]
    · rw [State.atLease_of_read h, if_neg (not_not.mpr hst), State.acquireLease_of_fits ht1 hfits, hgot]
      dsimp only
      rw [if_pos hfall]
    · rw [State.atLease_of_read h, if_neg (not_not.mpr hst), State.acquireLease_of_fits ht1 hfits, hgot]
      dsimp only
      rw [if_neg (ne_true_of_eq_false hfall)]

end Sys2Proof.Machine
end

section
/-! PROOFS. Rounds of reductions (R374 to R377, R379, R384, R385). -/
namespace Sys2Proof.Machine
variable {s t u v w : State}

/-! ### Rounds of reductions (R374 to R377, R379, R384, R385) -/

theorem State.lease_setLease_same (s : State) (l : Nat) (x : Lease) : (s.setLease l x).lease l = x := Map.get_set_same _ _ _ _

/-- A contribution whose checks pass, at a lease that is bound, joins its round with what its source gave. -/
theorem State.reduce_of_read {core : Nat} {d : DmaDesc} {data : ReadResult} {remote : Option (Status × List Byte)}
    (hstate : (s.lease (tileField d.words 4 10 0)).state = 1) (hwf : dmaWellFormed d.words = true) (hn : dmaLen d.words ≠ 0)
    (h4 : dmaLen d.words % 4 = 0) (hmax : dmaLen d.words ≤ 2 ^ 24)
    (hg : s.groupRanges (coreTower core) [(dmaSrc d.words, dmaLen d.words)] = 0) (hdest : s.destAbsent d.words = false)
    (hbroken : (s.boundTo (tileField d.words 4 10 0)).any (fun b => b.2.state == 3) = false)
    (hmem : ((s.lease (tileField d.words 4 10 0)).round.elim (s.contributors (s.lease (tileField d.words 4 10 0)).words)
      (·.contributors)).contains core = true)
    (hsent : (s.lease (tileField d.words 4 10 0)).round.any (fun r => r.got.any (·.core == core)) = false)
    (hread : s.readGroup (dmaSrc d.words) (dmaLen d.words) (.dma core d.id) remote = (data, t)) (hw : data.waiting = false) :
    s.reduce core d remote =
      if data.status ≠ 0 then t.joinRound (tileField d.words 4 10 0)
        ⟨core, d.id, tileField d.words 4 14 12, dmaKind d.words, dmaDst d.words, dmaLen d.words, []⟩ data.status
      else t.joinRound (tileField d.words 4 10 0)
        ⟨core, d.id, tileField d.words 4 14 12, dmaKind d.words, dmaDst d.words, dmaLen d.words, data.bytes⟩ 0 := by
  have hmembers : (match (s.lease (tileField d.words 4 10 0)).round with
      | some r => r.contributors
      | none => s.contributors (s.lease (tileField d.words 4 10 0)).words).contains core = true := by
    rw [← hmem]; cases (s.lease (tileField d.words 4 10 0)).round <;> rfl
  have hgot : (match (s.lease (tileField d.words 4 10 0)).round with
      | some r => r.got.any (·.core == core)
      | none => false) = false := by
    rw [← hsent]; cases (s.lease (tileField d.words 4 10 0)).round <;> rfl
  have hsize : (if dmaLen d.words % 4 ≠ 0 || 2 ^ 24 < dmaLen d.words then (0x02 : Status)
      else if (s.lease (tileField d.words 4 10 0)).state = 2 && !stagingOk (s.lease (tileField d.words 4 10 0)).words
        (match (s.lease (tileField d.words 4 10 0)).round with
        | some r => r.contributors
        | none => s.contributors (s.lease (tileField d.words 4 10 0)).words).length (dmaLen d.words) then 0x02 else 0) = 0 := by
    rw [if_neg, if_neg]
    · rw [hstate]; exact Bool.false_ne_true
    · rw [Bool.or_eq_true, decide_eq_true_eq, decide_eq_true_eq]; omega
  refine (if_neg (by rw [hwf]; decide)).trans ((if_neg hn).trans ((if_neg (by rw [hg, hdest]; decide)).trans
    ((if_neg (by rw [hstate]; decide)).trans ((if_neg (ne_true_of_eq_false hbroken)).trans ((if_neg ?_).trans
    ((if_neg (ne_true_of_eq_false hgot)).trans ((if_neg (not_not.mpr hsize)).trans ((if_neg (not_not.mpr hg)).trans ?_))))))))
  · exact ne_true_of_eq_false (congrArg not hmembers)
  · rw [hread]
    refine (if_neg (ne_true_of_eq_false hw)).trans ?_
    congr 1
    exact if_neg (by rw [hstate]; decide)

/-- A contribution that joins is the last that the round has got. -/
theorem State.joinRound_got (s : State) (l : Nat) (c : Contribution) (st : Status) :
    ∃ r, ((s.joinRound l c st).lease l).round = some r ∧ r.got = (s.lease l).round.elim [] (·.got) ++ [c] := by
  refine ⟨_, congrArg Lease.round (State.lease_setLease_same _ _ _), ?_⟩
  change ((s.lease l).round.getD (s.newRound (s.lease l).words)).got ++ [c] = _
  cases (s.lease l).round <;> rfl

/-- A router of the round's tree that has not sent its partial yet. -/
theorem redPartial_eq {l router : Nat} {r : Round} {c : Contribution} {cs : List Contribution} (hround : (s.lease l).round = some r)
    (hgot : r.got = c :: cs) (hst : r.status = none) (hr : s.running = true) (hstate : (s.lease l).state = 1)
    (hp : r.partials.any (·.1 == router) = false) (hin : (s.roundRouters l (s.lease l).words).contains router = true) :
    exec (.redPartial l router) s = .next (
      match s.routerInputs l r (s.lease l).words c.rtype router with
      | none => s
      | some (inputs, k1) =>
        let p := mergeAll c.rtype inputs
        let u := s.towerWrap 0xB201 (router / 128) (k1 + p.2)
        let n := { r with partials := r.partials ++ [(router, p.1)] }
        if router = setRootTower (s.lease l).words * 128 + setRootCluster (s.lease l).words then
          s.unit (router * 16) (.anchor l) fun s => (s.towerWrap 0xB201 (router / 128) (k1 + p.2)).finishRound l n c p.1 (.anchor l)
        else (u.setLease l { s.lease l with round := some n }).postPartial (s.lease l) router r.serial p.1.length) := by
  refine congrArg Host.Outcome.next ?_
  dsimp only
  rw [hround]
  dsimp only
  rw [hgot]
  refine (if_neg ?_).trans ?_
  · rw [hstate, hst, hr, hp, hin]; decide
  · rfl

/-- The root's merger, once all have contributed. -/
theorem fallbackMerge_eq {l : Nat} {r : Round} {c : Contribution} {cs : List Contribution} (hround : (s.lease l).round = some r)
    (hgot : r.got = c :: cs) (hst : r.status = none) (hr : s.running = true) (hstate : (s.lease l).state = 2)
    (hgroup : s.takesGroup l = false)
    (hp : r.partials.any (·.1 == setRootTower (s.lease l).words * 128 + setRootCluster (s.lease l).words) = false)
    (hall : r.contributors.all (fun k => r.got.any (·.core == k)) = true) :
    exec (.fallbackMerge l) s = .next (
      let root := setRootTower (s.lease l).words * 128 + setRootCluster (s.lease l).words
      let engine := (((List.range 16).map fun i => root * 16 + i).find? s.inService).getD (root * 16)
      let who := Agent.dma engine (mergerId l)
      s.unit engine who fun s' =>
        let (q, ds, s1) := s'.readSpans who
          ((List.range r.contributors.length).map fun i => (setFallbackAddr (s.lease l).words + i * c.len, c.len))
        if q.waiting then s1
        else if q.status ≠ 0 then s1.setLease l { s1.lease l with round := some { r with status := some q.status } }
        else
          let r' := { r with
            got := r.got.map fun g => { g with data := ((List.zip r.contributors ds).find? (·.1 == g.core)).elim [] (·.2) } }
          let p := mergeTree (s.lease l).words r' c.rtype (s1.roundInputs l (s.lease l).words) 64 root
          ((s1.towerWrap 0xB201 (root / 128) p.2).towerWrap 0xB603 (root / 128) 1).finishRound l
            { r with partials := r.partials ++ [(root, p.1)] } c p.1 who) := by
  refine congrArg Host.Outcome.next ?_
  dsimp only
  rw [hround]
  dsimp only
  rw [hgot]
  refine (if_neg ?_).trans ?_
  · rw [hgot] at hall
    rw [hstate, hst, hr, hgroup, hp, hall, Bool.false_and]; decide
  · rfl

theorem redDone_eq {l : Nat} {r : Round} (remote : Option Status) (hround : ((s.reachEnds l).lease l).round = some r) :
    exec (.redDone l remote) s = .next (
      match (if (s.reachEnds l).remoteRoot l then remote else r.status) with
      | none => s.reachEnds l
      | some st =>
        if !((s.reachEnds l).remoteRoot l || (s.reachEnds l).roundFull r) || !(s.reachEnds l).running then s.reachEnds l
        else
          let t := (((s.reachEnds l).tellGroup l st).endRound l st).settleGroup l
          if st = 0 then t.towerWrap 0xB602 (l / 256) 1 else t) := by
  refine congrArg Host.Outcome.next ?_
  dsimp only
  rw [hround] <;> rfl

/-- Settles O40. -/
theorem reductionsRunInRounds : Obligations.ReductionsRunInRounds := by
  unfold Obligations.ReductionsRunInRounds
  refine ⟨?reduce, State.joinRound_got, ?merge, ?ends⟩
  case reduce =>
    intro s s1 core l d data remote lease ws n who t c hr hd
    have hexec : exec (.reduce core remote) s = .next (s.unit core who fun s => s.reduce core d remote) := by
      refine congrArg Host.Outcome.next ((if_neg (by rw [hr]; decide)).trans ?_)
      dsimp only
      split
      next d' hd' =>
        obtain rfl : d' = d := Option.some.inj (hd'.symm.trans hd)
        rfl
      next hd' => exact absurd (hd'.symm.trans hd) (Option.some_ne_none d).symm
    refine ⟨fun h => hexec.trans (congrArg _ (State.unit_of_settled_eq rfl h)),
      fun h => hexec.trans (congrArg _ (State.asking_eq_of_unit rfl h)), ?_⟩
    intro hl hstate hwf hn h4 hmax hg hdest hbroken hmem hsent hread hw
    subst hl
    have hred := State.reduce_of_read hstate hwf hn h4 hmax hg hdest hbroken hmem hsent hread hw
    exact ⟨fun hst => hred.trans (if_neg (not_not.mpr hst)), fun hst => hred.trans (if_pos hst)⟩
  case merge =>
    intro s s1 l router k1 r c cs inputs lease root hround hgot hst hr
    refine ⟨?_, ?_⟩
    · intro hstate hp hin p u n t
      have hexec := redPartial_eq hround hgot hst hr hstate hp hin
      refine ⟨fun hi => ?_, fun hi hroot => ?_, fun hi hroot => ?_⟩
      · rw [hexec, hi]
      · rw [hexec, hi]
        exact congrArg _ (if_neg hroot)
      · have hunit : exec (.redPartial l router) s = .next (s.unit (router * 16) (.anchor l)
            fun s => (s.towerWrap 0xB201 (router / 128) (k1 + p.2)).finishRound l n c p.1 (.anchor l)) := by
          rw [hexec, hi]
          exact congrArg _ (if_pos hroot)
        exact ⟨fun h => hunit.trans (congrArg _ (State.unit_of_settled_eq rfl h)),
          fun h => hunit.trans (congrArg _ (State.asking_eq_of_unit rfl h))⟩
    · intro q ds hstate hgroup hp hall engine who run hread r' p t u
      have hexec := fallbackMerge_eq hround hgot hst hr hstate hgroup hp hall
      refine ⟨fun hw h => hexec.trans (congrArg _ (State.asking_eq_of_unit ?_ h)),
        fun hw hq h => hexec.trans (congrArg _ (State.unit_of_settled_eq ?_ h)), fun hw hq => ?_⟩
      · dsimp only; rw [hread]; exact if_pos hw
      · dsimp only; rw [hread]; exact (if_neg (ne_true_of_eq_false hw)).trans (if_pos hq)
      · have hbody : (match s.readSpans who
            ((List.range r.contributors.length).map fun i => (setFallbackAddr lease.words + i * c.len, c.len)) with
          | (q, ds, s1) =>
            if q.waiting then s1
            else if q.status ≠ 0 then s1.setLease l { s1.lease l with round := some { r with status := some q.status } }
            else
              let r' := { r with
                got := r.got.map fun g => { g with data := ((List.zip r.contributors ds).find? (·.1 == g.core)).elim [] (·.2) } }
              let p := mergeTree lease.words r' c.rtype (s1.roundInputs l lease.words) 64 root
              ((s1.towerWrap 0xB201 (root / 128) p.2).towerWrap 0xB603 (root / 128) 1).finishRound l
                { r with partials := r.partials ++ [(root, p.1)] } c p.1 who) = t := by
          rw [hread]
          exact (if_neg (ne_true_of_eq_false hw)).trans (if_neg (not_not.mpr hq))
        exact ⟨fun h => hexec.trans (congrArg _ (State.unit_of_settled_eq hbody h)),
          fun h => hexec.trans (congrArg _ (State.asking_eq_of_unit hbody h))⟩
  case ends =>
    intro s l r st
    refine ⟨?_, fun hround hr hroot htime hmiss => ?_, fun h => ?_⟩
    · intro u t last
      refine ⟨fun hround hr => ⟨fun hroot hst => ?_, fun hroot hst hfull => ?_, fun hroot => ?_⟩, fun hround => ?_⟩
      · rw [redDone_eq none hround, if_neg (ne_true_of_eq_false hroot), hst]
      · rw [redDone_eq none hround, if_neg (ne_true_of_eq_false hroot), hst]
        exact congrArg Host.Outcome.next (if_neg (by rw [hfull, hr, Bool.or_true]; decide))
      · rw [redDone_eq (some st) hround, if_pos hroot]
        exact congrArg Host.Outcome.next (if_neg (by rw [hroot, hr]; exact Bool.false_ne_true))
      · refine congrArg Host.Outcome.next ?_
        dsimp only
        rw [hround]
        rfl
    · refine congrArg Host.Outcome.next ?_
      rw [hround]
      have hmissing : (!(r.contributors.all fun c => r.got.any (·.core == c)) ||
          (s.takesGroup l && !(r.partials.any (·.1 == groupKey)))) = true := by
        rcases hmiss with h | ⟨h, hp⟩
        · rw [h]; rfl
        · rw [h, hp]; exact Bool.or_true _
      exact if_neg (by rw [hr, hroot, hmissing, decide_eq_false (Nat.not_lt.mpr htime)]; decide)
    · refine congrArg Host.Outcome.next ?_
      cases hround : (s.lease l).round with
      | none => rfl
      | some r =>
        refine if_pos ?_
        rw [h.resolve_right (by rw [hround]; exact Option.some_ne_none r)]
        rfl

end Sys2Proof.Machine
end

section
/-! PROOFS. Sync objects (R387 to R391, R399). -/
namespace Sys2Proof.Machine
variable {s t u v w b : State}

/-! ### Sync objects (R387 to R391, R399) -/

/-- `t` is `b` but for sync messages, releases, tokens, packets and what is sent. -/
def Messaged (b t : State) : Prop := ∃ M L F P O, t = { b with syncMsgs := M, releases := L, fresh := F, packets := P, out := O }

theorem Messaged.refl (s : State) : Messaged s s := ⟨_, _, _, _, _, rfl⟩

theorem Messaged.trans (h1 : Messaged b s) (h2 : Messaged s t) : Messaged b t := by
  obtain ⟨_, _, _, _, _, rfl⟩ := h1
  obtain ⟨_, _, _, _, _, rfl⟩ := h2
  exact ⟨_, _, _, _, _, rfl⟩

theorem Messaged.post (s : State) (p : Packet) : Messaged s (s.post p) := ⟨_, _, _, _, _, s.post_eq p⟩

theorem Messaged.send (s : State) (o : Output) : Messaged s (s.send o) := ⟨_, _, _, _, _, rfl⟩

theorem Messaged.withSyncs (s : State) (M : List SyncMsg) (F : Nat) : Messaged s { s with syncMsgs := M, fresh := F } :=
  ⟨_, _, _, _, _, rfl⟩

theorem Messaged.foldl {α : Type} {l : List α} {f : State → α → State} (hf : ∀ u e, Messaged u (f u e)) (s : State) :
    Messaged s (l.foldl f s) := by
  induction l generalizing s with
  | nil => exact .refl _
  | cons e l ih => exact (hf s e).trans (ih _)

theorem Messaged.atEngine (s : State) (id : Nat) : Messaged s (s.atEngine id) := .withSyncs ..

theorem Messaged.syncAbroad (s : State) (m : SyncMsg) : Messaged s (s.syncAbroad m) := by
  unfold State.syncAbroad
  dsimp only
  split
  · exact .withSyncs ..
  · split
    · exact (Messaged.withSyncs s _ s.fresh).trans (.post ..)
    · exact (Messaged.withSyncs s _ s.fresh).trans (.send ..)

theorem Messaged.postSync (s : State) (id : Nat) (answer : Bool) : Messaged s (s.postSync id answer) := by
  unfold State.postSync
  split
  · exact .refl _
  · dsimp only
    split
    · exact .syncAbroad ..
    · split
      · exact .refl _
      · split
        · split
          · exact .post ..
          · split
            · exact .atEngine ..
            · exact .post ..
        · split
          · exact .refl _
          · exact .atEngine ..

theorem Messaged.replySync (s : State) (id : Nat) (reply : Status × Word32) : Messaged s (s.replySync id reply) :=
  (Messaged.withSyncs ..).trans (.postSync ..)

/-- A broadcast sends messages, and leaves the object released with none waiting. -/
theorem State.broadcast_eq (s : State) (o : Nat) (st : Status) :
    ∃ t, Messaged s t ∧ s.broadcast o st = t.setSyncObj o { s.syncObj o with armed := false, clusters := [], devices := [] } :=
  ⟨_, .trans (.trans ⟨_, _, _, _, _, rfl⟩ (.foldl (fun _ _ => .post ..) _)) (.foldl (fun _ _ => .send ..) _), rfl⟩

theorem State.syncObj_setSyncObj_same (s : State) (o : Nat) (x : SyncObj) :
    (s.setSyncObj o x).syncObj o = x := Map.get_set_same _ _ _ _

theorem State.broadcast_count (s : State) (o : Nat) (st : Status) : ((s.broadcast o st).syncObj o).count = (s.syncObj o).count := by
  obtain ⟨t, -, h⟩ := s.broadcast_eq o st
  rw [h, State.syncObj_setSyncObj_same]

theorem State.broadcast_regs (s : State) (o : Nat) (st : Status) : (s.broadcast o st).regs = s.regs := by
  obtain ⟨t, ⟨_, _, _, _, _, rfl⟩, h⟩ := s.broadcast_eq o st
  rw [h]; rfl

theorem objectAdd_eq {id : Nat} {m : SyncMsg} (h : s.syncTurn id .add = some m) :
    exec (.objectAdd id) s = .next (
      let o := m.object % 2 ^ 13
      let v := s.syncObj o
      let sum := v.count.toNat + m.value.toNat
      let u := (if 0xFFFFFFFF < sum then s.towerSat 0xB607 (o / 1024) 1 else s).setSyncObj o
        { v with count := BitVec.ofNat 32 (min sum 0xFFFFFFFF) }
      (if m.value ≠ 0 && v.armed && v.target.toNat ≤ min sum 0xFFFFFFFF then u.releaseObj o else u).replySync id (0, 0)) := by
  refine congrArg Host.Outcome.next ?_
  rw [h]
  have hmin (n : Nat) : (BitVec.ofNat 32 (min n 0xFFFFFFFF)).toNat = min n 0xFFFFFFFF := by
    rw [BitVec.toNat_ofNat, Nat.mod_eq_of_lt (by omega)]
  dsimp only
  rw [hmin]

/-- A release keeps the count. -/
theorem State.releaseObj_count (s : State) (o : Nat) : ((s.releaseObj o).syncObj o).count = (s.syncObj o).count := s.broadcast_count o 0

/-- A release counts in SYNC_RELEASES alone. -/
theorem State.releaseObj_reg (s : State) (o : Nat) {idx sub : Nat} (h : idx * 256 + sub ≠ 0xB606 * 256 + (o / 1024 + 1)) :
    (s.releaseObj o).reg idx sub = s.reg idx sub := by
  refine (State.reg_setReg_of_ne _ _ h).trans ?_
  unfold State.reg
  rw [State.broadcast_regs]

theorem State.replySync_syncObj (s : State) (id o : Nat) (reply : Status × Word32) :
    (s.replySync id reply).syncObj o = s.syncObj o := by
  obtain ⟨_, _, _, _, _, h⟩ := Messaged.replySync s id reply
  rw [h]; rfl

theorem State.replySync_reg (s : State) (id idx sub : Nat) (reply : Status × Word32) :
    (s.replySync id reply).reg idx sub = s.reg idx sub := by
  obtain ⟨_, _, _, _, _, h⟩ := Messaged.replySync s id reply
  rw [h]; rfl

/-- An operation without an answer is not behind one. -/
theorem State.syncBehind_of_no_reply {m : SyncMsg} (h : m.reply = none) : s.syncBehind m = false := by
  unfold State.syncBehind
  split
  · rw [h]; rfl
  · rfl

/-- Settles O41. -/
theorem syncObjectOperations : Obligations.SyncObjectOperations := by
  unfold Obligations.SyncObjectOperations
  intro s id cluster object m st x rel v o obj sum counted
  refine ⟨fun h hsum => ?add, fun h hsum => ?saturated, fun h ha => ?waitReleased, fun h ha => ?waitArmed, fun h => ?read, fun h => ?arm,
    fun hf hr hno hown => ?abroad, fun hf hr hrep hb => ?answer, fun hr hf hb hin => ?release, fun hr hown hmem => ?releaseAll,
    fun hl ht => ?reset⟩
  case add =>
    intro u
    rw [objectAdd_eq h]
    refine congrArg (fun t : State => Host.Outcome.next (t.replySync id (0, 0))) ?_
    rw [if_neg (Nat.not_lt.mpr hsum)]
    refine if_congr ?_ rfl rfl
    rw [Bool.and_eq_true, Bool.and_eq_true, decide_eq_true_eq, decide_eq_true_eq, Nat.min_eq_left hsum, and_assoc]
  case saturated =>
    refine ⟨_, objectAdd_eq h, ?_⟩
    have hobj : BitVec.ofNat 32 (min sum 0xFFFFFFFF) = 0xFFFFFFFF := by rw [Nat.min_eq_right (Nat.le_of_lt hsum)]; rfl
    dsimp only
    rw [if_pos hsum, State.replySync_syncObj, State.replySync_reg]
    have hreg : ((s.towerSat 0xB607 (o / 1024) 1).setSyncObj o { obj with count := BitVec.ofNat 32 (min sum 0xFFFFFFFF) }).reg 0xB607
        (o / 1024 + 1) = min (s.reg 0xB607 (o / 1024 + 1) + 1) 0xFFFFFFFF := State.reg_setReg_same ..
    have hcount : (((s.towerSat 0xB607 (o / 1024) 1).setSyncObj o { obj with count := BitVec.ofNat 32 (min sum 0xFFFFFFFF) }).syncObj
        o).count = 0xFFFFFFFF := by rw [State.syncObj_setSyncObj_same]; exact hobj
    split
    · exact ⟨(State.releaseObj_count ..).trans hcount, (State.releaseObj_reg _ _ (by omega)).trans hreg⟩
    · exact ⟨hcount, hreg⟩
  case waitReleased =>
    refine congrArg Host.Outcome.next ?_
    rw [h]
    exact if_pos (by rw [show (s.syncObj (m.object % 2 ^ 13)).armed = false from ha]; rfl)
  case waitArmed =>
    have hexec : exec (.objectWait id) s = .next ((s.setSyncObj o (match m.target with
          | .remote dev _ => { obj with devices := if obj.devices.contains dev then obj.devices else obj.devices ++ [dev] }
          | t => match t.cluster with
            | some c => { obj with clusters := if obj.clusters.contains c then obj.clusters else obj.clusters ++ [c] }
            | none => obj)).replySync id (0, 1)) := by
      refine congrArg Host.Outcome.next ?_
      rw [h]
      exact if_neg (by rw [show (s.syncObj (m.object % 2 ^ 13)).armed = true from ha]; decide)
    refine ⟨fun c hc => ?_, fun dev tag htag => ?_⟩
    · rw [hexec]
      split
      next dev tag htag =>
        rw [htag] at hc
        exact absurd hc (Option.some_ne_none c).symm
      next => rw [hc]
    · rw [hexec, htag]
  case read =>
    refine congrArg Host.Outcome.next ?_
    rw [h]
  case arm =>
    refine congrArg Host.Outcome.next ?_
    rw [h]
  case abroad =>
    have hexec (r : Option (Status × Word32)) : exec (.syncRsp id r) s = .next (
        if !s.memberDevice (m.object / 2 ^ 13) then s.giveSync m 0x07 0
        else match r with
          | some (st, v) => s.giveSync m st v
          | none => s) := by
      refine congrArg Host.Outcome.next ?_
      rw [hf]
      refine (if_neg ?_).trans ((if_neg (by rw [hno]; exact Bool.false_ne_true)).trans (if_neg (ne_true_of_eq_false hown)))
      rw [hr, State.syncBehind_of_no_reply hno]
      decide
    refine ⟨fun hmem r => (hexec r).trans (congrArg _ (if_pos (by rw [hmem]; rfl))),
      fun hmem => ⟨(hexec _).trans (congrArg _ ?_), (hexec _).trans (congrArg _ ?_)⟩⟩
    · exact if_neg (by rw [hmem]; decide)
    · exact if_neg (by rw [hmem]; decide)
  case answer =>
    refine ⟨congrArg Host.Outcome.next ?_, fun dev tag htag => ?_, fun core ctx token hop htag => ?_, fun core ctx token htag hop => ?_,
      fun core ctx token htag hop hst hx => ?_⟩
    · rw [hf]
      refine (if_neg (by rw [hr, hb]; decide)).trans ((if_pos (by rw [hrep]; rfl)).trans ?_)
      rw [hrep]
      rfl
    · unfold State.giveSync
      dsimp only
      rw [htag]
    · unfold State.giveSync
      dsimp only
      rw [hop, htag]
    · unfold State.giveSync
      dsimp only
      rw [htag]
      rcases hop with hop | hop | ⟨hop, hx⟩
      · rw [hop]
      · rw [hop]
      · rw [hop]
        exact if_neg (by simpa using fun h => hx.resolve_left (not_not.mpr h))
    · unfold State.giveSync
      dsimp only
      rw [hop, htag]
      exact if_pos (by rw [hst, decide_eq_true hx]; rfl)
  case release =>
    refine congrArg Host.Outcome.next ((if_neg (by rw [hr]; decide)).trans ?_)
    dsimp only
    rw [hf]
    exact if_neg (by rw [hb, hin]; decide)
  case releaseAll =>
    refine congrArg Host.Outcome.next ((if_neg (by rw [hr]; decide)).trans (if_neg (by rw [hown, hmem]; decide)))
  case reset =>
    refine ⟨_, congrArg Host.Outcome.next ((State.written_of_steward hl).trans (if_neg ?_)), rfl, ?_⟩
    · rw [ht]
      exact Bool.false_ne_true
    · exact State.syncObj_setSyncObj_same _ _ _

end Sys2Proof.Machine
end

section
/-! PROOFS. Descriptors of the DMA engine (R111, R416 to R420, R447, R451, R457 to R459, R709). -/
namespace Sys2Proof.Machine
variable {s t u v w : State}

/-! ### Descriptors of the DMA engine's own modes (R111, R416 to R420, R447, R709) -/

/-- A transfer ends with OK only once all that was read is written. -/
theorem State.advance_ok {who : Agent} {prod : Option Nat} {dst : Nat} {reads : List (Nat × Nat)} {r : ReadResult} {used : Nat → Nat}
    (h : (s.advance who prod dst reads r used).1 = 0) :
    r.waiting = false ∧ r.status = 0 ∧ (s.writtenSoFar who (pieces dst r.bytes.length) r.bytes).2 = 0 := by
  unfold State.advance at h
  dsimp only at h
  split at h
  next hfail =>
    rw [show (s.writtenSoFar who (readyLines dst r) r.bytes).2 = 0 from h] at hfail
    exact absurd hfail (by decide)
  next =>
    dsimp only at h
    split at h
    next => exact absurd h (by decide)
    next hdone =>
      rw [Bool.or_eq_true, not_or, Bool.not_eq_true, decide_eq_true_eq, not_not] at hdone
      obtain ⟨hw, hst⟩ := hdone
      refine ⟨hw, h, ?_⟩
      rwa [show readyLines dst r = pieces dst r.bytes.length from if_neg (ne_true_of_eq_false hw)] at hst

/-- A descriptor that has ended is not without a status. -/
theorem State.endDma_ended (s : State) (core id : Nat) (st : Status) :
    (((s.endDma core id st).core core).dma.any fun e => e.id == id && e.status.isNone) = false := by
  rw [List.any_eq_false]
  intro e he
  change e ∈ ((s.setCore core _).core core).dma at he
  rw [State.core_setCore_same] at he
  obtain ⟨d, -, rfl⟩ := List.mem_map.mp he
  split
  · simp
  next h => simpa using h

theorem State.units_of_settled_one {core : Nat} {who : Agent} {body : State → Option State} (h : body s = some t) (hs : t.Settled who) :
    s.units core [who] body = t.linesTaken who := by
  have h : s.units core [who] body = _ := State.units_of_settled h (by simpa using hs)
  simpa [State.linesTaken, bne] using h

/-- The engine's oldest descriptor of a mode, whose work has ended. -/
theorem State.runDma_of_ended {core : Nat} {mode : Nat → Bool} {work : State → DmaDesc → State} {d : DmaDesc} {st : Status}
    (hr : s.running = true) (hf : (s.core core).dma.find? (fun d =>
      (d.words.headD 0).toNat / 2 ^ 40 % 256 == 2 && d.status.isNone && mode (dmaMode d.words)) = some d)
    (hw : work s d = t.endDma core d.id st) (hs : (t.endDma core d.id st).Settled (.dma core d.id)) :
    s.runDma core mode work = (t.endDma core d.id st).linesTaken (.dma core d.id) := by
  refine (if_neg (by rw [hr]; decide)).trans ?_
  rw [hf]
  refine State.units_of_settled_one (t := t.endDma core d.id st) ?_ hs
  dsimp only
  rw [hw]
  exact if_pos (by rw [State.endDma_ended, Bool.not_false, Bool.or_true])

/-- The engine's oldest descriptor of a mode, whose work waits for lines. -/
theorem State.runDma_of_awaits {core : Nat} {mode : Nat → Bool} {work : State → DmaDesc → State} {d : DmaDesc}
    (hr : s.running = true) (hf : (s.core core).dma.find? (fun d =>
      (d.words.headD 0).toNat / 2 ^ 40 % 256 == 2 && d.status.isNone && mode (dmaMode d.words)) = some d)
    (ha : (work s d).Awaits [.dma core d.id]) : s.runDma core mode work = s.asking (work s d) := by
  refine (if_neg (by rw [hr]; decide)).trans ?_
  rw [hf]
  refine State.units_of_awaits (t := work s d) (if_pos ?_) ha
  obtain ⟨⟨r, hr, w, hw, hsrc, hunder⟩, -⟩ := ha
  obtain rfl := List.mem_singleton.mp hw
  rw [Bool.or_eq_true]
  refine .inl (List.any_eq_true.mpr ⟨r, hr, ?_⟩)
  rw [hsrc, hunder, Bool.and_true]
  exact beq_self_eq_true _

/-- A scrub whose checks pass is its channel's. -/
theorem State.scrubWork_of_ok {core : Nat} {d : DmaDesc} (hwf : scrubWellFormed d.words = true) (hn : tileField d.words 2 63 32 ≠ 0)
    (hiss : s.issuer (tileField d.words 1 47 0 / dramTower * 2048 + tileField d.words 1 47 0 % dramTower / channelBytes) = some core)
    (hloc : tileField d.words 1 47 0 < 8 * dramTower) (hal : tileField d.words 1 47 0 % 64 = 0)
    (hn64 : tileField d.words 2 63 32 % 64 = 0)
    (hmax : tileField d.words 2 63 32 ≤ 2 ^ 26) (hsum : tileField d.words 3 47 0 % 64 = 0)
    (hst : s.dmaChecks (coreTower core)
      [(s.ownAddr (tileField d.words 1 47 0), tileField d.words 2 63 32), (s.ownAddr (tileField d.words 3 47 0), 64)] true = 0) :
    s.scrubWork core d =
      let k := tileField d.words 1 47 0 / dramTower * 2048 + tileField d.words 1 47 0 % dramTower / channelBytes
      let first := tileField d.words 1 47 0 % channelBytes / 64
      s.setChannel k { s.channel k with scrubs := (s.channel k).scrubs ++
        [{ core := core, desc := d.id, next := first, stop := first + tileField d.words 2 63 32 / 64,
           summary := tileField d.words 3 47 0 }] } := by
  unfold State.scrubWork
  dsimp only
  rw [if_neg (by rw [hwf]; decide), if_neg hn, hiss, decide_eq_true hloc, hal, hn64, decide_eq_true hmax, hsum]
  refine (if_neg Bool.false_ne_true).trans (if_neg (not_not.mpr ?_))
  rw [beq_self_eq_true, beq_self_eq_true]
  exact hst

/-- Settles O42. -/
theorem dmaDescriptorsAndScrubs : Obligations.DmaDescriptorsAndScrubs := by
  unfold Obligations.DmaDescriptorsAndScrubs
  refine ⟨fun _ _ _ _ _ _ _ h => State.advance_ok h, ?_⟩
  intro s s1 s2 s3 s4 core ch d r q w p rest remote answers ack hr ws n src dst who tower first ends awaits checks own
  refine ⟨fun hf => ?copy, fun hf => ?fill, fun hf => ?gather, fun hf => ?skew, fun hf => ?complete, ?scrub, ?scrubComplete⟩
  case copy =>
    intro st noted reads x c
    have hends {t : State} {y : Status} (h : s.copyWork core remote ack d = t.endDma core d.id y) : ends c t y :=
      fun hs => congrArg Host.Outcome.next (State.runDma_of_ended hr hf h hs)
    refine ⟨⟨fun hwf => hends (if_pos (by rw [hwf]; rfl)), fun hwf h0 => hends ((if_neg (by rw [hwf]; decide)).trans (if_pos h0)),
      fun hwf h0 hst => hends ((if_neg (by rw [hwf]; decide)).trans ((if_neg h0).trans (if_pos hst)))⟩,
      fun ha => congrArg Host.Outcome.next (State.runDma_of_awaits hr hf ha), fun hwf h0 hst hhome hx => hends ?_,
      fun hwf h0 hst hans hown hread hw hwr hdone => hends ?_⟩
    · refine (if_neg (by rw [hwf]; decide)).trans ((if_neg h0).trans ((if_neg (not_not.mpr hst)).trans ((if_pos ?_).trans (if_neg hx))))
      rw [Bool.or_eq_true, Bool.and_eq_true, Bool.and_eq_true, Option.isNone_iff_eq_none, Option.isNone_iff_eq_none]
      exact hhome
    · refine (if_neg (by rw [hwf]; decide)).trans ((if_neg h0).trans ((if_neg (not_not.mpr hst)).trans ((if_neg ?_).trans ?_)))
      · rw [Bool.or_eq_true, Bool.and_eq_true, Bool.and_eq_true, Option.isNone_iff_eq_none, Option.isNone_iff_eq_none]
        rintro (⟨h1, h2⟩ | h)
        · exact hans.elim (· h1) (· h2)
        · exact hown h
      · rw [hread]
        refine (if_neg (ne_true_of_eq_false hw)).trans ?_
        rw [hwr]
        exact if_neg hdone
  case fill =>
    intro st c
    have hends {t : State} {y : Status} (h : s.fillWork core ack d = t.endDma core d.id y) : ends c t y :=
      fun hs => congrArg Host.Outcome.next (State.runDma_of_ended hr hf h hs)
    refine ⟨⟨fun hwf => hends (if_pos (by rw [hwf]; rfl)), fun hwf h0 => hends ((if_neg (by rw [hwf]; decide)).trans (if_pos h0)),
      fun hwf h0 hst => hends ((if_neg (by rw [hwf]; decide)).trans ((if_neg h0).trans (if_pos hst)))⟩,
      fun ha => congrArg Host.Outcome.next (State.runDma_of_awaits hr hf ha), fun hwf h0 hst hwr hdone => hends ?_⟩
    refine (if_neg (by rw [hwf]; decide)).trans ((if_neg h0).trans ((if_neg (not_not.mpr hst)).trans ?_))
    rw [hwr]
    exact if_neg hdone
  case gather =>
    intro size base st g x c
    have hends {t : State} {y : Status} (h : s.gatherWork core answers ack d = t.endDma core d.id y) : ends c t y :=
      fun hs => congrArg Host.Outcome.next (State.runDma_of_ended hr hf h hs)
    refine ⟨⟨fun hwf => hends (if_pos (by rw [hwf]; rfl)),
      fun hwf h0 => hends ((if_neg (by rw [hwf]; decide)).trans (if_pos (by simpa using h0))),
      fun hwf h0 hst => hends ?_⟩,
      fun ha => congrArg Host.Outcome.next (State.runDma_of_awaits hr hf ha), fun hwf h0 hsize hst hhome hx => hends ?_⟩
    · refine (if_neg (by rw [hwf]; decide)).trans ((if_neg (by simpa using h0)).trans ?_)
      by_cases hmem : s.memberDevice (base / 2 ^ 48 % 64) = true
      · have hchecks : st = _ := if_pos hmem
        exact (if_neg (by rw [hmem]; decide)).trans ((if_pos (hchecks ▸ hst)).trans (congrArg _ hchecks.symm))
      · have hchecks : st = _ := if_neg hmem
        exact (if_pos (by simpa using hmem)).trans (congrArg _ hchecks.symm)
    · have hmem : s.memberDevice (base / 2 ^ 48 % 64) = true := by
        by_contra hmem
        have hchecks : st = _ := if_neg hmem
        exact absurd (hchecks.symm.trans hst) (by decide)
      have hchecks : st = _ := if_pos hmem
      refine (if_neg (by rw [hwf]; decide)).trans ((if_neg ?_).trans ((if_neg (by rw [hmem]; decide)).trans
        ((if_neg (not_not.mpr (hchecks.symm.trans hst))).trans ((if_pos ?_).trans (if_neg hx)))))
      · rw [Bool.or_eq_true, decide_eq_true_eq, decide_eq_true_eq, not_or]
        exact ⟨h0, hsize⟩
      · rw [Bool.or_eq_true, Option.isNone_iff_eq_none]
        exact hhome
  case skew =>
    intro x srcScale dstScale mask el st c
    have hends {t : State} {y : Status} (h : s.skewWork core remote ack d = t.endDma core d.id y) : ends c t y :=
      fun hs => congrArg Host.Outcome.next (State.runDma_of_ended hr hf h hs)
    refine ⟨⟨fun hwf => hends (if_pos (by rw [hwf]; rfl)),
      fun hwf h0 => hends ((if_neg (by rw [hwf]; decide)).trans (if_pos (by simpa using h0))),
      fun hwf h0 hst => hends ((if_neg (by rw [hwf]; decide)).trans ((if_neg (by simpa using h0)).trans (if_pos hst)))⟩,
      fun ha => congrArg Host.Outcome.next (State.runDma_of_awaits hr hf ha), ?_⟩
    intro hwf hm hk hst hsrc hread hw hrst hscale hqw hq hstring hscales hdone
    refine hends ((if_neg (by rw [hwf]; decide)).trans ((if_neg ?_).trans ((if_neg (not_not.mpr hst)).trans ?_)))
    · rw [Bool.or_eq_true, decide_eq_true_eq, decide_eq_true_eq, not_or]
      exact ⟨hm, hk⟩
    · rw [if_neg hsrc, hread]
      refine (if_neg (ne_true_of_eq_false hw)).trans ?_
      dsimp only
      rw [if_neg (not_not.mpr hrst), hscale]
      refine (if_neg (ne_true_of_eq_false hqw)).trans ((if_pos (by rw [hrst, hq]; rfl)).trans ?_)
      dsimp only
      rw [hstring, if_pos rfl, hscales]
      exact if_neg hdone
  case complete =>
    refine congrArg Host.Outcome.next ((if_neg (by rw [hr]; decide)).trans ?_)
    rw [hf]
  case scrub =>
    intro start len summary k c hf hwf hn hiss hloc hal hn64 hmax hsum hst pass
    refine congrArg Host.Outcome.next ?_
    dsimp only
    rw [hf]
    exact (if_pos hr).trans (State.scrubWork_of_ok hwf hn hiss hloc hal hn64 hmax hsum hst)
  case scrubComplete =>
    intro c who hscrubs hend hfl hwb hwr t
    have hexec : exec (.scrubComplete ch) s = .next (s.unit p.core who fun s =>
        let (w, s) := (s.setChannel ch { s.channel ch with scrubs := rest }).writeRange p.summary (p.record ch) none who
        s.endDma p.core p.desc (if w = 0 then p.status else w)) := by
      refine congrArg Host.Outcome.next ?_
      dsimp only
      rw [hscrubs]
      exact if_neg (by rw [hr, hfl, hwb, ← Bool.decide_or, decide_eq_true hend]; decide)
    have hbody : (let (w, s) := (s.setChannel ch { s.channel ch with scrubs := rest }).writeRange p.summary (p.record ch) none who
        s.endDma p.core p.desc (if w = 0 then p.status else w)) = t := by
      dsimp only
      rw [hwr]
    exact ⟨fun h => hexec.trans (congrArg _ (State.unit_of_settled_eq hbody h)),
      fun h => hexec.trans (congrArg _ (State.asking_eq_of_unit hbody h))⟩

end Sys2Proof.Machine
end

section
/-! PROOFS. Recovery and write-back control (R443 to R448, R451, R453, R454). -/
namespace Sys2Proof.Machine
variable {s t u v w : State}

/-! ### Recovery, write-back control and lanes (R443 to R448, R451, R453, R454) -/

/-- What the end of a refetch does. -/
def State.endRefetch (s : State) (line : Nat) (remote : Option (Status × List Byte)) : State :=
  match (s.copyRecords line).find? (·.coversLine line) with
  | none => s.endRecovery line (s.crcOk line) 0
  | some r =>
    let (q, s) := s.refetchLine line r remote
    if q.waiting then s
    else if q.status ≠ 0 then s.endRecovery line false 0
    else ((s.poke (line * 64) q.bytes).setCrc line 0).endRecovery line true 0

theorem refetchComplete_eq {line : Nat} (remote : Option (Status × List Byte)) (hr : s.running = true)
    (hany : s.mem.recoveries.any (fun r => r.line == line && r.kind == .refetch) = true) :
    exec (.refetchComplete ⟨line, remote⟩) s = .next (s.unit (sramUnit line) (.refetch line) fun s => s.endRefetch line remote) :=
  congrArg Host.Outcome.next (if_neg (by rw [hr]; exact fun h => absurd (h.symm.trans (congrArg not hany)) (by decide)))

/-- What WB_LOG_CLEAR names. -/
def wbNamed (t : Nat) (v : Byte) (k : Nat) : Bool := k / 64 == t && (v.getLsbD 6 || k % 64 == v.toNat % 64)

theorem wbNamed_iff {t k : Nat} {v : Byte} : wbNamed t v k = true ↔ k / 64 = t ∧ (v.getLsbD 6 = true ∨ k % 64 = v.toNat % 64) := by
  simp [wbNamed]

/-- The log of a tower after WB_LOG_CLEAR (R446). -/
def State.clearedLog (s : State) (t : Nat) (v : Byte) : List (Nat × WbEntry) :=
  (s.mem.wbLog.filter fun e => !wbNamed t v e.1 || e.2.refTime == s.refTime t).map fun e =>
    if wbNamed t v e.1 then (e.1, { e.2 with count := 1, kind := e.2.last, rewritten := false }) else e

theorem State.mem_clearedLog {t : Nat} {v : Byte} {x : Nat × WbEntry} : x ∈ s.clearedLog t v ↔
    (x ∈ s.mem.wbLog ∧ wbNamed t v x.1 = false) ∨ ∃ y ∈ s.mem.wbLog, wbNamed t v y.1 = true ∧ y.2.refTime = s.refTime t ∧
      x = (y.1, { y.2 with count := 1, kind := y.2.last, rewritten := false }) := by
  unfold State.clearedLog
  simp only [List.mem_map, List.mem_filter, Bool.or_eq_true, Bool.not_eq_true', beq_iff_eq]
  constructor
  · rintro ⟨y, ⟨hy, hstays⟩, rfl⟩
    cases hn : wbNamed t v y.1 with
    | true =>
      refine .inr ⟨y, hy, hn, ?_, if_pos rfl⟩
      exact hstays.resolve_left (by rw [hn]; decide)
    | false => exact .inl ⟨hy, hn⟩
  · rintro (⟨hx, hn⟩ | ⟨y, hy, hn, ht, rfl⟩)
    · exact ⟨x, ⟨hx, .inl hn⟩, if_neg (ne_true_of_eq_false hn)⟩
    · exact ⟨y, ⟨hy, .inr ht⟩, if_pos hn⟩

/-- The bits of WB_SUPPRESS written for the channels of a tower (R443). -/
@[irreducible] def suppressed (t : Nat) (bytes : List Byte) (m : Map Bool) : Map Bool :=
  (List.range 1280).foldl (fun m n => Map.set false m (t * 2048 + n) ((bytes.getD (n / 8) 0).getLsbD (n % 8))) m

theorem suppressed_same (t : Nat) (bytes : List Byte) (m : Map Bool) (n : Nat) :
    Map.get false (suppressed t bytes m) (t * 2048 + n) =
      if n ∈ List.range 1280 then (bytes.getD (n / 8) 0).getLsbD (n % 8) else Map.get false m (t * 2048 + n) := by
  unfold suppressed
  exact get_foldl_update (fun m n => Map.get false m (t * 2048 + n)) _ (fun n _ => (bytes.getD (n / 8) 0).getLsbD (n % 8))
    (fun _ _ => Map.get_set_same ..) (fun _ _ _ h => Map.get_set_of_ne _ _ _ (by omega)) List.nodup_range m n

theorem suppressed_other {t n : Nat} (bytes : List Byte) (m : Map Bool) (h : n / 2048 ≠ t) :
    Map.get false (suppressed t bytes m) n = Map.get false m n := by
  unfold suppressed
  refine List.foldlRecOn (motive := fun m' => Map.get false m' n = Map.get false m n) _ _ rfl fun m' hm' k hk => ?_
  have hk := List.mem_range.mp hk
  exact (Map.get_set_of_ne _ _ _ (by omega)).trans hm'

theorem wbSuppressWrite_eq {t : Nat} {bytes : List Byte} (hl : s.steward.lost = false) (ht : t < 8) (hlen : bytes.length = 160) :
    exec (.wbSuppressWrite t bytes) s = .next { s with mem := { s.mem with wbSuppress := suppressed t bytes s.mem.wbSuppress } } := by
  unfold suppressed
  refine congrArg Host.Outcome.next ((State.written_of_steward hl).trans (if_neg ?_))
  rw [decide_eq_false (Nat.not_le.mpr ht), hlen]
  decide

/-- A cleared log with an empty entry is not full (R445). -/
def State.stillFull (s : State) (t : Nat) (v : Byte) : Bool :=
  (List.range 64).all fun i => (s.clearedLog t v).any fun e => e.1 == t * 64 + i && e.2.kind != 0

theorem State.not_stillFull {t i : Nat} {v : Byte} (hi : i < 64) (h : ∀ x ∈ s.clearedLog t v, x.1 = t * 64 + i → x.2.kind = 0) :
    s.stillFull t v = false := by
  refine List.all_eq_false.mpr ⟨i, List.mem_range.mpr hi, ?_⟩
  rw [List.any_eq_true]
  rintro ⟨e, he, hok⟩
  rw [Bool.and_eq_true, beq_iff_eq, bne_iff_ne] at hok
  exact hok.2 (h e he hok.1)

/-- WB_LOG_CLEAR of a tower that is there. -/
def State.wbLogCleared (s : State) (t : Nat) (v : Byte) : State :=
  { s with mem := { s.mem with
      wbLog := s.clearedLog t v
      wbClearedAt := s.now + 1
      wbCleared := (s.mem.wbLog.filter fun e => !(!wbNamed t v e.1 || e.2.refTime == s.refTime t)).foldl (fun m e =>
        Map.set 0 m e.1 (e.2.channel.toNat * 2 ^ 20 + e.2.offset.toNat / 64 + 1))
        (if s.mem.wbClearedAt = s.now + 1 then s.mem.wbCleared else [])
      wbFull := if s.stillFull t v then s.mem.wbFull else Map.set 0 s.mem.wbFull t 0 } }

theorem wbLogClear_eq {t : Nat} {v : Byte} (hl : s.steward.lost = false) (ht : t < 8) :
    exec (.wbLogClear t v) s = .next (s.wbLogCleared t v) := by
  refine congrArg Host.Outcome.next ((State.written_of_steward hl).trans ?_)
  split
  next h => exact absurd h (Nat.not_le.mpr ht)
  next => rfl

/-- Settles O43. -/
theorem recoveryAndWriteBackControl : Obligations.RecoveryAndWriteBackControl := by
  unfold Obligations.RecoveryAndWriteBackControl
  intro s s1 line cluster entry t ch k addr r q bytes e v l remote
  refine ⟨fun hr hany => ?refetch, fun hany => ?noRefetch, fun hany he hrun hup hl hk => ?rerun, fun hr hany => ?timeout,
    fun hl ht hlen => ?suppress, ?clear, fun h => ?window, fun h => ?noWindow⟩
  case refetch =>
    intro who ends
    have hexec := refetchComplete_eq remote hr hany
    have hends {u : State} (h : s.endRefetch line remote = u) : ends u :=
      fun hs => hexec.trans (congrArg _ (State.unit_of_settled_eq h hs))
    refine ⟨fun hf => hends ?_, fun hf hread => ⟨fun hw ha => hexec.trans (congrArg _ (State.asking_eq_of_unit ?_ ha)),
      fun hw hst => hends ?_, fun hw hst => hends ?_⟩⟩
    all_goals
      unfold State.endRefetch
      rw [hf]
    all_goals
      dsimp only
      rw [hread]
    · exact if_pos hw
    · exact (if_neg (ne_true_of_eq_false hw)).trans (if_neg (not_not.mpr hst))
    · exact (if_neg (ne_true_of_eq_false hw)).trans (if_pos hst)
  case noRefetch => exact congrArg Host.Outcome.next (if_pos (by rw [hany, Bool.not_false, Bool.or_true]))
  case rerun =>
    refine ⟨_, congrArg Host.Outcome.next ?_, rfl⟩
    dsimp only
    rw [he]
    refine (if_neg ?_).trans ?_
    · rw [hany, hrun, hup]; decide
    · rw [hl, hk]
  case timeout =>
    have hlate : (s.mem.recoveries.any fun r => r.kind == .rerun entry && (match r.deadline with
        | some t => decide (t ≤ s.run)
        | none => false)) = true := by
      rw [← hany]
      congr 1
      funext r
      cases r.deadline <;> rfl
    exact congrArg Host.Outcome.next (if_pos (by rw [hr, Bool.and_true]; exact hlate))
  case suppress =>
    refine ⟨_, wbSuppressWrite_eq hl ht hlen, fun n hn => ?_, fun n hn => ?_, ?_⟩
    · exact (suppressed_same t bytes _ n).trans (if_pos (List.mem_range.mpr hn))
    · exact suppressed_other bytes _ hn
    · rfl
  case clear =>
    intro named hl ht
    have hnamed {k : Nat} : wbNamed t v k = true ↔ named k := wbNamed_iff
    have hnot {k : Nat} : wbNamed t v k = false ↔ ¬ named k := by rw [← hnamed, Bool.not_eq_true]
    refine ⟨_, wbLogClear_eq hl ht, fun x hx hn => State.mem_clearedLog.mpr (.inl ⟨hx, hnot.mpr hn⟩), fun x hx => ?_,
      fun y hy hn htime => ?_, fun i hi hempty => ?_, fun n hn => ?_, rfl⟩
    · rcases State.mem_clearedLog.mp hx with ⟨hx, hn⟩ | ⟨y, hy, hn, htime, rfl⟩
      · exact .inl ⟨hx, hnot.mp hn⟩
      · exact .inr ⟨hnamed.mp hn, htime, y, hy, rfl⟩
    · exact ⟨_, State.mem_clearedLog.mpr (.inr ⟨y, hy, hnamed.mpr hn, htime, rfl⟩), rfl, rfl, rfl⟩
    · change Map.get 0 (if s.stillFull t v then s.mem.wbFull else Map.set 0 s.mem.wbFull t 0) t = 0
      rw [if_neg (ne_true_of_eq_false (State.not_stillFull hi hempty)), Map.get_set_same]
    · change Map.get 0 (if s.stillFull t v then s.mem.wbFull else Map.set 0 s.mem.wbFull t 0) n = _
      split
      · rfl
      · exact Map.get_set_of_ne _ _ _ hn
  case window =>
    refine congrArg Host.Outcome.next ((if_neg (Nat.not_lt.mpr h)).trans ?_)
    exact congrArg State.refreshReplace (if_neg (Nat.not_lt.mpr h))
  case noWindow => exact congrArg Host.Outcome.next (if_pos h)

end Sys2Proof.Machine
end

section
/-! PROOFS. Groups (R472, R480 to R482, R504). -/
namespace Sys2Proof.Machine
variable {s t u v w : State}

/-! ### Groups (R472, R480 to R482, R504) -/

/-- Messages sent one after another. -/
theorem State.foldl_send (f : Nat → Output) (l : List Nat) (s : State) :
    l.foldl (fun s d => s.send (f d)) s = { s with out := (l.map f).reverse ++ s.out } := by
  induction l generalizing s with
  | nil => rfl
  | cons d l ih =>
    refine (ih (s.send (f d))).trans ?_
    rw [List.map_cons, List.reverse_cons, List.append_assoc]
    rfl

/-- A message to every other device of a bitmap. -/
theorem State.sendMembers_eq (s : State) (members kind : Nat) (fields : List Nat) : s.sendMembers members kind fields =
    { s with out := (((List.range 64).filter fun d => d ≠ s.group.member && members.testBit d).map
      fun d => Output.groupMessage d kind fields).reverse ++ s.out } := by
  rw [← State.foldl_send]
  unfold State.sendMembers
  generalize List.range 64 = l
  induction l generalizing s with
  | nil => rfl
  | cons d l ih =>
    rw [List.foldl_cons, List.filter_cons]
    split
    · exact ih _
    · exact ih _

theorem State.askMembers_eq (all : Bool) (hl : s.steward.lost = false) : s.askMembers all =
    { s with
      group := { s.group with askedAt := s.now, asking := true, answers := [] }
      out := (((List.range (shapeMembers s.group.shape)).filter fun g => g ≠ 0 && (all || !(s.reg 0x5200 6).testBit g)).map
        fun d => Output.groupMessage d 13 [0]).reverse ++ s.out } := by
  refine (if_neg (ne_true_of_eq_false hl)).trans ?_
  dsimp only
  rw [State.foldl_send]

/-- What updates of distinct entries within bounds leave of one of them. -/
theorem get_foldl_update_within {σ α : Type} {P : Nat → Prop} (get : σ → Nat → α) (upd : σ → Nat → σ) (g : Nat → α → α)
    (hsame : ∀ s i, get (upd s i) i = g i (get s i))
    (hne : ∀ s i j, P i → P j → j ≠ i → get (upd s i) j = get s j)
    {l : List Nat} (hP : ∀ i ∈ l, P i) (hl : l.Nodup) (s : σ) {k : Nat} (hk : P k) :
    get (l.foldl upd s) k = if k ∈ l then g k (get s k) else get s k := by
  induction l generalizing s with
  | nil => simp
  | cons i l ih =>
    obtain ⟨hi, hl⟩ := List.nodup_cons.mp hl
    obtain ⟨hPi, hP⟩ := List.forall_mem_cons.mp hP
    rw [List.foldl_cons, ih hP hl]
    by_cases h : k = i
    · subst h
      rw [if_neg hi, if_pos List.mem_cons_self, hsame]
    · rw [hne s i k hPi hk h]
      simp [h]

/-! The ports of a group that forms. -/

/-- Steps that write entries only change nothing but entries. -/
theorem State.foldl_regs {l : List Nat} {f : State → Nat → State} (hf : ∀ u e, ∃ R, f u e = { u with regs := R }) (s : State) :
    ∃ R, l.foldl f s = { s with regs := R } := by
  induction l generalizing s with
  | nil => exact ⟨_, rfl⟩
  | cons e l ih =>
    obtain ⟨R, h⟩ := hf s e
    obtain ⟨R', h'⟩ := ih (f s e)
    exact ⟨R', h'.trans (by rw [h])⟩

/-- The states of the first twelve ports set. -/
def State.portsSet (s : State) (v : Nat) : State := (List.range 12).foldl (fun (s : State) p => s.setPortState p v) s

theorem State.portsSet_portState (s : State) (v : Nat) {p : Nat} (hp : p < 12) : (s.portsSet v).portState p = v :=
  (get_foldl_update State.portState (fun s p => s.setPortState p v) (fun _ _ => v) (fun _ _ => State.reg_setReg_same ..)
    (fun _ _ _ h => State.reg_setReg_of_ne _ _ (by omega)) List.nodup_range s p).trans (if_pos (List.mem_range.mpr hp))

theorem State.portsSet_reg (s : State) (v : Nat) {idx sub : Nat} (h : ∀ p, p < 12 → idx * 256 + sub ≠ 0x5201 * 256 + (p + 1)) :
    (s.portsSet v).reg idx sub = s.reg idx sub := by
  refine List.foldlRecOn (motive := fun m : State => m.reg idx sub = s.reg idx sub) _ _ rfl fun m hm p hp => ?_
  exact (State.reg_setReg_of_ne _ _ (h p (List.mem_range.mp hp))).trans hm

theorem State.portsSet_eq (s : State) (v : Nat) : ∃ R, s.portsSet v = { s with regs := R } :=
  State.foldl_regs (fun _ _ => ⟨_, rfl⟩) s

/-- LGL_RETRAINS of the ports that train (R504). -/
def State.retrains (s : State) : State :=
  (List.range 12).foldl (fun (s : State) p => if s.portState p = 1 then s.sat32 0xB612 (p + 1) 1 else s) s

theorem State.retrains_same (s : State) {p : Nat} (hp : p < 12) : (s.retrains.portState p, s.retrains.reg 0xB612 (p + 1)) =
    (s.portState p, if s.portState p = 1 then min (s.reg 0xB612 (p + 1) + 1) 0xFFFFFFFF else s.reg 0xB612 (p + 1)) := by
  refine (get_foldl_update_within (P := (· < 12)) (fun s p => (s.portState p, s.reg 0xB612 (p + 1))) _
    (fun _ x => (x.1, if x.1 = 1 then min (x.2 + 1) 0xFFFFFFFF else x.2)) (fun s i => ?_) (fun s i j hi hj h => ?_)
    (fun i => List.mem_range.mp) List.nodup_range s hp).trans (if_pos (List.mem_range.mpr hp))
  · split
    · exact Prod.ext (State.reg_setReg_of_ne _ _ (by omega)) (State.reg_setReg_same ..)
    · rfl
  · split
    · exact Prod.ext (State.reg_setReg_of_ne _ _ (by omega)) (State.reg_setReg_of_ne _ _ (by omega))
    · rfl

theorem State.retrains_reg (s : State) {idx sub : Nat} (h : ∀ p, p < 12 → idx * 256 + sub ≠ 0xB612 * 256 + (p + 1)) :
    s.retrains.reg idx sub = s.reg idx sub := by
  refine List.foldlRecOn (motive := fun m : State => m.reg idx sub = s.reg idx sub) _ _ rfl fun m hm p hp => ?_
  split
  · exact (State.reg_setReg_of_ne _ _ (h p (List.mem_range.mp hp))).trans hm
  · exact hm

theorem State.retrains_eq (s : State) : ∃ R, s.retrains = { s with regs := R } := by
  refine State.foldl_regs (fun u p => ?_) s
  split
  · exact ⟨_, rfl⟩
  · exact ⟨_, rfl⟩

/-- The removal of no device breaks no group lease. -/
theorem State.breakGroups_nil (s : State) : s.breakGroups [] = s := by
  have hnone (g : GroupLease) : g.tree.any ([] : List Nat).contains = false := List.any_eq_false.mpr fun _ _ => Bool.false_ne_true
  refine List.foldlRecOn (motive := fun m => m = s) _ _ rfl fun m hm n _ => ?_
  dsimp only
  rw [hnone, Bool.and_false]
  exact (if_neg Bool.false_ne_true).trans hm

/-- The removal of no device leaves the entries. -/
theorem State.removeDevices_nil_regs (s : State) : (s.removeDevices []).regs = s.regs := by
  unfold State.removeDevices
  extract_lets gone s1 s2 waits s3 objects s4
  have hwaits : waits = [] := List.filter_eq_nil_iff.mpr fun m _ => by
    rw [show gone m.object = false from rfl, Bool.and_false]
    exact Bool.false_ne_true
  have hobjects : objects = [] := by
    refine List.append_eq_nil_iff.mpr ⟨List.flatMap_eq_nil_iff.mpr fun e _ => List.filterMap_eq_nil_iff.mpr fun k _ => ?_,
      List.filterMap_eq_nil_iff.mpr fun e _ => if_neg ?_⟩
    · split
      · rfl
      · rfl
    · rw [show gone e.2.waitObject = false from rfl, Bool.and_false]
      exact Bool.false_ne_true
  have h3 : s3.regs = s.regs := by
    change (if s2.running then waits.foldl (fun s m => s.giveSync m 0x08 0) s2 else s2.endSyncs waits.contains 0x08).regs = _
    rw [hwaits]
    split <;> rfl
  have h4 : s4.regs = s3.regs := by
    change (if s3.running then objects.eraseDups.foldl (fun s p => s.wakeCluster p.1 p.2 0x08) s3
      else { s3 with releases := s3.releases ++ objects.eraseDups.map fun p =>
        { object := p.2, cluster := p.1, status := 0x08 } }).regs = _
    rw [hobjects]
    split <;> rfl
  rw [State.breakGroups_nil, h4, h3]

theorem State.removeDevices_nil_reg (s : State) (idx sub : Nat) : (s.removeDevices []).reg idx sub = s.reg idx sub := by
  unfold State.reg
  rw [State.removeDevices_nil_regs]

theorem State.reformGroup_eq (s : State) : ∃ G, s.reformGroup =
    ((State.portsSet { s with group := G } (if s.wantedShape.1 = 0 then 4 else 1)).setReg 0x5200 6 1).setReg 0x5200 5
      (if s.wantedShape.1 = 0 then 0 else if s.wantedShape.2 = 0 then 3 else 1) ∧ G.shape = s.wantedShape.1 ∧ G.member = s.wantedShape.2 :=
  ⟨_, rfl, rfl, rfl⟩

theorem State.written_self (h : t = s) : s.written t = s := by
  rw [h]
  exact ite_self _

/-- A published bitmap is kept, numbered on and sent to each member (R480). -/
theorem State.publishMembers_eq (s : State) (members : Nat) : s.publishMembers members =
    { (s.setReg 0x5200 6 members).setReg 0x5200 7 ((s.reg 0x5200 7 + 1) % 2 ^ 32) with
      group := { s.group with published := true }
      out := (((List.range 64).filter fun d => d ≠ s.group.member && members.testBit d).map
        fun d => Output.groupMessage d 16 [members, (s.reg 0x5200 7 + 1) % 2 ^ 32]).reverse ++ s.out } := by
  unfold State.publishMembers
  dsimp only
  rw [State.reg_setReg_same]
  exact State.sendMembers_eq _ _ _ _

/-- Settles O44. -/
theorem groupMembership : Obligations.GroupMembership := by
  unfold Obligations.GroupMembership
  intro s v device members id r m g numbers asks
  refine ⟨fun hl => ?reform, fun hl hm hsh => ?enable, fun hl hm => ?disable, fun hm => ?enableMember, fun hsh hl => ?membership,
    fun hask hm hl ht => ?windowEnd, fun hm hsh h3 hask hl ht => ?retry, fun hm hsh hmax hin h5 hsub => ?bitmap,
    fun hm hsh hd hd64 hl hin ht => ?timeout, fun hf hown hst ht => ?reqTimeout, fun hf hs hown hrep hr ht => ?syncTimeout⟩
  case reform =>
    obtain ⟨G, hg, hshape, hmember⟩ := s.reformGroup_eq
    have hstate {p : Nat} (hp : p < 12) : s.reformGroup.portState p = if s.wantedShape.1 = 0 then 4 else 1 := by
      rw [hg]
      refine (State.reg_setReg_of_ne _ _ (by omega)).trans ((State.reg_setReg_of_ne _ _ (by omega)).trans ?_)
      exact State.portsSet_portState _ _ hp
    have hcount {p : Nat} (hp : p < 12) : s.reformGroup.reg 0xB612 (p + 1) = s.reg 0xB612 (p + 1) := by
      rw [hg]
      refine (State.reg_setReg_of_ne _ _ (by omega)).trans ((State.reg_setReg_of_ne _ _ (by omega)).trans ?_)
      exact State.portsSet_reg _ _ fun q hq => by omega
    refine ⟨s.reformGroup.retrains, congrArg Host.Outcome.next (State.written_of_steward hl), ?_, ?_, fun p hp => ?_, ?_, ?_⟩
    · obtain ⟨R, hR⟩ := State.retrains_eq s.reformGroup
      obtain ⟨R', hR'⟩ := State.portsSet_eq { s with group := G } (if s.wantedShape.1 = 0 then 4 else 1)
      rw [hR, hg, hR']
      exact Prod.ext hshape hmember
    · rw [State.retrains_reg _ fun q hq => by omega, hg]
      exact (State.reg_setReg_of_ne _ _ (by omega)).trans (State.reg_setReg_same ..)
    · obtain ⟨h1, h2⟩ := Prod.mk.inj (State.retrains_same s.reformGroup hp)
      refine ⟨h1.trans (hstate hp), h2.trans ?_⟩
      rw [hstate hp, hcount hp]
      by_cases h0 : s.wantedShape.1 = 0
      · rw [if_pos h0, if_pos h0]
        rfl
      · rw [if_neg h0, if_neg h0]
        rfl
    · rw [State.retrains_reg _ fun q hq => by omega, hg]
      exact State.reg_setReg_same ..
    · obtain ⟨R, hR⟩ := State.retrains_eq s.reformGroup
      obtain ⟨R', hR'⟩ := State.portsSet_eq { s with group := G } (if s.wantedShape.1 = 0 then 4 else 1)
      rw [hR, hg, hR']
      rfl
  case enable =>
    refine ⟨_, congrArg Host.Outcome.next ((State.written_of_steward hl).trans ((if_neg ?_).trans ((if_pos ?_).trans
      (State.askMembers_eq true hl)))), State.reg_setReg_same (s := s) 0x5200 3 1, ⟨rfl, ?_⟩, rfl⟩
    · rw [show s.group.member = 0 from hm]; decide
    · rw [Bool.and_eq_true, decide_eq_true_eq]
      exact ⟨rfl, decide_eq_true hsh⟩
    · simp only [Bool.true_or, Bool.and_true]
      rfl
  case disable =>
    refine congrArg Host.Outcome.next ((State.written_of_steward hl).trans ((if_neg ?_).trans (if_neg Bool.false_ne_true)))
    rw [show s.group.member = 0 from hm]
    decide
  case enableMember =>
    refine congrArg Host.Outcome.next (State.written_self ?_)
    exact if_pos (by rw [decide_eq_true hm]; rfl)
  case membership =>
    have hask : ¬ (decide (s.group.shape = 0) || s.steward.lost) = true := by rw [decide_eq_false hsh, hl]; decide
    have hhead (hm : g.member = 0) : ¬ s.group.member ≠ 0 := not_not.mpr hm
    refine ⟨fun hm => congrArg Host.Outcome.next ((if_neg hask).trans (if_pos hm)),
      fun hm has ht h0 hmax => congrArg Host.Outcome.next ((if_neg hask).trans ((if_neg (hhead hm)).trans (if_pos ?_))),
      fun hm ht => congrArg Host.Outcome.next ((if_neg hask).trans ((if_neg (hhead hm)).trans (if_neg ?_)))⟩
    · rw [show s.group.asking = true from has, decide_eq_true (show s.now ≤ s.group.askedAt + msCycles 1 from ht), decide_eq_true h0,
        decide_eq_true (show device < shapeMembers s.group.shape from hmax)]
      rfl
    · rw [decide_eq_false (show ¬ s.now ≤ s.group.askedAt + msCycles 1 from Nat.not_le.mpr ht), Bool.and_false, Bool.false_and,
        Bool.false_and]
      exact Bool.false_ne_true
  case windowEnd =>
    intro new next
    have hwindow : exec .membershipWindowEnd s = .next (
        let u : State := { s with group := { g with
          asking := false, answers := []
          heard := g.answers.foldl (fun m d => Map.set 0 m d s.now) g.heard } }
        if new ≠ s.reg 0x5200 6 || !g.published then u.publishMembers new else u) := by
      refine congrArg Host.Outcome.next (if_neg ?_)
      rw [show s.group.asking = true from hask, show s.group.member = 0 from hm, hl, decide_eq_false (Nat.not_lt.mpr ht)]
      decide
    rcases Classical.em (new ≠ s.reg 0x5200 6 ∨ g.published = false) with h | h
    · have hpub : (new ≠ s.reg 0x5200 6 || !g.published) = true := by
        rw [Bool.or_eq_true, decide_eq_true_eq, Bool.not_eq_true']
        exact h
      refine ⟨_, hwindow.trans (congrArg _ ((if_pos hpub).trans (State.publishMembers_eq _ _))), rfl, rfl, fun _ => ⟨?_, ?_, rfl, ?_⟩,
        fun h1 h2 => absurd h (not_or.mpr ⟨not_not.mpr h1, by rw [h2]; decide⟩)⟩
      · exact (State.reg_setReg_of_ne (s := s.setReg 0x5200 6 new) next (by decide)).trans (State.reg_setReg_same (s := s) ..)
      · exact State.reg_setReg_same (s := s.setReg 0x5200 6 new) ..
      · change (((List.range 64).filter fun d => d ≠ s.group.member && new.testBit d).map _).reverse ++ s.out = _
        rw [show s.group.member = 0 from hm]
        rfl
    · obtain ⟨h1, h2⟩ := not_or.mp h
      have hpub : ¬ (new ≠ s.reg 0x5200 6 || !g.published) = true := by
        rw [Bool.or_eq_true, decide_eq_true_eq, Bool.not_eq_true']
        exact h
      exact ⟨_, hwindow.trans (congrArg _ (if_neg hpub)), rfl, rfl, fun h' => absurd h' h, fun _ _ => ⟨rfl, rfl⟩⟩
  case retry =>
    refine ⟨_, congrArg Host.Outcome.next ((if_neg ?_).trans (State.askMembers_eq false hl)), ⟨rfl, ?_⟩, rfl⟩
    · rw [show s.group.member = 0 from hm, decide_eq_false hsh, h3, show s.group.asking = false from hask,
        decide_eq_false (Nat.not_lt.mpr ht)]
      decide
    · rw [List.filter_filter]
      simp only [Bool.false_or, Bool.and_comm]
      rfl
  case bitmap =>
    have hmod : members % 2 ^ 64 = members := Nat.mod_eq_of_lt hmax
    have hdiv : members / 2 ^ 64 = 0 := Nat.div_eq_of_lt hmax
    have hgone (old own : Nat) (hold : ∀ d, d < 64 → old.testBit d = true → members.testBit d = true) :
        ((List.range 64).filter fun d => old.testBit d && (!members.testBit d || Nat.testBit 0 d) && d ≠ own) = [] := by
      refine List.filter_eq_nil_iff.mpr fun d hd => ?_
      cases h : old.testBit d with
      | true =>
        rw [hold d (List.mem_range.mp hd) h, Nat.zero_testBit]
        exact Bool.false_ne_true
      | false => exact Bool.false_ne_true
    have hne : (s.setReg 0x5200 6 members).reg 0x5200 5 ≠ 4 := by
      rwa [State.reg_setReg_of_ne _ _ (by decide)]
    refine ⟨_, congrArg Host.Outcome.next (if_neg ?_), ?_⟩
    · rw [decide_eq_false (show ¬ s.group.member = 0 from hm), decide_eq_false (show ¬ s.group.shape = 0 from hsh)]
      decide
    · dsimp only
      rw [hmod, hdiv, if_neg hne, hgone _ _ hsub, State.removeDevices_nil_reg, State.removeDevices_nil_reg,
        if_pos (show members.testBit (s.setReg 0x5200 6 members).group.member = true from hin)]
      have h6 : ((s.setReg 0x5200 6 members).setReg 0x5200 5 2).reg 0x5200 6 = members :=
        (State.reg_setReg_of_ne _ _ (by decide)).trans (State.reg_setReg_same ..)
      have h5 : ((s.setReg 0x5200 6 members).setReg 0x5200 5 2).reg 0x5200 5 = 2 := State.reg_setReg_same ..
      exact ⟨h6, h5⟩
  case timeout =>
    intro u
    refine congrArg Host.Outcome.next (if_neg ?_)
    rw [show s.group.member = 0 from hm, decide_eq_false hsh, decide_eq_false hd, decide_eq_false (Nat.not_le.mpr hd64), hl, hin,
      decide_eq_false (Nat.not_lt.mpr ht)]
    decide
  case reqTimeout =>
    refine congrArg Host.Outcome.next ?_
    dsimp only
    rw [hf]
    cases hh : r.ofHost with
    | true => exact (if_pos (by rw [hh, Bool.or_true]; rfl)).trans (if_pos rfl).symm
    | false =>
      refine (if_neg ?_).trans (if_neg Bool.false_ne_true).symm
      rw [hown, hh, decide_eq_false (Nat.not_lt.mpr ht)]
      simpa using hst
  case syncTimeout =>
    refine congrArg Host.Outcome.next ?_
    dsimp only
    rw [hf]
    dsimp only
    rw [hs]
    refine (if_neg ?_).trans (if_pos hr)
    rw [hown, hrep, decide_eq_false (Nat.not_lt.mpr ht)]
    decide

end Sys2Proof.Machine
end

section
/-! PROOFS. Device links (R480, R483 to R487, R504). -/
namespace Sys2Proof.Machine
variable {s t u v w : State}

/-! ### Device links (R480, R483 to R487, R504) -/

theorem State.port_setPort_same (s : State) (p : Nat) (k : LglPort) : (s.setPort p k).port p = k := Map.get_set_same _ _ _ _

theorem State.port_sat32_setPort (s : State) (p : Nat) (k : LglPort) (idx sub n : Nat) : ((s.setPort p k).sat32 idx sub n).port p = k :=
  State.port_setPort_same s p k

/-- Nothing is sendable only where nothing is taken from the queue. -/
theorem LglPort.sendable_nil {k : LglPort} {n : Nat} (h : (k.sendable n).1 = []) : (k.sendable n).2 = k := by
  cases n with
  | zero => rfl
  | succ n =>
    unfold LglPort.sendable at h ⊢
    split
    · rfl
    next f hf =>
      rw [hf] at h
      exact absurd h (List.cons_ne_nil _ _)

theorem LglPort.with_txq_append_nil (k : LglPort) : { k with txq := k.txq ++ [] } = k := by rw [List.append_nil]

/-- A frame that a port does not take. -/
theorem lglDataFrame_discarded {p : Nat} {frame : List Byte} (hp : p < 12) (hup : s.portState p = 2)
    (h : (!(frameGood frame && headerBits frame 127 120 == 1) || headerBits frame 119 108 ≠ (s.port p).rxNext) = true) :
    exec (.lglDataFrame p frame) s = .next (
      let t := if frameGood frame && headerBits frame 127 120 == 1 then s else s.sat32 0xB613 (p + 1) 1
      t.setPort p { t.port p with discarded := true, nakDue := (s.port p).nakDue || !(s.port p).discarded }) := by
  refine congrArg Host.Outcome.next ((if_neg ?_).trans (if_pos h))
  rw [decide_eq_false (Nat.not_le.mpr hp), hup]
  decide

theorem frameGood_and {frame : List Byte} {n : Nat} (h : frameGood frame = true ∧ headerBits frame 127 120 = n) :
    (frameGood frame && headerBits frame 127 120 == n) = true := by
  rw [Bool.and_eq_true, beq_iff_eq]; exact h

theorem frameGood_and_false {frame : List Byte} {n : Nat} (h : frameGood frame = false ∨ headerBits frame 127 120 ≠ n) :
    (frameGood frame && headerBits frame 127 120 == n) = false := by
  rw [Bool.and_eq_false_iff, beq_eq_false_iff_ne]; exact h

/-- Frames put on a port's lanes one after another. -/
theorem State.foldl_sendFrame (p : Nat) (l : List (Nat × List Byte)) (s : State) :
    l.foldl (fun s e => s.sendFrame p e.2) s = { s with out := (l.map fun e => Output.lglFrame p e.2).reverse ++ s.out } := by
  induction l generalizing s with
  | nil => rfl
  | cons e l ih =>
    refine (ih (s.sendFrame p e.2)).trans ?_
    rw [List.map_cons, List.reverse_cons, List.append_assoc]
    rfl

/-- The frame that a port sends, and what it keeps (R487). -/
def State.reportFrame (u : State) (p : Nat) (k : LglPort) : State :=
  let credits := k.due.take 2
  let (flits, k') := if k.retry.length < 512 then k.sendable 4 else ([], k)
  let frame := k.frame (if flits.isEmpty then 2 else 1) k.txNext flits credits
  let k' := { k' with nakDue := false, due := credits.foldl (fun m e => Map.upd 0 m e.1 (· - min e.2 255)) k.due }
  if flits.isEmpty then (u.sendFrame p frame).setPort p k'
  else
    let k' := { k' with
      retry := k'.retry ++ [(k.txNext, frame)]
      txNext := (k.txNext + 1) % 4096
      progressAt := if k.retry.isEmpty then u.now else k.progressAt }
    ((u.sendFrame p frame).setPort p k').wrap64 0xB610 (p + 1) 1

theorem ackReport_eq {p : Nat} (hp : p < 12) (hup : s.portState p = 2) :
    exec (.ackReport p []) s = .next (s.formPackets.reportFrame p ((s.formPackets.port p).freed s.formPackets.running)) := by
  refine congrArg Host.Outcome.next ((if_neg ?_).trans ?_)
  · rw [decide_eq_false (Nat.not_le.mpr hp), hup]; decide
  · exact congrArg (s.formPackets.reportFrame p) (LglPort.with_txq_append_nil _)

/-- What a port keeps of an IDLE frame that it sends. -/
def LglPort.reported (k : LglPort) : LglPort :=
  { k with nakDue := false, due := (k.due.take 2).foldl (fun m e => Map.upd 0 m e.1 (· - min e.2 255)) k.due }

/-- Without flits to send the frame is IDLE. -/
theorem State.reportFrame_idle {p : Nat} {k : LglPort} (h : (k.sendable 4).1 = [] ∨ 512 ≤ k.retry.length) :
    u.reportFrame p k = (u.sendFrame p (k.frame 2 k.txNext [] (k.due.take 2))).setPort p k.reported := by
  have hnone : (if k.retry.length < 512 then k.sendable 4 else ([], k)) = ([], k) := by
    split
    next hroom =>
      have h := h.resolve_right (Nat.not_le.mpr hroom)
      exact Prod.ext h (LglPort.sendable_nil h)
    · rfl
  unfold State.reportFrame
  rw [hnone]
  rfl

/-- What a port keeps of a DATA frame that it sends. -/
def LglPort.sentData (k : LglPort) (now : Nat) : LglPort :=
  { (k.sendable 4).2 with
    nakDue := false, due := (k.due.take 2).foldl (fun m e => Map.upd 0 m e.1 (· - min e.2 255)) k.due
    retry := (k.sendable 4).2.retry ++ [(k.txNext, k.frame 1 k.txNext (k.sendable 4).1 (k.due.take 2))]
    txNext := (k.txNext + 1) % 4096
    progressAt := if k.retry.isEmpty then now else k.progressAt }

/-- A frame that is sent and counted changes the group, the output and the entries alone. -/
theorem State.sendFrame_setPort_wrap64 (u : State) (p : Nat) (f : List Byte) (k : LglPort) :
    ((u.sendFrame p f).setPort p k).wrap64 0xB610 (p + 1) 1 = { u with
      group := (((u.sendFrame p f).setPort p k).wrap64 0xB610 (p + 1) 1).group
      out := (((u.sendFrame p f).setPort p k).wrap64 0xB610 (p + 1) 1).out
      regs := (((u.sendFrame p f).setPort p k).wrap64 0xB610 (p + 1) 1).regs } := rfl

/-- With flits to send the frame is DATA, and stays in the retry buffer. -/
theorem State.reportFrame_data {p : Nat} {k : LglPort} (h : (k.sendable 4).1 ≠ []) (hroom : k.retry.length < 512) :
    u.reportFrame p k = ((u.sendFrame p (k.frame 1 k.txNext (k.sendable 4).1 (k.due.take 2))).setPort p (k.sentData u.now)).wrap64
      0xB610 (p + 1) 1 := by
  have hsome : (k.sendable 4).1.isEmpty = false := by simpa using h
  unfold State.reportFrame
  rw [if_pos hroom]
  dsimp only
  rw [hsome]
  rfl

/-- A replay counts each frame once. -/
theorem resent_eq {l : List (Nat × List Byte)} (m : Map Nat) (hl : (l.map (·.1)).Nodup) {e : Nat × List Byte} (he : e ∈ l) :
    Map.get 0 (l.foldl (fun m e => Map.upd 0 m e.1 (· + 1)) m) e.1 = Map.get 0 m e.1 + 1 := by
  rw [← List.foldl_map (f := Prod.fst) (g := fun m n => Map.upd 0 m n (· + 1))]
  refine (get_foldl_update (Map.get 0) _ (fun _ x => x + 1) (fun m i => Map.get_set_same ..)
    (fun m i j h => Map.get_set_of_ne _ _ _ h)
    hl m e.1).trans (if_pos (List.mem_map_of_mem he))

/-- A packet of one flit for this device is accepted (R484). -/
theorem takeFlit_whole {p : Nat} {f : Flit} (hleft : (Map.get {} (s.port p).incoming f.vc).left = 0)
    (h1 : 1 ≤ bitsOf f.control.toNat 101 96) (h10 : bitsOf f.control.toNat 101 96 ≤ 0x10) (hn : bitsOf f.control.toNat 75 73 = 1)
    (hdst : bitsOf f.control.toNat 127 122 = s.group.member) :
    s.takeFlit p f = (false, (s.creditSlot p f.vc (!s.running && f.vc ≠ 2 && f.vc ≠ 3)).acceptPacket p f.control.toNat f.data) := by
  refine (if_pos hleft).trans ((if_neg ?_).trans ((if_neg (by rw [hn]; decide)).trans ((if_pos hdst).trans
    (congrArg (Prod.mk false) ((if_pos (by rw [hn])).trans
      (congrArg (fun b => (s.creditSlot p f.vc b).acceptPacket p f.control.toNat f.data) ?_))))))
  · rw [Bool.or_eq_true, decide_eq_true_eq, decide_eq_true_eq]
    omega
  · rw [decide_eq_true (by rw [if_pos hleft]; exact hdst), Bool.true_and]

/-- Settles O45. -/
theorem deviceLinkPorts : Obligations.DeviceLinkPorts := by
  unfold Obligations.DeviceLinkPorts
  intro s p device shape peer d frame hp k good bad up
  have hp' : decide (12 ≤ p) = false := decide_eq_false (Nat.not_le.mpr hp)
  refine ⟨fun h => ?trained, fun h0 h4 hd => ?identity, fun hup => ?notUp, fun hup hg hseq => ?sequence, fun hup hb => ?bad,
    fun hup hg hseq => ?good, fun f hleft => ?flit, fun hup hg => ?idle, fun hup hb => ?badIdle, ?report, fun hup hne ht => ?timer,
    fun hne hnodup hmax => ?replay, fun h => ?retrain, fun h hf => ?fails, fun h hf => ?down⟩
  case trained =>
    exact congrArg Host.Outcome.next (if_neg (by rw [h, hp']; decide))
  case identity =>
    have hexec : exec (.identityFrame p device shape peer) s = .next (
        if device = neighbour s.group.member d && shape = s.group.shape && s.peerPort p = some peer then s.setPortState p 2
        else (s.setPortState p 3).raise 0x0F (portTower p) p) := by
      refine congrArg Host.Outcome.next ((if_neg ?_).trans ?_)
      · rw [hp', decide_eq_false h0, decide_eq_false h4]; decide
      · rw [hd]
    refine ⟨fun h1 h2 h3 => hexec.trans (congrArg _ (if_pos ?_)), fun h => hexec.trans (congrArg _ (if_neg ?_))⟩
    · rw [decide_eq_true h1, decide_eq_true h2, decide_eq_true h3]; rfl
    · simp only [Bool.and_eq_true, decide_eq_true_eq, not_and]
      rintro ⟨h1, h2⟩ h3
      rcases h with h | h | h
      · exact h h1
      · exact h h2
      · exact h h3
  case notUp =>
    have hdown : (decide (12 ≤ p) || decide (s.portState p ≠ 2)) = true := by rw [hp', decide_eq_true hup]; rfl
    refine ⟨congrArg Host.Outcome.next (if_pos hdown), congrArg Host.Outcome.next (if_pos hdown), congrArg Host.Outcome.next (if_pos hdown),
      congrArg Host.Outcome.next (if_pos ?_)⟩
    rw [hdown]; rfl
  case sequence =>
    rw [lglDataFrame_discarded hp hup (by rw [decide_eq_true hseq, Bool.or_true]), frameGood_and hg]
    rfl
  case bad =>
    refine ⟨_, lglDataFrame_discarded hp hup (by rw [frameGood_and_false hb]; rfl), ?_⟩
    rw [frameGood_and_false hb]
    exact ⟨State.port_setPort_same .., State.reg_setReg_same (s := s) .., rfl⟩
  case good =>
    intro u r
    refine congrArg Host.Outcome.next ((if_neg ?_).trans ((if_neg ?_).trans rfl))
    · rw [hp', show s.portState p = 2 from hup]; decide
    · rw [frameGood_and hg, hseq]; simp [k]
  case flit =>
    intro c h1 h10 hn hdst
    exact takeFlit_whole hleft h1 h10 hn hdst
  case idle =>
    refine congrArg Host.Outcome.next ((if_neg ?_).trans (if_neg ?_))
    · rw [hp', show s.portState p = 2 from hup]; decide
    · rw [frameGood_and hg]; decide
  case badIdle =>
    refine congrArg Host.Outcome.next ((if_neg ?_).trans (if_pos ?_))
    · rw [hp', show s.portState p = 2 from hup]; decide
    · rw [frameGood_and_false hb]; rfl
  case report =>
    intro u k sent credits hup
    have hexec := ackReport_eq hp hup
    refine ⟨fun h => ⟨_, hexec.trans (congrArg _ (State.reportFrame_idle h)), ?_⟩,
      fun h hroom => ⟨_, hexec.trans (congrArg _ (State.reportFrame_data h hroom)), ?_⟩⟩
    · have hport : ((u.sendFrame p (k.frame 2 k.txNext [] credits)).setPort p k.reported).port p = k.reported := State.port_setPort_same ..
      exact ⟨rfl, congrArg LglPort.nakDue hport, (congrArg LglPort.txNext hport).trans rfl, (congrArg LglPort.retry hport).trans rfl,
        (congrArg LglPort.txq hport).trans rfl, rfl⟩
    · have hport : (((u.sendFrame p (k.frame 1 k.txNext sent.1 credits)).setPort p (k.sentData u.now)).wrap64 0xB610 (p + 1) 1).port p =
          k.sentData u.now := State.port_setPort_same (u.sendFrame p (k.frame 1 k.txNext sent.1 credits)) p (k.sentData u.now)
      exact ⟨rfl, (congrArg LglPort.nakDue hport).trans rfl, (congrArg LglPort.txq hport).trans rfl,
        (congrArg LglPort.txNext hport).trans rfl, (congrArg LglPort.retry hport).trans rfl,
        State.sendFrame_setPort_wrap64 u p (k.frame 1 k.txNext sent.1 credits) (k.sentData u.now)⟩
  case timer =>
    refine congrArg Host.Outcome.next (if_neg ?_)
    rw [hp', show s.portState p = 2 from hup, decide_eq_false (Nat.not_lt.mpr ht)]
    simpa using hne
  case replay =>
    have hempty : ¬ k.retry.isEmpty = true := by simpa using hne
    have hretrain : ¬ (k.retry.any fun e => Map.get 0 (k.retry.foldl (fun m e => Map.upd 0 m e.1 (· + 1)) k.resent) e.1 == 8) = true := by
      rw [List.any_eq_true]
      rintro ⟨e, he, h8⟩
      rw [resent_eq _ hnodup he, beq_iff_eq] at h8
      have := hmax e he
      omega
    have hreplay : s.replay p = _ := (if_neg hempty).trans (if_neg hretrain)
    rw [hreplay, State.foldl_sendFrame]
    refine ⟨rfl, ?_⟩
    exact (congrArg LglPort.retry (State.port_sat32_setPort ..)).trans rfl
  case retrain =>
    exact congrArg Host.Outcome.next ((if_neg (by rw [h, hp']; decide)).trans (if_pos rfl))
  case fails =>
    refine congrArg Host.Outcome.next ((if_neg (by rw [h, hp']; decide)).trans ((if_neg Bool.false_ne_true).trans (if_neg ?_)))
    exact Nat.not_le.mpr (Nat.succ_lt_succ hf)
  case down =>
    refine congrArg Host.Outcome.next ((if_neg (by rw [h, hp']; decide)).trans ((if_neg Bool.false_ne_true).trans (if_pos ?_)))
    exact Nat.succ_le_succ hf

end Sys2Proof.Machine
end

section
/-! PROOFS. Group leases and pace-lock (R489 to R502). -/
namespace Sys2Proof.Machine
variable {s t u v w : State}

/-! ### Group leases and pace-lock (R489 to R502) -/

/-- Targets whose tick has not come are kept (R497). -/
theorem State.applyTargets_of_later (h : ∀ e ∈ s.group.targets, s.reg 0x2210 5 < e.1) : s.applyTargets = s := by
  unfold State.applyTargets
  dsimp only
  rw [List.filter_eq_nil_iff.mpr fun e he => by rw [decide_eq_true_eq, Nat.not_le]; exact h e he]
  rfl

/-- A single target whose tick has come is applied (R497). -/
theorem State.applyTargets_of_due {apply target : Nat} (ht : s.group.targets = [(apply, target)]) (h : apply ≤ s.reg 0x2210 5) :
    s.applyTargets = State.setReg { s with group := { s.group with targets := [] } } 0x2210 1 target := by
  unfold State.applyTargets
  dsimp only
  rw [ht, List.filter_cons_of_pos (by rw [decide_eq_true_eq]; exact h)]
  simp only [List.filter_nil, List.getLast?_singleton, List.reverse_singleton]
  rw [List.takeWhile_cons_of_neg (by rw [decide_eq_true h]; decide)]
  rfl

/-- A single partial merges to itself (R379). -/
theorem mergeAll_single (rtype : Nat) (data : List Byte) : mergeAll rtype [data] = (data, 0) := rfl

/-- The root alone has no children (R490). -/
theorem GroupLease.children_of_alone {g : GroupLease} (ht : g.tree = [0]) (hr : g.root = 0) (d : Nat) : g.children d = [] := by
  unfold GroupLease.children
  rw [ht, hr]
  rfl

/-- The head binds a lease of its own, with a slot in every router to the anchor (R489). -/
theorem State.bindGroup_alone {n : Nat} {g : GroupLease} {slots : List Nat} (hm : u.group.member = 0) (ht : g.tree = [0]) (hr : g.root = 0)
    (hin : g.inMask 0 = true) (hl : (u.lease g.lease).state ≠ 0) (hs : u.reserveSlots g.lease
      ((anchorPath (u.lease g.lease).words).filter fun r => !((u.lease g.lease).slots.map (· / 4)).contains r) [] = some (slots, w)) :
    u.bindGroup n g = (1, w.setGroupLease n { g with state := 1, slots := slots }) := by
  have hport : u.leasePort n g = none := by
    refine (if_neg (by rw [hm, hr]; decide)).trans ?_
    rw [hm, GroupLease.children_of_alone ht hr]
    rfl
  refine (if_neg ?_).trans ?_
  · rw [decide_eq_false hl, Bool.and_false]; exact Bool.false_ne_true
  · rw [hm, if_pos hin, hs]
    dsimp only
    rw [hport]

theorem State.sendMembers_lease (s : State) (members kind : Nat) (fields : List Nat) (l : Nat) :
    (s.sendMembers members kind fields).lease l = s.lease l := by rw [State.sendMembers_eq]; rfl

/-- The lowest request held is sent as target, to be applied later (R496). -/
theorem bellwetherWindow_eq {low setter : Nat} (hlow : s.lowestRequest = (low, setter)) (hl : s.steward.lost = false)
    (hloss : s.boot.inputLoss = false) (hm : s.group.member = 0) (hsh : s.group.shape ≠ 0) (hmax : low < 1801)
    (hnew : low ≠ s.group.sentTarget ∨ s.group.targetAt + usCycles 10 ≤ s.now) :
    exec .bellwetherWindow s = .next (
      let due := (s.reg 0x2210 5 + s.reg 0x2210 4) % 2 ^ 64
      State.sendMembers { s.setReg 0x2210 3 setter with
        group := { s.group with sentTarget := low, targetAt := s.now, targets := s.group.targets ++ [(due, low)] } } (s.reg 0x5200 6) 17
          [low, s.reg 0x2210 5, due]) := by
  have hreg {idx sub : Nat} (h : idx * 256 + sub ≠ 0x2210 * 256 + 3) : (s.setReg 0x2210 3 setter).reg idx sub = s.reg idx sub :=
    State.reg_setReg_of_ne _ _ h
  refine congrArg Host.Outcome.next ?_
  dsimp only
  rw [hlow]
  refine (if_neg ?_).trans ((if_neg ?_).trans ?_)
  · rw [hm, decide_eq_false hsh, hl, hloss, decide_eq_false (Nat.not_le.mpr hmax)]
    decide
  · rw [Bool.and_eq_true, decide_eq_true_eq, decide_eq_true_eq, not_and_or, Nat.not_lt]
    exact hnew
  · dsimp only
    rw [hreg (by decide : 0x2210 * 256 + 5 ≠ _), hreg (by decide : 0x2210 * 256 + 4 ≠ _)]
    exact congrArg (fun m => State.sendMembers _ m 17 _) (hreg (by decide))

/-- A device that only forwards sends its one child's partial on (R490). -/
theorem groupMerge_forward {n d value : Nat} (st : Status) (rtype : Nat) (data : List Byte) (hst : (s.groupLease n).state = 1)
    (hr : s.running = true) (hin : (s.groupLease n).inMask s.group.member = false) (hroot : s.group.member ≠ (s.groupLease n).root)
    (hround : (s.groupLease n).round = false) (hkids : (s.groupLease n).children s.group.member = [d])
    (hdir : nextDirection s.group.member (s.groupLease n).root = some value) :
    exec (.groupMerge n [(d, st, rtype, data)]) s = .next
      (((s.towerWrap 0xB201 (portTower (((s.groupLease n).ports.headD 0) / 16)) 0).setGroupLease n { s.groupLease n with round := true }).send
        (.groupMessage (neighbour s.group.member value) 10 [n, st.toNat, rtype, if st = 0 then data.length else 0,
          if st = 0 then bytesToNat data else 0])) := by
  have hfind : ([st].find? (· ≠ 0) : Option Status) = if st = 0 then none else some st := by
    by_cases h : st = 0
    · rw [if_pos h, List.find?_cons_of_neg (by simpa using h)]
      rfl
    · rw [if_neg h, List.find?_cons_of_pos (by simpa using h)]
  have hguard : (decide ((s.groupLease n).state ≠ 1) || !s.running || (s.groupLease n).round || decide ([d] ≠ [d]) || (false && true) ||
      (decide (s.group.member = (s.groupLease n).root) && false)) = false := by
    rw [hst, hr, hround, decide_eq_false (not_not.mpr (rfl : [d] = [d])), Bool.and_false]
    rfl
  refine congrArg Host.Outcome.next ?_
  dsimp only
  rw [hin, hkids]
  refine (if_neg (ne_true_of_eq_false hguard)).trans ((if_neg ?_).trans ?_)
  · rw [decide_eq_false hroot]
    exact Bool.false_ne_true
  · rw [if_neg hroot, hdir]
    by_cases h : st = 0
    · subst h
      simp only [decide_eq_false hroot, Bool.false_and, Bool.false_or, Bool.not_false, if_true, if_neg hroot, Option.toList_none,
        List.nil_append, List.map_cons, List.map_nil, List.append_nil, List.headD_cons, List.all_cons, List.all_nil, beq_self_eq_true,
        hfind, mergeAll_single, if_neg Bool.false_ne_true, Bool.and_self]
    · simp only [decide_eq_false hroot, Bool.false_and, Bool.false_or, Bool.not_false, if_true, if_neg hroot, Option.toList_none,
        List.nil_append, List.map_cons, List.map_nil, List.append_nil, List.headD_cons, hfind, if_neg h, if_neg Bool.false_ne_true,
        List.length_nil]
      rfl

/-- The head binds a group lease of its own, which nothing else holds (R489). -/
theorem groupLease_bind {n others : Nat} {bytes : List Byte} {g : GroupLease} (hl : s.steward.lost = false) (hn : n < 32)
    (hlen : bytes.length = 16) (hres : fieldAt bytes 11 5 = 0) (hmask : fieldAt bytes 0 8 ≠ 0) (hm : s.group.member = 0)
    (hst : (s.groupLease n).state = 0)
    (hg : g = { mask := fieldAt bytes 0 8, lease := fieldAt bytes 8 2 % 2 ^ 11, root := fieldAt bytes 10 1 % 64 })
    (ht : t = { s with groupLeaseEntries := Map.set 0 s.groupLeaseEntries n (bytesToNat bytes) })
    (hu : u = t.sendMembers (t.reg 0x5200 6) 9 [n, bytesToNat bytes])
    (hout : ((maskDevices (fieldAt bytes 0 8)).any (fun d => !(t.reg 0x5200 6).testBit d) || !g.inMask (fieldAt bytes 10 1 % 64)) = false)
    (hin : g.tree.contains u.group.member = true) (htree : g.tree = [0]) (hbind : u.bindGroup n g = (1, w)) :
    exec (.groupLease n bytes false others) s = .next (w.setReg 0x5203 (n + 1) 1) := by
  refine congrArg Host.Outcome.next ((State.written_of_steward hl).trans ((if_neg ?_).trans ((if_neg hmask).trans ((if_neg ?_).trans ?_))))
  · rw [decide_eq_false (Nat.not_le.mpr hn), hlen, hres, hm]
    decide
  · rw [decide_eq_false (not_not.mpr hst)]
    exact Bool.false_ne_true
  · dsimp only
    rw [if_neg (not_not.mpr hst), hm]
    simp only [if_true, decide_true, Bool.true_and]
    have hfar : (g.tree.any fun d => decide (d ≠ 0)) = false := by rw [htree]; rfl
    rw [← ht, ← hu, ← hg]
    simp only [hout, hin, hbind, hfar, if_true, if_neg Bool.false_ne_true, ne_eq, not_true_eq_false, if_false]

/-- Settles O46. -/
theorem groupLeasesAndPaceLock : Obligations.GroupLeasesAndPaceLock := by
  unfold Obligations.GroupLeasesAndPaceLock
  intro s n device value target tick apply source bytes others g gl
  have hsends (hsh : g.shape ≠ 0) (hl : s.steward.lost = false) (hloss : s.boot.inputLoss = false) :
      (decide (s.group.shape = 0) || s.steward.lost || s.boot.inputLoss) = false := by
    rw [decide_eq_false (show ¬ s.group.shape = 0 from hsh), hl, hloss]
    rfl
  have hform (hn : n < 32) (hlen : bytes.length = 16) (hres : fieldAt bytes 11 5 = 0) (hm : g.member = 0) :
      ¬ (decide (32 ≤ n) || decide (bytes.length ≠ 16) || decide (fieldAt bytes 11 5 ≠ 0) ||
        (decide (s.group.member = 0) && false) || (!decide (s.group.member = 0) && !false)) = true := by
    rw [decide_eq_false (Nat.not_le.mpr hn), hlen, hres, show s.group.member = 0 from hm]
    decide
  refine ⟨fun hl hn hlen hres hmask hm hst => ?unbound, fun slots s1 hl hn hlen hres hmask hm hst => ?bind, fun h => ?ill,
    fun d st rtype data hst hr hin hroot hround hkids hdir => ?merge, fun hsh => ?paceAlone, fun hsh hm hl hloss => ?paceHead,
    fun hsh hm hl hloss hnew => ?paceMember, fun hm hsh hd hin => ?request, ?bellwether, fun hm hsh hnone => ?target,
    fun h => congrArg Host.Outcome.next (State.applyTargets_of_later h),
    fun ht h => congrArg Host.Outcome.next (State.applyTargets_of_due ht h), ?edge, fun h6 ht => ?loss, fun h5 ht => ?orphan,
    fun hsh hm => ?freezeMember, fun hsh hm h8 hin hsrc => ?freezeHead, fun hsh hm h8 => ?freezeNone⟩
  case unbound =>
    have hexec : exec (.groupLease n bytes false others) s = .next ((State.sendMembers
        { s with groupLeaseEntries := Map.set 0 s.groupLeaseEntries n (bytesToNat bytes) } (s.reg 0x5200 6) 9 [n, bytesToNat bytes]).setReg
          0x5203 (n + 1) 0) := by
      refine congrArg Host.Outcome.next ((State.written_of_steward hl).trans ((if_neg (hform hn hlen hres hm)).trans ((if_pos hmask).trans ((if_pos hst).trans ?_))))
      rw [show s.group.member = 0 from hm]
      rfl
    refine ⟨_, hexec, State.reg_setReg_same .., ?_, ?_, ?_, ?_⟩
    all_goals rw [State.sendMembers_eq]
    · rfl
    · exact Map.get_set_same _ _ _ _
    · rfl
    · rfl
  case bind =>
    intro b u held htree hroot hmembers hin hheld hslots
    have hu : u.group.member = 0 := by
      rw [show u = _ from State.sendMembers_eq ..]
      exact hm
    have hlease : u.lease b.lease = held := State.sendMembers_lease ..
    have hb0 : b.inMask 0 = true := (hmembers 0 (by decide)).mpr rfl
    have hbind := State.bindGroup_alone (n := n) hu htree hroot hb0 (by rw [hlease]; exact hheld) (by rw [hlease]; exact hslots)
    have houtside : ((maskDevices b.mask).any (fun d => !(s.reg 0x5200 6).testBit d) || !b.inMask b.root) = false := by
      rw [hroot, hb0, Bool.not_true, Bool.or_false, List.any_eq_false]
      intro d hd
      obtain ⟨hd, hmask⟩ := List.mem_filter.mp hd
      rw [(hmembers d (List.mem_range.mp hd)).mp hmask, hin]
      decide
    have hhere : b.tree.contains u.group.member = true := by rw [htree, hu]; rfl
    refine groupLease_bind (g := b) (u := u) hl hn hlen hres hmask hm hst rfl rfl ?_ ?_ hhere htree hbind
    · rfl
    · exact houtside
  case ill =>
    refine congrArg Host.Outcome.next (State.written_self (if_pos ?_))
    simp only [Bool.or_eq_true, decide_eq_true_eq, Bool.and_false, Bool.not_false, Bool.and_true, Bool.not_eq_true', decide_eq_false_iff_not]
    tauto
  case merge =>
    have hexec := groupMerge_forward st rtype data hst hr hin hroot hround hkids hdir
    exact hexec
  case paceAlone =>
    exact congrArg Host.Outcome.next (if_pos (by rw [decide_eq_true (show s.group.shape = 0 from hsh)]; rfl))
  case paceHead =>
    exact congrArg Host.Outcome.next ((if_neg (ne_true_of_eq_false (hsends hsh hl hloss))).trans (if_pos hm))
  case paceMember =>
    have hold : (decide (s.paceRequest = s.group.sentRequest) && decide (s.now < s.group.requestAt + usCycles 10)) = false := by
      rw [Bool.and_eq_false_iff, decide_eq_false_iff_not, decide_eq_false_iff_not, Nat.not_lt]
      exact hnew
    exact ⟨_, congrArg Host.Outcome.next ((if_neg (ne_true_of_eq_false (hsends hsh hl hloss))).trans ((if_neg hm).trans
      (if_neg (ne_true_of_eq_false hold)))), rfl, State.reg_setReg_same (s := s) .., rfl, rfl⟩
  case request =>
    refine congrArg Host.Outcome.next (if_neg ?_)
    rw [show s.group.member = 0 from hm, decide_eq_false (show ¬ s.group.shape = 0 from hsh), decide_eq_false (Nat.not_le.mpr hd), hin]
    decide
  case bellwether =>
    intro low due hl hloss hm hsh hlow hnew
    have hexec := bellwetherWindow_eq (low := low.1) (setter := low.2) rfl hl hloss hm hsh hlow hnew
    refine ⟨_, hexec.trans (congrArg _ (State.sendMembers_eq ..)), State.reg_setReg_same (s := s) .., rfl, rfl⟩
  case target =>
    intro now
    have hexec : exec (.paceTarget target tick apply) s = .next (
        let u : State := { s.setReg 0x2210 5 now with group := { g with targets := [(apply, target)], heardTarget := s.now } }
        (if u.reg 0x5200 5 = 4 then u.setReg 0x5200 5 2 else u).applyTargets) := by
      refine congrArg Host.Outcome.next ((if_neg ?_).trans ?_)
      · rw [decide_eq_false (show ¬ s.group.member = 0 from hm), decide_eq_false (show ¬ s.group.shape = 0 from hsh)]
        decide
      · rw [show s.group.targets = [] from hnone]
        rfl
    obtain ⟨V, hV, hgroup, h5, h1⟩ : ∃ V : State, exec (.paceTarget target tick apply) s = .next V.applyTargets ∧
        V.group = { g with targets := [(apply, target)], heardTarget := s.now } ∧ V.reg 0x2210 5 = now ∧
        V.reg 0x2210 1 = s.reg 0x2210 1 := by
      refine ⟨_, hexec, ?_, ?_, ?_⟩
      · dsimp only
        split <;> rfl
      · dsimp only
        split
        · exact (State.reg_setReg_of_ne _ _ (by decide)).trans (State.reg_setReg_same (s := s) ..)
        · exact State.reg_setReg_same (s := s) ..
      · dsimp only
        split
        · exact (State.reg_setReg_of_ne _ _ (by decide)).trans (State.reg_setReg_of_ne (s := s) _ (by decide))
        · exact State.reg_setReg_of_ne (s := s) _ (by decide)
    have htargets : V.group.targets = [(apply, target)] := by rw [hgroup]
    rcases Nat.lt_or_ge now apply with h | h
    · refine ⟨V, hV.trans (congrArg _ (State.applyTargets_of_later fun e he => ?_)), h5, by rw [hgroup],
        fun h' => absurd h' (Nat.not_le.mpr h), fun _ => ⟨h1, htargets⟩⟩
      rw [htargets] at he
      rw [List.mem_singleton.mp he, h5]
      exact h
    · refine ⟨_, hV.trans (congrArg _ (State.applyTargets_of_due htargets (by rw [h5]; exact h))), ?_, ?_, fun _ => ⟨?_, rfl⟩,
        fun h' => absurd h' (Nat.not_lt.mpr h)⟩
      · exact (State.reg_setReg_of_ne _ _ (by decide)).trans h5
      · exact congrArg Group.heardTarget hgroup
      · exact State.reg_setReg_same ..
  case edge =>
    refine ⟨_, rfl, ?_, State.reg_setReg_same .., rfl⟩
    exact (State.reg_setReg_of_ne _ _ (by decide)).trans (State.reg_setReg_same ..)
  case loss =>
    refine congrArg Host.Outcome.next (if_neg ?_)
    rw [decide_eq_false h6, decide_eq_false (Nat.not_lt.mpr ht)]
    decide
  case orphan =>
    refine congrArg Host.Outcome.next (if_neg ?_)
    rw [h5, decide_eq_false (Nat.not_lt.mpr ht)]
    decide
  case freezeMember =>
    exact congrArg Host.Outcome.next ((if_neg hsh).trans (if_pos hm))
  case freezeHead =>
    refine congrArg Host.Outcome.next ((if_neg hsh).trans ((if_neg (not_not.mpr hm)).trans (if_pos ?_)))
    rw [h8, hin, decide_eq_true hsrc]
    rfl
  case freezeNone =>
    refine congrArg Host.Outcome.next ((if_neg hsh).trans ((if_neg (not_not.mpr hm)).trans (if_neg ?_)))
    rw [decide_eq_false h8]
    exact Bool.false_ne_true

end Sys2Proof.Machine
end

section
/-! PROOFS. Stream links and bindings (R507, R509 to R514, R521, R522). -/
namespace Sys2Proof.Machine
variable {s t u v w : State}

/-! ### Stream links and bindings (R507, R509 to R514, R521, R522) -/

/-- A bind of a queue in service whose checks pass. -/
theorem State.bindWork_checked {b : BindOp} (hwf : bindWellFormed b.words = true) (hact : (b.words.getD 1 0).toNat / 2 ^ 62 = 0)
    (hex : coreExists (queueCore ((b.words.getD 1 0).toNat % 2 ^ 19)) = true)
    (hserv : s.inService (queueCore ((b.words.getD 1 0).toNat % 2 ^ 19)) = true) :
    s.bindWork b =
      if (b.words.getD 2 0).toNat % 64 ≠ 0 || !(s.queue ((b.words.getD 1 0).toNat % 2 ^ 19)).producer then (some (0x02 : Status), s)
      else
        match s.checkSram (storeAddr b.core (b.words.getD 2 0).toNat / 64) (.dispatcher b.core) with
        | (.waiting, s) => (none, s)
        | (.failed, s) => (some 0x0A, s)
        | (.ok, s) =>
          let words := (List.range 8).map fun j =>
            BitVec.ofNat 64 (bytesToNat (s.bytes (storeAddr b.core (b.words.getD 2 0).toNat + 8 * j) 8))
          if (words.getD 0 0).toNat / 2 ^ 40 % 256 ≠ 1 then (some 0x02, s)
          else (some 0, { s with stream := { s.stream with
            bindings := Map.set (0, []) s.stream.bindings (bindStream b.words) ((b.words.getD 1 0).toNat % 2 ^ 19 + 1, words) } }) := by
  refine (if_neg ?_).trans ((if_neg (by rw [hex]; decide)).trans ((if_neg (by rw [hserv]; decide)).trans rfl))
  rw [hwf, hact]
  decide

/-- The oldest bind of an action that ends. -/
theorem State.runBind_of_ended {action : Nat → Bool} {work : State → BindOp → Option Status × State} {b : BindOp} {st : Status}
    (hf : s.bindOps.find? (fun b => action ((b.words.getD 1 0).toNat / 2 ^ 62)) = some b) (hr : s.running = true)
    (hw : work s b = (some st, t)) :
    s.runBind action work = State.complete { t with bindOps := t.bindOps.filter (· != b) } b.target st := by
  unfold State.runBind
  rw [hf]
  refine (if_neg (by rw [hr]; decide)).trans ?_
  rw [hw]

/-- HOLD_STATE for every link with lanes. -/
theorem State.foldl_holdState (l : List Nat) (s : State) :
    l.foldl (fun (s : State) n => if s.linkLanes n ≠ 0 then s.sendControl n { type := 0x12 } else s) s =
      { s with out := ((l.filter fun k => s.linkLanes k ≠ 0).map fun k => Output.egress (k / 4)
        (({ type := 0x12 } : Control).bytes k (s.link k).hold (s.refTime (linkTower k)))).reverse ++ s.out } := by
  induction l generalizing s with
  | nil => rfl
  | cons k l ih =>
    rw [List.foldl_cons, List.filter_cons]
    by_cases h : s.linkLanes k ≠ 0
    · rw [if_pos h, if_pos (decide_eq_true h)]
      refine (ih _).trans ?_
      rw [List.map_cons, List.reverse_cons, List.append_assoc]
      rfl
    · rw [if_neg h, if_neg (by rw [decide_eq_false h]; decide)]
      exact ih s

/-- A declaration accepted, or refused with its cause (R511, R512). -/
def State.answerDeclare (u : State) (n : Nat) (bs : List Byte) (cause : Nat) : State :=
  let m := u.link n
  let f (off : Nat) : Nat := fieldAt (framePayload bs) off 4
  let h := hreq (f 4) (f 8) (f 12) (f 16) (u.reg 0x7008 1)
  ((if cause = 0 then u.setLink n { m with
      state := 3, rate := f 4, lead := f 8, minFrame := f 12, maxFrame := f 16, hreq := h
      hreqNow := if m.declared then max m.hreqNow h else h
      switchAt := if m.declared then some (u.now + usCycles m.lead + nsCycles (u.reg 0x7008 1)) else none }
    else u.setLink n { m with state := 5 }).refreshHold n).sendControl n
      { type := 0x11, flags := if cause = 0 then 0 else frameRefused, stream := (frameHeader bs).stream, cause := cause,
        seq := (frameHeader bs).seq.toNat }

/-- A link's declaration whose header is good. -/
theorem declare_eq {n : Nat} {bs : List Byte} (hn : n < 8) (hst : 2 ≤ (s.link n).state) (hh : headerGood bs = true)
    (ht : fieldAt bs 0 1 = 2) :
    exec (.declare n bs) s = .next (
      let u := s.noteSeq n (frameHeader bs).seq
      if !payloadGood bs then u else u.answerDeclare n bs (u.declareCause n bs)) := by
  refine congrArg Host.Outcome.next ((if_neg ?_).trans ((if_neg (by rw [hh]; decide)).trans ((if_neg (not_not.mpr ht)).trans rfl)))
  rw [decide_eq_true hn, decide_eq_true hst]
  decide

theorem linkEnableWrite_eq {n : Nat} {v : Byte} (hl : s.steward.lost = false) (hn : n < 8) (hv : v.toNat ≤ 1) :
    exec (.linkEnableWrite n v) s = .next (
      if v = 0 then (s.setReg 0x7000 (n + 1) 0).refreshHold n
      else if s.linkEnabled n then s
      else if !s.linkLegal n || s.dm.towers.contains (linkTower n) then s.sat32 0xB902 2 1
      else
        ((if (s.link n).ringOff = s.reg 0x7002 (n + 1) ∧ (s.link n).ringBytes = s.reg 0x7003 (n + 1) then s
          else s.setLink n { s.link n with
            ringOff := s.reg 0x7002 (n + 1), ringBytes := s.reg 0x7003 (n + 1), next := 0, space := false
            slots := (s.link n).slots.map fun f => { f with take := 0 } }).setReg 0x7000 (n + 1) 1).refreshHold n) := by
  refine congrArg Host.Outcome.next ((State.written_of_steward hl).trans (if_neg ?_))
  rw [decide_eq_false (Nat.not_le.mpr hn), decide_eq_false (Nat.not_lt.mpr hv)]
  decide

/-- Settles O47. -/
theorem streamLinksAndBindings : Obligations.StreamLinksAndBindings := by
  unfold Obligations.StreamLinksAndBindings
  intro s n b t v bs l w1 at_ a words ended
  refine ⟨fun hf hr hwf hact hex hserv => ?bind, fun hf hr hwf => ?unbind, fun hn => ⟨fun h0 hl => ?lock, fun h0 => ?noLock, fun h1 => ?deskew,
    fun h1 => ?noDeskew, fun hst hh => ?badHeader, ?declare, fun hst hh ht hp => ?badPayload, fun hl hv hen hleg ht hnew => ?enable,
    fun hl hv hen hleg => ?refuse, fun hl hv => ?disable, fun h0 => ?loss, fun stream seq h0 => ?lossFrame, fun frame h0 => ?noLoss⟩,
    fun hsw ht => ?switch, fun hsw ht => ?noSwitch, fun ht => ?timer, fun ht => congrArg Host.Outcome.next (if_pos ht)⟩
  case bind =>
    have hwork := State.bindWork_checked hwf hact hex hserv
    refine ⟨fun h => congrArg Host.Outcome.next (State.runBind_of_ended hf hr (hwork.trans (if_pos ?_))), fun hal hprod hline hlaunch => ?_⟩
    · rw [Bool.or_eq_true, decide_eq_true_eq, Bool.not_eq_true']
      exact h
    · intro u
      refine congrArg Host.Outcome.next (State.runBind_of_ended hf hr (hwork.trans ((if_neg ?_).trans ?_)))
      · rw [hprod, decide_eq_false (not_not.mpr hal)]
        decide
      · rw [State.checkSram_of_ok hline]
        exact if_neg (not_not.mpr hlaunch)
  case unbind =>
    exact congrArg Host.Outcome.next (State.runBind_of_ended hf hr (if_neg (by rw [hwf]; decide)))
  case lock =>
    refine congrArg Host.Outcome.next (if_pos ?_)
    rw [decide_eq_true hn, decide_eq_true (show (s.link n).state = 0 from h0), decide_eq_true hl]
    rfl
  case noLock =>
    refine congrArg Host.Outcome.next (if_neg ?_)
    rw [decide_eq_false (show ¬ (s.link n).state = 0 from h0), Bool.and_false, Bool.false_and]
    exact Bool.false_ne_true
  case deskew =>
    refine congrArg Host.Outcome.next (if_pos ?_)
    rw [decide_eq_true hn, decide_eq_true (show (s.link n).state = 1 from h1)]
    rfl
  case noDeskew =>
    refine congrArg Host.Outcome.next (if_neg ?_)
    rw [decide_eq_false (show ¬ (s.link n).state = 1 from h1), Bool.and_false]
    exact Bool.false_ne_true
  case badHeader =>
    refine congrArg Host.Outcome.next ((if_neg ?_).trans (if_pos (by rw [hh]; rfl)))
    rw [decide_eq_true hn, decide_eq_true (show 2 ≤ (s.link n).state from hst)]
    decide
  case declare =>
    intro u m f hst hh ht hp answer
    have hexec := (declare_eq hn hst hh ht).trans (congrArg Host.Outcome.next (if_neg (by rw [hp]; decide)))
    refine ⟨fun hc => hexec.trans (congrArg _ ?_), fun hc => hexec.trans (congrArg _ ?_)⟩
    · exact congrArg (fun t => (State.refreshHold t n).sendControl n _) (if_neg hc)
    · rw [show (s.noteSeq n (frameHeader bs).seq).declareCause n bs = 0 from hc]
      rfl
  case badPayload =>
    exact (declare_eq hn hst hh ht).trans (congrArg Host.Outcome.next (if_pos (by rw [hp]; rfl)))
  case enable =>
    subst hv
    refine (linkEnableWrite_eq hl hn (by decide)).trans (congrArg _ ?_)
    refine (if_neg (by decide)).trans ((if_neg (by rw [hen]; decide)).trans ((if_neg (by rw [hleg, ht]; exact Bool.false_ne_true)).trans ?_))
    rw [if_neg (not_and_or.mpr hnew)]
  case refuse =>
    subst hv
    refine (linkEnableWrite_eq hl hn (by decide)).trans (congrArg _ ?_)
    exact (if_neg (by decide)).trans ((if_neg (by rw [hen]; decide)).trans (if_pos (by rw [hleg]; rfl)))
  case disable =>
    subst hv
    exact (linkEnableWrite_eq hl hn (by decide)).trans (congrArg _ (if_pos rfl))
  case loss =>
    refine congrArg Host.Outcome.next (if_neg ?_)
    rw [decide_eq_false (Nat.not_le.mpr hn), decide_eq_false (show ¬ (s.link n).state = 0 from h0)]
    decide
  case lossFrame =>
    intro u
    refine congrArg Host.Outcome.next (if_neg ?_)
    rw [decide_eq_false (Nat.not_le.mpr hn), decide_eq_false (show ¬ (s.link n).state = 0 from h0)]
    decide
  case noLoss =>
    refine congrArg Host.Outcome.next (if_pos ?_)
    rw [decide_eq_true (show (s.link n).state = 0 from h0), Bool.or_true]
  case switch =>
    refine congrArg Host.Outcome.next ?_
    dsimp only
    rw [show (s.link n).switchAt = some t from hsw]
    exact if_pos ht
  case noSwitch =>
    refine congrArg Host.Outcome.next ?_
    dsimp only
    rw [show (s.link n).switchAt = some t from hsw]
    exact if_neg (Nat.not_le.mpr ht)
  case timer =>
    refine ⟨_, congrArg Host.Outcome.next ((if_neg (Nat.not_lt.mpr ht)).trans (State.foldl_holdState _ _)), rfl, rfl, rfl⟩

end Sys2Proof.Machine
end

section
/-! PROOFS. Frames and verdicts (R515, R519 to R526). -/
namespace Sys2Proof.Machine
variable {s t u v w : State}

/-! ### Frames and verdicts (R515, R519 to R526) -/

/-- A header noted changes the link and what is sent alone. -/
theorem State.noteSeq_eq (s : State) (n : Nat) (seq : Word32) :
    ∃ L O, s.noteSeq n seq = { s with stream := { s.stream with links := L }, out := O } := by
  have sends (l : List Control) (t : State) : ∃ O, l.foldl (fun (s : State) c => s.sendControl n c) t = { t with out := O } := by
    induction l generalizing t with
    | nil => exact ⟨_, rfl⟩
    | cons c l ih =>
      obtain ⟨O, h⟩ := ih (t.sendControl n c)
      exact ⟨O, h⟩
  obtain ⟨O, h⟩ := sends _ _
  exact ⟨_, O, h⟩

/-- A good frame counted with its gap. -/
def State.frameCounted (s : State) (n : Nat) (h : FrameHeader) : State :=
  (s.noteSeq n h.seq).setLink n ((((s.noteSeq n h.seq).link n).count 0 1).count 1 h.length)

theorem State.frameCounted_eq (s : State) (n : Nat) (h : FrameHeader) :
    ∃ L O, s.frameCounted n h = { s with stream := { s.stream with links := L }, out := O } := by
  unfold State.frameCounted
  obtain ⟨L, O, hs⟩ := s.noteSeq_eq n h.seq
  rw [hs]
  exact ⟨_, O, rfl⟩

/-- A good DATA frame of a link. -/
theorem dataFrame_eq {n : Nat} {bs : List Byte} (sp : Bool) (hn : n < 8) (hst : 2 ≤ (s.link n).state) (hh : headerGood bs = true)
    (ht : fieldAt bs 0 1 = 1) :
    exec (.dataFrame n bs sp) s = .next (
      let h := frameHeader bs
      let u := s.frameCounted n h
      let drop (cause : Nat) : State := u.dropFrame n cause h.stream h.seq (Map.get 0 s.stream.fallbacks h.stream)
      if !(s.link n).declared then drop 0x0B
      else if (s.link n).maxFrame < h.length || 65536 < h.length then drop 0x04
      else if !payloadGood bs then drop 0x02
      else u.arrive n h (framePayload bs) sp) := by
  have hfall : (s.frameCounted n (frameHeader bs)).stream.fallbacks = s.stream.fallbacks := by
    obtain ⟨L, O, h⟩ := s.frameCounted_eq n (frameHeader bs)
    rw [h]
  refine congrArg Host.Outcome.next ((if_neg ?_).trans ((if_neg (by rw [hh]; decide)).trans ((if_neg (not_not.mpr ht)).trans ?_)))
  · rw [decide_eq_true hn, decide_eq_true hst]
    decide
  · dsimp only
    rw [← hfall]
    rfl

/-- Pushes do nothing while the oldest slot without a launch is not written. -/
theorem State.pushFrames_of_unwritten {n : Nat} (k : Nat)
    (h : ((s.link n).slots.any fun x => x.written && x.launch.isNone && !x.released) = false) : s.pushFrames n k = s := by
  cases k with
  | zero => rfl
  | succ k =>
    unfold State.pushFrames
    split
    · rfl
    next f hf =>
      have hok := List.find?_some hf
      have hno := List.any_eq_false.mp h f (List.mem_of_find?_eq_some hf)
      refine if_pos ?_
      rw [Bool.and_eq_true] at hok
      cases hw : f.written with
      | true => exact absurd (by rw [hw, hok.1, hok.2]; rfl) hno
      | false => rfl

/-- A frame with a line that fails is recorded and dropped (R520). -/
theorem State.placeFrame_of_failing {n : Nat} {f : Frame} (h : ∃ e ∈ f.crc, e.2 ≠ 0) :
    s.placeFrame n f = (s.bufferRecord n).dropFrame n 0x06 f.stream f.seq f.fallback := by
  obtain ⟨e, he, h0⟩ := h
  exact if_pos (List.any_eq_true.mpr ⟨e, he, by simpa using h0⟩)

theorem State.placeFrame_of_none {n : Nat} {f : Frame} (hc : f.crc = []) (h : (s.link n).place (slotBytes f.length) = none) :
    s.placeFrame n f = s.dropFrame n 0x01 f.stream f.seq f.fallback := by
  refine (if_neg (by rw [hc]; exact Bool.false_ne_true)).trans ?_
  dsimp only
  rw [h]

theorem State.placeFrame_of_some {n off take : Nat} {f : Frame} (hc : f.crc = [])
    (h : (s.link n).place (slotBytes f.length) = some (off, take))
    (hup : s.slotInReset (towerAliasBase + linkTower n * dramTower + (s.link n).ringOff + off) (slotBytes f.length) = false) :
    s.placeFrame n f =
      let l := s.link n
      let m := { l with
        slots := l.slots ++ [{ f with addr := towerAliasBase + linkTower n * dramTower + l.ringOff + off, take := take }]
        next := off + slotBytes f.length }
      (s.setLink n { m with space := m.space || decide (m.free < m.hreqNow) }).refreshHold n := by
  refine (if_neg (by rw [hc]; exact Bool.false_ne_true)).trans ?_
  dsimp only
  rw [h]
  exact if_neg (ne_true_of_eq_false hup)

/-- The frame that a good DATA frame makes at its last byte. -/
def State.arrived (s : State) (n : Nat) (h : FrameHeader) (payload : List Byte) (q : Nat) (template : List Word)
    (crc : List (Nat × BitVec 16)) : Frame :=
  { seq := h.seq, stream := h.stream, length := h.length, sourceTime := h.sourceTime, payload := payload
    arrival := s.refTime (linkTower n), queue := q, template := template, fallback := Map.get 0 s.stream.fallbacks h.stream
    crc := crc
    deadline := s.refTime (linkTower n) + BitVec.ofNat 64 (usCycles (Map.get 100 s.stream.deadlines h.stream)) }

/-- A frame of a stream that is not bound is dropped (R522). -/
theorem State.arrive_of_unbound {n : Nat} {h : FrameHeader} {payload : List Byte} {sp : Bool} {template : List Word}
    (hb : Map.get (0, []) s.stream.bindings h.stream = (0, template)) :
    s.arrive n h payload sp =
      (if sp then s.withTokens 1 else s).dropFrame n 0x05 h.stream h.seq (Map.get 0 s.stream.fallbacks h.stream) := by
  unfold State.arrive
  rw [hb]
  cases sp <;> rfl

/-- A frame of a bound stream is placed, its buffered line upset where it is spoiled (R456, R515). -/
theorem State.arrive_of_bound {n q : Nat} {h : FrameHeader} {payload : List Byte} {sp : Bool} {template : List Word}
    (hr : s.running = true) (hb : Map.get (0, []) s.stream.bindings h.stream = (q + 1, template))
    (hbuf : Map.get [] s.stream.buffers (n / 4) = []) :
    s.arrive n h payload sp =
      (if sp then s.withTokens 1 else s).placeFrame n (s.arrived n h payload q template
        (if sp then [((Config.freeWord s.fresh).toNat / 2 ^ 16 % max 1 ((h.length + 63) / 64),
          (Config.freeWord s.fresh).truncate 16 ||| 1)] else [])) := by
  unfold State.arrive
  rw [hb]
  dsimp only
  refine (if_neg (Nat.succ_ne_zero q)).trans ((if_pos ?_).trans ?_)
  · cases sp
    all_goals
      show (s.running && (Map.get [] s.stream.buffers (n / 4)).isEmpty) = true
      rw [hr, hbuf]
      rfl
  · cases sp <;> rfl

/-- The write of a frame's slot, and what follows from its status (R519, R520). -/
def State.slotWritten (s : State) (n : Nat) (f : Frame) : State :=
  match s.writeRange f.addr (f.header n ++ f.payload ++ List.replicate (slotBytes f.length - 64 - f.length) 0) none (.frame n f.addr) with
  | (0, s) => s.updFrame n (· == f) fun x => { x with written := true }
  | (_, s) => ((s.updFrame n (· == f) fun x => { x with released := true }).dropFrame n 0x09 f.stream f.seq f.fallback).freeRing n

theorem State.slotWritten_eq {n : Nat} {f : Frame} {st : Status}
    (hw : s.writeRange f.addr (f.header n ++ f.payload ++ List.replicate (slotBytes f.length - 64 - f.length) 0) none (.frame n f.addr) =
      (st, t)) :
    s.slotWritten n f =
      if st = 0 then t.updFrame n (· == f) fun x => { x with written := true }
      else ((t.updFrame n (· == f) fun x => { x with released := true }).dropFrame n 0x09 f.stream f.seq f.fallback).freeRing n := by
  unfold State.slotWritten
  rw [hw]
  by_cases h0 : st = 0
  · rw [if_pos h0, h0] <;> rfl
  · rw [if_neg h0]
    split
    next t' h =>
      obtain ⟨h1, h2⟩ := Prod.mk.inj h
      exact absurd h1 h0
    next st' t' _ h =>
      obtain ⟨h1, h2⟩ := Prod.mk.inj h
      rw [h2]

/-- SLOT_WRITE_COMPLETE where a slot is not written. -/
theorem slotWriteComplete_eq {n : Nat} {f : Frame} (hr : s.running = true)
    (hf : (s.link n).slots.find? (fun f => !f.written && !f.released) = some f) :
    exec (.slotWriteComplete n) s = .next (
      if (s.link n).slots.any fun x => x.written && x.launch.isNone && !x.released then
        s.unit (linkTower n * 2048) (.frame n f.addr) fun s => s.slotWritten n f
      else (s.unit (linkTower n * 2048) (.frame n f.addr) fun s => s.slotWritten n f).pushFrames n 2) := by
  refine congrArg Host.Outcome.next ((if_neg (by rw [hr]; decide)).trans ?_)
  rw [hf]
  dsimp only
  refine congrArg (fun body : State → State =>
    if (s.link n).slots.any fun x => x.written && x.launch.isNone && !x.released then s.unit (linkTower n * 2048) (.frame n f.addr) body
    else (s.unit (linkTower n * 2048) (.frame n f.addr) body).pushFrames n 2) (funext fun u => ?_)
  unfold State.slotWritten
  generalize u.writeRange _ _ _ _ = r
  rcases r with ⟨st, u'⟩
  rfl

/-- What a good DATA frame does, by its length, its payload and the binding of its stream. -/
theorem dataFrame_of_good {n : Nat} {bs : List Byte} (sp : Bool) (hn : n < 8) (hst : 2 ≤ (s.link n).state) (hh : headerGood bs = true)
    (ht : fieldAt bs 0 1 = 1) :
    let l := s.link n
    let h := frameHeader bs
    let counted := s.frameCounted n h
    let fallback := Map.get 0 s.stream.fallbacks h.stream
    let run := exec (.dataFrame n bs sp) s
    let drops (u : State) (cause : Nat) : Prop := run = .next (u.dropFrame n cause h.stream h.seq fallback)
    let free := Config.freeWord counted.fresh
    let v := if sp then counted.withTokens 1 else counted
    (l.declared = false → drops counted 0x0B) ∧
    (l.declared = true → l.maxFrame < h.length ∨ 65536 < h.length → drops counted 0x04) ∧
    (l.declared = true → h.length ≤ l.maxFrame → h.length ≤ 65536 →
      (payloadGood bs = false → drops counted 0x02) ∧
      (∀ template, payloadGood bs = true → Map.get (0, []) s.stream.bindings h.stream = (0, template) → drops v 0x05) ∧
      (∀ q template, payloadGood bs = true → s.running = true → Map.get (0, []) s.stream.bindings h.stream = (q + 1, template) →
        Map.get [] s.stream.buffers (n / 4) = [] → run = .next (v.placeFrame n
          { seq := h.seq, stream := h.stream, length := h.length, sourceTime := h.sourceTime, payload := framePayload bs
            arrival := s.refTime (linkTower n), queue := q, template := template, fallback := fallback
            crc := if sp then [(free.toNat / 2 ^ 16 % max 1 ((h.length + 63) / 64), free.truncate 16 ||| 1)] else []
            deadline := s.refTime (linkTower n) + BitVec.ofNat 64 (usCycles (Map.get 100 s.stream.deadlines h.stream)) }))) := by
  intro l h counted fallback run drops free v
  have hexec := dataFrame_eq sp hn hst hh ht
  obtain ⟨L, O, hcount⟩ := s.frameCounted_eq n h
  have hfall : (s.frameCounted n h).stream.fallbacks = s.stream.fallbacks := by rw [hcount]
  have hbind : (s.frameCounted n h).stream.bindings = s.stream.bindings := by rw [hcount]
  have hbuffers : (s.frameCounted n h).stream.buffers = s.stream.buffers := by rw [hcount]
  have hdead : (s.frameCounted n h).stream.deadlines = s.stream.deadlines := by rw [hcount]
  have hrun : (s.frameCounted n h).running = s.running := by rw [hcount]; rfl
  have hnow : (s.frameCounted n h).refTime (linkTower n) = s.refTime (linkTower n) := by rw [hcount]; rfl
  refine ⟨fun hd => ?_, fun hd hl => ?_, fun hd hlong hover => ⟨fun hp => ?_, fun template hp hb => ?_,
    fun q template hp hr hb hbuf => ?_⟩⟩
  · refine hexec.trans (congrArg _ (if_pos ?_))
    rw [show (s.link n).declared = false from hd]
    rfl
  · refine hexec.trans (congrArg _ ((if_neg ?_).trans (if_pos ?_)))
    · rw [show (s.link n).declared = true from hd]
      decide
    · simpa using hl
  all_goals
    refine hexec.trans (congrArg _ ((if_neg ?_).trans ((if_neg ?_).trans ?_)))
    · rw [show (s.link n).declared = true from hd]
      decide
    · simpa using ⟨hlong, hover⟩
  · refine if_pos ?_
    rw [hp]
    rfl
  · refine (if_neg (by rw [hp]; decide)).trans ?_
    refine (State.arrive_of_unbound (template := template) (by rw [hbind]; exact hb)).trans ?_
    rw [hfall]
  · refine (if_neg (by rw [hp]; decide)).trans ?_
    refine (State.arrive_of_bound (hrun.trans hr) (by rw [hbind]; exact hb) (by rw [hbuffers]; exact hbuf)).trans ?_
    unfold State.arrived
    rw [hfall, hdead, hnow]

/-- Settles O48. -/
theorem streamFramesAndVerdicts : Obligations.StreamFramesAndVerdicts := by
  unfold Obligations.StreamFramesAndVerdicts
  refine ⟨?data, ?slot, ?push, ?verdict, ?answer, ?expiry⟩
  case data =>
    intro s n bs sp f hn l h noted counted fallback run drops free v
    refine ⟨fun hst hh => ?bad, fun hst hh ht => ?good, State.placeFrame_of_failing, fun hc => ⟨State.placeFrame_of_none hc, ?placed⟩⟩
    case bad =>
      refine congrArg Host.Outcome.next ((if_neg ?_).trans (if_pos (by rw [hh]; rfl)))
      rw [decide_eq_true hn, decide_eq_true (show 2 ≤ (s.link n).state from hst)]
      decide
    case good => exact dataFrame_of_good sp hn hst hh ht
    case placed =>
      intro off take hp a m hup
      exact State.placeFrame_of_some hc hp hup
  case slot =>
    intro s s1 n f w hr hf who hw t u
    have hexec := slotWriteComplete_eq hr hf
    have hbody : s.slotWritten n f = t := State.slotWritten_eq hw
    refine ⟨fun hs => hexec.trans ?_, fun ha => hexec.trans ?_⟩
    · rw [State.unit_of_settled_eq (body := fun s => s.slotWritten n f) hbody hs]
    · rw [State.asking_eq_of_unit (body := fun s => s.slotWritten n f) hbody ha]
      split
      · rfl
      · next hno => exact congrArg _ (State.pushFrames_of_unwritten 2 (Bool.eq_false_of_not_eq_true hno))
  case push =>
    intro s n hr hx
    refine congrArg Host.Outcome.next (if_pos ?_)
    rw [hr, Bool.true_and, List.any_eq_true]
    obtain ⟨x, hmem, hl, hrel, htried⟩ := hx
    refine ⟨x, hmem, ?_⟩
    rcases htried with ⟨t, ht, hdue⟩ | ⟨ht, hw⟩
    · rw [hl, hrel, ht]
      exact decide_eq_true hdue
    · rw [hl, hrel, ht]
      exact hw
  case verdict =>
    intro s s1 s2 n f r late hr hf who st close ends
    have hexec : exec (.verdict n) s = .next (s.unit (linkTower n * 2048) who fun s =>
        let (r, s) := if f.answered then (({} : ReadResult), s) else s.readRange (f.addr + 56) 8 who
        if r.waiting then s
        else
          let (late, s) := if f.answered then (f.late, s) else s.answerFrame n f st r
          close s late) := by
      refine congrArg Host.Outcome.next ((if_neg (by rw [hr]; decide)).trans ?_)
      rw [hf] <;> rfl
    refine ⟨fun ha hs => hexec.trans (congrArg _ (State.unit_of_settled_eq ?_ hs)), fun ha hread => ⟨fun hw hs =>
      hexec.trans (congrArg _ (State.asking_eq_of_unit ?_ hs)), fun hw hans hs => hexec.trans (congrArg _ (State.unit_of_settled_eq ?_ hs))⟩⟩
    · rw [ha]
      rfl
    · rw [ha, if_neg Bool.false_ne_true, hread]
      exact if_pos hw
    · rw [ha, if_neg Bool.false_ne_true, hread]
      refine (if_neg (ne_true_of_eq_false hw)).trans ?_
      rw [if_neg Bool.false_ne_true, hans]
  case answer =>
    intro s n f st r u v
    refine ⟨fun h => if_pos h, fun h => ?_⟩
    have past {α : Type} (x y : α) : (if s.withTokens 1 |>.reached n f.deadline then x else y) = y := if_neg (ne_true_of_eq_false h)
    refine ⟨fun hr hv hst => ?_, fun hr hv hst => ?_, fun hv hst => ?_⟩
    · refine (past ..).trans (if_pos ?_)
      rw [hr, hst]
      exact (Bool.and_true _).trans (decide_eq_true hv)
    · have hvalid : (decide (r.status = 0) && decide (2 ^ 63 ≤ v)) = true := by
        rw [hr]
        exact decide_eq_true hv
      refine (past ..).trans ((if_neg ?_).trans (if_pos hvalid))
      rw [decide_eq_false hst, Bool.and_false]
      exact Bool.false_ne_true
    · have hvalid : (decide (r.status = 0) && decide (2 ^ 63 ≤ v)) = false := by
        rw [Bool.and_eq_false_iff, decide_eq_false_iff_not, decide_eq_false_iff_not]
        exact hv.imp id Nat.not_le.mpr
      refine (past ..).trans ((if_neg ?_).trans ((if_neg (ne_true_of_eq_false hvalid)).trans (if_pos hst)))
      rw [show (decide (r.status = 0) && decide (2 ^ 63 ≤ bytesToNat r.bytes)) = false from hvalid, Bool.false_and]
      exact Bool.false_ne_true
  case expiry =>
    intro s n f hf
    refine congrArg Host.Outcome.next ?_
    dsimp only
    rw [hf]

end Sys2Proof.Machine
end

section
/-! PROOFS. Field supply and caps (R538 to R540, R542, R544, R558, R568). -/
namespace Sys2Proof.Machine
variable {s t u v w : State}

/-! ### Field supply and caps (R538 to R540, R542, R544, R558, R568) -/

/-- Fields of a state that differs from another in one of them. -/
theorem State.field_of_set_same {f : Nat} {x : Field} (h : t.fields = Map.set {} s.fields f x) : t.field f = x := by
  rw [State.field, h, Map.get_set_same]

theorem State.field_of_set_of_ne {f g : Nat} {x : Field} (h : t.fields = Map.set {} s.fields f x) (hg : g ≠ f) : t.field g = s.field g := by
  rw [State.field, h, Map.get_set_of_ne _ _ _ hg, State.field]

/-- The phases' states with SENSE_FALLBACK ended in those of a list (R536). -/
theorem State.senseReset_eq (tower : Nat) (l : List Nat) (s : State) :
    ∃ P, (l.foldl (fun (s : State) p => s.setPhaseState tower p (s.phaseState tower p &&& 0x7F)) s) =
        { s with power := { s.power with phases := P } } ∧
      ∀ i, (Map.get 0 P i).toNat % 8 = (Map.get 0 s.power.phases i).toNat % 8 := by
  induction l generalizing s with
  | nil => exact ⟨_, rfl, fun _ => rfl⟩
  | cons p l ih =>
    obtain ⟨P, hP, hlow⟩ := ih (s.setPhaseState tower p (s.phaseState tower p &&& 0x7F))
    refine ⟨P, hP, fun i => (hlow i).trans ?_⟩
    show (Map.get 0 (Map.set 0 s.power.phases (128 * tower + p) (s.phaseState tower p &&& 0x7F)) i).toNat % 8 = _
    by_cases hi : i = 128 * tower + p
    · subst hi
      rw [Map.get_set_same, BitVec.toNat_and]
      show ((Map.get 0 s.power.phases (128 * tower + p)).toNat &&& 127) % 2 ^ 3 = _
      rw [Nat.and_mod_two_pow]
      exact (Nat.and_two_pow_sub_one_eq_mod _ 3).trans (Nat.mod_mod _ _)
    · rw [Map.get_set_of_ne _ _ _ hi]

/-- Whether a neighbour is at peak follows from the failed phases and the currents. -/
theorem State.neighbourAtPeak_congr (f : Nat) (hc : t.power.currents = s.power.currents)
    (hp : ∀ i, (Map.get 0 t.power.phases i).toNat % 8 = (Map.get 0 s.power.phases i).toNat % 8) :
    t.neighbourAtPeak f = s.neighbourAtPeak f := by
  have hfail (j p : Nat) : t.phaseFailed j p = s.phaseFailed j p :=
    congrArg (fun x : Nat => x != 0) (hp (128 * j + p))
  have hcur (j : Nat) : t.phaseCurrent j = s.phaseCurrent j := by
    funext p
    unfold State.phaseCurrent
    rw [hc]
  have hpeak : t.atPeak = s.atPeak := by
    funext g
    unfold State.atPeak
    simp only [hfail, hcur]
  unfold State.neighbourAtPeak
  rw [hpeak]

/-- The cap limit of a field that turns on. -/
def State.turnOnCap (s : State) (f : Nat) : Nat := max 1000 (min (s.reg 0x2004 1) (s.reg 0x2004 (f / 8 + 2)))

/-- The field as its turn-on begins (R538). -/
def State.turnedOn (s : State) (f : Nat) : Field :=
  { s.field f with
    rail := .turningOn
    setpoint := Map.get 600 (s.field f).held (max 1000 ((s.setField f { s.field f with capLimit := s.turnOnCap f }).lowestLimit f))
    capLimit := s.turnOnCap f
    offAt := none }

/-- A field's turn-on begun, before its first header group closes. -/
def State.turnOnBegun (s : State) (f : Nat) (P : Map Byte) : State :=
  (({ s.dropTurnOn f with power := { s.power with phases := P } } : State).setField f (s.turnedOn f)).setServiceState f 3

theorem State.field_turnOnBegun (s : State) (f : Nat) (P : Map Byte) : (s.turnOnBegun f P).field f = s.turnedOn f :=
  State.field_of_set_same (s := s) rfl

theorem State.serviceState_turnOnBegun (s : State) (f : Nat) (P : Map Byte) : (s.turnOnBegun f P).serviceState f = 3 :=
  State.reg_setReg_same ..

theorem State.reg_turnOnBegun (s : State) {f idx sub : Nat} (P : Map Byte) (h : idx * 256 + sub ≠ 0x9002 * 256 + (f + 1)) :
    (s.turnOnBegun f P).reg idx sub = s.reg idx sub := by
  unfold State.turnOnBegun State.setServiceState
  rw [State.reg_setReg_of_ne _ _ h]
  rfl

/-- FIELD_TURN_ON of the first field in the order, with no other turning on. -/
theorem fieldTurnOn_eq {f : Nat} (hf : f < 64) (hth : thermalState s ≠ 4) (hloss : s.boot.inputLoss = false)
    (hfirst : (Map.get [] s.turnOns (f / 8)).head? = some f)
    (halone : ∀ j, j < 8 → (s.field (f / 8 * 8 + j)).headers.turningOn = false) (hidle : (s.field f).headers = .idle)
    (hoff : (s.field f).offDue = false) :
    ∃ P, exec (.fieldTurnOn f) s = .next (
      let w := s.turnOnBegun f P
      if s.neighbourAtPeak f then
        ((w.setHeaders f (.waiting s.now)).setReg 0x2006 1 (w.reg 0x2006 1 ||| 16)).towerSat 0xBA02 (f / 8) 1
      else w.setHeaders f (.closing 1 stageInterval s.now)) := by
  obtain ⟨P, hP, hlow⟩ := State.senseReset_eq (f / 8) (domainPhases (f % 8)) ((s.dropTurnOn f).setField f (s.turnedOn f))
  refine ⟨P, congrArg Host.Outcome.next ((if_neg ?_).trans ?_)⟩
  · have hall : ((List.range 8).all fun i => !(s.field (f / 8 * 8 + i)).headers.turningOn) = true :=
      List.all_eq_true.mpr fun j hj => by rw [halone j (List.mem_range.mp hj)]; rfl
    simp [Nat.not_le.mpr hf, hth, hloss, hfirst, hall, hidle, hoff]
  · have hpeak := State.neighbourAtPeak_congr (s := s)
      (t := s.turnOnBegun f P) f rfl hlow
    rw [← hpeak]
    dsimp only
    unfold State.turnedOn State.turnOnCap at hP
    rw [hP]
    rfl

/-- A mark put on the first failing phase leaves no more than one failed of a domain that had none. -/
theorem failed_le_one {l : List Nat} (hl : l.Nodup) {P : Nat → Bool} (p : Nat) (h : ∀ q ∈ l, q ≠ p → P q = false) :
    (l.filter P).length ≤ 1 := by
  have hsub : ∀ q ∈ l.filter P, q = p := fun q hq => by
    by_contra hne
    have hm := List.mem_filter.mp hq
    rw [h q hm.1 hne] at hm
    exact Bool.false_ne_true hm.2
  match hf : l.filter P with
  | [] => exact Nat.zero_le _
  | [_] => exact Nat.le_refl _
  | a :: b :: r =>
    have hnd : (a :: b :: r).Nodup := hf ▸ hl.filter P
    have ha := hsub a (hf ▸ List.mem_cons_self)
    have hb := hsub b (hf ▸ List.mem_cons_of_mem _ List.mem_cons_self)
    exact absurd (List.mem_cons.mpr (.inl (ha.trans hb.symm))) (List.nodup_cons.mp hnd).1

theorem domainPhases_nodup (d : Nat) : (domainPhases d).Nodup := List.nodup_range.filter _

theorem State.phaseState_setPhaseState_same (s : State) (t p : Nat) (v : Byte) : (s.setPhaseState t p v).phaseState t p = v :=
  Map.get_set_same ..

theorem State.phaseState_setPhaseState_of_ne (s : State) (t : Nat) {p q : Nat} (v : Byte) (h : q ≠ p) :
    (s.setPhaseState t p v).phaseState t q = s.phaseState t q := Map.get_set_of_ne _ _ _ (by omega)

/-- What the replacement's reasons change. -/
theorem State.refreshReplace_eq (s : State) :
    s.refreshReplace = { s with events := s.refreshReplace.events, regs := s.refreshReplace.regs } := by
  unfold State.refreshReplace
  dsimp only
  split
  · exact State.raise_eq ..
  · rfl

theorem State.reg_refreshReplace_of_ne (s : State) {idx sub : Nat} (h0 : idx * 256 + sub ≠ 0x9009 * 256 + 2)
    (h2 : idx * 256 + sub ≠ 0xA200 * 256 + 2) (h3 : idx * 256 + sub ≠ 0xA200 * 256 + 3) :
    s.refreshReplace.reg idx sub = s.reg idx sub := by
  unfold State.refreshReplace
  dsimp only
  split
  · rw [State.reg_raise_of_ne _ _ _ _ h2 h3, State.reg_setReg_of_ne _ _ h0]
  · exact State.reg_setReg_of_ne _ _ h0

/-- A phase marked as failed with its code. -/
def State.phaseMarked (s : State) (tower p code : Nat) : State :=
  s.setPhaseState tower p ((s.phaseState tower p &&& 0xC0) ||| BitVec.ofNat 8 code)

/-- A phase marked as failed, counted, and its event pending (R540). -/
def State.phaseTold (s : State) (tower p code : Nat) : State :=
  (((s.phaseMarked tower p code).towerSat 0xBA00 tower 1).setReg 0x2006 1 ((s.phaseMarked tower p code).reg 0x2006 1 ||| 4)).raise 0x15 tower
    (code * 256 + p)

theorem State.raise_power (s : State) (code tower detail : Nat) : (s.raise code tower detail).power = s.power := by
  rw [State.raise_eq]

theorem State.raise_fields (s : State) (code tower detail : Nat) : (s.raise code tower detail).fields = s.fields := by
  rw [State.raise_eq]

theorem State.refreshReplace_power (s : State) : s.refreshReplace.power = s.power := by
  rw [State.refreshReplace_eq]

theorem State.refreshReplace_fields (s : State) : s.refreshReplace.fields = s.fields := by
  rw [State.refreshReplace_eq]

/-- After a failure is told the supplies are those marked, and the fields as before. -/
theorem State.phaseTold_eq (s : State) (tower p code : Nat) :
    (s.phaseTold tower p code).refreshReplace.power = (s.phaseMarked tower p code).power ∧
      (s.phaseTold tower p code).refreshReplace.fields = s.fields :=
  ⟨(State.refreshReplace_power _).trans (State.raise_power ..), (State.refreshReplace_fields _).trans (State.raise_fields ..)⟩

theorem State.phaseState_told (s : State) (tower p code q : Nat) :
    (s.phaseTold tower p code).refreshReplace.phaseState tower q = (s.phaseMarked tower p code).phaseState tower q :=
  congrArg (fun x : Power => Map.get 0 x.phases (128 * tower + q)) (s.phaseTold_eq tower p code).1

/-- With no phase of its domain failed before, a phase that fails is the only one. -/
theorem State.failedPhases_told {tower p : Nat} (code d : Nat) (h0 : s.failedPhases tower d = 0) :
    (s.phaseTold tower p code).refreshReplace.failedPhases tower d ≤ 1 := by
  refine failed_le_one (domainPhases_nodup _) p fun q hq hne => ?_
  have hbefore := List.filter_eq_nil_iff.mp (List.length_eq_zero_iff.mp h0) q hq
  unfold State.phaseFailed at hbefore ⊢
  rw [State.phaseState_told, State.phaseMarked, State.phaseState_setPhaseState_of_ne _ _ _ hne]
  exact Bool.eq_false_of_not_eq_true hbefore

/-- The first phase of a field to fail (R540, R542). -/
theorem phaseFailure_first {tower p code : Nat} (ht : tower < 8) (hp : p < 122) (h1 : 1 ≤ code) (h4 : code ≤ 4)
    (hok : s.phaseFailed tower p = false) (hd : phaseDomain p < 8) (h0 : s.failedPhases tower (phaseDomain p) = 0) :
    Completes (.phaseFailure tower p code) s fun r =>
      r.phaseState tower p = (s.phaseState tower p &&& 0xC0) ||| BitVec.ofNat 8 code ∧ r.fields = s.fields ∧
      r.reg 0xBA00 (tower + 1) = min (s.reg 0xBA00 (tower + 1) + 1) 0xFFFFFFFF := by
  have hexec : exec (.phaseFailure tower p code) s = .next (s.phaseTold tower p code).refreshReplace := by
    refine congrArg Host.Outcome.next ((if_neg ?_).trans ((if_pos hd).trans (if_neg ?_)))
    · rw [hok]
      simp [Nat.not_le.mpr ht, Nat.not_le.mpr hp, Nat.one_le_iff_ne_zero.mp h1, Nat.not_lt.mpr h4]
    · exact fun h3 => absurd (h3 ▸ State.failedPhases_told (p := p) code _ h0) (by decide)
  refine ⟨_, hexec, (State.phaseState_told ..).trans (State.phaseState_setPhaseState_same ..), (State.phaseTold_eq ..).2, ?_⟩
  rw [State.reg_refreshReplace_of_ne _ (by omega) (by omega) (by omega), State.phaseTold,
    State.reg_raise_of_ne _ _ _ _ (by omega) (by omega), State.reg_setReg_of_ne _ _ (by omega)]
  exact State.reg_setReg_same ..

/-- Headers whose event is not due: nothing of the turn-on happens in a field that is idle, or not turning on. -/
theorem turnOn_stays {f : Nat} (h : (if s.turnsOn f then (s.field f).headers else .idle) = .idle) :
    exec (.neighbourWaitEnd f) s = .next s ∧ exec (.headerGroupClose f) s = .next s ∧
      exec (.turnOnSettled f) s = .next s ∧ exec (.turnOnFail f) s = .next s := by
  refine ⟨congrArg Host.Outcome.next ?_, congrArg Host.Outcome.next ?_, congrArg Host.Outcome.next ?_, congrArg Host.Outcome.next ?_⟩
  all_goals rw [h]

theorem turnsOn_headers {f : Nat} {h : Headers} (ht : s.turnsOn f = true) (hh : (s.field f).headers = h) :
    (if s.turnsOn f then (s.field f).headers else .idle) = h := (if_pos ht).trans hh

/-- A field that has settled: powered in reset, its limits anew (R539). -/
def State.settledField (s : State) (f : Nat) : Field :=
  { s.field f with headers := .idle, rail := .held, thermalLimit := 1800, thermal := [], released := [] }

def State.fieldSettled (s : State) (f : Nat) : State :=
  (({ s.setField f (s.settledField f) with
      power := { s.power with excursion := Map.set 0 s.power.excursion (16 + f) 0 } } : State).setReg 0x2005 (f + 1) 1800).setServiceState f 4

theorem State.fieldSettled_eq (s : State) (f : Nat) :
    let r := s.fieldSettled f
    (r.field f).rail = .held ∧ (r.field f).headers = .idle ∧ (r.field f).capLimit = (s.field f).capLimit ∧ (r.field f).thermalLimit = 1800 ∧
      (r.field f).thermal = [] ∧ r.reg 0x2005 (f + 1) = 1800 ∧ r.reg 0x9002 (f + 1) = 4 ∧
      (∀ g, g ≠ f → r.field g = s.field g) ∧ r = { s with fields := r.fields, power := r.power, regs := r.regs } := by
  intro r
  have hfield : r.field f = s.settledField f :=
    State.field_of_set_same (s := s) rfl
  rw [hfield]
  refine ⟨rfl, rfl, rfl, rfl, rfl, ?_, State.reg_setReg_same .., fun g hg => State.field_of_set_of_ne (x := s.settledField f) rfl hg, rfl⟩
  exact (State.reg_setReg_of_ne _ _ (by omega)).trans (State.reg_setReg_same ..)

/-- TURN_ON_SETTLED in its window (R539). -/
theorem turnOnSettled_in_time {f i since : Nat} (ht : s.turnsOn f = true) (hh : (s.field f).headers = .settling i since)
    (h1 : since + i + usCycles 2 ≤ s.now) (h2 : s.now ≤ since + usCycles 20) :
    exec (.turnOnSettled f) s = .next (s.fieldSettled f) := by
  refine congrArg Host.Outcome.next ?_
  rw [turnsOn_headers ht hh]
  exact if_neg (by simp [Nat.not_lt.mpr h1, Nat.not_lt.mpr h2])

/-- A cap written is stored and saved, and its excursion starts anew (R555, R558). -/
theorem State.reg_writeCap (s : State) (idx sub level v allow : Nat) (bytes : List Byte) :
    ((s.writeCap idx sub level v allow).save idx sub bytes).reg idx sub = v := State.reg_setReg_same ..

theorem State.excursion_writeCap (s : State) (idx sub level v allow : Nat) (bytes : List Byte) :
    Map.get 0 ((s.writeCap idx sub level v allow).save idx sub bytes).power.excursion level = allow := Map.get_set_same ..

/-- A state that differs from another in its fields, their order of turn-on, supplies and entries alone. -/
def SupplyAlone (s t : State) : Prop := ∃ F L W R, t = { s with fields := F, turnOns := L, power := W, regs := R }

theorem SupplyAlone.eq (h : SupplyAlone s t) : t = { s with fields := t.fields, turnOns := t.turnOns, power := t.power, regs := t.regs } := by
  obtain ⟨F, L, W, R, rfl⟩ := h
  rfl

theorem SupplyAlone.setReg (h : SupplyAlone s t) {idx sub v : Nat} : SupplyAlone s (t.setReg idx sub v) := by
  obtain ⟨F, L, W, R, rfl⟩ := h
  exact ⟨_, _, _, _, rfl⟩

theorem SupplyAlone.setField (h : SupplyAlone s t) {f : Nat} {x : Field} : SupplyAlone s (t.setField f x) := by
  obtain ⟨F, L, W, R, rfl⟩ := h
  exact ⟨_, _, _, _, rfl⟩

/-- A field whose turn-on waits for a neighbour (R538). -/
def State.turnOnWaits (s : State) (f : Nat) (P : Map Byte) : State :=
  let w := s.turnOnBegun f P
  ((w.setHeaders f (.waiting s.now)).setReg 0x2006 1 (w.reg 0x2006 1 ||| 16)).towerSat 0xBA02 (f / 8) 1

theorem State.field_turnOnWaits (s : State) (f : Nat) (P : Map Byte) :
    (s.turnOnWaits f P).field f = { s.turnedOn f with headers := .waiting s.now } := by
  show ((s.turnOnBegun f P).setHeaders f (.waiting s.now)).field f = _
  rw [State.setHeaders, State.field_setField_same, State.field_turnOnBegun]

theorem State.turnOnWaits_eq (s : State) (f : Nat) (P : Map Byte) :
    let r := s.turnOnWaits f P
    r = { s with fields := r.fields, turnOns := r.turnOns, power := r.power, regs := r.regs } := by
  have hbegun : SupplyAlone s (s.turnOnBegun f P) := ⟨_, _, _, _, rfl⟩
  exact (hbegun.setField.setReg.setReg : SupplyAlone s (s.turnOnWaits f P)).eq

/-- The entries of a field whose turn-on waits: its state, the flag and the count. -/
theorem State.reg_turnOnWaits (s : State) {f : Nat} (hf : f < 64) (P : Map Byte) :
    (s.turnOnWaits f P).serviceState f = 3 ∧ (s.turnOnWaits f P).reg 0x2006 1 = s.reg 0x2006 1 ||| 16 ∧
      (s.turnOnWaits f P).reg 0xBA02 (f / 8 + 1) = min (s.reg 0xBA02 (f / 8 + 1) + 1) 0xFFFFFFFF := by
  have hset (idx sub : Nat) : ((s.turnOnBegun f P).setHeaders f (.waiting s.now)).reg idx sub = (s.turnOnBegun f P).reg idx sub := rfl
  unfold State.turnOnWaits State.towerSat
  rw [State.sat32_eq]
  refine ⟨?_, ?_, ?_⟩
  · rw [State.serviceState, State.reg_setReg_of_ne _ _ (by omega), State.reg_setReg_of_ne _ _ (by omega), hset]
    exact s.serviceState_turnOnBegun f P
  · rw [State.reg_setReg_of_ne _ _ (by omega), State.reg_setReg_same, s.reg_turnOnBegun P (by omega)]
  · rw [State.reg_setReg_same, State.reg_setReg_of_ne _ _ (by omega), hset, s.reg_turnOnBegun P (by omega)]

/-- Settles O49. -/
theorem fieldSupplyAndCaps : Obligations.FieldSupplyAndCaps := by
  unfold Obligations.FieldSupplyAndCaps
  intro s f t p n i v u k
  refine ⟨?turnOn, ?wait, fun h => turnOn_stays (if_neg (ne_true_of_eq_false h)), fun ht hk hd => ?waitEnd, fun hk hd => ?waitEarly,
    fun ht hk hd => ?group, fun ht hk h1 h2 => ?settled, fun hk hd => ?settledLate, fun ht hk hd => ?fails, fun h => ?off, fun h => ?offNot,
    fun hk hd => ?stretched, fun hk hd => ?opening, fun hk => ?idle, fun hl => ?moduleCap, fun hl ht => ?towerCap, fun hl hf => ?fieldCap,
    fun hl hv => ?flags, fun hv => ?flagsReserved, phaseFailure_first, fun h => ?failed, fun ht hp hok => ?limit⟩
  case turnOn =>
    intro hf hth hloss hfirst halone hidle hoff hpeak
    obtain ⟨P, hexec⟩ := fieldTurnOn_eq hf hth hloss hfirst halone hidle hoff
    refine ⟨_, hexec.trans (congrArg _ (if_neg (ne_true_of_eq_false hpeak))), ?_⟩
    have hfield : ((s.turnOnBegun f P).setHeaders f (.closing 1 stageInterval s.now)).field f =
        { s.turnedOn f with headers := .closing 1 stageInterval s.now } := by
      rw [State.setHeaders, State.field_setField_same, State.field_turnOnBegun]
    dsimp only
    rw [hfield]
    exact ⟨rfl, rfl, rfl, rfl, rfl, s.serviceState_turnOnBegun f P, fun g hg =>
      (State.field_setField_of_ne _ _ hg).trans (State.field_of_set_of_ne (x := s.turnedOn f) rfl hg), rfl⟩
  case wait =>
    intro hf hth hloss hfirst halone hidle hoff hpeak
    obtain ⟨P, hexec⟩ := fieldTurnOn_eq hf hth hloss hfirst halone hidle hoff
    refine ⟨s.turnOnWaits f P, hexec.trans (congrArg _ (if_pos hpeak)), ?_⟩
    have hfield := s.field_turnOnWaits f P
    obtain ⟨h1, h2, h3⟩ := s.reg_turnOnWaits hf P
    exact ⟨congrArg Field.rail hfield, congrArg Field.headers hfield, h1, h2, h3, s.turnOnWaits_eq f P⟩
  case waitEnd =>
    refine congrArg Host.Outcome.next ?_
    rw [turnsOn_headers ht hk]
    exact if_pos hd
  case waitEarly =>
    refine congrArg Host.Outcome.next ?_
    rw [show (s.field f).headers = _ from hk]
    cases s.turnsOn f with
    | false => rfl
    | true => exact if_neg (Nat.not_le.mpr hd)
  case group =>
    refine congrArg Host.Outcome.next ?_
    rw [turnsOn_headers ht hk]
    refine (if_neg (Nat.not_lt.mpr hd)).trans ?_
    split <;> rfl
  case settled =>
    exact ⟨_, turnOnSettled_in_time ht hk h1 h2, s.fieldSettled_eq f⟩
  case settledLate =>
    refine congrArg Host.Outcome.next ?_
    rw [show (s.field f).headers = _ from hk]
    cases s.turnsOn f with
    | false => rfl
    | true => exact if_pos (by simp [hd])
  case fails =>
    refine congrArg Host.Outcome.next ?_
    rw [turnsOn_headers ht hk]
    exact if_neg (Nat.not_lt.mpr hd)
  case off => exact congrArg Host.Outcome.next (if_pos h)
  case offNot => exact congrArg Host.Outcome.next (if_neg (ne_true_of_eq_false h))
  case stretched =>
    refine congrArg Host.Outcome.next ?_
    rw [show (s.field f).headers = _ from hk]
    exact if_neg (Nat.not_lt.mpr hd)
  case opening =>
    refine congrArg Host.Outcome.next ?_
    rw [show (s.field f).headers = _ from hk]
    exact if_neg (Nat.not_lt.mpr hd)
  case idle =>
    have hi : (if s.turnsOn f then (s.field f).headers else .idle) = .idle := by
      rw [show (s.field f).headers = _ from hk, ite_self]
    obtain ⟨h1, h2, h3, h4⟩ := turnOn_stays hi
    refine ⟨h1, h2, h3, h4, congrArg Host.Outcome.next ?_⟩
    rw [show (s.field f).headers = _ from hk]
  case moduleCap =>
    exact ⟨_, congrArg Host.Outcome.next (State.written_of_steward hl), State.reg_writeCap .., State.excursion_writeCap .., rfl⟩
  case towerCap =>
    exact ⟨_, congrArg Host.Outcome.next ((State.written_of_steward hl).trans (if_pos ht)), State.reg_writeCap ..,
      State.excursion_writeCap .., rfl⟩
  case fieldCap =>
    exact ⟨_, congrArg Host.Outcome.next ((State.written_of_steward hl).trans (if_pos hf)), State.reg_writeCap ..,
      State.excursion_writeCap .., rfl⟩
  case flags =>
    exact congrArg Host.Outcome.next ((State.written_of_steward hl).trans (if_neg (not_not.mpr (Nat.div_eq_of_lt hv))))
  case flagsReserved =>
    exact congrArg Host.Outcome.next (State.written_self (if_pos (Nat.ne_of_gt (Nat.div_pos hv (by decide)))))
  case failed =>
    refine ⟨congrArg Host.Outcome.next (if_pos ?_), congrArg Host.Outcome.next (if_neg ?_)⟩
    · rw [h, Bool.or_true]
    · rw [h]
      simp
  case limit =>
    refine congrArg Host.Outcome.next (if_pos ?_)
    rw [hok, decide_eq_true ht, decide_eq_true hp]
    rfl

end Sys2Proof.Machine
end

section
/-! PROOFS. Sensors and coolant (R548, R552, R553, R571 to R573, R576, R584 to R588, R594, R595, R702). -/
namespace Sys2Proof.Machine
variable {s t u v w : State}

/-! ### Measurement (R548, R552, R553, R702) -/

/-- What a measurement leaves: the lands, memory, the queues, the sample's window, which phases have failed, and the entries of the module's
input and of the supply voltages. -/
structure Measured (s t : State) : Prop where
  pins : t.pins = s.pins
  mem : t.mem = s.mem
  queues : t.queues = s.queues
  window : t.power.window = s.power.window
  failed : ∀ i, (Map.get 0 t.power.phases i).toNat % 8 = (Map.get 0 s.power.phases i).toNat % 8
  total : t.reg 0x2010 1 = s.reg 0x2010 1
  in1V8 : t.reg 0x2020 3 = s.reg 0x2020 3
  in3V3 : t.reg 0x2020 4 = s.reg 0x2020 4

theorem Measured.refl (s : State) : Measured s s := ⟨rfl, rfl, rfl, rfl, fun _ => rfl, rfl, rfl, rfl⟩

/-- A change beside what a measurement leaves. -/
theorem Measured.same (h : Measured s t) (hpins : u.pins = t.pins := by rfl) (hmem : u.mem = t.mem := by rfl)
    (hqueues : u.queues = t.queues := by rfl) (hregs : u.regs = t.regs := by rfl) (hwindow : u.power.window = t.power.window := by rfl)
    (hphases : u.power.phases = t.power.phases := by rfl) : Measured s u where
  pins := hpins.trans h.pins
  mem := hmem.trans h.mem
  queues := hqueues.trans h.queues
  window := hwindow.trans h.window
  failed i := by rw [hphases]; exact h.failed i
  total := by rw [State.reg, hregs]; exact h.total
  in1V8 := by rw [State.reg, hregs]; exact h.in1V8
  in3V3 := by rw [State.reg, hregs]; exact h.in3V3

theorem Measured.ite {c : Prop} [Decidable c] (ht : Measured s t) (hu : Measured s u) : Measured s (if c then t else u) := by
  split <;> assumption

theorem Measured.foldl {α : Type} {f : State → α → State} {l : List α} (h : Measured s t) (hf : ∀ a ∈ l, ∀ u, Measured s u → Measured s (f u a)) :
    Measured s (l.foldl f t) := by
  induction l generalizing t with
  | nil => exact h
  | cons a l ih => exact ih (hf a List.mem_cons_self _ h) fun b hb => hf b (List.mem_cons_of_mem _ hb)

theorem Measured.setReg (h : Measured s t) {idx sub v : Nat}
    (hk : 0x2010 * 256 + 1 ≠ idx * 256 + sub ∧ 0x2020 * 256 + 3 ≠ idx * 256 + sub ∧ 0x2020 * 256 + 4 ≠ idx * 256 + sub) :
    Measured s (t.setReg idx sub v) where
  pins := h.pins
  mem := h.mem
  queues := h.queues
  window := h.window
  failed := h.failed
  total := (State.reg_setReg_of_ne _ _ hk.1).trans h.total
  in1V8 := (State.reg_setReg_of_ne _ _ hk.2.1).trans h.in1V8
  in3V3 := (State.reg_setReg_of_ne _ _ hk.2.2).trans h.in3V3

theorem Measured.raise (h : Measured s t) {code tower detail : Nat} : Measured s (t.raise code tower detail) where
  pins := by rw [State.raise_eq]; exact h.pins
  mem := by rw [State.raise_eq]; exact h.mem
  queues := by rw [State.raise_eq]; exact h.queues
  window := by rw [State.raise_power]; exact h.window
  failed i := by rw [State.raise_power]; exact h.failed i
  total := (State.reg_raise_of_ne _ _ _ _ (by decide) (by decide)).trans h.total
  in1V8 := (State.reg_raise_of_ne _ _ _ _ (by decide) (by decide)).trans h.in1V8
  in3V3 := (State.reg_raise_of_ne _ _ _ _ (by decide) (by decide)).trans h.in3V3

theorem Measured.setField (h : Measured s t) {f : Nat} {x : Field} : Measured s (t.setField f x) := h.same

/-- A state byte of a working phase tells of no failure (R536, R540). -/
theorem Measured.setPhaseState (h : Measured s t) {k p : Nat} {x : Byte} (hx : x.toNat % 8 = 0) (hp : t.phaseFailed k p = false) :
    Measured s (t.setPhaseState k p x) where
  pins := h.pins
  mem := h.mem
  queues := h.queues
  window := h.window
  failed i := by
    refine Eq.trans ?_ (h.failed i)
    show (Map.get 0 (Map.set 0 t.power.phases (128 * k + p) x) i).toNat % 8 = _
    by_cases hi : i = 128 * k + p
    · subst hi
      rw [Map.get_set_same, hx]
      exact (by simpa [State.phaseFailed, State.phaseState] using hp : (Map.get 0 t.power.phases (128 * k + p)).toNat % 8 = 0).symm
    · rw [Map.get_set_of_ne _ _ _ hi]
  total := h.total
  in1V8 := h.in1V8
  in3V3 := h.in3V3

/-- The byte of a phase that a sample gives tells of no failure. -/
theorem sampledByte_low : ∀ a b : Bool, ((if a then 0x40 else 0 : Byte) ||| (if b then 0x80 else 0)).toNat % 8 = 0 := by decide

theorem Measured.notePhases (h : Measured s t) {k : Nat} {l : List PhaseSample} : Measured s (t.notePhases k l) := by
  refine h.foldl fun x _ u hu => ?_
  dsimp only
  split
  · exact hu.same
  next hc =>
    have hp : u.phaseFailed k x.phase = false := by
      by_contra hf
      exact hc (by rw [Bool.eq_true_of_not_eq_false hf, Bool.or_true])
    refine .ite (.setReg (.same (.setPhaseState hu ?_ hp)) (by omega)) (.same (.setPhaseState hu ?_ hp))
    all_goals exact sampledByte_low ..

theorem Measured.phaseFailed (h : Measured s t) (k p : Nat) : t.phaseFailed k p = s.phaseFailed k p :=
  congrArg (fun x : Nat => x != 0) (h.failed (128 * k + p))

theorem Measured.failedPhases (h : Measured s t) (k d : Nat) : t.failedPhases k d = s.failedPhases k d := by
  unfold State.failedPhases
  rw [funext (h.phaseFailed k)]

theorem Measured.towerPower (h : Measured s t) (k : Nat) (l : List PhaseSample) : t.towerPower k l = s.towerPower k l := by
  unfold State.towerPower
  simp only [h.phaseFailed]

theorem Measured.storeTower (h : Measured s t) {k : Nat} (hk : k < 8) {p : TowerPower} : Measured s (t.storeTower k p) := by
  unfold State.storeTower
  extract_lets s1 logic p1 s2 s3 p2
  have h1 : Measured s s1 := h.foldl fun f hf u hu => by
    have := List.mem_range.mp hf
    exact Measured.same (t := u.setReg 0x2011 (8 * k + f + 1) ((if u.fieldUp (8 * k + f) then p.domain f else 0) / 1000))
      (hu.setReg (by omega))
  have h3 : Measured s s3 := h1.same.foldl fun d _ u hu => hu.same
  exact Measured.same (t := s3.setReg 0x2010 (k + 2) (p.input / 1000)) (h3.setReg (by omega))

theorem Measured.runCap (h : Measured s t) {level : Nat} (hl : level < 80) {i : CapInput} : Measured s (t.runCap level i) := by
  have htower : capTower level < 16 := by unfold capTower; split <;> [decide; split] <;> omega
  have hkey : 0x2004 * 256 ≤ (capRegister level).1 * 256 + (capRegister level).2 ∧
      (capRegister level).1 * 256 + (capRegister level).2 ≤ 0x2005 * 256 + 64 := by
    unfold capRegister
    split <;> constructor <;> dsimp only <;> omega
  unfold State.runCap
  split
  next idx sub hr =>
  rw [hr] at hkey
  dsimp only at hkey
  split
  next x limit floor fell _ =>
  extract_lets above began p0 p1 s1 s2 s3 s4 s5
  have h1 : Measured s s1 := Measured.same (t := t.setReg idx sub limit) (h.setReg (by omega))
  clear_value s1
  have h2 : Measured s s2 := .ite (h1.setReg (by omega)) h1
  clear_value s2
  have h3 : Measured s s3 := .ite (h2.setReg (by decide)) h2
  clear_value s3
  have h4 : Measured s s4 := .ite (h3.setReg (by decide)) h3
  clear_value s4
  have h5 : Measured s s5 := .ite (h4.setReg (by decide)) h4
  exact .ite h5.raise h5

theorem Measured.runCaps (h : Measured s t) {i : InputSample} : Measured s (t.runCaps i) := by
  unfold State.runCaps
  extract_lets fields pm byVolt watts s1
  have h1 : Measured s s1 := .ite (h.setReg (by decide)) h
  clear_value s1
  split
  extract_lets whole s2 s3
  have h2 : Measured s s2 := .ite h1 (h1.runCap (by decide))
  clear_value s2
  have h3 : Measured s s3 := h2.foldl fun k hk u hu => hu.runCap (by have := List.mem_range.mp hk; omega)
  clear_value s3
  refine h3.foldl fun f hf u hu => ?_
  have hf := List.mem_range.mp hf
  have hcap : Measured s (u.setReg 0x2003 (f + 1) (u.fieldCap f)) := hu.setReg (by omega)
  exact .ite hcap (hcap.runCap (by omega))

theorem Measured.applyCap (h : Measured s t) {f : Nat} : Measured s (t.applyCap f) :=
  .ite h (.ite h.setField (h.setField.foldl fun _ _ _ hu => hu.same))

theorem Measured.stepTurnOn (h : Measured s t) {before : Nat → Bool} {f : Nat} : Measured s (t.stepTurnOn before f) := by
  unfold State.stepTurnOn
  split
  · exact .ite h.setField (.ite h h.setField)
  · exact .ite h.setField h
  · exact h

/-- With no shared domain beyond the failures it carries, none is overloaded (R547). -/
theorem State.checkShared_of_carried (h : ∀ k, k < 8 → ∀ d, d < 12 → 8 ≤ d → s.failedPhases k d ≤ phasesCarried d) : s.checkShared = s := by
  refine List.foldlRecOn (motive := (· = s)) _ _ rfl fun u hu k hk => ?_
  subst hu
  refine if_neg ?_
  rw [List.any_eq_true]
  rintro ⟨d, hd, ho⟩
  have hcarried : u.failedPhases k d ≤ phasesCarried d := h k (List.mem_range.mp hk) d (by fin_cases hd <;> decide) (by fin_cases hd <;> decide)
  unfold State.overloaded at ho
  rw [Bool.and_eq_true] at ho
  exact absurd (of_decide_eq_true ho.1) (Nat.not_lt.mpr hcarried)

theorem State.pinState_congr (hp : t.pins = s.pins) (hf : t.fields = s.fields) (ht : thermalState t = thermalState s) :
    t.pinState = s.pinState := by
  have hfield : t.field = s.field := by
    funext f
    rw [State.field, hf, State.field]
  unfold State.pinState State.thermAlert
  rw [hp, ht, hfield]

theorem State.failedPhases_congr (h : t.power.phases = s.power.phases) (k d : Nat) : t.failedPhases k d = s.failedPhases k d := by
  have hfailed : t.phaseFailed k = s.phaseFailed k := by
    funext p
    rw [State.phaseFailed, State.phaseState, h, State.phaseFailed, State.phaseState]
  rw [State.failedPhases, hfailed, State.failedPhases]

/-- What a sample renews before the caps run: the input powers and the supply voltages (R548, R702). -/
def State.sampleShown (s : State) (i : InputSample) (total out : Nat) : State :=
  let s := s.setReg 0x2010 1 (total / 1000)
  let s := { s with power := { s.power with
    energy := addAt s.power.energy 8 (i.auxMW * 1000)
    inputEnergy := addAt s.power.inputEnergy 8 (i.auxMW * 1000)
    samples := Map.upd [] s.power.samples 0 fun l => (l ++ [(out, total)]).drop (l.length + 1 - 100) } }
  (s.setReg 0x2020 3 (i.in1V8 % 65536)).setReg 0x2020 4 (i.in3V3 % 65536)

theorem State.sampleShown_spec (s : State) (i : InputSample) (total out : Nat) :
    (s.sampleShown i total out).reg 0x2010 1 = total / 1000 ∧ (s.sampleShown i total out).reg 0x2020 3 = i.in1V8 % 65536 ∧
      (s.sampleShown i total out).reg 0x2020 4 = i.in3V3 % 65536 ∧ (s.sampleShown i total out).fields = s.fields ∧
      (s.sampleShown i total out).pins = s.pins ∧ (s.sampleShown i total out).mem = s.mem ∧ (s.sampleShown i total out).queues = s.queues ∧
      (s.sampleShown i total out).power.window = s.power.window ∧ (s.sampleShown i total out).power.phases = s.power.phases := by
  refine ⟨?_, (State.reg_setReg_of_ne _ _ (by decide)).trans (State.reg_setReg_same ..), State.reg_setReg_same .., rfl, rfl, rfl, rfl, rfl, rfl⟩
  exact (State.reg_setReg_of_ne _ _ (by decide)).trans ((State.reg_setReg_of_ne _ _ (by decide)).trans (State.reg_setReg_same (s := s) ..))

/-- POWER_SAMPLE at the end of a window, with no shared domain beyond the failures it carries (R548, R702). -/
theorem powerSample_measured (samples : List PhaseSample) (i : InputSample) (hstart : s.boot.started = true)
    (hdue : s.power.window < s.now / usCycles 10)
    (hcarried : ∀ k, k < 8 → ∀ d, d < 12 → 8 ≤ d → s.failedPhases k d ≤ phasesCarried d) :
    Completes (.powerSample samples i) s fun u => u.pins = { s.pins with coolantOk := i.coolantOk, gtick := i.gtick } ∧
      u.reg 0x2010 1 = (((List.range 8).map fun t => (s.towerPower t (samples.filter (·.tower == t))).input).sum + i.auxMW * 1000) / 1000 ∧
      u.reg 0x2020 3 = i.in1V8 % 65536 ∧ u.reg 0x2020 4 = i.in3V3 % 65536 ∧ u.reg 0x2020 2 = u.pinState ∧
      u.power.shownPhases = u.power.phases ∧ u.power.window = s.now / usCycles 10 ∧ u.mem = s.mem ∧ u.queues = s.queues := by
  have hexec : exec (.powerSample samples i) s = execPowerSample samples i s := rfl
  have hc : ¬(!s.boot.started || decide (s.now / usCycles 10 ≤ s.power.window)) = true := by simp [hstart, hdue]
  unfold execPowerSample at hexec
  rw [if_neg hc] at hexec
  extract_lets peak p1 p2 s1 ofTower s2 ps s3 total out s4 p3 s5 s6 s7 s8 s9 p4 s10 s11 s12 at hexec
  refine ⟨_, hexec, ?_⟩
  have h2 : Measured s1 s2 := (Measured.refl s1).foldl fun _ _ _ hu => hu.notePhases
  have h3 : Measured s1 s3 := h2.foldl fun x hx _ hu => by
    obtain ⟨k, hk, rfl⟩ := List.mem_map.mp hx
    exact hu.storeTower (List.mem_range.mp hk)
  have htotal : total = ((List.range 8).map fun t => (s.towerPower t (ofTower t)).input).sum + i.auxMW * 1000 := by
    unfold total ps
    rw [List.map_map]
    refine congrArg (fun l : List Nat => l.sum + i.auxMW * 1000) (List.map_congr_left fun k _ => congrArg TowerPower.input ?_)
    exact h2.towerPower k (ofTower k)
  have hfailed : ∀ k d, s3.failedPhases k d = s.failedPhases k d := h3.failedPhases
  obtain ⟨hpins, hmem, hqueues, hwindow, _, _, _, _⟩ := h3
  clear_value total s3
  have hs6 : s6 = s3.sampleShown i total out := rfl
  obtain ⟨h6total, h6in1V8, h6in3V3, h6fields, h6pins, h6mem, h6queues, h6window, h6phases⟩ := s3.sampleShown_spec i total out
  rw [← hs6] at h6total h6in1V8 h6in3V3 h6fields h6pins h6mem h6queues h6window h6phases
  have h6failed : ∀ k d, s6.failedPhases k d = s.failedPhases k d := fun k d => (State.failedPhases_congr h6phases k d).trans (hfailed k d)
  replace h6pins := h6pins.trans hpins
  replace h6mem := h6mem.trans hmem
  replace h6queues := h6queues.trans hqueues
  replace h6window := h6window.trans hwindow
  clear hs6
  clear_value s6
  have h7 : Measured s6 s7 := (Measured.refl s6).runCaps
  have h8 : Measured s6 s8 := h7.foldl fun _ _ _ hu => hu.applyCap
  have h9 : Measured s6 s9 := h8.foldl fun _ _ _ hu => hu.stepTurnOn
  clear_value s9
  have h10 : Measured s6 s10 := h9.same
  have h11 : s11 = s10 := State.checkShared_of_carried fun k hk d hd h8 => by
    rw [h10.failedPhases, h6failed]
    exact hcarried k hk d hd h8
  have h12 : Measured s6 s12 := by
    unfold s12
    rw [h11]
    exact h10.setReg (by decide)
  have hshown : s12.power.shownPhases = s12.power.phases := by
    unfold s12
    rw [h11]
    rfl
  clear_value s12
  have hlast : Measured s6 (s12.setReg 0x2020 2 s12.pinState) := h12.setReg (by decide)
  refine ⟨hlast.pins.trans h6pins, ?_, hlast.in1V8.trans h6in1V8, hlast.in3V3.trans h6in3V3, ?_, hshown, hlast.window.trans h6window,
    hlast.mem.trans h6mem, hlast.queues.trans h6queues⟩
  · rw [hlast.total, h6total, htotal]
  · rw [State.reg_setReg_same]
    exact (State.pinState_congr (s := s12) (t := s12.setReg 0x2020 2 s12.pinState) rfl rfl (State.reg_setReg_of_ne _ _ (by decide))).symm

/-! ### Energy attribution (R551 to R553) -/

/-- What a map gives is its default or stands in an entry. -/
theorem Map.get_eq_or_mem {α : Type} (d : α) (m : Map α) (i : Nat) : Map.get d m i = d ∨ (i, Map.get d m i) ∈ m := by
  induction m with
  | nil => exact .inl rfl
  | cons e m ih =>
    unfold Map.get
    split
    next h => exact .inr (List.mem_cons.mpr (.inl (by rw [← h])))
    next => exact ih.imp id (List.mem_cons_of_mem _)

/-- A filter that takes no entry of a key away leaves nothing of the keys it refuses. -/
theorem Map.get_filter_of_false {α : Type} (d : α) (m : Map α) (P : Nat × α → Bool) (i : Nat) (h : ∀ v, P (i, v) = false) :
    Map.get d (m.filter P) i = d := by
  refine (Map.get_eq_or_mem d (m.filter P) i).resolve_right fun hm => ?_
  exact Bool.false_ne_true ((h _).symm.trans (List.mem_filter.mp hm).2)

/-- What a field controller's part changes (R552). -/
theorem State.attributeField_eq (s : State) (f : Nat) (a : List Account) (l : List (Nat × Nat)) :
    ∃ Q I R, (s.attributeField f a l).2 = { s with
      regs := R, power := { s.power with queues := Q, idle := I, fieldEnergy := Map.set 0 s.power.fieldEnergy f 0 } } :=
  ⟨_, _, _, rfl⟩

/-- The parts of a tower's field controllers, one after another, leave the energies of their fields clear. -/
theorem State.attributeFields_eq {k : Nat} {a : List Account} {l : List (Nat × Nat)} {g : Nat × State → Nat → Nat × State}
    (hg : ∀ x f, g x f = (x.1 + (x.2.attributeField (8 * k + f) a l).1, (x.2.attributeField (8 * k + f) a l).2)) (fs : List Nat) (n : Nat)
    (s : State) :
    ∃ Q I R F, (fs.foldl g (n, s)).2 = { s with regs := R, power := { s.power with queues := Q, idle := I, fieldEnergy := F } } ∧
      (∀ f ∈ fs, Map.get 0 F (8 * k + f) = 0) ∧ ∀ i, Map.get 0 s.power.fieldEnergy i = 0 → Map.get 0 F i = 0 := by
  induction fs generalizing n s with
  | nil => exact ⟨_, _, _, _, rfl, fun _ h => absurd h List.not_mem_nil, fun _ h => h⟩
  | cons f fs ih =>
    obtain ⟨Q, I, R, h⟩ := s.attributeField_eq (8 * k + f) a l
    obtain ⟨Q', I', R', F, hx, hall, hkept⟩ := ih (n + (s.attributeField (8 * k + f) a l).1)
      { s with regs := R, power := { s.power with queues := Q, idle := I, fieldEnergy := Map.set 0 s.power.fieldEnergy (8 * k + f) 0 } }
    replace hkept : ∀ i, Map.get 0 (Map.set 0 s.power.fieldEnergy (8 * k + f) 0) i = 0 → Map.get 0 F i = 0 := hkept
    refine ⟨Q', I', R', F, ?_, fun j hj => ?_, fun i hi => hkept i ?_⟩
    · rw [List.foldl_cons, hg]
      dsimp only
      rw [h, hx]
    · rcases List.mem_cons.mp hj with rfl | hj
      · exact hkept _ (Map.get_set_same ..)
      · exact hall j hj
    · by_cases hf : i = 8 * k + f
      · rw [hf, Map.get_set_same]
      · rw [Map.get_set_of_ne _ _ _ hf, hi]

theorem State.activity_clearAccounts (s : State) {k c : Nat} (hc : coreTower c = k) : ((s.clearAccounts k).core c).activity = [] := by
  rcases Map.get_eq_or_mem {} (s.clearAccounts k).cores c with h | h
  · exact congrArg Core.activity h
  · have hm : (c, (s.clearAccounts k).core c) ∈
        Map.mapVals {} s.cores fun j (x : Core) => if coreTower j = k then { x with activity := [] } else x := h
    obtain ⟨e, _, he⟩ := Map.mem_mapVals hm
    obtain ⟨hkey, hval⟩ := Prod.mk.inj he
    rw [if_pos (hkey ▸ hc)] at hval
    exact congrArg Core.activity hval

/-- The input energy of a tower that begins anew, the first with that of the whole device. -/
theorem get_inputCleared (m : Map Nat) (k : Nat) :
    Map.get 0 (if k = 0 then Map.set 0 (Map.set 0 m k 0) 8 0 else Map.set 0 m k 0) k = 0 := by
  split
  next h => rw [Map.get_set_of_ne _ _ _ (by omega), Map.get_set_same]
  next => rw [Map.get_set_same]

/-- ATTRIBUTION at the end of a millisecond (R552, R553). -/
theorem attribution_charged {k background : Nat} (accounts : List Account) (leak : List (Nat × Nat)) (hk : k < 8)
    (hdue : Map.get 0 s.power.attributed k < s.now / msCycles 1) : Completes (.attribution k accounts leak background) s fun u =>
      (∀ d, Map.get 0 u.power.domainEnergy (8 * k + d % 8) = 0) ∧ Map.get 0 u.power.inputEnergy k = 0 ∧
      (∀ d, d < 8 → Map.get 0 u.power.fieldEnergy (8 * k + d) = 0) ∧ (∀ c, coreTower c = k → (u.core c).activity = []) ∧
      Map.get 0 u.power.attributed k = s.now / msCycles 1 ∧ u = { s with power := u.power, regs := u.regs, cores := u.cores } := by
  have hexec : exec (.attribution k accounts leak background) s = execAttribution k accounts leak background s := rfl
  have hc : ¬(decide (8 ≤ k) || decide (s.now / msCycles 1 ≤ Map.get 0 s.power.attributed k)) = true := by simp [hk, hdue]
  unfold execAttribution at hexec
  rw [if_neg hc] at hexec
  -- Opaque, so that no check of `hexec` evaluates the product or the eight fields.
  obtain ⟨b, hb⟩ : ∃ b, b = background * 10 ^ 6 := ⟨_, rfl⟩
  obtain ⟨fold, hfold⟩ : ∃ fold, fold = @List.foldl (Nat × State) Nat := ⟨_, rfl⟩
  rw [← hb, ← hfold] at hexec
  extract_lets p1 s1 mine s2 at hexec
  generalize hw : fold _ (0, s2) (List.range 8) = x at hexec
  rw [hfold] at hw
  clear hfold
  obtain ⟨logic, w⟩ := x
  dsimp only at hexec
  have hfold := State.attributeFields_eq (k := k) (a := mine) (l := leak) (g := _) (fun _ _ => rfl) (List.range 8) 0 s2
  obtain ⟨Q, I, R, F, hfold, hall, _⟩ := hfold
  replace hfold := (congrArg Prod.snd hw).symm.trans hfold
  replace hfold : w = _ := hfold
  subst hfold
  extract_lets meas at hexec
  generalize attribScale _ _ = r at hexec
  rcases r with ⟨n, d⟩
  refine ⟨_, hexec, ?_⟩
  refine ⟨fun d => ?_, ?_, fun d hd => hall d (List.mem_range.mpr hd), fun c hc => s1.activity_clearAccounts hc, Map.get_set_same .., rfl⟩
  · refine Map.get_filter_of_false _ _ _ _ fun v => ?_
    simp [Nat.mul_add_div]
  · exact get_inputCleared _ k

/-! ### Halts and holds -/

/-- A state that differs from another in its fields and channels alone. -/
def HaltsAlone (s t : State) : Prop := ∃ F C, t = { s with fields := F, channels := C }

theorem HaltsAlone.setField (h : HaltsAlone s t) {f : Nat} {x : Field} : HaltsAlone s (t.setField f x) := by
  obtain ⟨F, C, rfl⟩ := h
  exact ⟨_, _, rfl⟩

theorem HaltsAlone.cutSegments (h : HaltsAlone s t) {k : Nat} : HaltsAlone s (t.cutSegments k) := by
  obtain ⟨F, C, rfl⟩ := h
  exact ⟨_, _, rfl⟩

/-- The halts concern the fields and the channels alone (R313). -/
theorem State.updateHalts_alone (s : State) : HaltsAlone s s.updateHalts := by
  refine List.foldlRecOn (motive := HaltsAlone s) _ _ ⟨_, _, rfl⟩ fun u hu f _ => ?_
  dsimp only
  split
  · split
    · exact hu
    · exact List.foldlRecOn (motive := HaltsAlone s) _ _ hu.setField fun w hw e _ => hw.cutSegments
  · split
    · exact hu.setField
    · exact hu

theorem State.field_congr (h : t.fields = s.fields) (f : Nat) : t.field f = s.field f := by rw [State.field, h, State.field]

/-- What of a field the halts leave. -/
theorem State.thermalLimit_updateHalts (s : State) (g : Nat) : (s.updateHalts.field g).thermalLimit = (s.field g).thermalLimit := by
  refine List.foldlRecOn (motive := fun u : State => (u.field g).thermalLimit = (s.field g).thermalLimit) _ _ rfl fun u hu f _ => ?_
  have hset (a : Option Nat) : ((u.setField f { u.field f with haltedAt := a }).field g).thermalLimit = (s.field g).thermalLimit := by
    rw [← hu]
    by_cases hg : g = f
    · rw [hg, State.field_setField_same]
    · rw [State.field_setField_of_ne _ _ hg]
  dsimp only
  split
  · split
    · exact hu
    · exact List.foldlRecOn (motive := fun w : State => (w.field g).thermalLimit = (s.field g).thermalLimit) _ _ (hset _) fun w hw _ _ => hw
  · split
    · exact hset _
    · exact hu

/-- A hold refreshed concerns its link and what is sent. -/
theorem State.refreshHold_eq (s : State) (n : Nat) :
    ∃ L O, s.refreshHold n = { s with stream := { s.stream with links := L }, out := O } := by
  unfold State.refreshHold
  extract_lets h l m s1 l1
  have h1 : ∃ L O, s1 = { s with stream := { s.stream with links := L }, out := O } := by
    unfold s1
    split <;> exact ⟨_, _, rfl⟩
  obtain ⟨L, O, h1⟩ := h1
  split
  · exact ⟨_, O, by rw [State.setLink, h1]⟩
  · exact ⟨L, O, h1⟩

theorem State.refreshHolds_eq (s : State) : ∃ L O, s.refreshHolds = { s with stream := { s.stream with links := L }, out := O } := by
  refine List.foldlRecOn (motive := fun u => ∃ L O, u = { s with stream := { s.stream with links := L }, out := O }) _ _
    (b := s) ⟨_, _, rfl⟩ fun u hu n _ => ?_
  obtain ⟨L, O, rfl⟩ := hu
  obtain ⟨L', O', h⟩ := State.refreshHold_eq { s with stream := { s.stream with links := L }, out := O } n
  exact ⟨L', O', h⟩

theorem State.link_setLink_same (s : State) (n : Nat) (l : StreamLink) : (s.setLink n l).link n = l := Map.get_set_same ..

theorem State.link_setLink_of_ne (s : State) {n k : Nat} (l : StreamLink) (h : k ≠ n) : (s.setLink n l).link k = s.link k :=
  Map.get_set_of_ne _ _ _ h

/-- Whether a link is held for heat stays as its holds are refreshed. -/
theorem State.linkThermal_refreshHold (s : State) (n k : Nat) : ((s.refreshHold n).link k).thermal = (s.link k).thermal := by
  have hset (u : State) (l : StreamLink) (hl : l.thermal = (u.link n).thermal) : ((u.setLink n l).link k).thermal = (u.link k).thermal := by
    by_cases hk : k = n
    · rw [hk, State.link_setLink_same, hl]
    · rw [State.link_setLink_of_ne _ _ hk]
  unfold State.refreshHold
  extract_lets h l m s1 l1
  have h1 : (s1.link k).thermal = (s.link k).thermal := by
    unfold s1
    split
    · rfl
    · refine (hset s m ?_)
      unfold m
      split <;> rfl
  split
  · exact (hset s1 { s1.link n with state := 4 } rfl).trans h1
  · exact h1

theorem State.linkThermal_refreshHolds (s : State) (k : Nat) : ((s.refreshHolds).link k).thermal = (s.link k).thermal :=
  List.foldlRecOn (motive := fun u : State => (u.link k).thermal = (s.link k).thermal) _ _ rfl fun u hu n _ =>
    (u.linkThermal_refreshHold n k).trans hu

/-- With neither a coolant stop nor a shutdown the thermal state is that of the fields, and it stays in them (R594). -/
theorem State.thermalState_refresh (s : State) :
    thermalState s.refreshThermalState = if 3 ≤ thermalState s then thermalState s else s.calmState := by
  unfold State.refreshThermalState
  split
  · rfl
  · exact State.reg_setReg_same ..

theorem State.calmState_le (s : State) : s.calmState ≤ 2 := by
  unfold State.calmState
  split
  · exact Nat.le_refl 2
  · split <;> decide

theorem State.reg_refreshThermalState_of_ne (s : State) {idx sub : Nat} (h : idx * 256 + sub ≠ 0x3000 * 256 + 7) :
    s.refreshThermalState.reg idx sub = s.reg idx sub := by
  unfold State.refreshThermalState
  split
  · rfl
  · exact State.reg_setReg_of_ne _ _ h

theorem State.reg_updateHalts (s : State) (idx sub : Nat) : s.updateHalts.reg idx sub = s.reg idx sub := by
  obtain ⟨F, C, h⟩ := s.updateHalts_alone
  rw [h]
  rfl

theorem State.reg_refreshHolds (s : State) (idx sub : Nat) : s.refreshHolds.reg idx sub = s.reg idx sub := by
  obtain ⟨L, O, h⟩ := s.refreshHolds_eq
  rw [h]
  rfl

/-! ### Temperatures (R571 to R573, R586) -/

theorem State.raise_thermal (s : State) (code tower detail : Nat) : (s.raise code tower detail).thermal = s.thermal := by
  rw [State.raise_eq]

theorem State.raise_fresh (s : State) (code tower detail : Nat) : (s.raise code tower detail).fresh = s.fresh := by
  rw [State.raise_eq]

/-- A sensor after a sample (R572, R573). -/
def Sensor.sampled (k : Sensor) (r : Option Int) : Sensor :=
  let ok := readingValid k.last r
  let bad := if ok then 0 else min 3 (k.bad + 1)
  let fails := !k.faulty && bad == 3
  let faulty := k.faulty || fails
  { last := r, shown := if ok && !faulty then BitVec.ofInt 16 (r.getD 0) else 0x8000, bad := bad, faulty := faulty }

/-- A sample changes its sensor, and no other. -/
theorem State.sampleSensor_thermal (s : State) (k n : Nat) (r : Option Int) :
    (s.sampleSensor k n r).thermal =
      { s.thermal with sensors := Map.set {} s.thermal.sensors (256 * k + n) ((s.sensor k n).sampled r) } := by
  unfold State.sampleSensor
  extract_lets x ok bad fails faulty shown s1
  split
  · exact (State.raise_thermal ..).trans rfl
  · rfl

theorem State.sampleSensor_fresh (s : State) (k n : Nat) (r : Option Int) : (s.sampleSensor k n r).fresh = s.fresh := by
  unfold State.sampleSensor
  extract_lets x ok bad fails faulty shown s1
  split
  · exact (State.raise_fresh ..).trans rfl
  · rfl

theorem State.watchPair_fresh (s : State) (k p : Nat) : (s.watchPair k p).fresh = s.fresh := by
  unfold State.watchPair
  extract_lets w
  split
  extract_lets raised s1
  split
  · exact (State.raise_fresh ..).trans rfl
  · rfl

/-- All the sensors of a tower sampled: each as by itself, and no other part of what thermal control holds. -/
theorem State.sampleSensors_eq {k : Nat} {r : Nat → Option Int} {l : List Nat} (hl : l.Nodup)
    (ht : t = l.foldl (fun (s : State) n => s.sampleSensor k n (r n)) s) :
    t.thermal.windows = s.thermal.windows ∧ t.thermal.history = s.thermal.history ∧ t.fresh = s.fresh ∧
      ∀ n ∈ l, t.sensor k n = (s.sensor k n).sampled (r n) := by
  subst ht
  have hfold : ∀ n ∈ l, (l.foldl (fun (s : State) n => s.sampleSensor k n (r n)) s).sensor k n = (s.sensor k n).sampled (r n) := fun n hn => by
    refine (get_foldl_update (fun (s : State) n => s.sensor k n) (fun (s : State) n => s.sampleSensor k n (r n))
      (fun n x => x.sampled (r n)) (fun s n => ?_) (fun s n j hj => ?_) hl s n).trans (if_pos hn)
    · rw [State.sensor, State.sampleSensor_thermal]
      exact Map.get_set_same ..
    · rw [State.sensor, State.sampleSensor_thermal]
      exact Map.get_set_of_ne _ _ _ (by omega)
  have hrest (t : State) (ht : t = l.foldl (fun (s : State) n => s.sampleSensor k n (r n)) s) :
      t.thermal.windows = s.thermal.windows ∧ t.thermal.history = s.thermal.history ∧ t.fresh = s.fresh := by
    subst ht
    refine List.foldlRecOn (motive := fun u : State => u.thermal.windows = s.thermal.windows ∧ u.thermal.history = s.thermal.history ∧
      u.fresh = s.fresh) _ _ ⟨rfl, rfl, rfl⟩ fun u hu n _ => ?_
    rw [State.sampleSensor_thermal, State.sampleSensor_fresh]
    exact hu
  obtain ⟨hw, hh, hf⟩ := hrest _ rfl
  exact ⟨hw, hh, hf, hfold⟩

theorem State.setReg_fresh (s : State) (idx sub v : Nat) : (s.setReg idx sub v).fresh = s.fresh := rfl

/-- A field's part of a sample draws no free value. -/
theorem State.setLayers_fresh (s : State) (f : Nat) (k : Temps) : (s.setLayers f k).fresh = s.fresh := by
  unfold State.setLayers
  extract_lets ts x bands s1
  split <;> rfl

theorem State.thermalStep_fresh (s : State) (f : Nat) (k : Temps) (temps : List (Nat × Int)) : (s.thermalStep f k temps).fresh = s.fresh := by
  unfold State.thermalStep
  extract_lets v0 stop limit margin rise tf pred th c steps up down v1 g band fall10 fall5 lim next s1 s2 s3 s4
  have h1 : s1.fresh = s.fresh := rfl
  clear_value s1
  have h2 : s2.fresh = s.fresh := by
    unfold s2
    split <;> exact h1
  clear_value s2
  have h3 : s3.fresh = s.fresh := by
    unfold s3
    split <;> exact h2
  clear_value s3
  have h4 : s4.fresh = s.fresh := by
    unfold s4
    split <;> exact h3
  exact (State.setReg_fresh ..).trans h4

theorem State.thermalField_fresh (s : State) (f : Nat) (counts : List (Nat × List Nat)) : (s.thermalField f counts).fresh = s.fresh := by
  unfold State.thermalField
  extract_lets k s1 tf s2 s3
  have h1 : s1.fresh = s.fresh := s.setLayers_fresh f k
  clear_value s1
  have h2 : s2.fresh = s.fresh := (State.setReg_fresh ..).trans ((State.setReg_fresh ..).trans h1)
  clear_value s2
  have h3 : s3.fresh = s.fresh := by
    unfold s3
    split
    · exact (s2.thermalStep_fresh ..).trans h2
    · exact h2
  exact (State.setReg_fresh ..).trans h3

theorem State.thermalState_coolantStop (s : State) (k : Nat) : 3 ≤ thermalState (s.coolantStop k) := by
  unfold State.coolantStop
  split
  · assumption
  · extract_lets s1 s2 s3
    refine Nat.le_of_eq (Eq.symm ?_)
    unfold thermalState
    rw [State.reg_raise_of_ne _ _ _ _ (by decide) (by decide), State.sat32_eq, State.reg_setReg_of_ne _ _ (by decide), State.setFlags,
      State.reg_setReg_of_ne _ _ (by decide), State.reg_setReg_same]

theorem State.thermalState_controlledShutdown (s : State) (k d : Nat) : thermalState (s.controlledShutdown k d) = 4 := by
  unfold State.controlledShutdown
  split
  · assumption
  · extract_lets old cause s1 s2 s3
    unfold thermalState State.noteStop
    rw [State.reg_raise_of_ne _ _ _ _ (by decide) (by decide)]
    extract_lets c s4
    have h3 : s3.reg 0x3000 7 = 4 := by
      unfold s3
      rw [State.sat32_eq, State.reg_setReg_of_ne _ _ (by decide), State.reg_setReg_of_ne _ _ (by decide), State.reg_setReg_same]
    have h4 : s4.reg 0x3000 7 = 4 := (State.reg_setReg_of_ne _ _ (by decide)).trans h3
    clear_value s4
    split
    · exact h4
    · exact h4

/-- The clusters' temperatures join those of the samples before, of which 50 stay (R586). -/
theorem history_appended (h : List (List Int)) (x : List Int) :
    ((h ++ [x]).drop ((h ++ [x]).length - 51)).dropLast = h.drop (h.length - 50) ∧
      ((h ++ [x]).drop ((h ++ [x]).length - 51)).getLastD [] = x := by
  have hlen : (h ++ [x]).length - 51 = h.length - 50 := by rw [List.length_append, List.length_singleton]; omega
  rw [hlen, List.drop_append_of_le_length (Nat.sub_le ..)]
  refine ⟨List.dropLast_concat, ?_⟩
  exact List.getLastD_concat ..

theorem State.thermalState_setFlags8 (s : State) (bits : Nat) : thermalState (s.setFlags 0x3000 8 bits) = thermalState s :=
  State.reg_setReg_of_ne _ _ (by decide)

theorem State.refreshThermalState_fresh (s : State) : s.refreshThermalState.fresh = s.fresh := by
  unfold State.refreshThermalState
  split <;> rfl

theorem State.updateHalts_fresh (s : State) : s.updateHalts.fresh = s.fresh := by
  obtain ⟨F, C, h⟩ := s.updateHalts_alone
  rw [h]

theorem sampled_inj (h : t.sampled = s.sampled) :
    t.thermal.windows = s.thermal.windows ∧ t.thermal.sensors = s.thermal.sensors ∧ t.thermal.history = s.thermal.history := by
  obtain ⟨hw, h⟩ := Prod.mk.inj h
  exact ⟨hw, Prod.mk.inj h⟩

/-- THERMAL_STEP at the end of a window of a tower (R571 to R573, R586). -/
theorem thermalStep_sampled {k : Nat} (readings : List (Option Int)) (counts : List (Nat × List Nat)) (low : Bool) (hk : k < 8)
    (hstart : s.boot.started = true) (hdue : Map.get 0 s.thermal.windows k < s.now / usCycles 10) :
    Completes (.thermalStep k readings counts low) s fun u => Map.get 0 u.thermal.windows k = s.now / usCycles 10 ∧
      (∀ n, n < 224 → let r := readings.getD n none
        (u.sensor k n).last = r ∧ (u.sensor k n).bad = if readingValid (s.sensor k n).last r then 0 else min 3 ((s.sensor k n).bad + 1)) ∧
      (let h := Map.get [] s.thermal.history k
        let h' := Map.get [] u.thermal.history k
        h'.dropLast = h.drop (h.length - 50) ∧ (h'.getLastD []).length = 80) ∧
      (u.fresh = s.fresh + 80 ∨ 3 ≤ thermalState u) := by
  have hexec : exec (.thermalStep k readings counts low) s = execThermalStep k readings counts low s := rfl
  have hc : ¬(decide (8 ≤ k) || !s.boot.started || decide (s.now / usCycles 10 ≤ Map.get 0 s.thermal.windows k)) = true := by
    simp [hk, hstart, hdue]
  unfold execThermalStep at hexec
  rw [if_neg hc] at hexec
  extract_lets th0 s1 s2 s3 now hist sum th s4 s5 th5 s6 rise th6 s7 s8 s9 s10 at hexec
  refine ⟨_, hexec, ?_⟩
  have hw1 : s1.thermal.windows = Map.set 0 s.thermal.windows k (s.now / usCycles 10) := rfl
  have hh1 : s1.thermal.history = s.thermal.history := rfl
  have hf1 : s1.fresh = s.fresh := rfl
  have hs1 : ∀ n, s1.sensor k n = s.sensor k n := fun _ => rfl
  clear_value s1
  have h2 : s2.thermal.windows = s1.thermal.windows ∧ s2.thermal.history = s1.thermal.history ∧ s2.fresh = s1.fresh ∧
      ∀ n ∈ List.range 224, s2.sensor k n = (s1.sensor k n).sampled (readings.getD n none) :=
    State.sampleSensors_eq List.nodup_range rfl
  obtain ⟨hw2, hh2, hf2, hs2⟩ := h2
  clear_value s2
  have h3 : Keeps s2 s3 := (Keeps.refl s2).foldl fun _ _ hu => hu.watchPair
  have hf3 : s3.fresh = s2.fresh := List.foldlRecOn (motive := fun u : State => u.fresh = s2.fresh) _ _ rfl fun u hu p _ =>
    (u.watchPair_fresh k p).trans hu
  obtain ⟨hw3, hs3, hh3⟩ := sampled_inj h3.sampled
  clear_value s3
  have hw4 : s4.thermal.windows = s3.thermal.windows := rfl
  have hs4 : s4.thermal.sensors = s3.thermal.sensors := rfl
  have hh4 : s4.thermal.history = Map.set [] s3.thermal.history k (hist.drop (hist.length - 51)) := rfl
  have hf4 : s4.fresh = s3.fresh := rfl
  clear_value s4
  have h5 : Keeps s4 s5 := (Keeps.refl s4).foldl fun _ _ hu => hu.thermalField
  have hf5 : s5.fresh = s4.fresh := List.foldlRecOn (motive := fun u : State => u.fresh = s4.fresh) _ _ rfl fun u hu i _ =>
    (u.thermalField_fresh (8 * k + i) counts).trans hu
  clear_value s5
  have h6 : Keeps s4 s6 := h5.sameThermal (by rfl)
  have hf6 : s6.fresh = s.fresh + 80 := congrArg (· + 80) (hf5.trans (hf4.trans (hf3.trans (hf2.trans hf1))))
  clear_value s6
  have h7 : Keeps s4 s7 := .ite (h6.sameThermal (by rfl)) h6
  have hf7 : s7.fresh = s.fresh + 80 := by
    unfold s7
    split <;> exact hf6
  clear_value s7
  have h8 : Keeps s4 s8 := .ite h7.coolantStop h7
  have hf8 : s8.fresh = s.fresh + 80 ∨ 3 ≤ thermalState s8 := by
    unfold s8
    split
    · exact .inr (s7.thermalState_coolantStop k)
    · exact .inl hf7
  clear_value s8
  have h9 : Keeps s4 s9 := by
    unfold s9
    split
    · exact h8.controlledShutdown
    · exact h8
  have hf9 : s9.fresh = s.fresh + 80 ∨ 3 ≤ thermalState s9 := by
    unfold s9
    split
    next d _ => exact .inr (by rw [s8.thermalState_controlledShutdown k d]; decide)
    · exact hf8
  clear_value s9
  obtain ⟨hw, hs, hh⟩ := sampled_inj (h9.updateHalts.refreshThermalState.setFlags (idx := 0x3000) (sub := 8)
    (bits := s10.heldThermalFlags)).sampled
  refine ⟨?_, fun n hn => ?_, ?_, ?_⟩
  · rw [hw, hw4, hw3, hw2, hw1, Map.get_set_same]
  · have hsensor : (s10.setFlags 0x3000 8 s10.heldThermalFlags).sensor k n = (s.sensor k n).sampled (readings.getD n none) := by
      rw [← hs1, ← hs2 n (List.mem_range.mpr hn)]
      unfold State.sensor
      rw [hs, hs4, hs3]
    rw [hsensor]
    exact ⟨rfl, rfl⟩
  · have hhist : Map.get [] (s10.setFlags 0x3000 8 s10.heldThermalFlags).thermal.history k = hist.drop (hist.length - 51) := by
      rw [hh, hh4, Map.get_set_same]
    have hold : Map.get [] s3.thermal.history k = Map.get [] s.thermal.history k := by rw [hh3, hh2, hh1]
    obtain ⟨hdrop, hlast⟩ := history_appended (Map.get [] s3.thermal.history k) now
    dsimp only
    rw [hhist, ← hold]
    refine ⟨hdrop, ?_⟩
    rw [hlast, List.length_map, List.length_range]
  · have hfresh : (s10.setFlags 0x3000 8 s10.heldThermalFlags).fresh = s9.fresh :=
      (State.setReg_fresh ..).trans (s9.updateHalts.refreshThermalState_fresh.trans s9.updateHalts_fresh)
    rw [hfresh, State.thermalState_setFlags8, State.thermalState_refresh]
    refine hf9.imp id fun h => ?_
    have hhalts : thermalState s9.updateHalts = thermalState s9 := s9.reg_updateHalts ..
    rw [hhalts, if_pos h]
    exact h

/-! ### Coolant (R584 to R588, R594, R595) -/

/-- A powered field as the coolant stops (R586). -/
def State.stopField (s : State) (f : Nat) : State :=
  if s.fieldUp f then
    s.setField f { s.field f with
      thermalLimit := 1000
      thermal := ((fieldCores f).filter s.inService).map fun c => (c, 16)
      released := ((fieldCores f).filter s.inService).foldl (fun m c => Map.set 0 m c s.now) [] }
  else s

theorem State.stopFields_limit (s : State) {l : List Nat} (hl : l.Nodup) {f : Nat} (hf : f ∈ l) (hup : s.fieldUp f = true) :
    ((l.foldl State.stopField s).field f).thermalLimit = 1000 := by
  have hfold := get_foldl_update (fun (s : State) f => ((s.field f).thermalLimit, (s.field f).rail)) State.stopField
    (fun _ x => if x.2 == .powered then (1000, x.2) else x) (fun s f => ?_) (fun s f j hj => ?_) hl s f
  · rw [if_pos hf] at hfold
    refine (congrArg Prod.fst hfold).trans ?_
    dsimp only
    rw [if_pos (show ((s.field f).rail == .powered) = true from hup)]
  · unfold State.stopField State.fieldUp
    split
    · rw [State.field_setField_same]
    · rfl
  · unfold State.stopField
    split
    · rw [State.field_setField_of_ne _ _ hj]
    · rfl

/-- A coolant stop: its state, the halt of the hens, and the limit of every powered field (R586). -/
theorem State.coolantStop_spec (s : State) (k : Nat) (h : thermalState s < 3) :
    thermalState (s.coolantStop k) = 3 ∧ (s.coolantStop k).reg 0x4200 7 = 1 ∧
      ∀ f, f < 64 → s.fieldUp f = true → ((s.coolantStop k).field f).thermalLimit = 1000 := by
  unfold State.coolantStop
  rw [if_neg (Nat.not_le.mpr h)]
  extract_lets s1 s2 s3
  have h1 : ∀ f, f < 64 → s.fieldUp f = true → (s1.field f).thermalLimit = 1000 := fun f hf hup =>
    s.stopFields_limit List.nodup_range (List.mem_range.mpr hf) hup
  clear_value s1
  have h2 : s2.fields = s1.fields := List.foldlRecOn (motive := fun u : State => u.fields = s1.fields) _ _ rfl fun _ hu _ _ => hu
  clear_value s2
  have h3 : s3.reg 0x4200 7 = 1 := by
    unfold s3
    rw [State.reg_refreshHolds, State.reg_updateHalts, State.reg_setReg_same]
  have hf3 (f : Nat) : (s3.field f).thermalLimit = (s1.field f).thermalLimit := by
    have hfields : s3.fields = (s2.setReg 0x4200 7 1).updateHalts.fields := by
      obtain ⟨L, O, hholds⟩ := (s2.setReg 0x4200 7 1).updateHalts.refreshHolds_eq
      unfold s3
      rw [hholds]
    have hfield : s3.field f = (s2.setReg 0x4200 7 1).updateHalts.field f := State.field_congr hfields f
    have hbefore : (s2.setReg 0x4200 7 1).field f = s1.field f :=
      (State.setReg_field ..).trans (State.field_congr h2 f)
    exact (congrArg Field.thermalLimit hfield).trans
      ((State.thermalLimit_updateHalts (s2.setReg 0x4200 7 1) f).trans (congrArg Field.thermalLimit hbefore))
  clear_value s3
  refine ⟨?_, ?_, fun f hf hup => ?_⟩
  · unfold thermalState
    rw [State.reg_raise_of_ne _ _ _ _ (by decide) (by decide), State.sat32_eq, State.reg_setReg_of_ne _ _ (by decide), State.setFlags,
      State.reg_setReg_of_ne _ _ (by decide), State.reg_setReg_same]
  · rw [State.reg_raise_of_ne _ _ _ _ (by decide) (by decide), State.sat32_eq, State.reg_setReg_of_ne _ _ (by decide), State.setFlags,
      State.reg_setReg_of_ne _ _ (by decide), State.reg_setReg_of_ne _ _ (by decide), h3]
  · rw [State.field, State.raise_fields]
    exact (hf3 f).trans (h1 f hf hup)

/-- A tray value that is taken (R595). -/
theorem State.reg_writeTray (s : State) (sub : Nat) (v : Word32) : (s.writeTray sub v).reg 0x3010 sub = v.toNat := State.reg_setReg_same ..

/-- What TRAY_FLOW_LPM leads to (R585, R586). -/
theorem trayFlow_eq {v : Word32} (hl : s.steward.lost = false) (hv : trayValue v = true) :
    exec (.trayFlowLpmWrite v) s = .next (
      let t := if (s.writeTray 2 v).flowLow then (s.writeTray 2 v).setFlags 0x3000 8 64 else s.writeTray 2 v
      if (s.writeTray 2 v).flow.map (·.isZero) = some true then t.coolantStop 0 else t) := by
  have hflow (u : State) : (u.setFlags 0x3000 8 64).flow = u.flow := by
    have hstale : (u.setFlags 0x3000 8 64).trayStale = u.trayStale := rfl
    have hreg : (u.setFlags 0x3000 8 64).reg 0x3010 2 = u.reg 0x3010 2 := State.reg_setReg_of_ne _ _ (by decide)
    unfold State.flow
    rw [hstale, hreg]
  refine congrArg Host.Outcome.next ((State.written_of_steward hl).trans ((if_neg (by rw [hv]; decide)).trans ?_))
  dsimp only
  split
  · rw [hflow]
  · rfl

theorem trayFlow_stops {v : Word32} (hl : s.steward.lost = false) (hv : trayValue v = true)
    (h0 : (s.writeTray 2 v).flow.map (·.isZero) = some true) (hcool : thermalState s < 3) : Completes (.trayFlowLpmWrite v) s fun u =>
      thermalState u = 3 ∧ u.reg 0x4200 7 = 1 ∧ ∀ f, f < 64 → s.fieldUp f = true → (u.field f).thermalLimit = 1000 := by
  refine ⟨_, (trayFlow_eq hl hv).trans (congrArg _ (if_pos h0)), ?_⟩
  have htray : thermalState (s.writeTray 2 v) = thermalState s := State.reg_setReg_of_ne _ _ (by decide)
  split
  · refine State.coolantStop_spec _ 0 ?_
    rw [State.thermalState_setFlags8, htray]
    exact hcool
  · refine State.coolantStop_spec _ 0 ?_
    rw [htray]
    exact hcool

/-- A device that has left a stop: its state by the fields, no halt of the hens, the links and the boot as they were (R588, R590). -/
def State.calmed (s : State) : State := ((s.setReg 0x4200 7 0).setReg 0x3000 7 0).updateHalts.refreshHolds.refreshThermalState

theorem State.calmed_spec (s : State) : thermalState s.calmed ≤ 2 ∧ s.calmed.reg 0x4200 7 = 0 ∧
    (∀ n, (s.calmed.link n).thermal = (s.link n).thermal) ∧ s.calmed.boot = s.boot := by
  obtain ⟨F, C, hhalts⟩ := ((s.setReg 0x4200 7 0).setReg 0x3000 7 0).updateHalts_alone
  obtain ⟨L, O, hholds⟩ := ((s.setReg 0x4200 7 0).setReg 0x3000 7 0).updateHalts.refreshHolds_eq
  have hrefresh (u : State) : u.refreshThermalState.stream = u.stream ∧ u.refreshThermalState.boot = u.boot := by
    unfold State.refreshThermalState
    split <;> exact ⟨rfl, rfl⟩
  unfold State.calmed
  refine ⟨?_, ?_, fun n => ?_, ?_⟩
  · rw [State.thermalState_refresh, thermalState, State.reg_refreshHolds, State.reg_updateHalts, State.reg_setReg_same, if_neg (by decide)]
    exact State.calmState_le _
  · rw [State.reg_refreshThermalState_of_ne _ (by decide), State.reg_refreshHolds, State.reg_updateHalts,
      State.reg_setReg_of_ne _ _ (by decide), State.reg_setReg_same]
  · have hlast := congrArg (fun x : StreamPort => (Map.get {} x.links n).thermal) (hrefresh
      ((s.setReg 0x4200 7 0).setReg 0x3000 7 0).updateHalts.refreshHolds).1
    have hfirst := congrArg (fun u : State => (Map.get {} u.stream.links n).thermal) hhalts
    exact hlast.trans ((State.linkThermal_refreshHolds ((s.setReg 0x4200 7 0).setReg 0x3000 7 0).updateHalts n).trans hfirst)
  · rw [(hrefresh _).2, hholds, hhalts]
    rfl

/-- THERMAL_RESUME where its conditions hold (R588). -/
theorem thermalResume_leaves (hl : s.steward.lost = false) (h3 : thermalState s = 3) (hm : s.mayResume = true) :
    Completes (.thermalResume 1) s fun u => thermalState u ≤ 2 ∧ u.reg 0x4200 7 = 0 ∧ ∀ n, n < 8 → (u.link n).thermal = false := by
  have hexec : exec (.thermalResume 1) s = execThermalResume 1 s := rfl
  unfold execThermalResume at hexec
  rw [State.written_of_steward hl, if_neg (by simp [h3, hm])] at hexec
  extract_lets s1 at hexec
  obtain ⟨hstate, hhalt, hlink, _⟩ := s1.calmed_spec
  refine ⟨_, hexec, hstate, hhalt, fun n hn => (hlink n).trans ?_⟩
  have hfold := get_foldl_update (fun (s : State) n => (s.link n).thermal) (fun (s : State) n => s.setLink n { s.link n with thermal := false })
    (fun _ _ => false) (fun s n => congrArg StreamLink.thermal (s.link_setLink_same n _))
    (fun s n j hj => congrArg StreamLink.thermal (s.link_setLink_of_ne _ hj)) (List.nodup_range (n := 8)) s n
  exact hfold.trans (if_pos (List.mem_range.mpr hn))

/-- Settles O50. -/
theorem sensorsAndCoolant : Obligations.SensorsAndCoolant := by
  unfold Obligations.SensorsAndCoolant
  refine ⟨fun s samples i t background accounts leak readings counts low => ⟨powerSample_measured samples i, fun h => ?early,
    fun h => ?attributed, fun h => ?sampled, attribution_charged accounts leak, thermalStep_sampled readings counts low, fun ht h h0 => ?noSample,
    fun h => ?second⟩, fun s v b w => ⟨fun hr hl h => ?cap, fun h => ?capEarly, fun hl hv => ?inlet, fun hv => ?noTray,
    fun hl hv hlow hzero => ?flow, trayFlow_stops, fun h => ?stale, fun h => ?fresh, thermalResume_leaves, fun h => ?stays, fun hl hw => ?flags,
    fun hw => ?reserved⟩⟩
  case early =>
    refine congrArg Host.Outcome.next (if_pos ?_)
    rcases h with h | h
    · rw [h]
      rfl
    · rw [decide_eq_true h, Bool.or_true]
  case attributed => exact congrArg Host.Outcome.next (if_pos (by rw [decide_eq_true h, Bool.or_true]))
  case sampled =>
    refine congrArg Host.Outcome.next (if_pos ?_)
    rcases h with h | h
    · rw [h, Bool.not_false, Bool.or_true, Bool.true_or]
    · rw [decide_eq_true h, Bool.or_true]
  case noSample =>
    refine congrArg Host.Outcome.next ((if_neg ?_).trans (if_pos ?_))
    · rw [decide_eq_false (Nat.not_le.mpr ht), decide_eq_false (Nat.not_lt.mpr h)]
      decide
    · rw [decide_eq_true h0]
      rfl
  case second => exact congrArg Host.Outcome.next (if_pos (by rw [decide_eq_true h, Bool.or_true]))
  case cap =>
    intro u h1 h2
    refine congrArg Host.Outcome.next ((if_neg ?_).trans ?_)
    · rw [hr, hl, decide_eq_false (Nat.not_lt.mpr h)]
      decide
    · exact congrArg State.refreshThermalState ((if_neg (ne_true_of_eq_false h1)).trans (if_neg (ne_true_of_eq_false h2)))
  case capEarly => exact congrArg Host.Outcome.next (if_pos (by rw [decide_eq_true h, Bool.or_true]))
  case inlet =>
    exact ⟨_, congrArg Host.Outcome.next ((State.written_of_steward hl).trans (if_pos hv)), s.reg_writeTray 1 v, rfl, rfl⟩
  case noTray =>
    exact ⟨congrArg Host.Outcome.next (State.written_self (if_neg (ne_true_of_eq_false hv))),
      congrArg Host.Outcome.next (State.written_self (if_pos (by rw [hv]; rfl)))⟩
  case flow =>
    refine (trayFlow_eq hl hv).trans (congrArg Host.Outcome.next ((if_neg hzero).trans (if_neg ?_)))
    rw [hlow]
    exact Bool.false_ne_true
  case stale => exact congrArg Host.Outcome.next (if_pos h)
  case fresh => exact congrArg Host.Outcome.next (if_neg (ne_true_of_eq_false h))
  case stays =>
    refine congrArg Host.Outcome.next (State.written_self (if_pos ?_))
    rcases h with h | h | h
    · rw [decide_eq_true h, Bool.true_or, Bool.true_or]
    · rw [decide_eq_true h, Bool.or_true, Bool.true_or]
    · rw [h, Bool.not_false, Bool.or_true]
  case flags => exact congrArg Host.Outcome.next ((State.written_of_steward hl).trans (if_neg (not_not.mpr (Nat.div_eq_of_lt hw))))
  case reserved => exact congrArg Host.Outcome.next (State.written_self (if_pos (Nat.ne_of_gt (Nat.div_pos hw (by decide)))))

end Sys2Proof.Machine
end

section
/-! PROOFS. Boot and the supply lands (R438, R596, R600, R604 to R607, R609 to R613, R692 to R696). -/
namespace Sys2Proof.Machine
variable {s t u v w : State}

/-! ### Boot and the supply lands (R438, R596, R600, R604 to R607, R609 to R613, R692 to R696) -/

/-- A field that asks to be switched on takes its place in its tower's order, and none leaves it. -/
theorem State.mem_askTurnOn {f g k : Nat} : g ∈ Map.get [] (s.askTurnOn f).turnOns k ↔ g ∈ Map.get [] s.turnOns k ∨ g = f ∧ k = f / 8 := by
  unfold State.askTurnOn
  extract_lets q
  split
  next h =>
    refine ⟨.inl, fun h' => h'.elim id ?_⟩
    rintro ⟨rfl, rfl⟩
    exact List.contains_iff_mem.mp h
  next =>
    by_cases hk : k = f / 8
    · subst hk
      dsimp only
      rw [Map.get_set_same, List.mem_append, List.mem_singleton]
      simp [q]
    · dsimp only
      rw [Map.get_set_of_ne _ _ _ hk]
      simp [hk]

/-- A state that differs from another in the order of turn-on alone. -/
def TurnOnsAlone (s t : State) : Prop := ∃ L, t = { s with turnOns := L }

theorem TurnOnsAlone.askTurnOn (h : TurnOnsAlone s t) {f : Nat} : TurnOnsAlone s (t.askTurnOn f) := by
  obtain ⟨L, rfl⟩ := h
  unfold State.askTurnOn
  extract_lets q
  split <;> exact ⟨_, rfl⟩

/-- A wave's field of a tower asks where it is off (R606). -/
def State.askWave (ws : List Nat) (n : Nat) (u : State) (k : Nat) : State :=
  if ws.contains (8 * k + n) && (u.field (8 * k + n)).rail = .off then u.askTurnOn (8 * k + n) else u

theorem TurnOnsAlone.askWave (h : TurnOnsAlone s t) {ws : List Nat} {n k : Nat} : TurnOnsAlone s (t.askWave ws n k) := by
  unfold State.askWave
  split
  · exact h.askTurnOn
  · exact h

theorem State.askWaves_alone (s : State) (ws : List Nat) (n : Nat) (l : List Nat) : TurnOnsAlone s (l.foldl (State.askWave ws n) s) :=
  List.foldlRecOn (motive := TurnOnsAlone s) _ _ ⟨_, rfl⟩ fun _ hu _ _ => hu.askWave

theorem State.mem_askWave_of_mem {ws : List Nat} {n k j g : Nat} (h : g ∈ Map.get [] s.turnOns j) : g ∈ Map.get [] (s.askWave ws n k).turnOns j := by
  unfold State.askWave
  split
  · exact State.mem_askTurnOn.mpr (.inl h)
  · exact h

/-- A field of the wave that is off has asked, once its tower's turn has come. -/
theorem State.mem_askWaves {ws l : List Nat} {n k : Nat} (hn : n < 8) (hw : ws.contains (8 * k + n) = true)
    (hoff : (s.field (8 * k + n)).rail = .off) (hk : k ∈ l) : 8 * k + n ∈ Map.get [] (l.foldl (State.askWave ws n) s).turnOns k := by
  induction l generalizing s with
  | nil => exact absurd hk List.not_mem_nil
  | cons j l ih =>
    rw [List.foldl_cons]
    rcases List.mem_cons.mp hk with rfl | hk
    · have hfirst : 8 * k + n ∈ Map.get [] (s.askWave ws n k).turnOns k := by
        unfold State.askWave
        rw [if_pos (by rw [hw, hoff]; rfl)]
        exact State.mem_askTurnOn.mpr (.inr ⟨rfl, by omega⟩)
      exact List.foldlRecOn (motive := fun u : State => 8 * k + n ∈ Map.get [] u.turnOns k) _ _ hfirst
        fun _ hu _ _ => State.mem_askWave_of_mem hu
    · refine ih ?_ hk
      obtain ⟨L, hL⟩ := TurnOnsAlone.askWave (⟨_, rfl⟩ : TurnOnsAlone s s) (ws := ws) (n := n) (k := j)
      rw [hL]
      exact hoff

/-- FIELD_WAVE at its time, but for the last (R606). -/
theorem fieldWave_asks {n : Nat} (hn : n < 7) (hwave : s.boot.wave = n) (hdue : s.boot.waveAt + n * usCycles 100 ≤ s.now)
    (hloss : s.boot.inputLoss = false) : Completes (.fieldWave n) s fun t => t.boot = { s.boot with wave := n + 1 } ∧
      (∀ k, k < 8 → s.boot.waveFields.contains (8 * k + n) = true → (s.field (8 * k + n)).rail = .off →
        8 * k + n ∈ Map.get [] t.turnOns k) ∧ t = { s with boot := t.boot, turnOns := t.turnOns } := by
  obtain ⟨L, hL⟩ := s.askWaves_alone s.boot.waveFields n (List.range 8)
  have hasked : ∀ k, k < 8 → s.boot.waveFields.contains (8 * k + n) = true → (s.field (8 * k + n)).rail = .off → 8 * k + n ∈ Map.get [] L k :=
    fun k hk hw hoff => by
      have h := State.mem_askWaves (by omega) hw hoff (List.mem_range.mpr hk)
      rw [hL] at h
      exact h
  have hexec : exec (.fieldWave n) s = .next { s with boot := { s.boot with wave := n + 1 }, turnOns := L } := by
    refine congrArg Host.Outcome.next ((if_neg ?_).trans ((if_neg ?_).trans ?_))
    · simp [hwave, Nat.not_lt.mpr hdue, hloss]
      omega
    · rw [decide_eq_false (by omega : n ≠ 7)]
      exact Bool.false_ne_true
    · have h : (List.range 8).foldl (State.askWave s.boot.waveFields n) s = { s with turnOns := L } := hL
      exact congrArg (fun u : State => { u with boot := { u.boot with wave := n + 1 } }) h
  exact ⟨_, hexec, rfl, hasked, rfl⟩

/-- A boot begun with no repair in force (R596, R605). -/
def State.coldStarted (s : State) : State :=
  ({ s with
      pins := { s.pins with resetN := true }, repairs := [], inForce := []
      boot := { s.boot with started := true, since := s.now, rails := s.pins.pwrGood }
      steward := { s.steward with lastHeartbeat := s.now } } : State).setReg 0x9005 4 0

/-- COLD_BOOT with the repair table lost (R596, R605, R699). -/
theorem coldBoot_starts (hstart : s.boot.started = false) (hvaux : s.pins.vaux = true) : Completes (.coldBoot false) s fun t =>
    t.boot.started = true ∧ t.boot.since = s.now ∧ t.boot.rails = s.pins.pwrGood ∧ t.pins.resetN = true ∧ t.repairs = [] ∧ t.inForce = [] ∧
      t.reg 0x9005 4 = 0 ∧
      t = { s with pins := t.pins, repairs := [], inForce := [], boot := t.boot, regs := t.regs,
                   steward := { s.steward with lastHeartbeat := s.now } } := by
  have hexec : exec (.coldBoot false) s =
      .next (if s.pins.freezeN then s.coldStarted else s.coldStarted.setFlags 0xA001 4 freezePin) := by
    refine congrArg Host.Outcome.next ((if_neg ?_).trans rfl)
    rw [hstart, hvaux]
    decide
  have hreg : s.coldStarted.reg 0x9005 4 = 0 := State.reg_setReg_same ..
  refine ⟨_, hexec, ?_⟩
  split
  · exact ⟨rfl, rfl, rfl, rfl, rfl, rfl, hreg, rfl⟩
  · exact ⟨rfl, rfl, rfl, rfl, rfl, rfl, (State.reg_setReg_of_ne _ _ (by decide)).trans hreg, rfl⟩

/-! ### The image -/

/-- A group formed anew leaves memory, the steward and the entries of the boot (R480). -/
theorem State.reformGroup_spec (s : State) : s.reformGroup.mem = s.mem ∧ s.reformGroup.steward = s.steward ∧ s.reformGroup.saved = s.saved ∧
    ∀ sub, sub < 256 → s.reformGroup.reg 0x9000 sub = s.reg 0x9000 sub := by
  unfold State.reformGroup
  split
  next shape member _ =>
  extract_lets g s1 s2
  have h1 : s1.mem = s.mem ∧ s1.steward = s.steward ∧ s1.saved = s.saved ∧ ∀ sub, sub < 256 → s1.reg 0x9000 sub = s.reg 0x9000 sub :=
    ⟨rfl, rfl, rfl, fun _ _ => rfl⟩
  clear_value s1
  have h2 : s2.mem = s.mem ∧ s2.steward = s.steward ∧ s2.saved = s.saved ∧ ∀ sub, sub < 256 → s2.reg 0x9000 sub = s.reg 0x9000 sub := by
    refine List.foldlRecOn (motive := fun u : State => u.mem = s.mem ∧ u.steward = s.steward ∧ u.saved = s.saved ∧
      ∀ sub, sub < 256 → u.reg 0x9000 sub = s.reg 0x9000 sub) _ _ h1 fun u hu p hp => ?_
    obtain ⟨hmem, hst, hsaved, hreg⟩ := hu
    refine ⟨hmem, hst, hsaved, fun sub hs => (State.reg_setReg_of_ne _ _ ?_).trans (hreg sub hs)⟩
    have := List.mem_range.mp hp
    omega
  clear_value s2
  obtain ⟨hmem, hst, hsaved, hreg⟩ := h2
  refine ⟨hmem, hst, hsaved, fun sub hs => ?_⟩
  rw [State.reg_setReg_of_ne _ _ (by omega), State.reg_setReg_of_ne _ _ (by omega), hreg sub hs]

theorem State.bootWaves_spec (s : State) : s.bootWaves.mem = s.mem ∧ s.bootWaves.steward = s.steward ∧ s.bootWaves.saved = s.saved ∧
    s.bootWaves.reg 0x9000 2 = s.reg 0x9000 2 := by
  unfold State.bootWaves
  split
  · exact ⟨rfl, rfl, rfl, State.reg_setReg_of_ne _ _ (by decide)⟩
  · exact ⟨rfl, rfl, rfl, rfl⟩

theorem State.bootWaves_channels (s : State) : s.bootWaves.boot.channels = s.boot.channels ∧
    s.bootWaves.boot.badChannels = s.boot.badChannels := by
  unfold State.bootWaves
  split <;> exact ⟨rfl, rfl⟩

/-- No entries saved: the defaults stand, and only the width that a boot copies is taken (R605, R323). -/
theorem State.loadSaved_nil (s : State) : (s.loadSaved {}).mem = s.mem ∧ (s.loadSaved {}).steward = s.steward ∧ (s.loadSaved {}).saved = s.saved ∧
    (s.loadSaved {}).now = s.now ∧ (s.loadSaved {}).reg 0x9000 2 = s.reg 0x9000 2 := ⟨rfl, rfl, rfl, rfl, rfl⟩

theorem State.setStaticAddress_spec (s : State) : s.setStaticAddress.mem = s.mem ∧ s.setStaticAddress.saved = s.saved ∧
    s.setStaticAddress.now = s.now ∧ s.setStaticAddress.reg 0x9000 2 = s.reg 0x9000 2 := by
  unfold State.setStaticAddress
  split
  · exact ⟨rfl, rfl, rfl, State.reg_setReg_of_ne _ _ (by decide)⟩
  · exact ⟨rfl, rfl, rfl, rfl⟩

/-- The image that a boot without saved entries finds. -/
def State.imageFound (s : State) : Option (Nat × Bool) :=
  if s.norSize < 0x4000000 then none else ({ s with saved := {} } : State).chooseImage 0

/-- The image chosen runs (R604). -/
def State.imageRun (s : State) (slot : Nat) (second : Bool) : State :=
  let flags := (if Config.norQuad then 0 else 2) + 4
  let u := ((({ s with saved := {} } : State).setReg 0x9000 1 1).setReg 0x9000 2 slot).setReg 0x9000 6 (flags + if second then 1 else 0)
  let u := ((u.setReg 0x1000 7 (u.header slot 4 4)).loadSaved {}).setStaticAddress
  ({ u with steward := { running := true, lastHeartbeat := u.now } } : State).reformGroup.bootWaves

theorem State.imageRun_spec (s : State) (slot : Nat) (second : Bool) : (s.imageRun slot second).saved = {} ∧
    (s.imageRun slot second).mem = s.mem ∧ (s.imageRun slot second).steward.running = true ∧
    (s.imageRun slot second).steward.lastHeartbeat = s.now ∧ (s.imageRun slot second).reg 0x9000 2 = slot := by
  unfold State.imageRun
  extract_lets flags u1 u2
  have hmem1 : u1.mem = s.mem := rfl
  have hsaved1 : u1.saved = {} := rfl
  have hnow1 : u1.now = s.now := rfl
  have hreg1 : u1.reg 0x9000 2 = slot := (State.reg_setReg_of_ne _ _ (by decide)).trans (State.reg_setReg_same ..)
  clear_value u1
  obtain ⟨hmem2, _, hsaved2, hnow2, hreg2⟩ := (u1.setReg 0x1000 7 (u1.header slot 4 4)).loadSaved_nil
  obtain ⟨hmem3, hsaved3, hnow3, hreg3⟩ := ((u1.setReg 0x1000 7 (u1.header slot 4 4)).loadSaved {}).setStaticAddress_spec
  have hnow : u2.now = s.now := hnow3.trans (hnow2.trans hnow1)
  have hreg : u2.reg 0x9000 2 = slot := hreg3.trans (hreg2.trans ((State.reg_setReg_of_ne _ _ (by decide)).trans hreg1))
  replace hmem3 : u2.mem = s.mem := hmem3.trans (hmem2.trans hmem1)
  replace hsaved3 : u2.saved = {} := hsaved3.trans (hsaved2.trans hsaved1)
  clear_value u2
  obtain ⟨hmem4, hst4, hsaved4, hreg4⟩ :=
    ({ u2 with steward := { running := true, lastHeartbeat := u2.now } } : State).reformGroup_spec
  obtain ⟨hmem5, hst5, hsaved5, hreg5⟩ :=
    ({ u2 with steward := { running := true, lastHeartbeat := u2.now } } : State).reformGroup.bootWaves_spec
  refine ⟨hsaved5.trans (hsaved4.trans hsaved3), hmem5.trans (hmem4.trans hmem3), ?_, ?_, hreg5.trans ((hreg4 2 (by decide)).trans hreg)⟩
  · rw [hst5, hst4]
  · rw [hst5, hst4]
    exact hnow

/-- IMAGE_LOAD with no valid copy of the saved entries (R600, R604, R605). -/
theorem imageLoad_eq (hrails : s.boot.rails = true) (hloss : s.boot.inputLoss = false) (hrun : s.steward.running = false)
    (h0 : s.reg 0x9000 1 = 0) :
    exec (.imageLoad false) s = .next (match s.imageFound with
      | none => (({ s with saved := {} } : State).setReg 0x9000 1 0x80).setReg 0x9000 6 (if Config.norQuad then 0 else 2)
      | some (slot, second) => s.imageRun slot second) := by
  refine congrArg Host.Outcome.next ((if_neg ?_).trans ?_)
  · rw [hrails, hloss, hrun, h0]
    decide
  · dsimp only
    cases hf : s.imageFound with
    | none =>
      split
      next => rfl
      next h => exact absurd (h.symm.trans hf) (by simp)
    | some x =>
      split
      next h => exact absurd (h.symm.trans hf) (by simp)
      next slot second h =>
        obtain rfl : (slot, second) = x := Option.some.inj (h.symm.trans hf)
        rfl

/-- CHANNEL_INIT_COMPLETE without a failing unit (R438, R607). -/
theorem channelInit_clean {ch : ChannelTest} (hrails : s.boot.rails = true) (hch : s.boot.channels = false) (hloss : s.boot.inputLoss = false)
    (h1 : ch.channels = []) (h2 : ch.hens = []) (h3 : ch.towers = []) : Completes (.channelInitComplete ch) s fun t =>
      t.boot.channels = true ∧ t.boot.badChannels = [] ∧ (∀ e ∈ t.mem.cells, sliceBase ≤ e.1) ∧ t.mem.check = [] := by
  have hexec : exec (.channelInitComplete ch) s = execChannelInitComplete ch s := rfl
  unfold execChannelInitComplete at hexec
  rw [if_neg (by rw [hrails, hch, hloss]; decide), h1, h2, h3] at hexec
  extract_lets none towers lost boot s1 note s2 s3 s4 s5 at hexec
  have h4 : s4 = s1 := rfl
  have hmem : s1.mem = s.loseDram.mem := rfl
  have hboot : s1.boot.channels = true ∧ s1.boot.badChannels = [] := ⟨rfl, rfl⟩
  have h5 : s5.mem = s1.mem ∧ s5.boot = s1.boot := by
    unfold s5
    rw [h4]
    exact List.foldlRecOn (motive := fun u : State => u.mem = s1.mem ∧ u.boot = s1.boot) _ _ ⟨rfl, rfl⟩ fun u hu _ _ => hu
  clear_value s5
  obtain ⟨hmem6, _⟩ := s5.bootWaves_spec
  obtain ⟨hch6, hbad6⟩ := s5.bootWaves_channels
  have hlost : s5.bootWaves.mem = s.loseDram.mem := hmem6.trans (h5.1.trans hmem)
  refine ⟨_, hexec, hch6.trans ?_, hbad6.trans ?_, fun e he => ?_, ?_⟩
  · rw [h5.2, hboot.1]
  · rw [h5.2, hboot.2]
  · rw [hlost] at he
    exact of_decide_eq_true (List.mem_filter.mp he).2
  · rw [hlost]
    rfl

/-! ### The defect map (R610 to R613) -/

theorem State.raise_dm (s : State) (code tower detail : Nat) : (s.raise code tower detail).dm = s.dm := by
  rw [State.raise_eq]

/-- What follows a map's publication leaves the map, and READY or degraded (R611, R628). -/
theorem State.noteDegraded_spec (s : State) : s.noteDegraded.dm = s.dm ∧ s.noteDegraded.reg 0x1101 10 = s.reg 0x1101 10 ∧
    (s.noteDegraded.reg 0x9000 1 = s.reg 0x9000 1 ∨ s.noteDegraded.reg 0x9000 1 = 5) := by
  unfold State.noteDegraded
  split
  · refine ⟨(State.raise_dm ..).trans rfl, ?_, .inr ?_⟩
    · rw [State.reg_raise_of_ne _ _ _ _ (by decide) (by decide), State.reg_setReg_of_ne _ _ (by decide), State.reg_setReg_of_ne _ _ (by decide)]
    · rw [State.reg_raise_of_ne _ _ _ _ (by decide) (by decide), State.reg_setReg_same]
  · exact ⟨rfl, rfl, .inl rfl⟩

theorem State.refreshHolds_dm (s : State) : s.refreshHolds.dm = s.dm := by
  obtain ⟨L, O, h⟩ := s.refreshHolds_eq
  rw [h]

theorem State.refreshReplace_dm (s : State) : s.refreshReplace.dm = s.dm := by
  rw [State.refreshReplace_eq]

theorem State.beginFreeze_dm (s : State) : s.beginFreeze.dm = s.dm := by
  unfold State.beginFreeze
  split
  · rfl
  · split
    · exact (State.refreshHolds_dm _).trans rfl
    · rfl

/-- A freeze that begins concerns the entries of the freeze. -/
theorem State.reg_beginFreeze_of_ne (s : State) {idx sub : Nat} (h : idx * 256 + sub ≠ 0xA001 * 256 + 3) (h' : idx * 256 + sub ≠ 0xBD00 * 256 + 1) :
    s.beginFreeze.reg idx sub = s.reg idx sub := by
  unfold State.beginFreeze
  split
  · exact State.reg_setReg_of_ne _ _ h
  · split
    · rw [State.reg_refreshHolds, State.sat32_eq, State.reg_setReg_of_ne _ _ h', State.reg_setReg_of_ne _ _ h]
    · rfl

/-- The map of a device whose fields have been tested (R610). -/
def State.defectMap (s : State) : DefectMap :=
  let cores := (List.range 8).flatMap towerCores
  let towers := (List.range 8).filter s.towerOut
  let gone (c : Nat) : Bool := towers.contains (coreTower c)
  let noChannel (c : Nat) : Bool := gone c || Config.fuseChannel c || s.boot.badChannels.contains c
  { published := true
    cores := cores.filter fun c => gone c || s.coreOut c || s.bypassed c
    slices := cores.filter fun c => gone c || s.sliceOut c
    hens := cores.filter fun c => noChannel c || Config.fuseHens c || s.boot.badHens.contains c
    channels := cores.filter noChannel
    towers := towers
    bridges := s.boot.badBridges }

/-- The map published, before what follows from it. -/
def State.mapped (s : State) : State :=
  (((({ s with dm := s.defectMap } : State).setReg 0x1101 10 1).setReg 0x9000 1 4).setReg 0x9000 4 ((s.now - s.boot.since) / msCycles 1)).setReg
    0x9009 3 (((List.range 8).filter fun t => !((List.range 8).filter s.towerOut).contains t).map (2 ^ ·)).sum

theorem defectMapPublish_eq (hpub : s.dm.published = false) (hloss : s.boot.inputLoss = false) (hwave : s.boot.wave = 8) (h3 : s.reg 0x9000 1 = 3)
    (hall : ∀ f, f < 64 → s.boot.tested.contains f = true ∨ s.towerOut (f / 8) = true) :
    exec .defectMapPublish s = .next s.mapped.noteDegraded.refreshReplace.beginFreeze.refreshHolds := by
  refine congrArg Host.Outcome.next ((if_neg ?_).trans rfl)
  have h : ((List.range 64).all fun f => s.boot.tested.contains f || s.towerOut (f / 8)) = true :=
    List.all_eq_true.mpr fun f hf => (Bool.or_eq_true _ _).mpr (hall f (List.mem_range.mp hf))
  rw [hpub, hloss, hwave, h3, h]
  decide

theorem mem_towers {k : Nat} : k ∈ s.defectMap.towers ↔ k < 8 ∧ s.towerOut k = true := by
  show k ∈ (List.range 8).filter s.towerOut ↔ _
  rw [List.mem_filter, List.mem_range]

theorem coreTower_lt {c : Nat} (h : c ∈ (List.range 8).flatMap towerCores) : coreTower c < 8 := by
  obtain ⟨k, hk, hc⟩ := List.mem_flatMap.mp h
  obtain ⟨i, hi, rfl⟩ := List.mem_map.mp hc
  have := List.mem_range.mp hk
  have := List.mem_range.mp hi
  unfold coreTower
  omega

theorem mem_defectCores {c : Nat} : c ∈ s.defectMap.cores ↔ (c ∈ (List.range 8).flatMap towerCores ∧
    (s.towerOut (coreTower c) = true ∨ s.coreOut c = true ∨ s.bypassed c = true)) := by
  unfold State.defectMap
  dsimp only
  rw [List.mem_filter]
  refine and_congr_right fun hc => ?_
  rw [Bool.or_eq_true, Bool.or_eq_true, or_assoc, List.contains_iff_mem, List.mem_filter, List.mem_range]
  simp [coreTower_lt hc]

/-- DEFECT_MAP_PUBLISH with every field tested or its tower out (R610 to R613). -/
theorem defectMap_published (hpub : s.dm.published = false) (hloss : s.boot.inputLoss = false) (hwave : s.boot.wave = 8)
    (h3 : s.reg 0x9000 1 = 3) (hall : ∀ f, f < 64 → s.boot.tested.contains f = true ∨ s.towerOut (f / 8) = true) :
    Completes .defectMapPublish s fun t => t.dm.published = true ∧ t.dm.bridges = s.boot.badBridges ∧
      (∀ c, c ∈ t.dm.cores ↔ (c ∈ (List.range 8).flatMap towerCores ∧
        (s.towerOut (coreTower c) = true ∨ s.coreOut c = true ∨ s.bypassed c = true))) ∧
      (∀ k, k ∈ t.dm.towers ↔ k < 8 ∧ s.towerOut k = true) ∧
      (t.reg 0x9000 1 = 4 ∨ t.reg 0x9000 1 = 5) ∧ t.reg 0x1101 10 = 1 := by
  obtain ⟨hdm1, hone, hready⟩ := s.mapped.noteDegraded_spec
  have hdm : s.mapped.noteDegraded.refreshReplace.beginFreeze.refreshHolds.dm = s.defectMap := by
    rw [State.refreshHolds_dm, State.beginFreeze_dm, State.refreshReplace_dm, hdm1]
    rfl
  have hreg {idx sub : Nat} (h : idx * 256 + sub < 0x9009 * 256) :
      s.mapped.noteDegraded.refreshReplace.beginFreeze.refreshHolds.reg idx sub = s.mapped.noteDegraded.reg idx sub := by
    rw [State.reg_refreshHolds, State.reg_beginFreeze_of_ne _ (by omega) (by omega),
      State.reg_refreshReplace_of_ne _ (by omega) (by omega) (by omega)]
  have h4 : s.mapped.reg 0x9000 1 = 4 := by
    unfold State.mapped
    rw [State.reg_setReg_of_ne _ _ (by decide), State.reg_setReg_of_ne _ _ (by decide), State.reg_setReg_same]
  have h1 : s.mapped.reg 0x1101 10 = 1 := by
    unfold State.mapped
    rw [State.reg_setReg_of_ne _ _ (by decide), State.reg_setReg_of_ne _ _ (by decide), State.reg_setReg_of_ne _ _ (by decide),
      State.reg_setReg_same]
  refine ⟨_, defectMapPublish_eq hpub hloss hwave h3 hall, ?_⟩
  dsimp only
  rw [hdm, hreg (by decide), hreg (by decide), hone, h1]
  exact ⟨rfl, rfl, fun c => mem_defectCores, fun k => mem_towers, hready.imp (·.trans h4) id, rfl⟩

/-! ### The supply lands -/

/-- The stop noted leaves memory, the link and what of the boot an input loss sets. -/
theorem State.noteStop_spec (s old : State) (cause : Nat) : (s.noteStop old cause).mem = s.mem ∧ (s.noteStop old cause).host = s.host ∧
    (s.noteStop old cause).boot.inputLoss = s.boot.inputLoss ∧ (s.noteStop old cause).boot.wave = s.boot.wave := by
  unfold State.noteStop
  extract_lets c t
  split <;> exact ⟨rfl, rfl, rfl, rfl⟩

theorem State.loseDram_cells (s : State) : ∀ e ∈ s.loseDram.mem.cells, sliceBase ≤ e.1 := fun _ he =>
  of_decide_eq_true (List.mem_filter.mp he).2

/-- An input loss on powered rails (R694). -/
theorem State.inputLoss_spec (hrails : s.boot.rails = true) (hloss : s.boot.inputLoss = false) : s.inputLoss.boot.inputLoss = true ∧
    s.inputLoss.boot.wave = 8 ∧ s.inputLoss.host.linkUp = false ∧ ∀ e ∈ s.inputLoss.mem.cells, sliceBase ≤ e.1 := by
  unfold State.inputLoss
  rw [if_neg (by rw [hrails, hloss]; decide)]
  extract_lets old s1 boot host s2
  obtain ⟨hmem, hhost, hl, hw⟩ := (s2.setReg 0x1102 13 0).noteStop_spec old 2
  refine ⟨hl, hw, by rw [hhost]; rfl, fun e he => ?_⟩
  rw [hmem, State.setReg_mem] at he
  have hlost : s2.mem = s1.mem := rfl
  rw [hlost] at he
  exact State.loseDram_cells _ e he

/-- The cause that LAST_SHUTDOWN takes, with the three conditions of R696 under a name each. -/
theorem State.stopCause_eq (s : State) (c : Nat) : s.stopCause c =
    if (!s.stopped || (s.boot.stopAt == some s.now && decide (c < s.reg 0x2020 1)) || (s.reg 0x2020 1 == 4 && s.shuttingDown)) = true
    then c else s.reg 0x2020 1 := rfl

/-- The first stop gives its cause (R696). -/
theorem State.stopCause_of_running (h : s.stopped = false) (c : Nat) : s.stopCause c = c := by
  rw [State.stopCause_eq, h]
  exact if_pos rfl

/-- A stop of a later cycle leaves the cause (R696). -/
theorem State.stopCause_of_later (hs : s.stopped = true) (ha : s.boot.stopAt ≠ some s.now) (h4 : s.reg 0x2020 1 ≠ 4) (c : Nat) :
    s.stopCause c = s.reg 0x2020 1 := by
  rw [State.stopCause_eq, hs, beq_eq_false_iff_ne.mpr ha, beq_eq_false_iff_ne.mpr h4]
  exact if_neg (by simp)

/-- Of the causes of one cycle the lowest stays (R696). -/
theorem State.stopCause_of_same (hs : s.stopped = true) (ha : s.boot.stopAt = some s.now) (h4 : s.reg 0x2020 1 ≠ 4) (c : Nat) :
    s.stopCause c = min (s.reg 0x2020 1) c := by
  rw [State.stopCause_eq, hs, ha, beq_self_eq_true, beq_eq_false_iff_ne.mpr h4]
  by_cases hc : c < s.reg 0x2020 1
  · rw [if_pos (by simp [hc]), Nat.min_eq_right (Nat.le_of_lt hc)]
  · rw [if_neg (by simp [hc]), Nat.min_eq_left (Nat.le_of_not_lt hc)]

/-- Another cause takes the place of the trip of a shutdown that has not completed (R696). -/
theorem State.stopCause_of_trip (h4 : s.reg 0x2020 1 = 4) (hd : s.shuttingDown = true) (c : Nat) : s.stopCause c = c := by
  rw [State.stopCause_eq, h4, hd]
  exact if_pos (by simp)

/-- The test of a held field after the boot (R618). -/
theorem selfTestComplete_later {f : Nat} {r : SelfTest} (hf : f < 64) (hl : s.boot.inputLoss = false) (hp : s.dm.published = true)
    (hheld : (s.field f).rail = .held) (h4 : s.serviceState f = 4) :
    exec (.selfTestComplete f r) s = .next ((s.applyTest f (s.field f).test 1 r).finishTest f) := by
  refine congrArg Host.Outcome.next ((if_neg ?_).trans ((if_pos (by rw [hheld, h4]; decide)).trans ?_))
  · rw [hl, Bool.or_false, decide_eq_true_eq]
    exact Nat.not_le_of_lt hf
  · dsimp only
    rw [hp]
    rfl

/-- What a RESET_N low of 100 µs leaves (R693). -/
def State.resetHeld (s : State) : State :=
  { s.wiped with pins := { s.wiped.pins with resetN := false } }

theorem State.stopCause_fresh (s : State) (n c : Nat) : ({ s with fresh := n } : State).stopCause c = s.stopCause c := by
  have hstopped : ({ s with fresh := n } : State).stopped = s.stopped := rfl
  have hdown : ({ s with fresh := n } : State).shuttingDown = s.shuttingDown := rfl
  rw [State.stopCause_eq, State.stopCause_eq, hstopped, hdown]
  rfl

/-- A RESET_N low of 100 µs (R693). -/
theorem resetNLow_long {ns : Nat} (h : 100000 ≤ ns) : exec (.resetNLow ns) s =
    .next (({ s with fresh := s.fresh + 1 } : State).resetHeld.setReg 0x2020 1 (s.stopCause 1)) := by
  refine congrArg Host.Outcome.next ((if_neg ?_).trans ?_)
  · rw [decide_eq_true h, Bool.true_or]
    decide
  · dsimp only
    rw [State.stopCause_fresh]
    rfl

/-- IMAGE_LOAD with no valid copy of the saved entries (R604, R605). -/
theorem imageLoad_loads (hrails : s.boot.rails = true) (hloss : s.boot.inputLoss = false) (hrun : s.steward.running = false)
    (h0 : s.reg 0x9000 1 = 0) : Completes (.imageLoad false) s fun t => t.saved = {} ∧ t.mem = s.mem ∧
      (s.imageFound = none → t.steward = s.steward ∧ t.reg 0x9000 1 = 0x80) ∧
      (∀ slot second, s.imageFound = some (slot, second) →
        t.steward.running = true ∧ t.steward.lastHeartbeat = s.now ∧ t.reg 0x9000 2 = slot) := by
  have hexec := imageLoad_eq hrails hloss hrun h0
  cases hf : s.imageFound with
  | none =>
    rw [hf] at hexec
    refine ⟨_, hexec, rfl, rfl, fun _ => ⟨rfl, ?_⟩, fun slot second h => nomatch h⟩
    exact (State.reg_setReg_of_ne _ _ (by decide)).trans (State.reg_setReg_same ..)
  | some x =>
    obtain ⟨slot, second⟩ := x
    rw [hf] at hexec
    dsimp only at hexec
    obtain ⟨hsaved, hmem, hrun, hbeat, hslot⟩ := s.imageRun_spec slot second
    refine ⟨_, hexec, hsaved, hmem, fun h => absurd h (Option.some_ne_none _), fun i b h => ?_⟩
    obtain ⟨rfl, rfl⟩ := Prod.mk.inj (Option.some.inj h)
    exact ⟨hrun, hbeat, hslot⟩

/-- Settles O51. -/
theorem bootAndSupplyLands : Obligations.BootAndSupplyLands := by
  unfold Obligations.BootAndSupplyLands
  intro s w ns f r ch b
  refine ⟨coldBoot_starts, fun h => congrArg Host.Outcome.next (if_pos (by rw [h]; rfl)), imageLoad_loads, fun h => ?running,
    channelInit_clean, fieldWave_asks, fun h => ?wave, fun hf hl hp hheld h4 => selfTestComplete_later hf hl hp hheld h4,
    defectMap_published, ?rise, fun h1 h2 => ?fall, fun h => ?low, fun h => ?lowNot, ?vaux, fun h => ?vauxRise, fun h => ?vauxThere,
    fun h => ?short, fun h => ⟨_, resetNLow_long h, ?reset⟩, fun h => State.stopCause_of_running h,
    fun hs ha h4 => State.stopCause_of_later hs ha h4, fun hs ha h4 => State.stopCause_of_same hs ha h4,
    fun _ h4 hd c _ => State.stopCause_of_trip h4 hd c⟩
  case running => exact congrArg Host.Outcome.next (if_pos (by rw [h]; simp))
  case wave => exact congrArg Host.Outcome.next (if_pos (by simp [show ¬ w = s.boot.wave from h]))
  case rise =>
    refine congrArg Host.Outcome.next ?_
    dsimp only
    simp only [Bool.and_eq_true, Bool.not_eq_true']
    rfl
  case fall => exact ⟨_, rfl, State.inputLoss_spec (s := { s with pins := { s.pins with pwrGood := false } }) h1 h2⟩
  case low => exact congrArg Host.Outcome.next (if_pos h)
  case lowNot => exact congrArg Host.Outcome.next (if_neg (by rw [h]; decide))
  case vaux => exact ⟨_, rfl, rfl, rfl, rfl, rfl, rfl, rfl, rfl, rfl, rfl, rfl, rfl⟩
  case vauxRise => exact congrArg Host.Outcome.next (if_neg (by rw [h]; decide))
  case vauxThere => exact congrArg Host.Outcome.next (if_pos h)
  case short =>
    refine congrArg Host.Outcome.next ((if_pos ?_).trans rfl)
    rw [decide_eq_false (show ¬ 100000 ≤ ns by omega), decide_eq_false (show ¬ 1000 ≤ ns by omega)]
    rfl
  case reset => exact ⟨rfl, rfl, rfl, rfl, rfl, rfl, rfl, rfl, State.reg_setReg_same ..⟩

end Sys2Proof.Machine
end

section
/-! PROOFS. Partial resets, service and repair (R474, R590, R615, R616, R618, R620 to R626). -/
namespace Sys2Proof.Machine
variable {s t u v w : State}

/-! ### Partial resets (R615, R616, R618) -/

/-- What RESET of a field does where it may (R615). -/
theorem fieldReset_eq {v : BitVec 16} (hl : s.steward.lost = false) (hscope : resetScope v = 0) (htest : resetTest v ≠ 3)
    (hmay : s.mayReset = true) : exec (.fieldReset v) s =
      .next (if s.unresettable (resetTarget v) then s else s.resetField (resetTarget v) (resetTest v) false) := by
  refine congrArg Host.Outcome.next ((State.written_of_steward hl).trans ?_)
  dsimp only
  rw [hscope, hmay, decide_eq_false htest]
  rfl

theorem towerReset_eq {v : BitVec 16} (hl : s.steward.lost = false) (hscope : resetScope v = 1) (htest : resetTest v ≠ 3)
    (hmay : s.mayReset = true) : exec (.towerReset v) s =
      .next (if s.towerOut (resetTarget v % 8) then s else
        ((List.range 8).map (8 * (resetTarget v % 8) + ·)).foldl (fun (s : State) f =>
          if s.unresettable f then s else s.resetField f (resetTest v) false) s) := by
  refine congrArg Host.Outcome.next ((State.written_of_steward hl).trans ?_)
  dsimp only
  rw [hscope, hmay, decide_eq_false htest]
  rfl

theorem computeSideReset_eq {v : BitVec 16} (hl : s.steward.lost = false) (hscope : resetScope v = 2) (htest : resetTest v ≠ 3) :
    exec (.computeSideReset v) s = .next (s.resetAll (resetTest v)) := by
  refine congrArg Host.Outcome.next ((State.written_of_steward hl).trans (if_neg ?_))
  rw [hscope, decide_eq_false htest]
  decide

/-- A reserved TEST or scope, or a device that may not be reset (R615). -/
theorem resets_nothing {v : BitVec 16} (h : resetTest v = 3 ∨ resetScope v = 3 ∨ s.mayReset = false) : exec (.fieldReset v) s = .next s ∧
    exec (.towerReset v) s = .next s ∧ exec (.computeSideReset v) s = .next s := by
  refine ⟨congrArg Host.Outcome.next (State.written_self (if_pos ?_)), congrArg Host.Outcome.next (State.written_self (if_pos ?_)),
    congrArg Host.Outcome.next (State.written_self ?_)⟩
  · obtain h | h | h := h <;> simp [h]
  · obtain h | h | h := h <;> simp [h]
  · obtain h | h | h := h
    · exact if_pos (by simp [h])
    · exact if_pos (by simp [h])
    · exact ite_eq_left_iff.mpr fun _ => by rw [State.resetAll, h]; rfl

/-- A field that has been off for 10 µs, no lower one of its tower before it (R616). -/
theorem resetOffHold_asks {f : Nat} (hf : f < 64) (hoff : s.offHeld f = true) (hrun : s.running = true) (hwave : (s.field f).byWave = false)
    (hlow : ∀ i, i < f % 8 → s.offHeld (f / 8 * 8 + i) = false) :
    exec (.resetOffHold f) s = .next ((s.setField f { s.field f with onAfterReset := false }).askTurnOn f) := by
  refine congrArg Host.Outcome.next ((if_neg ?_).trans ((if_neg ?_).trans (if_neg ?_)))
  · rw [hoff, hrun, decide_eq_false (Nat.not_le_of_lt hf)]
    decide
  · rw [hwave]
    decide
  · intro h
    obtain ⟨i, hi, h⟩ := List.any_eq_true.mp h
    rw [hlow i (List.mem_range.mp hi)] at h
    exact Bool.false_ne_true h

/-! ### Service of a field (R620 to R623) -/

theorem drain_eq {v : BitVec 16} (hl : s.steward.lost = false) (ha : serviceAction v = 1) (hmay : s.mayReset = true)
    (h0 : s.serviceState (v.toNat % 64) = 0) (hup : s.fieldUp (v.toNat % 64) = true) : exec (.drain v) s =
      .next ((s.setField (v.toNat % 64) { s.field (v.toNat % 64) with drainAt := some s.now }).setServiceState (v.toNat % 64) 1) := by
  refine congrArg Host.Outcome.next ((State.written_of_steward hl).trans (if_neg ?_))
  rw [ha, hmay, h0, hup]
  decide

theorem drainEnd_eq {f : Nat} (hf : f < 64) (h1 : s.serviceState f = 1) (hidle : s.fieldIdle f = true) :
    exec (.drainEnd f) s = .next (s.takeOut f) := congrArg Host.Outcome.next (if_pos (by simp [hf, h1, hidle]))

theorem drainTimeout_eq {f t0 : Nat} (hf : f < 64) (h1 : s.serviceState f = 1) (hat : (s.field f).drainAt = some t0)
    (h : t0 + msCycles (s.reg 0x9001 3) ≤ s.now) : exec (.drainTimeout f) s = .next (s.takeOut f) := by
  refine congrArg Host.Outcome.next ?_
  rw [hat]
  exact if_pos (by simp [hf, h1, h])

/-- A field that is not DRAINING has no drain to end (R621). -/
theorem drains_nothing {f : Nat} (h1 : s.serviceState f ≠ 1) : exec (.drainEnd f) s = .next s ∧ exec (.drainTimeout f) s = .next s := by
  refine ⟨congrArg Host.Outcome.next (if_neg (by simp [h1])), congrArg Host.Outcome.next ?_⟩
  split
  · exact if_neg (by simp [h1])
  · rfl

/-- The checks of a test of an OUT field (R622). -/
theorem State.serviceTest_eq {action level : Nat} {v : BitVec 16} (ha : serviceAction v = action) (hmay : s.mayReset = true)
    (h2 : s.serviceState (v.toNat % 64) = 2) (hreset : s.inReset (v.toNat % 64) = false) :
    s.serviceTest action level v =
      let g := v.toNat % 64
      let u := s.setField g { s.field g with test := level, testOnly := true, tested := false }
      if (s.field g).rail = .held then u.setServiceState g 4 else u.askTurnOn g := by
  refine (if_neg ?_).trans ?_
  · rw [ha, hmay, h2, hreset]
    simp
  · dsimp only
    rw [State.field_of_set_same rfl]

theorem returnService_eq {v : BitVec 16} (hl : s.steward.lost = false) (hmay : s.mayReset = true) (h2 : s.serviceState (v.toNat % 64) = 2)
    (hreset : s.inReset (v.toNat % 64) = false) (ha : serviceAction v = 4) :
    let g := v.toNat % 64
    exec (.returnService v) s = .next (if s.towerOut (g / 8) then s
      else if (s.field g).rail = .held ∧ (s.field g).tested = true then s.finishTest g
      else s.setField g { s.field g with
        test := 0, testOnly := false, onAfterReset := true, offAt := some ((s.field g).offAt.getD s.now) }) := by
  refine congrArg Host.Outcome.next ((State.written_of_steward hl).trans ?_)
  dsimp only
  rw [ha, hmay, h2, hreset]
  simp

/-! ### Repairs (R624 to R626) -/

theorem coreBypass_inService {c : BitVec 32} (hl : s.steward.lost = false) (hcore : coreExists (c.toNat % 2 ^ 14) = true)
    (hmay : s.mayReset = true) (hin : s.inService (c.toNat % 2 ^ 14) = true) (hkeep : c.getLsbD 31 = false) : exec (.coreBypass c) s =
      .next (((s.coreDown (c.toNat % 2 ^ 14)).markCore (c.toNat % 2 ^ 14) true).logDefect defectCore 2 0 (c.toNat % 2 ^ 14) 0).serviceChanged := by
  refine congrArg Host.Outcome.next ((State.written_of_steward hl).trans ((if_neg ?_).trans ((if_pos ?_).trans (if_pos hin))))
  · rw [hcore, hmay]
    decide
  · rw [hkeep]
    rfl

theorem coreBypass_out {c : BitVec 32} (hl : s.steward.lost = false) (hcore : coreExists (c.toNat % 2 ^ 14) = true)
    (hmay : s.mayReset = true) (hin : s.inService (c.toNat % 2 ^ 14) = false) (hkeep : c.getLsbD 31 = false) :
    exec (.coreBypass c) s = .next s := by
  refine congrArg Host.Outcome.next ((State.written_of_steward hl).trans ((if_neg ?_).trans ((if_pos ?_).trans (if_neg ?_))))
  · rw [hcore, hmay]
    decide
  · rw [hkeep]
    rfl
  · rw [hin]
    decide

theorem coreRestore_eq {c : BitVec 32} (hl : s.steward.lost = false) (hcore : coreExists (c.toNat % 2 ^ 14) = true)
    (hmay : s.mayReset = true) : exec (.coreRestore c) s = .next ((s.removeRepair (.bypass (c.toNat % 2 ^ 14))).refreshReplace) := by
  refine congrArg Host.Outcome.next ((State.written_of_steward hl).trans (if_neg ?_))
  rw [hcore, hmay]
  decide

theorem State.askRepair_accepted (s : State) (r : Repair) (persist : Bool) :
    s.askRepair r persist 0 = ({ s with repairJob := some ⟨r, persist, s.now⟩ } : State).setRepairStatus 0xFF := if_neg (by decide)

theorem State.askRepair_refused (s : State) (r : Repair) (persist : Bool) {st : Status} (h : st ≠ 0) :
    s.askRepair r persist st = s.setRepairStatus st.toNat := if_pos h

/-- A row repair whose bytes are those of a request is answered by the channel's and the row's place (R624). -/
theorem dramRowRepair_eq {bytes : List Byte} (hl : s.steward.lost = false) (hlen : bytes.length = 8) (h7 : (bytes.getD 7 0).toNat = 0)
    (hjob : s.repairJob = none) (hmay : s.mayReset = true) :
    let b (i : Nat) : Nat := (bytes.getD i 0).toNat
    let ch := (b 0 + 256 * b 1) % 2 ^ 14
    coreExists ch = true → exec (.dramRowRepair bytes) s =
      .next (s.askRepair (.row ch (b 2) (b 3) ((b 4 + 256 * b 5) % 1024)) (b 6 % 2 == 1)
        (if s.dm.channels.contains ch then 0x07 else if 16 ≤ b 2 || 4 ≤ b 3 then 0x02
          else if 8 ≤ s.spareRows ch (b 2) (b 3) then 0x07 else 0)) := by
  intro b ch hcore
  refine congrArg Host.Outcome.next ((State.written_of_steward hl).trans (if_neg ?_))
  change ¬ (decide (bytes.length ≠ 8) || decide ((bytes.getD 7 0).toNat ≠ 0) || s.repairJob.isSome || !s.mayReset || !coreExists ch) = true
  rw [hlen, h7, hjob, hmay, hcore]
  decide

theorem laneRepair_eq {c : BitVec 32} (hl : s.steward.lost = false) (hjob : s.repairJob = none) (hmay : s.mayReset = true)
    (hcore : coreExists (c.toNat % 2 ^ 14) = true) (hch : s.dm.channels.contains (c.toNat % 2 ^ 14) = false) (hnone : s.inForce = []) :
    exec (.laneRepair c) s = .next (s.askRepair (.lane (c.toNat % 2 ^ 14) (c.toNat / 2 ^ 16 % 128)) (c.getLsbD 31)
      (if 71 < c.toNat / 2 ^ 16 % 128 then 0x02 else 0)) := by
  refine congrArg Host.Outcome.next ((State.written_of_steward hl).trans ((if_neg ?_).trans ?_))
  · rw [hjob, hmay, hcore]
    decide
  · dsimp only
    rw [hch, hnone]
    rfl

theorem repairStart_lane {j : RepairJob} {ch n : Nat} (hjob : s.repairJob = some j) (hlane : j.repair = .lane ch n) (hkeep : j.persist = false)
    (hfree : s.repairable ch = true) (hrun : s.running = true) : exec .repairStart s =
      .next (((({ s with repairJob := none, inForce := s.inForce ++ [.lane ch n] } : State).logDefect defectLane 2 1 ch n).setRepairStatus
        0).refreshReplace) := by
  refine congrArg Host.Outcome.next ?_
  rw [hjob]
  refine (if_neg ?_).trans ?_
  · rw [hlane, hrun, show s.repairable (Repair.lane ch n).channel = true from hfree]
    decide
  · dsimp only
    rw [hlane, hkeep]
    rfl

theorem repairTimeout_late {j : RepairJob} (hjob : s.repairJob = some j) (hlate : j.since + msCycles 10 ≤ s.now)
    (hbusy : s.repairable j.repair.channel = false) :
    exec .repairTimeout s = .next (({ s with repairJob := none } : State).setRepairStatus 0x08) := by
  refine congrArg Host.Outcome.next ?_
  rw [hjob]
  refine if_neg ?_
  rw [hbusy, decide_eq_false (Nat.not_lt_of_le hlate)]
  decide

theorem repair_none (h : s.repairJob = none) : exec .repairStart s = .next s ∧ exec .repairTimeout s = .next s := by
  constructor <;> refine congrArg Host.Outcome.next ?_ <;> rw [h]

/-! ### The way out of a shutdown (R590) -/

/-- What trains the ports and frees the links leaves: all but the registers, the stream port and the links' rails. -/
def LinksAlone (s t : State) : Prop := ∃ R S L, t = { s with regs := R, stream := S, links := L }

theorem LinksAlone.trans (h : LinksAlone s t) (h' : LinksAlone t u) : LinksAlone s u := by
  obtain ⟨_, _, _, rfl⟩ := h
  obtain ⟨_, _, _, rfl⟩ := h'
  exact ⟨_, _, _, rfl⟩

theorem LinksAlone.foldl {α : Type} {f : State → α → State} (h : ∀ u a, LinksAlone u (f u a)) (l : List α) (s : State) :
    LinksAlone s (l.foldl f s) :=
  List.foldlRecOn (motive := fun u => LinksAlone s u) l f ⟨_, _, _, rfl⟩ fun u hu a _ => hu.trans (h u a)

/-- SHUTDOWN_RECOVER where its conditions hold (R590). -/
theorem shutdownRecover_leaves (hl : s.steward.lost = false) (h4 : thermalState s = 4) (hm : s.mayResume = true)
    (hcool : ∀ e ∈ s.thermal.layers, ∀ x ∈ e.2, x < 70 * degree) (hloss : s.boot.inputLoss = false) :
    Completes (.shutdownRecover 1) s fun t => thermalState t ≤ 2 ∧ t.reg 0x4200 7 = 0 ∧
      t.boot = { s.boot with wave := 0, waveAt := s.now, waveFields := (List.range 64).filter fun f => (s.field f).rail ≠ .dark } := by
  have hexec : exec (.shutdownRecover 1) s = execShutdownRecover 1 s := rfl
  have hall : (s.thermal.layers.all fun e => e.2.all fun t => decide (t < 70 * degree)) = true :=
    List.all_eq_true.mpr fun e he => List.all_eq_true.mpr fun x hx => decide_eq_true (hcool e he x hx)
  unfold execShutdownRecover at hexec
  rw [State.written_of_steward hl] at hexec
  dsimp only at hexec
  rw [if_neg (by rw [hall, h4, hm, hloss]; decide)] at hexec
  have hports := LinksAlone.foldl (f := fun (s : State) p => if s.portState p = 4 then s else s.setPortState p 1)
    (fun u p => by split <;> exact ⟨_, _, _, rfl⟩) (List.range 12) s
  generalize (List.range 12).foldl _ s = s1 at hexec hports
  have hlinks := LinksAlone.foldl (f := fun (s : State) n => s.setLink n { s.link n with thermal := false })
    (fun u p => ⟨_, _, _, rfl⟩) (List.range 8) s1
  generalize (List.range 8).foldl _ s1 = s2 at hexec hlinks
  have hrails := LinksAlone.foldl
    (f := fun (s : State) t => { s with links := Map.upd {} s.links t fun l => { l with setpoint := 600 } })
    (fun u p => ⟨_, _, _, rfl⟩) (List.range 8) (s2.startWaves ((List.range 64).filter fun f => (s2.field f).rail ≠ .dark))
  generalize (List.range 8).foldl _ _ = s3 at hexec hrails
  obtain ⟨hstate, hhalt, _, hboot⟩ := s3.calmed_spec
  refine ⟨_, hexec, hstate, hhalt, hboot.trans ?_⟩
  obtain ⟨_, _, _, hs2⟩ := hports.trans hlinks
  obtain ⟨_, _, _, hs3⟩ := hrails
  rw [hs3, hs2]
  rfl

/-- Settles O52. -/
theorem resetServiceAndRepair : Obligations.ResetServiceAndRepair := by
  unfold Obligations.ResetServiceAndRepair
  intro s v c f t0 bytes j k g
  refine ⟨fieldReset_eq, towerReset_eq, computeSideReset_eq, resets_nothing, fun hf h hr hb hlow => resetOffHold_asks hf h hr hb hlow,
    fun h => ?off, ?head, fun h => ?member, rfl, drain_eq, drainEnd_eq, drains_nothing, fun hf h1 hat h => drainTimeout_eq hf h1 hat h,
    fun hl hm h2 hr => ⟨fun ha hheld => ?quick, fun ha hheld => ?full, returnService_eq hl hm h2 hr⟩,
    fun hl hc hm => ⟨coreBypass_inService hl hc hm, coreBypass_out hl hc hm, coreRestore_eq hl hc hm⟩, ?row, ?lane,
    fun ch n hj hlane hp hfree hrun => repairStart_lane hj hlane hp hfree hrun, repairTimeout_late, repair_none, fun h => ?stays,
    shutdownRecover_leaves⟩
  case off => exact congrArg Host.Outcome.next (if_pos (by rw [h]; simp))
  case head =>
    intro h u
    have hhead : ({ s with host := { s.host with function := {} } } : State).isHead = true := h
    have hreset : s.functionReset = u.resetAll 0 := if_neg (by rw [hhead]; decide)
    exact ⟨congrArg Host.Outcome.next hreset, congrArg Host.Outcome.next hreset⟩
  case member =>
    have hhead : ({ s with host := { s.host with function := {} } } : State).isHead = false := h
    have hreset : s.functionReset = { s with host := { s.host with function := {} } } := if_pos (by rw [hhead]; rfl)
    exact ⟨congrArg Host.Outcome.next hreset, congrArg Host.Outcome.next hreset⟩
  case quick =>
    exact congrArg Host.Outcome.next ((State.written_of_steward hl).trans ((State.serviceTest_eq ha hm h2 hr).trans (if_pos hheld)))
  case full =>
    exact congrArg Host.Outcome.next ((State.written_of_steward hl).trans ((State.serviceTest_eq ha hm h2 hr).trans (if_neg hheld)))
  case row =>
    intro b ch hl hlen h7 hjob hmay hcore
    have hexec := dramRowRepair_eq hl hlen h7 hjob hmay hcore
    refine ⟨fun hch h2 h3 hspare => ?_, fun hch => ?_, fun hch h23 => ?_⟩
    · intro job
      refine hexec.trans (congrArg Host.Outcome.next ?_)
      rw [if_neg (by rw [show s.dm.channels.contains _ = false from hch]; decide), if_neg (by simpa using ⟨h2, h3⟩),
        if_neg (Nat.not_le_of_lt hspare)]
      exact State.askRepair_accepted ..
    · refine hexec.trans (congrArg Host.Outcome.next ?_)
      rw [if_pos hch]
      exact State.askRepair_refused _ _ _ (by decide)
    · refine hexec.trans (congrArg Host.Outcome.next ?_)
      rw [if_neg (by rw [show s.dm.channels.contains _ = false from hch]; decide), if_pos (by simpa [b] using h23)]
      exact State.askRepair_refused _ _ _ (by decide)
  case lane =>
    intro ch lane hl hjob hmay hcore hch hnone
    have hexec := laneRepair_eq hl hjob hmay hcore hch hnone
    refine ⟨fun h => hexec.trans (congrArg Host.Outcome.next ?_), fun h => hexec.trans (congrArg Host.Outcome.next ?_)⟩
    · rw [if_neg (Nat.not_lt_of_le h)]
      exact State.askRepair_accepted ..
    · rw [if_pos h]
      exact State.askRepair_refused _ _ _ (by decide)
  case stays =>
    refine congrArg Host.Outcome.next (State.written_self (if_pos ?_))
    obtain h | h | h := h <;> simp [h]

end Sys2Proof.Machine
end

section
/-! PROOFS. Freeze and capture (R502, R628, R666, R667, R671, R674, R677 to R681, R698, R699). -/
namespace Sys2Proof.Machine
variable {s t u v w : State}

/-! ### Freeze and thaw (R502, R666, R667, R671) -/

/-- A freeze told to the group changes nothing but the outputs (R502). -/
theorem State.forwardFreeze_eq (s : State) (source : Nat) : ∃ O, s.forwardFreeze source = { s with out := O } := by
  unfold State.forwardFreeze
  split
  · exact ⟨_, rfl⟩
  split
  · exact ⟨_, rfl⟩
  split
  · refine List.foldlRecOn (motive := fun u => ∃ O, u = { s with out := O }) _ _ (b := s) ⟨_, rfl⟩ fun u hu g _ => ?_
    obtain ⟨O, rfl⟩ := hu
    split <;> exact ⟨_, rfl⟩
  · exact ⟨_, rfl⟩

/-- A source set in the cycle of the thaw keeps the device FROZEN (R671). -/
theorem State.setFreezeSource_thawing (h3 : s.reg 0xA001 3 = 3) (hat : s.capture.thawAt = s.now) :
    (s.setFreezeSource freezeSoftware).reg 0xA001 3 = 2 ∧ (s.setFreezeSource freezeSoftware).reg 0xA001 4 = s.reg 0xA001 4 ||| 2 ∧
      s.setFreezeSource freezeSoftware = { s with regs := (s.setFreezeSource freezeSoftware).regs } := by
  have hset4 : (s.setFlags 0xA001 4 freezeSoftware).reg 0xA001 4 = s.reg 0xA001 4 ||| 2 := State.reg_setReg_same ..
  have hset3 : (s.setFlags 0xA001 4 freezeSoftware).reg 0xA001 3 = 3 := (State.reg_setReg_of_ne _ _ (by decide)).trans h3
  have hne : (s.reg 0xA001 4 ||| 2) ≠ 0 := fun h => by simpa using (Nat.or_eq_zero_iff.mp h).2
  have hbegin : (s.setFlags 0xA001 4 freezeSoftware).beginFreeze = (s.setFlags 0xA001 4 freezeSoftware).setReg 0xA001 3 2 := by
    refine if_pos ?_
    rw [hset4, hset3, show (s.setFlags 0xA001 4 freezeSoftware).capture.thawAt = (s.setFlags 0xA001 4 freezeSoftware).now from hat]
    simp [hne]
  have hnew : ((s.setFlags 0xA001 4 freezeSoftware).setReg 0xA001 3 2).reg 0xA001 3 = 2 := State.reg_setReg_same ..
  have heq : s.setFreezeSource freezeSoftware = (s.setFlags 0xA001 4 freezeSoftware).setReg 0xA001 3 2 := by
    unfold State.setFreezeSource
    dsimp only
    rw [hbegin, hnew]
    exact if_neg (by simp)
  rw [heq]
  exact ⟨hnew, (State.reg_setReg_of_ne _ _ (by decide)).trans hset4, rfl⟩

theorem State.reg_of_out (s : State) (O : List Output) (idx sub : Nat) : ({ s with out := O } : State).reg idx sub = s.reg idx sub := rfl

/-- The device FREEZING by software, counted (R666). -/
def State.freezing (s : State) : State := ((s.setFlags 0xA001 4 freezeSoftware).setReg 0xA001 3 1).sat32 0xBD00 1 1

theorem State.freezing_eq (s : State) : ∃ R, s.freezing = { s with regs := R } := ⟨_, rfl⟩

theorem State.freezing_reg (s : State) : s.freezing.reg 0xA001 3 = 1 ∧ s.freezing.reg 0xA001 4 = s.reg 0xA001 4 ||| 2 :=
  ⟨(State.reg_setReg_of_ne _ _ (by decide)).trans (State.reg_setReg_same ..),
    (State.reg_setReg_of_ne _ _ (by decide)).trans ((State.reg_setReg_of_ne _ _ (by decide)).trans (State.reg_setReg_same ..))⟩

theorem State.setFreezeSource_eq_of_running (hp : s.dm.published = true) (hrun : s.running = true) :
    s.setFreezeSource freezeSoftware = s.freezing.refreshHolds.forwardFreeze s.freezing.refreshHolds.group.member := by
  have h0 : s.reg 0xA001 3 = 0 := beq_iff_eq.mp hrun
  have hset4 : (s.setFlags 0xA001 4 freezeSoftware).reg 0xA001 4 = s.reg 0xA001 4 ||| 2 := State.reg_setReg_same ..
  have hset3 : (s.setFlags 0xA001 4 freezeSoftware).reg 0xA001 3 = 0 := (State.reg_setReg_of_ne _ _ (by decide)).trans h0
  have hne : (s.reg 0xA001 4 ||| 2) ≠ 0 := fun h => by simpa using (Nat.or_eq_zero_iff.mp h).2
  have hbegin : (s.setFlags 0xA001 4 freezeSoftware).beginFreeze = s.freezing.refreshHolds := by
    refine (if_neg ?_).trans (if_pos ?_)
    · rw [hset3]
      simp
    · rw [hset4, hset3, show (s.setFlags 0xA001 4 freezeSoftware).dm.published = true from hp]
      simp [hne]
  unfold State.setFreezeSource
  dsimp only
  rw [hbegin, State.reg_refreshHolds, (s.freezing_reg).1, h0]
  exact if_pos (by simp)

/-- A source set on a device that runs after READY begins the freeze (R666, R667). -/
theorem State.setFreezeSource_running (hp : s.dm.published = true) (hrun : s.running = true) :
    (s.setFreezeSource freezeSoftware).reg 0xA001 3 = 1 ∧ (s.setFreezeSource freezeSoftware).reg 0xA001 4 = s.reg 0xA001 4 ||| 2 ∧
      (s.setFreezeSource freezeSoftware).mem = s.mem ∧ (s.setFreezeSource freezeSoftware).cores = s.cores := by
  obtain ⟨h3, h4⟩ := s.freezing_reg
  obtain ⟨R, hfreezing⟩ := s.freezing_eq
  obtain ⟨L, O, hholds⟩ := s.freezing.refreshHolds_eq
  obtain ⟨O', hforward⟩ := s.freezing.refreshHolds.forwardFreeze_eq s.freezing.refreshHolds.group.member
  rw [State.setFreezeSource_eq_of_running hp hrun, hforward]
  have hreg (idx sub : Nat) : ({ s.freezing.refreshHolds with out := O' } : State).reg idx sub = s.freezing.reg idx sub :=
    (State.reg_of_out _ O' idx sub).trans (State.reg_refreshHolds ..)
  refine ⟨(hreg ..).trans h3, (hreg ..).trans h4, ?_⟩
  rw [hholds, hfreezing]
  exact ⟨rfl, rfl⟩

/-- The last source to clear while FROZEN makes the device THAWING (R671). -/
theorem State.clearFreezeSource_last (h2 : s.reg 0xA001 3 = 2) (hlast : s.reg 0xA001 4 = freezeSoftware) :
    (s.clearFreezeSource freezeSoftware).reg 0xA001 3 = 3 ∧ (s.clearFreezeSource freezeSoftware).reg 0xA001 4 = 0 ∧
      s.clearFreezeSource freezeSoftware = { s with
        regs := (s.clearFreezeSource freezeSoftware).regs, capture := { s.capture with thawAt := s.now } } := by
  have hclear4 : (s.clearFlags 0xA001 4 freezeSoftware).reg 0xA001 4 = 0 := by
    refine (State.reg_setReg_same ..).trans ?_
    rw [hlast]
    rfl
  have hclear3 : (s.clearFlags 0xA001 4 freezeSoftware).reg 0xA001 3 = 2 := (State.reg_setReg_of_ne _ _ (by decide)).trans h2
  have heq : s.clearFreezeSource freezeSoftware =
      ({ s.clearFlags 0xA001 4 freezeSoftware with capture := { s.capture with thawAt := s.now } } : State).setReg 0xA001 3 3 :=
    if_pos (by rw [hclear4, hclear3]; decide)
  rw [heq]
  exact ⟨State.reg_setReg_same .., (State.reg_setReg_of_ne _ _ (by decide)).trans hclear4, rfl⟩

/-- The freeze is complete once no channel has commands under way (R669). -/
theorem freezeComplete_frozen (h1 : s.reg 0xA001 3 = 1) (hnone : ∀ e ∈ s.channels, e.2.underWay s.now = false) (h4 : s.reg 0xA001 4 ≠ 0) :
    Completes .freezeComplete s fun t => t.reg 0xA001 3 = 2 ∧ t.reg 0xA001 5 = (s.refTime 0).toNat ∧ t.cores = s.cores ∧
      t = { s with fields := t.fields, regs := t.regs } := by
  have hidle : (s.channels.any fun e => e.2.underWay s.now) = false :=
    List.any_eq_false.mpr fun e he => by rw [hnone e he]; decide
  have hexec : exec .freezeComplete s = execFreezeComplete s := rfl
  unfold execFreezeComplete at hexec
  rw [if_neg (by rw [h1, hidle]; decide)] at hexec
  have hramp : ∃ F, (List.range 64).foldl (fun (s : State) f =>
      if s.fieldUp f && 80 ≤ s.runningArrays f then s.setField f { s.field f with rampAtThaw := true } else s) s = { s with fields := F } := by
    refine List.foldlRecOn (motive := fun u => ∃ F, u = { s with fields := F }) _ _ (b := s) ⟨_, rfl⟩ fun u hu f _ => ?_
    obtain ⟨F, rfl⟩ := hu
    split <;> exact ⟨_, rfl⟩
  generalize (List.range 64).foldl _ s = s1 at hexec hramp
  obtain ⟨F, rfl⟩ := hramp
  dsimp only at hexec
  have h4' : ((({ s with fields := F } : State).setReg 0xA001 3 2).setReg 0xA001 5 (s.refTime 0).toNat).reg 0xA001 4 ≠ 0 := by
    rw [State.reg_setReg_of_ne _ _ (by decide), State.reg_setReg_of_ne _ _ (by decide)]
    exact h4
  have hstays : ((({ s with fields := F } : State).setReg 0xA001 3 2).setReg 0xA001 5 (s.refTime 0).toNat).beginThaw =
      (({ s with fields := F } : State).setReg 0xA001 3 2).setReg 0xA001 5 (s.refTime 0).toNat := if_neg (by simp [h4'])
  refine ⟨_, hexec.trans (congrArg _ hstays), ?_, State.reg_setReg_same .., rfl, rfl⟩
  exact (State.reg_setReg_of_ne _ _ (by decide)).trans (State.reg_setReg_same ..)

/-! ### Capture (R674, R677 to R680) -/

/-- The parts of a scheduler's capture address. -/
theorem capturePlace_scheduler {core : Nat} (h : core < 16384) :
    capturePlace (core / 2048 * 2 ^ 56 + core / 16 % 128 * 2 ^ 49 + core % 16 * 2 ^ 45 + 6 * 2 ^ 40) =
      ⟨core / 2048, core / 16 % 128, core % 16, 6, 0⟩ := by
  simp only [capturePlace, bitsOf, Place18.mk.injEq]
  refine ⟨?_, ?_, ?_, ?_, ?_⟩ <;> omega

theorem State.schedulerRecord_length (s : State) (core : Nat) : (s.schedulerRecord core).length = 64 := by
  simp [State.schedulerRecord]

/-- The scheduler of a core in service reads on a frozen device as its record (R677). -/
theorem State.captureRead_scheduler {core n : Nat} (hcore : core < 16384) (hexists : coreExists core = true) (h2 : s.reg 0xA001 3 = 2)
    (hin : s.inService core = true) (hup : s.fieldUp (core / 2048 * 8 + clusterField (core / 16 % 128)) = true) (hn : n ≤ 64) :
    s.captureRead (core / 2048 * 2 ^ 56 + core / 16 % 128 * 2 ^ 49 + core % 16 * 2 ^ 45 + 6 * 2 ^ 40) n =
      (.ok, (s.schedulerRecord core).take n, s) := by
  have hid : Place18.coreId ⟨core / 2048, core / 16 % 128, core % 16, 6, 0⟩ = core := by
    simp only [Place18.coreId]
    omega
  have hcluster : core / 16 % 128 < 80 := by
    have h := (Bool.and_eq_true_iff.mp hexists).2
    exact of_decide_eq_true h
  have hhigh : (core / 2048 * 2 ^ 56 + core / 16 % 128 * 2 ^ 49 + core % 16 * 2 ^ 45 + 6 * 2 ^ 40) / 2 ^ 59 = 0 := by omega
  unfold State.captureRead
  rw [capturePlace_scheduler hcore, hhigh]
  dsimp only
  rw [hid, h2, hin, hup, show unitBytes 6 = 64 from rfl, if_neg (by simp; omega), if_neg (by simpa using hcluster),
    if_neg (by simp), if_neg (by simp)]
  simp only [State.unitImage, hid]
  rw [State.schedulerRecord_length, Nat.sub_self, List.replicate_zero, List.append_nil, List.drop_zero]

theorem captureData_refused {offset n : Nat} (hl : s.steward.lost = false) (h : n = 0 ∨ 1024 < n ∨ 2 ^ 24 ≤ offset) :
    exec (.captureData offset n) s = .next (s.send (.answered 0x06 0 [])) := by
  have hread : s.readCapture offset n = (0x06, [], s) := if_pos (by simpa [or_assoc] using h)
  refine congrArg Host.Outcome.next ((if_neg (by rw [hl]; decide)).trans ?_)
  rw [hread]

theorem captureData_answers {offset n : Nat} {r : CaptureResult} {bytes : List Byte} (hl : s.steward.lost = false) (h0 : 0 < n)
    (h1024 : n ≤ 1024) (ho : offset < 2 ^ 24)
    (hread : s.captureRead (s.reg 0xA002 1 + offset) (min n (2 ^ 24 - offset)) = (r, bytes, t)) :
    exec (.captureData offset n) s = .next (t.send (.answered r.code 0 bytes)) := by
  have hbytes : s.readCapture offset n = (r.code, bytes, t) := by
    refine (if_neg (by simp; omega)).trans ?_
    dsimp only
    rw [hread]
  refine congrArg Host.Outcome.next ((if_neg (by rw [hl]; decide)).trans ?_)
  rw [hbytes]

/-! ### The test access port (R698, R699) -/

/-- CAPDATA after the read: what it shifts out, and where it goes on to (R679). -/
theorem capdata_eq {r : CaptureResult} {bytes : List Byte} (h : s.captureRead s.capture.address 8 = (r, bytes, t)) {status : Nat}
    (hr : status = match r with
      | .ok => 0
      | .notFrozen => 1
      | .badLength | .badValue | .outOfService => 2
      | .crcFail => 3
      | .uncorrectable => 4) :
    exec .capdata s = .next (
      let u := t.tap 0x11 (status * 2 ^ 64 + if status = 1 ∨ status = 2 then 2 ^ 64 - 1 else bytesToNat bytes)
      if status = 1 ∨ status = 2 then u else { u with capture := { u.capture with address := (s.capture.address + 8) % 2 ^ 64 } }) := by
  subst hr
  have hexec : exec .capdata s = execCapdata s := rfl
  unfold execCapdata at hexec
  extract_lets a at hexec
  rw [show s.captureRead a 8 = (r, bytes, t) from h] at hexec
  refine hexec.trans ?_
  cases r <;> rfl

/-- Settles O53. -/
theorem freezeAndCapture : Obligations.FreezeAndCapture := by
  unfold Obligations.FreezeAndCapture
  refine ⟨fun s v ns => ⟨fun hl h2 => ?freeze, fun h2 => ?frozen, fun hl h3 hat => ?thawing, fun hl hp hrun => ?running,
      fun hl h2 hlast => ?thaw, fun h0 => ?runs, fun h200 hreset hstart => ?pin, fun h => ?short, rfl, fun h1 hway => ?busy,
      freezeComplete_frozen, fun h1 => ?notFreezing⟩,
    fun s s1 offset n ch bits a r bytes e => ⟨fun hl => ?lost, captureData_refused, captureData_answers,
      fun core hcore hexists h2 hin hup h8 hn => State.captureRead_scheduler hcore hexists h2 hin hup hn, fun hfind hat => ?idle,
      fun hfind => ?asleep, rfl, rfl, fun h => ?address, fun h => ?odd, fun h => ?data, fun h => ?refused, ⟨_, rfl, rfl, rfl⟩, ⟨_, rfl, rfl, rfl⟩⟩⟩
  case freeze => exact congrArg Host.Outcome.next ((State.written_of_steward hl).trans (if_neg h2))
  case frozen => exact congrArg Host.Outcome.next (State.written_self (if_pos h2))
  case thawing =>
    exact ⟨_, congrArg Host.Outcome.next ((State.written_of_steward hl).trans (if_neg (by rw [h3]; decide))),
      State.setFreezeSource_thawing h3 hat⟩
  case running =>
    have h0 : s.reg 0xA001 3 = 0 := beq_iff_eq.mp hrun
    obtain ⟨h3, h4, hmem, hcores⟩ := State.setFreezeSource_running hp hrun
    refine ⟨_, congrArg Host.Outcome.next ((State.written_of_steward hl).trans (if_neg (by rw [h0]; decide))), h3, h4, ?_, hmem, hcores⟩
    rw [State.running, h3]
    rfl
  case thaw =>
    exact ⟨_, congrArg Host.Outcome.next ((State.written_of_steward hl).trans (if_neg (by rw [h2]; decide))),
      State.clearFreezeSource_last h2 hlast⟩
  case runs => exact congrArg Host.Outcome.next (State.written_self (if_pos h0))
  case pin =>
    refine congrArg Host.Outcome.next ((if_neg ?_).trans (if_pos ?_))
    · rw [decide_eq_true h200, Bool.true_or]
      decide
    · exact Bool.and_eq_true_iff.mpr ⟨hreset, hstart⟩
  case short =>
    refine congrArg Host.Outcome.next ((if_pos ?_).trans rfl)
    rw [decide_eq_false (show ¬ 200 ≤ ns by omega), decide_eq_false (show ¬ 100 < ns by omega)]
    rfl
  case busy =>
    obtain ⟨e, he, hway⟩ := hway
    have hany : (s.channels.any fun e => e.2.underWay s.now) = true := List.any_eq_true.mpr ⟨e, he, hway⟩
    exact congrArg Host.Outcome.next (if_pos (by rw [hany, Bool.or_true]))
  case notFreezing => exact congrArg Host.Outcome.next (if_pos (by simp [h1]))
  case lost => exact congrArg Host.Outcome.next (if_pos hl)
  case idle =>
    refine congrArg Host.Outcome.next ?_
    rw [hfind]
    exact if_pos hat
  case asleep =>
    refine congrArg Host.Outcome.next ?_
    rw [hfind]
  case address => exact ⟨_, congrArg Host.Outcome.next (if_pos h), rfl, rfl, rfl⟩
  case odd => exact congrArg Host.Outcome.next (if_neg h)
  case data =>
    refine ⟨_, capdata_eq h (status := 0) rfl, ?_⟩
    rw [if_neg (by decide), if_neg (by decide), Nat.zero_mul, Nat.zero_add]
    exact ⟨rfl, rfl, rfl⟩
  case refused =>
    refine ⟨_, capdata_eq h (status := 1) rfl, ?_⟩
    rw [if_pos (by decide), if_pos (by decide)]
    exact ⟨rfl, rfl⟩

end Sys2Proof.Machine
end

section
/-! PROOFS. Host accesses (R466, R468 to R474, R589, R598, R599, R658). -/
namespace Sys2Proof.Machine
variable {s t u v w : State}

/-! ### What a BAR admits (R472, R473) -/

theorem State.barGate_closed (h : s.host.function.decodes = false) (m : Bool) : s.barGate m = outcomeUnsupported := if_pos (by rw [h]; rfl)

theorem State.barGate_stopped (hd : s.host.function.decodes = true) (h : s.steward.running = false) : s.barGate false = outcomeUnsupported :=
  (if_neg (by rw [hd]; decide)).trans ((if_neg (by simp)).trans (if_pos (by rw [h]; rfl)))

theorem State.barGate_early (hd : s.host.function.decodes = true) (hr : s.steward.running = true) (hp : s.dm.published = false) :
    s.barGate false = outcomeAbort :=
  (if_neg (by rw [hd]; decide)).trans ((if_neg (by simp)).trans ((if_neg (by rw [hr]; decide)).trans (if_pos (by simp [hp]))))

/-- A BAR admits nothing where the function decodes no memory (R472). -/
theorem State.decodes_of_barGate {m : Bool} (h : s.barGate m = outcomeSuccess) : s.host.function.decodes = true := by
  cases hd : s.host.function.decodes with
  | true => rfl
  | false =>
    rw [State.barGate_closed hd] at h
    exact absurd h (by decide)

theorem barFour_notMailbox (off : Nat) : ((4 : Nat) == 0 && off / 4096 == mailboxPage) = false := rfl

theorem State.hostTarget_unmapped {off : Nat} (h : s.windowAddr off = none) : s.hostTarget 4 off = none := by
  rw [show s.hostTarget 4 off = (s.windowAddr off).filter _ from rfl, h]
  rfl

theorem State.hostTarget_mapped {off g : Nat} (h : s.windowAddr off = some g) (hm : s.nonMember (g / 2 ^ 48) = false) :
    s.hostTarget 4 off = some g := by
  rw [show s.hostTarget 4 off = (s.windowAddr off).filter fun a => !s.nonMember (a / 2 ^ 48) from rfl, h]
  exact Option.filter_some_pos (by rw [hm]; rfl)

/-- A memory request of this device, one for each line (R471). -/
theorem State.addMemory_own {tag g n : Nat} {kind : HostKind} {whole : ReqKind} {cut : List (Nat × ReqKind)} {ids : List Nat}
    (hown : s.isOwn (g / 2 ^ 48) = true) (hsend : s.sendHost tag cut = (ids, t)) :
    s.addMemory tag g n kind whole cut = t.addOp tag t.group.member kind ids := by
  unfold State.addMemory
  dsimp only
  rw [hown, if_pos rfl, hsend]
  rfl

/-! ### Reads (R466, R471, R472) -/

theorem hostRead_eq {bar off n tag : Nat} (hl : s.host.linkUp = true) (hp : inPage off n = true) :
    exec (.hostRead bar off n tag) s = .next (s.hostRead bar off n tag) := congrArg Host.Outcome.next (if_pos (by rw [hl, hp]; rfl))

theorem hostRead_none {bar off n tag : Nat} (h : s.host.linkUp = false ∨ inPage off n = false) :
    exec (.hostRead bar off n tag) s = .next s := by
  refine congrArg Host.Outcome.next (if_neg ?_)
  obtain h | h := h <;> simp [h]

/-- A read of BAR4 that its gate refuses has the gate's outcome. -/
theorem State.hostRead_gated {off n tag gate : Nat} (h : s.barGate false = gate) (hne : gate ≠ outcomeSuccess) :
    s.hostRead 4 off n tag = (s.addOp tag s.group.member (.failed gate) []).settleBars := by
  unfold State.hostRead
  dsimp only
  rw [barFour_notMailbox, h, if_pos hne]

theorem State.hostRead_open {off n tag : Nat} (h : s.barGate false = outcomeSuccess) :
    s.hostRead 4 off n tag = State.settleBars (match s.hostTarget 4 off with
      | none => s.addOp tag s.group.member (.failed outcomeUnsupported) []
      | some g =>
        match (if s.isOwn (g / 2 ^ 48) then registerOffset g else none) with
        | some o => s.addOp tag s.group.member (.regRead o n) []
        | none => s.addMemory tag g n (.read n) (.read n) ((pieces g n).map fun (a, k) => (a, .read k))) := by
  unfold State.hostRead
  dsimp only
  rw [barFour_notMailbox, h, if_neg (by decide), if_neg (by decide)] <;> rfl

theorem State.hostRead_unmapped {off n tag : Nat} (h : s.barGate false = outcomeSuccess) (hw : s.windowAddr off = none) :
    s.hostRead 4 off n tag = (s.addOp tag s.group.member (.failed outcomeUnsupported) []).settleBars := by
  rw [State.hostRead_open h, State.hostTarget_unmapped hw]

theorem State.hostRead_own {off n tag g : Nat} {ids : List Nat} (h : s.barGate false = outcomeSuccess) (hw : s.windowAddr off = some g)
    (hm : s.nonMember (g / 2 ^ 48) = false) (hown : s.isOwn (g / 2 ^ 48) = true) (hreg : registerOffset g = none)
    (hsend : s.sendHost tag ((pieces g n).map fun (a, k) => (a, .read k)) = (ids, t)) :
    s.hostRead 4 off n tag = (t.addOp tag t.group.member (.read n) ids).settleBars := by
  rw [State.hostRead_open h, State.hostTarget_mapped hw hm]
  dsimp only
  rw [hown, if_pos rfl, hreg]
  dsimp only
  rw [State.addMemory_own hown hsend]

/-! ### Writes (R466, R469 to R472) -/

theorem hostWrite_eq {bar off : Nat} {bytes : List Byte} (hl : s.host.linkUp = true) (hp : inPage off bytes.length = true) :
    exec (.hostWrite bar off bytes) s = .next (s.hostWrite bar off bytes) := congrArg Host.Outcome.next (if_pos (by rw [hl, hp]; rfl))

theorem State.hostWrite_poisoned {bar off : Nat} {bytes : List Byte} (h : 8 ≤ bar) :
    s.hostWrite bar off bytes = (s.aerError 12).hostWriteError := if_pos h

theorem State.hostWrite_closed {bar off : Nat} {bytes : List Byte} (h : bar < 8) (hd : s.host.function.decodes = false) :
    s.hostWrite bar off bytes = (s.aerError 20).hostWriteError := (if_neg (Nat.not_le_of_lt h)).trans (if_pos (by rw [hd]; rfl))

/-- A write of BAR4 comes to its gate. -/
theorem State.hostWrite_four {off : Nat} {bytes : List Byte} (hd : s.host.function.decodes = true) :
    s.hostWrite 4 off bytes = if s.barGate false ≠ outcomeSuccess then s.hostWriteError else match s.hostTarget 4 off with
      | none => (s.aerError 20).hostWriteError
      | some g => (s.hostMemoryWrite g bytes).settleBars := by
  unfold State.hostWrite
  dsimp only
  rw [if_neg (by decide), hd, if_neg (by decide), if_neg (by simp), if_neg (by simp), barFour_notMailbox,
    if_neg (by decide : ¬ (4 : Nat) = 0)] <;> rfl

/-- A write of BAR0 below the windows waits its turn (R469). -/
theorem State.hostWrite_low {off : Nat} {bytes : List Byte} (hoff : off < windowBase)
    (h : s.barGate (off / 4096 == mailboxPage) = outcomeSuccess) :
    s.hostWrite 0 off bytes = (s.addOp 0 s.group.member (.bar0Write off bytes) []).settleBars := by
  have hbell : ¬ doorbellBase ≤ off := Nat.not_le_of_lt (lt_trans hoff (by decide))
  have hgroup : ¬ groupDoorbellBase ≤ off := Nat.not_le_of_lt (lt_trans hoff (by decide))
  unfold State.hostWrite
  dsimp only
  rw [if_neg (by decide), State.decodes_of_barGate h, if_neg (by decide), if_neg (by simp [hbell]), if_neg (by simp [hgroup])]
  rw [show ((0 : Nat) == 0 && off / 4096 == mailboxPage) = (off / 4096 == mailboxPage) from rfl, h, if_neg (by decide), if_pos rfl,
    if_neg (Nat.not_le_of_lt hoff)]

theorem State.hostWrite_own {off g : Nat} {bytes : List Byte} {ids : List Nat} (h : s.barGate false = outcomeSuccess)
    (hw : s.windowAddr off = some g) (hm : s.nonMember (g / 2 ^ 48) = false) (hown : s.isOwn (g / 2 ^ 48) = true)
    (hreg : registerOffset g = none) (hsend : s.sendHost 0 (cutBytes (pieces g bytes.length) bytes) = (ids, t)) :
    s.hostWrite 4 off bytes = (t.addOp 0 t.group.member .write ids).settleBars := by
  rw [State.hostWrite_four (State.decodes_of_barGate h), h, if_neg (by decide), State.hostTarget_mapped hw hm]
  dsimp only
  rw [State.hostMemoryWrite, hreg]
  dsimp only
  rw [State.addMemory_own hown hsend]

/-! ### Atomics (R468, R472) -/

theorem hostAtomic_unsupported {off n tag : Nat} {op : AmoOp} {x y : Word} (hl : s.host.linkUp = true)
    (h : s.barGate false = outcomeSuccess) (hop : atomicOpSupported op off n = false) : exec (.hostAtomic 4 off n op x y tag) s =
      .next (s.addOp tag s.group.member (.failed outcomeUnsupported) []).settleBars := by
  refine congrArg Host.Outcome.next ((if_neg (by rw [hl]; decide)).trans ?_)
  dsimp only
  rw [barFour_notMailbox, h, if_neg (by decide), if_pos (by rw [hop]; rfl)]

theorem hostAtomic_store {off n tag g c k : Nat} {op : AmoOp} {x y : Word} {ids : List Nat} (hl : s.host.linkUp = true)
    (h : s.barGate false = outcomeSuccess) (hop : atomicOpSupported op off n = true) (hw : s.windowAddr off = some g)
    (hm : s.nonMember (g / 2 ^ 48) = false) (hown : s.isOwn (g / 2 ^ 48) = true) (hplace : placeOf (s.translate (g % 2 ^ 48)) = .store c k)
    (hsend : s.sendHost tag [(g, .atomic op x y)] = (ids, t)) :
    exec (.hostAtomic 4 off n op x y tag) s = .next (t.addOp tag t.group.member .atomic ids).settleBars := by
  refine congrArg Host.Outcome.next ((if_neg (by rw [hl]; decide)).trans ?_)
  dsimp only
  rw [barFour_notMailbox, h, if_neg (by decide), hop, if_neg (by decide), State.hostTarget_mapped hw hm]
  dsimp only
  rw [hown, if_pos rfl, hplace]
  dsimp only
  rw [State.addMemory_own hown hsend]

/-! ### Completions (R471) -/

/-- A host request that nothing before it blocks is looked at. -/
theorem hostCompletion_eq {id : Nat} {o : HostOp} (hfind : s.host.ops.find? (·.id == id) = some o) (hfree : s.opBlocked o = false) :
    exec (.hostCompletion id none) s = .next (match o.kind with
      | .failed k => s.completeRead o k []
      | .ready bytes => s.completeRead o outcomeSuccess bytes
      | .read n =>
        match s.opAnswer o none with
        | some (st, data) => s.completeStatus o st data n
        | none => s
      | .atomic =>
        match s.opAnswer o none with
        | some (st, data) => s.completeStatus o st data 8
        | none => s
      | .write =>
        match s.opAnswer o none with
        | some (st, _) => (if st = 0 then s else s.hostWriteError).finishOp o
        | none => s
      | _ => s) := by
  refine congrArg Host.Outcome.next ?_
  rw [hfind]
  exact if_neg (by rw [hfree]; decide)

/-! ### Windows and notices (R470, R658) -/

theorem winWrite_stores {w : Nat} {v : Word} (hl : s.host.linkUp = true) (h : s.barGate false = outcomeSuccess) (hw : w < s.host.windowCount) :
    Completes (.winWrite w v) s fun t => Map.get 0 t.host.windows w = v &&& 0x803FFFFF00000000 ∧
      (∀ k, k ≠ w → Map.get 0 t.host.windows k = Map.get 0 s.host.windows k) ∧
      t = { s with host := { s.host with windows := t.host.windows } } := by
  refine ⟨_, congrArg Host.Outcome.next ((if_neg (by rw [hl]; decide)).trans ((if_neg (by rw [h]; decide)).trans (if_pos hw))),
    Map.get_set_same _ _ _ _, fun k hk => Map.get_set_of_ne _ _ _ hk, rfl⟩

theorem notify_event {device : Nat} (hhead : s.isHead = true) (hown : s.isOwn device = false) (hm : s.nonMember device = false)
    (hd : device < 64) : Completes (.notify device .event) s fun t => t.reg 0xA200 6 = s.reg 0xA200 6 ||| 2 ^ device ∧
      t.events = { s.events with msixDue := true } ∧ t = { s with regs := t.regs, events := t.events } := by
  refine ⟨_, congrArg Host.Outcome.next (if_neg ?_), State.reg_setReg_same .., rfl, rfl⟩
  rw [hhead, hown, hm, decide_eq_false (Nat.not_le_of_lt hd)]
  decide

/-- Settles O54. -/
theorem hostAccesses : Obligations.HostAccesses := by
  unfold Obligations.HostAccesses
  intro s bar off n tag id w device width rate bytes v o op x y own
  refine ⟨hostRead_none, fun hl hp hbar => ?read, fun hl hp => ?write, ?unsupported, ?store, fun hfind hfree => ?completion,
    fun hl hr hn => ?resize, fun hl hr => ?retry, fun b d hl hr => ?function, winWrite_stores, fun hown => ?ownBell,
    fun hown hp hstate hm hhead => ?bell, notify_event, fun hr hi hw h1 h6 => ?trained, fun h => ?untrained⟩
  case read =>
    subst hbar
    have hexec := hostRead_eq (bar := 4) (tag := tag) hl hp
    refine ⟨fun h => hexec.trans (congrArg _ (State.hostRead_gated ?_ (by decide))),
      fun hd hr hpub => hexec.trans (congrArg _ (State.hostRead_gated (State.barGate_early hd hr hpub) (by decide))),
      fun h hw => hexec.trans (congrArg _ (State.hostRead_unmapped h hw)),
      fun g ids s1 h hw hm hown hreg hsend => hexec.trans (congrArg _ (State.hostRead_own h hw hm hown hreg hsend))⟩
    cases hd : s.host.function.decodes with
    | false => exact State.barGate_closed hd false
    | true => exact State.barGate_stopped hd (h.resolve_left (by rw [hd]; decide))
  case write =>
    have hexec (bar : Nat) := hostWrite_eq (bar := bar) hl hp
    refine ⟨fun h => (hexec bar).trans (congrArg _ (State.hostWrite_poisoned h)),
      fun h hd => (hexec bar).trans (congrArg _ (State.hostWrite_closed h hd)), fun hbar hd hr => ?_, fun hbar hoff h => ?_,
      fun g ids s1 hbar h hw hm hown hreg hsend => ?_⟩
    · subst hbar
      refine (hexec 4).trans (congrArg _ ((State.hostWrite_four hd).trans (if_pos ?_)))
      rw [State.barGate_stopped hd hr]
      decide
    · subst hbar
      exact (hexec 0).trans (congrArg _ (State.hostWrite_low hoff h))
    · subst hbar
      exact (hexec 4).trans (congrArg _ (State.hostWrite_own h hw hm hown hreg hsend))
  case unsupported =>
    intro hl h hbar hop
    subst hbar
    exact hostAtomic_unsupported hl h hop
  case store =>
    intro g ids s1 c k hl h hbar hop hw hm hown hplace hsend
    subst hbar
    exact hostAtomic_store hl h hop hw hm hown hplace hsend
  case completion =>
    have hexec := hostCompletion_eq hfind hfree
    refine ⟨fun k hk => ?_, fun b hk => ?_, fun st data hk ha => ?_, fun st data hk ha => ?_⟩
    · rw [hk] at hexec
      exact hexec
    · rw [hk] at hexec
      exact hexec
    · rw [hk, ha] at hexec
      exact hexec
    · rw [hk, ha] at hexec
      exact hexec
  case resize =>
    refine congrArg Host.Outcome.next ((if_neg (by rw [hl]; decide)).trans ((if_neg (by rw [hr]; decide)).trans ?_))
    dsimp only
    rw [if_pos hn]
  case retry => exact congrArg Host.Outcome.next ((if_neg (by rw [hl]; decide)).trans (if_pos (by rw [hr]; rfl)))
  case function =>
    exact ⟨congrArg Host.Outcome.next ((if_neg (by rw [hl]; decide)).trans (if_neg (by rw [hr]; decide))),
      congrArg Host.Outcome.next ((if_neg (by rw [hl]; decide)).trans (if_neg (by rw [hr]; decide)))⟩
  case ownBell => exact congrArg Host.Outcome.next (if_pos hown)
  case bell =>
    refine congrArg Host.Outcome.next ((if_neg (by rw [hown]; decide)).trans ((if_neg (by rw [hp]; decide)).trans ((if_neg ?_).trans
      (if_neg (by rw [hhead]; decide)))))
    rw [hm, decide_eq_false hstate]
    decide
  case trained =>
    refine congrArg Host.Outcome.next (if_neg ?_)
    rw [hr, hi, List.contains_iff_mem.mpr hw, decide_eq_false (show ¬ rate = 0 by omega), decide_eq_false (show ¬ 6 < rate by omega)]
    decide
  case untrained =>
    refine congrArg Host.Outcome.next (if_pos ?_)
    obtain h | h | h := h
    · have hc : ([1, 2, 4, 8, 16].contains width) = false := Bool.eq_false_iff.mpr fun hc => h (List.contains_iff_mem.mp hc)
      rw [hc]
      simp
    · simp [h]
    · simp [h]

end Sys2Proof.Machine
end

section
/-! PROOFS. Requests of the object dictionary (R634, R635, R637, R639 to R647, R660). -/
namespace Sys2Proof.Machine
variable {s t u v w : State}

/-! ### Sessions and access checks (R635, R639, R641) -/

/-- A session kept changes the dictionary's state alone, and none of its jobs. -/
theorem State.setSession_eq (s : State) (who : Requester) (x : Session) :
    ∃ D, s.setSession who x = { s with dict := D } ∧ D.jobs = s.dict.jobs := by
  cases who <;> exact ⟨_, rfl, rfl⟩

theorem State.touch_eq (s : State) (who : Requester) : ∃ D, s.touch who = { s with dict := D } ∧ D.jobs = s.dict.jobs := s.setSession_eq who _

/-- A write that the access check refuses is answered so (R639). -/
theorem State.entryWrite_refused {who : Requester} {idx sub n : Nat} {bytes : List Byte} (hl : s.steward.lost = false)
    (h : s.accessCheck idx sub (s.level who) true = (n, none)) :
    s.entryWrite who idx sub bytes = (s.touch who).send (.answered n 0 []) := by
  unfold State.entryWrite
  rw [if_neg (by rw [hl]; decide), h]

/-- A write that the access check passes is asked of its entry (R639). -/
theorem State.entryWrite_passed {who : Requester} {idx sub : Nat} {bytes : List Byte} {e : Entry} {a : Answer} (hl : s.steward.lost = false)
    (h : s.accessCheck idx sub (s.level who) true = (0, some e)) (hw : s.writeRequest e sub 0 bytes = (a, t)) :
    s.entryWrite who idx sub bytes = State.send (match a.level with
      | some l => t.setLevel who l
      | none => t.touch who) (.answered a.result 0 []) := by
  unfold State.entryWrite
  rw [if_neg (by rw [hl]; decide), h]
  dsimp only
  rw [hw] <;> rfl

/-- A write of an entry that unlocks nothing and passes its checks is applied (R639). -/
theorem State.writeRequest_applied {e : Entry} {sub : Nat} {bytes : List Byte} (hlen : writeLengthOk e 0 bytes.length = true)
    (hidx : e.index ≠ 0x1030) (hcheck : s.writeCheck e.index sub bytes = 0) : s.writeRequest e sub 0 bytes =
      if e.classB then ({ result := resultPending, job := ((s.applyWrite e.index sub bytes).dict.jobs.getLast?).map (·.id) },
        s.applyWrite e.index sub bytes)
      else ({ result := resultOk }, s.applyWrite e.index sub bytes) := by
  refine (if_neg (by rw [hlen]; decide)).trans ((if_neg (by simp [hidx])).trans ((if_neg (by simp [hidx])).trans ?_))
  exact if_neg (by rw [hcheck]; decide)

theorem State.entryWrite_applied {who : Requester} {idx sub : Nat} {bytes : List Byte} {e : Entry} (hl : s.steward.lost = false)
    (h : s.accessCheck idx sub (s.level who) true = (0, some e)) (hlen : writeLengthOk e 0 bytes.length = true)
    (hidx : e.index ≠ 0x1030) (hcheck : s.writeCheck e.index sub bytes = 0) : s.entryWrite who idx sub bytes =
      ((s.applyWrite e.index sub bytes).touch who).send (.answered (if e.classB then resultPending else resultOk) 0 []) := by
  have hw := State.writeRequest_applied hlen hidx hcheck
  cases hb : e.classB with
  | true =>
    rw [hb, if_pos rfl] at hw
    exact State.entryWrite_passed hl h hw
  | false =>
    rw [hb, if_neg (by decide)] at hw
    exact State.entryWrite_passed hl h hw

/-- An entry that is served, of a level that the requester has, and neither written against its access nor read so, passes the check (R639). -/
theorem State.accessCheck_passed {idx sub level : Nat} {write : Bool} {e : Entry} (hfind : findEntry idx sub = some e)
    (hserved : s.served idx sub = true) (hlevel : e.level ≤ level) (hro : (write && decide (e.access = .ro)) = false)
    (hwo : (!write && decide (e.access = .wo)) = false) : s.accessCheck idx sub level write = (0, some e) := by
  unfold State.accessCheck
  rw [hfind]
  dsimp only
  rw [if_neg (by rw [hserved]; decide), if_neg (by rw [decide_eq_false (Nat.not_lt_of_le hlevel)]; simp), if_neg (by rw [hro]; decide),
    if_neg (by rw [hwo]; decide)]
  rfl

theorem State.served_flash (s : State) (sub : Nat) : s.served 0x9020 sub = true := by simp [State.served]

theorem State.served_running (h : s.steward.running = true) (idx sub : Nat) : s.served idx sub = true := by simp [State.served, h]

/-! ### The lock (R641) -/

theorem findEntry_unlock : findEntry 0x1030 1 = some ⟨0x1030, 1, 1, 3, .wo, 0, 4⟩ := by rfl

theorem findEntry_lock : findEntry 0x1030 4 = some ⟨0x1030, 4, 4, 1, .wo, 0, 1⟩ := by rfl

theorem bytesToNat_natToBytes_four (v : BitVec 32) : bytesToNat (natToBytes 4 v.toNat) = v.toNat := by
  have h := v.isLt
  simp [bytesToNat, natToBytes]
  omega

/-- A code written to the lock is tried (R641). -/
theorem State.writeRequest_unlock (s : State) (v : BitVec 32) :
    s.writeRequest ⟨0x1030, 1, 1, 3, .wo, 0, 4⟩ 1 0 (natToBytes 4 v.toNat) =
      (if (s.unlock v.toNat).1 then { result := resultOk, level := some 1 } else { result := resultPrivilege }, (s.unlock v.toNat).2) := by
  refine (if_neg (by simp [writeLengthOk, natToBytes])).trans ((if_pos (by decide)).trans ?_)
  rw [bytesToNat_natToBytes_four]

theorem State.unlock_open {v : Nat} (h : v = s.stewardCode) (hl : s.dict.lockUntil = none) : s.unlock v = (true, s) := by
  unfold State.unlock
  rw [hl]
  exact if_pos h

/-- A wrong code is counted and refused (R641). -/
theorem State.unlock_wrong {v : Nat} (h : v ≠ s.stewardCode) : ∃ D, s.unlock v = (false, { s.sat32 0xB001 8 1 with dict := D }) := by
  unfold State.unlock
  extract_lets locked s1 fails
  rw [if_neg h]
  split
  · exact ⟨_, rfl⟩
  split <;> exact ⟨_, rfl⟩

theorem privUnlock_opens {who : Requester} {v : BitVec 32} (hl : s.steward.lost = false) (hr : s.steward.running = true)
    (h : v.toNat = s.stewardCode) (hopen : s.dict.lockUntil = none) :
    exec (.privUnlock who v) s = .next ((s.setLevel who 1).send (.answered resultOk 0 [])) := by
  have hw := s.writeRequest_unlock v
  rw [State.unlock_open h hopen, if_pos rfl] at hw
  exact congrArg Host.Outcome.next
    (State.entryWrite_passed hl (State.accessCheck_passed findEntry_unlock (State.served_running hr _ _) (Nat.zero_le _) rfl rfl) hw)

theorem privUnlock_refuses {who : Requester} {v : BitVec 32} (hl : s.steward.lost = false) (hr : s.steward.running = true)
    (h : v.toNat ≠ s.stewardCode) : Completes (.privUnlock who v) s fun t => t.reg 0xB001 8 = min (s.reg 0xB001 8 + 1) 0xFFFFFFFF ∧
      t.out = .answered resultPrivilege 0 [] :: s.out ∧ t = { s with regs := t.regs, dict := t.dict, out := t.out } := by
  have hw := s.writeRequest_unlock v
  obtain ⟨D, hunlock⟩ := State.unlock_wrong h
  rw [hunlock, if_neg Bool.false_ne_true] at hw
  have hexec : exec (.privUnlock who v) s = .next _ := congrArg Host.Outcome.next
    (State.entryWrite_passed hl (State.accessCheck_passed findEntry_unlock (State.served_running hr _ _) (Nat.zero_le _) rfl rfl) hw)
  obtain ⟨D', htouch, -⟩ := State.touch_eq ({ s.sat32 0xB001 8 1 with dict := D } : State) who
  dsimp only at hexec
  rw [htouch] at hexec
  exact ⟨_, hexec, State.reg_setReg_same .., rfl, rfl⟩

theorem privLock_locks {who : Requester} {b : Byte} (hl : s.steward.lost = false) (hr : s.steward.running = true) :
    exec (.privLock who b) s = .next ((s.setLevel who 0).send (.answered resultOk 0 [])) :=
  congrArg Host.Outcome.next
    (State.entryWrite_passed hl (State.accessCheck_passed findEntry_lock (State.served_running hr _ _) (Nat.zero_le _) rfl rfl) rfl)

/-! ### Flash (R660) -/

theorem findEntry_flashData : findEntry 0x9020 2 = some ⟨0x9020, 2, 2, 8, .wo, 1, 1024⟩ := by rfl

theorem findEntry_flashErase : findEntry 0x9020 3 = some ⟨0x9020, 3, 3, 1, .wo, 1, 1⟩ := by rfl

theorem findEntry_flashContent : findEntry 0x9020 4 = some ⟨0x9020, 4, 4, 8, .ro, 1, 67108864⟩ := by rfl

theorem flashData_queues {who : Requester} {bytes : List Byte} (hl : s.steward.lost = false) (hlevel : 1 ≤ s.level who)
    (h1 : 1 ≤ bytes.length) (h1024 : bytes.length ≤ 1024) (hend : s.reg 0x9020 1 + bytes.length ≤ 0x2000000)
    (hfree : s.flashGuarded (s.reg 0x9020 1) bytes.length = false) : Completes (.flashData who bytes) s fun t =>
      t.dict.jobs = s.dict.jobs ++ [⟨s.fresh, .program (s.reg 0x9020 1) bytes⟩] ∧
      t.reg 0x9020 1 = s.reg 0x9020 1 + bytes.length ∧ t.out = .answered resultPending 0 [] :: s.out ∧ t.nor = s.nor ∧
      t = { s with dict := t.dict, regs := t.regs, out := t.out, fresh := s.fresh + 1 } := by
  have hcheck : s.writeCheck 0x9020 2 bytes = 0 := by
    refine (if_neg (Nat.not_lt_of_le hend)).trans (if_neg ?_)
    rw [hfree]
    decide
  have hexec : exec (.flashData who bytes) s = .next _ := congrArg Host.Outcome.next (State.entryWrite_applied hl
    (State.accessCheck_passed findEntry_flashData (s.served_flash 2) hlevel rfl rfl) (by simp [writeLengthOk, h1, h1024]) (by decide) hcheck)
  obtain ⟨D, htouch, hjobs⟩ := (s.acceptFlashData bytes).touch_eq who
  rw [show s.applyWrite 0x9020 2 bytes = s.acceptFlashData bytes from rfl, htouch] at hexec
  have hreg : (s.acceptFlashData bytes).reg 0x9020 1 = s.reg 0x9020 1 + bytes.length := State.reg_setReg_same ..
  exact ⟨_, hexec, hjobs, hreg, rfl, rfl, rfl⟩

theorem flashErase_queues {who : Requester} {b : Byte} (hl : s.steward.lost = false) (hlevel : 1 ≤ s.level who)
    (hfree : s.flashGuarded (s.reg 0x9020 1 / 65536 * 65536) 65536 = false) : Completes (.flashErase who b) s fun t =>
      t.dict.jobs = s.dict.jobs ++ [⟨s.fresh, .erase (s.reg 0x9020 1 / 65536)⟩] ∧ t.out = .answered resultPending 0 [] :: s.out ∧
      t = { s with dict := t.dict, out := t.out, fresh := s.fresh + 1 } := by
  have hcheck : s.writeCheck 0x9020 3 [b] = 0 := by
    unfold State.writeCheck
    dsimp only
    rw [hfree, if_neg Bool.false_ne_true]
    rfl
  have hexec : exec (.flashErase who b) s = .next _ := congrArg Host.Outcome.next (State.entryWrite_applied hl
    (State.accessCheck_passed findEntry_flashErase (s.served_flash 3) hlevel rfl rfl) rfl (by decide) hcheck)
  obtain ⟨D, htouch, hjobs⟩ := s.acceptFlashErase.touch_eq who
  rw [show s.applyWrite 0x9020 3 [b] = s.acceptFlashErase from rfl, htouch] at hexec
  exact ⟨_, hexec, hjobs, rfl, rfl⟩

/-- A read of the NOR device (R660). -/
theorem State.readRequest_flash {off n : Nat} {level : Nat} (h1 : 1 ≤ n) (h1024 : n ≤ 1024) (hend : off + n ≤ 0x4000000) :
    s.readRequest ⟨0x9020, 4, 4, 8, .ro, 1, 67108864⟩ 4 off n level false 0 = ({ result := 0, bytes := s.norBytes off n }, s) := by
  have hoff : off < 67108864 := by omega
  refine (if_neg (by simp [readLengthOk, Entry.variable, entrySize, typeBlob, typeStr, h1, h1024, hoff])).trans
    ((if_neg (by decide)).trans ((if_neg (by decide)).trans ?_))
  have hread : s.readEntry ⟨0x9020, 4, 4, 8, .ro, 1, 67108864⟩ 4 off n level = (0, s.norBytes off n, s) := by
    refine (if_neg (by decide)).trans ((if_neg (by decide)).trans ((if_neg (by decide)).trans ((if_neg (by decide)).trans ?_)))
    dsimp only
    rw [Nat.min_eq_left (show n ≤ 67108864 - off by omega)]
    rfl
  rw [hread]
  rfl

theorem flashContent_reads {who : Requester} {off n : Nat} (hl : s.steward.lost = false) (hlevel : 1 ≤ s.level who) (h1 : 1 ≤ n)
    (h1024 : n ≤ 1024) (hend : off + n ≤ 0x4000000) : Completes (.flashContent who off n) s fun t =>
      t.out = .answered resultOk 0 (s.norBytes off n) :: s.out ∧ t = { s with dict := t.dict, out := t.out } := by
  have hexec : exec (.flashContent who off n) s = .next ((s.touch who).send (.answered 0 0 (s.norBytes off n))) := by
    refine congrArg Host.Outcome.next ((if_neg (by rw [hl]; decide)).trans ?_)
    rw [State.accessCheck_passed findEntry_flashContent (s.served_flash 4) hlevel rfl rfl]
    dsimp only
    rw [State.readRequest_flash h1 h1024 hend]
  obtain ⟨D, htouch, -⟩ := s.touch_eq who
  rw [htouch] at hexec
  exact ⟨_, hexec, rfl, rfl⟩

/-! ### Snapshots (R646) -/

/-- A read that the access check passes is asked of its entry (R639). -/
theorem snapshotRead_eq {who : Requester} {idx sub snap off n : Nat} {e : Entry} {a : Answer} (hl : s.steward.lost = false)
    (h : s.accessCheck idx sub (s.level who) false = (0, some e))
    (hread : s.readRequest e sub off n (s.level who) (decide (snap = 0)) snap = (a, t)) :
    exec (.snapshotRead who idx sub snap off n) s = .next ((t.touch who).send (.answered a.result a.snap a.bytes)) := by
  refine congrArg Host.Outcome.next ((if_neg (by rw [hl]; decide)).trans ?_)
  rw [h]
  dsimp only
  rw [hread]

theorem snapshotRead_takes {who : Requester} {idx sub off n : Nat} {e : Entry} (hl : s.steward.lost = false)
    (h : s.accessCheck idx sub (s.level who) false = (0, some e)) (hroom : s.liveSnaps.length < 16) (hlen : readLengthOk e sub off n true = true) :
    let content := s.blobBytes e.index sub 0 e.size
    let u : State := { s with dict := { s.dict with
      snaps := s.liveSnaps ++ [⟨s.newSnapId, e.index, sub, content, s.now⟩], lastSnap := s.newSnapId } }
    exec (.snapshotRead who idx sub 0 off n) s = .next ((u.touch who).send (.answered resultOk s.newSnapId (content.take n))) := by
  intro content u
  refine snapshotRead_eq (a := { result := resultOk, snap := s.newSnapId, bytes := content.take n }) hl h ?_
  exact (if_neg (by rw [decide_eq_true rfl, hlen]; decide)).trans ((if_pos (decide_eq_true rfl)).trans (if_neg (Nat.not_le_of_lt hroom)))

theorem snapshotRead_reads {who : Requester} {idx sub snap off n : Nat} {e : Entry} {p : Snapshot} (hl : s.steward.lost = false)
    (h : s.accessCheck idx sub (s.level who) false = (0, some e)) (hlen : readLengthOk e sub off n false = true) (h0 : snap ≠ 0)
    (hfind : s.liveSnaps.find? (fun p => p.id == snap && p.index == e.index && p.sub == sub) = some p) :
    let u : State := { s with dict := { s.dict with
      snaps := s.liveSnaps.map fun q => if q.id == snap then { q with last := s.now } else q } }
    exec (.snapshotRead who idx sub snap off n) s = .next ((u.touch who).send (.answered resultOk snap ((p.bytes.drop off).take n))) := by
  intro u
  refine snapshotRead_eq (a := { result := resultOk, snap := snap, bytes := (p.bytes.drop off).take n }) hl h ?_
  have hread : s.readSnapshot e.index sub snap off n = ({ result := resultOk, snap := snap, bytes := (p.bytes.drop off).take n }, u) := by
    unfold State.readSnapshot
    rw [hfind]
  exact (if_neg (by rw [decide_eq_false h0, hlen]; decide)).trans
    ((if_neg (by rw [decide_eq_false h0]; decide)).trans ((if_pos h0).trans hread))

/-! ### Messages (R634, R642 to R647) -/

theorem State.mailboxRequest_congr (h : t.host.mbRequest = s.host.mbRequest) : t.mailboxRequest = s.mailboxRequest := by
  unfold State.mailboxRequest
  rw [h]

/-- A mailbox that is free takes a request that is not to be forwarded (R643, R644). -/
theorem mbDoorbell_answers {a : Answer} {bytes : List Byte} {r : Message} (hbusy : s.host.mbBusy = false)
    (hbytes : s.mailboxRequest = bytes) (hr : messageOf bytes = r)
    (hu : { s with host := { s.host with mbBusy := true, mbDone := false } } = u)
    (hw : (if s.steward.lost then u else u.wrap64 0xB001 1 1) = w) (hforward : w.forwards r = false)
    (hanswer : w.answerRequest .mailbox r = (a, t)) : exec .mbDoorbell s = .next (t.finishMailbox r.seq (r.response a)) := by
  have hlost : u.steward = s.steward := by rw [← hu]
  have hrequest : u.mailboxRequest = s.mailboxRequest := State.mailboxRequest_congr (by rw [← hu])
  have hexec : exec .mbDoorbell s = .next s.mailboxDoorbell := rfl
  unfold State.mailboxDoorbell at hexec
  rw [if_neg (by rw [hbusy]; decide)] at hexec
  refine hexec.trans (congrArg Host.Outcome.next ?_)
  rw [hu]
  extract_lets -lift -underBinder u' bytes' m w' fresh
  have hm : m = r := (congrArg messageOf (hrequest.trans hbytes)).trans hr
  have hw' : w' = w := by rw [← hw, ← hlost]
  refine (if_neg ?_).trans ?_
  · rw [hm, hw', hforward, Bool.false_and]
    exact Bool.false_ne_true
  · rw [hm, hw', hanswer]

theorem jopDatagram_answers {address port : Nat} {bytes : List Byte} {a : Answer} (hreceives : s.receives (isMapped address) = true)
    (h24 : 24 ≤ bytes.length) (hlen : bytes.length = (messageOf bytes).bytes) (hcrc : (crc32 (bytes.drop 4)).toNat = (messageOf bytes).crc)
    (hl : s.steward.lost = false) (hanswer : (s.wrap64 0xB001 2 1).answerRequest (.jop address port) (messageOf bytes) = (a, t)) :
    exec (.jopDatagram address port 4810 bytes) s = .next (t.send (.datagram address port ((messageOf bytes).response a))) := by
  refine congrArg Host.Outcome.next ((if_neg (by rw [hreceives]; decide)).trans ((if_neg (by decide)).trans ((if_neg ?_).trans ?_)))
  · simp [hcrc, ← hlen, h24]
  · dsimp only
    rw [hl, if_neg Bool.false_ne_true, hanswer]

/-- Settles O55. -/
theorem dictionaryRequests : Obligations.DictionaryRequests := by
  unfold Obligations.DictionaryRequests
  intro s s1 who a e idx sub address port off n bytes v b p m level
  refine ⟨fun h => ?overrun, ?doorbell, fun h => congrArg Host.Outcome.next (if_pos h), fun h => ?status, fun h => ?jop, fun h0 ha => ?member,
    fun h0 hsent => ?head, fun hl hp h hlen hidx hcheck => ?write, fun hl hp _ h => ?refuse,
    fun hl hr => ⟨privUnlock_opens hl hr, privUnlock_refuses hl hr, privLock_locks hl hr⟩,
    fun hl hlevel => ⟨flashData_queues hl hlevel, flashErase_queues hl hlevel, flashContent_reads hl hlevel⟩,
    snapshotRead_takes, snapshotRead_reads⟩
  case overrun => exact congrArg Host.Outcome.next (if_pos h)
  case doorbell =>
    intro u w r hbusy hforward hanswer
    exact mbDoorbell_answers hbusy rfl rfl rfl rfl hforward hanswer
  case status => exact congrArg Host.Outcome.next (if_neg (by rw [h]; decide))
  case jop =>
    refine ⟨fun hport => ?_, fun hbad => ?_, fun h24 hlen hcrc hl ha => jopDatagram_answers h h24 hlen hcrc hl ha⟩
    · exact congrArg Host.Outcome.next ((if_neg (by rw [h]; decide)).trans (if_pos hport))
    · refine congrArg Host.Outcome.next ((if_neg (by rw [h]; decide)).trans ((if_neg (by decide)).trans (if_pos ?_)))
      obtain hbad | hbad := hbad
      · simp [hbad]
      · rw [decide_eq_true hbad, Bool.or_true]
  case member =>
    refine congrArg Host.Outcome.next ((if_pos h0).trans ?_)
    dsimp only
    rw [ha]
  case head => exact congrArg Host.Outcome.next ((if_neg (not_not_intro h0)).trans (if_pos (by rw [hsent]; rfl)))
  case write =>
    exact congrArg Host.Outcome.next ((if_pos hp).trans (State.entryWrite_applied hl h hlen hidx hcheck))
  case refuse => exact congrArg Host.Outcome.next ((if_pos hp).trans (State.entryWrite_refused hl h))

end Sys2Proof.Machine
end

section
/-! PROOFS. Time of the object dictionary, events and the sideband (R635, R641, R646, R649 to R651, R655 to R658, R660, R663). -/
namespace Sys2Proof.Machine
variable {s t u v w : State}

/-! ### What time ends (R641, R646, R650) -/

theorem snapshotDiscard_drops : Completes .snapshotDiscard s fun u => (∀ p, p ∈ u.dict.snaps ↔ p ∈ s.dict.snaps ∧ s.now < p.last + msCycles 10) ∧
    u = { s with dict := { s.dict with snaps := u.dict.snaps } } := by
  refine ⟨_, rfl, fun p => ?_, rfl⟩
  exact List.mem_filter.trans (and_congr_right fun _ => decide_eq_true_iff)

theorem privTimeout_lowers : Completes .privTimeout s fun u =>
    u.dict.mailbox.level = (if s.dict.mailbox.last + secCycles 60 ≤ s.now then 0 else s.dict.mailbox.level) ∧
      u.dict.mailbox.kept = s.dict.mailbox.kept ∧ u.dict.jop.length = s.dict.jop.length ∧
      (∀ j ∈ u.dict.jop, j.session.last + secCycles 60 ≤ s.now → j.session.level = 0) ∧ u = { s with dict := u.dict } := by
  refine ⟨_, rfl, ?_, ?_, List.length_map .., fun j hj hlast => ?_, rfl⟩
  · exact apply_ite Session.level _ _ _
  · exact (apply_ite Session.kept _ _ _).trans (ite_self _)
  · obtain ⟨i, _, rfl⟩ := List.mem_map.mp hj
    dsimp only at hlast ⊢
    split at hlast
    next h => rw [if_pos h]
    next h => exact absurd hlast h

theorem replayExpiry_drops : Completes .replayExpiry s fun u =>
    (∀ k, k ∈ u.dict.mailbox.kept ↔ k ∈ s.dict.mailbox.kept ∧ s.now < k.at_ + secCycles 1) ∧
      u.dict.mailbox.level = s.dict.mailbox.level ∧ u = { s with dict := u.dict } := by
  refine ⟨_, rfl, fun k => ?_, rfl, rfl⟩
  exact List.mem_filter.trans (and_congr_right fun _ => decide_eq_true_iff)

/-! ### What the NOR device ends (R605, R660) -/

theorem rwsSaveDone_stores {id idx sub : Nat} {bytes : List Byte} {js : List Job} (hjobs : s.dict.jobs = ⟨id, .save idx sub bytes⟩ :: js)
    (hidx : idx ≠ 0x5300) (hl : s.steward.lost = false) :
    exec .rwsSaveDone s = .next ((s.endJob id resultOk).storeSaved idx sub bytes) := by
  refine congrArg Host.Outcome.next ((if_neg (by rw [hl]; decide)).trans ?_)
  rw [hjobs]
  exact if_neg (by rw [decide_eq_false hidx, Bool.false_and]; decide)

/-- The bytes that a program writes one after another. -/
theorem State.setNors_eq (off : Nat) (l : List Byte) (k : Nat) (s : State) :
    ∃ N, (l.zipIdx k).foldl (fun (s : State) (e : Byte × Nat) => s.setNor (off + e.2) e.1) s = { s with nor := N } := by
  refine List.foldlRecOn (motive := fun u => ∃ N, u = { s with nor := N }) _ _ (b := s) ⟨_, rfl⟩ fun u hu e _ => ?_
  obtain ⟨N, rfl⟩ := hu
  exact ⟨_, rfl⟩

theorem State.norByte_setNor_same (s : State) (a : Nat) (x : Byte) : (s.setNor a x).norByte a = x := by
  have hget : Map.get 0 (s.setNor a x).nor a = (255 + x.toNat) + 1 := by
    rw [State.setNor, Map.get_set_same]
    omega
  rw [State.norByte, hget]
  apply BitVec.eq_of_toNat_eq
  have h := x.isLt
  simp only [BitVec.toNat_ofNat]
  omega

theorem State.norByte_setNor_of_ne (s : State) {a b : Nat} (x : Byte) (h : b ≠ a) : (s.setNor a x).norByte b = s.norByte b := by
  rw [State.norByte, State.setNor, Map.get_set_of_ne _ _ _ h, State.norByte]

/-- What a program leaves in each byte. -/
theorem State.norByte_setNors (off : Nat) (l : List Byte) (k : Nat) (s : State) (a : Nat) :
    ((l.zipIdx k).foldl (fun (s : State) (e : Byte × Nat) => s.setNor (off + e.2) e.1) s).norByte a =
      if off + k ≤ a ∧ a < off + k + l.length then l.getD (a - (off + k)) 0 else s.norByte a := by
  induction l generalizing k s with
  | nil => exact (if_neg (by simp)).symm
  | cons x l ih =>
    rw [List.zipIdx_cons, List.foldl_cons, ih]
    rcases Nat.lt_trichotomy a (off + k) with h | h | h
    · rw [if_neg (by omega), if_neg (by omega), State.norByte_setNor_of_ne _ _ (by omega)]
    · subst h
      rw [if_neg (by omega), if_pos (by simp), State.norByte_setNor_same, Nat.sub_self]
      rfl
    · rw [State.norByte_setNor_of_ne _ _ (by omega), show a - (off + k) = (a - (off + (k + 1))) + 1 by omega, List.getD_cons_succ,
        List.length_cons]
      by_cases hb : a < off + (k + 1) + l.length
      · rw [if_pos ⟨by omega, hb⟩, if_pos ⟨by omega, by omega⟩]
      · rw [if_neg (by omega), if_neg (by omega)]

/-- A job's end changes the dictionary's state alone. -/
theorem State.endJob_eq (s : State) (id result : Nat) : ∃ D, s.endJob id result = { s with dict := D } := ⟨_, rfl⟩

theorem flashDone_programs {id off : Nat} {bytes : List Byte} {js : List Job} (hjobs : s.dict.jobs = ⟨id, .program off bytes⟩ :: js) :
    Completes (.flashDone true) s fun u => (∀ i, i < bytes.length → u.norByte (off + i) = bytes.getD i 0) ∧
      (∀ a, a < off ∨ off + bytes.length ≤ a → u.norByte a = s.norByte a) ∧ u = { s with nor := u.nor, dict := u.dict, fresh := s.fresh + 1 } := by
  have hexec : exec (.flashDone true) s = .next
      ((bytes.zipIdx.foldl (fun (s : State) (e : Byte × Nat) => s.setNor (off + e.2) e.1) { s with fresh := s.fresh + 1 }).endJob id resultOk) := by
    refine congrArg Host.Outcome.next ?_
    rw [hjobs]
    rfl
  have hnor := State.norByte_setNors off bytes 0 { s with fresh := s.fresh + 1 }
  obtain ⟨N, hN⟩ := State.setNors_eq off bytes 0 { s with fresh := s.fresh + 1 }
  rw [hN] at hexec hnor
  obtain ⟨D, hD⟩ := State.endJob_eq { s with fresh := s.fresh + 1, nor := N } id resultOk
  refine ⟨_, hexec.trans (congrArg _ hD), fun i hi => (hnor (off + i)).trans ?_, fun a ha => (hnor a).trans (if_neg (by omega)), rfl⟩
  rw [if_pos (by omega), show off + i - (off + 0) = i by omega]

/-! ### Events (R655 to R658) -/

theorem eventMsixSend_member (hl : s.steward.lost = false) (hm : s.group.member ≠ 0) (hdue : s.events.notifyDue = true) :
    exec .eventMsixSend s = .next
      (({ s with events := { s.events with notifyDue := false, msixDue := false } } : State).send (.groupMessage 0 2 [s.group.member])) :=
  congrArg Host.Outcome.next ((if_neg (by rw [hl]; decide)).trans ((if_pos hm).trans (if_pos hdue)))

theorem eventMsixSend_head (hl : s.steward.lost = false) (hm : s.group.member = 0) (hdue : s.events.msixDue = true)
    (hlast : s.events.lastMsix = none) (hbit : (s.reg 0xA200 5).testBit 31 = true) : exec .eventMsixSend s = .next (State.sendMsix
      { s with events := { s.events with msixDue := false, notifyDue := false, lastMsix := some s.now } } (s.reg 0xA200 5 % 2 ^ 11)) := by
  refine congrArg Host.Outcome.next ((if_neg (by rw [hl]; decide)).trans ((if_neg (not_not_intro hm)).trans ?_))
  dsimp only
  rw [hlast]
  exact (if_neg (by rw [hdue]; exact Bool.false_ne_true)).trans (if_pos hbit)

/-- A target without a port has its records dropped (R657). -/
theorem eventNoticeSend_drops {k : Nat} (hk : k < 4) (hu : Map.get [] s.events.unsent k ≠ []) (hl : s.steward.lost = false)
    (h0 : (s.eventTarget k).2 = 0) :
    exec (.eventNoticeSend k) s = .next { s with events := { s.events with unsent := Map.set [] s.events.unsent k [] } } := by
  rcases hx : s.eventTarget k with ⟨address, port⟩
  rw [hx] at h0
  have hexec : exec (.eventNoticeSend k) s = execEventNoticeSend k s := rfl
  unfold execEventNoticeSend at hexec
  rw [hx] at hexec
  refine hexec.trans (congrArg Host.Outcome.next ((if_neg ?_).trans (if_pos h0)))
  rw [hl, decide_eq_false (Nat.not_le_of_lt hk)]
  simpa using hu

/-- A target's records go out in one message, the first at once (R657). -/
theorem eventNoticeSend_sends {k : Nat} (hk : k < 4) (hu : Map.get [] s.events.unsent k ≠ []) (hl : s.steward.lost = false)
    (h0 : (s.eventTarget k).2 ≠ 0) (hlast : Map.get 0 s.events.lastNotice k = 0) : Completes (.eventNoticeSend k) s fun u =>
      Map.get [] u.events.unsent k = [] ∧ (∃ message, u.out = .datagram (s.eventTarget k).1 (s.eventTarget k).2 message :: s.out) ∧
      Map.get 0 u.events.noticeSeq k = (Map.get 0 s.events.noticeSeq k + 1) % 2 ^ 16 ∧
      u = { s with events := u.events, regs := u.regs, out := u.out } := by
  rcases hx : s.eventTarget k with ⟨address, port⟩
  rw [hx] at h0
  have hexec : exec (.eventNoticeSend k) s = execEventNoticeSend k s := rfl
  unfold execEventNoticeSend at hexec
  rw [hx] at hexec
  have hsent : (decide (4 ≤ k) || (Map.get [] s.events.unsent k).isEmpty || s.steward.lost) = false := by
    rw [hl, decide_eq_false (Nat.not_le_of_lt hk)]
    simpa using hu
  replace hexec := hexec.trans (congrArg Host.Outcome.next ((if_neg (by rw [hsent]; exact Bool.false_ne_true)).trans ((if_neg h0).trans
    (if_neg (by rw [hlast]; exact Bool.false_ne_true)))))
  extract_lets data seq header events s1 at hexec
  refine ⟨_, hexec, ?_, ⟨_, rfl⟩, ?_, rfl⟩
  · exact Map.get_set_same [] s.events.unsent k []
  · exact Map.get_set_same 0 s.events.noticeSeq k _

/-- EVENT_PENDING is cleared by writing 1 (R655). -/
theorem eventPendingWrite_eq {x : BitVec 64} (hl : s.steward.lost = false) (h : x &&& 0x7FFFFFFE = x) : exec (.eventPendingWrite x) s =
    .next (s.setReg 0xA200 3 (s.reg 0xA200 3 ^^^ (s.reg 0xA200 3 &&& x.toNat))) :=
  congrArg Host.Outcome.next ((State.written_of_steward hl).trans (if_pos h))

/-! ### The sideband port (R661 to R663) -/

theorem arpRequest_answers {mac : BitVec 48} {ip target : BitVec 32} (hr : s.receives true = true) (ht : target.toNat = s.reg 0x5300 6) :
    exec (.arpRequest mac ip target) s = .next (s.send (.ethernet 0x0806
      (bigEndian 6 Config.sidebandMac.toNat ++ bigEndian 4 target.toNat ++ bigEndian 6 mac.toNat ++ bigEndian 4 ip.toNat))) := by
  refine congrArg Host.Outcome.next (if_neg ?_)
  rw [hr, decide_eq_false (not_not_intro ht)]
  decide

theorem ndpSolicitation_answers {source six : BitVec 128} (hr : s.receives false = true) (ht : six.toNat = linkLocal) :
    exec (.ndpSolicitation source six) s = .next (s.send (.ethernet etherNeighbour
      (bigEndian 16 source.toNat ++ bigEndian 16 six.toNat ++ bigEndian 6 Config.sidebandMac.toNat))) := by
  refine congrArg Host.Outcome.next (if_neg ?_)
  rw [hr, decide_eq_false (not_not_intro ht), Bool.false_and]
  decide

/-- A DHCP message on a port whose mode asks for an address (R663). -/
theorem dhcpv4Message_eq {type : Byte} {ip : BitVec 32} (hr : s.receives false = true) (hmode : s.reg 0x5300 2 = 1) :
    exec (.dhcpv4Message type ip) s = .next (
      let use (n : Nat) : State := if s.reg 0x5300 6 = n then s else ({ s with dict := { s.dict with jop := [] } } : State).setReg 0x5300 6 n
      if type = 2 then s.send (.ethernet etherDhcp (bigEndian 4 ip.toNat))
      else if type = 5 then use ip.toNat
      else if type = 6 then use 0
      else s) := by
  refine congrArg Host.Outcome.next (if_neg ?_)
  rw [hr, decide_eq_false (not_not_intro hmode)]
  decide

/-- Settles O56. -/
theorem dictionaryTimeAndSideband : Obligations.DictionaryTimeAndSideband := by
  unfold Obligations.DictionaryTimeAndSideband
  intro s t id idx sub address bytes v mac ip target six source
  refine ⟨snapshotDiscard_drops, privTimeout_lowers, replayExpiry_drops, fun hl h => ?ended, fun hl h => ?locked,
    fun js hj hidx hl => rwsSaveDone_stores hj hidx hl, fun hj => ⟨?noSave, ?noProgram⟩, fun js off hj => flashDone_programs hj,
    eventMsixSend_member, eventMsixSend_head, fun h => congrArg Host.Outcome.next (if_pos h),
    fun ht hu hl => ⟨eventNoticeSend_drops ht hu hl, eventNoticeSend_sends ht hu hl⟩, eventPendingWrite_eq, fun h => ?reserved, fun hl => ?group,
    arpRequest_answers, fun h => ?arpOther, fun h => congrArg Host.Outcome.next (if_pos h), ndpSolicitation_answers,
    fun hr hm => ⟨(dhcpv4Message_eq hr hm).trans (congrArg _ (if_pos rfl)), fun hip => ?acknowledged⟩, fun h => ?static,
    fun h2 hv => ?link, fun h => ?noLink⟩
  case ended =>
    refine congrArg Host.Outcome.next ?_
    rw [hl]
    exact if_pos h
  case locked =>
    refine congrArg Host.Outcome.next ?_
    rw [hl]
    exact if_neg (Nat.not_le_of_lt h)
  case noSave =>
    refine congrArg Host.Outcome.next ?_
    rw [hj]
    exact ite_self _
  case noProgram =>
    refine congrArg Host.Outcome.next ?_
    rw [hj]
    rfl
  case reserved => exact congrArg Host.Outcome.next (State.written_self (if_neg h))
  case group => exact congrArg Host.Outcome.next (State.written_of_steward hl)
  case arpOther => exact congrArg Host.Outcome.next (if_pos (by simp [h]))
  case acknowledged =>
    exact (dhcpv4Message_eq hr hm).trans (congrArg _ ((if_neg (by decide)).trans ((if_pos rfl).trans (if_neg hip))))
  case static => exact congrArg Host.Outcome.next (if_pos (by simp [h]))
  case link =>
    refine congrArg Host.Outcome.next (if_neg ?_)
    rw [hv, decide_eq_false (Nat.not_lt_of_le h2)]
    decide
  case noLink => exact congrArg Host.Outcome.next (if_pos (by simp [h]))

end Sys2Proof.Machine
end
